-- ==== Sys2Proof/Word.lean ====
section
/-! DEFINITION. The word types of the LX4096: bytes, register words and sample indexes (R7, R12, R16). -/

namespace Sys2Proof

/-- A byte (R12). -/
abbrev Byte := BitVec 8

/-- A 32-bit register word (R7). -/
abbrev Word := BitVec 32

/-- A 64-bit value: the sample index (R16), a register pair (R8), an address. -/
abbrev DWord := BitVec 64

end Sys2Proof
end

