-- ==== Sys2Proof/Syntax.lean ====
section
/-! DEFINITION. The commands of the block: one constructor per row of the operation table, with its operands, and
the types of those operands. -/

namespace Sys2Proof

/-- The masters of the bus matrix, in the order of their codes (R371). -/
inductive Master where
  | supervisor | timekeeper | beryl (k : Fin 4) | host | dma | twin | debug
  deriving DecidableEq, Repr

/-- A frame as a lane receiver gets it (R78, R81): the header bytes received, whether a code violation fell in the
header, the payload bytes (`none`: a code violation), the four CRC bytes of CTL and TWIN frames, whether K29.7 stood at
the position PAYLOAD_LEN implies, the local counter at SOF and at EOF, and whether a
time step fell between the two (R29). -/
structure RxFrame where
  header : List Byte
  headerCv : Bool
  payload : List (Option Byte)
  crc : List (Option Byte)
  eofInPlace : Bool
  sofAt : Nat
  eofAt : Nat
  acrossStep : Bool
  deriving DecidableEq, Repr

/-- The measurement of one peaking setting in a calibration run (R61): the 64 phase points and the 64 threshold points
that were open. -/
structure EyeScan where
  phase : List Bool
  threshold : List Bool
  deriving DecidableEq, Repr

/-- Where a mailbox command comes from: the host's mailbox, or the relay path with its port and session key (R356,
R412). -/
inductive CmdSource where
  | host
  | relay (port : Fin 2) (serial time : DWord)
  deriving DecidableEq, Repr

/-- Bits of a codeword in error as a read finds them (R304, R306): requester code, codeword (byte address / 16), and the
pattern of its 20 bytes, data bytes first. -/
structure CorrErr where
  requester : Fin 14
  word : Nat
  error : List Byte
  deriving DecidableEq, Repr

/-- What a DIMM's SPD says (R298): an RDIMM of JESD79-5, neither LRDIMM nor 3DS stack; the rated data rate in MT/s; 8 check
bits a subchannel; device density in Gbit and width; ranks; size in GiB. -/
structure Dimm where
  rdimm : Bool
  rate : Nat
  ecc8 : Bool
  gbit : Nat
  width : Nat
  ranks : Nat
  gib : Nat
  deriving DecidableEq, Repr

/-- A PRBS mode and what its checker finds under it (R70): whether it locks, and the errors it counts. -/
structure PrbsRun where
  mode : Fin 4
  locked : Bool
  errors : Nat
  deriving DecidableEq, Repr

/-- An access to the weight store through BAR 4 or a window (R222): a read or a write, with the bytes it covers (`none`: a
byte not enabled; of a read only which bytes are enabled counts). -/
structure WeightAccess where
  read : Bool
  data : List (Option Byte)
  deriving DecidableEq, Repr

/-- Something with the time that goes with it: a counter value at which it happens, or how long it has lasted. -/
structure Timed (α : Type) where
  what : α
  time : Nat
  deriving DecidableEq, Repr

/-- An edge at a PPS input (R325): its time in 1/16 ns, and how many clock cycles the level held. -/
structure PpsStamp where
  time : Nat
  held : Nat
  deriving DecidableEq, Repr

/-- A buffer in host memory (R359): its address and its size in bytes. -/
structure HostBuffer where
  addr : DWord
  room : DWord
  deriving DecidableEq, Repr

/-- What the board shows the chip at reset beside BOOT_SRC (R298, R454): TEST_MODE, and the DIMMs fitted per channel. -/
structure Board where
  testMode : Bool
  dimms : List (List Dimm)
  deriving DecidableEq, Repr

/-- A nibble's scan in the interface sweep (R318): the points 0 to 63 of RD_DQ and of WR_DQ that passed. -/
structure SweepScan where
  rd : List Bool
  wr : List Bool
  deriving DecidableEq, Repr

/-- The measurement of one reference source that is present against XO_IN (R324): source code, lane for LANE, and frequency
offset in 10^-12 averaged over 1 s; for a PPS source that of the intervals between its accepted edges. -/
structure RefMeas where
  source : Fin 8
  lane : Fin 16
  ffo : Word
  deriving DecidableEq, Repr

/-- When an event message passes, in 1/16 ns of local time (R341, R342): the stamp at the MAC point, and the moment at the
medium boundary. -/
structure PtpStamp where
  mac : Int
  boundary : Int
  deriving DecidableEq, Repr

/-- What a received PTP message is: the one its row names, or a kind that no row names; the reserved messageTypes are 4 to 7,
14 and 15 (R339, R340, IEEE 1588-2019). -/
inductive PtpKind where
  | own | management | peerDelay | signaling
  | reserved (i : Fin 6)
  deriving DecidableEq, Repr

/-- What every PTP message carries (R339): its kind, version, domainNumber, source port identity, sequence number,
correctionField in 2^-16 ns, and its other bytes. -/
structure PtpMsg where
  kind : PtpKind
  version : Fin 16
  domain : Byte
  clockId : DWord
  portNumber : BitVec 16
  seq : BitVec 16
  correction : Int
  body : List Byte
  deriving DecidableEq, Repr

/-- The dataset of an Announce message (R339, IEEE 1588-2019 clause 9.3). -/
structure PtpDataset where
  priority1 : Byte
  clockClass : Byte
  accuracy : Byte
  variance : BitVec 16
  priority2 : Byte
  /-- Octet 0 in the low byte. -/
  grandmaster : DWord
  stepsRemoved : BitVec 16
  deriving DecidableEq, Repr


/-- One half of a parallel move (R294): pointer P0 to P3 on X or P4 to P7 on Y, whether it is modified after the access
(X mode 2, Y mode 1), and the register D0 to D7. -/
inductive BrlMove where
  | none
  | load (p : Fin 4) (modify : Bool) (r : Fin 8)
  | store (p : Fin 4) (modify : Bool) (r : Fin 8)
  deriving DecidableEq, Repr

/-- The parallel moves of a PM instruction, on X and on Y. -/
structure BrlMoves where
  x : BrlMove
  y : BrlMove
  deriving DecidableEq, Repr

/-- The count of LOOP or ITER (R285, R286): an immediate that holds count − 1, or a D register. -/
inductive BrlCount where
  | imm (n : BitVec 16)
  | reg (d : Fin 16)
  deriving DecidableEq, Repr

/-- The operands of a load or store in format M (R294): bus Y or X, Dn, Pn, mode and displacement. -/
structure BrlAccess where
  y : Bool
  d : Fin 16
  p : Fin 8
  mode : Fin 4
  disp : BitVec 12
  deriving DecidableEq, Repr

/-- A field of the endpoint's configuration space (R350 to R352, R355): identity and capabilities, which are read only;
Device Control; the base addresses of BAR 0, BAR 2 and BAR 4; MSI-X Enable and Function Mask. -/
inductive PcieField where
  | vendorId | deviceId | revisionId | classCode | subsystemVendorId | subsystemId | serialNumber | capabilities
  | maxLinkSpeed | maxLinkWidth
  | maxPayload | maxReadRequest | relaxedOrdering
  | bar (n : Fin 3)
  | msixEnable | functionMask
  deriving DecidableEq, Repr

/-- A request of the host to the endpoint beside those for registers and the weight store: to BAR 2 (R353), a read of `n`
bytes or a write with the bytes that lack a byte enable left out; or a configuration request, which the table gives no row of
its own (log entry 56). -/
inductive Bar2Req where
  | read (n : Nat)
  | write (bytes : List (Option Byte))
  | configRead (field : PcieField)
  | configWrite (field : PcieField) (value : Nat)
  deriving DecidableEq, Repr

/-- An entry of a chain table (R424): buffer address, length, and LAST. -/
structure ChainEntry where
  addr : DWord
  len : Word
  last : Bool
  deriving DecidableEq, Repr

/-- A relay frame as it comes in on a relay path port (R405): the 32 header bytes, the payload without padding, and the
four bytes of its CRC-32C. -/
structure RelayFrame where
  header : List Byte
  payload : List Byte
  crc : List Byte
  deriving DecidableEq, Repr


/-- A command of the block: one constructor per row of the operation table. -/
inductive Instr where
  /-- REGISTER_WRITE (R9). A host or master writes a register that has no row of its own; the field is set, ignored, cleared or set by access code. -/
  | registerWrite (m : Master) (addr : BitVec 26) (v : Word) (be : BitVec 4)
  /-- RC_REGISTER_READ (R11). A read of an RC counter returns its value and clears it, keeping an increment that falls in the same cycle. -/
  | rcRegisterRead (m : Master) (addr : BitVec 26) (be : BitVec 4)
  /-- PAIR_LOW_WORD_READ (R8). A read of the low word of a 64-bit register pair latches the high word for the same requester. -/
  | pairLowWordRead (m : Master) (addr : BitVec 26)
  /-- START (R24). The START mailbox command names start frame F0 and enables the data path, or fails with TIMING or NOT_READY. -/
  | start (src : CmdSource) (tag : Word) (f0 : BitVec 48)
  /-- STOP (R25). The STOP mailbox command names stop frame FS, after which units cease processing and the integration holding FS is abandoned. -/
  | stop (src : CmdSource) (tag : Word) (fs : BitVec 48)
  /-- DATA_PATH_STOP_COMPLETE (R25). When the last readout after a STOP has ended, the supervisor clears the EN bits and the data path is stopped. -/
  | dataPathStopComplete
  /-- FRAME_TICK (R26). The local sample counter's bits 20:0 become zero and a new frame starts. -/
  | frameTick (ydxWritten : Option (BitVec 64))
  /-- CORRELATION_WINDOW_OPEN (R30). At tick s·S + S + 2 the correlation window of span s opens and its slot goes to CORRELATING. -/
  | correlationWindowOpen (span : Nat)
  /-- CORRELATION_WINDOW_CLOSE (R182). At tick s·S + 2S + 2 the correlation window closes and unfinished channels are skipped with SKIP_OVERRUN. -/
  | correlationWindowClose (span : Nat)
  /-- READOUT_WINDOW_OPEN (R204). At tick E + S + 2 the readout window of an integration opens. -/
  | readoutWindowOpen (integ : Nat)
  /-- READOUT_WINDOW_CLOSE (R207). At tick E + 2S + 2 every channel not read out is left DIRTY, counted and flagged as a readout overrun. -/
  | readoutWindowClose (integ : Nat)
  /-- INGEST_CLOSE (R98). At the ingest close of frame f the lock count and the ingest validity bits of each enabled lane are evaluated. -/
  | ingestClose (frame : Nat)
  /-- SIGNAL_LOST_TIMEOUT (R98). A lane in RESYNC or LOCKED with no arrival during two local frames becomes LOST at the tick. -/
  | signalLostTimeout (lane : Fin 16)
  /-- LANE_ENABLE_WRITE (R48). Setting EN_TX and EN_RX of a lane starts its bring-up; clearing either takes it out of UP. -/
  | laneEnableWrite (lane : Fin 56) (enTx enRx : Bool)
  /-- TX_PLL_LOCKED (R48). The lane transmit PLL locks and the lane sends idle ordered sets with STATUS ALIGNING. -/
  | txPllLocked (lane : Fin 56)
  /-- CDR_LOCKED (R48). The lane CDR locks to the far end's signal and LINK_STATE becomes ALIGNING. -/
  | cdrLocked (lane : Fin 56)
  /-- COMMA_ALIGNED (R49). Three K28.5 arrive at one boundary with no violation; an unbonded lane goes UP, a bonded lane to DESKEW. -/
  | commaAligned (lane : Fin 56)
  /-- BOND_DESKEWED (R53). The lanes of a bond align on a common align marker and all go UP. -/
  | bondDeskewed (lane : Fin 56) (arrival : List Nat)
  /-- STATUS_ORDERED_SET_RECEIVED (R75). A STATUS ordered set whose third byte complements the second updates REMOTE_STATE. -/
  | statusOrderedSetReceived (lane : Fin 56) (state check : Byte)
  /-- IDLE_ORDERED_SET_RECEIVED (R77). An IDLE ordered set is received and may be deleted or repeated by the elastic buffer. -/
  | idleOrderedSetReceived (lane : Fin 56) (drift : Fin 3)
  /-- UNDEFINED_ORDERED_SET_RECEIVED (R74). An undefined ordered set is ignored and counted in LNK_n_UNEXPECTED. -/
  | undefinedOrderedSetReceived (lane : Fin 56)
  /-- CODE_VIOLATION (R52). A code violation increments LANE_n_CV_COUNT and may take the lane out of UP. -/
  | codeViolation (lane : Fin 56) (symbol : Nat)
  /-- COMMA_MISALIGNED (R51). Three consecutive commas at another boundary take the lane back to ALIGNING. -/
  | commaMisaligned (lane : Fin 56)
  /-- CDR_LOCK_LOST (R51). The CDR loses lock and the lane returns to CDR_ACQ. -/
  | cdrLockLost (lane : Fin 56)
  /-- BOND_SKEW_EXCEEDED (R53). A bond's measured skew exceeds 64 symbols; it leaves UP and stays in DESKEW with BOND_SKEW. -/
  | bondSkewExceeded (lane : Fin 56) (arrival : List Nat)
  /-- LANE_PSTATE_REQUEST (R56). A write of PSTATE_REQ requests ACTIVE, QUIET or SLEEP and announces a new state by STATUS ordered sets. -/
  | lanePstateRequest (lane : Fin 56) (req : Fin 4)
  /-- LANE_POWER_STATE_ENTERED (R55). After its announcements the lane enters QUIET or SLEEP. -/
  | lanePowerStateEntered (lane : Fin 56)
  /-- LANE_WAKE_COMPLETE (R55). A lane's exit from QUIET or SLEEP to ACTIVE completes. -/
  | laneWakeComplete (lane : Fin 56)
  /-- ANNOUNCED_IDLE_DETECTED (R57). Electrical idle after an announced QUIET or SLEEP takes the receiver to PARKED without LANE_DOWN. -/
  | announcedIdleDetected (lane : Fin 56)
  /-- LANE_LOOPBACK_WRITE (R70). A write of LOOPBACK enables or disables near-end loopback on a lane. -/
  | laneLoopbackWrite (lane : Fin 56) (mode : Fin 4)
  /-- LANE_PRBS_MODE_WRITE (R70). A write of PRBS_MODE starts or stops the PRBS generator and checker. `errors` are the bit
  errors the checker has found since the write before, and `locked` tells whether it locks to the pattern. -/
  | lanePrbsModeWrite (lane : Fin 56) (mode : PrbsRun)
  /-- LANE_CAL_START (R60). A write of START to LANE_n_CAL_CTRL queues a lay-by calibration of the lane. -/
  | laneCalStart (lane : Fin 56)
  /-- CAL_RUN_COMPLETE (R62). One calibration run ends and is compared with the run before. -/
  | calRunComplete (lane : Fin 56) (scan : List EyeScan)
  /-- LAYBY_SWAP (R64). At the next align marker the lay-by path takes over as main path. -/
  | laybySwap (lane : Fin 56)
  /-- LANE_RXEQ_WRITE (R66). A write to LANE_n_RXEQ applies at once on a lane not UP, or runs a pinned one-run calibration on an UP lane. -/
  | laneRxeqWrite (lane : Fin 56) (dcgain : Fin 4) (peak : Fin 16)
  /-- LANE_TXEQ_WRITE (R45). A write to LANE_n_TXEQ sets a new transmit FIR pending. -/
  | laneTxeqWrite (lane : Fin 56) (swing post pre : Fin 32)
  /-- TXEQ_APPLY (R45). The new transmit setting takes effect at the next align marker sent. -/
  | txeqApply (lane : Fin 56)
  /-- CAL_PERIOD_EXPIRY (R67). LANE_CAL_PERIOD expires and a calibration is queued on every lane that is UP. -/
  | calPeriodExpiry
  /-- INGEST_FRAME_RECEIVED (R96). An INGEST frame is received whole, checked, classified and its samples accepted or discarded. -/
  | ingestFrameReceived (lane : Fin 56) (frame : RxFrame)
  /-- SOF_INSIDE_FRAME (R82). A K27.7 inside a frame discards that frame and begins a new one. -/
  | sofInsideFrame (lane : Fin 56) (frame : RxFrame)
  /-- INGEST_ENABLE_WRITE (R97). A write of LNK_ING_EN moves a lane's signals from OFF to LOST or back to OFF. -/
  | ingestEnableWrite (enable : BitVec 16)
  /-- XCH_FRAME_RECEIVED (R151). An XCH packet is checked and accepted, forwarded or dropped. -/
  | xchFrameReceived (lane : Fin 56) (frame : RxFrame) (full : Bool)
  /-- CTL_FRAME_RECEIVED (R90). A CTL frame carrying a firmware message is received and acted on or counted as unexpected. -/
  | ctlFrameReceived (lane : Fin 56) (frame : RxFrame)
  /-- SIGNPOST_FRAME_RECEIVED (R256). A SIGNPOST frame is deduplicated, triggers with KIND 5 and may be forwarded. -/
  | signpostFrameReceived (lane : Fin 56) (frame : RxFrame)
  /-- RELAY_FRAME_RECEIVED (R231). An upstream beam relay RELAY frame is buffered for addition at the send point, or dropped as late. -/
  | relayFrameReceived (lane : Fin 56) (frame : RxFrame)
  /-- TWIN_SNAPSHOT_RECEIVED (R462). A SNAPSHOT TWIN frame is applied to the standby's mirrored set in stream order. -/
  | twinSnapshotReceived (lane : Fin 56) (frame : RxFrame)
  /-- TWIN_MIRROR_RECEIVED (R93). A MIRROR TWIN frame's write records are applied in order to the standby. -/
  | twinMirrorReceived (lane : Fin 56) (frame : RxFrame)
  /-- TWIN_DIGEST_RECEIVED (R463). The peer's DIGEST is compared with the chip's own for match or mismatch. -/
  | twinDigestReceived (lane : Fin 56) (frame : RxFrame)
  /-- TWIN_HEARTBEAT_RECEIVED (R460). A HEARTBEAT TWIN frame refreshes peer liveness and is checked for configuration and abandon. -/
  | twinHeartbeatReceived (lane : Fin 56) (frame : RxFrame)
  /-- MODEL_LATCH (R108). At the latch point of frame f each chain copies its matching model entry atomically. -/
  | modelLatch (frame : Nat)
  /-- MODEL_TABLE_WRITE (R109). A word of a model entry is stored; a write of word 1 fixes the slot's FRAME and VALID match. -/
  | modelTableWrite (m : Master) (signal : Fin 64) (slot : Fin 4) (word : Fin 16) (data : Word)
  /-- CHZ_SWITCH_ARM (R124). A write of CHZ_SWITCH_FRAME_HI arms a filter and gain switch, or is refused with LATE. -/
  | chzSwitchArm (m : Master) (high : BitVec 16)
  /-- CHZ_MODE_ARM (R123). A write of CHZ_MODE_FRAME_HI arms a calibration-mode change, or is refused with MODE_REJECT. -/
  | chzModeArm (m : Master) (high : BitVec 16)
  /-- GAIN_BANK_WRITE (R125). A write to a gain bank, SHIFT register or loadable filter bank is applied or refused if the bank is in use. -/
  | gainBankWrite (m : Master) (addr : BitVec 26) (data : Word)
  /-- CHZ_RUN_WRITE (R130). A write of CHZ_CTRL.RUN requests a quad to start or stop at the next latch point. -/
  | chzRunWrite (quads : BitVec 4)
  /-- SPECTRUM_COMPLETE (R135). The last value of a spectrum leaves the channelizer 184.32 µs after its last sample. -/
  | spectrumComplete (frame : Nat) (spectrum : Fin 256) (missed : BitVec 4)
  /-- XCH_QUEUE_HEAD (R149). A packet reaches the head of a link queue and is sent, or dropped if its deadline passed or the link is DOWN. -/
  | xchQueueHead (link : Fin 14) (time : Nat)
  /-- POST_EXCHANGE_FIX (R153). At tick f+3 the owner fixes the post-exchange validity bits of frame f and counts missing packets. -/
  | postExchangeFix (frame : Nat)
  /-- LINK_NARROW_DELAY_EXPIRY (R157). A WIDE link out of UP for XR_NARROW_DELAY narrows onto an aligned lane or goes DOWN. -/
  | linkNarrowDelayExpiry (link : Timed (Fin 14))
  /-- XR_WIDEN_WRITE (R158). A write of WIDEN requests a NARROW link to return to WIDE at the next frame tick. -/
  | xrWidenWrite (bits : BitVec 14)
  /-- LINK_WIDEN (R158). At the next frame tick a widening link enables both lanes and re-bonds. -/
  | linkWiden (link : Fin 14)
  /-- SPAN_SLOT_CHOOSE (R164). At tick s·S the span writer chooses the slot for span s in rotation. -/
  | spanSlotChoose
  /-- XR_ENABLE_WRITE (R169). A write of XR_CTRL.EN enables the crossroads, or stops it at the next frame tick. -/
  | xrEnableWrite (enable : Bool)
  /-- COR_ENABLE (R192). Setting COR_CTRL.EN tests every usable tile and then builds the map. -/
  | corEnable
  /-- COR_DISABLE (R186). Clearing COR_CTRL.EN performs an abort-drain and leaves the correlator idle. -/
  | corDisable
  /-- COR_ABORT (R185). A write of 1 to COR_CTRL.ABORT performs an abort-drain with SKIP_ABORT. -/
  | corAbort
  /-- ABORT_DRAIN_COMPLETE (R185). Every tile is idle, ABORT_BUSY clears and correlation resumes as laid down. -/
  | abortDrainComplete
  /-- COMPUTE_COMPLETE (R178). The last spectrum of a channel is delivered and the drain marker starts FLUSH. -/
  | computeComplete
  /-- FLUSH_COMPLETE (R179). 24 cycles after the drain marker the adder tree is empty and DRAIN begins. -/
  | flushComplete (time : Nat)
  /-- DRAIN_COMPLETE (R178). The fold unit has accepted the last word of every tile and the channel boundary is reached. -/
  | drainComplete (time : Nat)
  /-- PATROL_PASS_COMPLETE (R189). A tile's self-test pass ends and the tile joins the pool, retests or is retired. -/
  | patrolPassComplete (tile : Fin 544) (signature : Word)
  /-- CAUSEWAY_READ_UE (R184). A span-store read with an uncorrectable error zeroes its signals for the frame and sets MEM_UE. -/
  | causewayReadUe (frame : Nat) (spectrum : Fin 256) (line : Fin 64)
  /-- INT_ENABLE (R198). Setting INT_CTRL.EN makes the sum-store states DIRTY and starts folding at the next integration. -/
  | intEnable
  /-- INT_DISABLE (R217). Clearing INT_CTRL.EN abandons the integration being folded. -/
  | intDisable
  /-- READOUT_CHANNEL (R205). Once the channel's last fold is done, the readout copies it in baseline order to staging and clears it. -/
  | readoutChannel
  /-- BEAM_POINT (R226). At the beam point of a spectrum the engines take it and decide each signal's contribution. -/
  | beamPoint (frame : Nat) (spectrum : Fin 256)
  /-- RELAY_SEND_POINT (R231). At its send point a chain position adds the upstream sum and sends RELAY frames or forms final beams. -/
  | relaySendPoint (frame : Nat) (spectrum : Fin 256)
  /-- BFM_FLIP_ARM (R224). A write of BFM_FLIP_FRAME_HI arms a weight flip, or is refused with LATE. -/
  | bfmFlipArm (m : Master) (high : BitVec 16)
  /-- WEIGHT_STORE_WRITE (R223). A BAR 4 or Beryl write to the weight store is applied or ignored if it falls in an active or
  pending bank. With `read` it is a read of the enabled bytes (R222). -/
  | weightStoreWrite (m : Master) (offset : BitVec 26) (data : WeightAccess)
  /-- IMPULSE_HORIZON_ADVANCE (R247). An impulse group's horizon advances and hits up to it are evaluated in index order. -/
  | impulseHorizonAdvance (group : Fin 8) (time : Nat)
  /-- TRIGGER_INJECT (R254). A write of TRG_INJECT.GO fires a KIND 3 trigger with the given channel and actions. -/
  | triggerInject (channel : BitVec 13) (action : BitVec 5)
  /-- RAW_SEGMENT_START (R258). At a frame with f mod 6 = 0 the raw ring writer takes the next free segment. -/
  | rawSegmentStart
  /-- RAW_WRITE_DEADLINE (R258). A raw ring write not done by tick f+2 is abandoned and the frame's RAW_GAP set. -/
  | rawWriteDeadline (frame : Nat) (written : BitVec 64)
  /-- SEGMENT_WRITE_COMPLETE (R259). A segment's last frame is written and a PENDING segment becomes FROZEN. -/
  | segmentWriteComplete (segment : Fin 96)
  /-- CAPTURE_RELEASE_WRITE (R262). A write to TRG_CAPTURE_RELEASE releases the named captures. -/
  | captureReleaseWrite (captures : BitVec 16)
  /-- CAPTURE_TIMEOUT (R262). TRG_TIMEOUT expires after COMPLETE and releases the capture with EXPIRED. -/
  | captureTimeout (capture : Fin 16)
  /-- HOLD_RELEASE_WRITE (R263). A write of TRG_HOLD_CFG.RELEASE releases the named span-slot holds. -/
  | holdReleaseWrite (slots : BitVec 4)
  /-- HOLD_TIMEOUT (R263). TRG_TIMEOUT expires and releases a span-slot hold. -/
  | holdTimeout (slot : Fin 4)
  /-- PARALLEL_MOVE (R295). A PM instruction with MAC op 0 performs only its parallel loads and stores. -/
  | parallelMove (k : Fin 4) (mv : BrlMoves)
  /-- MAC (R278). MAC adds s.lo × t.lo to an accumulator. -/
  | mac (k : Fin 4) (acc : Fin 4) (rs rt : Fin 16)
  /-- MSU (R278). MSU subtracts s.lo × t.lo from an accumulator. -/
  | msu (k : Fin 4) (acc : Fin 4) (rs rt : Fin 16)
  /-- MAC2 (R278). MAC2 adds the high and low products into an accumulator pair. -/
  | mac2 (k : Fin 4) (pair : Fin 2) (rs rt : Fin 16) (mv : BrlMoves)
  /-- MSU2 (R278). MSU2 subtracts the high and low products from an accumulator pair. -/
  | msu2 (k : Fin 4) (pair : Fin 2) (rs rt : Fin 16) (mv : BrlMoves)
  /-- CMAC (R278). CMAC adds a complex product into an accumulator pair. -/
  | cmac (k : Fin 4) (pair : Fin 2) (rs rt : Fin 16) (mv : BrlMoves)
  /-- CMSU (R278). CMSU subtracts a complex product from an accumulator pair. -/
  | cmsu (k : Fin 4) (pair : Fin 2) (rs rt : Fin 16) (mv : BrlMoves)
  /-- CMACJ (R278). CMACJ adds s × conj t into an accumulator pair. -/
  | cmacj (k : Fin 4) (pair : Fin 2) (rs rt : Fin 16) (mv : BrlMoves)
  /-- CMACZ (R278). CMACZ zeroes an accumulator pair and adds a complex product. -/
  | cmacz (k : Fin 4) (pair : Fin 2) (rs rt : Fin 16) (mv : BrlMoves)
  /-- LA (R294). LA loads a 24-bit immediate into an address register. -/
  | la (k : Fin 4) (areg : Fin 32) (imm : BitVec 24)
  /-- LOOP (R286). LOOP opens a hardware loop level over a body of 1 to 1,024 instructions. -/
  | loop (k : Fin 4) (intr : Bool) (count : BrlCount) (len : Fin 1024)
  /-- BRANCH (R284). A conditional or unconditional branch with two delay slots. -/
  | branch (k : Fin 4) (cond : Fin 16) (target : BitVec 15)
  /-- CALL (R284). CALL pushes the return address and branches with two delay slots. -/
  | call (k : Fin 4) (cond : Fin 16) (target : BitVec 15)
  /-- MOVK (R294). MOVK loads a sign-extended 16-bit immediate into a D register. -/
  | movk (k : Fin 4) (rd : Fin 16) (imm : BitVec 16)
  /-- MOVKH (R294). MOVKH loads a 16-bit immediate into the high half of a D register. -/
  | movkh (k : Fin 4) (rd : Fin 16) (imm : BitVec 16)
  /-- ADDK (R294). ADDK adds an immediate to a D register. -/
  | addk (k : Fin 4) (rd : Fin 16) (imm : BitVec 16)
  /-- CMPK (R294). CMPK compares a D register with an immediate and sets flags. -/
  | cmpk (k : Fin 4) (rd : Fin 16) (imm : BitVec 16)
  /-- LD (R275). LD loads a word from X or Y through a pointer with post-modify. -/
  | ld (k : Fin 4) (x : BrlAccess)
  /-- ST (R272). ST stores a word to X or Y, posting window stores to the write buffer. -/
  | st (k : Fin 4) (x : BrlAccess)
  /-- LDC (R288). LDC reads a constant from C memory. -/
  | ldc (k : Fin 4) (rd : Fin 16) (p : Fin 8) (disp : BitVec 12)
  /-- ADD (R281). ADD adds two registers modulo 2^32 and sets flags. -/
  | add (k : Fin 4) (rd rs rt : Fin 16)
  /-- ADDC (R281). ADDC adds with carry. -/
  | addc (k : Fin 4) (rd rs rt : Fin 16)
  /-- SUB (R281). SUB subtracts two registers and sets flags. -/
  | sub (k : Fin 4) (rd rs rt : Fin 16)
  /-- SUBC (R281). SUBC subtracts with borrow. -/
  | subc (k : Fin 4) (rd rs rt : Fin 16)
  /-- AND (R281). AND forms the bitwise AND. -/
  | and (k : Fin 4) (rd rs rt : Fin 16)
  /-- OR (R281). OR forms the bitwise OR. -/
  | or (k : Fin 4) (rd rs rt : Fin 16)
  /-- XOR (R281). XOR forms the bitwise XOR. -/
  | xor (k : Fin 4) (rd rs rt : Fin 16)
  /-- NOT (R281). NOT forms the bitwise complement. -/
  | not (k : Fin 4) (rd rs : Fin 16)
  /-- SHL (R281). SHL shifts left by the shift field. -/
  | shl (k : Fin 4) (rd rs : Fin 16) (n : Fin 32)
  /-- SHR (R281). SHR shifts right logically by the shift field. -/
  | shr (k : Fin 4) (rd rs : Fin 16) (n : Fin 32)
  /-- ASR (R281). ASR shifts right arithmetically by the shift field. -/
  | asr (k : Fin 4) (rd rs : Fin 16) (n : Fin 32)
  /-- ASRR (R281). ASRR shifts right with round half up. -/
  | asrr (k : Fin 4) (rd rs : Fin 16) (n : Fin 32)
  /-- SHLV (R295). SHLV shifts left by Dt[4:0]. -/
  | shlv (k : Fin 4) (rd rs rt : Fin 16)
  /-- ASRV (R295). ASRV shifts right arithmetically by Dt[4:0]. -/
  | asrv (k : Fin 4) (rd rs rt : Fin 16)
  /-- ABS (R281). ABS forms the saturated absolute value. -/
  | abs (k : Fin 4) (rd rs : Fin 16)
  /-- NEG (R281). NEG forms the saturated negation. -/
  | neg (k : Fin 4) (rd rs : Fin 16)
  /-- MIN (R295). MIN takes the smaller of two registers. -/
  | min (k : Fin 4) (rd rs rt : Fin 16)
  /-- MAX (R295). MAX takes the larger of two registers. -/
  | max (k : Fin 4) (rd rs rt : Fin 16)
  /-- CMP (R281). CMP compares two registers and sets flags. -/
  | cmp (k : Fin 4) (rs rt : Fin 16)
  /-- MOV (R295). MOV copies one D register to another. -/
  | mov (k : Fin 4) (rd rs : Fin 16)
  /-- CADD (R281). CADD adds complex halves with saturation. -/
  | cadd (k : Fin 4) (rd rs rt : Fin 16)
  /-- CSUB (R281). CSUB subtracts complex halves with saturation. -/
  | csub (k : Fin 4) (rd rs rt : Fin 16)
  /-- CONJ (R281). CONJ conjugates a complex register with saturation. -/
  | conj (k : Fin 4) (rd rs : Fin 16)
  /-- MPY (R295). MPY multiplies the low halves. -/
  | mpy (k : Fin 4) (rd rs rt : Fin 16)
  /-- MPYH (R295). MPYH multiplies the high halves. -/
  | mpyh (k : Fin 4) (rd rs rt : Fin 16)
  /-- CMPY (R281). CMPY forms a rounded, saturated complex product. -/
  | cmpy (k : Fin 4) (rd rs rt : Fin 16)
  /-- MOVA (R280). MOVA moves a shifted, rounded, saturated accumulator to a D register. -/
  | mova (k : Fin 4) (rd : Fin 16) (acc : Fin 4)
  /-- MOVAC (R280). MOVAC moves an accumulator pair to a complex D register. -/
  | movac (k : Fin 4) (rd : Fin 16) (pair : Fin 2)
  /-- MOVDA (R280). MOVDA loads an accumulator from a D register, sign-extended. -/
  | movda (k : Fin 4) (acc : Fin 4) (rs : Fin 16)
  /-- CLRA (R280). CLRA zeroes the accumulators selected by a mask. -/
  | clra (k : Fin 4) (mask : BitVec 4)
  /-- MOVR_TO_AREG (R282). MOVR writes an address or status register from a D register. -/
  | movrToAreg (k : Fin 4) (areg : Fin 32) (rs : Fin 16)
  /-- MOVR_FROM_AREG (R294). MOVR reads an address or status register into a D register. -/
  | movrFromAreg (k : Fin 4) (rd : Fin 16) (areg : Fin 32)
  /-- AADD (R294). AADD adds a D register to an address register. -/
  | aadd (k : Fin 4) (areg : Fin 32) (rs : Fin 16)
  /-- AADDK (R294). AADDK adds an immediate to an address register. -/
  | aaddk (k : Fin 4) (areg : Fin 32) (imm : BitVec 15)
  /-- NOP (R295). NOP does nothing. -/
  | nop (k : Fin 4)
  /-- RET (R291). RET pops the return address with two delay slots. -/
  | ret (k : Fin 4)
  /-- RETI (R291). RETI pops the return address and SR. -/
  | reti (k : Fin 4)
  /-- HALT (R295). HALT stops the core in HALTED and clears RUN. -/
  | halt (k : Fin 4)
  /-- WAIT (R292). WAIT stops fetch until an enabled vector is pending. -/
  | wait (k : Fin 4)
  /-- SWI (R289). SWI sets vector 15 pending. -/
  | swi (k : Fin 4)
  /-- FENCE (R272). FENCE waits until the window write buffer is empty. -/
  | fence (k : Fin 4)
  /-- SEI (R295). SEI sets IE. -/
  | sei (k : Fin 4)
  /-- CLI (R295). CLI clears IE. -/
  | cli (k : Fin 4)
  /-- SEV (R295). SEV raises an event source of the core in the event router. -/
  | sev (k : Fin 4) (event : Fin 4)
  /-- ITER (R285). ITER repeats the next instruction n times. -/
  | iter (k : Fin 4) (count : BrlCount)
  /-- INTERRUPT_TAKE (R291). A pending enabled vector is taken at an allowed boundary, pushing PC and SR and clearing IE. -/
  | interruptTake (k : Fin 4)
  /-- WINDOW_WRITE_COMPLETE (R272). A posted window store leaves the write buffer and completes at its target. -/
  | windowWriteComplete (k : Fin 4)
  /-- WINDOW_ACCESS_ERROR (R273). A window access gets an error response; the load returns 0, the address is captured and vector 13 pends. -/
  | windowAccessError (k : Fin 4) (load : Option BrlAccess)
  /-- BRL_RUN_WRITE (R292). A write of BRL_k_CTRL.RUN starts the core or halts it at the next allowed boundary. -/
  | brlRunWrite (k : Fin 4) (runBit : Bool)
  /-- CORE_RESET (R296). A write of CORE_RESET clears the core's registers, stacks and pending vectors and leaves it in RESET. -/
  | coreReset (k : Fin 4)
  /-- BRL_STEP (R297). A write of STEP from HALTED runs one instruction or span and halts. -/
  | brlStep (k : Fin 4)
  /-- BRL_MBOX_IN_WRITE (R289). A host write to BRL_k_MBOX_IN sets vector 14 pending. -/
  | brlMboxInWrite (k : Fin 4) (value : Word)
  /-- BRL_IRQ_PEND_WRITE (R289). A W1S write to BRL_k_IRQ_PEND sets vectors pending. -/
  | brlIrqPendWrite (k : Fin 4) (vectors : BitVec 16)
  /-- BRL_TIMER_EXPIRY (R289). The core timer period expires and vector 12 becomes pending. -/
  | brlTimerExpiry (k : Fin 4)
  /-- HOST_C_MEMORY_WRITE (R269). A host write to C memory takes effect only while the core is HALTED, RESET or FAULT, otherwise sets HOST_REJECT. -/
  | hostCMemoryWrite (k : Fin 4) (index : Fin 32768) (data : Word)
  /-- REFRESH_INTERVAL (R313). A refresh interval elapses, the owed count rises and a refresh is issued, postponed or forced. -/
  | refreshInterval (sub : Fin 16) (rank : Fin 2) (class1Waits : Bool)
  /-- MR4_POLL (R312). Every 256 µs MR4 is read and a rank may change refresh mode. -/
  | mr4Poll (sub : Fin 16) (rank : Fin 2) (double : Bool)
  /-- MEM_PANIC (R311). A real-time buffer reaches the ON level and panic starts. -/
  | memPanic (raw : Fin 8193) (span : Timed (Fin 8193))
  /-- PANIC_END (R311). Both real-time buffers fall to the OFF level and panic ends. -/
  | panicEnd (raw span : Fin 8193) (time : Nat)
  /-- SCRUB_READ (R308). The scrubber reads the next line in address order. -/
  | scrubRead (found : List CorrErr)
  /-- SCRUB_WRITE_BACK (R308). A queued scrub write-back rewrites corrected codewords unless a write intervened. -/
  | scrubWriteBack
  /-- MEM_UE (R306). A read meets an uncorrectable error; the line fails, a log entry is written and MEM_UE raised. -/
  | memUe (requester : Fin 14) (line : Nat) (words : List (Fin 4 × List Byte)) (rmw : Bool)
  /-- MEM_GUARD_REFUSAL (R302). An access outside the requester's regions is refused and logged as GUARD. -/
  | memGuardRefusal (requester : Fin 14) (addr len : Nat) (write : Bool)
  /-- SELF_REFRESH_ENTRY (R315). A subchannel idle for MEM_SR_IDLE issues owed refreshes and enters self-refresh. -/
  | selfRefreshEntry (sub : Fin 16) (aborted : Option Nat)
  /-- SELF_REFRESH_EXIT (R316). A request, panic or commit takes a subchannel out of self-refresh. -/
  | selfRefreshExit (sub : Fin 16)
  /-- REQUEST_AGE_PROMOTION (R310). A request waiting longer than MEM_AGE_LIMIT is served as class 2. -/
  | requestAgePromotion (requester : Fin 14)
  /-- MEM_SWEEP_COMMIT (R318). A write of COMMIT sets BUSY and schedules the TRIAL-to-LIVE copy. -/
  | memSweepCommit (sub : Fin 16) (trialEn : Bool)
  /-- MEM_INIT (R319). A write of MEM_CTRL.INIT starts the zero fill of the whole capacity. -/
  | memInit
  /-- MEM_INIT_DONE (R319). The zero fill completes and INIT_DONE is set. -/
  | memInitDone
  /-- PRIORITY_EVALUATION (R327). The timekeeper evaluates the reference priority table and keeps, selects or switches a reference. -/
  | priorityEvaluation (measured : List RefMeas) (output : Word) (seconds : Nat)
  /-- REF_QUALIFIED (R324). A source present and in window for CLK_QUAL_TIME becomes qualified. -/
  | refQualified (source : Fin 8) (lane : Fin 16) (ffo : Word)
  /-- REF_LOST (R324). A source is lost or leaves its window and is disqualified at once. -/
  | refLost (source : Fin 8) (lane : Fin 16) (lost : Bool)
  /-- BUILD_OUT_COMPLETE (R330). Phase build-out of a switch completes and the DPLL goes to LOCKED or STEER. -/
  | buildOutComplete
  /-- ACQUIRE_LOCKED (R329). Frequency error below 1 ppb over 1 s takes the DPLL from ACQUIRE to LOCKED. -/
  | acquireLocked
  /-- HOLDOVER_OOS (R333). The milestone counter reaches its limit and OOS is set. -/
  | holdoverOos
  /-- PPS_EDGE (R325). A filtered PPS edge is accepted, timestamped, or ignored as too fast. -/
  | ppsEdge (pps : Fin 2) (falling : Bool) (time : PpsStamp)
  /-- STEER_FFO_WRITE (R335). A write to CLK_STEER_FFO sets the open-loop frequency, clamped, when the writer owns it. -/
  | steerFfoWrite (m : Master) (ffo : Word)
  /-- PHASE_ADJ_WRITE (R337). A write to CLK_PHASE_ADJ adds a phase amount to be slewed out. -/
  | phaseAdjWrite (m : Master) (amount : Word)
  /-- PTP_SYNC_RECEIVED (R343). A Sync message is stamped and used by the servo. -/
  | ptpSyncReceived (port : Fin 2) (msg : PtpMsg) (origin : Option Nat) (ingress egress : PtpStamp)
  /-- PTP_FOLLOW_UP_RECEIVED (R343). A Follow_Up message supplies the precise origin time to the servo. -/
  | ptpFollowUpReceived (port : Fin 2) (msg : PtpMsg) (origin : Nat)
  /-- PTP_DELAY_RESP_RECEIVED (R343). A Delay_Resp completes an exchange and updates offset and path delay. -/
  | ptpDelayRespReceived (port : Fin 2) (msg : PtpMsg) (received : Nat) (requester : DWord)
  /-- PTP_ANNOUNCE_RECEIVED (R339). An Announce message enters the best-master comparison and port states. -/
  | ptpAnnounceReceived (port : Fin 2) (msg : PtpMsg) (data : PtpDataset)
  /-- PTP_DELAY_REQ_SEND (R339). The slave sends a Delay_Req at the master's interval. -/
  | ptpDelayReqSend (port : Fin 2) (stamp : PtpStamp)
  /-- PTP_LINK_UP (R341). A relay path port comes up and measures its RX and TX latencies from the first 64 frames. -/
  | ptpLinkUp (port : Fin 2) (rx tx : List Int)
  /-- PTP_MEASURE_WRITE (R342). A write of MEASURE repeats the link-up latency measurement. -/
  | ptpMeasureWrite (port : Fin 2) (rx tx : List Int)
  /-- PTP_ENABLE_WRITE (R343). Setting PTP_CTRL.EN puts enabled ports in LISTENING and starts acquisition. -/
  | ptpEnableWrite (enable : Bool) (ports : BitVec 2)
  /-- FAULT_CLEAR (R345). A write of FAULT_CLEAR clears TIME_FAULT without a step and the servo slews. -/
  | faultClear
  /-- SET_TIME_ARM (R347). A write of CLK_SET_TIME_HI arms a time set, applied at once with SET_NOW. -/
  | setTimeArm (high : Word)
  /-- PPS_OUT_SECOND (R348). Local time crosses a whole second plus offset and PPS_OUT rises. -/
  | ppsOutSecond (time : Nat)
  /-- LOAD_STRUCTURE (R399). The LOAD_STRUCTURE command checks an image and applies all its sections. -/
  | loadStructure (src : CmdSource) (tag : Word) (offset : DWord) (length : Word)
  /-- LOAD_REGION (R400). The LOAD_REGION command applies only the sections of one service region. -/
  | loadRegion (src : CmdSource) (tag : Word) (offset : DWord) (length : Word) (region : Byte)
  /-- SCHEDULE_UPDATE (R413). The SCHEDULE_UPDATE command stages a bundle with an activation frame, optionally along the relay path. -/
  | scheduleUpdate (src : CmdSource) (tag : Word) (offset : DWord) (length : Word) (fa fr : BitVec 48) (timeout : BitVec 16) (relay force : Bool)
  /-- CONFIRM_UPDATE (R416). The CONFIRM_UPDATE command makes the trial slot ACTIVE. -/
  | confirmUpdate (src : CmdSource) (tag : Word) (id : DWord)
  /-- READ_HEALTH (R466). The READ_HEALTH command writes the 4,096-byte health record. -/
  | readHealth (src : CmdSource) (tag : Word) (host : DWord)
  /-- STEP_PERMIT (R345). The STEP_PERMIT command steps the counter by the offset and clears TIME_FAULT. -/
  | stepPermit (src : CmdSource) (tag : Word)
  /-- TWIN_JOIN (R459). The TWIN_JOIN command gives a twinned chip the ACTIVE, STANDBY or SOLO role. -/
  | twinJoin (src : CmdSource) (tag : Word) (role pair : Byte) (fj : BitVec 48)
  /-- DRAM_SWEEP (R318). The DRAM_SWEEP command scans and commits interface delays per subchannel. -/
  | dramSweep (src : CmdSource) (tag : Word) (mask : BitVec 16)
  /-- CAPTURE_READ (R359). The CAPTURE_READ command builds DMA descriptors to read a capture, optionally compressed and released. -/
  | captureRead (src : CmdSource) (tag : Word) (cap : Fin 16) (ring : Fin 4096) (host : HostBuffer) (compress release : Bool)
  /-- YODEX_RECORD (R430). The YODEX_RECORD command arms a recording of N frames from FS. -/
  | yodexRecord (src : CmdSource) (tag : Word) (fs : BitVec 48) (count : Word) (stream : Bool)
  /-- YODEX_REPLAY (R434). The YODEX_REPLAY command loads the seed and starts the data path from the recording. -/
  | yodexReplay (src : CmdSource) (tag : Word) (fp : BitVec 48) (pace : BitVec 16)
  /-- DMA_DOORBELL (R364). A write to DMA_DOORBELL_n starts fetching, refetches the anchor or marks a pending doorbell. -/
  | dmaDoorbell (ring : Fin 4096)
  /-- DESCRIPTOR_FETCHED (R363). A fetched descriptor is checked and executed in ring order. -/
  | descriptorFetched (ring : Fin 4096) (bytes : List Byte)
  /-- DESCRIPTOR_COMPLETE (R365). A descriptor's data completes; its record, message and END handling follow. -/
  | descriptorComplete (ring : Fin 4096) (data : List Byte)
  /-- CTRL_REFETCHED (R364). The refetched CTRL of the anchor descriptor leaves the ring IDLE or continues after it. -/
  | ctrlRefetched (ring : Fin 4096) (ctrl : Word)
  /-- FETCH_ERROR (R369). A descriptor fetch error stops every engine with FETCH_STOP. -/
  | fetchError (addr : DWord)
  /-- DMA_DATA_ERROR (R368). A ring-attributable error stops that ring with its CODE. -/
  | dmaDataError (ring : Fin 4096) (kind : Fin 7)
  /-- DMA_RING_ENABLE (R362). Setting DMA_RING_n_CTRL.EN takes a ring from DISABLED to IDLE. -/
  | dmaRingEnable (ring : Fin 4096) (engine : Fin 32) (vector : Fin 2048) (sizeLog : Fin 16)
  /-- DMA_RING_DISABLE (R368). Clearing EN stops a RUNNING ring with ABORTED. -/
  | dmaRingDisable (ring : Fin 4096)
  /-- DMA_RING_RESUME (R369). A write of RESUME takes a STOPPED ring to IDLE without anchor. -/
  | dmaRingResume (ring : Fin 4096)
  /-- FETCH_STOP_CLEAR (R369). A W1C write of FETCH_STOP allows descriptor fetching and RESUME again. -/
  | fetchStopClear
  /-- BAR2_ACCESS (R353). A host BAR 2 request maps to DRAM through the window, or completes with 0xFF on refusal or error. -/
  | bar2Access (offset : BitVec 34) (acc : Bar2Req)
  /-- HOST_RESET (R354). PERST_N or Function Level Reset resets the endpoint, DMA engines and DMA registers. -/
  | hostReset
  /-- EVENT_ROUTE (R380). A source pulse reaches the router and fires each enabled, admitted channel wired to it. -/
  | eventRoute (cycle n : Nat)
  /-- CONSUMER_ACTIVATION (R381). A consumer input whose mask fired in the previous cycle is activated and acts. -/
  | consumerActivation (cycle : Nat) (input : Fin 96)
  /-- EVT_SW_FIRE (R378). A write to EVT_SW_FIRE fires the named software event sources. -/
  | evtSwFire (bits : BitVec 16)
  /-- EVT_TIMER_EXPIRY (R378). An event router timer period elapses and TIMER_k fires. -/
  | evtTimerExpiry (timer : Timed (Fin 8))
  /-- EVIO_EDGE (R387). A filtered edge on an EVIO input is accepted and stamped, or ignored as too fast. -/
  | evioEdge (pin : Fin 8) (rising : Bool) (time cycle held : Nat)
  /-- EVIO_PULSE_END (R388). An EVIO output pulse's WIDTH expires and the pin returns to its inactive level. -/
  | evioPulseEnd (pin : Timed (Fin 8))
  /-- MATRIX_TIMEOUT (R375). A register target not answering within MTX_TIMEOUT gets an error response. -/
  | matrixTimeout (m : Master) (addr : BitVec 26) (write : Timed Bool)
  /-- MTX_SLICE_WRITE (R374). A write of MTX_SLICE sets a new register-slice count, PENDING until the path is idle. -/
  | mtxSliceWrite (pcieOut dram : Fin 4)
  /-- SLICE_APPLY (R374). The path becomes idle and the new slice setting applies. -/
  | sliceApply
  /-- RELAY_HEADER_RECEIVED (R407). An update HEADER is accepted and forwarded, or refused with BUSY. -/
  | relayHeaderReceived (port : Fin 2) (f : RelayFrame)
  /-- RELAY_DATA_RECEIVED (R407). An in-order DATA frame is staged and forwarded; an out-of-order one triggers PULL. -/
  | relayDataReceived (port : Fin 2) (f : RelayFrame)
  /-- RELAY_END_RECEIVED (R411). An END frame closes the session and the staged image is checked and programmed. -/
  | relayEndReceived (port : Fin 2) (f : RelayFrame)
  /-- RELAY_BUSY_RECEIVED (R409). An origin receiving BUSY ends its session if the blocking key is earlier. -/
  | relayBusyReceived (port : Fin 2) (f : RelayFrame)
  /-- RELAY_ABORT_RECEIVED (R409). An ABORT drops the session, is forwarded, and pulls refused sessions. -/
  | relayAbortReceived (port : Fin 2) (f : RelayFrame)
  /-- RELAY_PULL_RECEIVED (R408). A PULL restarts forwarding on that port from the requested offset. -/
  | relayPullReceived (port : Fin 2) (f : RelayFrame)
  /-- RELAY_RESULT_RECEIVED (R411). A RESULT is forwarded towards the origin and counted there. -/
  | relayResultReceived (port : Fin 2) (f : RelayFrame)
  /-- RELAY_FALLBACK_RECEIVED (R406). A FALLBACK frame is recorded and passed on to every chip. -/
  | relayFallbackReceived (port : Fin 2) (f : RelayFrame)
  /-- RELAY_MGMT_REQ_RECEIVED (R412). A MGMT_REQ is forwarded or queued as a mailbox command at its destination. -/
  | relayMgmtReqReceived (port : Fin 2) (f : RelayFrame)
  /-- RELAY_MGMT_RSP_RECEIVED (R406). A MGMT_RSP is forwarded back towards the requester. -/
  | relayMgmtRspReceived (port : Fin 2) (f : RelayFrame)
  /-- SESSION_TIMEOUT (R408). 1 s without a frame of the session abandons it with RESULT LOST. -/
  | sessionTimeout
  /-- SLOT_PROGRAM_COMPLETE (R411). Programming and read-back of the inactive slot end VALID or FAILED and RESULT is sent. -/
  | slotProgramComplete (readBack : Bool)
  /-- UPDATE_ACTIVATION (R414). At tick FA a VALID scheduled slot is activated: data path stopped, boot record written, firmware restarted. -/
  | updateActivation
  /-- TRIAL_FIRMWARE_START (R415). Trial firmware reads settings, loads its image and sets TRIAL, or falls back. -/
  | trialFirmwareStart (parsed : Bool)
  /-- CONFIRM_TIMEOUT (R416). No confirm within CONFIRM_TIMEOUT makes the chip fall back with reason TIMEOUT. -/
  | confirmTimeout
  /-- COMPRESSOR_FREE (R419). The compressor becomes free and takes the next waiting KIND 3 descriptor. -/
  | compressorFree
  /-- CAPSULE_COMPLETE (R423). A capsule's trailer is written and its descriptor completes. -/
  | capsuleComplete (ring : Fin 4096) (table : List Byte)
  /-- DECOMPRESS_GO (R427). A write of CMP_DEC_CTRL.GO starts a decompression job, or is refused while busy. -/
  | decompressGo (raw : Bool)
  /-- DECOMPRESS_JOB_END (R428). A decompression job ends with its RESULT and output length. -/
  | decompressJobEnd
  /-- YODEX_RECORD_END (R430). At tick FS + N + 1 the recording completes its notice. -/
  | yodexRecordEnd
  /-- YODEX_REPLAY_END (R435). After the last replayed frame the read point reads zeros with validity clear. -/
  | yodexReplayEnd
  /-- VIN_RISE (R439). VIN rises through 1.65 V and the regulators start. -/
  | vinRise
  /-- VIN_FALL (R439). VIN falls through 1.60 V and every regulator stops. -/
  | vinFall
  /-- RAIL_FAULT (R443). A rail exceeds its current limit and its domains are force-isolated or the chip turns off. -/
  | railFault (rail : Fin 7)
  /-- PWR_REQ_WRITE (R447). A write of PWR_REQ requests domains on or off, subject to the switching rules. -/
  | pwrReqWrite (m : Master) (v : Word)
  /-- QUIESCE_COMPLETE (R448). A quiescing domain's outstanding work completes and it powers down. -/
  | quiesceComplete (d : Fin 30)
  /-- QUIESCE_TIMEOUT (R448). PWR_QUIESCE_TIMEOUT expires and the domain is force-isolated. -/
  | quiesceTimeout (d : Timed (Fin 30))
  /-- POWER_DOWN_COMPLETE (R448). After 20 µs the domain's switches are open and it is OFF. -/
  | powerDownComplete (d : Fin 30)
  /-- POWER_UP_COMPLETE (R448). After 200 µs in reset the domain is ON with its unit in reset. -/
  | powerUpComplete (d : Fin 30)
  /-- RESET_N_ASSERT (R451). RESET_N held low beyond the glitch filter causes a chip reset. -/
  | resetNAssert
  /-- RESET_N_RELEASE (R454). The RESET_N rising edge samples the straps and starts the boot ROM. -/
  | resetNRelease (bootSrc : Fin 4) (board : Board)
  /-- CHIP_RESET (R452). A write of 0x5253 to PWR_CTRL.CHIP_RESET causes a chip reset 10 µs later. -/
  | chipReset (m : Master) (v : Word)
  /-- WATCHDOG_EXPIRY (R452). The supervisor watchdog unserviced for 2 s causes a chip reset. -/
  | watchdogExpiry
  /-- THERMAL_SAMPLE (R456). Every 1 ms the sensors are read and WARN, THROTTLE and TRIP evaluated. -/
  | thermalSample (temps : List (BitVec 16)) (power : List Word)
  /-- SNAPSHOT_COMPLETE (R462). The snapshot stream ends and the standby enters CHECKING. -/
  | snapshotComplete
  /-- MIRRORED_SET_WRITE (R461). A write to the mirrored set is refused on a standby or also sent as MIRROR on an active. -/
  | mirroredSetWrite (m : Master) (bar4 : Bool) (addr : BitVec 26) (v : Word)
  /-- PEER_LOST_TIMEOUT (R465). TWN_TIMEOUT ticks pass without a peer TWIN frame and the peer is lost. -/
  | peerLostTimeout
  /-- TWIN_UNSYNC (R463). At the next frame tick after a digest mismatch or stream error the standby returns to UNSYNCED. -/
  | twinUnsync
  /-- PTP_MASTER_LOSS (R343). Loss of the chosen PTP master returns the port to LISTENING without clearing ACQUIRED or TIME_VALID. -/
  | ptpMasterLoss (port : Fin 2)
  /-- RELAY_PATH_PORT_DOWN (R341). A relay path port loses its 10GBASE-R link, so that its latency measurement lapses until the next link-up and transparent-clock forwarding stops. -/
  | relayPathPortDown (port : Fin 2)
  /-- PTP_DELAY_REQ_RECEIVED (R340). A Delay_Req from a downstream chip arrives on one relay path port and is forwarded on the other, with its residence time added to correctionField. -/
  | ptpDelayReqReceived (port : Fin 2) (msg : PtpMsg) (ingress egress : PtpStamp)
  /-- DRAM_SWEEP_COMPLETE (R318). The sweep of a subchannel ends, about 15 ms after it began, with a commit, or with SWEEP_FAIL and LIVE unchanged; after the last subchannel the DRAM_SWEEP notice follows. -/
  | dramSweepComplete (scans : List SweepScan)
  /-- STRUCTURE_LOAD_COMPLETE (R399). The supervisor finishes checking and applying an image from LOAD_STRUCTURE or LOAD_REGION, LOADING clears and the notice reports OK or REJECTED. -/
  | structureLoadComplete
  /-- YODEX_STREAM_COMPLETE (R433). The last INGEST frame of a STREAM_OUT recording has been sent, and Yodex leaves STREAMING. -/
  | yodexStreamComplete
  /-- MATRIX_LATE_RESPONSE (R375). A register target's response arrives after its timeout, is discarded and counts in MTX_LATE_RESP_COUNT. -/
  | matrixLateResponse
  /-- PWRGOOD_RELEASED (R444). VAON, VIO, VCORE and VSRAM reach regulation and PWRGOOD is released; it is pulled low again when any of them leaves regulation. -/
  | pwrgoodReleased
  /-- TIME_OUTPUT_PULSE_END (R348). PPS_OUT returns low after WIDTH, and FRAME_OUT after its configured number of spectra. -/
  | timeOutputPulseEnd (output : Timed (Fin 2))
  /-- VIO_REF_FOLDBACK (R442). A VIO_REF load above 150 mA makes the output fold back to 20 mA. -/
  | vioRefFoldback
  /-- VIO_REF_LOAD_FALL (R442). When the load on a folded-back VIO_REF falls, the output returns to normal supply. -/
  | vioRefLoadFall
  /-- MAILBOX_BAD_COMMAND (R358). A mailbox GO whose CMD names no defined command is answered with BAD_COMMAND. -/
  | mailboxBadCommand (src : CmdSource) (tag : Word) (cmd : BitVec 16)
  deriving DecidableEq, Repr

end Sys2Proof
end

