-- ==== Sys2Proof/Decode.lean ====
section
/-! DEFINITION. The words of the operation table: it gives no row any bits (log entry 13). -/

namespace Sys2Proof

/-- The command that a word spells by the table's bits. No row of the table has bits: the block takes commands, not encoded
instructions, so no word spells one. -/
def decodeTableWord (_nbits _w : Nat) : Option Instr := none

end Sys2Proof
end

