-- ==== Sys2Proof/Machine/Crc.lean ====
section
/-! DEFINITION. The checks of frames and images: CRC-16 and CRC-32C (R80). -/

namespace Sys2Proof.Machine

/-- One bit of CRC-16 with polynomial 0x1021. -/
def crc16Bit (c : BitVec 16) : BitVec 16 := if c.msb then (c <<< 1) ^^^ 0x1021 else c <<< 1

/-- One byte of CRC-16. -/
def crc16Byte (c : BitVec 16) (b : Byte) : BitVec 16 :=
  Nat.repeat crc16Bit 8 (c ^^^ (b.setWidth 16 <<< 8))

/-- HCRC over bytes: initial value 0xFFFF, no reflection, no final XOR (R80). -/
def crc16 (bs : List Byte) : BitVec 16 := bs.foldl crc16Byte 0xFFFF

/-- One bit of the reflected Castagnoli CRC. -/
def crc32cBit (c : BitVec 32) : BitVec 32 := if c.getLsbD 0 then (c >>> 1) ^^^ 0x82F63B78 else c >>> 1

/-- One byte of CRC-32C. -/
def crc32cByte (c : BitVec 32) (b : Byte) : BitVec 32 := Nat.repeat crc32cBit 8 (c ^^^ b.setWidth 32)

/-- CRC-32C over bytes: reflected, initial value and final XOR 0xFFFF_FFFF (R80). -/
def crc32c (bs : List Byte) : BitVec 32 := bs.foldl crc32cByte 0xFFFFFFFF ^^^ 0xFFFFFFFF

end Sys2Proof.Machine
end

