-- ==== Sys2Proof/Machine/Crypto.lean ====
section
/-! DEFINITION. The cryptography that R395 names: SHA-384 (FIPS 180-4) and ECDSA over the curve P-384 (FIPS 186-5). The
spec names the standards and does not repeat them (PRESUMED, log entry 43). -/

namespace Sys2Proof.Machine

/-! ## SHA-384 -/

/-- The first primes. -/
def firstPrimes (n : Nat) : List Nat :=
  ((List.range 410).filter fun p => 2 ≤ p && (List.range' 2 19).all fun d => p ≤ d || p % d != 0).take n

/-- The integer root: the largest `r` below 2^`bits` with `f r` ≤ `n`. -/
def rootBelow (f : Nat → Nat) (n : Nat) : Nat → Nat → Nat
  | 0, r => r
  | b + 1, r => rootBelow f n b (if f (r + 2 ^ b) ≤ n then r + 2 ^ b else r)

/-- The first 64 fractional bits of the square root of `p`. -/
def sqrtFrac (p : Nat) : BitVec 64 := BitVec.ofNat 64 (rootBelow (fun r => r * r) (p * 2 ^ 128) 72 0)

/-- The first 64 fractional bits of the cube root of `p`. -/
def cbrtFrac (p : Nat) : BitVec 64 := BitVec.ofNat 64 (rootBelow (fun r => r * r * r) (p * 2 ^ 192) 72 0)

/-- The 80 round constants. -/
def shaK : Array (BitVec 64) := ((firstPrimes 80).map cbrtFrac).toArray

/-- The initial hash value of SHA-384: from the 9th to the 16th primes. -/
def sha384Init : List (BitVec 64) := ((firstPrimes 16).drop 8).map sqrtFrac

/-- The message with its padding: 1, zeros, and the length in bits in 16 bytes. -/
def shaPad (m : List (BitVec 8)) : List (BitVec 8) :=
  let zeros := (239 - m.length % 128) % 128
  m ++ 0x80 :: List.replicate zeros 0 ++ (List.range 16).map fun i => BitVec.ofNat 8 (8 * m.length / 256 ^ (15 - i))

/-- A big-endian number. -/
def beNat (bs : List (BitVec 8)) : Nat := bs.foldl (fun n b => 256 * n + b.toNat) 0

/-- The first `k` groups of `n` elements. -/
def groupsOfN {α : Type} (n : Nat) : Nat → List α → List (List α)
  | 0, _ => []
  | k + 1, l => l.take n :: groupsOfN n k (l.drop n)

/-- The message schedule of a block of 16 words. -/
def shaSchedule (w : Array (BitVec 64)) : Array (BitVec 64) :=
  (List.range 64).foldl (fun w i =>
    let t := i + 16
    let x := w.getD (t - 15) 0
    let y := w.getD (t - 2) 0
    let s0 := x.rotateRight 1 ^^^ x.rotateRight 8 ^^^ (x >>> 7)
    let s1 := y.rotateRight 19 ^^^ y.rotateRight 61 ^^^ (y >>> 6)
    w.push (w.getD (t - 16) 0 + s0 + w.getD (t - 7) 0 + s1)) w

/-- The eight working variables. -/
structure ShaVars where
  a : BitVec 64
  b : BitVec 64
  c : BitVec 64
  d : BitVec 64
  e : BitVec 64
  f : BitVec 64
  g : BitVec 64
  h : BitVec 64

/-- One round. -/
def shaRound (v : ShaVars) (k w : BitVec 64) : ShaVars :=
  let s1 := v.e.rotateRight 14 ^^^ v.e.rotateRight 18 ^^^ v.e.rotateRight 41
  let ch := (v.e &&& v.f) ^^^ (~~~v.e &&& v.g)
  let t1 := v.h + s1 + ch + k + w
  let s0 := v.a.rotateRight 28 ^^^ v.a.rotateRight 34 ^^^ v.a.rotateRight 39
  let maj := (v.a &&& v.b) ^^^ (v.a &&& v.c) ^^^ (v.b &&& v.c)
  ⟨t1 + s0 + maj, v.a, v.b, v.c, v.d + t1, v.e, v.f, v.g⟩

/-- One block goes into the hash. -/
def shaBlock (h : List (BitVec 64)) (block : List (BitVec 8)) : List (BitVec 64) :=
  let w := shaSchedule ((groupsOfN 8 16 block).map fun bs => BitVec.ofNat 64 (beNat bs)).toArray
  let g := fun i => h.getD i 0
  let v := (List.range 80).foldl (fun v t => shaRound v (shaK.getD t 0) (w.getD t 0))
    ⟨g 0, g 1, g 2, g 3, g 4, g 5, g 6, g 7⟩
  [g 0 + v.a, g 1 + v.b, g 2 + v.c, g 3 + v.d, g 4 + v.e, g 5 + v.f, g 6 + v.g, g 7 + v.h]

/-- The 48 bytes of SHA-384. -/
def sha384 (m : List (BitVec 8)) : List (BitVec 8) :=
  let p := shaPad m
  let h := (groupsOfN 128 (p.length / 128) p).foldl shaBlock sha384Init
  (h.take 6).flatMap fun x => (List.range 8).map fun i => BitVec.ofNat 8 (x.toNat / 256 ^ (7 - i))

/-! ## ECDSA over P-384 -/

/-- The field prime. -/
def p384 : Nat := 2 ^ 384 - 2 ^ 128 - 2 ^ 96 + 2 ^ 32 - 1

/-- The order of the base point. -/
def n384 : Nat :=
  0xffffffffffffffffffffffffffffffffffffffffffffffffc7634d81f4372ddf581a0db248b0a77aecec196accc52973

/-- The constant b of the curve y² = x³ − 3x + b. -/
def b384 : Nat :=
  0xb3312fa7e23ee7e4988e056be3f82d19181d9c6efe8141120314088f5013875ac656398d8a2ed19d2a85c8edd3ec2aef

/-- Coordinates of the base point. -/
def gx384 : Nat :=
  0xaa87ca22be8b05378eb1c71ef320ad746e1d3b628ba79b9859f741e082542a385502f25dbf55296c3a545e3872760ab7

@[inherit_doc gx384]
def gy384 : Nat :=
  0x3617de4a96262c6f5d9e98bf9292dc29f8f41dbd289a147ce9da3113b5f0b8c00a60b1ce1d7e819d7a431d7c90ea0e5f

/-- `x`^`e` modulo `m`, over `k` bits of `e`. -/
def powMod (m : Nat) : Nat → Nat → Nat → Nat → Nat
  | 0, _, _, acc => acc
  | k + 1, x, e, acc => powMod m k (x * x % m) (e / 2) (if e % 2 = 1 then acc * x % m else acc)

/-- The inverse modulo a prime. -/
def invMod (m x : Nat) : Nat := powMod m 384 (x % m) (m - 2) 1

/-- A point of the curve; none is the point at infinity. -/
abbrev EcPoint := Option (Nat × Nat)

/-- The sum of two points. -/
def ecAdd (p q : EcPoint) : EcPoint :=
  match p, q with
  | none, q => q
  | p, none => p
  | some (x1, y1), some (x2, y2) =>
    if x1 = x2 ∧ (y1 + y2) % p384 = 0 then none
    else
      let l := if x1 = x2 ∧ y1 = y2 then (3 * x1 * x1 + (p384 - 3)) * invMod p384 (2 * y1) % p384
        else (y2 + (p384 - y1)) * invMod p384 (x2 + (p384 - x1)) % p384
      let x3 := (l * l + 2 * p384 - x1 - x2) % p384
      some (x3, (l * (x1 + (p384 - x3)) + (p384 - y1)) % p384)

/-- `k` times a point, over `n` bits of `k`. -/
def ecMul : Nat → Nat → EcPoint → EcPoint → EcPoint
  | 0, _, _, acc => acc
  | n + 1, k, p, acc => ecMul n (k / 2) (ecAdd p p) (if k % 2 = 1 then ecAdd acc p else acc)

/-- The signature (r, s) of a hash verifies under the key (x, y). -/
def ecdsaVerify (hash : List (BitVec 8)) (x y r s : Nat) : Bool :=
  let onCurve := x < p384 && y < p384 && y * y % p384 == (x * x * x + (p384 - 3) * x + b384) % p384
  if ¬ onCurve ∨ r = 0 ∨ n384 ≤ r ∨ s = 0 ∨ n384 ≤ s then false
  else
    let w := invMod n384 s
    let u := ecAdd (ecMul 384 (beNat hash * w % n384) (some (gx384, gy384)) none) (ecMul 384 (r * w % n384) (some (x, y)) none)
    match u with
    | some (px, _) => px % n384 == r
    | none => false

end Sys2Proof.Machine
end

