-- ==== Sys2Proof/Machine/RegMap.lean ====
section
/-! DEFINITION. The register map of BAR 0 (R5, R71, R101, R137, R169, R195, R219, R243, R267, R297, R319, R349,
R370, R389, R418, R438, R457, R468): for each register of the spec's tables its address, its fields with their
access codes (R9) and the reset values the tables give. Reserved fields (R10) are not listed: they read 0. -/

namespace Sys2Proof.Machine

/-- The access codes of R9. -/
inductive Acc where
  | rw | ro | wo | w1c | w1s | rc
  deriving DecidableEq, Repr

/-- One field of a register: bits `hi:lo`, its access code and its reset value. -/
structure RegField where
  hi : Nat
  lo : Nat
  acc : Acc
  reset : Nat
  deriving DecidableEq, Repr

/-- One line of the register tables: the address of the first register, one (count, stride) per index, outermost
first, and the fields. -/
structure RegRow where
  base : Nat
  dims : List (Nat × Nat)
  fields : List RegField
  deriving DecidableEq, Repr

/-- A named field: the register that holds it and its bits. -/
structure Fld where
  addr : Nat
  hi : Nat
  lo : Nat
  deriving DecidableEq, Repr


/-! ## Register addresses -/

namespace R

/-- `DEVICE_ID` (R5) -/
abbrev DEVICE_ID : Nat := 0x0
/-- `REVISION` (R5) -/
abbrev REVISION : Nat := 0x4
/-- `CAP_0` (R6) -/
abbrev CAP_0 : Nat := 0x10
/-- `CAP_1` (R6) -/
abbrev CAP_1 : Nat := 0x14
/-- `CAP_2` (R6) -/
abbrev CAP_2 : Nat := 0x18
/-- `CAP_3` (R6) -/
abbrev CAP_3 : Nat := 0x1C
/-- `COR_TILE_COUNT` (R6) -/
abbrev COR_TILE_COUNT : Nat := 0x900008
/-- `LANE_n_CTRL` (R71) -/
abbrev LANE_CTRL (n : Nat) : Nat := 0x200000 + 0x4000 * n
/-- `LANE_n_STATUS` (R71) -/
abbrev LANE_STATUS (n : Nat) : Nat := 0x200004 + 0x4000 * n
/-- `LANE_n_USE` (R71) -/
abbrev LANE_USE (n : Nat) : Nat := 0x200008 + 0x4000 * n
/-- `LANE_n_TXEQ` (R71) -/
abbrev LANE_TXEQ (n : Nat) : Nat := 0x200010 + 0x4000 * n
/-- `LANE_n_RXEQ` (R71) -/
abbrev LANE_RXEQ (n : Nat) : Nat := 0x200014 + 0x4000 * n
/-- `LANE_n_CAL_CTRL` (R71) -/
abbrev LANE_CAL_CTRL (n : Nat) : Nat := 0x200020 + 0x4000 * n
/-- `LANE_n_CAL_RESULT` (R71) -/
abbrev LANE_CAL_RESULT (n : Nat) : Nat := 0x200024 + 0x4000 * n
/-- `LANE_n_CV_COUNT` (R71) -/
abbrev LANE_CV_COUNT (n : Nat) : Nat := 0x200030 + 0x4000 * n
/-- `LANE_n_DOWN_COUNT` (R71) -/
abbrev LANE_DOWN_COUNT (n : Nat) : Nat := 0x200034 + 0x4000 * n
/-- `LANE_n_SKEW` (R71) -/
abbrev LANE_SKEW (n : Nat) : Nat := 0x200038 + 0x4000 * n
/-- `LANE_n_TEST` (R71) -/
abbrev LANE_TEST (n : Nat) : Nat := 0x200040 + 0x4000 * n
/-- `LANE_n_PRBS_ERR` (R71) -/
abbrev LANE_PRBS_ERR (n : Nat) : Nat := 0x200044 + 0x4000 * n
/-- `LANE_UP_LO` (R71) -/
abbrev LANE_UP_LO : Nat := 0x2E0000
/-- `LANE_UP_HI` (R71) -/
abbrev LANE_UP_HI : Nat := 0x2E0004
/-- `LANE_DOWN_FLAG_LO` (R71) -/
abbrev LANE_DOWN_FLAG_LO : Nat := 0x2E0008
/-- `LANE_DOWN_FLAG_HI` (R71) -/
abbrev LANE_DOWN_FLAG_HI : Nat := 0x2E000C
/-- `LANE_CAL_PERIOD` (R71) -/
abbrev LANE_CAL_PERIOD : Nat := 0x2E0010
/-- `LNK_ING_EN` (R101) -/
abbrev LNK_ING_EN : Nat := 0x300000
/-- `LNK_SIGNAL_BASE` (R101) -/
abbrev LNK_SIGNAL_BASE : Nat := 0x300004
/-- `LNK_SIG_STATE_m` (R101) -/
abbrev LNK_SIG_STATE (m : Nat) : Nat := 0x300010 + 0x4 * m
/-- `LNK_STATE_CHANGE_LO` (R101) -/
abbrev LNK_STATE_CHANGE_LO : Nat := 0x300020
/-- `LNK_STATE_CHANGE_HI` (R101) -/
abbrev LNK_STATE_CHANGE_HI : Nat := 0x300024
/-- `LNK_VALID_LO` (R101) -/
abbrev LNK_VALID_LO : Nat := 0x300030
/-- `LNK_VALID_HI` (R101) -/
abbrev LNK_VALID_HI : Nat := 0x300034
/-- `LNK_VALID_FRAME_LO` (R101) -/
abbrev LNK_VALID_FRAME_LO : Nat := 0x300038
/-- `LNK_VALID_FRAME_HI` (R101) -/
abbrev LNK_VALID_FRAME_HI : Nat := 0x30003C
/-- `LNK_n_RX_FRAMES` (R101) -/
abbrev LNK_RX_FRAMES (n : Nat) : Nat := 0x301000 + 0x80 * n
/-- `LNK_n_HDR_ERR` (R101) -/
abbrev LNK_HDR_ERR (n : Nat) : Nat := 0x301004 + 0x80 * n
/-- `LNK_n_LEN_ERR` (R101) -/
abbrev LNK_LEN_ERR (n : Nat) : Nat := 0x301008 + 0x80 * n
/-- `LNK_n_UNEXPECTED` (R101) -/
abbrev LNK_UNEXPECTED (n : Nat) : Nat := 0x30100C + 0x80 * n
/-- `LNK_n_PCRC_ERR` (R101) -/
abbrev LNK_PCRC_ERR (n : Nat) : Nat := 0x301010 + 0x80 * n
/-- `LNK_n_PAYLOAD_CV` (R101) -/
abbrev LNK_PAYLOAD_CV (n : Nat) : Nat := 0x301014 + 0x80 * n
/-- `LNK_n_LATE` (R101) -/
abbrev LNK_LATE (n : Nat) : Nat := 0x301020 + 0x80 * n
/-- `LNK_n_EARLY` (R101) -/
abbrev LNK_EARLY (n : Nat) : Nat := 0x301024 + 0x80 * n
/-- `LNK_n_FAR` (R101) -/
abbrev LNK_FAR (n : Nat) : Nat := 0x301028 + 0x80 * n
/-- `LNK_n_BASE_ERR` (R101) -/
abbrev LNK_BASE_ERR (n : Nat) : Nat := 0x30102C + 0x80 * n
/-- `LNK_n_DUP` (R101) -/
abbrev LNK_DUP (n : Nat) : Nat := 0x301030 + 0x80 * n
/-- `LNK_n_SOURCE` (R101) -/
abbrev LNK_SOURCE (n : Nat) : Nat := 0x301040 + 0x80 * n
/-- `LNK_n_LAST_INDEX_LO` (R101) -/
abbrev LNK_LAST_INDEX_LO (n : Nat) : Nat := 0x301048 + 0x80 * n
/-- `LNK_n_LAST_INDEX_HI` (R101) -/
abbrev LNK_LAST_INDEX_HI (n : Nat) : Nat := 0x30104C + 0x80 * n
/-- `LNK_n_FLAGS_SEEN` (R101) -/
abbrev LNK_FLAGS_SEEN (n : Nat) : Nat := 0x301050 + 0x80 * n
/-- `CHZ_CTRL` (R137) -/
abbrev CHZ_CTRL : Nat := 0x400000
/-- `CHZ_STATUS` (R137) -/
abbrev CHZ_STATUS : Nat := 0x400004
/-- `CHZ_FFT_SHIFT` (R137) -/
abbrev CHZ_FFT_SHIFT : Nat := 0x400008
/-- `CHZ_MODE` (R137) -/
abbrev CHZ_MODE : Nat := 0x40000C
/-- `CHZ_MODE_FRAME_LO` (R137) -/
abbrev CHZ_MODE_FRAME_LO : Nat := 0x400010
/-- `CHZ_MODE_FRAME_HI` (R137) -/
abbrev CHZ_MODE_FRAME_HI : Nat := 0x400014
/-- `CHZ_SWITCH_CTRL` (R137) -/
abbrev CHZ_SWITCH_CTRL : Nat := 0x400018
/-- `CHZ_SWITCH_FRAME_LO` (R137) -/
abbrev CHZ_SWITCH_FRAME_LO : Nat := 0x400020
/-- `CHZ_SWITCH_FRAME_HI` (R137) -/
abbrev CHZ_SWITCH_FRAME_HI : Nat := 0x400024
/-- `CHZ_SWITCH_DONE_LO` (R137) -/
abbrev CHZ_SWITCH_DONE_LO : Nat := 0x400028
/-- `CHZ_SWITCH_DONE_HI` (R137) -/
abbrev CHZ_SWITCH_DONE_HI : Nat := 0x40002C
/-- `CHZ_ACTIVE` (R137) -/
abbrev CHZ_ACTIVE : Nat := 0x400030
/-- `CHZ_SIG_EN_LO` (R137) -/
abbrev CHZ_SIG_EN_LO : Nat := 0x400040
/-- `CHZ_SIG_EN_HI` (R137) -/
abbrev CHZ_SIG_EN_HI : Nat := 0x400044
/-- `CHZ_VALID_LO` (R137) -/
abbrev CHZ_VALID_LO : Nat := 0x400048
/-- `CHZ_VALID_HI` (R137) -/
abbrev CHZ_VALID_HI : Nat := 0x40004C
/-- `CHZ_STALE_LO` (R137) -/
abbrev CHZ_STALE_LO : Nat := 0x400058
/-- `CHZ_STALE_HI` (R137) -/
abbrev CHZ_STALE_HI : Nat := 0x40005C
/-- `CHZ_CLAMP_LO` (R137) -/
abbrev CHZ_CLAMP_LO : Nat := 0x400060
/-- `CHZ_CLAMP_HI` (R137) -/
abbrev CHZ_CLAMP_HI : Nat := 0x400064
/-- `CHZ_OVF_FLAG_LO` (R137) -/
abbrev CHZ_OVF_FLAG_LO : Nat := 0x400068
/-- `CHZ_OVF_FLAG_HI` (R137) -/
abbrev CHZ_OVF_FLAG_HI : Nat := 0x40006C
/-- `CHZ_CLIP_FLAG_LO` (R137) -/
abbrev CHZ_CLIP_FLAG_LO : Nat := 0x400070
/-- `CHZ_CLIP_FLAG_HI` (R137) -/
abbrev CHZ_CLIP_FLAG_HI : Nat := 0x400074
/-- `CHZ_VALID_FRAME_LO` (R137) -/
abbrev CHZ_VALID_FRAME_LO : Nat := 0x400050
/-- `CHZ_VALID_FRAME_HI` (R137) -/
abbrev CHZ_VALID_FRAME_HI : Nat := 0x400054
/-- `CHZ_STAT_FRAME_LO` (R137) -/
abbrev CHZ_STAT_FRAME_LO : Nat := 0x400078
/-- `CHZ_STAT_FRAME_HI` (R137) -/
abbrev CHZ_STAT_FRAME_HI : Nat := 0x40007C
/-- `CHZ_MODEL_LATE_COUNT` (R137) -/
abbrev CHZ_MODEL_LATE_COUNT : Nat := 0x400080
/-- `CHZ_WRITE_REJECT_COUNT` (R137) -/
abbrev CHZ_WRITE_REJECT_COUNT : Nat := 0x400084
/-- `CHZ_OVERRUN_COUNT` (R137) -/
abbrev CHZ_OVERRUN_COUNT : Nat := 0x400088
/-- `CHZ_LATE_INPUT_n` (R137) -/
abbrev CHZ_LATE_INPUT (n : Nat) : Nat := 0x400090 + 0x4 * n
/-- `CHZ_OVF_i` (R137) -/
abbrev CHZ_OVF (i : Nat) : Nat := 0x400100 + 0x4 * i
/-- `CHZ_CLIP_i` (R137) -/
abbrev CHZ_CLIP (i : Nat) : Nat := 0x400200 + 0x4 * i
/-- `CHZ_SHIFT_B0_i` (R137) -/
abbrev CHZ_SHIFT_B0 (i : Nat) : Nat := 0x400300 + 0x4 * i
/-- `CHZ_SHIFT_B1_i` (R137) -/
abbrev CHZ_SHIFT_B1 (i : Nat) : Nat := 0x400400 + 0x4 * i
/-- `XR_CTRL` (R169) -/
abbrev XR_CTRL : Nat := 0x800000
/-- `XR_GEOMETRY` (R169) -/
abbrev XR_GEOMETRY : Nat := 0x800004
/-- `XR_STATUS` (R169) -/
abbrev XR_STATUS : Nat := 0x800008
/-- `XR_LINK_STATE` (R169) -/
abbrev XR_LINK_STATE : Nat := 0x80000C
/-- `XR_LINK_CTRL` (R169) -/
abbrev XR_LINK_CTRL : Nat := 0x800010
/-- `XR_NARROW_DELAY` (R169) -/
abbrev XR_NARROW_DELAY : Nat := 0x800014
/-- `XR_LOAD` (R169) -/
abbrev XR_LOAD : Nat := 0x800018
/-- `XR_LAST_LOSS` (R169) -/
abbrev XR_LAST_LOSS : Nat := 0x800020
/-- `XR_LAST_LOSS_FRAME_LO` (R169) -/
abbrev XR_LAST_LOSS_FRAME_LO : Nat := 0x800024
/-- `XR_LAST_LOSS_FRAME_HI` (R169) -/
abbrev XR_LAST_LOSS_FRAME_HI : Nat := 0x800028
/-- `XR_SLOT_k` (R169) -/
abbrev XR_SLOT (k : Nat) : Nat := 0x800040 + 0x4 * k
/-- `XR_SPAN_BASE_LO` (R169) -/
abbrev XR_SPAN_BASE_LO : Nat := 0x800050
/-- `XR_SPAN_BASE_HI` (R169) -/
abbrev XR_SPAN_BASE_HI : Nat := 0x800054
/-- `XR_SLOT_SIZE` (R169) -/
abbrev XR_SLOT_SIZE : Nat := 0x800058
/-- `XR_VALID_FRAME_LO` (R169) -/
abbrev XR_VALID_FRAME_LO : Nat := 0x800060
/-- `XR_VALID_FRAME_HI` (R169) -/
abbrev XR_VALID_FRAME_HI : Nat := 0x800064
/-- `XR_LATE_COUNT` (R169) -/
abbrev XR_LATE_COUNT : Nat := 0x800080
/-- `XR_LATE_S1_COUNT` (R169) -/
abbrev XR_LATE_S1_COUNT : Nat := 0x800084
/-- `XR_EARLY_COUNT` (R169) -/
abbrev XR_EARLY_COUNT : Nat := 0x800088
/-- `XR_FORMAT_ERR_COUNT` (R169) -/
abbrev XR_FORMAT_ERR_COUNT : Nat := 0x80008C
/-- `XR_MISROUTE_COUNT` (R169) -/
abbrev XR_MISROUTE_COUNT : Nat := 0x800090
/-- `XR_TWIN_DUP_COUNT` (R169) -/
abbrev XR_TWIN_DUP_COUNT : Nat := 0x800094
/-- `XR_TX_DROP_COUNT` (R169) -/
abbrev XR_TX_DROP_COUNT : Nat := 0x800098
/-- `XR_WRITE_DROP_COUNT` (R169) -/
abbrev XR_WRITE_DROP_COUNT : Nat := 0x80009C
/-- `XR_MISSING_COUNT` (R169) -/
abbrev XR_MISSING_COUNT : Nat := 0x8000A0
/-- `XR_NO_SLOT_COUNT` (R169) -/
abbrev XR_NO_SLOT_COUNT : Nat := 0x8000A4
/-- `XR_ROW_LINK_0` (R169) -/
abbrev XR_ROW_LINK_0 : Nat := 0x800100
/-- `XR_ROW_LINK_1` (R169) -/
abbrev XR_ROW_LINK_1 : Nat := 0x800104
/-- `XR_COL_LINK` (R169) -/
abbrev XR_COL_LINK : Nat := 0x800108
/-- `XR_SLICE_m` (R169) -/
abbrev XR_SLICE (m : Nat) : Nat := 0x800140 + 0x4 * m
/-- `XR_XL_k_TX_COUNT` (R169) -/
abbrev XR_XL_TX_COUNT (k : Nat) : Nat := 0x800400 + 0x10 * k
/-- `XR_XL_k_RX_COUNT` (R169) -/
abbrev XR_XL_RX_COUNT (k : Nat) : Nat := 0x800404 + 0x10 * k
/-- `XR_XL_k_LATE_COUNT` (R169) -/
abbrev XR_XL_LATE_COUNT (k : Nat) : Nat := 0x800408 + 0x10 * k
/-- `XR_XL_k_NARROW_COUNT` (R169) -/
abbrev XR_XL_NARROW_COUNT (k : Nat) : Nat := 0x80040C + 0x10 * k
/-- `XR_VALID_m` (R169) -/
abbrev XR_VALID (m : Nat) : Nat := 0x800800 + 0x4 * m
/-- `COR_CTRL` (R195) -/
abbrev COR_CTRL : Nat := 0x900000
/-- `COR_STATUS` (R195) -/
abbrev COR_STATUS : Nat := 0x900004
/-- `COR_USE` (R195) -/
abbrev COR_USE : Nat := 0x90000C
/-- `COR_SPAN_LO` (R195) -/
abbrev COR_SPAN_LO : Nat := 0x900010
/-- `COR_SPAN_HI` (R195) -/
abbrev COR_SPAN_HI : Nat := 0x900014
/-- `COR_DRAIN_LAST` (R195) -/
abbrev COR_DRAIN_LAST : Nat := 0x900018
/-- `COR_DRAIN_MAX` (R195) -/
abbrev COR_DRAIN_MAX : Nat := 0x90001C
/-- `COR_SLACK` (R195) -/
abbrev COR_SLACK : Nat := 0x900020
/-- `COR_OVERRUN_COUNT` (R195) -/
abbrev COR_OVERRUN_COUNT : Nat := 0x900030
/-- `COR_SKIP_COUNT` (R195) -/
abbrev COR_SKIP_COUNT : Nat := 0x900034
/-- `COR_SAT_COUNT` (R195) -/
abbrev COR_SAT_COUNT : Nat := 0x900038
/-- `COR_UE_COUNT` (R195) -/
abbrev COR_UE_COUNT : Nat := 0x90003C
/-- `COR_ABORT_COUNT` (R195) -/
abbrev COR_ABORT_COUNT : Nat := 0x900040
/-- `COR_UNIT_LOST_COUNT` (R195) -/
abbrev COR_UNIT_LOST_COUNT : Nat := 0x900044
/-- `COR_PATROL_MOVE_COUNT` (R195) -/
abbrev COR_PATROL_MOVE_COUNT : Nat := 0x900064
/-- `COR_PATROL_MISMATCH_COUNT` (R195) -/
abbrev COR_PATROL_MISMATCH_COUNT : Nat := 0x900068
/-- `COR_PATROL_SKIP_COUNT` (R195) -/
abbrev COR_PATROL_SKIP_COUNT : Nat := 0x90006C
/-- `COR_PATROL_STATUS` (R195) -/
abbrev COR_PATROL_STATUS : Nat := 0x900060
/-- `COR_RETIRED_COUNT` (R195) -/
abbrev COR_RETIRED_COUNT : Nat := 0x900070
/-- `COR_GOLD_SIG` (R195) -/
abbrev COR_GOLD_SIG : Nat := 0x900074
/-- `COR_RETIRED_m` (R195) -/
abbrev COR_RETIRED (m : Nat) : Nat := 0x900080 + 0x4 * m
/-- `COR_SUSPECT` (R195) -/
abbrev COR_SUSPECT : Nat := 0x900100
/-- `COR_SUSPECT_FROM_LO` (R195) -/
abbrev COR_SUSPECT_FROM_LO : Nat := 0x900104
/-- `COR_SUSPECT_FROM_HI` (R195) -/
abbrev COR_SUSPECT_FROM_HI : Nat := 0x900108
/-- `COR_SUSPECT_TO_LO` (R195) -/
abbrev COR_SUSPECT_TO_LO : Nat := 0x90010C
/-- `COR_SUSPECT_TO_HI` (R195) -/
abbrev COR_SUSPECT_TO_HI : Nat := 0x900110
/-- `COR_MAP_e` (R195) -/
abbrev COR_MAP (e : Nat) : Nat := 0x901000 + 0x4 * e
/-- `COR_ORDER_n` (R195) -/
abbrev COR_ORDER (n : Nat) : Nat := 0x902000 + 0x4 * n
/-- `COR_TILE_t_STATE` (R195) -/
abbrev COR_TILE_STATE (t : Nat) : Nat := 0x910000 + 0x400 * t
/-- `COR_TILE_t_SINCE_LO` (R195) -/
abbrev COR_TILE_SINCE_LO (t : Nat) : Nat := 0x910004 + 0x400 * t
/-- `COR_TILE_t_SINCE_HI` (R195) -/
abbrev COR_TILE_SINCE_HI (t : Nat) : Nat := 0x910008 + 0x400 * t
/-- `COR_TILE_t_SIG` (R195) -/
abbrev COR_TILE_SIG (t : Nat) : Nat := 0x91000C + 0x400 * t
/-- `COR_TILE_t_PASS_COUNT` (R195) -/
abbrev COR_TILE_PASS_COUNT (t : Nat) : Nat := 0x910010 + 0x400 * t
/-- `COR_TILE_t_MISMATCH_COUNT` (R195) -/
abbrev COR_TILE_MISMATCH_COUNT (t : Nat) : Nat := 0x910014 + 0x400 * t
/-- `COR_TILE_t_SAT_COUNT` (R195) -/
abbrev COR_TILE_SAT_COUNT (t : Nat) : Nat := 0x910018 + 0x400 * t
/-- `INT_CTRL` (R219) -/
abbrev INT_CTRL : Nat := 0xA00000
/-- `INT_STATUS` (R219) -/
abbrev INT_STATUS : Nat := 0xA00004
/-- `INT_CONFIG` (R219) -/
abbrev INT_CONFIG : Nat := 0xA00008
/-- `INT_STREAM` (R219) -/
abbrev INT_STREAM : Nat := 0xA0000C
/-- `INT_SUM_BASE_LO` (R219) -/
abbrev INT_SUM_BASE_LO : Nat := 0xA00010
/-- `INT_SUM_BASE_HI` (R219) -/
abbrev INT_SUM_BASE_HI : Nat := 0xA00014
/-- `INT_STAGE_BASE_LO` (R219) -/
abbrev INT_STAGE_BASE_LO : Nat := 0xA00018
/-- `INT_STAGE_BASE_HI` (R219) -/
abbrev INT_STAGE_BASE_HI : Nat := 0xA0001C
/-- `INT_PRODUCT_SLOT` (R219) -/
abbrev INT_PRODUCT_SLOT : Nat := 0xA00020
/-- `INT_INTEG_LO` (R219) -/
abbrev INT_INTEG_LO : Nat := 0xA00028
/-- `INT_INTEG_HI` (R219) -/
abbrev INT_INTEG_HI : Nat := 0xA0002C
/-- `INT_DONE_LO` (R219) -/
abbrev INT_DONE_LO : Nat := 0xA00030
/-- `INT_DONE_HI` (R219) -/
abbrev INT_DONE_HI : Nat := 0xA00034
/-- `INT_READOUT` (R219) -/
abbrev INT_READOUT : Nat := 0xA00038
/-- `INT_SET_z_STATE_m` (R219) -/
abbrev INT_SET_STATE (z : Nat) (m : Nat) : Nat := 0xA00040 + 0x10 * z + 0x4 * m
/-- `INT_STAGE_FREE_b_LO` (R219) -/
abbrev INT_STAGE_FREE_LO (b : Nat) : Nat := 0xA00060 + 0x8 * b
/-- `INT_STAGE_FREE_b_HI` (R219) -/
abbrev INT_STAGE_FREE_HI (b : Nat) : Nat := 0xA00064 + 0x8 * b
/-- `INT_PRODUCT_COUNT` (R219) -/
abbrev INT_PRODUCT_COUNT : Nat := 0xA00080
/-- `INT_FOLD_SAT_COUNT` (R219) -/
abbrev INT_FOLD_SAT_COUNT : Nat := 0xA00084
/-- `INT_SUM_UE_COUNT` (R219) -/
abbrev INT_SUM_UE_COUNT : Nat := 0xA00088
/-- `INT_READOUT_OVERRUN_COUNT` (R219) -/
abbrev INT_READOUT_OVERRUN_COUNT : Nat := 0xA0008C
/-- `INT_STAGE_BUSY_COUNT` (R219) -/
abbrev INT_STAGE_BUSY_COUNT : Nat := 0xA00090
/-- `INT_ABANDON_COUNT` (R219) -/
abbrev INT_ABANDON_COUNT : Nat := 0xA00094
/-- `BFM_CTRL` (R243) -/
abbrev BFM_CTRL : Nat := 0xB00000
/-- `BFM_STATUS` (R243) -/
abbrev BFM_STATUS : Nat := 0xB00004
/-- `BFM_FLIP_CTRL` (R243) -/
abbrev BFM_FLIP_CTRL : Nat := 0xB00008
/-- `BFM_FLIP_FRAME_LO` (R243) -/
abbrev BFM_FLIP_FRAME_LO : Nat := 0xB00010
/-- `BFM_FLIP_FRAME_HI` (R243) -/
abbrev BFM_FLIP_FRAME_HI : Nat := 0xB00014
/-- `BFM_FLIP_DONE_LO` (R243) -/
abbrev BFM_FLIP_DONE_LO : Nat := 0xB00018
/-- `BFM_FLIP_DONE_HI` (R243) -/
abbrev BFM_FLIP_DONE_HI : Nat := 0xB0001C
/-- `BFM_STREAM` (R243) -/
abbrev BFM_STREAM : Nat := 0xB00020
/-- `BFM_FLIP_MASK_m` (R243) -/
abbrev BFM_FLIP_MASK (m : Nat) : Nat := 0xB00040 + 0x4 * m
/-- `BFM_BANK_m` (R243) -/
abbrev BFM_BANK (m : Nat) : Nat := 0xB00060 + 0x4 * m
/-- `BFM_LATE_COUNT` (R243) -/
abbrev BFM_LATE_COUNT : Nat := 0xB00080
/-- `BFM_EARLY_COUNT` (R243) -/
abbrev BFM_EARLY_COUNT : Nat := 0xB00084
/-- `BFM_EXCLUDED_COUNT` (R243) -/
abbrev BFM_EXCLUDED_COUNT : Nat := 0xB00088
/-- `BFM_CLIP_COUNT` (R243) -/
abbrev BFM_CLIP_COUNT : Nat := 0xB0008C
/-- `BFM_WRITE_REJECT_COUNT` (R243) -/
abbrev BFM_WRITE_REJECT_COUNT : Nat := 0xB00090
/-- `BFM_RELAY_TX_COUNT` (R243) -/
abbrev BFM_RELAY_TX_COUNT : Nat := 0xB00094
/-- `BFM_RELAY_RX_COUNT` (R243) -/
abbrev BFM_RELAY_RX_COUNT : Nat := 0xB00098
/-- `BFM_RELAY_LATE_COUNT` (R243) -/
abbrev BFM_RELAY_LATE_COUNT : Nat := 0xB0009C
/-- `BFM_RELAY_MISS_COUNT` (R243) -/
abbrev BFM_RELAY_MISS_COUNT : Nat := 0xB000A0
/-- `BFM_STAGE_DROP_COUNT` (R243) -/
abbrev BFM_STAGE_DROP_COUNT : Nat := 0xB000A4
/-- `BFM_OVERRUN_COUNT` (R243) -/
abbrev BFM_OVERRUN_COUNT : Nat := 0xB000A8
/-- `BFM_VSTREAM_n` (R243) -/
abbrev BFM_VSTREAM (n : Nat) : Nat := 0xB00100 + 0x4 * n
/-- `BFM_RING_r_BASE_LO` (R243) -/
abbrev BFM_RING_BASE_LO (r : Nat) : Nat := 0xB00200 + 0x20 * r
/-- `BFM_RING_r_BASE_HI` (R243) -/
abbrev BFM_RING_BASE_HI (r : Nat) : Nat := 0xB00204 + 0x20 * r
/-- `BFM_RING_r_SLOT` (R243) -/
abbrev BFM_RING_SLOT (r : Nat) : Nat := 0xB00208 + 0x20 * r
/-- `BFM_RING_r_COUNT` (R243) -/
abbrev BFM_RING_COUNT (r : Nat) : Nat := 0xB0020C + 0x20 * r
/-- `BFM_RING_r_HEAD` (R243) -/
abbrev BFM_RING_HEAD (r : Nat) : Nat := 0xB00210 + 0x20 * r
/-- `BFM_RING_r_TAIL` (R243) -/
abbrev BFM_RING_TAIL (r : Nat) : Nat := 0xB00214 + 0x20 * r
/-- `BFM_BEAM_b` (R243) -/
abbrev BFM_BEAM (b : Nat) : Nat := 0xB00400 + 0x4 * b
/-- `TRG_CTRL` (R267) -/
abbrev TRG_CTRL : Nat := 0xC00000
/-- `TRG_STATUS` (R267) -/
abbrev TRG_STATUS : Nat := 0xC00004
/-- `TRG_IMP_CFG` (R267) -/
abbrev TRG_IMP_CFG : Nat := 0xC00008
/-- `TRG_BEAM_CFG` (R267) -/
abbrev TRG_BEAM_CFG : Nat := 0xC0000C
/-- `TRG_BEAM_ACT` (R267) -/
abbrev TRG_BEAM_ACT : Nat := 0xC00010
/-- `TRG_SP_CFG` (R267) -/
abbrev TRG_SP_CFG : Nat := 0xC00014
/-- `TRG_FREEZE_CFG` (R267) -/
abbrev TRG_FREEZE_CFG : Nat := 0xC00018
/-- `TRG_TIMEOUT` (R267) -/
abbrev TRG_TIMEOUT : Nat := 0xC0001C
/-- `TRG_HOLD_CFG` (R267) -/
abbrev TRG_HOLD_CFG : Nat := 0xC00020
/-- `TRG_EVIO_ACT` (R267) -/
abbrev TRG_EVIO_ACT : Nat := 0xC00024
/-- `TRG_INJECT` (R267) -/
abbrev TRG_INJECT : Nat := 0xC00028
/-- `TRG_INJECT_INDEX_LO` (R267) -/
abbrev TRG_INJECT_INDEX_LO : Nat := 0xC00030
/-- `TRG_INJECT_INDEX_HI` (R267) -/
abbrev TRG_INJECT_INDEX_HI : Nat := 0xC00034
/-- `TRG_RING_BASE_LO` (R267) -/
abbrev TRG_RING_BASE_LO : Nat := 0xC00040
/-- `TRG_RING_BASE_HI` (R267) -/
abbrev TRG_RING_BASE_HI : Nat := 0xC00044
/-- `TRG_RING_COUNT` (R267) -/
abbrev TRG_RING_COUNT : Nat := 0xC00048
/-- `TRG_RING_HEAD` (R267) -/
abbrev TRG_RING_HEAD : Nat := 0xC0004C
/-- `TRG_RING_TAIL` (R267) -/
abbrev TRG_RING_TAIL : Nat := 0xC00050
/-- `TRG_RAW_BASE_LO` (R267) -/
abbrev TRG_RAW_BASE_LO : Nat := 0xC00060
/-- `TRG_RAW_BASE_HI` (R267) -/
abbrev TRG_RAW_BASE_HI : Nat := 0xC00064
/-- `TRG_RAW_STATE` (R267) -/
abbrev TRG_RAW_STATE : Nat := 0xC00068
/-- `TRG_RECORD_COUNT` (R267) -/
abbrev TRG_RECORD_COUNT : Nat := 0xC00080
/-- `TRG_RECORD_DROP_COUNT` (R267) -/
abbrev TRG_RECORD_DROP_COUNT : Nat := 0xC00084
/-- `TRG_IMP_HIT_COUNT` (R267) -/
abbrev TRG_IMP_HIT_COUNT : Nat := 0xC00088
/-- `TRG_IMP_FIRE_COUNT` (R267) -/
abbrev TRG_IMP_FIRE_COUNT : Nat := 0xC0008C
/-- `TRG_LATE_HIT_COUNT` (R267) -/
abbrev TRG_LATE_HIT_COUNT : Nat := 0xC00090
/-- `TRG_RETRACT_COUNT` (R267) -/
abbrev TRG_RETRACT_COUNT : Nat := 0xC00094
/-- `TRG_BEAM_FIRE_COUNT` (R267) -/
abbrev TRG_BEAM_FIRE_COUNT : Nat := 0xC00098
/-- `TRG_SP_TX_COUNT` (R267) -/
abbrev TRG_SP_TX_COUNT : Nat := 0xC0009C
/-- `TRG_SP_RX_COUNT` (R267) -/
abbrev TRG_SP_RX_COUNT : Nat := 0xC000A0
/-- `TRG_SP_DUP_COUNT` (R267) -/
abbrev TRG_SP_DUP_COUNT : Nat := 0xC000A4
/-- `TRG_SP_LIMIT_COUNT` (R267) -/
abbrev TRG_SP_LIMIT_COUNT : Nat := 0xC000A8
/-- `TRG_FREEZE_REFUSED_COUNT` (R267) -/
abbrev TRG_FREEZE_REFUSED_COUNT : Nat := 0xC000AC
/-- `TRG_HOLD_REFUSED_COUNT` (R267) -/
abbrev TRG_HOLD_REFUSED_COUNT : Nat := 0xC000B0
/-- `TRG_RAW_GAP_COUNT` (R267) -/
abbrev TRG_RAW_GAP_COUNT : Nat := 0xC000B4
/-- `TRG_IMP_EN_LO` (R267) -/
abbrev TRG_IMP_EN_LO : Nat := 0xC000C0
/-- `TRG_IMP_EN_HI` (R267) -/
abbrev TRG_IMP_EN_HI : Nat := 0xC000C4
/-- `TRG_GROUP_k_CFG` (R267) -/
abbrev TRG_GROUP_CFG (k : Nat) : Nat := 0xC00100 + 0x10 * k
/-- `TRG_GROUP_k_MASK_LO` (R267) -/
abbrev TRG_GROUP_MASK_LO (k : Nat) : Nat := 0xC00104 + 0x10 * k
/-- `TRG_GROUP_k_MASK_HI` (R267) -/
abbrev TRG_GROUP_MASK_HI (k : Nat) : Nat := 0xC00108 + 0x10 * k
/-- `TRG_IMP_i` (R267) -/
abbrev TRG_IMP (i : Nat) : Nat := 0xC00200 + 0x4 * i
/-- `TRG_IMP_NOISE_i` (R267) -/
abbrev TRG_IMP_NOISE (i : Nat) : Nat := 0xC00300 + 0x4 * i
/-- `TRG_BEAM_EN_m` (R267) -/
abbrev TRG_BEAM_EN (m : Nat) : Nat := 0xC00400 + 0x4 * m
/-- `TRG_CAPTURE_k` (R267) -/
abbrev TRG_CAPTURE (k : Nat) : Nat := 0xC00500 + 0x20 * k
/-- `TRG_CAPTURE_RELEASE` (R267) -/
abbrev TRG_CAPTURE_RELEASE : Nat := 0xC00700
/-- `TRG_SEG_k` (R267) -/
abbrev TRG_SEG (k : Nat) : Nat := 0xC00800 + 0x4 * k
/-- `BRL_k_CTRL` (R297) -/
abbrev BRL_CTRL (k : Nat) : Nat := 0xD00000 + 0x100000 * k
/-- `BRL_k_STATUS` (R297) -/
abbrev BRL_STATUS (k : Nat) : Nat := 0xD00004 + 0x100000 * k
/-- `BRL_k_PC` (R297) -/
abbrev BRL_PC (k : Nat) : Nat := 0xD00008 + 0x100000 * k
/-- `BRL_k_FAULT_PC` (R297) -/
abbrev BRL_FAULT_PC (k : Nat) : Nat := 0xD0000C + 0x100000 * k
/-- `BRL_k_PAGE` (R297) -/
abbrev BRL_PAGE (k : Nat) : Nat := 0xD00010 + 0x100000 * k
/-- `BRL_k_IRQ_EN` (R297) -/
abbrev BRL_IRQ_EN (k : Nat) : Nat := 0xD00020 + 0x100000 * k
/-- `BRL_k_IRQ_PEND` (R297) -/
abbrev BRL_IRQ_PEND (k : Nat) : Nat := 0xD00024 + 0x100000 * k
/-- `BRL_k_MBOX_IN` (R297) -/
abbrev BRL_MBOX_IN (k : Nat) : Nat := 0xD00028 + 0x100000 * k
/-- `BRL_k_MBOX_OUT` (R297) -/
abbrev BRL_MBOX_OUT (k : Nat) : Nat := 0xD0002C + 0x100000 * k
/-- `BRL_k_TIMER` (R297) -/
abbrev BRL_TIMER (k : Nat) : Nat := 0xD00030 + 0x100000 * k
/-- `BRL_k_TICK_FRAME_LO` (R297) -/
abbrev BRL_TICK_FRAME_LO (k : Nat) : Nat := 0xD00038 + 0x100000 * k
/-- `BRL_k_TICK_FRAME_HI` (R297) -/
abbrev BRL_TICK_FRAME_HI (k : Nat) : Nat := 0xD0003C + 0x100000 * k
/-- `BRL_k_ERR_ADDR` (R297) -/
abbrev BRL_ERR_ADDR (k : Nat) : Nat := 0xD00040 + 0x100000 * k
/-- `BRL_k_CYCLES_LO` (R297) -/
abbrev BRL_CYCLES_LO (k : Nat) : Nat := 0xD00050 + 0x100000 * k
/-- `BRL_k_CYCLES_HI` (R297) -/
abbrev BRL_CYCLES_HI (k : Nat) : Nat := 0xD00054 + 0x100000 * k
/-- `BRL_k_STALL_COUNT` (R297) -/
abbrev BRL_STALL_COUNT (k : Nat) : Nat := 0xD00058 + 0x100000 * k
/-- `BRL_k_IRQ_MERGE_COUNT` (R297) -/
abbrev BRL_IRQ_MERGE_COUNT (k : Nat) : Nat := 0xD0005C + 0x100000 * k
/-- `BRL_k_ERR_COUNT` (R297) -/
abbrev BRL_ERR_COUNT (k : Nat) : Nat := 0xD00060 + 0x100000 * k
/-- `MEM_CTRL` (R319) -/
abbrev MEM_CTRL : Nat := 0x1100000
/-- `MEM_STATUS` (R319) -/
abbrev MEM_STATUS : Nat := 0x1100004
/-- `MEM_CONFIG` (R319) -/
abbrev MEM_CONFIG : Nat := 0x1100008
/-- `MEM_PANIC_CFG` (R319) -/
abbrev MEM_PANIC_CFG : Nat := 0x110000C
/-- `MEM_REFRESH_CFG` (R319) -/
abbrev MEM_REFRESH_CFG : Nat := 0x1100010
/-- `MEM_SR_IDLE` (R319) -/
abbrev MEM_SR_IDLE : Nat := 0x1100014
/-- `MEM_AGE_LIMIT` (R319) -/
abbrev MEM_AGE_LIMIT : Nat := 0x1100018
/-- `MEM_ARB_WEIGHT` (R319) -/
abbrev MEM_ARB_WEIGHT : Nat := 0x110001C
/-- `MEM_ARB_WEIGHT_EXT` (R319) -/
abbrev MEM_ARB_WEIGHT_EXT : Nat := 0x1100038
/-- `MEM_SCRUB_PERIOD` (R319) -/
abbrev MEM_SCRUB_PERIOD : Nat := 0x1100020
/-- `MEM_CE_LOG_MAX` (R319) -/
abbrev MEM_CE_LOG_MAX : Nat := 0x1100024
/-- `MEM_SWEEP_CTRL` (R319) -/
abbrev MEM_SWEEP_CTRL : Nat := 0x1100028
/-- `MEM_RT_LEVEL` (R319) -/
abbrev MEM_RT_LEVEL : Nat := 0x110002C
/-- `MEM_LOG_HEAD` (R319) -/
abbrev MEM_LOG_HEAD : Nat := 0x1100030
/-- `MEM_LOG_TAIL` (R319) -/
abbrev MEM_LOG_TAIL : Nat := 0x1100034
/-- `MEM_T_0` (R319) -/
abbrev MEM_T_0 : Nat := 0x1100040
/-- `MEM_T_1` (R319) -/
abbrev MEM_T_1 : Nat := 0x1100044
/-- `MEM_T_2` (R319) -/
abbrev MEM_T_2 : Nat := 0x1100048
/-- `MEM_REGION_r_BASE` (R319) -/
abbrev MEM_REGION_BASE (r : Nat) : Nat := 0x1100060 + 0x8 * r
/-- `MEM_REGION_r_SIZE` (R319) -/
abbrev MEM_REGION_SIZE (r : Nat) : Nat := 0x1100064 + 0x8 * r
/-- `MEM_CE_COUNT` (R319) -/
abbrev MEM_CE_COUNT : Nat := 0x1100080
/-- `MEM_UE_COUNT` (R319) -/
abbrev MEM_UE_COUNT : Nat := 0x1100084
/-- `MEM_GUARD_COUNT` (R319) -/
abbrev MEM_GUARD_COUNT : Nat := 0x1100088
/-- `MEM_SCRUB_FIX_COUNT` (R319) -/
abbrev MEM_SCRUB_FIX_COUNT : Nat := 0x110008C
/-- `MEM_LOG_DROP_COUNT` (R319) -/
abbrev MEM_LOG_DROP_COUNT : Nat := 0x1100090
/-- `MEM_PANIC_COUNT` (R319) -/
abbrev MEM_PANIC_COUNT : Nat := 0x1100094
/-- `MEM_PANIC_TIME` (R319) -/
abbrev MEM_PANIC_TIME : Nat := 0x1100098
/-- `MEM_FORCED_REF_COUNT` (R319) -/
abbrev MEM_FORCED_REF_COUNT : Nat := 0x110009C
/-- `MEM_CATCHUP_COUNT` (R319) -/
abbrev MEM_CATCHUP_COUNT : Nat := 0x11000A0
/-- `MEM_SR_ENTRY_COUNT` (R319) -/
abbrev MEM_SR_ENTRY_COUNT : Nat := 0x11000A4
/-- `MEM_SR_ABORT_COUNT` (R319) -/
abbrev MEM_SR_ABORT_COUNT : Nat := 0x11000A8
/-- `MEM_u_STATE` (R319) -/
abbrev MEM_STATE (u : Nat) : Nat := 0x1110000 + 0x1000 * u
/-- `MEM_u_CA` (R319) -/
abbrev MEM_CA (u : Nat) : Nat := 0x1110004 + 0x1000 * u
/-- `MEM_u_LIVE_n` (R319) -/
abbrev MEM_LIVE (u : Nat) (n : Nat) : Nat := 0x1110100 + 0x1000 * u + 0x4 * n
/-- `MEM_u_TRIAL_n` (R319) -/
abbrev MEM_TRIAL (u : Nat) (n : Nat) : Nat := 0x1110140 + 0x1000 * u + 0x4 * n
/-- `MEM_u_SWEEP_RESULT` (R319) -/
abbrev MEM_SWEEP_RESULT (u : Nat) : Nat := 0x1110180 + 0x1000 * u
/-- `CLK_CTRL` (R349) -/
abbrev CLK_CTRL : Nat := 0x100000
/-- `CLK_STATUS` (R349) -/
abbrev CLK_STATUS : Nat := 0x100004
/-- `CLK_REF_CFG` (R349) -/
abbrev CLK_REF_CFG : Nat := 0x100008
/-- `CLK_PRIO_n` (R349) -/
abbrev CLK_PRIO (n : Nat) : Nat := 0x100010 + 0x4 * n
/-- `CLK_REF_n_STATUS` (R349) -/
abbrev CLK_REF_STATUS (n : Nat) : Nat := 0x100040 + 0x4 * n
/-- `CLK_REF_n_FFO` (R349) -/
abbrev CLK_REF_FFO (n : Nat) : Nat := 0x100060 + 0x4 * n
/-- `CLK_QUAL_TIME` (R349) -/
abbrev CLK_QUAL_TIME : Nat := 0x100080
/-- `CLK_FREQ_WINDOW` (R349) -/
abbrev CLK_FREQ_WINDOW : Nat := 0x100084
/-- `CLK_DISAGREE_PPB` (R349) -/
abbrev CLK_DISAGREE_PPB : Nat := 0x100088
/-- `CLK_HOLD_AVG` (R349) -/
abbrev CLK_HOLD_AVG : Nat := 0x10008C
/-- `CLK_MILESTONE_LIMIT` (R349) -/
abbrev CLK_MILESTONE_LIMIT : Nat := 0x100090
/-- `CLK_MILESTONE` (R349) -/
abbrev CLK_MILESTONE : Nat := 0x100094
/-- `CLK_HOLD_FFO` (R349) -/
abbrev CLK_HOLD_FFO : Nat := 0x100098
/-- `CLK_STEER_FFO` (R349) -/
abbrev CLK_STEER_FFO : Nat := 0x10009C
/-- `CLK_SLEW` (R349) -/
abbrev CLK_SLEW : Nat := 0x1000A0
/-- `CLK_PHASE_ADJ` (R349) -/
abbrev CLK_PHASE_ADJ : Nat := 0x1000A4
/-- `CLK_PHASE_REMAIN` (R349) -/
abbrev CLK_PHASE_REMAIN : Nat := 0x1000A8
/-- `CLK_SET_TIME_LO` (R349) -/
abbrev CLK_SET_TIME_LO : Nat := 0x1000D8
/-- `CLK_SET_TIME_HI` (R349) -/
abbrev CLK_SET_TIME_HI : Nat := 0x1000DC
/-- `CLK_COUNTER_LO` (R349) -/
abbrev CLK_COUNTER_LO : Nat := 0x1000D0
/-- `CLK_COUNTER_HI` (R349) -/
abbrev CLK_COUNTER_HI : Nat := 0x1000D4
/-- `CLK_PPS_x_CFG` (R349) -/
abbrev CLK_PPS_CFG (x : Nat) : Nat := 0x1000C0 + 0x4 * x
/-- `CLK_PPS_OUT_CFG` (R349) -/
abbrev CLK_PPS_OUT_CFG : Nat := 0x1000C8
/-- `CLK_FRAME_OUT_CFG` (R349) -/
abbrev CLK_FRAME_OUT_CFG : Nat := 0x1000CC
/-- `CLK_PPS_x_STAMP_LO` (R349) -/
abbrev CLK_PPS_STAMP_LO (x : Nat) : Nat := 0x1000E0 + 0x8 * x
/-- `CLK_PPS_x_STAMP_HI` (R349) -/
abbrev CLK_PPS_STAMP_HI (x : Nat) : Nat := 0x1000E4 + 0x8 * x
/-- `CLK_SWITCH_COUNT` (R349) -/
abbrev CLK_SWITCH_COUNT : Nat := 0x100100
/-- `CLK_HOLDOVER_COUNT` (R349) -/
abbrev CLK_HOLDOVER_COUNT : Nat := 0x100104
/-- `CLK_STEP_COUNT` (R349) -/
abbrev CLK_STEP_COUNT : Nat := 0x100108
/-- `CLK_PPS_x_FAST_COUNT` (R349) -/
abbrev CLK_PPS_FAST_COUNT (x : Nat) : Nat := 0x100110 + 0x4 * x
/-- `CLK_PPS_x_LOST_COUNT` (R349) -/
abbrev CLK_PPS_LOST_COUNT (x : Nat) : Nat := 0x100118 + 0x4 * x
/-- `PTP_CTRL` (R349) -/
abbrev PTP_CTRL : Nat := 0x108000
/-- `PTP_STATUS` (R349) -/
abbrev PTP_STATUS : Nat := 0x108004
/-- `PTP_RESTEP_THRESH` (R349) -/
abbrev PTP_RESTEP_THRESH : Nat := 0x108008
/-- `PTP_FAULT_SAMPLES` (R349) -/
abbrev PTP_FAULT_SAMPLES : Nat := 0x10800C
/-- `PTP_SERVO` (R349) -/
abbrev PTP_SERVO : Nat := 0x108010
/-- `PTP_OFFSET` (R349) -/
abbrev PTP_OFFSET : Nat := 0x108014
/-- `PTP_PATH_DELAY` (R349) -/
abbrev PTP_PATH_DELAY : Nat := 0x108018
/-- `PTP_CLOCK_ID_LO` (R349) -/
abbrev PTP_CLOCK_ID_LO : Nat := 0x108020
/-- `PTP_CLOCK_ID_HI` (R349) -/
abbrev PTP_CLOCK_ID_HI : Nat := 0x108024
/-- `PTP_MASTER_ID_LO` (R349) -/
abbrev PTP_MASTER_ID_LO : Nat := 0x108028
/-- `PTP_MASTER_ID_HI` (R349) -/
abbrev PTP_MASTER_ID_HI : Nat := 0x10802C
/-- `PTP_MASTER_PORT` (R349) -/
abbrev PTP_MASTER_PORT : Nat := 0x108030
/-- `PTP_n_CTRL` (R349) -/
abbrev PTP_PORT_CTRL (n : Nat) : Nat := 0x108100 + 0x80 * n
/-- `PTP_n_TX_LAT` (R349) -/
abbrev PTP_PORT_TX_LAT (n : Nat) : Nat := 0x108104 + 0x80 * n
/-- `PTP_n_RX_LAT` (R349) -/
abbrev PTP_PORT_RX_LAT (n : Nat) : Nat := 0x108108 + 0x80 * n
/-- `PTP_n_ASYM` (R349) -/
abbrev PTP_PORT_ASYM (n : Nat) : Nat := 0x10810C + 0x80 * n
/-- `PTP_n_RX_SYNC` (R349) -/
abbrev PTP_PORT_RX_SYNC (n : Nat) : Nat := 0x108120 + 0x80 * n
/-- `PTP_n_RX_FOLLOW_UP` (R349) -/
abbrev PTP_PORT_RX_FOLLOW_UP (n : Nat) : Nat := 0x108124 + 0x80 * n
/-- `PTP_n_RX_DELAY_RESP` (R349) -/
abbrev PTP_PORT_RX_DELAY_RESP (n : Nat) : Nat := 0x108128 + 0x80 * n
/-- `PTP_n_TX_DELAY_REQ` (R349) -/
abbrev PTP_PORT_TX_DELAY_REQ (n : Nat) : Nat := 0x10812C + 0x80 * n
/-- `PTP_n_TC_FORWARD` (R349) -/
abbrev PTP_PORT_TC_FORWARD (n : Nat) : Nat := 0x108130 + 0x80 * n
/-- `PTP_n_RX_DISCARD` (R349) -/
abbrev PTP_PORT_RX_DISCARD (n : Nat) : Nat := 0x108134 + 0x80 * n
/-- `PTP_n_MB_MISS` (R349) -/
abbrev PTP_PORT_MB_MISS (n : Nat) : Nat := 0x108138 + 0x80 * n
/-- `MBX_DOORBELL` (R370) -/
abbrev MBX_DOORBELL : Nat := 0x10000
/-- `MBX_STATUS` (R370) -/
abbrev MBX_STATUS : Nat := 0x10004
/-- `MBX_NOTICE_TAG` (R370) -/
abbrev MBX_NOTICE_TAG : Nat := 0x10008
/-- `MBX_NOTICE_STATUS` (R370) -/
abbrev MBX_NOTICE_STATUS : Nat := 0x1000C
/-- `DMA_RING_n_CTRL` (R370) -/
abbrev DMA_RING_CTRL (n : Nat) : Nat := 0x1200000 + 0x40 * n
/-- `DMA_RING_n_STATUS` (R370) -/
abbrev DMA_RING_STATUS (n : Nat) : Nat := 0x1200004 + 0x40 * n
/-- `DMA_RING_n_BASE_LO` (R370) -/
abbrev DMA_RING_BASE_LO (n : Nat) : Nat := 0x1200008 + 0x40 * n
/-- `DMA_RING_n_BASE_HI` (R370) -/
abbrev DMA_RING_BASE_HI (n : Nat) : Nat := 0x120000C + 0x40 * n
/-- `DMA_RING_n_CPL_LO` (R370) -/
abbrev DMA_RING_CPL_LO (n : Nat) : Nat := 0x1200010 + 0x40 * n
/-- `DMA_RING_n_CPL_HI` (R370) -/
abbrev DMA_RING_CPL_HI (n : Nat) : Nat := 0x1200014 + 0x40 * n
/-- `DMA_RING_n_HEAD` (R370) -/
abbrev DMA_RING_HEAD (n : Nat) : Nat := 0x1200018 + 0x40 * n
/-- `DMA_RING_n_DONE` (R370) -/
abbrev DMA_RING_DONE (n : Nat) : Nat := 0x120001C + 0x40 * n
/-- `DMA_RING_n_POISON` (R370) -/
abbrev DMA_RING_POISON (n : Nat) : Nat := 0x1200020 + 0x40 * n
/-- `DMA_CTRL` (R370) -/
abbrev DMA_CTRL : Nat := 0x1250000
/-- `DMA_STATUS` (R370) -/
abbrev DMA_STATUS : Nat := 0x1250004
/-- `DMA_ERR_ADDR_LO` (R370) -/
abbrev DMA_ERR_ADDR_LO : Nat := 0x1250008
/-- `DMA_ERR_ADDR_HI` (R370) -/
abbrev DMA_ERR_ADDR_HI : Nat := 0x125000C
/-- `DMA_ERR_INFO` (R370) -/
abbrev DMA_ERR_INFO : Nat := 0x1250010
/-- `DMA_BAR2_WINDOW` (R370) -/
abbrev DMA_BAR2_WINDOW : Nat := 0x1250014
/-- `DMA_ENGINE_e` (R370) -/
abbrev DMA_ENGINE (e : Nat) : Nat := 0x1250100 + 0x4 * e
/-- `DMA_FETCH_ERR_COUNT` (R370) -/
abbrev DMA_FETCH_ERR_COUNT : Nat := 0x1250080
/-- `DMA_DATA_ERR_COUNT` (R370) -/
abbrev DMA_DATA_ERR_COUNT : Nat := 0x1250084
/-- `DMA_BAR2_ERR_COUNT` (R370) -/
abbrev DMA_BAR2_ERR_COUNT : Nat := 0x1250088
/-- `DMA_DOORBELL_NOP_COUNT` (R370) -/
abbrev DMA_DOORBELL_NOP_COUNT : Nat := 0x125008C
/-- `MTX_SLICE` (R389) -/
abbrev MTX_SLICE : Nat := 0x1400000
/-- `MTX_ERR_INFO` (R389) -/
abbrev MTX_ERR_INFO : Nat := 0x1400010
/-- `MTX_TIMEOUT` (R389) -/
abbrev MTX_TIMEOUT : Nat := 0x1400004
/-- `MTX_ERR_ADDR_LO` (R389) -/
abbrev MTX_ERR_ADDR_LO : Nat := 0x1400008
/-- `MTX_ERR_ADDR_HI` (R389) -/
abbrev MTX_ERR_ADDR_HI : Nat := 0x140000C
/-- `MTX_MASTER_STATUS` (R389) -/
abbrev MTX_MASTER_STATUS : Nat := 0x1400014
/-- `MTX_ERR_COUNT` (R389) -/
abbrev MTX_ERR_COUNT : Nat := 0x1400020
/-- `MTX_TIMEOUT_COUNT` (R389) -/
abbrev MTX_TIMEOUT_COUNT : Nat := 0x1400024
/-- `MTX_RESET_COUNT` (R389) -/
abbrev MTX_RESET_COUNT : Nat := 0x1400028
/-- `MTX_LATE_RESP_COUNT` (R389) -/
abbrev MTX_LATE_RESP_COUNT : Nat := 0x140002C
/-- `EVT_CTRL` (R389) -/
abbrev EVT_CTRL : Nat := 0x1300000
/-- `EVT_GROUP_EN` (R389) -/
abbrev EVT_GROUP_EN : Nat := 0x1300004
/-- `EVT_SW_FIRE` (R389) -/
abbrev EVT_SW_FIRE : Nat := 0x1300008
/-- `EVT_FLAG_LO` (R389) -/
abbrev EVT_FLAG_LO : Nat := 0x1300010
/-- `EVT_FLAG_HI` (R389) -/
abbrev EVT_FLAG_HI : Nat := 0x1300014
/-- `EVT_RATE_LIMITED_LO` (R389) -/
abbrev EVT_RATE_LIMITED_LO : Nat := 0x1300018
/-- `EVT_RATE_LIMITED_HI` (R389) -/
abbrev EVT_RATE_LIMITED_HI : Nat := 0x130001C
/-- `EVT_DENY_COUNT` (R389) -/
abbrev EVT_DENY_COUNT : Nat := 0x1300020
/-- `EVT_SRC_MERGE_COUNT` (R389) -/
abbrev EVT_SRC_MERGE_COUNT : Nat := 0x1300024
/-- `EVT_OFF_DROP_COUNT` (R389) -/
abbrev EVT_OFF_DROP_COUNT : Nat := 0x1300028
/-- `EVT_CH_c_CFG` (R389) -/
abbrev EVT_CH_CFG (c : Nat) : Nat := 0x1300100 + 0x8 * c
/-- `EVT_CH_c_COUNT` (R389) -/
abbrev EVT_CH_COUNT (c : Nat) : Nat := 0x1300104 + 0x8 * c
/-- `EVT_CON_n_MASK_LO` (R389) -/
abbrev EVT_CON_MASK_LO (n : Nat) : Nat := 0x1300400 + 0x10 * n
/-- `EVT_CON_n_MASK_HI` (R389) -/
abbrev EVT_CON_MASK_HI (n : Nat) : Nat := 0x1300404 + 0x10 * n
/-- `EVT_CON_n_CFG` (R389) -/
abbrev EVT_CON_CFG (n : Nat) : Nat := 0x1300408 + 0x10 * n
/-- `EVT_CON_n_ARG` (R389) -/
abbrev EVT_CON_ARG (n : Nat) : Nat := 0x130040C + 0x10 * n
/-- `EVT_STAMP_k_LO` (R389) -/
abbrev EVT_STAMP_LO (k : Nat) : Nat := 0x1300A00 + 0x8 * k
/-- `EVT_STAMP_k_HI` (R389) -/
abbrev EVT_STAMP_HI (k : Nat) : Nat := 0x1300A04 + 0x8 * k
/-- `EVT_COUNT_k` (R389) -/
abbrev EVT_COUNT (k : Nat) : Nat := 0x1300A40 + 0x4 * k
/-- `EVT_TIMER_k` (R389) -/
abbrev EVT_TIMER (k : Nat) : Nat := 0x1300A60 + 0x4 * k
/-- `EVT_EVIO_k_CFG` (R389) -/
abbrev EVT_EVIO_CFG (k : Nat) : Nat := 0x1300B00 + 0x10 * k
/-- `EVT_EVIO_k_WIDTH` (R389) -/
abbrev EVT_EVIO_WIDTH (k : Nat) : Nat := 0x1300B04 + 0x10 * k
/-- `EVT_EVIO_k_FAST_COUNT` (R389) -/
abbrev EVT_EVIO_FAST_COUNT (k : Nat) : Nat := 0x1300B08 + 0x10 * k
/-- `EVT_EVIO_k_STAMP_LO` (R389) -/
abbrev EVT_EVIO_STAMP_LO (k : Nat) : Nat := 0x1300C00 + 0x8 * k
/-- `EVT_EVIO_k_STAMP_HI` (R389) -/
abbrev EVT_EVIO_STAMP_HI (k : Nat) : Nat := 0x1300C04 + 0x8 * k
/-- `STR_STATUS` (R418) -/
abbrev STR_STATUS : Nat := 0x1700000
/-- `STR_SLOT_k_STATE` (R418) -/
abbrev STR_SLOT_STATE (k : Nat) : Nat := 0x1700010 + 0x4 * k
/-- `STR_SESSION` (R418) -/
abbrev STR_SESSION : Nat := 0x1700040
/-- `STR_IMAGE_ID_LO` (R418) -/
abbrev STR_IMAGE_ID_LO : Nat := 0x1700008
/-- `STR_IMAGE_ID_HI` (R418) -/
abbrev STR_IMAGE_ID_HI : Nat := 0x170000C
/-- `STR_SLOT_k_ID_LO` (R418) -/
abbrev STR_SLOT_ID_LO (k : Nat) : Nat := 0x1700020 + 0x8 * k
/-- `STR_SLOT_k_ID_HI` (R418) -/
abbrev STR_SLOT_ID_HI (k : Nat) : Nat := 0x1700024 + 0x8 * k
/-- `STR_FW_VERSION` (R418) -/
abbrev STR_FW_VERSION : Nat := 0x1700030
/-- `STR_SESSION_BYTES` (R418) -/
abbrev STR_SESSION_BYTES : Nat := 0x1700044
/-- `STR_SESSION_ORIGIN_LO` (R418) -/
abbrev STR_SESSION_ORIGIN_LO : Nat := 0x1700048
/-- `STR_SESSION_ORIGIN_HI` (R418) -/
abbrev STR_SESSION_ORIGIN_HI : Nat := 0x170004C
/-- `STR_SESSION_TIME_LO` (R418) -/
abbrev STR_SESSION_TIME_LO : Nat := 0x1700050
/-- `STR_SESSION_TIME_HI` (R418) -/
abbrev STR_SESSION_TIME_HI : Nat := 0x1700054
/-- `STR_ACT_FRAME_LO` (R418) -/
abbrev STR_ACT_FRAME_LO : Nat := 0x1700058
/-- `STR_ACT_FRAME_HI` (R418) -/
abbrev STR_ACT_FRAME_HI : Nat := 0x170005C
/-- `STR_KEY_HASH_m` (R418) -/
abbrev STR_KEY_HASH (m : Nat) : Nat := 0x1700080 + 0x4 * m
/-- `STR_LOAD_COUNT` (R418) -/
abbrev STR_LOAD_COUNT : Nat := 0x1700100
/-- `STR_REJECT_COUNT` (R418) -/
abbrev STR_REJECT_COUNT : Nat := 0x1700104
/-- `STR_RELAY_BUSY_COUNT` (R418) -/
abbrev STR_RELAY_BUSY_COUNT : Nat := 0x1700108
/-- `STR_RELAY_ABORT_COUNT` (R418) -/
abbrev STR_RELAY_ABORT_COUNT : Nat := 0x170010C
/-- `STR_RELAY_CRC_ERR_COUNT` (R418) -/
abbrev STR_RELAY_CRC_ERR_COUNT : Nat := 0x1700110
/-- `STR_RELAY_PULL_COUNT` (R418) -/
abbrev STR_RELAY_PULL_COUNT : Nat := 0x1700114
/-- `STR_RESULT_OK_COUNT` (R418) -/
abbrev STR_RESULT_OK_COUNT : Nat := 0x1700118
/-- `STR_RESULT_FAIL_COUNT` (R418) -/
abbrev STR_RESULT_FAIL_COUNT : Nat := 0x170011C
/-- `STR_FALLBACK_COUNT` (R418) -/
abbrev STR_FALLBACK_COUNT : Nat := 0x1700120
/-- `CMP_CTRL` (R438) -/
abbrev CMP_CTRL : Nat := 0x1600000
/-- `CMP_STATUS` (R438) -/
abbrev CMP_STATUS : Nat := 0x1600004
/-- `CMP_DEC_SRC_LO` (R438) -/
abbrev CMP_DEC_SRC_LO : Nat := 0x1600010
/-- `CMP_DEC_SRC_HI` (R438) -/
abbrev CMP_DEC_SRC_HI : Nat := 0x1600014
/-- `CMP_DEC_SRC_LEN` (R438) -/
abbrev CMP_DEC_SRC_LEN : Nat := 0x1600018
/-- `CMP_DEC_DST_LO` (R438) -/
abbrev CMP_DEC_DST_LO : Nat := 0x1600020
/-- `CMP_DEC_DST_HI` (R438) -/
abbrev CMP_DEC_DST_HI : Nat := 0x1600024
/-- `CMP_DEC_LIMIT` (R438) -/
abbrev CMP_DEC_LIMIT : Nat := 0x1600028
/-- `CMP_DEC_CTRL` (R438) -/
abbrev CMP_DEC_CTRL : Nat := 0x160002C
/-- `CMP_DEC_RESULT` (R438) -/
abbrev CMP_DEC_RESULT : Nat := 0x1600030
/-- `CMP_DEC_OUT_LEN` (R438) -/
abbrev CMP_DEC_OUT_LEN : Nat := 0x1600034
/-- `YDX_STATUS` (R438) -/
abbrev YDX_STATUS : Nat := 0x1608000
/-- `YDX_CAPACITY` (R438) -/
abbrev YDX_CAPACITY : Nat := 0x1608004
/-- `YDX_REC_FIRST_LO` (R438) -/
abbrev YDX_REC_FIRST_LO : Nat := 0x1608008
/-- `YDX_REC_FIRST_HI` (R438) -/
abbrev YDX_REC_FIRST_HI : Nat := 0x160800C
/-- `YDX_REC_FRAMES` (R438) -/
abbrev YDX_REC_FRAMES : Nat := 0x1608010
/-- `YDX_REPLAY` (R438) -/
abbrev YDX_REPLAY : Nat := 0x1608014
/-- `CMP_CAPSULE_COUNT` (R438) -/
abbrev CMP_CAPSULE_COUNT : Nat := 0x1600080
/-- `CMP_CHAIN_FULL_COUNT` (R438) -/
abbrev CMP_CHAIN_FULL_COUNT : Nat := 0x1600084
/-- `CMP_DEC_REFUSED_COUNT` (R438) -/
abbrev CMP_DEC_REFUSED_COUNT : Nat := 0x1600088
/-- `CMP_DEC_FAIL_COUNT` (R438) -/
abbrev CMP_DEC_FAIL_COUNT : Nat := 0x160008C
/-- `YDX_GAP_COUNT` (R438) -/
abbrev YDX_GAP_COUNT : Nat := 0x1608080
/-- `YDX_UE_COUNT` (R438) -/
abbrev YDX_UE_COUNT : Nat := 0x1608084
/-- `YDX_STREAM_FRAME_COUNT` (R438) -/
abbrev YDX_STREAM_FRAME_COUNT : Nat := 0x1608088
/-- `PWR_CTRL` (R457) -/
abbrev PWR_CTRL : Nat := 0x1500000
/-- `PWR_STATUS` (R457) -/
abbrev PWR_STATUS : Nat := 0x1500004
/-- `PWR_REQ` (R457) -/
abbrev PWR_REQ : Nat := 0x1500008
/-- `PWR_ON` (R457) -/
abbrev PWR_ON : Nat := 0x150000C
/-- `PWR_STATE_m` (R457) -/
abbrev PWR_STATE (m : Nat) : Nat := 0x1500010 + 0x4 * m
/-- `PWR_QUIESCE_TIMEOUT` (R457) -/
abbrev PWR_QUIESCE_TIMEOUT : Nat := 0x1500020
/-- `PWR_RESET_CAUSE` (R457) -/
abbrev PWR_RESET_CAUSE : Nat := 0x1500024
/-- `PWR_BOOT` (R457) -/
abbrev PWR_BOOT : Nat := 0x1500028
/-- `PWR_VIN` (R457) -/
abbrev PWR_VIN : Nat := 0x1500030
/-- `PWR_RAIL_r` (R457) -/
abbrev PWR_RAIL (r : Nat) : Nat := 0x1500040 + 0x4 * r
/-- `PWR_TEMP_s` (R457) -/
abbrev PWR_TEMP (s : Nat) : Nat := 0x1500080 + 0x4 * s
/-- `PWR_TEMP_MAX` (R457) -/
abbrev PWR_TEMP_MAX : Nat := 0x15000C0
/-- `PWR_THERM_CFG` (R457) -/
abbrev PWR_THERM_CFG : Nat := 0x15000C4
/-- `PWR_SWITCH_COUNT` (R457) -/
abbrev PWR_SWITCH_COUNT : Nat := 0x1500100
/-- `PWR_FORCED_COUNT` (R457) -/
abbrev PWR_FORCED_COUNT : Nat := 0x1500104
/-- `PWR_REFUSED_COUNT` (R457) -/
abbrev PWR_REFUSED_COUNT : Nat := 0x1500108
/-- `PWR_THROTTLE_TIME` (R457) -/
abbrev PWR_THROTTLE_TIME : Nat := 0x150010C
/-- `TWN_STATUS` (R468) -/
abbrev TWN_STATUS : Nat := 0x1900000
/-- `TWN_TIMEOUT` (R468) -/
abbrev TWN_TIMEOUT : Nat := 0x1900004
/-- `TWN_SNAP_TOTAL` (R468) -/
abbrev TWN_SNAP_TOTAL : Nat := 0x1900008
/-- `TWN_SNAP_DONE` (R468) -/
abbrev TWN_SNAP_DONE : Nat := 0x190000C
/-- `TWN_SYNC_FRAME_LO` (R468) -/
abbrev TWN_SYNC_FRAME_LO : Nat := 0x1900010
/-- `TWN_SYNC_FRAME_HI` (R468) -/
abbrev TWN_SYNC_FRAME_HI : Nat := 0x1900014
/-- `TWN_MISMATCH` (R468) -/
abbrev TWN_MISMATCH : Nat := 0x1900018
/-- `TWN_MIRROR_REJECT_COUNT` (R468) -/
abbrev TWN_MIRROR_REJECT_COUNT : Nat := 0x1900080
/-- `TWN_ABANDON_COUNT` (R468) -/
abbrev TWN_ABANDON_COUNT : Nat := 0x1900084
/-- `TWN_DIGEST_MATCH_COUNT` (R468) -/
abbrev TWN_DIGEST_MATCH_COUNT : Nat := 0x1900088
/-- `TWN_DIGEST_MISMATCH_COUNT` (R468) -/
abbrev TWN_DIGEST_MISMATCH_COUNT : Nat := 0x190008C
/-- `TWN_PEER_LOST_COUNT` (R468) -/
abbrev TWN_PEER_LOST_COUNT : Nat := 0x1900090
/-- `TWN_TAKEOVER_COUNT` (R468) -/
abbrev TWN_TAKEOVER_COUNT : Nat := 0x1900094
/-- `HLT_FAULT` (R468) -/
abbrev HLT_FAULT : Nat := 0x1800000
/-- `HLT_FAULT_MASK` (R468) -/
abbrev HLT_FAULT_MASK : Nat := 0x1800004
/-- `HLT_FIRST` (R468) -/
abbrev HLT_FIRST : Nat := 0x1800008
/-- `HLT_FIRST_TIME_LO` (R468) -/
abbrev HLT_FIRST_TIME_LO : Nat := 0x1800010
/-- `HLT_FIRST_TIME_HI` (R468) -/
abbrev HLT_FIRST_TIME_HI : Nat := 0x1800014
/-- `DMA_DOORBELL_n` (R370) -/
abbrev DMA_DOORBELL (n : Nat) : Nat := 0x1240000 + 0x4 * n

end R

/-! ## Fields -/

namespace F

abbrev DEVICE_ID_VENDOR : Fld := ⟨R.DEVICE_ID, 31, 16⟩
abbrev DEVICE_ID_PART : Fld := ⟨R.DEVICE_ID, 15, 0⟩
abbrev REVISION_BASE : Fld := ⟨R.REVISION, 7, 4⟩
abbrev REVISION_METAL : Fld := ⟨R.REVISION, 3, 0⟩
abbrev CAP_0_MEMBER : Fld := ⟨R.CAP_0, 31, 24⟩
abbrev CAP_0_BERYL : Fld := ⟨R.CAP_0, 7, 4⟩
abbrev CAP_0_YDX : Fld := ⟨R.CAP_0, 3, 3⟩
abbrev CAP_0_CMP : Fld := ⟨R.CAP_0, 2, 2⟩
abbrev CAP_0_TRG : Fld := ⟨R.CAP_0, 1, 1⟩
abbrev CAP_0_BFM : Fld := ⟨R.CAP_0, 0, 0⟩
abbrev CAP_1_LANES : Fld := ⟨R.CAP_1, 31, 24⟩
abbrev CAP_1_BEAM_ENGINES : Fld := ⟨R.CAP_1, 23, 16⟩
abbrev CAP_1_MEM_CHANNELS : Fld := ⟨R.CAP_1, 15, 12⟩
abbrev CAP_1_INGEST_SIGNALS : Fld := ⟨R.CAP_1, 7, 0⟩
abbrev CAP_2_DOMAIN_SIGNALS : Fld := ⟨R.CAP_2, 31, 16⟩
abbrev CAP_2_DOMAIN_CHIPS : Fld := ⟨R.CAP_2, 15, 8⟩
abbrev CAP_2_XL_COUNT : Fld := ⟨R.CAP_2, 7, 0⟩
abbrev CAP_3_DMA_RINGS : Fld := ⟨R.CAP_3, 31, 16⟩
abbrev CAP_3_DMA_ENGINES : Fld := ⟨R.CAP_3, 15, 8⟩
abbrev CAP_3_POWER_DOMAINS : Fld := ⟨R.CAP_3, 7, 0⟩
abbrev COR_TILE_COUNT_IN_SERVICE : Fld := ⟨R.COR_TILE_COUNT, 31, 16⟩
abbrev COR_TILE_COUNT_TOTAL : Fld := ⟨R.COR_TILE_COUNT, 15, 0⟩
abbrev LANE_CTRL_PSTATE_REQ (n : Nat) : Fld := ⟨R.LANE_CTRL n, 7, 6⟩
abbrev LANE_CTRL_LOOPBACK (n : Nat) : Fld := ⟨R.LANE_CTRL n, 5, 4⟩
abbrev LANE_CTRL_EN_RX (n : Nat) : Fld := ⟨R.LANE_CTRL n, 1, 1⟩
abbrev LANE_CTRL_EN_TX (n : Nat) : Fld := ⟨R.LANE_CTRL n, 0, 0⟩
abbrev LANE_STATUS_REMOTE_STATE (n : Nat) : Fld := ⟨R.LANE_STATUS n, 23, 20⟩
abbrev LANE_STATUS_LINK_STATE (n : Nat) : Fld := ⟨R.LANE_STATUS n, 19, 16⟩
abbrev LANE_STATUS_PSTATE (n : Nat) : Fld := ⟨R.LANE_STATUS n, 15, 14⟩
abbrev LANE_STATUS_CAL_BUSY (n : Nat) : Fld := ⟨R.LANE_STATUS n, 7, 7⟩
abbrev LANE_STATUS_CAL_FAIL (n : Nat) : Fld := ⟨R.LANE_STATUS n, 6, 6⟩
abbrev LANE_STATUS_BOND_SKEW (n : Nat) : Fld := ⟨R.LANE_STATUS n, 5, 5⟩
abbrev LANE_STATUS_BONDED (n : Nat) : Fld := ⟨R.LANE_STATUS n, 4, 4⟩
abbrev LANE_STATUS_ALIGNED (n : Nat) : Fld := ⟨R.LANE_STATUS n, 3, 3⟩
abbrev LANE_STATUS_CDR_LOCK (n : Nat) : Fld := ⟨R.LANE_STATUS n, 2, 2⟩
abbrev LANE_STATUS_SIGNAL_DETECT (n : Nat) : Fld := ⟨R.LANE_STATUS n, 1, 1⟩
abbrev LANE_STATUS_TX_PLL_LOCK (n : Nat) : Fld := ⟨R.LANE_STATUS n, 0, 0⟩
abbrev LANE_USE_RX_USE (n : Nat) : Fld := ⟨R.LANE_USE n, 27, 24⟩
abbrev LANE_USE_TX_USE (n : Nat) : Fld := ⟨R.LANE_USE n, 19, 16⟩
abbrev LANE_USE_LINK (n : Nat) : Fld := ⟨R.LANE_USE n, 11, 8⟩
abbrev LANE_USE_POS (n : Nat) : Fld := ⟨R.LANE_USE n, 1, 0⟩
abbrev LANE_TXEQ_SWING (n : Nat) : Fld := ⟨R.LANE_TXEQ n, 19, 16⟩
abbrev LANE_TXEQ_POST (n : Nat) : Fld := ⟨R.LANE_TXEQ n, 12, 8⟩
abbrev LANE_TXEQ_PRE (n : Nat) : Fld := ⟨R.LANE_TXEQ n, 3, 0⟩
abbrev LANE_RXEQ_DCGAIN (n : Nat) : Fld := ⟨R.LANE_RXEQ n, 5, 4⟩
abbrev LANE_RXEQ_PEAK (n : Nat) : Fld := ⟨R.LANE_RXEQ n, 3, 0⟩
abbrev LANE_CAL_CTRL_START (n : Nat) : Fld := ⟨R.LANE_CAL_CTRL n, 31, 31⟩
abbrev LANE_CAL_CTRL_MAX_RUNS (n : Nat) : Fld := ⟨R.LANE_CAL_CTRL n, 23, 20⟩
abbrev LANE_CAL_CTRL_DCGAIN (n : Nat) : Fld := ⟨R.LANE_CAL_CTRL n, 19, 18⟩
abbrev LANE_CAL_CTRL_MIN_WIDTH (n : Nat) : Fld := ⟨R.LANE_CAL_CTRL n, 13, 8⟩
abbrev LANE_CAL_CTRL_MIN_HEIGHT (n : Nat) : Fld := ⟨R.LANE_CAL_CTRL n, 7, 0⟩
abbrev LANE_CAL_RESULT_RESULT (n : Nat) : Fld := ⟨R.LANE_CAL_RESULT n, 31, 28⟩
abbrev LANE_CAL_RESULT_RUNS (n : Nat) : Fld := ⟨R.LANE_CAL_RESULT n, 27, 24⟩
abbrev LANE_CAL_RESULT_DCGAIN (n : Nat) : Fld := ⟨R.LANE_CAL_RESULT n, 21, 20⟩
abbrev LANE_CAL_RESULT_PEAK (n : Nat) : Fld := ⟨R.LANE_CAL_RESULT n, 19, 16⟩
abbrev LANE_CAL_RESULT_HEIGHT (n : Nat) : Fld := ⟨R.LANE_CAL_RESULT n, 15, 8⟩
abbrev LANE_CAL_RESULT_WIDTH (n : Nat) : Fld := ⟨R.LANE_CAL_RESULT n, 6, 0⟩
abbrev LANE_SKEW_SKEW (n : Nat) : Fld := ⟨R.LANE_SKEW n, 7, 0⟩
abbrev LANE_TEST_CHECK_LOCK (n : Nat) : Fld := ⟨R.LANE_TEST n, 2, 2⟩
abbrev LANE_TEST_PRBS_MODE (n : Nat) : Fld := ⟨R.LANE_TEST n, 1, 0⟩
abbrev LANE_CAL_PERIOD_SECONDS : Fld := ⟨R.LANE_CAL_PERIOD, 15, 0⟩
abbrev LNK_ING_EN_EN : Fld := ⟨R.LNK_ING_EN, 15, 0⟩
abbrev LNK_SIGNAL_BASE_BASE : Fld := ⟨R.LNK_SIGNAL_BASE, 11, 6⟩
abbrev LNK_SOURCE_SIGNAL_BASE (n : Nat) : Fld := ⟨R.LNK_SOURCE n, 31, 16⟩
abbrev LNK_SOURCE_DIGITIZER_ID (n : Nat) : Fld := ⟨R.LNK_SOURCE n, 15, 0⟩
abbrev LNK_FLAGS_SEEN_SEEN (n : Nat) : Fld := ⟨R.LNK_FLAGS_SEEN n, 15, 0⟩
abbrev CHZ_CTRL_FRINGE_EN : Fld := ⟨R.CHZ_CTRL, 7, 4⟩
abbrev CHZ_CTRL_RUN : Fld := ⟨R.CHZ_CTRL, 3, 0⟩
abbrev CHZ_STATUS_OVERRUN : Fld := ⟨R.CHZ_STATUS, 15, 12⟩
abbrev CHZ_STATUS_FILL : Fld := ⟨R.CHZ_STATUS, 11, 8⟩
abbrev CHZ_STATUS_POWERED : Fld := ⟨R.CHZ_STATUS, 7, 4⟩
abbrev CHZ_STATUS_RUNNING : Fld := ⟨R.CHZ_STATUS, 3, 0⟩
abbrev CHZ_FFT_SHIFT_MASK : Fld := ⟨R.CHZ_FFT_SHIFT, 12, 0⟩
abbrev CHZ_MODE_MODE_REJECT : Fld := ⟨R.CHZ_MODE, 31, 31⟩
abbrev CHZ_MODE_ARMED : Fld := ⟨R.CHZ_MODE, 30, 30⟩
abbrev CHZ_MODE_NEXT_CAL8 : Fld := ⟨R.CHZ_MODE, 1, 1⟩
abbrev CHZ_MODE_CAL8 : Fld := ⟨R.CHZ_MODE, 0, 0⟩
abbrev CHZ_SWITCH_CTRL_ARMED : Fld := ⟨R.CHZ_SWITCH_CTRL, 31, 31⟩
abbrev CHZ_SWITCH_CTRL_LATE : Fld := ⟨R.CHZ_SWITCH_CTRL, 30, 30⟩
abbrev CHZ_SWITCH_CTRL_GAIN_BANK : Fld := ⟨R.CHZ_SWITCH_CTRL, 16, 16⟩
abbrev CHZ_SWITCH_CTRL_FILTER : Fld := ⟨R.CHZ_SWITCH_CTRL, 15, 0⟩
abbrev CHZ_ACTIVE_GAIN_BANK : Fld := ⟨R.CHZ_ACTIVE, 16, 16⟩
abbrev CHZ_ACTIVE_FILTER : Fld := ⟨R.CHZ_ACTIVE, 15, 0⟩
abbrev CHZ_OVF_COUNT (i : Nat) : Fld := ⟨R.CHZ_OVF i, 31, 16⟩
abbrev CHZ_OVF_STAGES (i : Nat) : Fld := ⟨R.CHZ_OVF i, 13, 0⟩
abbrev CHZ_CLIP_COUNT (i : Nat) : Fld := ⟨R.CHZ_CLIP i, 21, 0⟩
abbrev CHZ_SHIFT_B0_SHIFT (i : Nat) : Fld := ⟨R.CHZ_SHIFT_B0 i, 5, 0⟩
abbrev CHZ_SHIFT_B1_SHIFT (i : Nat) : Fld := ⟨R.CHZ_SHIFT_B1 i, 5, 0⟩
abbrev XR_CTRL_TWIN_PAIR : Fld := ⟨R.XR_CTRL, 15, 8⟩
abbrev XR_CTRL_NARROW_EN : Fld := ⟨R.XR_CTRL, 2, 2⟩
abbrev XR_CTRL_TWIN_SPLIT : Fld := ⟨R.XR_CTRL, 1, 1⟩
abbrev XR_CTRL_EN : Fld := ⟨R.XR_CTRL, 0, 0⟩
abbrev XR_GEOMETRY_ROWS : Fld := ⟨R.XR_GEOMETRY, 19, 16⟩
abbrev XR_GEOMETRY_COLS : Fld := ⟨R.XR_GEOMETRY, 11, 8⟩
abbrev XR_GEOMETRY_CHIP : Fld := ⟨R.XR_GEOMETRY, 5, 0⟩
abbrev XR_STATUS_LOSS : Fld := ⟨R.XR_STATUS, 2, 2⟩
abbrev XR_STATUS_NO_SLOT : Fld := ⟨R.XR_STATUS, 1, 1⟩
abbrev XR_STATUS_RUNNING : Fld := ⟨R.XR_STATUS, 0, 0⟩
abbrev XR_LINK_STATE_STATE : Fld := ⟨R.XR_LINK_STATE, 27, 0⟩
abbrev XR_LINK_CTRL_WIDEN : Fld := ⟨R.XR_LINK_CTRL, 13, 0⟩
abbrev XR_NARROW_DELAY_MICROSECONDS : Fld := ⟨R.XR_NARROW_DELAY, 15, 0⟩
abbrev XR_LOAD_LINK : Fld := ⟨R.XR_LOAD, 13, 10⟩
abbrev XR_LOAD_PERMILLE : Fld := ⟨R.XR_LOAD, 9, 0⟩
abbrev XR_LAST_LOSS_SRC_CHIP : Fld := ⟨R.XR_LAST_LOSS, 31, 26⟩
abbrev XR_LAST_LOSS_DST_CHIP : Fld := ⟨R.XR_LAST_LOSS, 25, 20⟩
abbrev XR_LAST_LOSS_REASON : Fld := ⟨R.XR_LAST_LOSS, 19, 16⟩
abbrev XR_LAST_LOSS_SPEC_BASE : Fld := ⟨R.XR_LAST_LOSS, 15, 8⟩
abbrev XR_SLOT_STATE (k : Nat) : Fld := ⟨R.XR_SLOT k, 31, 29⟩
abbrev XR_SLOT_HELD (k : Nat) : Fld := ⟨R.XR_SLOT k, 28, 28⟩
abbrev XR_SLOT_SPAN (k : Nat) : Fld := ⟨R.XR_SLOT k, 27, 0⟩
abbrev XR_SLOT_SIZE_MIB : Fld := ⟨R.XR_SLOT_SIZE, 15, 0⟩
abbrev COR_CTRL_ABORT : Fld := ⟨R.COR_CTRL, 2, 2⟩
abbrev COR_CTRL_PATROL_EN : Fld := ⟨R.COR_CTRL, 1, 1⟩
abbrev COR_CTRL_EN : Fld := ⟨R.COR_CTRL, 0, 0⟩
abbrev COR_STATUS_UNIT_LOST : Fld := ⟨R.COR_STATUS, 15, 15⟩
abbrev COR_STATUS_PATROL_HALT : Fld := ⟨R.COR_STATUS, 14, 14⟩
abbrev COR_STATUS_OVERRUN : Fld := ⟨R.COR_STATUS, 13, 13⟩
abbrev COR_STATUS_ABORT_BUSY : Fld := ⟨R.COR_STATUS, 11, 11⟩
abbrev COR_STATUS_MODE8 : Fld := ⟨R.COR_STATUS, 10, 10⟩
abbrev COR_STATUS_PHASE : Fld := ⟨R.COR_STATUS, 9, 8⟩
abbrev COR_STATUS_CHANNEL : Fld := ⟨R.COR_STATUS, 5, 0⟩
abbrev COR_USE_UNITS : Fld := ⟨R.COR_USE, 21, 12⟩
abbrev COR_USE_GROUPS : Fld := ⟨R.COR_USE, 5, 0⟩
abbrev COR_DRAIN_LAST_TIME : Fld := ⟨R.COR_DRAIN_LAST, 15, 0⟩
abbrev COR_DRAIN_MAX_TIME : Fld := ⟨R.COR_DRAIN_MAX, 15, 0⟩
abbrev COR_SLACK_TIME : Fld := ⟨R.COR_SLACK, 15, 0⟩
abbrev COR_PATROL_STATUS_NEXT_UNIT : Fld := ⟨R.COR_PATROL_STATUS, 31, 22⟩
abbrev COR_PATROL_STATUS_POOL : Fld := ⟨R.COR_PATROL_STATUS, 21, 12⟩
abbrev COR_PATROL_STATUS_TEST_TILE : Fld := ⟨R.COR_PATROL_STATUS, 11, 2⟩
abbrev COR_RETIRED_COUNT_COUNT : Fld := ⟨R.COR_RETIRED_COUNT, 9, 0⟩
abbrev COR_SUSPECT_TILE : Fld := ⟨R.COR_SUSPECT, 31, 22⟩
abbrev COR_SUSPECT_UNIT : Fld := ⟨R.COR_SUSPECT, 21, 12⟩
abbrev COR_SUSPECT_FROM_CHANNEL : Fld := ⟨R.COR_SUSPECT, 11, 6⟩
abbrev COR_SUSPECT_TO_CHANNEL : Fld := ⟨R.COR_SUSPECT, 5, 0⟩
abbrev COR_MAP_IN_USE (e : Nat) : Fld := ⟨R.COR_MAP e, 31, 31⟩
abbrev COR_MAP_LOST (e : Nat) : Fld := ⟨R.COR_MAP e, 30, 30⟩
abbrev COR_MAP_TILE (e : Nat) : Fld := ⟨R.COR_MAP e, 9, 0⟩
abbrev COR_ORDER_ODD (n : Nat) : Fld := ⟨R.COR_ORDER n, 25, 16⟩
abbrev COR_ORDER_EVEN (n : Nat) : Fld := ⟨R.COR_ORDER n, 9, 0⟩
abbrev COR_TILE_STATE_STATE (t : Nat) : Fld := ⟨R.COR_TILE_STATE t, 31, 29⟩
abbrev COR_TILE_STATE_MISMATCH_LAST (t : Nat) : Fld := ⟨R.COR_TILE_STATE t, 28, 28⟩
abbrev COR_TILE_STATE_UNIT (t : Nat) : Fld := ⟨R.COR_TILE_STATE t, 21, 12⟩
abbrev INT_CTRL_EN : Fld := ⟨R.INT_CTRL, 0, 0⟩
abbrev INT_STATUS_SUM_UE : Fld := ⟨R.INT_STATUS, 7, 7⟩
abbrev INT_STATUS_STAGE_BUSY : Fld := ⟨R.INT_STATUS, 6, 6⟩
abbrev INT_STATUS_READOUT_OVERRUN : Fld := ⟨R.INT_STATUS, 5, 5⟩
abbrev INT_STATUS_FOLD_SAT : Fld := ⟨R.INT_STATUS, 4, 4⟩
abbrev INT_STATUS_FOLD_SET : Fld := ⟨R.INT_STATUS, 1, 1⟩
abbrev INT_STATUS_RUNNING : Fld := ⟨R.INT_STATUS, 0, 0⟩
abbrev INT_CONFIG_SPANS : Fld := ⟨R.INT_CONFIG, 31, 16⟩
abbrev INT_CONFIG_SPAN_FRAMES : Fld := ⟨R.INT_CONFIG, 8, 0⟩
abbrev INT_STREAM_STREAM : Fld := ⟨R.INT_STREAM, 15, 0⟩
abbrev INT_PRODUCT_SLOT_MIB : Fld := ⟨R.INT_PRODUCT_SLOT, 15, 0⟩
abbrev INT_READOUT_BUSY : Fld := ⟨R.INT_READOUT, 31, 31⟩
abbrev INT_READOUT_BUFFER : Fld := ⟨R.INT_READOUT, 30, 30⟩
abbrev INT_READOUT_DONE : Fld := ⟨R.INT_READOUT, 6, 0⟩
abbrev BFM_CTRL_RELAY_EN : Fld := ⟨R.BFM_CTRL, 24, 24⟩
abbrev BFM_CTRL_CHAIN_POS : Fld := ⟨R.BFM_CTRL, 22, 20⟩
abbrev BFM_CTRL_CHAIN_LAST : Fld := ⟨R.BFM_CTRL, 18, 16⟩
abbrev BFM_CTRL_POWER_K : Fld := ⟨R.BFM_CTRL, 11, 8⟩
abbrev BFM_CTRL_VOLT_DEST : Fld := ⟨R.BFM_CTRL, 1, 1⟩
abbrev BFM_CTRL_EN : Fld := ⟨R.BFM_CTRL, 0, 0⟩
abbrev BFM_STATUS_CLIP : Fld := ⟨R.BFM_STATUS, 9, 9⟩
abbrev BFM_STATUS_OVERRUN : Fld := ⟨R.BFM_STATUS, 8, 8⟩
abbrev BFM_STATUS_RELAY_GAP : Fld := ⟨R.BFM_STATUS, 7, 7⟩
abbrev BFM_STATUS_STAGE_DROP : Fld := ⟨R.BFM_STATUS, 6, 6⟩
abbrev BFM_STATUS_CAL8_IDLE : Fld := ⟨R.BFM_STATUS, 5, 5⟩
abbrev BFM_STATUS_HALF_ON : Fld := ⟨R.BFM_STATUS, 4, 3⟩
abbrev BFM_STATUS_RUNNING : Fld := ⟨R.BFM_STATUS, 0, 0⟩
abbrev BFM_FLIP_CTRL_ARMED : Fld := ⟨R.BFM_FLIP_CTRL, 31, 31⟩
abbrev BFM_FLIP_CTRL_LATE : Fld := ⟨R.BFM_FLIP_CTRL, 30, 30⟩
abbrev BFM_FLIP_CTRL_EPOCH : Fld := ⟨R.BFM_FLIP_CTRL, 15, 0⟩
abbrev BFM_STREAM_STREAM : Fld := ⟨R.BFM_STREAM, 15, 0⟩
abbrev BFM_VSTREAM_EN (n : Nat) : Fld := ⟨R.BFM_VSTREAM n, 31, 31⟩
abbrev BFM_VSTREAM_COUNT_M1 (n : Nat) : Fld := ⟨R.BFM_VSTREAM n, 15, 8⟩
abbrev BFM_VSTREAM_FIRST_BEAM (n : Nat) : Fld := ⟨R.BFM_VSTREAM n, 7, 0⟩
abbrev BFM_BEAM_MODE (b : Nat) : Fld := ⟨R.BFM_BEAM b, 17, 16⟩
abbrev BFM_BEAM_SHIFT (b : Nat) : Fld := ⟨R.BFM_BEAM b, 4, 0⟩
abbrev TRG_CTRL_RAW_EN : Fld := ⟨R.TRG_CTRL, 3, 3⟩
abbrev TRG_CTRL_BEAM_EN : Fld := ⟨R.TRG_CTRL, 2, 2⟩
abbrev TRG_CTRL_IMP_EN : Fld := ⟨R.TRG_CTRL, 1, 1⟩
abbrev TRG_CTRL_EN : Fld := ⟨R.TRG_CTRL, 0, 0⟩
abbrev TRG_STATUS_SP_LIMIT : Fld := ⟨R.TRG_STATUS, 6, 6⟩
abbrev TRG_STATUS_RAW_GAP : Fld := ⟨R.TRG_STATUS, 5, 5⟩
abbrev TRG_STATUS_HOLD_REFUSED : Fld := ⟨R.TRG_STATUS, 4, 4⟩
abbrev TRG_STATUS_FREEZE_REFUSED : Fld := ⟨R.TRG_STATUS, 3, 3⟩
abbrev TRG_STATUS_RECORD_DROP : Fld := ⟨R.TRG_STATUS, 2, 2⟩
abbrev TRG_STATUS_BEAM_IDLE : Fld := ⟨R.TRG_STATUS, 1, 1⟩
abbrev TRG_STATUS_RUNNING : Fld := ⟨R.TRG_STATUS, 0, 0⟩
abbrev TRG_IMP_CFG_ENV_LOG : Fld := ⟨R.TRG_IMP_CFG, 18, 16⟩
abbrev TRG_IMP_CFG_HOLDOFF : Fld := ⟨R.TRG_IMP_CFG, 15, 0⟩
abbrev TRG_BEAM_CFG_THRESH : Fld := ⟨R.TRG_BEAM_CFG, 31, 16⟩
abbrev TRG_BEAM_CFG_SIGMA_SHIFT : Fld := ⟨R.TRG_BEAM_CFG, 15, 11⟩
abbrev TRG_BEAM_CFG_WIDTHS : Fld := ⟨R.TRG_BEAM_CFG, 10, 2⟩
abbrev TRG_BEAM_ACT_HOLDOFF : Fld := ⟨R.TRG_BEAM_ACT, 31, 16⟩
abbrev TRG_BEAM_ACT_ACTION : Fld := ⟨R.TRG_BEAM_ACT, 4, 0⟩
abbrev TRG_SP_CFG_HOPS : Fld := ⟨R.TRG_SP_CFG, 26, 24⟩
abbrev TRG_SP_CFG_MAX_PER_FRAME : Fld := ⟨R.TRG_SP_CFG, 23, 16⟩
abbrev TRG_SP_CFG_ACTION : Fld := ⟨R.TRG_SP_CFG, 4, 0⟩
abbrev TRG_FREEZE_CFG_PRE : Fld := ⟨R.TRG_FREEZE_CFG, 25, 16⟩
abbrev TRG_FREEZE_CFG_POST : Fld := ⟨R.TRG_FREEZE_CFG, 6, 0⟩
abbrev TRG_TIMEOUT_SECONDS : Fld := ⟨R.TRG_TIMEOUT, 15, 0⟩
abbrev TRG_HOLD_CFG_RELEASE : Fld := ⟨R.TRG_HOLD_CFG, 11, 8⟩
abbrev TRG_HOLD_CFG_MAX : Fld := ⟨R.TRG_HOLD_CFG, 1, 0⟩
abbrev TRG_EVIO_ACT_ACTION : Fld := ⟨R.TRG_EVIO_ACT, 4, 0⟩
abbrev TRG_INJECT_GO : Fld := ⟨R.TRG_INJECT, 31, 31⟩
abbrev TRG_INJECT_CHANNEL : Fld := ⟨R.TRG_INJECT, 28, 16⟩
abbrev TRG_INJECT_ACTION : Fld := ⟨R.TRG_INJECT, 4, 0⟩
abbrev TRG_RAW_STATE_OPEN : Fld := ⟨R.TRG_RAW_STATE, 28, 24⟩
abbrev TRG_RAW_STATE_FROZEN : Fld := ⟨R.TRG_RAW_STATE, 22, 16⟩
abbrev TRG_RAW_STATE_SEGMENT : Fld := ⟨R.TRG_RAW_STATE, 6, 0⟩
abbrev TRG_GROUP_CFG_EN (k : Nat) : Fld := ⟨R.TRG_GROUP_CFG k, 31, 31⟩
abbrev TRG_GROUP_CFG_M (k : Nat) : Fld := ⟨R.TRG_GROUP_CFG k, 30, 24⟩
abbrev TRG_GROUP_CFG_WINDOW_M1 (k : Nat) : Fld := ⟨R.TRG_GROUP_CFG k, 23, 12⟩
abbrev TRG_GROUP_CFG_ACTION (k : Nat) : Fld := ⟨R.TRG_GROUP_CFG k, 4, 0⟩
abbrev TRG_IMP_THRESH (i : Nat) : Fld := ⟨R.TRG_IMP i, 31, 20⟩
abbrev TRG_IMP_NOISE_SHIFT (i : Nat) : Fld := ⟨R.TRG_IMP i, 12, 8⟩
abbrev TRG_IMP_READY (i : Nat) : Fld := ⟨R.TRG_IMP i, 0, 0⟩
abbrev TRG_CAPTURE_STATE (k : Nat) : Fld := ⟨R.TRG_CAPTURE k, 31, 30⟩
abbrev TRG_CAPTURE_PARTIAL (k : Nat) : Fld := ⟨R.TRG_CAPTURE k, 23, 23⟩
abbrev TRG_CAPTURE_TRUNCATED (k : Nat) : Fld := ⟨R.TRG_CAPTURE k, 22, 22⟩
abbrev TRG_CAPTURE_EXPIRED (k : Nat) : Fld := ⟨R.TRG_CAPTURE k, 21, 21⟩
abbrev TRG_CAPTURE_RAW_GAP (k : Nat) : Fld := ⟨R.TRG_CAPTURE k, 20, 20⟩
abbrev TRG_CAPTURE_HELD (k : Nat) : Fld := ⟨R.TRG_CAPTURE k, 19, 19⟩
abbrev TRG_CAPTURE_SLOT (k : Nat) : Fld := ⟨R.TRG_CAPTURE k, 18, 17⟩
abbrev TRG_CAPTURE_TRIGGERS (k : Nat) : Fld := ⟨R.TRG_CAPTURE k, 15, 8⟩
abbrev TRG_CAPTURE_SEGMENTS (k : Nat) : Fld := ⟨R.TRG_CAPTURE k, 6, 0⟩
abbrev TRG_CAPTURE_RELEASE_RELEASE : Fld := ⟨R.TRG_CAPTURE_RELEASE, 15, 0⟩
abbrev TRG_SEG_STATE (k : Nat) : Fld := ⟨R.TRG_SEG k, 31, 30⟩
abbrev TRG_SEG_RAW_GAP (k : Nat) : Fld := ⟨R.TRG_SEG k, 29, 24⟩
abbrev TRG_SEG_PENDING (k : Nat) : Fld := ⟨R.TRG_SEG k, 23, 23⟩
abbrev TRG_SEG_REFS (k : Nat) : Fld := ⟨R.TRG_SEG k, 22, 18⟩
abbrev TRG_SEG_FRAME (k : Nat) : Fld := ⟨R.TRG_SEG k, 17, 0⟩
abbrev BRL_CTRL_CORE_RESET (k : Nat) : Fld := ⟨R.BRL_CTRL k, 2, 2⟩
abbrev BRL_CTRL_STEP (k : Nat) : Fld := ⟨R.BRL_CTRL k, 1, 1⟩
abbrev BRL_CTRL_RUN (k : Nat) : Fld := ⟨R.BRL_CTRL k, 0, 0⟩
abbrev BRL_STATUS_CAUSE (k : Nat) : Fld := ⟨R.BRL_STATUS k, 15, 12⟩
abbrev BRL_STATUS_HOST_REJECT (k : Nat) : Fld := ⟨R.BRL_STATUS k, 11, 11⟩
abbrev BRL_STATUS_LEVELS (k : Nat) : Fld := ⟨R.BRL_STATUS k, 5, 4⟩
abbrev BRL_STATUS_STATE (k : Nat) : Fld := ⟨R.BRL_STATUS k, 3, 0⟩
abbrev BRL_PC_PC (k : Nat) : Fld := ⟨R.BRL_PC k, 14, 0⟩
abbrev BRL_FAULT_PC_PC (k : Nat) : Fld := ⟨R.BRL_FAULT_PC k, 14, 0⟩
abbrev BRL_PAGE_DRAM_PAGE (k : Nat) : Fld := ⟨R.BRL_PAGE k, 31, 18⟩
abbrev BRL_PAGE_REG_PAGE (k : Nat) : Fld := ⟨R.BRL_PAGE k, 11, 6⟩
abbrev BRL_PAGE_WT_PAGE (k : Nat) : Fld := ⟨R.BRL_PAGE k, 5, 0⟩
abbrev BRL_IRQ_EN_VECTORS (k : Nat) : Fld := ⟨R.BRL_IRQ_EN k, 15, 0⟩
abbrev BRL_IRQ_PEND_VECTORS (k : Nat) : Fld := ⟨R.BRL_IRQ_PEND k, 15, 0⟩
abbrev BRL_ERR_ADDR_BUS (k : Nat) : Fld := ⟨R.BRL_ERR_ADDR k, 31, 31⟩
abbrev BRL_ERR_ADDR_ADDR (k : Nat) : Fld := ⟨R.BRL_ERR_ADDR k, 23, 0⟩
abbrev MEM_CTRL_INIT : Fld := ⟨R.MEM_CTRL, 4, 4⟩
abbrev MEM_CTRL_FORCE_2X : Fld := ⟨R.MEM_CTRL, 3, 3⟩
abbrev MEM_CTRL_SCRUB_EN : Fld := ⟨R.MEM_CTRL, 2, 2⟩
abbrev MEM_CTRL_EN : Fld := ⟨R.MEM_CTRL, 0, 0⟩
abbrev MEM_STATUS_CATCHUP : Fld := ⟨R.MEM_STATUS, 9, 9⟩
abbrev MEM_STATUS_GUARD : Fld := ⟨R.MEM_STATUS, 8, 8⟩
abbrev MEM_STATUS_LOG_DROP : Fld := ⟨R.MEM_STATUS, 7, 7⟩
abbrev MEM_STATUS_UE : Fld := ⟨R.MEM_STATUS, 6, 6⟩
abbrev MEM_STATUS_CE : Fld := ⟨R.MEM_STATUS, 5, 5⟩
abbrev MEM_STATUS_PANIC : Fld := ⟨R.MEM_STATUS, 2, 2⟩
abbrev MEM_STATUS_INIT_BUSY : Fld := ⟨R.MEM_STATUS, 1, 1⟩
abbrev MEM_STATUS_INIT_DONE : Fld := ⟨R.MEM_STATUS, 0, 0⟩
abbrev MEM_CONFIG_GIB : Fld := ⟨R.MEM_CONFIG, 31, 16⟩
abbrev MEM_CONFIG_CHANNELS : Fld := ⟨R.MEM_CONFIG, 11, 8⟩
abbrev MEM_CONFIG_RANKS : Fld := ⟨R.MEM_CONFIG, 7, 4⟩
abbrev MEM_CONFIG_WIDTH : Fld := ⟨R.MEM_CONFIG, 3, 0⟩
abbrev MEM_PANIC_CFG_ON : Fld := ⟨R.MEM_PANIC_CFG, 13, 8⟩
abbrev MEM_PANIC_CFG_OFF : Fld := ⟨R.MEM_PANIC_CFG, 5, 0⟩
abbrev MEM_REFRESH_CFG_POSTPONE_MAX : Fld := ⟨R.MEM_REFRESH_CFG, 2, 0⟩
abbrev MEM_SR_IDLE_NS : Fld := ⟨R.MEM_SR_IDLE, 15, 0⟩
abbrev MEM_AGE_LIMIT_US : Fld := ⟨R.MEM_AGE_LIMIT, 15, 0⟩
abbrev MEM_ARB_WEIGHT_EXT_WEIGHT : Fld := ⟨R.MEM_ARB_WEIGHT_EXT, 11, 0⟩
abbrev MEM_SCRUB_PERIOD_HOURS : Fld := ⟨R.MEM_SCRUB_PERIOD, 7, 0⟩
abbrev MEM_CE_LOG_MAX_COUNT : Fld := ⟨R.MEM_CE_LOG_MAX, 15, 0⟩
abbrev MEM_SWEEP_CTRL_BUSY : Fld := ⟨R.MEM_SWEEP_CTRL, 31, 31⟩
abbrev MEM_SWEEP_CTRL_COMMIT : Fld := ⟨R.MEM_SWEEP_CTRL, 8, 8⟩
abbrev MEM_SWEEP_CTRL_TRIAL_EN : Fld := ⟨R.MEM_SWEEP_CTRL, 4, 4⟩
abbrev MEM_SWEEP_CTRL_SEL : Fld := ⟨R.MEM_SWEEP_CTRL, 3, 0⟩
abbrev MEM_RT_LEVEL_RAW : Fld := ⟨R.MEM_RT_LEVEL, 31, 16⟩
abbrev MEM_RT_LEVEL_SPAN : Fld := ⟨R.MEM_RT_LEVEL, 15, 0⟩
abbrev MEM_LOG_HEAD_SLOT : Fld := ⟨R.MEM_LOG_HEAD, 14, 0⟩
abbrev MEM_LOG_TAIL_SLOT : Fld := ⟨R.MEM_LOG_TAIL, 14, 0⟩
abbrev MEM_T_0_TRP : Fld := ⟨R.MEM_T_0, 31, 24⟩
abbrev MEM_T_0_TRCD : Fld := ⟨R.MEM_T_0, 23, 16⟩
abbrev MEM_T_0_CWL : Fld := ⟨R.MEM_T_0, 15, 8⟩
abbrev MEM_T_0_CL : Fld := ⟨R.MEM_T_0, 7, 0⟩
abbrev MEM_T_1_TRFC : Fld := ⟨R.MEM_T_1, 31, 20⟩
abbrev MEM_T_1_TXS : Fld := ⟨R.MEM_T_1, 19, 10⟩
abbrev MEM_T_1_TRAS : Fld := ⟨R.MEM_T_1, 9, 0⟩
abbrev MEM_T_2_TREFI : Fld := ⟨R.MEM_T_2, 15, 0⟩
abbrev MEM_REGION_BASE_MIB (r : Nat) : Fld := ⟨R.MEM_REGION_BASE r, 19, 0⟩
abbrev MEM_REGION_SIZE_MIB (r : Nat) : Fld := ⟨R.MEM_REGION_SIZE r, 19, 0⟩
abbrev MEM_STATE_SWEEP_FAIL (u : Nat) : Fld := ⟨R.MEM_STATE u, 15, 15⟩
abbrev MEM_STATE_RATE_2X (u : Nat) : Fld := ⟨R.MEM_STATE u, 11, 10⟩
abbrev MEM_STATE_OWED_1 (u : Nat) : Fld := ⟨R.MEM_STATE u, 9, 7⟩
abbrev MEM_STATE_OWED_0 (u : Nat) : Fld := ⟨R.MEM_STATE u, 6, 4⟩
abbrev MEM_STATE_SR (u : Nat) : Fld := ⟨R.MEM_STATE u, 1, 0⟩
abbrev MEM_CA_CS (u : Nat) : Fld := ⟨R.MEM_CA u, 25, 16⟩
abbrev MEM_CA_CA (u : Nat) : Fld := ⟨R.MEM_CA u, 9, 0⟩
abbrev MEM_LIVE_RD_GATE (u : Nat) (n : Nat) : Fld := ⟨R.MEM_LIVE u n, 31, 22⟩
abbrev MEM_LIVE_WR_DQS (u : Nat) (n : Nat) : Fld := ⟨R.MEM_LIVE u n, 21, 12⟩
abbrev MEM_LIVE_RD_DQ (u : Nat) (n : Nat) : Fld := ⟨R.MEM_LIVE u n, 11, 6⟩
abbrev MEM_LIVE_WR_DQ (u : Nat) (n : Nat) : Fld := ⟨R.MEM_LIVE u n, 5, 0⟩
abbrev MEM_TRIAL_RD_GATE (u : Nat) (n : Nat) : Fld := ⟨R.MEM_TRIAL u n, 31, 22⟩
abbrev MEM_TRIAL_WR_DQS (u : Nat) (n : Nat) : Fld := ⟨R.MEM_TRIAL u n, 21, 12⟩
abbrev MEM_TRIAL_RD_DQ (u : Nat) (n : Nat) : Fld := ⟨R.MEM_TRIAL u n, 11, 6⟩
abbrev MEM_TRIAL_WR_DQ (u : Nat) (n : Nat) : Fld := ⟨R.MEM_TRIAL u n, 5, 0⟩
abbrev MEM_SWEEP_RESULT_RD_NIBBLE (u : Nat) : Fld := ⟨R.MEM_SWEEP_RESULT u, 31, 28⟩
abbrev MEM_SWEEP_RESULT_RD_WIDTH (u : Nat) : Fld := ⟨R.MEM_SWEEP_RESULT u, 21, 16⟩
abbrev MEM_SWEEP_RESULT_WR_NIBBLE (u : Nat) : Fld := ⟨R.MEM_SWEEP_RESULT u, 15, 12⟩
abbrev MEM_SWEEP_RESULT_WR_WIDTH (u : Nat) : Fld := ⟨R.MEM_SWEEP_RESULT u, 5, 0⟩
abbrev CLK_CTRL_BW : Fld := ⟨R.CLK_CTRL, 9, 8⟩
abbrev CLK_CTRL_SET_NOW : Fld := ⟨R.CLK_CTRL, 7, 7⟩
abbrev CLK_CTRL_FORCE_OUT : Fld := ⟨R.CLK_CTRL, 6, 6⟩
abbrev CLK_CTRL_FRAME_OUT_EN : Fld := ⟨R.CLK_CTRL, 5, 5⟩
abbrev CLK_CTRL_PPS_OUT_EN : Fld := ⟨R.CLK_CTRL, 4, 4⟩
abbrev CLK_CTRL_STEER_OWNER : Fld := ⟨R.CLK_CTRL, 1, 1⟩
abbrev CLK_CTRL_REVERTIVE : Fld := ⟨R.CLK_CTRL, 0, 0⟩
abbrev CLK_STATUS_TIME_FAULT : Fld := ⟨R.CLK_STATUS, 11, 11⟩
abbrev CLK_STATUS_OOS : Fld := ⟨R.CLK_STATUS, 10, 10⟩
abbrev CLK_STATUS_TIME_VALID : Fld := ⟨R.CLK_STATUS, 9, 9⟩
abbrev CLK_STATUS_SEL_VALID : Fld := ⟨R.CLK_STATUS, 8, 8⟩
abbrev CLK_STATUS_SELECTED : Fld := ⟨R.CLK_STATUS, 6, 4⟩
abbrev CLK_STATUS_DPLL_STATE : Fld := ⟨R.CLK_STATUS, 2, 0⟩
abbrev CLK_REF_CFG_REFB_FREQ : Fld := ⟨R.CLK_REF_CFG, 3, 2⟩
abbrev CLK_REF_CFG_REFA_FREQ : Fld := ⟨R.CLK_REF_CFG, 1, 0⟩
abbrev CLK_PRIO_RANK (n : Nat) : Fld := ⟨R.CLK_PRIO n, 19, 16⟩
abbrev CLK_PRIO_LANE (n : Nat) : Fld := ⟨R.CLK_PRIO n, 11, 8⟩
abbrev CLK_PRIO_SOURCE (n : Nat) : Fld := ⟨R.CLK_PRIO n, 2, 0⟩
abbrev CLK_REF_STATUS_DISAGREE (n : Nat) : Fld := ⟨R.CLK_REF_STATUS n, 3, 3⟩
abbrev CLK_REF_STATUS_IN_WINDOW (n : Nat) : Fld := ⟨R.CLK_REF_STATUS n, 2, 2⟩
abbrev CLK_REF_STATUS_QUALIFIED (n : Nat) : Fld := ⟨R.CLK_REF_STATUS n, 1, 1⟩
abbrev CLK_REF_STATUS_LOST (n : Nat) : Fld := ⟨R.CLK_REF_STATUS n, 0, 0⟩
abbrev CLK_PPS_CFG_DELAY (x : Nat) : Fld := ⟨R.CLK_PPS_CFG x, 31, 20⟩
abbrev CLK_PPS_CFG_MIN_PERIOD (x : Nat) : Fld := ⟨R.CLK_PPS_CFG x, 19, 10⟩
abbrev CLK_PPS_CFG_FALLING (x : Nat) : Fld := ⟨R.CLK_PPS_CFG x, 8, 8⟩
abbrev CLK_PPS_CFG_FILTER (x : Nat) : Fld := ⟨R.CLK_PPS_CFG x, 7, 0⟩
abbrev CLK_PPS_OUT_CFG_OFFSET : Fld := ⟨R.CLK_PPS_OUT_CFG, 31, 16⟩
abbrev CLK_PPS_OUT_CFG_WIDTH : Fld := ⟨R.CLK_PPS_OUT_CFG, 15, 0⟩
abbrev CLK_FRAME_OUT_CFG_SPECTRA : Fld := ⟨R.CLK_FRAME_OUT_CFG, 15, 0⟩
abbrev PTP_CTRL_DOMAIN : Fld := ⟨R.PTP_CTRL, 15, 8⟩
abbrev PTP_CTRL_FAULT_CLEAR : Fld := ⟨R.PTP_CTRL, 4, 4⟩
abbrev PTP_CTRL_PORT_EN : Fld := ⟨R.PTP_CTRL, 3, 2⟩
abbrev PTP_CTRL_TC_EN : Fld := ⟨R.PTP_CTRL, 1, 1⟩
abbrev PTP_CTRL_EN : Fld := ⟨R.PTP_CTRL, 0, 0⟩
abbrev PTP_STATUS_ACQUIRED : Fld := ⟨R.PTP_STATUS, 9, 9⟩
abbrev PTP_STATUS_SLAVE_PORT : Fld := ⟨R.PTP_STATUS, 8, 8⟩
abbrev PTP_STATUS_PORT_1_STATE : Fld := ⟨R.PTP_STATUS, 7, 4⟩
abbrev PTP_STATUS_PORT_0_STATE : Fld := ⟨R.PTP_STATUS, 3, 0⟩
abbrev PTP_PORT_CTRL_MEASURE (n : Nat) : Fld := ⟨R.PTP_PORT_CTRL n, 1, 1⟩
abbrev PTP_PORT_CTRL_MB_STAMP (n : Nat) : Fld := ⟨R.PTP_PORT_CTRL n, 0, 0⟩
abbrev MBX_DOORBELL_GO : Fld := ⟨R.MBX_DOORBELL, 0, 0⟩
abbrev MBX_STATUS_REFUSED : Fld := ⟨R.MBX_STATUS, 9, 9⟩
abbrev MBX_STATUS_NOTICE : Fld := ⟨R.MBX_STATUS, 8, 8⟩
abbrev MBX_STATUS_STATE : Fld := ⟨R.MBX_STATUS, 1, 0⟩
abbrev DMA_RING_CTRL_EN (n : Nat) : Fld := ⟨R.DMA_RING_CTRL n, 31, 31⟩
abbrev DMA_RING_CTRL_RESUME (n : Nat) : Fld := ⟨R.DMA_RING_CTRL n, 30, 30⟩
abbrev DMA_RING_CTRL_ENGINE (n : Nat) : Fld := ⟨R.DMA_RING_CTRL n, 28, 24⟩
abbrev DMA_RING_CTRL_VECTOR (n : Nat) : Fld := ⟨R.DMA_RING_CTRL n, 18, 8⟩
abbrev DMA_RING_CTRL_SIZE_LOG (n : Nat) : Fld := ⟨R.DMA_RING_CTRL n, 3, 0⟩
abbrev DMA_RING_STATUS_STATE (n : Nat) : Fld := ⟨R.DMA_RING_STATUS n, 31, 30⟩
abbrev DMA_RING_STATUS_CODE (n : Nat) : Fld := ⟨R.DMA_RING_STATUS n, 27, 24⟩
abbrev DMA_RING_STATUS_ANCHOR_VALID (n : Nat) : Fld := ⟨R.DMA_RING_STATUS n, 16, 16⟩
abbrev DMA_RING_STATUS_ANCHOR (n : Nat) : Fld := ⟨R.DMA_RING_STATUS n, 15, 0⟩
abbrev DMA_RING_HEAD_INDEX (n : Nat) : Fld := ⟨R.DMA_RING_HEAD n, 15, 0⟩
abbrev DMA_CTRL_RO_EN : Fld := ⟨R.DMA_CTRL, 0, 0⟩
abbrev DMA_STATUS_POISON : Fld := ⟨R.DMA_STATUS, 3, 3⟩
abbrev DMA_STATUS_DOMAIN_OFF : Fld := ⟨R.DMA_STATUS, 2, 2⟩
abbrev DMA_STATUS_DATA_ERR : Fld := ⟨R.DMA_STATUS, 1, 1⟩
abbrev DMA_STATUS_FETCH_STOP : Fld := ⟨R.DMA_STATUS, 0, 0⟩
abbrev DMA_ERR_INFO_KIND : Fld := ⟨R.DMA_ERR_INFO, 31, 28⟩
abbrev DMA_ERR_INFO_RING : Fld := ⟨R.DMA_ERR_INFO, 11, 0⟩
abbrev DMA_BAR2_WINDOW_BASE_GIB : Fld := ⟨R.DMA_BAR2_WINDOW, 7, 0⟩
abbrev DMA_ENGINE_BUSY (e : Nat) : Fld := ⟨R.DMA_ENGINE e, 31, 31⟩
abbrev DMA_ENGINE_RING (e : Nat) : Fld := ⟨R.DMA_ENGINE e, 11, 0⟩
abbrev MTX_SLICE_PENDING : Fld := ⟨R.MTX_SLICE, 31, 31⟩
abbrev MTX_SLICE_PCIE_OUT : Fld := ⟨R.MTX_SLICE, 9, 8⟩
abbrev MTX_SLICE_DRAM : Fld := ⟨R.MTX_SLICE, 1, 0⟩
abbrev MTX_ERR_INFO_KIND : Fld := ⟨R.MTX_ERR_INFO, 31, 28⟩
abbrev MTX_ERR_INFO_MASTER : Fld := ⟨R.MTX_ERR_INFO, 27, 24⟩
abbrev MTX_ERR_INFO_TARGET : Fld := ⟨R.MTX_ERR_INFO, 23, 20⟩
abbrev MTX_ERR_INFO_WRITE : Fld := ⟨R.MTX_ERR_INFO, 0, 0⟩
abbrev MTX_TIMEOUT_VALUE : Fld := ⟨R.MTX_TIMEOUT, 15, 0⟩
abbrev MTX_MASTER_STATUS_OUTSTANDING : Fld := ⟨R.MTX_MASTER_STATUS, 25, 16⟩
abbrev MTX_MASTER_STATUS_IN_RESET : Fld := ⟨R.MTX_MASTER_STATUS, 9, 0⟩
abbrev EVT_CTRL_EN : Fld := ⟨R.EVT_CTRL, 0, 0⟩
abbrev EVT_GROUP_EN_VALUE : Fld := ⟨R.EVT_GROUP_EN, 7, 0⟩
abbrev EVT_SW_FIRE_VALUE : Fld := ⟨R.EVT_SW_FIRE, 15, 0⟩
abbrev EVT_CH_CFG_EN (c : Nat) : Fld := ⟨R.EVT_CH_CFG c, 31, 31⟩
abbrev EVT_CH_CFG_SECURE (c : Nat) : Fld := ⟨R.EVT_CH_CFG c, 30, 30⟩
abbrev EVT_CH_CFG_OWNER (c : Nat) : Fld := ⟨R.EVT_CH_CFG c, 29, 27⟩
abbrev EVT_CH_CFG_SOURCE (c : Nat) : Fld := ⟨R.EVT_CH_CFG c, 22, 16⟩
abbrev EVT_CH_CFG_RATE (c : Nat) : Fld := ⟨R.EVT_CH_CFG c, 15, 0⟩
abbrev EVT_CON_CFG_EN (n : Nat) : Fld := ⟨R.EVT_CON_CFG n, 31, 31⟩
abbrev EVT_CON_CFG_MERGE (n : Nat) : Fld := ⟨R.EVT_CON_CFG n, 15, 0⟩
abbrev EVT_EVIO_CFG_DIR (k : Nat) : Fld := ⟨R.EVT_EVIO_CFG k, 31, 31⟩
abbrev EVT_EVIO_CFG_ACTIVE_LOW (k : Nat) : Fld := ⟨R.EVT_EVIO_CFG k, 30, 30⟩
abbrev EVT_EVIO_CFG_EDGE (k : Nat) : Fld := ⟨R.EVT_EVIO_CFG k, 25, 24⟩
abbrev EVT_EVIO_CFG_FILTER (k : Nat) : Fld := ⟨R.EVT_EVIO_CFG k, 23, 16⟩
abbrev EVT_EVIO_CFG_MIN_PERIOD (k : Nat) : Fld := ⟨R.EVT_EVIO_CFG k, 15, 0⟩
abbrev EVT_EVIO_WIDTH_VALUE (k : Nat) : Fld := ⟨R.EVT_EVIO_WIDTH k, 15, 0⟩
abbrev STR_STATUS_LAST_SECTION : Fld := ⟨R.STR_STATUS, 31, 24⟩
abbrev STR_STATUS_LAST_RESULT : Fld := ⟨R.STR_STATUS, 23, 16⟩
abbrev STR_STATUS_FALLBACK_REASON : Fld := ⟨R.STR_STATUS, 15, 12⟩
abbrev STR_STATUS_FALLBACK : Fld := ⟨R.STR_STATUS, 8, 8⟩
abbrev STR_STATUS_KEY_BLANK : Fld := ⟨R.STR_STATUS, 4, 4⟩
abbrev STR_STATUS_BOOT_SLOT : Fld := ⟨R.STR_STATUS, 3, 3⟩
abbrev STR_STATUS_TRIAL : Fld := ⟨R.STR_STATUS, 2, 2⟩
abbrev STR_STATUS_LOADING : Fld := ⟨R.STR_STATUS, 1, 1⟩
abbrev STR_STATUS_LOADED : Fld := ⟨R.STR_STATUS, 0, 0⟩
abbrev STR_SLOT_STATE_STATE (k : Nat) : Fld := ⟨R.STR_SLOT_STATE k, 31, 29⟩
abbrev STR_SLOT_STATE_SCHEDULED (k : Nat) : Fld := ⟨R.STR_SLOT_STATE k, 28, 28⟩
abbrev STR_SESSION_STATE : Fld := ⟨R.STR_SESSION, 31, 29⟩
abbrev STR_SESSION_PORT : Fld := ⟨R.STR_SESSION, 28, 28⟩
abbrev STR_SESSION_OWN : Fld := ⟨R.STR_SESSION, 27, 27⟩
abbrev STR_SESSION_FORCE : Fld := ⟨R.STR_SESSION, 26, 26⟩
abbrev STR_SESSION_PULLS : Fld := ⟨R.STR_SESSION, 3, 0⟩
abbrev CMP_CTRL_BLOCK_KIB : Fld := ⟨R.CMP_CTRL, 23, 16⟩
abbrev CMP_CTRL_LEVEL : Fld := ⟨R.CMP_CTRL, 11, 8⟩
abbrev CMP_CTRL_FLUSH_PER_RUN : Fld := ⟨R.CMP_CTRL, 1, 1⟩
abbrev CMP_STATUS_RING : Fld := ⟨R.CMP_STATUS, 27, 16⟩
abbrev CMP_STATUS_DEC_BUSY : Fld := ⟨R.CMP_STATUS, 1, 1⟩
abbrev CMP_STATUS_BUSY : Fld := ⟨R.CMP_STATUS, 0, 0⟩
abbrev CMP_DEC_CTRL_RAW : Fld := ⟨R.CMP_DEC_CTRL, 1, 1⟩
abbrev CMP_DEC_CTRL_GO : Fld := ⟨R.CMP_DEC_CTRL, 0, 0⟩
abbrev CMP_DEC_RESULT_RESULT : Fld := ⟨R.CMP_DEC_RESULT, 31, 28⟩
abbrev CMP_DEC_RESULT_POISONED : Fld := ⟨R.CMP_DEC_RESULT, 1, 1⟩
abbrev CMP_DEC_RESULT_DONE : Fld := ⟨R.CMP_DEC_RESULT, 0, 0⟩
abbrev YDX_STATUS_UE : Fld := ⟨R.YDX_STATUS, 9, 9⟩
abbrev YDX_STATUS_GAP : Fld := ⟨R.YDX_STATUS, 8, 8⟩
abbrev YDX_STATUS_STATE : Fld := ⟨R.YDX_STATUS, 2, 0⟩
abbrev YDX_CAPACITY_FRAMES : Fld := ⟨R.YDX_CAPACITY, 15, 0⟩
abbrev YDX_REC_FRAMES_N : Fld := ⟨R.YDX_REC_FRAMES, 15, 0⟩
abbrev YDX_REPLAY_PACE : Fld := ⟨R.YDX_REPLAY, 31, 16⟩
abbrev YDX_REPLAY_DONE : Fld := ⟨R.YDX_REPLAY, 15, 0⟩
abbrev PWR_CTRL_CHIP_RESET : Fld := ⟨R.PWR_CTRL, 15, 0⟩
abbrev PWR_STATUS_TRIP : Fld := ⟨R.PWR_STATUS, 6, 6⟩
abbrev PWR_STATUS_THROTTLE : Fld := ⟨R.PWR_STATUS, 5, 5⟩
abbrev PWR_STATUS_WARN : Fld := ⟨R.PWR_STATUS, 4, 4⟩
abbrev PWR_STATUS_RAIL_FAULT : Fld := ⟨R.PWR_STATUS, 3, 3⟩
abbrev PWR_STATUS_FORCED : Fld := ⟨R.PWR_STATUS, 2, 2⟩
abbrev PWR_STATUS_REFUSED : Fld := ⟨R.PWR_STATUS, 1, 1⟩
abbrev PWR_STATUS_BUSY : Fld := ⟨R.PWR_STATUS, 0, 0⟩
abbrev PWR_REQ_ON : Fld := ⟨R.PWR_REQ, 29, 0⟩
abbrev PWR_ON_ON : Fld := ⟨R.PWR_ON, 29, 0⟩
abbrev PWR_STATE_STATE (m : Nat) : Fld := ⟨R.PWR_STATE m, 29, 0⟩
abbrev PWR_QUIESCE_TIMEOUT_US : Fld := ⟨R.PWR_QUIESCE_TIMEOUT, 15, 0⟩
abbrev PWR_RESET_CAUSE_CAUSE : Fld := ⟨R.PWR_RESET_CAUSE, 2, 0⟩
abbrev PWR_BOOT_TEST_MODE : Fld := ⟨R.PWR_BOOT, 2, 2⟩
abbrev PWR_BOOT_BOOT_SRC : Fld := ⟨R.PWR_BOOT, 1, 0⟩
abbrev PWR_VIN_MV : Fld := ⟨R.PWR_VIN, 31, 16⟩
abbrev PWR_VIN_CURRENT : Fld := ⟨R.PWR_VIN, 15, 0⟩
abbrev PWR_RAIL_MV (r : Nat) : Fld := ⟨R.PWR_RAIL r, 31, 16⟩
abbrev PWR_RAIL_CURRENT (r : Nat) : Fld := ⟨R.PWR_RAIL r, 15, 0⟩
abbrev PWR_TEMP_TEMP (s : Nat) : Fld := ⟨R.PWR_TEMP s, 15, 0⟩
abbrev PWR_TEMP_MAX_TEMP : Fld := ⟨R.PWR_TEMP_MAX, 15, 0⟩
abbrev PWR_THERM_CFG_THROTTLE : Fld := ⟨R.PWR_THERM_CFG, 15, 8⟩
abbrev PWR_THERM_CFG_WARN : Fld := ⟨R.PWR_THERM_CFG, 7, 0⟩
abbrev TWN_STATUS_PAIR : Fld := ⟨R.TWN_STATUS, 31, 24⟩
abbrev TWN_STATUS_SLICE_OUT : Fld := ⟨R.TWN_STATUS, 21, 21⟩
abbrev TWN_STATUS_PEER_ALIVE : Fld := ⟨R.TWN_STATUS, 20, 20⟩
abbrev TWN_STATUS_ROLE : Fld := ⟨R.TWN_STATUS, 19, 18⟩
abbrev TWN_STATUS_ABANDON : Fld := ⟨R.TWN_STATUS, 6, 4⟩
abbrev TWN_STATUS_STATE : Fld := ⟨R.TWN_STATUS, 2, 0⟩
abbrev TWN_TIMEOUT_VALUE : Fld := ⟨R.TWN_TIMEOUT, 7, 0⟩
abbrev TWN_MISMATCH_VALUE : Fld := ⟨R.TWN_MISMATCH, 4, 0⟩
abbrev HLT_FAULT_VALUE : Fld := ⟨R.HLT_FAULT, 24, 0⟩
abbrev HLT_FAULT_MASK_VALUE : Fld := ⟨R.HLT_FAULT_MASK, 24, 0⟩
abbrev HLT_FIRST_VALUE : Fld := ⟨R.HLT_FIRST, 4, 0⟩

end F

/-! ## The tables -/

namespace RegMap

def idMbx : List RegRow := [
  ⟨0x0, [], [⟨31, 16, .ro, 0x1F9D⟩, ⟨15, 0, .ro, 0x4096⟩]⟩,
  ⟨0x4, [], [⟨7, 4, .ro, 0xA⟩, ⟨3, 0, .ro, 0x1⟩]⟩,
  ⟨0x10, [], [⟨31, 24, .ro, 0xC⟩, ⟨7, 4, .ro, 0xF⟩, ⟨3, 3, .ro, 0x1⟩, ⟨2, 2, .ro, 0x1⟩, ⟨1, 1, .ro, 0x1⟩, ⟨0, 0, .ro, 0x1⟩]⟩,
  ⟨0x14, [], [⟨31, 24, .ro, 0x38⟩, ⟨23, 16, .ro, 0x40⟩, ⟨15, 12, .ro, 0x8⟩, ⟨7, 0, .ro, 0x40⟩]⟩,
  ⟨0x18, [], [⟨31, 16, .ro, 0x1000⟩, ⟨15, 8, .ro, 0x40⟩, ⟨7, 0, .ro, 0xE⟩]⟩,
  ⟨0x1C, [], [⟨31, 16, .ro, 0x1000⟩, ⟨15, 8, .ro, 0x20⟩, ⟨7, 0, .ro, 0x1E⟩]⟩,
  ⟨0x10000, [], [⟨0, 0, .wo, 0x0⟩]⟩,
  ⟨0x10004, [], [⟨9, 9, .w1c, 0x0⟩, ⟨8, 8, .w1c, 0x0⟩, ⟨1, 0, .ro, 0x0⟩]⟩,
  ⟨0x10008, [], [⟨31, 0, .ro, 0x0⟩]⟩,
  ⟨0x1000C, [], [⟨31, 0, .ro, 0x0⟩]⟩]

def clk_0 : List RegRow := [
  ⟨0x100000, [], [⟨9, 8, .rw, 0x1⟩, ⟨7, 7, .rw, 0x0⟩, ⟨6, 6, .rw, 0x0⟩, ⟨5, 5, .rw, 0x1⟩, ⟨4, 4, .rw, 0x1⟩, ⟨1, 1, .rw, 0x0⟩, ⟨0, 0, .rw, 0x1⟩]⟩,
  ⟨0x100004, [], [⟨11, 11, .ro, 0x0⟩, ⟨10, 10, .ro, 0x0⟩, ⟨9, 9, .ro, 0x0⟩, ⟨8, 8, .ro, 0x0⟩, ⟨6, 4, .ro, 0x0⟩, ⟨2, 0, .ro, 0x0⟩]⟩,
  ⟨0x100008, [], [⟨3, 2, .rw, 0x0⟩, ⟨1, 0, .rw, 0x0⟩]⟩,
  ⟨0x100010, [(8, 0x4)], [⟨19, 16, .rw, 0x0⟩, ⟨11, 8, .rw, 0x0⟩, ⟨2, 0, .rw, 0x0⟩]⟩,
  ⟨0x100040, [(8, 0x4)], [⟨3, 3, .ro, 0x0⟩, ⟨2, 2, .ro, 0x0⟩, ⟨1, 1, .ro, 0x0⟩, ⟨0, 0, .w1c, 0x0⟩]⟩,
  ⟨0x100060, [(8, 0x4)], [⟨31, 0, .ro, 0x0⟩]⟩,
  ⟨0x100080, [], [⟨31, 0, .rw, 0x7D0⟩]⟩,
  ⟨0x100084, [], [⟨31, 0, .rw, 0x4E20⟩]⟩,
  ⟨0x100088, [], [⟨31, 0, .rw, 0x64⟩]⟩,
  ⟨0x10008C, [], [⟨31, 0, .rw, 0x3C⟩]⟩,
  ⟨0x100090, [], [⟨31, 0, .rw, 0x258⟩]⟩,
  ⟨0x100094, [], [⟨31, 0, .ro, 0x0⟩]⟩,
  ⟨0x100098, [], [⟨31, 0, .ro, 0x0⟩]⟩,
  ⟨0x10009C, [], [⟨31, 0, .rw, 0x0⟩]⟩,
  ⟨0x1000A0, [], [⟨31, 0, .rw, 0x64⟩]⟩,
  ⟨0x1000A4, [], [⟨31, 0, .wo, 0x0⟩]⟩,
  ⟨0x1000A8, [], [⟨31, 0, .ro, 0x0⟩]⟩,
  ⟨0x1000D8, [], [⟨31, 0, .rw, 0x0⟩]⟩,
  ⟨0x1000DC, [], [⟨31, 0, .rw, 0x0⟩]⟩,
  ⟨0x1000D0, [], [⟨31, 0, .ro, 0x0⟩]⟩,
  ⟨0x1000D4, [], [⟨31, 0, .ro, 0x0⟩]⟩,
  ⟨0x1000C0, [(2, 0x4)], [⟨31, 20, .rw, 0x0⟩, ⟨19, 10, .rw, 0x3DE⟩, ⟨8, 8, .rw, 0x0⟩, ⟨7, 0, .rw, 0x10⟩]⟩,
  ⟨0x1000C8, [], [⟨31, 16, .rw, 0x0⟩, ⟨15, 0, .rw, 0x64⟩]⟩,
  ⟨0x1000CC, [], [⟨15, 0, .rw, 0x1⟩]⟩,
  ⟨0x1000E0, [(2, 0x8)], [⟨31, 0, .ro, 0x0⟩]⟩,
  ⟨0x1000E4, [(2, 0x8)], [⟨31, 0, .ro, 0x0⟩]⟩,
  ⟨0x100100, [], [⟨31, 0, .rc, 0x0⟩]⟩,
  ⟨0x100104, [], [⟨31, 0, .rc, 0x0⟩]⟩,
  ⟨0x100108, [], [⟨31, 0, .rc, 0x0⟩]⟩,
  ⟨0x100110, [(2, 0x4)], [⟨31, 0, .rc, 0x0⟩]⟩,
  ⟨0x100118, [(2, 0x4)], [⟨31, 0, .rc, 0x0⟩]⟩,
  ⟨0x108000, [], [⟨15, 8, .rw, 0x0⟩, ⟨4, 4, .wo, 0x0⟩, ⟨3, 2, .rw, 0x3⟩, ⟨1, 1, .rw, 0x1⟩, ⟨0, 0, .rw, 0x0⟩]⟩,
  ⟨0x108004, [], [⟨9, 9, .ro, 0x0⟩, ⟨8, 8, .ro, 0x0⟩, ⟨7, 4, .ro, 0x0⟩, ⟨3, 0, .ro, 0x0⟩]⟩,
  ⟨0x108008, [], [⟨31, 0, .rw, 0x2710⟩]⟩,
  ⟨0x10800C, [], [⟨31, 0, .rw, 0x4⟩]⟩,
  ⟨0x108010, [], [⟨11, 8, .rw, 0x4⟩, ⟨3, 0, .rw, 0x8⟩]⟩,
  ⟨0x108014, [], [⟨31, 0, .ro, 0x0⟩]⟩,
  ⟨0x108018, [], [⟨31, 0, .ro, 0x0⟩]⟩,
  ⟨0x108020, [], [⟨31, 0, .rw, 0x0⟩]⟩,
  ⟨0x108024, [], [⟨31, 0, .rw, 0x0⟩]⟩]

def clk_1 : List RegRow := [
  ⟨0x108028, [], [⟨31, 0, .ro, 0x0⟩]⟩,
  ⟨0x10802C, [], [⟨31, 0, .ro, 0x0⟩]⟩,
  ⟨0x108030, [], [⟨31, 0, .ro, 0x0⟩]⟩,
  ⟨0x108100, [(2, 0x80)], [⟨1, 1, .wo, 0x0⟩, ⟨0, 0, .rw, 0x0⟩]⟩,
  ⟨0x108104, [(2, 0x80)], [⟨31, 0, .ro, 0x0⟩]⟩,
  ⟨0x108108, [(2, 0x80)], [⟨31, 0, .ro, 0x0⟩]⟩,
  ⟨0x10810C, [(2, 0x80)], [⟨31, 0, .rw, 0x0⟩]⟩,
  ⟨0x108120, [(2, 0x80)], [⟨31, 0, .rc, 0x0⟩]⟩,
  ⟨0x108124, [(2, 0x80)], [⟨31, 0, .rc, 0x0⟩]⟩,
  ⟨0x108128, [(2, 0x80)], [⟨31, 0, .rc, 0x0⟩]⟩,
  ⟨0x10812C, [(2, 0x80)], [⟨31, 0, .rc, 0x0⟩]⟩,
  ⟨0x108130, [(2, 0x80)], [⟨31, 0, .rc, 0x0⟩]⟩,
  ⟨0x108134, [(2, 0x80)], [⟨31, 0, .rc, 0x0⟩]⟩,
  ⟨0x108138, [(2, 0x80)], [⟨31, 0, .rc, 0x0⟩]⟩]

def clk : List RegRow := clk_0 ++ clk_1

def lane : List RegRow := [
  ⟨0x200000, [(56, 0x4000)], [⟨7, 6, .rw, 0x0⟩, ⟨5, 4, .rw, 0x0⟩, ⟨1, 1, .rw, 0x0⟩, ⟨0, 0, .rw, 0x0⟩]⟩,
  ⟨0x200004, [(56, 0x4000)], [⟨23, 20, .ro, 0x0⟩, ⟨19, 16, .ro, 0x0⟩, ⟨15, 14, .ro, 0x0⟩, ⟨7, 7, .ro, 0x0⟩, ⟨6, 6, .ro, 0x0⟩, ⟨5, 5, .ro, 0x0⟩, ⟨4, 4, .ro, 0x0⟩, ⟨3, 3, .ro, 0x0⟩, ⟨2, 2, .ro, 0x0⟩, ⟨1, 1, .ro, 0x0⟩, ⟨0, 0, .ro, 0x0⟩]⟩,
  ⟨0x200008, [(56, 0x4000)], [⟨27, 24, .ro, 0x0⟩, ⟨19, 16, .ro, 0x0⟩, ⟨11, 8, .ro, 0x0⟩, ⟨1, 0, .ro, 0x0⟩]⟩,
  ⟨0x200010, [(56, 0x4000)], [⟨19, 16, .rw, 0x4⟩, ⟨12, 8, .rw, 0xC⟩, ⟨3, 0, .rw, 0x4⟩]⟩,
  ⟨0x200014, [(56, 0x4000)], [⟨5, 4, .rw, 0x0⟩, ⟨3, 0, .rw, 0x8⟩]⟩,
  ⟨0x200020, [(56, 0x4000)], [⟨31, 31, .wo, 0x0⟩, ⟨23, 20, .rw, 0x6⟩, ⟨19, 18, .rw, 0x0⟩, ⟨13, 8, .rw, 0x14⟩, ⟨7, 0, .rw, 0x28⟩]⟩,
  ⟨0x200024, [(56, 0x4000)], [⟨31, 28, .ro, 0x0⟩, ⟨27, 24, .ro, 0x0⟩, ⟨21, 20, .ro, 0x0⟩, ⟨19, 16, .ro, 0x0⟩, ⟨15, 8, .ro, 0x0⟩, ⟨6, 0, .ro, 0x0⟩]⟩,
  ⟨0x200030, [(56, 0x4000)], [⟨31, 0, .rc, 0x0⟩]⟩,
  ⟨0x200034, [(56, 0x4000)], [⟨31, 0, .rc, 0x0⟩]⟩,
  ⟨0x200038, [(56, 0x4000)], [⟨7, 0, .ro, 0x0⟩]⟩,
  ⟨0x200040, [(56, 0x4000)], [⟨2, 2, .ro, 0x0⟩, ⟨1, 0, .rw, 0x0⟩]⟩,
  ⟨0x200044, [(56, 0x4000)], [⟨31, 0, .rc, 0x0⟩]⟩,
  ⟨0x2E0000, [], [⟨31, 0, .ro, 0x0⟩]⟩,
  ⟨0x2E0004, [], [⟨23, 0, .ro, 0x0⟩]⟩,
  ⟨0x2E0008, [], [⟨31, 0, .w1c, 0x0⟩]⟩,
  ⟨0x2E000C, [], [⟨31, 0, .w1c, 0x0⟩]⟩,
  ⟨0x2E0010, [], [⟨15, 0, .rw, 0x0⟩]⟩]

def lnk : List RegRow := [
  ⟨0x300000, [], [⟨15, 0, .rw, 0x0⟩]⟩,
  ⟨0x300004, [], [⟨11, 6, .rw, 0x0⟩]⟩,
  ⟨0x300010, [(4, 0x4)], [⟨31, 0, .ro, 0x0⟩]⟩,
  ⟨0x300020, [], [⟨31, 0, .w1c, 0x0⟩]⟩,
  ⟨0x300024, [], [⟨31, 0, .w1c, 0x0⟩]⟩,
  ⟨0x300030, [], [⟨31, 0, .ro, 0x0⟩]⟩,
  ⟨0x300034, [], [⟨31, 0, .ro, 0x0⟩]⟩,
  ⟨0x300038, [], [⟨31, 0, .ro, 0x0⟩]⟩,
  ⟨0x30003C, [], [⟨15, 0, .ro, 0x0⟩]⟩,
  ⟨0x301000, [(56, 0x80)], [⟨31, 0, .rc, 0x0⟩]⟩,
  ⟨0x301004, [(56, 0x80)], [⟨31, 0, .rc, 0x0⟩]⟩,
  ⟨0x301008, [(56, 0x80)], [⟨31, 0, .rc, 0x0⟩]⟩,
  ⟨0x30100C, [(56, 0x80)], [⟨31, 0, .rc, 0x0⟩]⟩,
  ⟨0x301010, [(56, 0x80)], [⟨31, 0, .rc, 0x0⟩]⟩,
  ⟨0x301014, [(56, 0x80)], [⟨31, 0, .rc, 0x0⟩]⟩,
  ⟨0x301020, [(56, 0x80)], [⟨31, 0, .rc, 0x0⟩]⟩,
  ⟨0x301024, [(56, 0x80)], [⟨31, 0, .rc, 0x0⟩]⟩,
  ⟨0x301028, [(56, 0x80)], [⟨31, 0, .rc, 0x0⟩]⟩,
  ⟨0x30102C, [(56, 0x80)], [⟨31, 0, .rc, 0x0⟩]⟩,
  ⟨0x301030, [(56, 0x80)], [⟨31, 0, .rc, 0x0⟩]⟩,
  ⟨0x301040, [(56, 0x80)], [⟨31, 16, .ro, 0x0⟩, ⟨15, 0, .ro, 0x0⟩]⟩,
  ⟨0x301048, [(56, 0x80)], [⟨31, 0, .ro, 0x0⟩]⟩,
  ⟨0x30104C, [(56, 0x80)], [⟨31, 0, .ro, 0x0⟩]⟩,
  ⟨0x301050, [(56, 0x80)], [⟨15, 0, .w1c, 0x0⟩]⟩]

def chz : List RegRow := [
  ⟨0x400000, [], [⟨7, 4, .rw, 0x0⟩, ⟨3, 0, .rw, 0x0⟩]⟩,
  ⟨0x400004, [], [⟨15, 12, .w1c, 0x0⟩, ⟨11, 8, .ro, 0x0⟩, ⟨7, 4, .ro, 0x0⟩, ⟨3, 0, .ro, 0x0⟩]⟩,
  ⟨0x400008, [], [⟨12, 0, .rw, 0x3⟩]⟩,
  ⟨0x40000C, [], [⟨31, 31, .w1c, 0x0⟩, ⟨30, 30, .ro, 0x0⟩, ⟨1, 1, .rw, 0x0⟩, ⟨0, 0, .ro, 0x0⟩]⟩,
  ⟨0x400010, [], [⟨31, 0, .rw, 0x0⟩]⟩,
  ⟨0x400014, [], [⟨31, 0, .rw, 0x0⟩]⟩,
  ⟨0x400018, [], [⟨31, 31, .ro, 0x0⟩, ⟨30, 30, .w1c, 0x0⟩, ⟨16, 16, .rw, 0x0⟩, ⟨15, 0, .rw, 0x0⟩]⟩,
  ⟨0x400020, [], [⟨31, 0, .rw, 0x0⟩]⟩,
  ⟨0x400024, [], [⟨31, 0, .rw, 0x0⟩]⟩,
  ⟨0x400028, [], [⟨31, 0, .ro, 0x0⟩]⟩,
  ⟨0x40002C, [], [⟨15, 0, .ro, 0x0⟩]⟩,
  ⟨0x400030, [], [⟨16, 16, .ro, 0x0⟩, ⟨15, 0, .ro, 0x0⟩]⟩,
  ⟨0x400040, [], [⟨31, 0, .rw, 0x0⟩]⟩,
  ⟨0x400044, [], [⟨31, 0, .rw, 0x0⟩]⟩,
  ⟨0x400048, [], [⟨31, 0, .ro, 0x0⟩]⟩,
  ⟨0x40004C, [], [⟨31, 0, .ro, 0x0⟩]⟩,
  ⟨0x400058, [], [⟨31, 0, .w1c, 0x0⟩]⟩,
  ⟨0x40005C, [], [⟨31, 0, .w1c, 0x0⟩]⟩,
  ⟨0x400060, [], [⟨31, 0, .w1c, 0x0⟩]⟩,
  ⟨0x400064, [], [⟨31, 0, .w1c, 0x0⟩]⟩,
  ⟨0x400068, [], [⟨31, 0, .w1c, 0x0⟩]⟩,
  ⟨0x40006C, [], [⟨31, 0, .w1c, 0x0⟩]⟩,
  ⟨0x400070, [], [⟨31, 0, .w1c, 0x0⟩]⟩,
  ⟨0x400074, [], [⟨31, 0, .w1c, 0x0⟩]⟩,
  ⟨0x400050, [], [⟨31, 0, .ro, 0x0⟩]⟩,
  ⟨0x400054, [], [⟨15, 0, .ro, 0x0⟩]⟩,
  ⟨0x400078, [], [⟨31, 0, .ro, 0x0⟩]⟩,
  ⟨0x40007C, [], [⟨31, 0, .ro, 0x0⟩]⟩,
  ⟨0x400080, [], [⟨31, 0, .rc, 0x0⟩]⟩,
  ⟨0x400084, [], [⟨31, 0, .rc, 0x0⟩]⟩,
  ⟨0x400088, [], [⟨31, 0, .rc, 0x0⟩]⟩,
  ⟨0x400090, [(16, 0x4)], [⟨31, 0, .rc, 0x0⟩]⟩,
  ⟨0x400100, [(64, 0x4)], [⟨31, 16, .ro, 0x0⟩, ⟨13, 0, .ro, 0x0⟩]⟩,
  ⟨0x400200, [(64, 0x4)], [⟨21, 0, .ro, 0x0⟩]⟩,
  ⟨0x400300, [(64, 0x4)], [⟨5, 0, .rw, 0x18⟩]⟩,
  ⟨0x400400, [(64, 0x4)], [⟨5, 0, .rw, 0x18⟩]⟩]

def xr : List RegRow := [
  ⟨0x800000, [], [⟨15, 8, .rw, 0x0⟩, ⟨2, 2, .rw, 0x1⟩, ⟨1, 1, .rw, 0x0⟩, ⟨0, 0, .rw, 0x0⟩]⟩,
  ⟨0x800004, [], [⟨19, 16, .rw, 0x1⟩, ⟨11, 8, .rw, 0x1⟩, ⟨5, 0, .rw, 0x0⟩]⟩,
  ⟨0x800008, [], [⟨2, 2, .w1c, 0x0⟩, ⟨1, 1, .w1c, 0x0⟩, ⟨0, 0, .ro, 0x0⟩]⟩,
  ⟨0x80000C, [], [⟨27, 0, .ro, 0x0⟩]⟩,
  ⟨0x800010, [], [⟨13, 0, .wo, 0x0⟩]⟩,
  ⟨0x800014, [], [⟨15, 0, .rw, 0x3E8⟩]⟩,
  ⟨0x800018, [], [⟨13, 10, .ro, 0x0⟩, ⟨9, 0, .ro, 0x0⟩]⟩,
  ⟨0x800020, [], [⟨31, 26, .ro, 0x0⟩, ⟨25, 20, .ro, 0x0⟩, ⟨19, 16, .ro, 0x0⟩, ⟨15, 8, .ro, 0x0⟩]⟩,
  ⟨0x800024, [], [⟨31, 0, .ro, 0x0⟩]⟩,
  ⟨0x800028, [], [⟨15, 0, .ro, 0x0⟩]⟩,
  ⟨0x800040, [(4, 0x4)], [⟨31, 29, .ro, 0x0⟩, ⟨28, 28, .ro, 0x0⟩, ⟨27, 0, .ro, 0x0⟩]⟩,
  ⟨0x800050, [], [⟨31, 30, .ro, 0x0⟩]⟩,
  ⟨0x800054, [], [⟨7, 0, .ro, 0x0⟩]⟩,
  ⟨0x800058, [], [⟨15, 0, .ro, 0x0⟩]⟩,
  ⟨0x800060, [], [⟨31, 0, .ro, 0x0⟩]⟩,
  ⟨0x800064, [], [⟨15, 0, .ro, 0x0⟩]⟩,
  ⟨0x800080, [], [⟨31, 0, .rc, 0x0⟩]⟩,
  ⟨0x800084, [], [⟨31, 0, .rc, 0x0⟩]⟩,
  ⟨0x800088, [], [⟨31, 0, .rc, 0x0⟩]⟩,
  ⟨0x80008C, [], [⟨31, 0, .rc, 0x0⟩]⟩,
  ⟨0x800090, [], [⟨31, 0, .rc, 0x0⟩]⟩,
  ⟨0x800094, [], [⟨31, 0, .rc, 0x0⟩]⟩,
  ⟨0x800098, [], [⟨31, 0, .rc, 0x0⟩]⟩,
  ⟨0x80009C, [], [⟨31, 0, .rc, 0x0⟩]⟩,
  ⟨0x8000A0, [], [⟨31, 0, .rc, 0x0⟩]⟩,
  ⟨0x8000A4, [], [⟨31, 0, .rc, 0x0⟩]⟩,
  ⟨0x800100, [], [⟨31, 0, .rw, 0xFFFFFFFF⟩]⟩,
  ⟨0x800104, [], [⟨31, 0, .rw, 0xFFFFFFF⟩]⟩,
  ⟨0x800108, [], [⟨31, 0, .rw, 0xFFFFFFFF⟩]⟩,
  ⟨0x800140, [(16, 0x4)], [⟨31, 0, .rw, 0x0⟩]⟩,
  ⟨0x800400, [(14, 0x10)], [⟨31, 0, .rc, 0x0⟩]⟩,
  ⟨0x800404, [(14, 0x10)], [⟨31, 0, .rc, 0x0⟩]⟩,
  ⟨0x800408, [(14, 0x10)], [⟨31, 0, .rc, 0x0⟩]⟩,
  ⟨0x80040C, [(14, 0x10)], [⟨31, 0, .rc, 0x0⟩]⟩,
  ⟨0x800800, [(128, 0x4)], [⟨31, 0, .ro, 0x0⟩]⟩]

def cor : List RegRow := [
  ⟨0x900008, [], [⟨31, 16, .ro, 0x210⟩, ⟨15, 0, .ro, 0x220⟩]⟩,
  ⟨0x900000, [], [⟨2, 2, .wo, 0x0⟩, ⟨1, 1, .rw, 0x1⟩, ⟨0, 0, .rw, 0x0⟩]⟩,
  ⟨0x900004, [], [⟨15, 15, .w1c, 0x0⟩, ⟨14, 14, .ro, 0x0⟩, ⟨13, 13, .w1c, 0x0⟩, ⟨11, 11, .ro, 0x0⟩, ⟨10, 10, .ro, 0x0⟩, ⟨9, 8, .ro, 0x0⟩, ⟨5, 0, .ro, 0x0⟩]⟩,
  ⟨0x90000C, [], [⟨21, 12, .ro, 0x0⟩, ⟨5, 0, .ro, 0x0⟩]⟩,
  ⟨0x900010, [], [⟨31, 0, .ro, 0x0⟩]⟩,
  ⟨0x900014, [], [⟨15, 0, .ro, 0x0⟩]⟩,
  ⟨0x900018, [], [⟨15, 0, .ro, 0x0⟩]⟩,
  ⟨0x90001C, [], [⟨15, 0, .rc, 0x0⟩]⟩,
  ⟨0x900020, [], [⟨15, 0, .ro, 0x0⟩]⟩,
  ⟨0x900030, [], [⟨31, 0, .rc, 0x0⟩]⟩,
  ⟨0x900034, [], [⟨31, 0, .rc, 0x0⟩]⟩,
  ⟨0x900038, [], [⟨31, 0, .rc, 0x0⟩]⟩,
  ⟨0x90003C, [], [⟨31, 0, .rc, 0x0⟩]⟩,
  ⟨0x900040, [], [⟨31, 0, .rc, 0x0⟩]⟩,
  ⟨0x900044, [], [⟨31, 0, .rc, 0x0⟩]⟩,
  ⟨0x900064, [], [⟨31, 0, .rc, 0x0⟩]⟩,
  ⟨0x900068, [], [⟨31, 0, .rc, 0x0⟩]⟩,
  ⟨0x90006C, [], [⟨31, 0, .rc, 0x0⟩]⟩,
  ⟨0x900060, [], [⟨31, 22, .ro, 0x0⟩, ⟨21, 12, .ro, 0x0⟩, ⟨11, 2, .ro, 0x3FF⟩]⟩,
  ⟨0x900070, [], [⟨9, 0, .ro, 0x0⟩]⟩,
  ⟨0x900074, [], [⟨31, 0, .ro, 0x7D41C2A9⟩]⟩,
  ⟨0x900080, [(17, 0x4)], [⟨31, 0, .ro, 0x0⟩]⟩,
  ⟨0x900100, [], [⟨31, 22, .ro, 0x0⟩, ⟨21, 12, .ro, 0x0⟩, ⟨11, 6, .ro, 0x0⟩, ⟨5, 0, .ro, 0x0⟩]⟩,
  ⟨0x900104, [], [⟨31, 0, .ro, 0x0⟩]⟩,
  ⟨0x900108, [], [⟨15, 0, .ro, 0x0⟩]⟩,
  ⟨0x90010C, [], [⟨31, 0, .ro, 0x0⟩]⟩,
  ⟨0x900110, [], [⟨15, 0, .ro, 0x0⟩]⟩,
  ⟨0x901000, [(528, 0x4)], [⟨31, 31, .ro, 0x0⟩, ⟨30, 30, .ro, 0x0⟩, ⟨9, 0, .ro, 0x0⟩]⟩,
  ⟨0x902000, [(272, 0x4)], [⟨25, 16, .rw, 0x0⟩, ⟨9, 0, .rw, 0x0⟩]⟩,
  ⟨0x910000, [(544, 0x400)], [⟨31, 29, .ro, 0x0⟩, ⟨28, 28, .ro, 0x0⟩, ⟨21, 12, .ro, 0x0⟩]⟩,
  ⟨0x910004, [(544, 0x400)], [⟨31, 0, .ro, 0x0⟩]⟩,
  ⟨0x910008, [(544, 0x400)], [⟨21, 0, .ro, 0x0⟩]⟩,
  ⟨0x91000C, [(544, 0x400)], [⟨31, 0, .ro, 0x0⟩]⟩,
  ⟨0x910010, [(544, 0x400)], [⟨31, 0, .ro, 0x0⟩]⟩,
  ⟨0x910014, [(544, 0x400)], [⟨31, 0, .ro, 0x0⟩]⟩,
  ⟨0x910018, [(544, 0x400)], [⟨31, 0, .rc, 0x0⟩]⟩]

def int : List RegRow := [
  ⟨0xA00000, [], [⟨0, 0, .rw, 0x0⟩]⟩,
  ⟨0xA00004, [], [⟨7, 7, .w1c, 0x0⟩, ⟨6, 6, .w1c, 0x0⟩, ⟨5, 5, .w1c, 0x0⟩, ⟨4, 4, .w1c, 0x0⟩, ⟨1, 1, .ro, 0x0⟩, ⟨0, 0, .ro, 0x0⟩]⟩,
  ⟨0xA00008, [], [⟨31, 16, .ro, 0x0⟩, ⟨8, 0, .ro, 0x0⟩]⟩,
  ⟨0xA0000C, [], [⟨15, 0, .rw, 0x0⟩]⟩,
  ⟨0xA00010, [], [⟨31, 20, .ro, 0x0⟩]⟩,
  ⟨0xA00014, [], [⟨7, 0, .ro, 0x0⟩]⟩,
  ⟨0xA00018, [], [⟨31, 20, .ro, 0x0⟩]⟩,
  ⟨0xA0001C, [], [⟨7, 0, .ro, 0x0⟩]⟩,
  ⟨0xA00020, [], [⟨15, 0, .ro, 0x0⟩]⟩,
  ⟨0xA00028, [], [⟨31, 0, .ro, 0x0⟩]⟩,
  ⟨0xA0002C, [], [⟨15, 0, .ro, 0x0⟩]⟩,
  ⟨0xA00030, [], [⟨31, 0, .ro, 0x0⟩]⟩,
  ⟨0xA00034, [], [⟨31, 0, .ro, 0x0⟩]⟩,
  ⟨0xA00038, [], [⟨31, 31, .ro, 0x0⟩, ⟨30, 30, .ro, 0x0⟩, ⟨6, 0, .ro, 0x0⟩]⟩,
  ⟨0xA00040, [(2, 0x10), (4, 0x4)], [⟨31, 0, .ro, 0x0⟩]⟩,
  ⟨0xA00060, [(2, 0x8)], [⟨31, 0, .w1s, 0xFFFFFFFF⟩]⟩,
  ⟨0xA00064, [(2, 0x8)], [⟨31, 0, .w1s, 0xFFFFFFFF⟩]⟩,
  ⟨0xA00080, [], [⟨31, 0, .rc, 0x0⟩]⟩,
  ⟨0xA00084, [], [⟨31, 0, .rc, 0x0⟩]⟩,
  ⟨0xA00088, [], [⟨31, 0, .rc, 0x0⟩]⟩,
  ⟨0xA0008C, [], [⟨31, 0, .rc, 0x0⟩]⟩,
  ⟨0xA00090, [], [⟨31, 0, .rc, 0x0⟩]⟩,
  ⟨0xA00094, [], [⟨31, 0, .rc, 0x0⟩]⟩]

def bfm : List RegRow := [
  ⟨0xB00000, [], [⟨24, 24, .rw, 0x0⟩, ⟨22, 20, .rw, 0x0⟩, ⟨18, 16, .rw, 0x0⟩, ⟨11, 8, .rw, 0x3⟩, ⟨1, 1, .rw, 0x0⟩, ⟨0, 0, .rw, 0x0⟩]⟩,
  ⟨0xB00004, [], [⟨9, 9, .w1c, 0x0⟩, ⟨8, 8, .w1c, 0x0⟩, ⟨7, 7, .w1c, 0x0⟩, ⟨6, 6, .w1c, 0x0⟩, ⟨5, 5, .ro, 0x0⟩, ⟨4, 3, .ro, 0x0⟩, ⟨0, 0, .ro, 0x0⟩]⟩,
  ⟨0xB00008, [], [⟨31, 31, .ro, 0x0⟩, ⟨30, 30, .w1c, 0x0⟩, ⟨15, 0, .rw, 0x0⟩]⟩,
  ⟨0xB00010, [], [⟨31, 0, .rw, 0x0⟩]⟩,
  ⟨0xB00014, [], [⟨31, 0, .rw, 0x0⟩]⟩,
  ⟨0xB00018, [], [⟨31, 0, .ro, 0x0⟩]⟩,
  ⟨0xB0001C, [], [⟨15, 0, .ro, 0x0⟩]⟩,
  ⟨0xB00020, [], [⟨15, 0, .rw, 0x0⟩]⟩,
  ⟨0xB00040, [(8, 0x4)], [⟨31, 0, .rw, 0x0⟩]⟩,
  ⟨0xB00060, [(8, 0x4)], [⟨31, 0, .ro, 0x0⟩]⟩,
  ⟨0xB00080, [], [⟨31, 0, .rc, 0x0⟩]⟩,
  ⟨0xB00084, [], [⟨31, 0, .rc, 0x0⟩]⟩,
  ⟨0xB00088, [], [⟨31, 0, .rc, 0x0⟩]⟩,
  ⟨0xB0008C, [], [⟨31, 0, .rc, 0x0⟩]⟩,
  ⟨0xB00090, [], [⟨31, 0, .rc, 0x0⟩]⟩,
  ⟨0xB00094, [], [⟨31, 0, .rc, 0x0⟩]⟩,
  ⟨0xB00098, [], [⟨31, 0, .rc, 0x0⟩]⟩,
  ⟨0xB0009C, [], [⟨31, 0, .rc, 0x0⟩]⟩,
  ⟨0xB000A0, [], [⟨31, 0, .rc, 0x0⟩]⟩,
  ⟨0xB000A4, [], [⟨31, 0, .rc, 0x0⟩]⟩,
  ⟨0xB000A8, [], [⟨31, 0, .rc, 0x0⟩]⟩,
  ⟨0xB00100, [(22, 0x4)], [⟨31, 31, .rw, 0x0⟩, ⟨15, 8, .rw, 0x0⟩, ⟨7, 0, .rw, 0x0⟩]⟩,
  ⟨0xB00200, [(2, 0x20)], [⟨31, 10, .ro, 0x0⟩]⟩,
  ⟨0xB00204, [(2, 0x20)], [⟨7, 0, .ro, 0x0⟩]⟩,
  ⟨0xB00208, [(2, 0x20)], [⟨15, 0, .ro, 0x0⟩]⟩,
  ⟨0xB0020C, [(2, 0x20)], [⟨15, 0, .ro, 0x0⟩]⟩,
  ⟨0xB00210, [(2, 0x20)], [⟨15, 0, .ro, 0x0⟩]⟩,
  ⟨0xB00214, [(2, 0x20)], [⟨31, 0, .rw, 0x0⟩]⟩,
  ⟨0xB00400, [(256, 0x4)], [⟨17, 16, .rw, 0x0⟩, ⟨4, 0, .rw, 0x0⟩]⟩]

def trg_0 : List RegRow := [
  ⟨0xC00000, [], [⟨3, 3, .rw, 0x1⟩, ⟨2, 2, .rw, 0x0⟩, ⟨1, 1, .rw, 0x0⟩, ⟨0, 0, .rw, 0x0⟩]⟩,
  ⟨0xC00004, [], [⟨6, 6, .w1c, 0x0⟩, ⟨5, 5, .w1c, 0x0⟩, ⟨4, 4, .w1c, 0x0⟩, ⟨3, 3, .w1c, 0x0⟩, ⟨2, 2, .w1c, 0x0⟩, ⟨1, 1, .ro, 0x0⟩, ⟨0, 0, .ro, 0x0⟩]⟩,
  ⟨0xC00008, [], [⟨18, 16, .rw, 0x2⟩, ⟨15, 0, .rw, 0x400⟩]⟩,
  ⟨0xC0000C, [], [⟨31, 16, .rw, 0x700⟩, ⟨15, 11, .rw, 0x10⟩, ⟨10, 2, .rw, 0x1FF⟩]⟩,
  ⟨0xC00010, [], [⟨31, 16, .rw, 0x100⟩, ⟨4, 0, .rw, 0x1⟩]⟩,
  ⟨0xC00014, [], [⟨26, 24, .rw, 0x2⟩, ⟨23, 16, .rw, 0x10⟩, ⟨4, 0, .rw, 0x1⟩]⟩,
  ⟨0xC00018, [], [⟨25, 16, .rw, 0x48⟩, ⟨6, 0, .rw, 0xC⟩]⟩,
  ⟨0xC0001C, [], [⟨15, 0, .rw, 0x0⟩]⟩,
  ⟨0xC00020, [], [⟨11, 8, .wo, 0x0⟩, ⟨1, 0, .rw, 0x1⟩]⟩,
  ⟨0xC00024, [], [⟨4, 0, .rw, 0x0⟩]⟩,
  ⟨0xC00028, [], [⟨31, 31, .wo, 0x0⟩, ⟨28, 16, .wo, 0x0⟩, ⟨4, 0, .wo, 0x0⟩]⟩,
  ⟨0xC00030, [], [⟨31, 0, .rw, 0x0⟩]⟩,
  ⟨0xC00034, [], [⟨31, 0, .rw, 0x0⟩]⟩,
  ⟨0xC00040, [], [⟨31, 10, .ro, 0x0⟩]⟩,
  ⟨0xC00044, [], [⟨7, 0, .ro, 0x0⟩]⟩,
  ⟨0xC00048, [], [⟨31, 0, .ro, 0x0⟩]⟩,
  ⟨0xC0004C, [], [⟨31, 0, .ro, 0x0⟩]⟩,
  ⟨0xC00050, [], [⟨31, 0, .rw, 0x0⟩]⟩,
  ⟨0xC00060, [], [⟨31, 30, .ro, 0x0⟩]⟩,
  ⟨0xC00064, [], [⟨7, 0, .ro, 0x0⟩]⟩,
  ⟨0xC00068, [], [⟨28, 24, .ro, 0x0⟩, ⟨22, 16, .ro, 0x0⟩, ⟨6, 0, .ro, 0x0⟩]⟩,
  ⟨0xC00080, [], [⟨31, 0, .rc, 0x0⟩]⟩,
  ⟨0xC00084, [], [⟨31, 0, .rc, 0x0⟩]⟩,
  ⟨0xC00088, [], [⟨31, 0, .rc, 0x0⟩]⟩,
  ⟨0xC0008C, [], [⟨31, 0, .rc, 0x0⟩]⟩,
  ⟨0xC00090, [], [⟨31, 0, .rc, 0x0⟩]⟩,
  ⟨0xC00094, [], [⟨31, 0, .rc, 0x0⟩]⟩,
  ⟨0xC00098, [], [⟨31, 0, .rc, 0x0⟩]⟩,
  ⟨0xC0009C, [], [⟨31, 0, .rc, 0x0⟩]⟩,
  ⟨0xC000A0, [], [⟨31, 0, .rc, 0x0⟩]⟩,
  ⟨0xC000A4, [], [⟨31, 0, .rc, 0x0⟩]⟩,
  ⟨0xC000A8, [], [⟨31, 0, .rc, 0x0⟩]⟩,
  ⟨0xC000AC, [], [⟨31, 0, .rc, 0x0⟩]⟩,
  ⟨0xC000B0, [], [⟨31, 0, .rc, 0x0⟩]⟩,
  ⟨0xC000B4, [], [⟨31, 0, .rc, 0x0⟩]⟩,
  ⟨0xC000C0, [], [⟨31, 0, .rw, 0x0⟩]⟩,
  ⟨0xC000C4, [], [⟨31, 0, .rw, 0x0⟩]⟩,
  ⟨0xC00100, [(8, 0x10)], [⟨31, 31, .rw, 0x0⟩, ⟨30, 24, .rw, 0x1⟩, ⟨23, 12, .rw, 0x0⟩, ⟨4, 0, .rw, 0x0⟩]⟩,
  ⟨0xC00104, [(8, 0x10)], [⟨31, 0, .rw, 0x0⟩]⟩,
  ⟨0xC00108, [(8, 0x10)], [⟨31, 0, .rw, 0x0⟩]⟩]

def trg_1 : List RegRow := [
  ⟨0xC00200, [(64, 0x4)], [⟨31, 20, .rw, 0xA0⟩, ⟨12, 8, .rw, 0x10⟩, ⟨0, 0, .ro, 0x0⟩]⟩,
  ⟨0xC00300, [(64, 0x4)], [⟨31, 0, .ro, 0x0⟩]⟩,
  ⟨0xC00400, [(8, 0x4)], [⟨31, 0, .rw, 0xFFFFFFFF⟩]⟩,
  ⟨0xC00500, [(16, 0x20)], [⟨31, 30, .ro, 0x0⟩, ⟨23, 23, .ro, 0x0⟩, ⟨22, 22, .ro, 0x0⟩, ⟨21, 21, .ro, 0x0⟩, ⟨20, 20, .ro, 0x0⟩, ⟨19, 19, .ro, 0x0⟩, ⟨18, 17, .ro, 0x0⟩, ⟨15, 8, .ro, 0x0⟩, ⟨6, 0, .ro, 0x0⟩]⟩,
  ⟨0xC00504, [(16, 0x20)], [⟨31, 0, .ro, 0x0⟩]⟩,
  ⟨0xC00508, [(16, 0x20)], [⟨15, 0, .ro, 0x0⟩]⟩,
  ⟨0xC0050C, [(16, 0x20)], [⟨31, 0, .ro, 0x0⟩]⟩,
  ⟨0xC00510, [(16, 0x20)], [⟨15, 0, .ro, 0x0⟩]⟩,
  ⟨0xC00700, [], [⟨15, 0, .wo, 0x0⟩]⟩,
  ⟨0xC00800, [(96, 0x4)], [⟨31, 30, .ro, 0x0⟩, ⟨29, 24, .ro, 0x0⟩, ⟨23, 23, .ro, 0x0⟩, ⟨22, 18, .ro, 0x0⟩, ⟨17, 0, .ro, 0x0⟩]⟩]

def trg : List RegRow := trg_0 ++ trg_1

def brl : List RegRow := [
  ⟨0xD00000, [(4, 0x100000)], [⟨2, 2, .wo, 0x0⟩, ⟨1, 1, .wo, 0x0⟩, ⟨0, 0, .rw, 0x0⟩]⟩,
  ⟨0xD00004, [(4, 0x100000)], [⟨15, 12, .ro, 0x0⟩, ⟨11, 11, .w1c, 0x0⟩, ⟨5, 4, .ro, 0x0⟩, ⟨3, 0, .ro, 0x0⟩]⟩,
  ⟨0xD00008, [(4, 0x100000)], [⟨14, 0, .rw, 0x0⟩]⟩,
  ⟨0xD0000C, [(4, 0x100000)], [⟨14, 0, .ro, 0x0⟩]⟩,
  ⟨0xD00010, [(4, 0x100000)], [⟨31, 18, .rw, 0x0⟩, ⟨11, 6, .rw, 0x0⟩, ⟨5, 0, .rw, 0x0⟩]⟩,
  ⟨0xD00020, [(4, 0x100000)], [⟨15, 0, .rw, 0x0⟩]⟩,
  ⟨0xD00024, [(4, 0x100000)], [⟨15, 0, .w1s, 0x0⟩]⟩,
  ⟨0xD00028, [(4, 0x100000)], [⟨31, 0, .rw, 0x0⟩]⟩,
  ⟨0xD0002C, [(4, 0x100000)], [⟨31, 0, .rw, 0x0⟩]⟩,
  ⟨0xD00030, [(4, 0x100000)], [⟨31, 0, .rw, 0x0⟩]⟩,
  ⟨0xD00038, [(4, 0x100000)], [⟨31, 0, .ro, 0x0⟩]⟩,
  ⟨0xD0003C, [(4, 0x100000)], [⟨15, 0, .ro, 0x0⟩]⟩,
  ⟨0xD00040, [(4, 0x100000)], [⟨31, 31, .ro, 0x0⟩, ⟨23, 0, .ro, 0x0⟩]⟩,
  ⟨0xD00050, [(4, 0x100000)], [⟨31, 0, .ro, 0x0⟩]⟩,
  ⟨0xD00054, [(4, 0x100000)], [⟨31, 0, .ro, 0x0⟩]⟩,
  ⟨0xD00058, [(4, 0x100000)], [⟨31, 0, .rc, 0x0⟩]⟩,
  ⟨0xD0005C, [(4, 0x100000)], [⟨31, 0, .rc, 0x0⟩]⟩,
  ⟨0xD00060, [(4, 0x100000)], [⟨31, 0, .rc, 0x0⟩]⟩]

def mem : List RegRow := [
  ⟨0x1100000, [], [⟨4, 4, .wo, 0x0⟩, ⟨3, 3, .rw, 0x0⟩, ⟨2, 2, .rw, 0x1⟩, ⟨0, 0, .rw, 0x0⟩]⟩,
  ⟨0x1100004, [], [⟨9, 9, .w1c, 0x0⟩, ⟨8, 8, .w1c, 0x0⟩, ⟨7, 7, .w1c, 0x0⟩, ⟨6, 6, .w1c, 0x0⟩, ⟨5, 5, .w1c, 0x0⟩, ⟨2, 2, .ro, 0x0⟩, ⟨1, 1, .ro, 0x0⟩, ⟨0, 0, .ro, 0x0⟩]⟩,
  ⟨0x1100008, [], [⟨31, 16, .ro, 0x0⟩, ⟨11, 8, .ro, 0x0⟩, ⟨7, 4, .ro, 0x0⟩, ⟨3, 0, .ro, 0x0⟩]⟩,
  ⟨0x110000C, [], [⟨13, 8, .rw, 0x20⟩, ⟨5, 0, .rw, 0x10⟩]⟩,
  ⟨0x1100010, [], [⟨2, 0, .rw, 0x4⟩]⟩,
  ⟨0x1100014, [], [⟨15, 0, .rw, 0x0⟩]⟩,
  ⟨0x1100018, [], [⟨15, 0, .rw, 0x64⟩]⟩,
  ⟨0x110001C, [], [⟨31, 0, .rw, 0x11111111⟩]⟩,
  ⟨0x1100038, [], [⟨11, 0, .rw, 0x111⟩]⟩,
  ⟨0x1100020, [], [⟨7, 0, .rw, 0x18⟩]⟩,
  ⟨0x1100024, [], [⟨15, 0, .rw, 0x40⟩]⟩,
  ⟨0x1100028, [], [⟨31, 31, .ro, 0x0⟩, ⟨8, 8, .wo, 0x0⟩, ⟨4, 4, .rw, 0x0⟩, ⟨3, 0, .rw, 0x0⟩]⟩,
  ⟨0x110002C, [], [⟨31, 16, .ro, 0x0⟩, ⟨15, 0, .ro, 0x0⟩]⟩,
  ⟨0x1100030, [], [⟨14, 0, .ro, 0x0⟩]⟩,
  ⟨0x1100034, [], [⟨14, 0, .rw, 0x0⟩]⟩,
  ⟨0x1100040, [], [⟨31, 24, .rw, 0x34⟩, ⟨23, 16, .rw, 0x34⟩, ⟨15, 8, .rw, 0x32⟩, ⟨7, 0, .rw, 0x34⟩]⟩,
  ⟨0x1100044, [], [⟨31, 20, .rw, 0x3B0⟩, ⟨19, 10, .rw, 0x3D0⟩, ⟨9, 0, .rw, 0x66⟩]⟩,
  ⟨0x1100048, [], [⟨15, 0, .rw, 0x30C0⟩]⟩,
  ⟨0x1100060, [(4, 0x8)], [⟨19, 0, .ro, 0x0⟩]⟩,
  ⟨0x1100064, [(4, 0x8)], [⟨19, 0, .ro, 0x0⟩]⟩,
  ⟨0x1100080, [], [⟨31, 0, .rc, 0x0⟩]⟩,
  ⟨0x1100084, [], [⟨31, 0, .rc, 0x0⟩]⟩,
  ⟨0x1100088, [], [⟨31, 0, .rc, 0x0⟩]⟩,
  ⟨0x110008C, [], [⟨31, 0, .rc, 0x0⟩]⟩,
  ⟨0x1100090, [], [⟨31, 0, .rc, 0x0⟩]⟩,
  ⟨0x1100094, [], [⟨31, 0, .rc, 0x0⟩]⟩,
  ⟨0x1100098, [], [⟨31, 0, .rc, 0x0⟩]⟩,
  ⟨0x110009C, [], [⟨31, 0, .rc, 0x0⟩]⟩,
  ⟨0x11000A0, [], [⟨31, 0, .rc, 0x0⟩]⟩,
  ⟨0x11000A4, [], [⟨31, 0, .rc, 0x0⟩]⟩,
  ⟨0x11000A8, [], [⟨31, 0, .rc, 0x0⟩]⟩,
  ⟨0x1110000, [(16, 0x1000)], [⟨15, 15, .w1c, 0x0⟩, ⟨11, 10, .ro, 0x0⟩, ⟨9, 7, .ro, 0x0⟩, ⟨6, 4, .ro, 0x0⟩, ⟨1, 0, .ro, 0x0⟩]⟩,
  ⟨0x1110004, [(16, 0x1000)], [⟨25, 16, .rw, 0x0⟩, ⟨9, 0, .rw, 0x0⟩]⟩,
  ⟨0x1110100, [(16, 0x1000), (10, 0x4)], [⟨31, 22, .rw, 0x0⟩, ⟨21, 12, .rw, 0x0⟩, ⟨11, 6, .rw, 0x20⟩, ⟨5, 0, .rw, 0x20⟩]⟩,
  ⟨0x1110140, [(16, 0x1000), (10, 0x4)], [⟨31, 22, .rw, 0x0⟩, ⟨21, 12, .rw, 0x0⟩, ⟨11, 6, .rw, 0x20⟩, ⟨5, 0, .rw, 0x20⟩]⟩,
  ⟨0x1110180, [(16, 0x1000)], [⟨31, 28, .ro, 0x0⟩, ⟨21, 16, .ro, 0x0⟩, ⟨15, 12, .ro, 0x0⟩, ⟨5, 0, .ro, 0x0⟩]⟩]

def dma : List RegRow := [
  ⟨0x1200000, [(4096, 0x40)], [⟨31, 31, .rw, 0x0⟩, ⟨30, 30, .wo, 0x0⟩, ⟨28, 24, .rw, 0x0⟩, ⟨18, 8, .rw, 0x0⟩, ⟨3, 0, .rw, 0x0⟩]⟩,
  ⟨0x1200004, [(4096, 0x40)], [⟨31, 30, .ro, 0x0⟩, ⟨27, 24, .ro, 0x0⟩, ⟨16, 16, .ro, 0x0⟩, ⟨15, 0, .ro, 0x0⟩]⟩,
  ⟨0x1200008, [(4096, 0x40)], [⟨31, 0, .rw, 0x0⟩]⟩,
  ⟨0x120000C, [(4096, 0x40)], [⟨31, 0, .rw, 0x0⟩]⟩,
  ⟨0x1200010, [(4096, 0x40)], [⟨31, 0, .rw, 0x0⟩]⟩,
  ⟨0x1200014, [(4096, 0x40)], [⟨31, 0, .rw, 0x0⟩]⟩,
  ⟨0x1200018, [(4096, 0x40)], [⟨15, 0, .rw, 0x0⟩]⟩,
  ⟨0x120001C, [(4096, 0x40)], [⟨31, 0, .ro, 0x0⟩]⟩,
  ⟨0x1200020, [(4096, 0x40)], [⟨31, 0, .rc, 0x0⟩]⟩,
  ⟨0x1250000, [], [⟨0, 0, .rw, 0x1⟩]⟩,
  ⟨0x1250004, [], [⟨3, 3, .w1c, 0x0⟩, ⟨2, 2, .w1c, 0x0⟩, ⟨1, 1, .w1c, 0x0⟩, ⟨0, 0, .w1c, 0x0⟩]⟩,
  ⟨0x1250008, [], [⟨31, 0, .ro, 0x0⟩]⟩,
  ⟨0x125000C, [], [⟨31, 0, .ro, 0x0⟩]⟩,
  ⟨0x1250010, [], [⟨31, 28, .ro, 0x0⟩, ⟨11, 0, .ro, 0x0⟩]⟩,
  ⟨0x1250014, [], [⟨7, 0, .rw, 0x0⟩]⟩,
  ⟨0x1250100, [(32, 0x4)], [⟨31, 31, .ro, 0x0⟩, ⟨11, 0, .ro, 0x0⟩]⟩,
  ⟨0x1250080, [], [⟨31, 0, .rc, 0x0⟩]⟩,
  ⟨0x1250084, [], [⟨31, 0, .rc, 0x0⟩]⟩,
  ⟨0x1250088, [], [⟨31, 0, .rc, 0x0⟩]⟩,
  ⟨0x125008C, [], [⟨31, 0, .rc, 0x0⟩]⟩,
  ⟨0x1240000, [(4096, 0x4)], [⟨31, 0, .wo, 0x0⟩]⟩]

def evt : List RegRow := [
  ⟨0x1300000, [], [⟨0, 0, .rw, 0x0⟩]⟩,
  ⟨0x1300004, [], [⟨7, 0, .rw, 0x0⟩]⟩,
  ⟨0x1300008, [], [⟨15, 0, .wo, 0x0⟩]⟩,
  ⟨0x1300010, [], [⟨31, 0, .w1c, 0x0⟩]⟩,
  ⟨0x1300014, [], [⟨31, 0, .w1c, 0x0⟩]⟩,
  ⟨0x1300018, [], [⟨31, 0, .w1c, 0x0⟩]⟩,
  ⟨0x130001C, [], [⟨31, 0, .w1c, 0x0⟩]⟩,
  ⟨0x1300020, [], [⟨31, 0, .rc, 0x0⟩]⟩,
  ⟨0x1300024, [], [⟨31, 0, .rc, 0x0⟩]⟩,
  ⟨0x1300028, [], [⟨31, 0, .rc, 0x0⟩]⟩,
  ⟨0x1300100, [(64, 0x8)], [⟨31, 31, .rw, 0x0⟩, ⟨30, 30, .ro, 0x0⟩, ⟨29, 27, .ro, 0x0⟩, ⟨22, 16, .ro, 0x0⟩, ⟨15, 0, .rw, 0x10⟩]⟩,
  ⟨0x1300104, [(64, 0x8)], [⟨31, 0, .rc, 0x0⟩]⟩,
  ⟨0x1300400, [(96, 0x10)], [⟨31, 0, .ro, 0x0⟩]⟩,
  ⟨0x1300404, [(96, 0x10)], [⟨31, 0, .ro, 0x0⟩]⟩,
  ⟨0x1300408, [(96, 0x10)], [⟨31, 31, .rw, 0x0⟩, ⟨15, 0, .rc, 0x0⟩]⟩,
  ⟨0x130040C, [(96, 0x10)], [⟨31, 0, .rw, 0x0⟩]⟩,
  ⟨0x1300A00, [(8, 0x8)], [⟨31, 0, .ro, 0x0⟩]⟩,
  ⟨0x1300A04, [(8, 0x8)], [⟨31, 0, .ro, 0x0⟩]⟩,
  ⟨0x1300A40, [(8, 0x4)], [⟨31, 0, .rw, 0x0⟩]⟩,
  ⟨0x1300A60, [(8, 0x4)], [⟨31, 0, .rw, 0x0⟩]⟩,
  ⟨0x1300B00, [(8, 0x10)], [⟨31, 31, .rw, 0x0⟩, ⟨30, 30, .rw, 0x0⟩, ⟨25, 24, .rw, 0x0⟩, ⟨23, 16, .rw, 0x10⟩, ⟨15, 0, .rw, 0x0⟩]⟩,
  ⟨0x1300B04, [(8, 0x10)], [⟨15, 0, .rw, 0x64⟩]⟩,
  ⟨0x1300B08, [(8, 0x10)], [⟨31, 0, .rc, 0x0⟩]⟩,
  ⟨0x1300C00, [(8, 0x8)], [⟨31, 0, .ro, 0x0⟩]⟩,
  ⟨0x1300C04, [(8, 0x8)], [⟨31, 0, .ro, 0x0⟩]⟩]

def mtx : List RegRow := [
  ⟨0x1400000, [], [⟨31, 31, .ro, 0x0⟩, ⟨9, 8, .rw, 0x1⟩, ⟨1, 0, .rw, 0x1⟩]⟩,
  ⟨0x1400010, [], [⟨31, 28, .ro, 0x0⟩, ⟨27, 24, .ro, 0x0⟩, ⟨23, 20, .ro, 0x0⟩, ⟨0, 0, .ro, 0x0⟩]⟩,
  ⟨0x1400004, [], [⟨15, 0, .rw, 0x1000⟩]⟩,
  ⟨0x1400008, [], [⟨31, 0, .ro, 0x0⟩]⟩,
  ⟨0x140000C, [], [⟨31, 0, .ro, 0x0⟩]⟩,
  ⟨0x1400014, [], [⟨25, 16, .ro, 0x0⟩, ⟨9, 0, .ro, 0x0⟩]⟩,
  ⟨0x1400020, [], [⟨31, 0, .rc, 0x0⟩]⟩,
  ⟨0x1400024, [], [⟨31, 0, .rc, 0x0⟩]⟩,
  ⟨0x1400028, [], [⟨31, 0, .rc, 0x0⟩]⟩,
  ⟨0x140002C, [], [⟨31, 0, .rc, 0x0⟩]⟩]

def pwr : List RegRow := [
  ⟨0x1500000, [], [⟨15, 0, .wo, 0x0⟩]⟩,
  ⟨0x1500004, [], [⟨6, 6, .ro, 0x0⟩, ⟨5, 5, .ro, 0x0⟩, ⟨4, 4, .ro, 0x0⟩, ⟨3, 3, .ro, 0x0⟩, ⟨2, 2, .w1c, 0x0⟩, ⟨1, 1, .w1c, 0x0⟩, ⟨0, 0, .ro, 0x0⟩]⟩,
  ⟨0x1500008, [], [⟨29, 0, .rw, 0x1⟩]⟩,
  ⟨0x150000C, [], [⟨29, 0, .ro, 0x1⟩]⟩,
  ⟨0x1500010, [(3, 0x4)], [⟨29, 0, .ro, 0x0⟩]⟩,
  ⟨0x1500020, [], [⟨15, 0, .rw, 0x64⟩]⟩,
  ⟨0x1500024, [], [⟨2, 0, .ro, 0x0⟩]⟩,
  ⟨0x1500028, [], [⟨2, 2, .ro, 0x0⟩, ⟨1, 0, .ro, 0x0⟩]⟩,
  ⟨0x1500030, [], [⟨31, 16, .ro, 0x0⟩, ⟨15, 0, .ro, 0x0⟩]⟩,
  ⟨0x1500040, [(7, 0x4)], [⟨31, 16, .ro, 0x0⟩, ⟨15, 0, .ro, 0x0⟩]⟩,
  ⟨0x1500080, [(16, 0x4)], [⟨15, 0, .ro, 0x0⟩]⟩,
  ⟨0x15000C0, [], [⟨15, 0, .rc, 0x0⟩]⟩,
  ⟨0x15000C4, [], [⟨15, 8, .rw, 0x64⟩, ⟨7, 0, .rw, 0x5F⟩]⟩,
  ⟨0x1500100, [], [⟨31, 0, .rc, 0x0⟩]⟩,
  ⟨0x1500104, [], [⟨31, 0, .rc, 0x0⟩]⟩,
  ⟨0x1500108, [], [⟨31, 0, .rc, 0x0⟩]⟩,
  ⟨0x150010C, [], [⟨31, 0, .rc, 0x0⟩]⟩]

def cmp : List RegRow := [
  ⟨0x1600000, [], [⟨23, 16, .rw, 0x40⟩, ⟨11, 8, .rw, 0x6⟩, ⟨1, 1, .rw, 0x0⟩]⟩,
  ⟨0x1600004, [], [⟨27, 16, .ro, 0x0⟩, ⟨1, 1, .ro, 0x0⟩, ⟨0, 0, .ro, 0x0⟩]⟩,
  ⟨0x1600010, [], [⟨31, 0, .rw, 0x0⟩]⟩,
  ⟨0x1600014, [], [⟨31, 0, .rw, 0x0⟩]⟩,
  ⟨0x1600018, [], [⟨31, 0, .rw, 0x0⟩]⟩,
  ⟨0x1600020, [], [⟨31, 0, .rw, 0x0⟩]⟩,
  ⟨0x1600024, [], [⟨31, 0, .rw, 0x0⟩]⟩,
  ⟨0x1600028, [], [⟨31, 0, .rw, 0x0⟩]⟩,
  ⟨0x160002C, [], [⟨1, 1, .rw, 0x0⟩, ⟨0, 0, .wo, 0x0⟩]⟩,
  ⟨0x1600030, [], [⟨31, 28, .ro, 0x0⟩, ⟨1, 1, .ro, 0x0⟩, ⟨0, 0, .w1c, 0x0⟩]⟩,
  ⟨0x1600034, [], [⟨31, 0, .ro, 0x0⟩]⟩,
  ⟨0x1608000, [], [⟨9, 9, .w1c, 0x0⟩, ⟨8, 8, .w1c, 0x0⟩, ⟨2, 0, .ro, 0x0⟩]⟩,
  ⟨0x1608004, [], [⟨15, 0, .ro, 0x0⟩]⟩,
  ⟨0x1608008, [], [⟨31, 0, .ro, 0x0⟩]⟩,
  ⟨0x160800C, [], [⟨15, 0, .ro, 0x0⟩]⟩,
  ⟨0x1608010, [], [⟨15, 0, .ro, 0x0⟩]⟩,
  ⟨0x1608014, [], [⟨31, 16, .ro, 0x0⟩, ⟨15, 0, .ro, 0x0⟩]⟩,
  ⟨0x1600080, [], [⟨31, 0, .rc, 0x0⟩]⟩,
  ⟨0x1600084, [], [⟨31, 0, .rc, 0x0⟩]⟩,
  ⟨0x1600088, [], [⟨31, 0, .rc, 0x0⟩]⟩,
  ⟨0x160008C, [], [⟨31, 0, .rc, 0x0⟩]⟩,
  ⟨0x1608080, [], [⟨31, 0, .rc, 0x0⟩]⟩,
  ⟨0x1608084, [], [⟨31, 0, .rc, 0x0⟩]⟩,
  ⟨0x1608088, [], [⟨31, 0, .rc, 0x0⟩]⟩]

def str : List RegRow := [
  ⟨0x1700000, [], [⟨31, 24, .ro, 0xFF⟩, ⟨23, 16, .ro, 0x0⟩, ⟨15, 12, .ro, 0x0⟩, ⟨8, 8, .w1c, 0x0⟩, ⟨4, 4, .ro, 0x0⟩, ⟨3, 3, .ro, 0x0⟩, ⟨2, 2, .ro, 0x0⟩, ⟨1, 1, .ro, 0x0⟩, ⟨0, 0, .ro, 0x0⟩]⟩,
  ⟨0x1700010, [(2, 0x4)], [⟨31, 29, .ro, 0x0⟩, ⟨28, 28, .ro, 0x0⟩]⟩,
  ⟨0x1700040, [], [⟨31, 29, .ro, 0x0⟩, ⟨28, 28, .ro, 0x0⟩, ⟨27, 27, .ro, 0x0⟩, ⟨26, 26, .ro, 0x0⟩, ⟨3, 0, .ro, 0x0⟩]⟩,
  ⟨0x1700008, [], [⟨31, 0, .ro, 0x0⟩]⟩,
  ⟨0x170000C, [], [⟨31, 0, .ro, 0x0⟩]⟩,
  ⟨0x1700020, [(2, 0x8)], [⟨31, 0, .ro, 0x0⟩]⟩,
  ⟨0x1700024, [(2, 0x8)], [⟨31, 0, .ro, 0x0⟩]⟩,
  ⟨0x1700030, [], [⟨31, 0, .ro, 0x0⟩]⟩,
  ⟨0x1700044, [], [⟨31, 0, .ro, 0x0⟩]⟩,
  ⟨0x1700048, [], [⟨31, 0, .ro, 0x0⟩]⟩,
  ⟨0x170004C, [], [⟨31, 0, .ro, 0x0⟩]⟩,
  ⟨0x1700050, [], [⟨31, 0, .ro, 0x0⟩]⟩,
  ⟨0x1700054, [], [⟨31, 0, .ro, 0x0⟩]⟩,
  ⟨0x1700058, [], [⟨31, 0, .ro, 0x0⟩]⟩,
  ⟨0x170005C, [], [⟨15, 0, .ro, 0x0⟩]⟩,
  ⟨0x1700080, [(12, 0x4)], [⟨31, 0, .ro, 0x0⟩]⟩,
  ⟨0x1700100, [], [⟨31, 0, .rc, 0x0⟩]⟩,
  ⟨0x1700104, [], [⟨31, 0, .rc, 0x0⟩]⟩,
  ⟨0x1700108, [], [⟨31, 0, .rc, 0x0⟩]⟩,
  ⟨0x170010C, [], [⟨31, 0, .rc, 0x0⟩]⟩,
  ⟨0x1700110, [], [⟨31, 0, .rc, 0x0⟩]⟩,
  ⟨0x1700114, [], [⟨31, 0, .rc, 0x0⟩]⟩,
  ⟨0x1700118, [], [⟨31, 0, .rc, 0x0⟩]⟩,
  ⟨0x170011C, [], [⟨31, 0, .rc, 0x0⟩]⟩,
  ⟨0x1700120, [], [⟨31, 0, .rc, 0x0⟩]⟩]

def hlt : List RegRow := [
  ⟨0x1800000, [], [⟨24, 0, .w1c, 0x0⟩]⟩,
  ⟨0x1800004, [], [⟨24, 0, .rw, 0x1FC23DB⟩]⟩,
  ⟨0x1800008, [], [⟨4, 0, .ro, 0x0⟩]⟩,
  ⟨0x1800010, [], [⟨31, 0, .ro, 0x0⟩]⟩,
  ⟨0x1800014, [], [⟨31, 0, .ro, 0x0⟩]⟩]

def twn : List RegRow := [
  ⟨0x1900000, [], [⟨31, 24, .ro, 0x0⟩, ⟨21, 21, .ro, 0x0⟩, ⟨20, 20, .ro, 0x0⟩, ⟨19, 18, .ro, 0x0⟩, ⟨6, 4, .ro, 0x0⟩, ⟨2, 0, .ro, 0x0⟩]⟩,
  ⟨0x1900004, [], [⟨7, 0, .rw, 0x4⟩]⟩,
  ⟨0x1900008, [], [⟨31, 0, .ro, 0x0⟩]⟩,
  ⟨0x190000C, [], [⟨31, 0, .ro, 0x0⟩]⟩,
  ⟨0x1900010, [], [⟨31, 0, .ro, 0x0⟩]⟩,
  ⟨0x1900014, [], [⟨15, 0, .ro, 0x0⟩]⟩,
  ⟨0x1900018, [], [⟨4, 0, .ro, 0x0⟩]⟩,
  ⟨0x1900080, [], [⟨31, 0, .rc, 0x0⟩]⟩,
  ⟨0x1900084, [], [⟨31, 0, .rc, 0x0⟩]⟩,
  ⟨0x1900088, [], [⟨31, 0, .rc, 0x0⟩]⟩,
  ⟨0x190008C, [], [⟨31, 0, .rc, 0x0⟩]⟩,
  ⟨0x1900090, [], [⟨31, 0, .rc, 0x0⟩]⟩,
  ⟨0x1900094, [], [⟨31, 0, .rc, 0x0⟩]⟩]

/-- The rows of the 1 MiB block that holds `a`; the four Beryl cores share one set of rows. -/
def rowsOf (a : Nat) : List RegRow :=
  match a / 0x100000 with
  | 0 => idMbx
  | 1 => clk
  | 2 => lane
  | 3 => lnk
  | 4 => chz
  | 8 => xr
  | 9 => cor
  | 10 => int
  | 11 => bfm
  | 12 => trg
  | 13 => brl
  | 14 => brl
  | 15 => brl
  | 16 => brl
  | 17 => mem
  | 18 => dma
  | 19 => evt
  | 20 => mtx
  | 21 => pwr
  | 22 => cmp
  | 23 => str
  | 24 => hlt
  | 25 => twn
  | _ => []

/-- Does offset `d` from a row's base name one of its registers? -/
def hits : List (Nat × Nat) → Nat → Bool
  | [], d => d == 0
  | (c, st) :: ds, d => d / st < c && hits ds (d % st)

/-- The row of the register at address `a`, if the tables list one there. -/
def row? (a : Nat) : Option RegRow :=
  (rowsOf a).find? (fun r => r.base ≤ a && hits r.dims (a - r.base))

end RegMap

end Sys2Proof.Machine
end

