-- ==== Sys2Proof/Config.lean ====
section
/-! DEFINITION. The values the spec leaves open or leaves to the implementation: opaque constants without a body, so
that no proof can see one (assumption log entries 1 to 4). -/

namespace Sys2Proof.Config

/-- A fresh value that the spec leaves undefined or does not state, applied to the counter `State.free`
(DESIGN CHOICE, log entry 1; safe). -/
opaque freeValue : Nat → BitVec 64

/-- The contents of the on-die arrays of a power domain that the spec leaves undefined after power-on (R445), by
array, by how often the domain has been powered and by entry (DESIGN CHOICE, log entry 2; safe). -/
opaque arrayPowerOn (array epoch entry : Nat) : BitVec 64

/-- The coefficient ROM of the resampler (R113): coefficient `j` of the filter of fraction `p`
(log entry 3; safe). -/
opaque resamplerRom (p j : Nat) : BitVec 16

/-- The sixteen filter-bank ROM entries (R116): coefficient `j` of filter `f` (log entry 3; safe). -/
opaque filterRom (f j : Nat) : BitVec 16

/-- The contents of fuses and other device identity values no rule states (log entry 4; safe). -/
opaque fuse : Nat → BitVec 64

/-- The set point in mV that the supervisor chooses for VCORE, for a fused speed code and the hottest sensor in 1/16 °C (R441;
log entry 46; safe). -/
opaque vcoreFor (speedCode : BitVec 64) (hottest : Int) : Nat

/-- The level at which the clock (false) or the chip select (true) of the boot flash is driven at a local time (R453; log entry
4; safe). -/
opaque qspiLevel (chipSelect : Bool) (time : Nat) : Bool

/-- Destination and source address of a relay frame: 03-4C-4E-00-00-01, and six bytes of a fuse word (R405; log entry 4). -/
def relayAddresses : List (BitVec 8) :=
  ([0x03, 0x4C, 0x4E, 0x00, 0x00, 0x01] : List (BitVec 8)) ++
    (List.range 6).map fun i => (fuse 13 >>> (8 * i)).setWidth 8

/-- The candidates that the compressor's search tries at byte `i` of its input, in order, each the length and distance of a match
it considers, for a level, a block size in KiB, the lengths of the runs it flushes at and the input (R420, R422): the spec fixes
their number and not which they are (log entry 1; safe). -/
opaque lzCandidates (level blockKib : Nat) (runs : List Nat) (input : List (BitVec 8)) (i : Nat) : List (Nat × Nat)

/-- The header of the dynamic codes proposed for the block that begins at byte `i`, from HLIT on: RFC 1951 leaves the codes
to the compressor (R421, R422; log entry 1; safe). -/
opaque dynamicHeader (level blockKib : Nat) (runs : List Nat) (input : List (BitVec 8)) (i : Nat) : List Bool

/-- The data descriptors with which the supervisor reads a capture, for its first and last frame, the raw base, its
segments, the slot it holds, the host address and COMPRESS (R359): the spec does not fix them, only what they cover (log
entry 1; safe). -/
opaque captureReadPlan (first last rawBase : Nat) (segments : List Nat) (slot : Option Nat) (host : BitVec 64)
  (compress : Bool) : List (List (BitVec 8))

/-- The place of a word of the mirrored set in the stream of the twin snapshot: the spec names the set and not the order (R461,
R462; log entry 1; safe). -/
opaque twinKey (bar4 : Bool) (offset : Nat) : Nat

/-- The bytes of the seed and the frame log that a recording leaves in the first 64 MiB of DRAM region 4: their layout is
not stated (R429, R431; log entry 1; safe). -/
opaque ydxLog : Nat → List (BitVec 8)

/-- What the argument bytes of CAPTURE_READ name: capture, ring, host address, size of the host buffer, COMPRESS and RELEASE;
the spec names the arguments and not their bytes (R358, R359; DESIGN CHOICE, log entry 1; safe). -/
opaque captureArgs (args : List (BitVec 8)) : Nat × Nat × BitVec 64 × BitVec 64 × Bool × Bool

end Sys2Proof.Config
end

