-- ==== Sys2Proof/Machine/SMap.lean ====
section
/-! DEFINITION. Sparse maps: a list of (key, value) pairs with strictly rising keys. Registers, DRAM bytes and the
on-die arrays are held so; what an unlisted key reads as is said where each map is read. -/

namespace Sys2Proof.Machine

/-- A sparse map from numbers (addresses, indexes) to values. -/
abbrev SMap (α : Type) := List (Nat × α)

namespace SMap

/-- The value listed for key `k`. -/
def find {α : Type} : SMap α → Nat → Option α
  | [], _ => none
  | (k', v) :: m, k => if k' = k then some v else find m k

/-- The value listed for key `k`, or `d`. -/
def get {α : Type} (m : SMap α) (d : α) (k : Nat) : α := (m.find k).getD d

/-- List `v` at key `k`. -/
def put {α : Type} : SMap α → Nat → α → SMap α
  | [], k, v => [(k, v)]
  | (k', v') :: m, k, v =>
    if k < k' then (k, v) :: (k', v') :: m
    else if k' = k then (k, v) :: m
    else (k', v') :: put m k v

/-- Unlist every key that meets `p`. -/
def drop {α : Type} (m : SMap α) (p : Nat → Bool) : SMap α := m.filter (fun c => !p c.1)

/-- Change the value at `k`, which reads `d` where nothing is listed. -/
def upd {α : Type} (m : SMap α) (d : α) (k : Nat) (f : α → α) : SMap α := m.put k (f (m.get d k))

/-- The canonical form: keys strictly rising. -/
abbrev Sorted {α : Type} (m : SMap α) : Prop := m.Pairwise (fun a b => a.1 < b.1)

end SMap

end Sys2Proof.Machine
end

