-- ==== Sys2Proof/Machine/State.lean ====
section
/-! DEFINITION. The state of the LX4096: every register, memory, queue and pin the spec gives it, as plain data, and
the queue of waiting commands. Registers and arrays are sparse maps; what an unlisted entry reads as is said by the
operations of Ops.lean. -/

namespace Sys2Proof.Machine

/-- Why the block stops. No command of this model ends in a fault: the spec answers every access with a response. -/
inductive Fault where
  /-- A unit was asked for something its chapter does not describe. Raised by no command at present (safe). -/
  | undescribedDevice
  deriving DecidableEq, Repr

/-- Why a command is turned away by the model. -/
inductive Refusal where
  /-- Raised by an arm of `exec` whose command has no meaning in this model yet (safe). -/
  | notModelled (mnemonic : String)
  deriving DecidableEq, Repr

/-- What the chip sends out of itself: the model's own record, in order (log entry 5). -/
inductive Out where
  /-- Data returned to a master for a register read (R9, R376). -/
  | readData (m : Master) (addr : Nat) (data : Word)
  /-- Data returned for a read of DRAM through BAR 2 (R353). -/
  | memData (offset : Nat) (data : List Byte)
  /-- Bytes returned for a read of the weight store through BAR 4, those not enabled 0 (R222). -/
  | weightData (m : Master) (offset : Nat) (data : List Byte)
  /-- An error response to a master (R375). -/
  | errorResponse (m : Master) (addr : Nat)
  /-- A frame sent: header bytes 0 to 29 and payload, its symbols striped over the lanes in this order, symbol `i` on
  lane `i` modulo their number; one lane where it is not bonded (R68, R78, R156). -/
  | laneFrame (lanes : List Nat) (header payload : List Byte)
  /-- STATUS ordered sets: 16 that announce a power state (R56), or the first with a STATE byte that changed; the lane
  repeats the last in every gap until it sends another (R76, R484; log entry 5). -/
  | statusSent (lane state count : Nat)
  /-- Symbols of idle ordered sets that a lane sends before any frame when it leaves QUIET (R56). -/
  | idleSent (lane symbols : Nat)
  /-- A write to host memory, and whether it carries Relaxed Ordering (R360, R365, R366). -/
  | hostWrite (addr : Nat) (data : List Byte) (relaxed : Bool)
  /-- What a configuration read returns (R350). -/
  | configData (field : PcieField) (data : List Nat)
  /-- A read request to host memory (R363, R364, R366). -/
  | hostRead (addr len : Nat)
  /-- An MSI-X message: its vector, and the address and data of the vector's table entry (R355). -/
  | msix (vector addr data : Nat)
  /-- A frame sent on a relay path port: relay header and payload, and the addresses of its Ethernet frame, destination and
  source (R405). -/
  | relayFrame (port type : Nat) (payload : List Byte) (addresses : List Byte := Config.relayAddresses)
  /-- A PTP message sent on a relay path port (R339, R340). -/
  | ptpFrame (port : Nat) (type : Nat) (correction : Int) (body : List Byte)
  /-- An output pin driven to a level. -/
  | pin (name : String) (level : Bool)
  deriving DecidableEq, Repr

/-! ## Hidden state of the lanes (R40 to R71) -/

/-- One calibration run's chosen setting with its eye width and height (R61). -/
structure CalRun where
  peak : Nat
  width : Nat
  height : Nat
  deriving DecidableEq, Repr

/-- What a lane holds beside its registers. -/
structure Lane where
  /-- Symbol positions of the latest code violations, newest first (R51). -/
  cvAt : List Nat := []
  /-- The transmit setting in force while a written one waits for the next align marker (R45). -/
  txInForce : Option Word := none
  /-- The transmitter was turned off when the lane's link narrowed onto the other lane (R157). -/
  txOff : Bool := false
  /-- The equalizer setting a pinned calibration is to take (R66). -/
  pinned : Option Nat := none
  /-- The equalizer setting that the next received align marker swaps in (R64). -/
  swap : Option Nat := none
  /-- Runs done in the calibration under way (R61). -/
  runs : Nat := 0
  /-- The latest of them. -/
  lastRun : Option CalRun := none
  deriving DecidableEq, Repr

/-! ## Hidden state of the ingest lanes (R84 to R101) -/

/-- The samples of one accepted INGEST frame: its SAMPLE_INDEX, the counter value at which it was accepted, and its
payload (R85). -/
structure Ingested where
  index : Nat
  at_ : Nat
  data : List Byte
  deriving DecidableEq, Repr

/-- What an ingest lane holds beside its registers. -/
structure IngestLane where
  lockCount : Nat := 0
  /-- Local frame of the latest arrival (R97). -/
  lastArrival : Option Nat := none
  /-- Counter values at which bad frames ended (R97). -/
  badAt : List Nat := []
  /-- SAMPLE_INDEX values accepted (R86, R98). -/
  accepted : List Nat := []
  /-- (frame, lane signal) pairs marked INVALID by an ON_TIME frame (R87). -/
  invalid : List (Nat × Nat) := []
  /-- The samples held for the taps (R106). -/
  held : List Ingested := []
  deriving DecidableEq, Repr

/-! ## The frame (R24 to R29) -/

/-- What the supervisor and the tick logic hold. -/
structure Arch where
  /-- Rails up and RESET_N released. -/
  up : Bool := true
  /-- The data path runs: a START was taken and its STOP has not taken full effect (R24, R25). -/
  running : Bool := false
  /-- Start frame F0. -/
  startFrame : Nat := 0
  /-- Stop frame FS of a STOP in force. -/
  stopFrame : Option Nat := none
  /-- The last frame started by a tick (R29). -/
  lastStarted : Option Nat := none
  /-- A step set the counter to the first sample of a frame whose tick has not occurred yet (R26). -/
  tickDue : Bool := false
  /-- Frame ranges (first, last) jumped over or repeated by time steps (R29). -/
  stepped : List (Nat × Nat) := []
  /-- A DIMM was refused at start-up (R298, R467), and on which channels. -/
  dimmRefused : Bool := false
  refusedChannels : List Nat := []
  /-- Of these, the ranges jumped over. -/
  jumped : List (Nat × Nat) := []
  /-- After a backward step: ticks up to this frame are suppressed, and its INGEST frames are CLOSED (R29). -/
  closedUpTo : Option Nat := none
  deriving DecidableEq, Repr

/-! ## The mailbox (R356, R412) -/

/-- A command that came over the relay path and waits for the supervisor (R412). -/
structure MgmtReq where
  cmd : Nat
  tag : Nat
  args : List Byte
  source : CmdSource
  /-- The arguments of a CAPTURE_READ whose bytes the spec does not lay out: capture, ring, host address, room, COMPRESS and
  RELEASE (log entry 1). -/
  capture : Option (Nat × Nat × DWord × Nat × Bool × Bool) := none
  deriving DecidableEq, Repr

/-- What the supervisor holds of its commands. -/
structure Mail where
  /-- Relay commands waiting (R412). -/
  relay : List MgmtReq := []
  /-- Asynchronous commands under way: command code and TAG (R358). -/
  running : List (Nat × Nat) := []
  /-- The supervisor is restarting: a GO sets REFUSED (R414). -/
  restarting : Bool := false
  /-- The descriptor that ends a CAPTURE_READ: ring, index, TAG (R359). -/
  captureRead : List (Nat × Nat × Nat) := []
  /-- Descriptors of a CAPTURE_READ that its ring, by number, has had no slot for yet; the index above then reads 2^16 (R362). -/
  captureRest : SMap (List (List Byte)) := []
  /-- The request copied out of the buffer while STATE reads BUSY (R356). -/
  request : Option MgmtReq := none
  /-- DETAIL of the command that ended last; the notice registers of R370 have no field for it (R459; log entry 50). -/
  detail : Nat := 0
  deriving DecidableEq, Repr

/-! ## Twin operation (R458 to R465) -/

/-- A digest of one span (R463): the five fields and VIS_CMP. -/
structure Digest where
  span : Nat
  fields : List Nat
  visCmp : Bool
  deriving DecidableEq, Repr

/-- The mirrored set put aside: arrays, registers, the frames of the model slots, and what was armed (R461, R462). -/
structure TwinSaved where
  arrays : SMap DWord
  regs : SMap Word
  slotFrame : SMap (Option Nat)
  pendSwitch : Option (Nat × Nat × Nat)
  pendMode : Option (Nat × Bool)
  flip : Option (Nat × Nat)
  deriving DecidableEq, Repr

/-- What the twin unit holds beside its registers. -/
structure Twin where
  /-- Join frame FJ (R459). -/
  joinFrame : Nat := 0
  /-- The join has taken effect at tick FJ. -/
  joined : Bool := false
  /-- First frame whose products are emitted, and the least first frame of an emitted integration (R459, R464). -/
  emitFrom : Nat := 0
  emitInteg : Nat := 0
  /-- TAG of the TWIN_JOIN that has not ended. -/
  joinTag : Option Nat := none
  /-- Ticks since the last TWIN frame of the peer (R465). -/
  silent : Nat := 0
  /-- A heartbeat of an active has arrived since the join (R460). -/
  heardActive : Bool := false
  /-- Next snapshot OFFSET expected by a standby, and sent by an active (R462). -/
  snapOffset : Nat := 0
  /-- MIRROR frames received, or sent, since the join (R93). -/
  mirrorCount : Nat := 0
  /-- SEQ of the next TWIN frame. -/
  seq : Nat := 0
  /-- Frame in which the snapshot stream ended; the checked span begins at or after it (R463). -/
  streamEnd : Option Nat := none
  /-- The active's engine has abandoned the stream (R376). -/
  abandoned : Bool := false
  /-- The mirrored set as it was before the copy, to discard what was received (R462); `checked` while the copy is complete
  and the standby checks. -/
  saved : Option TwinSaved := none
  checked : Option TwinSaved := none
  /-- The loss of the peer has been noted, and no frame of it has come since (R465). -/
  lost : Bool := false
  /-- Cause for which the standby goes to UNSYNCED at the next tick (R462, R463). -/
  unsyncDue : Option Nat := none
  /-- Own and peer digests not yet compared (R463). -/
  own : List Digest := []
  peer : List Digest := []
  /-- First frame of the checked span, once known. -/
  checkedFrame : Option Nat := none
  /-- Running digest material of the span under way: channelizer bytes, exchange sum, beam bytes, trigger sum,
  visibility bytes (R463), keyed by span. -/
  material : SMap (List Nat) := []
  deriving DecidableEq, Repr

/-! ## Exchange links (R156 to R158) -/

/-- What an exchange link holds beside its state. -/
structure Link where
  /-- The lane a narrowed link runs on. -/
  keep : Option Nat := none
  /-- Out of WIDE, with `XR_NARROW_DELAY` running (R157). -/
  delay : Bool := false
  /-- The delay has expired with no lane ALIGNED (R157). -/
  awaitAlign : Bool := false
  /-- WIDEN was written; acts at the next frame tick (R158). -/
  widen : Bool := false
  deriving DecidableEq, Repr

/-! ## Channelizer (R102 to R137) -/

/-- The fields of a model entry (R107). -/
structure ModelEntry where
  a0 : Nat
  a1 : Int
  a2 : Int
  b0 : Nat
  b1 : Int
  b2 : Int
  g0 : Int
  g1 : Int
  deriving DecidableEq, Repr

/-- What the chains use for one output frame, fixed at its latch point. -/
structure FrameConf where
  /-- Per signal: the entry in force and by how many frames it is continued; none if no entry matched since the start
  (R108, R110). -/
  models : List (Option (Nat × ModelEntry))
  /-- Filter selection of the four quads (R116). -/
  filters : List Nat
  gainBank : Nat
  cal8 : Bool
  fftMask : Nat
  sigEn : Nat
  fringeEn : Nat
  /-- Quads running, by bit. -/
  running : Nat
  /-- The frame in which each quad started; its history before that frame is zero (R130). -/
  starts : List Nat
  /-- Quads whose work on the frame was cut short (R132). -/
  cut : Nat
  deriving DecidableEq, Repr

/-- Counts of one signal in one frame (R112, R119, R122). -/
structure SigCount where
  ovf : Nat := 0
  stages : Nat := 0
  clip : Nat := 0
  clamp : Bool := false
  deriving DecidableEq, Repr

/-- What the channelizer holds beside its registers and arrays. -/
structure Chz where
  /-- The FRAME a slot (4 × signal + slot) matches, fixed by the last write of its word 1 (R109). -/
  slotFrame : SMap (Option Nat) := []
  /-- Per signal: the last matching entry and its frame F_m (R110). -/
  last : SMap (Nat × ModelEntry) := []
  /-- Per running quad: the frame it started in (R130). -/
  quadStart : SMap Nat := []
  /-- Pending switch: frame, filter selections, gain bank (R124). -/
  pendSwitch : Option (Nat × Nat × Nat) := none
  /-- Pending mode change: frame and CAL8 (R123). -/
  pendMode : Option (Nat × Bool) := none
  /-- Settings of the frames in the pipeline. -/
  confs : SMap FrameConf := []
  /-- The mode each latched frame runs in (R123). -/
  modes : SMap Bool := []
  /-- (lane, input frame) of late inputs (R105). -/
  late : List (Nat × Nat) := []
  /-- Counts by 64 × frame + signal. -/
  counts : SMap SigCount := []
  /-- (frame, quad) overruns of the pipeline (R136). -/
  overruns : List (Nat × Nat) := []
  /-- Spectra delivered and not yet sent, keyed 256 × frame + spectrum: bytes by signal, then channel (R127). -/
  output : SMap (List Byte) := []
  /-- Channelizer validity bits by frame (R128). -/
  valid : SMap Nat := []
  /-- The fill frame whose latch point sets RUN, after a START (R130). -/
  armRun : Option Nat := none
  /-- A CHANNELIZER region load takes effect at the next latch point (R401): offsets, the bits to write and their values. -/
  reload : Option (List (Nat × Word × Word)) := none
  deriving DecidableEq, Repr

/-! ## Yodex (R429 to R436) -/

/-- The log entry of a recorded frame (R431). -/
structure YdxFrame where
  conf : Option FrameConf
  /-- SAMPLE_INDEX of the INGEST frames present, by lane. -/
  present : List (List Nat)
  ingestValid : Nat
  /-- Lanes with a late input. -/
  late : Nat
  gap : Bool
  /-- `LNK_SIGNAL_BASE` as it stood, from which the lanes' SIGNAL_BASE follow (R86, R433). -/
  base : Nat := 0
  deriving DecidableEq, Repr

/-- What Yodex holds beside its registers and DRAM region 4. -/
structure Ydx where
  tag : Nat := 0
  first : Nat := 0
  count : Nat := 0
  stream : Bool := false
  /-- A recording is held. -/
  held : Bool := false
  /-- The recording was ended early (R432). -/
  ended : Bool := false
  frames : SMap YdxFrame := []
  /-- The seed (R431): IMAGE_ID, the gain and filter arrays, the SHIFT registers. -/
  seedId : Nat := 0
  seedArrays : SMap DWord := []
  seedRegs : SMap Word := []
  /-- First local frame FP of the replay, its pace, and its TAG. -/
  replayFirst : Nat := 0
  pace : Nat := 1
  replayTag : Nat := 0
  /-- The counter value at which a power-off cut the replay (R435). -/
  cut : Option Nat := none
  /-- (recorded frame, signal) whose read met an uncorrectable error (R435). -/
  ue : List (Nat × Nat) := []
  deriving DecidableEq, Repr
/-! ## Crossroads (R138 to R169) -/

/-- A packet in a link queue or on a link: header bytes 0 to 29 and payload (R143). -/
structure Packet where
  header : List Byte
  payload : List Byte
  deriving DecidableEq, Repr

/-- A check that failed on a packet at this chip: frame, source, first spectrum, owner, date and reason (R152, R168). -/
structure Loss where
  frame : Nat
  src : Nat
  spec : Nat
  dst : Nat
  date : Nat
  reason : Nat
  deriving DecidableEq, Repr

/-- What the crossroads holds beside its registers. -/
structure Xr where
  /-- Transmit queue of each link, first in first out (R145). -/
  queues : SMap (List Packet) := []
  /-- Packets accepted: frame, first spectrum, source, owner (R151). -/
  accepted : List (Nat × Nat × Nat × Nat) := []
  /-- Packets accepted for this owner, keyed 64 × frame + source: how many, and the AND of their maps (R153). -/
  got : SMap (Nat × Nat) := []
  /-- Failed checks of frames not yet fixed. -/
  losses : List Loss := []
  /-- Date, source and spectrum of `XR_LAST_LOSS` (R152). -/
  lastLoss : Option (Nat × Nat × Nat) := none
  /-- The slot last chosen (R164). -/
  lastSlot : Option Nat := none
  /-- The span number held by each slot that is not FREE (R163). -/
  slotSpan : SMap Nat := []
  /-- The slots that hold the first frames of a span that a later START chose another slot for, by slot (R164). -/
  former : SMap Nat := []
  /-- Their validity records: post-exchange bits by frame (R166). -/
  formerValid : SMap (SMap Nat) := []
  /-- The span chosen for last, stored or not. -/
  lastSpan : Option Nat := none
  /-- Post-exchange bits by frame, for the frames of the spans in slots (R153, R166). -/
  valid : SMap Nat := []
  /-- The last frame fixed. -/
  lastFixed : Option Nat := none
  /-- EN was cleared: the first frame that is not processed (R169). -/
  stopAt : Option Nat := none
  deriving DecidableEq, Repr

/-! ## Beamformer (R220 to R243) -/

/-- The part of a packet that one spectrum of the beam input buffer holds: its validity map and its bytes by channel, then
signal (R225). -/
structure BeamIn where
  map : Nat
  data : List Byte
  deriving DecidableEq, Repr

/-- What the beamformer holds beside its registers. -/
structure Bfm where
  /-- The input buffer, keyed 64 × (256 × frame + spectrum) + source chip (R225). -/
  buffer : SMap BeamIn := []
  /-- Contribution counts by 4096 × frame + signal (R226). -/
  counts : SMap Nat := []
  /-- Chip sums formed and not yet sent, keyed 256 × frame + spectrum: by channel, then beam (R227). -/
  sums : SMap (List (Int × Int)) := []
  /-- Spectra whose beam point is past (256 × frame + spectrum), newest first. -/
  lastPoint : Option Nat := none
  /-- Spectra whose send point is past, the latest. -/
  lastSend : Option Nat := none
  /-- Relay receive buffer, keyed 8 × (256 × frame + spectrum) + octet (R231). -/
  relay : SMap (List Byte) := []
  /-- Final beam values of the frames in work, keyed 256 × frame + spectrum: by channel, then beam (R233). -/
  final : SMap (List (Int × Int)) := []
  /-- Gap bits of the octets, keyed 256 × frame + spectrum (R237). -/
  gap : SMap Nat := []
  /-- FLAGS bits of a frame beside GAP and EXCLUDED (R236). -/
  flags : SMap Nat := []
  /-- A flip pending: frame and mask (R224). -/
  flip : Option (Nat × Nat) := none
  /-- The last flip: its frame and the banks before it. -/
  before : Nat × Nat := (0, 0)
  /-- Frames whose beam record had EXCLUDED, newest first (R236, R254). -/
  excluded : List Nat := []
  /-- The next record is the first after a time step (R240). -/
  stepped : Bool := false
  deriving DecidableEq, Repr

/-! ## Integration (R196 to R219) -/

/-- The merged record of one channel of an integration (R201): span table words by span (R212), flag bytes by block
(R213), and the bits of the bitmap by frame (R214). -/
structure ChanRec where
  entries : SMap Nat := []
  blocks : SMap Nat := []
  bitmap : SMap Nat := []
  deriving DecidableEq, Repr

/-- What the fold unit holds beside its registers. -/
structure Integ where
  /-- Merged records, keyed 64 × integration + channel. -/
  recs : SMap ChanRec := []
  /-- The first integration folded (R24, R198). -/
  first : Option Nat := none
  /-- Integrations abandoned (R217). -/
  dead : List Nat := []
  /-- The integration being folded (R217). -/
  folding : Option Nat := none
  /-- The integration being read out and its next channel (R204). -/
  readout : Option (Nat × Nat) := none
  /-- The last integration whose readout ended. -/
  lastDone : Option Nat := none
  deriving DecidableEq, Repr

/-! ## Correlator (R170 to R195) -/

/-- A failed causeway read in the channel in work: frame, spectrum in the frame, and the signals it cut (R184). -/
structure CausewayCut where
  frame : Nat
  spectrum : Nat
  signals : Nat
  deriving DecidableEq, Repr

/-- What a unit's tile holds at the end of a channel: its words in ascending order, and how many saturated (R174). -/
structure UnitAcc where
  words : List (Int × Int)
  sat : Nat
  deriving DecidableEq, Repr

/-- What the correlator holds beside its registers. -/
structure Cor where
  /-- The span in work. -/
  span : Option Nat := none
  /-- A span whose window opened while the drain of the span before it, or the start-up tests, still ran (R182). -/
  waiting : Option Nat := none
  /-- The span started last, and the span whose window closed last. -/
  last : Option Nat := none
  lastClosed : Option Nat := none
  /-- The window of the span in work has closed; a drain runs on (R182). -/
  closed : Bool := false
  /-- An abort waits for the drain to end (R185). -/
  abortDue : Bool := false
  /-- The map is built, and for which mode (R172). -/
  built : Option Bool := none
  /-- Pool tiles, the one longest in the pool first. -/
  pool : List Nat := []
  /-- Start-up tests not yet ended (R192). -/
  startup : List Nat := []
  /-- Tiles that wait for their test, in order (R189, R193). -/
  waitTest : List Nat := []
  /-- Tiles whose first pass mismatched and that run a second one (R189). -/
  second : List Nat := []
  /-- For a tile released by patrol: its unit, and the first span and channel it did not compute (R190). -/
  released : SMap (Nat × Nat × Nat) := []
  /-- Accumulators of the units at the end of COMPUTE. -/
  acc : SMap UnitAcc := []
  /-- Blocks with SAT in the channel in work (R175). -/
  sat : List Nat := []
  /-- PATROL_EN as the last channel boundary found it (R192). -/
  patrol : Bool := true
  /-- VALID of the channel in work: post-exchange bits by frame of the span (R181). -/
  valid : List Nat := []
  /-- Failed reads of the channel in work (R184). -/
  cuts : List CausewayCut := []
  /-- Local counter at which the drain phase began. -/
  drainAt : Nat := 0
  deriving DecidableEq, Repr

/-! ## Triggers, raw ring and capture (R244 to R267) -/

/-- A hit event of the impulse search: index, signal, ratio in Q16.16, and the INGEST frame that supplied it (R246). A
ratio of 2^32 or more stands for one the spec states no 32-bit value for. -/
structure Hit where
  at_ : Nat
  signal : Nat
  ratio : Nat
  source : Nat
  /-- The INGEST frame that supplied it has been discarded (R249). -/
  bad : Bool := false
  deriving DecidableEq, Repr

/-- One signal's impulse search (R246). -/
structure Impulse where
  updates : Nat := 0
  lastHit : Option Nat := none
  /-- The sample before was a hit. -/
  inRun : Bool := false
  /-- Highest index delivered, and the samples before the one in work, newest first. -/
  last : Option Nat := none
  hist : List Int := []
  /-- For each run of samples delivered: the index that follows it, whether its last sample was a hit, and its latest
  samples, newest first. -/
  tails : List (Nat × Bool × List Int) := []
  deriving DecidableEq, Repr

/-- One impulse group: its horizon, its hold-off point, hits not yet evaluated, hits of the window, and late hits (R247,
R248). -/
structure Group where
  horizon : Nat := 0
  hold : Nat := 0
  waiting : List Hit := []
  recent : List Hit := []
  late : List Nat := []
  deriving DecidableEq, Repr

/-- A trigger fired from hits: channel, index and the (signal, INGEST frame) pairs that supplied it (R249). -/
structure Fired where
  channel : Nat
  index : Nat
  sources : List (Nat × Nat)
  deriving DecidableEq, Repr

/-- An open candidate of the beam search: best SNR, its w and its last spectrum, spectra open, spectra since a pass
(R252). -/
structure Candidate where
  snr : Nat
  w : Nat
  last : Nat
  spectra : Nat
  since : Nat
  deriving DecidableEq, Repr

/-- One channel of the beam search (R251, R252). -/
structure BeamSearch where
  /-- Latest values of P, newest first. -/
  hist : List Nat := []
  mu : Int := 0
  var : Int := 0
  updates : Nat := 0
  ready : Bool := false
  hold : Nat := 0
  candidate : Option Candidate := none
  deriving DecidableEq, Repr

/-- What the trigger engine and the raw ring writer hold beside their registers. -/
structure Trg where
  /-- Records since EN (R254). -/
  seq : Nat := 0
  impulses : SMap Impulse := []
  groups : SMap Group := []
  fired : List Fired := []
  beams : SMap BeamSearch := []
  /-- Keys of accepted signposts, newest first, at most 256 (R256). -/
  keys : List (Nat × Nat × Nat) := []
  /-- Signposts sent (R255), and the frame and number of those that originated in it. -/
  sent : Nat := 0
  perFrame : Nat × Nat := (0, 0)
  /-- First frame of each segment that holds data or is being written (R257). -/
  segFirst : SMap Nat := []
  /-- First frame a PENDING segment is claimed for and not yet written with (R259). -/
  claimed : SMap Nat := []
  /-- The segment being written. -/
  current : Option Nat := none
  /-- Segments that each capture has claimed (R260). -/
  captureSegs : SMap (List Nat) := []
  /-- Captures that own the hold of each held slot; none for a hold of its own (R263). -/
  holds : SMap (List Nat) := []
  /-- Frames read and not yet written to the ring (R258). -/
  rawDue : List Nat := []
  /-- Configuration registers written since the last tick: the word still in force (R267). -/
  old : SMap Word := []
  deriving DecidableEq, Repr

/-! ## Memory controller (R298 to R319) -/

/-- What the memory controller holds beside its registers. -/
structure MemCtl where
  /-- Address of the last uncorrectable error (R466). -/
  lastUe : Nat := 0
  /-- Local counter at which panic began. -/
  panicAt : Nat := 0
  /-- The second in which CE entries were last logged, and how many of them (R309). -/
  ceSecond : Nat × Nat := (0, 0)
  /-- The line the scrubber reads next, and lines whose write-back is queued (R308). -/
  scrubNext : Nat := 0
  scrubQueue : List Nat := []
  /-- Subchannels the sweep has still to do, and the TAG of its command (R318). -/
  sweep : List Nat := []
  sweepTag : Nat := 0
  /-- The sweep is that of the start-up, after which the supervisor sets INIT. -/
  starting : Bool := false
  /-- Requesters whose request has waited longer than `MEM_AGE_LIMIT` (R310). -/
  promoted : List Nat := []
  deriving DecidableEq, Repr

/-! ## Clocks, references and network time (R320 to R348) -/

/-- What the DPLL, the timekeeper and the time outputs hold beside their registers. -/
structure Clk where
  /-- The priority table as evaluated last (R326). -/
  table : List Word := []
  /-- Sources qualified, and in window, as (source, lane) (R324). -/
  qualified : List (Nat × Nat) := []
  inWindow : List (Nat × Nat) := []
  /-- Frequency offset of each source measured, in 10^-12, keyed 16 × source + lane. -/
  ffo : SMap Int := []
  /-- Milliseconds for which each source has been present and in window without a break, under the same keys; under that of
  STEER, for which a port has been SLAVE with TIME_FAULT clear (R324, R335). -/
  inMs : SMap Nat := []
  /-- The entry a switch in progress leads to (R330), and the output frequency it holds, 10^-12, where a rule states it
  (R329). -/
  target : Option Nat := none
  held : Option Int := none
  /-- Output frequency in each 10 ms of LOCKED and STEER since reset, 10^-12, newest first (R332). -/
  history : List Int := []
  /-- A local sample and the phase within it, in 1/16 ns; in any other sample the phase is 0 (R321). -/
  phase : Nat × Nat := (0, 0)
  /-- Local counter of the last write of `CLK_STEER_FFO` by its owner (R335). -/
  steerAt : Option Int := none
  /-- Local time in 1/16 ns of the last accepted edge of PPSA and PPSB (R325). -/
  ppsEdge : SMap Int := []
  /-- PPS inputs whose last interval between accepted edges was in window (R324). -/
  ppsGood : List Nat := []
  /-- A time set is armed (R347). -/
  setArmed : Bool := false
  /-- Levels of PPS_OUT and FRAME_OUT (R348). -/
  ppsOut : Bool := false
  frameOut : Bool := false
  /-- Local counter at which each rose. -/
  ppsRise : Int := 0
  frameRise : Int := 0
  deriving DecidableEq, Repr

/-- The master a relay path port hears: its dataset and source port identity (R339). -/
structure PtpMaster where
  data : PtpDataset
  clockId : DWord
  portNumber : BitVec 16
  deriving DecidableEq, Repr

/-- A Sync as the servo uses it, in 2^-16 ns: t1, t2 and the correctionFields (R343). -/
structure PtpSync where
  t1 : Int
  t2 : Int
  corr : Int
  deriving DecidableEq, Repr

/-- What PTP holds beside its registers. -/
structure Ptp where
  /-- Ports whose 10GBASE-R link is up, and those whose latencies are measured (R341). -/
  up : List Nat := []
  measured : List Nat := []
  /-- Differences in half ps between MAC point and medium boundary that a measurement under way has gathered, by port, ingress
  and egress (R341). -/
  rxDiffs : SMap (List Int) := []
  txDiffs : SMap (List Int) := []
  /-- When each port's medium-boundary detector last served a frame, in 1/16 ns of local time (R342). -/
  boundaryAt : SMap Int := []
  /-- The masters each port hears. -/
  masters : SMap (List PtpMaster) := []
  /-- A two-step Sync that waits for its Follow_Up: sequence number, t2 and correctionField. -/
  waiting : Option (Nat × Int × Int) := none
  /-- The latest complete Sync. -/
  sync : Option PtpSync := none
  /-- The Delay_Req sent last: sequence number and t3. -/
  req : Option (Nat × Int) := none
  reqSeq : Nat := 0
  /-- Path delays of the last 16 exchanges, newest first, in 2^-16 ns. -/
  delays : List Int := []
  /-- Sync messages used and Delay_Resp received since the master was chosen. -/
  syncs : Nat := 0
  resps : Nat := 0
  /-- The latest filtered offset in 2^-16 ns. -/
  offset : Option Int := none
  /-- Consecutive filtered offsets within 100 ns, and beyond the re-step threshold. -/
  near : Nat := 0
  far : Nat := 0
  deriving DecidableEq, Repr

/-! ## Beryl cores (R268 to R297) -/

/-- A register write under way in a core's pipeline: the number of the first instruction that sees it, the register slot,
the bits it writes and their value (R282). -/
structure BrlFlight where
  due : Nat
  slot : Nat
  mask : DWord
  val : DWord
  deriving DecidableEq, Repr

/-- An entry of the return stack: the address, the SR that an interrupt pushed, and how many LOOP levels stood under the
program that resumes (R291). -/
structure BrlReturn where
  addr : Nat
  sr : Option Word
  base : Nat
  /-- A new iteration of the innermost level began at the address (R290). -/
  fresh : Bool
  deriving DecidableEq, Repr

/-- An active LOOP level: first and last address of the body, its I bit, and whether the first iteration is past (R286,
R288). -/
structure BrlLevel where
  first : Nat
  last : Nat
  intr : Bool
  again : Bool
  deriving DecidableEq, Repr

/-- Where a window access goes (R271). -/
inductive BrlTarget where
  | bar0 (a : Nat)
  | weight (off : Nat)
  | dram (a : Nat)
  deriving DecidableEq, Repr

/-- A posted window store: its target, the bus (Y or X) and core address, and the data (R272). -/
structure BrlStore where
  target : BrlTarget
  y : Bool
  addr : Nat
  data : Word
  deriving DecidableEq, Repr

/-- What a Beryl core holds beside its registers of R297. Register slots: 0 to 15 D; 32 + areg; 64 + a the accumulators as
the next MAC sees them; 68 + a as MOVA and MOVAC see them; 72 the flags as a branch sees them (R274, R282). -/
structure BrlCore where
  /-- Instructions issued. -/
  count : Nat := 0
  /-- The registers as every write that has landed leaves them, by slot. -/
  file : SMap DWord := []
  /-- Register writes under way (R282). -/
  flight : List BrlFlight := []
  /-- Return stack, the oldest entry first. -/
  stack : List BrlReturn := []
  /-- Active LOOP levels, outermost first, and how many of them belong to interrupted programs. -/
  levels : List BrlLevel := []
  base : Nat := 0
  /-- The next instruction is the first body instruction of a new iteration of the innermost level (R290). -/
  fresh : Bool := false
  /-- The RETI or RET under way leads back to such an instruction (R290, R291). -/
  resume : Bool := false
  /-- Delay slots still to issue, and where a taken branch continues (R284). -/
  slots : Nat := 0
  target : Option Nat := none
  /-- Iterations of ITER left (R285). -/
  iter : Nat := 0
  /-- The window write buffer, oldest first (R272). -/
  stores : List BrlStore := []
  /-- A WAIT has stopped fetch (R292). -/
  waiting : Bool := false
  /-- A HALT has been executed and the write buffer empties (R292, R295). -/
  halt : Bool := false
  deriving DecidableEq, Repr

/-! ## DMA, compression, event router (R350 to R389, R419 to R428) -/

/-- A descriptor that a ring has fetched: its index and its 64 bytes (R360). -/
structure DmaDesc where
  index : Nat
  bytes : List Byte
  deriving DecidableEq, Repr

/-- What a descriptor ring holds beside its registers (R362 to R364). -/
structure DmaRing where
  /-- A doorbell is pending. -/
  pending : Bool := false
  /-- A descriptor fetch is under way, and how many refetches of the anchor are. -/
  fetching : Bool := false
  refetch : Nat := 0
  /-- Descriptors fetched, the one in execution first, and whether that one has begun (R363, R450). -/
  descs : List DmaDesc := []
  begun : Bool := false
  /-- CTRL and USER of the anchored descriptor. -/
  tail : Nat × Nat := (0, 0)
  /-- The last host address written, until a barrier has confirmed it (R366). -/
  written : Option Nat := none
  deriving DecidableEq, Repr

/-- The endpoint's configuration space as far as the host writes it: Device Control with Max_Payload_Size,
Max_Read_Request_Size and Relaxed Ordering, the base addresses of BAR 0, BAR 2 and BAR 4, MSI-X Enable and Function Mask
(R351, R352, R355). -/
structure Pcie where
  maxPayload : Nat := 128
  maxReadRequest : Nat := 512
  relaxedOrdering : Bool := true
  bars : Nat × Nat × Nat := (0x4, 0xC, 0x4)
  msixEnable : Bool := false
  functionMask : Bool := false
  deriving DecidableEq, Repr

/-- What the compression engine holds beside its registers (R419, R427). -/
structure Cmp where
  /-- Rings whose KIND 3 descriptor waits, in the order they came. -/
  queue : List Nat := []
  /-- The ring of the capsule in progress, and its level. -/
  current : Option (Nat × Nat) := none
  /-- The supervisor sets FLUSH_PER_RUN when the capsule in progress is done (R426, R438). -/
  flushDue : Bool := false
  /-- The decompressor's job: source, length, destination, OUT_LIMIT, RAW. -/
  job : Option (Nat × Nat × Nat × Nat × Bool) := none
  deriving DecidableEq, Repr

/-- What the event router holds beside its registers (R380 to R388). -/
structure Evt where
  /-- Fabric cycle of each channel's last admitted firing (R384). -/
  lastFire : SMap Nat := []
  /-- Firings (cycle, channel) whose consumers may still be activated, and activations (cycle, input) done (R381). -/
  fired : List (Nat × Nat) := []
  active : List (Nat × Nat) := []
  /-- Core cycle of the last accepted edge of each EVIO pin (R387). -/
  lastEdge : SMap Nat := []
  /-- EVIO output pins in a pulse, each with the fabric cycle of its latest activation (R388). -/
  pulsing : SMap Nat := []
  /-- The last fabric cycle in which a GROUP_ON or GROUP_OFF input was activated, and `EVT_GROUP_EN` before it (R383). -/
  groupsBefore : Option (Nat × Word) := none
  /-- The register slices in force on the paths to targets 0 and 1 (R374). -/
  slices : Nat × Nat := (1, 1)
  deriving DecidableEq, Repr

/-! ## Yodex seed of the trigger engine (R431) -/

/-- The impulse and beam search state at the first sample and first spectrum of the second recorded frame (R431). -/
structure YdxSeed where
  /-- Signals whose state is still to be taken, and whether the beam search's is. -/
  due : List Nat := []
  beamsDue : Bool := false
  /-- Impulse state, noise estimate and READY of each signal taken. -/
  impulses : SMap (Impulse × Word × Bool) := []
  beams : SMap BeamSearch := []
  /-- How often each quad's arrays had been lost when the seed was taken. -/
  epochs : List Nat := []
  deriving DecidableEq, Repr

/-! ## Structure images and update (R390 to R418) -/

/-- What the settings area of a slot holds: its format, and the CLK_ and PTP_ configuration by register (R348, R402). -/
structure Settings where
  format : Nat
  regs : SMap Word
  deriving DecidableEq, Repr

/-- An image the supervisor has copied and is checking (R398): the command and its TAG, the region of a LOAD_REGION, the
bytes, and for a boot the slot. -/
structure StrLoad where
  cmd : Nat
  tag : Nat
  region : Option Nat
  bytes : List Byte
  boot : Option Nat
  deriving DecidableEq, Repr

/-- The schedule of an update (R413): FA, FR, CONFIRM_TIMEOUT, FLAGS. -/
structure StrSchedule where
  fa : Nat
  fr : Nat
  timeout : Nat
  flags : Nat
  deriving DecidableEq, Repr

/-- An update session (R405 to R411). -/
structure StrSession where
  serial : Nat
  time : Nat
  /-- Port on which it arrives; none for a session this chip's host started. -/
  port : Option Nat
  force : Bool
  /-- It travels along the relay path. -/
  relay : Bool
  /-- TAG of the host's command. -/
  tag : Nat
  /-- The schedule, until it is dropped (R414). -/
  schedule : Option StrSchedule
  /-- HEADER payload after the schedule: the image's bytes to the table end (R406). -/
  head : List Byte
  /-- The origin's own copy. -/
  image : List Byte
  /-- END has come. -/
  ended : Bool
  /-- The inactive slot already holds the image (R407). -/
  same : Bool
  deriving DecidableEq, Repr

/-- What the supervisor and the flash hold for images and updates beside the STR_ registers. -/
structure Str where
  /-- (TYPE, REGION, CRC) of the sections of the running image (R400). -/
  image : List (Nat × Nat × Nat) := []
  /-- Firmware runs; until then the boot ROM does (R454). -/
  firmware : Bool := false
  /-- A load under way. -/
  load : Option StrLoad := none
  /-- An EVENTS region that takes effect at the next frame tick (R401). -/
  events : Option (List (Nat × Word × Word)) := none
  /-- Beryl cores whose code is loaded and whose RUN takes effect once their domain is ON (R394). -/
  runDue : List Nat := []
  /-- Flash: the bundle in each slot, the two copies of the boot record, each settings area, and the firmware log, of which
  the spec gives the place alone (R402, R403; log entry 60). -/
  slots : SMap (List Byte) := []
  record : SMap (List Byte) := []
  settings : SMap Settings := []
  fwLog : List Byte := []
  session : Option StrSession := none
  /-- Ports on which a HEADER was refused during the session, each with the refused session's serial and time (R409). -/
  refused : List (Nat × Nat × Nat) := []
  /-- A schedule pending: its slot, what it says, TAG, and the port towards its origin (R411). -/
  schedule : Option (Nat × StrSchedule × Nat × Option Nat) := none
  /-- Key of the session whose RESULT is owed, when the session has ended before its schedule. -/
  origin : Nat × Nat := (0, 0)
  /-- The firmware restarts from this slot (R414). -/
  restart : Option Nat := none
  /-- Counter value at which the trial firmware started, moved along with every time step (R416). -/
  trialAt : Int := 0
  deriving DecidableEq, Repr

/-! ## Power and reset (R439 to R457) -/

/-- What the regulators, the reset pin and the sensors hold beside the PWR_ registers. -/
structure Pwr where
  /-- VIN is above its threshold. -/
  vin : Bool := true
  /-- A VAON or VIO fault keeps the regulators off until VIN falls (R443). -/
  latched : Bool := false
  /-- Level of RESET_N. -/
  resetN : Bool := true
  /-- PWRGOOD is released (R444). -/
  pwrgood : Bool := true
  /-- VIO_REF is folded back (R442). -/
  foldback : Bool := false
  /-- Rails turned off by a fault or a trip until a chip reset (R443, R456), in the order of R440. -/
  railOff : List Nat := []
  /-- The last reset followed a VAON or VIO fault (R452). -/
  railCause : Bool := false
  /-- Highest temperature since the last health record (R466). -/
  tempMax : Option Int := none
  /-- A reading has been taken since the last read of `PWR_TEMP_MAX` (R457). -/
  tempRead : Bool := false
  /-- Set point of VCORE, in mV (R441; log entry 46). -/
  vcore : Nat := 850
  /-- The DIMMs fitted, by channel, as the sideband shows them; none until RESET_N has been released (R298). -/
  dimms : Option (List (List Dimm)) := none
  deriving DecidableEq, Repr


/-- The state of the LX4096. -/
structure State where
  /-- The stored word of each BAR 0 register written so far; an unlisted one holds its reset value. -/
  regs : SMap Word := []
  /-- Register pairs whose low word has been written and whose high word has not: the low word in force (R8). -/
  pairLow : SMap Word := []
  /-- High words latched by a low-word read, keyed by 16 × address + master code (R8). -/
  pairLatch : SMap Word := []
  /-- DRAM bytes, in canonical form: an unlisted byte reads 0. -/
  dram : List Host.Cell := []
  /-- On-die arrays, keyed by array number × 2^32 + entry. -/
  arrays : SMap DWord := []
  /-- How often each power domain's arrays have been lost (R445). -/
  epochs : SMap Nat := []
  /-- Totals since reset of the counters, which reads do not clear (R466). -/
  totals : SMap Nat := []
  /-- The local sample counter (R26). -/
  counter : DWord := 0
  /-- The model's own: how many free values have been taken (log entry 1). -/
  free : Nat := 0
  /-- The model's own: what the chip has sent out (log entry 5). -/
  out : List Out := []
  /-- Event source pulses raised and not yet routed, oldest first (R378). -/
  pulses : List Nat := []
  arch : Arch := {}
  lanes : SMap Lane := []
  /-- The lane each calibration engine is working on (R60). -/
  calActive : SMap Nat := []
  ingest : SMap IngestLane := []
  mail : Mail := {}
  twin : Twin := {}
  links : SMap Link := []
  /-- Ingest validity bits by frame, bit i for local signal i (R98). -/
  ingestValid : SMap Nat := []
  chz : Chz := {}
  ydx : Ydx := {}
  /-- DRAM codewords (byte address / 16) that hold an uncorrectable error (R304, R306), and the syndromes of each. -/
  badWords : List Nat := []
  ueSynd : SMap Word := []
  xr : Xr := {}
  bfm : Bfm := {}
  integ : Integ := {}
  cor : Cor := {}
  trg : Trg := {}
  mem : MemCtl := {}
  clk : Clk := {}
  ptp : Ptp := {}
  /-- The Beryl cores, by number. -/
  brl : SMap BrlCore := []
  /-- The descriptor rings, by number. -/
  dma : SMap DmaRing := []
  pcie : Pcie := {}
  cmp : Cmp := {}
  evt : Evt := {}
  ydxSeed : YdxSeed := {}
  str : Str := {}
  pwr : Pwr := {}
  /-- Commands that wait, first in, first out. -/
  pending : List Instr := []
  deriving DecidableEq, Repr

/-- The machine right after reset: every register at its reset value, nothing listed in memory, the rails in regulation
and RESET_N released (log entry 6). -/
def State.reset : State := {}

end Sys2Proof.Machine
end

