-- ==== Sys2Proof/Machine/Ops.lean ====
section
/-! DEFINITION. The named operations over the state: registers and their fields, pairs, counters, DRAM, arrays,
power domains, events, messages, faults, time and free values. -/

namespace Sys2Proof.Machine

/-- What a command answers. -/
abbrev Res := Host.Outcome State Fault Refusal

/-! ## Bits -/

/-- Bit `i` of a number. -/
def bitOf (n i : Nat) : Bool := n / 2 ^ i % 2 == 1

/-- Bits `hi:lo` of a number. -/
def bitsOf (n hi lo : Nat) : Nat := n / 2 ^ lo % 2 ^ (hi + 1 - lo)

/-- 1 or 0. -/
def ofBool (b : Bool) : Nat := if b then 1 else 0

/-- The number whose bits are `bs`, bit 0 first. -/
def packBits : List Bool → Nat
  | [] => 0
  | b :: bs => ofBool b + 2 * packBits bs

/-- Sign extension: the two's-complement value of the low `w` bits of `n`. -/
def toSigned (w n : Nat) : Int := (BitVec.ofNat w n).toInt

/-- The low `w` bits of the two's-complement form of `i`. -/
def ofSigned (w : Nat) (i : Int) : Nat := (BitVec.ofInt w i).toNat

/-- The little-endian bytes of a number (R12). -/
def leBytes : Nat → Nat → List Byte
  | 0, _ => []
  | k + 1, n => BitVec.ofNat 8 n :: leBytes k (n / 256)

/-- The number held by little-endian bytes (R12). -/
def leNat : List Byte → Nat
  | [] => 0
  | b :: bs => b.toNat + 256 * leNat bs

/-- `k` bytes of a list from offset `o`, absent ones 0, as a little-endian number. -/
def leAt (l : List Byte) (o k : Nat) : Nat := leNat ((l.drop o).take k)

/-- Round half up: `floor((x + 2^(n-1)) / 2^n)`. -/
def rhu (x : Int) (n : Nat) : Int := if n = 0 then x else (x + 2 ^ (n - 1)) / 2 ^ n

/-- Clip to the two's-complement range of `w` bits. -/
def clipTo (w : Nat) (x : Int) : Int := max (-(2 ^ (w - 1))) (min (2 ^ (w - 1) - 1) x)

/-! ## Registers (R7 to R11) -/

/-- `LANE_n_USE` under the default plan (R71). -/
def defaultUse (n : Nat) : Nat :=
  if n < 16 then 0x01020000
  else if n < 44 then 0x03030000 + (n - 16) / 2 * 0x100 + (n - 16) % 2
  else if n < 48 then 0x04040000 + (n - 44)
  else if n < 50 then 0x05050000 + (n - 48)
  else 0x00060000

/-- Entry `e` of the default order list (R172). -/
def defaultOrder (e : Nat) : Nat :=
  if e < 528 then 68 * (e / 66) + e % 66 else 68 * ((e - 528) / 2) + 66 + (e - 528) % 2

/-- Reset words that the tables give by a rule and not by a number: the default plan (R71), the default order list
(R172), the slice table (R168), the MSI-X vector masks (log entry 8). -/
def ruleReset (a : Nat) : Option Nat :=
  if 0x8000 ≤ a ∧ a < 0x10000 then some (if a % 16 = 12 then 1 else 0)
  else if 0x200000 ≤ a ∧ a < 0x2E0000 then if a % 0x4000 = 8 then some (defaultUse ((a - 0x200000) / 0x4000)) else none
  else if 0x902000 ≤ a ∧ a < 0x902440 then
    let n := (a - 0x902000) / 4
    some (defaultOrder (2 * n + 1) * 0x10000 + defaultOrder (2 * n))
  else if 0x800140 ≤ a ∧ a < 0x800180 then
    let m := (a - 0x800140) / 4
    some (4 * m + (4 * m + 1) * 0x100 + (4 * m + 2) * 0x10000 + (4 * m + 3) * 0x1000000)
  else none

/-- The reset value of the register at `a`. -/
def resetWord (a : Nat) : Word :=
  match ruleReset a with
  | some n => BitVec.ofNat 32 n
  | none =>
    match RegMap.row? a with
    | some r => BitVec.ofNat 32 ((r.fields.map fun f => f.reset * 2 ^ f.lo).sum)
    | none => 0

/-- The word held at register address `a`. -/
def rd (s : State) (a : Nat) : Word :=
  match s.regs.find a with
  | some v => v
  | none => resetWord a

/-- Hold `v` at register address `a`. -/
def wr (s : State) (a : Nat) (v : Word) : State := { s with regs := s.regs.put a v }

/-- The bits of a field, in place. -/
def Fld.mask (f : Fld) : Word := BitVec.ofNat 32 ((2 ^ (f.hi + 1 - f.lo) - 1) * 2 ^ f.lo)

/-- A word with the field's bits set from `v`. -/
def Fld.insert (f : Fld) (w : Word) (v : Nat) : Word :=
  (w &&& ~~~f.mask) ||| (BitVec.ofNat 32 (v * 2 ^ f.lo) &&& f.mask)

/-- The value of a field. -/
def getF (s : State) (f : Fld) : Nat := bitsOf (rd s f.addr).toNat f.hi f.lo

/-- Set a field. -/
def setF (s : State) (f : Fld) (v : Nat) : State := wr s f.addr (f.insert (rd s f.addr) v)

/-- The register at `a` as a number. -/
def getR (s : State) (a : Nat) : Nat := (rd s a).toNat

/-- Hold the number `v` at register address `a`. -/
def setR (s : State) (a v : Nat) : State := wr s a (BitVec.ofNat 32 v)

/-- A one-bit field as a truth value. -/
def flag (s : State) (f : Fld) : Bool := getF s f != 0

/-- Bit `i` of the register at `a`. -/
def getB (s : State) (a i : Nat) : Bool := (rd s a).getLsbD i

/-- Set bit `i` of the register at `a`. -/
def setB (s : State) (a i : Nat) (b : Bool) : State := setF s ⟨a, i, i⟩ (ofBool b)

/-- Bit `i` of a pair of bit registers, LO at `a` and HI at `a + 4`. -/
def getPairB (s : State) (a i : Nat) : Bool := getB s (a + 4 * (i / 32)) (i % 32)

/-- Set bit `i` of such a pair. -/
def setPairB (s : State) (a i : Nat) (b : Bool) : State := setB s (a + 4 * (i / 32)) (i % 32) b

/-- The 64-bit value in force of the register pair at `a`: a low word written and not yet completed by its high word
does not count (R8). -/
def getPair (s : State) (a : Nat) : Nat := (s.pairLow.get (rd s a) a).toNat + getR s (a + 4) * 2 ^ 32

/-- A unit sets the register pair at `a`. -/
def setPair (s : State) (a v : Nat) : State :=
  { (setR (setR s a (v % 2 ^ 32)) (a + 4) (v / 2 ^ 32)) with pairLow := s.pairLow.drop (· == a) }

/-- A master writes the low word of a read-write pair: the word in force is kept until the high word comes (R8). -/
def writePairLow (s : State) (a : Nat) (v : Word) : State :=
  let s := match s.pairLow.find a with
    | some _ => s
    | none => { s with pairLow := s.pairLow.put a (rd s a) }
  wr s a v

/-- A master writes the high word of the pair at `a`; the whole value comes into force (R8). -/
def writePairHigh (s : State) (a : Nat) (v : Word) : State :=
  { (wr s (a + 4) v) with pairLow := s.pairLow.drop (· == a) }

/-! ## Counters -/

/-- Count `n` on the 32-bit counter at `a`, which saturates; the total since reset does not (R466). -/
def bumpBy (s : State) (a n : Nat) : State :=
  { (setR s a (min (getR s a + n) 0xFFFFFFFF)) with totals := s.totals.upd 0 a (· + n) }

/-- Count one on the 32-bit counter at `a`. -/
def bump (s : State) (a : Nat) : State := bumpBy s a 1

/-- Count one on a counter field, which saturates. -/
def bumpF (s : State) (f : Fld) : State := setF s f (min (getF s f + 1) (2 ^ (f.hi + 1 - f.lo) - 1))

/-! ## Power domains (R445, R448) -/

/-- The state code of power domain `d` (R448). -/
def domState (s : State) (d : Nat) : Nat :=
  getF s ⟨R.PWR_STATE (d / 10), 3 * (d % 10) + 2, 3 * (d % 10)⟩

/-- Domain `d` is ON; PD_0 always is. -/
def domOn (s : State) (d : Nat) : Bool := d == 0 || domState s d == 2

/-- Domain `d` is ON or finishes its outstanding work (R448). -/
def domLive (s : State) (d : Nat) : Bool := d == 0 || domState s d == 2 || domState s d == 3

/-! ## DRAM (R12, R298) -/

/-- The byte of DRAM at an address: 0 where nothing is listed (log entry 7). -/
def readByte (m : List Host.Cell) (a : Nat) : Byte := SMap.get m 0 a

/-- Write a byte of DRAM, keeping the canonical form. -/
def writeByte (m : List Host.Cell) (a : Nat) (v : Byte) : List Host.Cell :=
  if v = 0 then SMap.drop m (· == a) else SMap.put m a v

/-- The canonical form of memory: addresses strictly rising, no entry equal to what an unlisted address reads as. -/
abbrev Memory.wf (m : List Host.Cell) : Prop := SMap.Sorted m ∧ ∀ c ∈ m, c.2 ≠ 0

/-- `n` bytes of DRAM from `a`. -/
def readBytes (m : List Host.Cell) (a n : Nat) : List Byte := (List.range n).map fun i => readByte m (a + i)

/-- Write bytes to DRAM from `a`. -/
def writeBytes : List Host.Cell → Nat → List Byte → List Host.Cell
  | m, _, [] => m
  | m, a, b :: bs => writeBytes (writeByte m a b) (a + 1) bs

/-- Read DRAM from the state. -/
def dramRead (s : State) (a n : Nat) : List Byte := readBytes s.dram a n

/-- The codewords (16-byte groups) with an uncorrectable error that a write of bytes `a` to `a + n − 1` meets without
covering them whole: the write is not performed there (R307). -/
def holesOf (s : State) (a n : Nat) : List Nat :=
  s.badWords.filter fun w => a < 16 * w + 16 && 16 * w < a + n && !(a ≤ 16 * w && 16 * w + 16 ≤ a + n)

/-- Write bytes but those that fall in the codewords `holes`. -/
def writeAround (holes : List Nat) : List Host.Cell → Nat → List Byte → List Host.Cell
  | m, _, [] => m
  | m, a, b :: bs => writeAround holes (if a / 16 ∈ holes then m else writeByte m a b) (a + 1) bs

/-- Write DRAM in the state. A codeword written whole holds no error any more; a codeword in error that is written in
part stays as it is (R307). A scrub write-back queued for a line that is written is dropped (R308). -/
def dramWrite (s : State) (a : Nat) (bs : List Byte) : State :=
  { s with
    dram := if s.badWords = [] then writeBytes s.dram a bs else writeAround (holesOf s a bs.length) s.dram a bs
    badWords := s.badWords.filter fun w => !(a ≤ 16 * w && 16 * w + 16 ≤ a + bs.length)
    mem := { s.mem with scrubQueue := s.mem.scrubQueue.filter fun l => !(a < 64 * l + 64 && 64 * l < a + bs.length) } }

/-- Bytes `a` to `a + n − 1` meet a 64-byte line with an uncorrectable error (R306). -/
def dramBad (s : State) (a n : Nat) : Bool := s.badWords.any fun w => a / 64 ≤ w / 4 && 64 * (w / 4) < a + n

/-! ## Partition and guard (R301, R302) -/

/-- Keys of the base and size registers of region `r`; those of regions 4 and 5 are kept under keys of their own
(log entry 10). -/
def memRegionKey (r : Nat) : Nat := if r < 4 then R.MEM_REGION_BASE r else 0x80000000 + 8 * r

/-- Capacity of the DRAM in bytes. -/
def capacity (s : State) : Nat := getF s F.MEM_CONFIG_GIB * 2 ^ 30

/-- Base of DRAM region `r` in bytes. Region 5 is the last 4 GiB before any partition has loaded (R398). -/
def regionBase (s : State) (r : Nat) : Nat :=
  if r = 5 ∧ (s.regs.find (memRegionKey 5 + 4)).isNone then capacity s - 2 ^ 32
  else bitsOf (getR s (memRegionKey r)) 19 0 * 2 ^ 20

/-- Size of DRAM region `r` in bytes. -/
def regionSize (s : State) (r : Nat) : Nat :=
  if r = 5 ∧ (s.regs.find (memRegionKey 5 + 4)).isNone then min (capacity s) (2 ^ 32)
  else bitsOf (getR s (memRegionKey r + 4)) 19 0 * 2 ^ 20

/-- The range lies in region `r`. -/
def inRegion (s : State) (r a n : Nat) : Bool := regionBase s r ≤ a && a + n ≤ regionBase s r + regionSize s r

/-- The training area: the last MiB of region 5 (R301). -/
def inTraining (s : State) (a n : Nat) : Bool :=
  let top := regionBase s 5 + regionSize s 5
  a < top && top - 2 ^ 20 < a + n

/-- What the guard lets a requester do with a range (R302): requester codes of R310. -/
def guardOk (s : State) (req a n : Nat) (write : Bool) : Bool :=
  a + n ≤ capacity s && !(write && req != 13 && inTraining s a n) &&
  match req with
  | 0 => inRegion s 0 a n
  | 1 => inRegion s 1 a n
  | 2 => inRegion s 4 a n
  | 3 => inRegion s 1 a n
  | 4 => inRegion s 2 a n
  | 5 => inRegion s 2 a n || (write && inRegion s 3 a n)
  | 6 => inRegion s 3 a n
  | 7 => inRegion s 3 a n
  | 8 => inRegion s 4 a n
  | 11 => !write || inRegion s 3 a n || inRegion s 5 a n
  | _ => true

/-- The DRAM answers: initialised, and its power domains on (R316, start-up). -/
def dramUsable (s : State) : Bool :=
  flag s F.MEM_STATUS_INIT_DONE && domOn s 25 && (getF s F.MEM_CONFIG_CHANNELS == 4 || domOn s 26)

/-- What a unit that reads DRAM gets: none where the read gets an error response (R302, R306). -/
def unitRead (s : State) (req a n : Nat) : Option (List Byte) :=
  if dramUsable s && guardOk s req a n false && !dramBad s a n then some (dramRead s a n) else none

/-! ## Free values (log entry 1) -/

/-- The next free value. -/
def freeNext (s : State) : DWord := Config.freeValue s.free

/-- The next free value is taken. -/
def freeTaken (s : State) : State := { s with free := s.free + 1 }

/-! ## On-die arrays (R445) -/

/-- The arrays inside switched domains. -/
inductive Arr where
  | model | gain | weight | brlC | brlX | brlY
  deriving DecidableEq, Repr

/-- The number of an array in the array map. -/
def Arr.id : Arr → Nat
  | .model => 0 | .gain => 1 | .weight => 2 | .brlC => 3 | .brlX => 4 | .brlY => 5

/-- The key of entry `i` of an array. -/
def Arr.key (a : Arr) (i : Nat) : Nat := a.id * 2 ^ 32 + i

/-- Entry `i` of an array that lies in domain `d`: undefined until written after the domain came on (log entry 2). -/
def arrGet (s : State) (a : Arr) (d i : Nat) : DWord :=
  s.arrays.get (Config.arrayPowerOn a.id (s.epochs.get 0 d) i) (a.key i)

/-- Store entry `i` of an array. -/
def arrSet (s : State) (a : Arr) (i : Nat) (v : DWord) : State := { s with arrays := s.arrays.put (a.key i) v }

/-! ## Output -/

/-- Send something out of the chip. -/
def emit (s : State) (o : Out) : State := { s with out := s.out ++ [o] }

/-- The message of MSI-X vector `v` goes out, to the address and with the data of its table entry (R355). -/
def msixSend (s : State) (v : Nat) : State :=
  emit s (.msix v (getR s (0x8000 + 16 * v) + getR s (0x8004 + 16 * v) * 2 ^ 32) (getR s (0x8008 + 16 * v)))

/-- Send MSI-X vector `v`, where the host has enabled MSI-X; a vector masked by itself or with the function sets its pending
bit instead (R355, log entry 8). An endpoint without power sends nothing (R449). -/
def msix (s : State) (v : Nat) : State :=
  if ¬ domLive s 27 ∨ s.pcie.msixEnable = false then s
  else if s.pcie.functionMask || getB s (0x8000 + 16 * v + 12) 0 then setB s (0x7000 + 4 * (v / 32)) (v % 32) true
  else msixSend s v

/-! ## Time (R16, R26) -/

/-- The number of the frame the local counter stands in. -/
def frameOf (s : State) : Nat := s.counter.toNat / 2 ^ 21

/-- The first sample of frame `f`. -/
def frameStart (f : Nat) : Nat := f * 2 ^ 21

/-- Local time in 1/16 ns: 1.25 ns a sample, and the phase within it (R17, R321). -/
def localTime (s : State) : Nat :=
  s.counter.toNat * 20 + if s.clk.phase.1 = s.counter.toNat then s.clk.phase.2 else 0

/-- Local time in nanoseconds. -/
def localNs (s : State) : Nat := localTime s / 16

/-- The counter has advanced to `t`, a moment before the next tick. -/
def advanceTo (s : State) (t : Nat) : State :=
  if s.counter.toNat ≤ t ∧ t < frameStart (frameOf s + 1) then { s with counter := BitVec.ofNat 64 t } else s

/-- Frame `f` was jumped over by a time step (R29). -/
def jumpedOver (s : State) (f : Nat) : Bool := s.arch.jumped.any fun r => r.1 ≤ f && f ≤ r.2

/-- The frame that the next frame tick starts: the present one while its tick is still due; after a backward step the one
after the last already started (R26, R29). -/
def nextTick (s : State) : Nat :=
  let f := if s.arch.tickDue then frameOf s else frameOf s + 1
  match s.arch.closedUpTo with
  | some l => max f (l + 1)
  | none => f

/-- The last frame that a tick has started. -/
def startedFrame (s : State) : Nat := nextTick s - 1

/-- Span length S in frames (R19). -/
def spanLen (s : State) : Nat := getF s F.INT_CONFIG_SPAN_FRAMES

/-- Integration length I in spans (R19). -/
def integLen (s : State) : Nat := getF s F.INT_CONFIG_SPANS

/-- First frame of span `n` (R20). -/
def spanStart (s : State) (n : Nat) : Nat := n * spanLen s

/-- First frame of integration `n` (R20). -/
def integStart (s : State) (n : Nat) : Nat := n * (spanLen s * integLen s)

/-! ## Faults of the health block (R467) -/

/-- The causes that hold as levels, besides those whose bits other registers show. -/
def faultLevel (s : State) (n : Nat) : Bool :=
  match n with
  | 0 => flag s F.PWR_STATUS_RAIL_FAULT
  | 1 => flag s F.PWR_STATUS_TRIP
  | 2 => flag s F.PWR_STATUS_THROTTLE
  | 4 => flag s F.COR_STATUS_PATROL_HALT
  | 8 => s.arch.dimmRefused
  | 11 => (List.range 16).any fun n =>
      getB s R.LNK_ING_EN n && bitsOf (getR s (R.LNK_SIG_STATE (n / 4))) (8 * (n % 4) + 1) (8 * (n % 4)) != 3
  | 17 => getF s F.CLK_STATUS_DPLL_STATE == 4
  | 18 => flag s F.CLK_STATUS_OOS
  | 19 => flag s F.CLK_STATUS_TIME_FAULT
  | 22 => flag s F.TWN_STATUS_SLICE_OUT
  | _ => false

/-- FAULT_N is driven low (R467). -/
def faultDriven (s : State) : Bool := rd s R.HLT_FAULT &&& rd s R.HLT_FAULT_MASK != 0

/-- A write turns `s` into `t`: the first that makes the masked word non-zero is recorded (R467). -/
def faultRecord (s t : State) : State :=
  let m := rd t R.HLT_FAULT &&& rd t R.HLT_FAULT_MASK
  if faultDriven s || m == 0 then t
  else
    let low := ((List.range 25).find? (m.getLsbD ·)).getD 0
    setPair (setF t F.HLT_FIRST_VALUE low) R.HLT_FIRST_TIME_LO (localNs t)

/-- Set bits of `HLT_FAULT`. -/
def setFaults (s : State) (bits : Word) : State := faultRecord s (wr s R.HLT_FAULT (rd s R.HLT_FAULT ||| bits))

/-- Set fault bit `n`. -/
def fault (s : State) (n : Nat) : State := setFaults s (1 <<< n)

/-- Set the bits of every level cause that holds. -/
def refreshLevels (s : State) : State :=
  setFaults s (BitVec.ofNat 32 (packBits ((List.range 25).map (faultLevel s ·))))

/-! ## Events (R378, R379) -/

/-- The power domain of an event source; sources 13 and 14 are raised with their lane group's (R378). -/
def srcDomain (src : Nat) : Nat :=
  if src = 3 ∨ src = 4 ∨ src = 5 ∨ src = 18 ∨ src = 27 ∨ src = 28 then 23
  else if (6 ≤ src ∧ src ≤ 10) ∨ 120 ≤ src then 24
  else if src = 11 ∨ src = 12 then 25
  else if 21 ≤ src ∧ src ≤ 24 then 1 + (src - 21)
  else if src = 29 ∨ (64 ≤ src ∧ src < 96) then 27
  else if 40 ≤ src ∧ src < 56 then 1 + (src - 40) / 4
  else 0

/-- A unit in domain `d` raises event source `src`; while the domain is off it raises nothing, and while it quiesces the unit
still finishes its work (R379, R448). -/
def raiseIn (s : State) (d src : Nat) : State := if domLive s d then { s with pulses := s.pulses ++ [src] } else s

/-- Raise event source `src`. -/
def raise (s : State) (src : Nat) : State := raiseIn s (srcDomain src) src

/-- Beryl core `k`. -/
def brlCore (s : State) (k : Nat) : BrlCore := s.brl.get {} k

/-- A core's status register SR as the next instruction sees it (R274, R282). -/
def BrlCore.sr (c : BrlCore) : Nat := (c.file.get 0 52).toNat

/-- Core `k` waits with an enabled vector pending and IE clear: it goes on after its WAIT (R292). With IE set it goes on too
where the next instruction is a delay slot, and takes the vector after it (R284, R290; log entry 32). -/
def brlWake (s : State) (k : Nat) : State :=
  let c := brlCore s k
  if getF s (F.BRL_STATUS_STATE k) == 3 && rd s (R.BRL_IRQ_EN k) &&& rd s (R.BRL_IRQ_PEND k) != 0 &&
      (!bitOf c.sr 31 || 0 < c.slots) then
    { (setF s (F.BRL_STATUS_STATE k) 1) with brl := s.brl.put k { c with waiting := false } }
  else s

/-- Vector `v` of Beryl core `k` becomes pending; a repeat counts as merged (R289). -/
def brlPend (s : State) (k v : Nat) : State :=
  if getB s (R.BRL_IRQ_PEND k) v then bump s (R.BRL_IRQ_MERGE_COUNT k)
  else brlWake (setB s (R.BRL_IRQ_PEND k) v true) k

/-- Vector `v` becomes pending on every core whose domain is on. -/
def brlPendAll (s : State) (v : Nat) : State :=
  (List.range 4).foldl (fun s k => if domOn s (1 + k) then brlPend s k v else s) s

/-! ## Running a command -/

/-- A command acts while the rails are up and RESET_N is released; otherwise nothing is there to act (log entry 6). -/
def run (f : State → State) (s : State) : Res := .next (if s.arch.up then f s else s)

/-- The action of a bus master: the debug master takes none while TEST_MODE is low (R371, R455). -/
def actBy (m : Master) (f : State → State) (s : State) : State :=
  if m = .debug ∧ flag s F.PWR_BOOT_TEST_MODE = false then s else f s

/-- A command that a bus master sends. -/
def runBy (m : Master) (f : State → State) (s : State) : Res := run (actBy m f) s

end Sys2Proof.Machine
end

