-- ==== Sys2Proof/Machine/Image.lean ====
section
/-! DEFINITION. Structure images: layout, records and the checks of orders 1 to 8 (R390 to R397). -/

namespace Sys2Proof.Machine

/-- An entry of the section table (R391). -/
structure Section where
  k : Nat
  type : Nat
  region : Nat
  offset : Nat
  length : Nat
  crc : Nat
  deriving DecidableEq, Repr

/-- The image's SIG_OFF. -/
def sigOff (img : List Byte) : Nat := leAt img 24 4

/-- The image's IMAGE_LEN. -/
def imageLen (img : List Byte) : Nat := leAt img 28 4

/-- The IMAGE_ID in the header. -/
def imageId (img : List Byte) : Nat := leAt img 8 8

/-- FLAGS.BUNDLE. -/
def isBundle (img : List Byte) : Bool := bitOf (leAt img 7 1) 0

/-- `n` bytes from offset `o`. -/
def bytesAt (img : List Byte) (o n : Nat) : List Byte := (img.drop o).take n

/-- All of these bytes are there and 0. -/
def zeroAt (img : List Byte) (o n : Nat) : Bool :=
  (bytesAt img o n).length == n && (bytesAt img o n).all (· == 0)

/-- The section table, of at most 32 entries. -/
def sections (img : List Byte) : List Section :=
  (List.range (min 32 (leAt img 16 4))).map fun k =>
    let o := 256 + 32 * k
    ⟨k, leAt img o 1, leAt img (o + 1) 1, leAt img (o + 4) 4, leAt img (o + 8) 4, leAt img (o + 12) 4⟩

/-- A section's bytes. -/
def sectionBytes (img : List Byte) (x : Section) : List Byte := bytesAt img x.offset x.length

/-- The service region of a section type (R392). -/
def regionOk (type region : Nat) : Bool :=
  if 1 ≤ type ∧ type ≤ 8 then region == type
  else if type = 9 then 9 ≤ region && region ≤ 12
  else (type == 10 || type == 11) && region == 0

/-- The BAR 0 ranges that a section's records may address (R168, R219, R243, R266, R392, R393). -/
def sectionRanges : Nat → List (Nat × Nat)
  | 1 => [(0x200000, 0x400000)]
  | 2 => [(0x800000, 0x900000)]
  | 3 => [(0x900000, 0xA00000)]
  | 4 => [(0x400000, 0x800000)]
  | 5 => [(0xA00000, 0xD00000)]
  | 6 => [(0x1300000, 0x1500000)]
  | 7 => [(0x1500000, 0x1600000)]
  | 8 => [(0x1100060, 0x1100090), (0x800050, 0x80005C), (0xA00010, 0xA00024), (0xB00200, 0xB00210),
      (0xB00220, 0xB00230), (0xC00040, 0xC0004C), (0xC00060, 0xC00068)]
  | _ => []

/-- `n` registers from `a` lie in the ranges. -/
def inRanges (rs : List (Nat × Nat)) (a n : Nat) : Bool := n == 0 || rs.any fun r => r.1 ≤ a && a + 4 * n ≤ r.2

/-- The little-endian words of a section. -/
def wordsOf (bs : List Byte) : List Nat := (List.range (bs.length / 4)).map fun i => leAt bs (4 * i) 4

/-- The register writes that a list of records makes, in order (R393); none where a record is undefined, cut short, or
addresses another block (DEDUCED: a LAYOUT error of R396, log entry 44). -/
def recordWrites (rs : List (Nat × Nat)) : Nat → List Nat → Option (List (Nat × Nat))
  | _, [] => some []
  | 0, _ => none
  | fuel + 1, w :: ws =>
    let a := w % 2 ^ 26
    if bitsOf w 29 26 ≠ 0 ∨ a % 4 ≠ 0 then none
    else
      let use := fun (n : Nat) (vs rest : List Nat) =>
        if inRanges rs a n = true ∧ vs.length = n then
          (recordWrites rs fuel rest).map fun l => (vs.zipIdx.map fun (v, i) => (a + 4 * i, v)) ++ l
        else none
      match w / 2 ^ 30, ws with
      | 0, v :: rest => use 1 [v] rest
      | 1, n :: rest => if n ≤ rest.length then use n (rest.take n) (rest.drop n) else none
      | 2, n :: v :: rest => if n < 2 ^ 24 then use n (List.replicate n v) rest else none
      | _, _ => none

/-- The register writes of a section of TYPE 1 to 8. -/
def sectionWrites (img : List Byte) (x : Section) : Option (List (Nat × Nat)) :=
  let bs := sectionBytes img x
  if bs.length % 4 ≠ 0 then none else recordWrites (sectionRanges x.type) (bs.length + 1) (wordsOf bs)

/-- A BERYL_CODE section is laid out as R394 says, within the memories of R268. -/
def berylOk (bs : List Byte) : Bool :=
  let c := leAt bs 0 4
  let x := leAt bs 4 4
  let y := leAt bs 8 4
  16 ≤ bs.length && c % 4 == 0 && x % 4 == 0 && y % 4 == 0 && c ≤ 131072 && x ≤ 262144 && y ≤ 262144 &&
    leAt bs 12 1 < 2 && zeroAt bs 13 3 && 16 + c + x + y == bs.length

/-- The entry is laid out as R391, R392 and R394 say, after the entries before it. -/
def sectionOk (img : List Byte) (before : List Section) (x : Section) : Bool :=
  let o := 256 + 32 * x.k
  regionOk x.type x.region && zeroAt img (o + 2) 2 && zeroAt img (o + 16) 16 && x.offset % 64 == 0 && 1 ≤ x.length &&
    256 + 32 * leAt img 16 4 ≤ x.offset && x.offset + x.length ≤ sigOff img &&
    before.all (fun y => !(y.type == x.type && y.region == x.region) &&
      (y.offset + y.length ≤ x.offset || x.offset + x.length ≤ y.offset)) &&
    (if x.type ≤ 8 then (sectionWrites img x).isSome else if x.type = 9 then berylOk (sectionBytes img x) else true)

/-- The first entry that is not laid out as it must be. -/
def badSection (img : List Byte) : List Section → List Section → Option Nat
  | _, [] => none
  | before, x :: xs => if sectionOk img before x then badSection img (before ++ [x]) xs else some x.k

/-- The gaps between the table and the signature block are 0. -/
def gapsZero (img : List Byte) : Bool :=
  let xs := sections img
  let tableEnd := 256 + 32 * leAt img 16 4
  ((img.take (sigOff img)).zipIdx.drop tableEnd).all fun (b, i) =>
    b == 0 || xs.any fun x => x.offset ≤ i && i < x.offset + x.length

/-- The whole is laid out as R390, R392 and R395 say; the entries were looked at before. -/
def layoutOk (img : List Byte) : Bool :=
  let n := leAt img 16 4
  let xs := sections img
  let has := fun t => xs.any (·.type == t)
  let so := sigOff img
  1 ≤ n && n ≤ 32 && leAt img 20 4 == 256 && so % 64 == 0 && 256 + 32 * n ≤ so && imageLen img == so + 256 &&
    img.length == so + 256 && leAt img 7 1 < 2 && zeroAt img 108 144 && gapsZero img &&
    (List.range' 1 8).all has &&
    leAt img so 4 == 0x4C4E5347 && zeroAt img (so + 4) 4 && zeroAt img (so + 200) 56

/-- A section of this type is present. -/
def hasSection (img : List Byte) (t : Nat) : Bool := (sections img).any (·.type == t)

/-- IMAGE_ID from the content (R395). -/
def contentId (img : List Byte) : Nat :=
  let m := (img.take (sigOff img)).zipIdx.map fun (b, i) => if (8 ≤ i ∧ i < 16) ∨ (252 ≤ i ∧ i < 256) then 0 else b
  leNat ((sha384 m).take 8)

/-- Word `m` of the key hash in the fuses (R395). -/
def keyHash (m : Nat) : Nat := (Config.fuse (1 + m)).toNat % 2 ^ 32

/-- The key-hash fuses are all zero. -/
def keyBlank : Bool := (List.range 12).all fun m => keyHash m == 0

/-- The key check (R395, R396). -/
def keyOk (img : List Byte) : Bool :=
  keyBlank || wordsOf (sha384 (bytesAt img (sigOff img + 8) 96)) == (List.range 12).map keyHash

/-- The signature check (R395). -/
def signatureOk (img : List Byte) : Bool :=
  let o := sigOff img
  ecdsaVerify (sha384 (img.take o)) (leAt img (o + 8) 48) (leAt img (o + 56) 48) (leAt img (o + 104) 48)
    (leAt img (o + 152) 48)

/-! LAST_RESULT codes (R396, R414). -/
abbrev lrTooLarge : Nat := 1
abbrev lrFormat : Nat := 2
abbrev lrMember : Nat := 3
abbrev lrLayout : Nat := 4
abbrev lrSectionCrc : Nat := 5
abbrev lrImageId : Nat := 6
abbrev lrKey : Nat := 7
abbrev lrSignature : Nat := 8
abbrev lrContent : Nat := 9
abbrev lrNotStopped : Nat := 10
abbrev lrRegionMismatch : Nat := 11
abbrev lrNoFirmware : Nat := 12
abbrev lrFlash : Nat := 13
abbrev lrLate : Nat := 14

/-- The bytes of the image in what was supplied. -/
def imageOf (supplied : List Byte) : List Byte := supplied.take (imageLen supplied)

/-- The checks on header and table (R396 orders 2 to 4, without the sections' contents): what a HEADER frame is looked at
for (R407). -/
def headCheck (member : Nat) (img : List Byte) : Option Nat :=
  if leAt img 0 4 ≠ 0x4C4E5853 ∨ leAt img 4 2 ≠ 0x0100 ∨ (crc32c (img.take 252)).toNat ≠ leAt img 252 4 then some lrFormat
  else if leAt img 6 1 ≠ member then some lrMember
  else none

/-- The checks of orders 1 to 8, and BUNDLE where it is required; the code and the table entry of the first failure
(R396, R404). -/
def imageCheck (member : Nat) (supplied : List Byte) (bundle : Bool) : Option (Nat × Nat) :=
  let n := imageLen supplied
  let img := imageOf supplied
  if 62914560 < n ∨ supplied.length < n then some (lrTooLarge, 255)
  else
    match headCheck member img with
    | some c => some (c, 255)
    | none =>
      match badSection img [] (sections img) with
      | some k => some (lrLayout, k)
      | none =>
        if ¬ layoutOk img then some (lrLayout, 255)
        else if bundle ∧ ¬ (hasSection img 10 ∧ hasSection img 11) then some (lrNoFirmware, 255)
        else if hasSection img 10 ≠ isBundle img ∨ hasSection img 11 ≠ isBundle img then some (lrLayout, 255)
        else
          match (sections img).find? fun x => (crc32c (sectionBytes img x)).toNat != x.crc with
          | some x => some (lrSectionCrc, x.k)
          | none =>
            if contentId img ≠ imageId img then some (lrImageId, 255)
            else if ¬ keyOk img then some (lrKey, 255)
            else if ¬ signatureOk img then some (lrSignature, 255)
            else none

/-- The register writes of the image's sections of a type. -/
def typeWrites (img : List Byte) (t : Nat) : List (Nat × Nat) :=
  (((sections img).filter (·.type == t)).filterMap (sectionWrites img)).flatten

/-- The order in which sections are applied (R399). -/
def applyOrder : List Nat := [8, 7, 1, 2, 4, 3, 5, 6]

end Sys2Proof.Machine
end

