-- ==== Sys2Proof/Machine/ChzMath.lean ====
section
/-! DEFINITION. The arithmetic of the channelizer chain (R103, R111 to R122): integers throughout. -/

namespace Sys2Proof.Machine

/-- A complex integer. -/
structure Cpx where
  re : Int
  im : Int
  deriving DecidableEq, Repr

/-! ## Twiddle tables (R118, R120) -/

/-- The fixed-point scale of the angle tables. -/
abbrev fixOne : Nat := 2 ^ 160

/-- cos and sin of π/2^(k+1), scaled by `fixOne`, by the half-angle formulas. -/
def halfAngle : Nat → Nat × Nat
  | 0 => (0, fixOne)
  | k + 1 =>
    let c := (halfAngle k).1
    (Nat.sqrt ((fixOne + c) * fixOne / 2), Nat.sqrt ((fixOne - c) * fixOne / 2))

/-- Product of two scaled complex numbers. -/
def fixMul (a b : Int × Int) : Int × Int :=
  ((a.1 * b.1 - a.2 * b.2) / (fixOne : Int), (a.1 * b.2 + a.2 * b.1) / (fixOne : Int))

/-- cos and sin of 2π·i/2^n, scaled: the product of the roots that the bits of `i` name. -/
def fixAngle (n i : Nat) : Int × Int :=
  (List.range n).foldl (fun acc b =>
    if bitOf i b then
      -- 2π·2^b/2^n = π/2^(n-1-b)
      if n - 1 - b = 0 then fixMul acc (-(fixOne : Int), 0)
      else
        let h := halfAngle (n - 2 - b)
        fixMul acc ((h.1 : Int), (h.2 : Int))
    else acc) ((fixOne : Int), 0)

/-- `min(2^b − 1, floor(2^b·x + 0.5))` of a scaled value. -/
def quantTrig (b : Nat) (x : Int) : Int :=
  min (2 ^ b - 1) ((x * 2 ^ (b + 1) + (fixOne : Int)) / (2 * (fixOne : Int)))

/-- `c4[w]`, `s4[w]` (R118). -/
def twiddle4 (w : Nat) : Int × Int := (quantTrig 17 (fixAngle 12 w).1, quantTrig 17 (fixAngle 12 w).2)

/-- `c8[k]`, `s8[k]` (R118). -/
def twiddle8 (k : Nat) : Int × Int := (quantTrig 17 (fixAngle 13 k).1, quantTrig 17 (fixAngle 13 k).2)

/-- `cr[i]`, `sr[i]` (R120). -/
def rotor (i : Nat) : Int × Int := (quantTrig 15 (fixAngle 12 i).1, quantTrig 15 (fixAngle 12 i).2)

/-! ## Delay (R111, R112) -/

/-- Integer delay D, resampler phase p and whether the delay was clamped, at output sample `tau` (continuation offset
included). -/
def delayAt (m : ModelEntry) (tau : Nat) : Nat × Nat × Bool :=
  let num : Int := (m.a0 : Int) * 2 ^ 48 + m.a1 * tau * 2 ^ 32 + m.a2 * tau * tau
  let pf := (num / 2 ^ 48 + 2 ^ 39) / 2 ^ 40
  let pf' := (max 0 (min 0xFFFFFF pf)).toNat
  (pf' / 256, pf' % 256, pf < 0 || 0xFFFFFF < pf)

/-- The sixteen coefficients of phase `p` in the ROM sum to 32,768, and their magnitudes to at most 65,520 (R114). -/
def romPhaseOk (p : Nat) : Bool :=
  let c := (List.range 16).map fun j => (Config.resamplerRom p j).toInt
  c.sum == 32768 && (c.map Int.natAbs).sum ≤ 65520

/-- `rs_coef[p][j]` (R114): any ROM within the limits of the rule; an entry of the free ROM outside them reads as the mean
of two samples (log entry 3). -/
def resamplerCoef (p j : Nat) : Int :=
  if romPhaseOk p then (Config.resamplerRom p j).toInt else if j = 7 ∨ j = 8 then 16384 else 0

/-- One resampler output from the input samples `x` (R113). -/
def resample (x : Int → Int) (t : Int) (d p : Nat) : Int :=
  rhu (((List.range 16).map fun j => resamplerCoef p j * x (t - d - j)).sum) 11

/-- One filterbank output from the resampled samples `r` (R115). -/
def frontEnd (h : Nat → Int) (r : Int → Int) (t0 : Int) (b : Nat) : Int :=
  rhu (((List.range 8).map fun m => h (8192 * m + b) * r (t0 + b - 8192 * (7 - m))).sum) 15

/-! ## FFT (R117, R119) -/

/-- Symmetric saturation to 24 bits, with the number of components that saturated. -/
def sat23 (v : Int) : Int × Nat :=
  if v > 8388607 then (8388607, 1) else if v < -8388607 then (-8388607, 1) else (v, 0)

/-- A complex value saturated, with the count. -/
def satCpx (re im : Int) : Cpx × Nat := (⟨(sat23 re).1, (sat23 im).1⟩, (sat23 re).2 + (sat23 im).2)

/-- Output `i` of complex stage `s`: upper outputs are sums, lower ones twiddled differences. -/
def fftPoint (mask s : Nat) (z : Array Cpx) (i : Nat) : Cpx × Nat :=
  let half := 2048 / 2 ^ s
  let sh := ofBool (bitOf mask s)
  let k := i % (2 * half)
  if k < half then
    let a := z.getD i ⟨0, 0⟩
    let b := z.getD (i + half) ⟨0, 0⟩
    satCpx (rhu (a.re + b.re) sh) (rhu (a.im + b.im) sh)
  else
    let a := z.getD (i - half) ⟨0, 0⟩
    let b := z.getD i ⟨0, 0⟩
    let dr := a.re - b.re
    let di := a.im - b.im
    let w := twiddle4 ((k - half) * 2 ^ s)
    let tr := rhu (dr * w.1 + di * w.2) 17
    let ti := rhu (di * w.1 - dr * w.2) 17
    satCpx (rhu tr sh) (rhu ti sh)

/-- The bits of a 12-bit index reversed. -/
def bitrev12 (k : Nat) : Nat := packBits ((List.range 12).map fun b => bitOf k (11 - b))

/-- Output `k` of the split stage. -/
def splitPoint (mask : Nat) (z : Array Cpx) (k : Nat) : Cpx × Nat :=
  let p := z.getD (bitrev12 k) ⟨0, 0⟩
  let q := z.getD (bitrev12 ((4096 - k) % 4096)) ⟨0, 0⟩
  let br := p.re - q.re
  let bi := p.im + q.im
  let w := twiddle8 k
  let tr := rhu (br * w.1 + bi * w.2) 17
  let ti := rhu (bi * w.1 - br * w.2) 17
  let sh := 1 + ofBool (bitOf mask 12)
  satCpx (rhu (p.re + q.re + ti) sh) (rhu (p.im - q.im - tr) sh)

/-- Saturations of a signal: how many components, and in which stages (bit per stage). -/
structure Sats where
  count : Nat
  stages : Nat
  deriving DecidableEq, Repr

/-- Add the saturations of one stage. -/
def Sats.add (a : Sats) (stage n : Nat) : Sats :=
  if n = 0 then a else ⟨a.count + n, a.stages ||| 2 ^ stage⟩

/-- Apply one stage to every point. -/
def fftStage (f : Nat → Cpx × Nat) (stage : Nat) (a : Sats) : Array Cpx × Sats :=
  let out := (Array.range 4096).map f
  (out.map (·.1), a.add stage (out.foldl (fun n p => n + p.2) 0))

/-- The twelve complex stages, from stage `s` on. -/
def fftStages (mask : Nat) : Nat → Nat → Array Cpx × Sats → Array Cpx × Sats
  | 0, _, z => z
  | n + 1, s, (z, a) => fftStages mask n (s + 1) (fftStage (fftPoint mask s z) s a)

/-- The real FFT of 8,192 values: 4,096 channels and the saturations (R117). -/
def realFft (mask : Nat) (y : Nat → Int) : Array Cpx × Sats :=
  let z := (Array.range 4096).map fun n => (⟨y (2 * n), y (2 * n + 1)⟩ : Cpx)
  let (z, a) := fftStages mask 12 0 (z, ⟨0, 0⟩)
  fftStage (splitPoint mask z) 12 a

/-! ## Rotator and requantizer (R120, R122) -/

/-- The rotation index of spectrum `s` (continuation offset included) and channel `k` (R120). -/
def rotIndex (m : ModelEntry) (s k : Nat) : Nat :=
  let phi0 : Int := m.b0 + m.b1 * s + m.b2 * s * s
  let g : Int := m.g0 + m.g1 * s
  ((((phi0 + k * g) % 2 ^ 32).toNat + 0x80000) % 2 ^ 32) / 2 ^ 20

/-- The fringe rotator on one channel. -/
def rotate (m : ModelEntry) (s k : Nat) (x : Cpx) : Cpx × Nat :=
  let w := rotor (rotIndex m s k)
  satCpx (rhu (x.re * w.1 - x.im * w.2) 15) (rhu (x.re * w.2 + x.im * w.1) 15)

/-- Symmetric clip, with 1 if it acted. -/
def clipSym (lim v : Int) : Int × Nat := if v > lim then (lim, 1) else if v < -lim then (-lim, 1) else (v, 0)

/-- The requantizer on one channel: the output bytes and the components clipped (R122). -/
def requantize (cal8 : Bool) (gr gi : Int) (t : Nat) (y : Cpx) : List Byte × Nat :=
  let lim : Int := if cal8 then 127 else 7
  let qr := clipSym lim (rhu (y.re * gr - y.im * gi) t)
  let qi := clipSym lim (rhu (y.re * gi + y.im * gr) t)
  (if cal8 then [BitVec.ofInt 8 qr.1, BitVec.ofInt 8 qi.1]
   else [BitVec.ofNat 8 (ofSigned 4 qr.1 * 16 + ofSigned 4 qi.1)], qr.2 + qi.2)

end Sys2Proof.Machine
end

