-- ==== Sys2Proof/Machine/Mail.lean ====
section
/-! DEFINITION. The supervisor mailbox: responses and notices (R356, R357, R358, R412). -/

namespace Sys2Proof.Machine

/-! STATUS values (R358). -/
abbrev stOk : Nat := 0
abbrev stAccepted : Nat := 1
abbrev stBusy : Nat := 2
abbrev stBadCommand : Nat := 3
abbrev stBadArgs : Nat := 4
abbrev stTiming : Nat := 5
abbrev stRejected : Nat := 6
abbrev stNotReady : Nat := 7
abbrev stFailed : Nat := 8

/-- The 16-byte header of a response (R357). -/
def responseHeader (cmd len tag status detail : Nat) : List Byte :=
  leBytes 2 cmd ++ leBytes 2 len ++ leBytes 4 tag ++ leBytes 2 status ++ leBytes 2 detail ++ leBytes 4 0

/-- Write bytes into the register space of BAR 0 from `a`, a word at a time. -/
def wrBytes : State → Nat → List Byte → Nat → State
  | s, _, _, 0 => s
  | s, a, bs, k + 1 => wrBytes (setR s a (leNat (bs.take 4))) (a + 4) (bs.drop 4) k

/-- Bytes of the relay header (R405). -/
def relayHeader (kind flags hops len : Nat) (serial time offset : Nat) : List Byte :=
  leBytes 1 kind ++ leBytes 1 flags ++ leBytes 1 hops ++ leBytes 1 0 ++ leBytes 2 len ++ leBytes 2 0 ++
    leBytes 8 serial ++ leBytes 8 time ++ leBytes 8 offset

/-- The Device Serial Number in the fuses (R350, R405). -/
def deviceSerial : Nat := (Config.fuse 0).toNat

/-- MGMT_RSP frames of a response: up to 1,016 bytes of it each, split by OFFSET (R405, R406). -/
def sendMgmtRsp : State → Nat → Nat → Nat → Nat → List Byte → Nat → State
  | s, _, _, _, _, _, 0 => s
  | s, port, serial, time, off, bs, k + 1 =>
    let chunk := bs.take 1016
    let s := emit s (.relayFrame port 10
      (relayHeader 10 0 63 (8 + chunk.length) serial time off ++ leBytes 8 deviceSerial ++ chunk))
    if bs.length ≤ 1016 then s else sendMgmtRsp s port serial time (off + 1016) (bs.drop 1016) k

/-- The supervisor answers a command: in the response buffer with vector 2,047, or with MGMT_RSP (R356, R412). -/
def respond (s : State) (src : CmdSource) (cmd tag status detail : Nat) (data : List Byte) : State :=
  let bs := responseHeader cmd data.length tag status detail ++ data
  match src with
  | .host =>
    let s := wrBytes s 0x12000 bs ((bs.length + 3) / 4)
    msix (setF s F.MBX_STATUS_STATE 2) 2047
  | .relay port serial time => sendMgmtRsp s port serial.toNat time.toNat 0 bs 5

/-- The command that the mailbox shows BUSY fails with FAILED; an asynchronous one under way ends by its own rule (R376;
DESIGN CHOICE, log entry 58). -/
def requestFails (s : State) : State :=
  match s.mail.request with
  | some r => respond { s with mail := { s.mail with request := none } } r.source r.cmd r.tag stFailed 0 []
  | none => s

/-- The end of an asynchronous command: the notice registers, NOTICE, vector 2,047 and event 30 (R356, R378). -/
def notice (s : State) (cmd tag status : Nat) : State :=
  let s := setR (setR s R.MBX_NOTICE_TAG tag) R.MBX_NOTICE_STATUS (cmd * 2 ^ 16 + status)
  let s := { s with mail := { s.mail with running := s.mail.running.erase (cmd, tag) } }
  raise (msix (setF s F.MBX_STATUS_NOTICE 1) 2047) 30

/-- The commands MGMT_REQ may carry: START, STOP, CONFIRM_UPDATE, READ_HEALTH, STEP_PERMIT (R412). -/
def relayAllowed : List Nat := [3, 4, 6, 7, 8]

/-- A region load is under way: it is checked, or waits for its latch point or tick (R401). -/
def regionLoading (s : State) : Bool :=
  s.str.load.any (·.region.isSome) || s.chz.reload.isSome || s.str.events.isSome

/-- Serve a mailbox command. A host's GO while STATE is BUSY or while the supervisor restarts sets REFUSED (R356, R414).
A command of the relay path is served when it stands first in the supervisor's queue, and must be one of those R412
allows; any other answers BAD_COMMAND. While a region load is under way a command waits: STATE reads BUSY (R401). -/
def serve (s : State) (src : CmdSource) (cmd tag : Nat) (args : List Byte) (f : State → State)
    (capture : Option (Nat × Nat × DWord × Nat × Bool × Bool) := none) : State :=
  match src with
  | .host =>
    if getF s F.MBX_STATUS_STATE == 1 || s.mail.restarting then setF s F.MBX_STATUS_REFUSED 1
    else if regionLoading s then
      { (setF s F.MBX_STATUS_STATE 1) with mail := { s.mail with request := some ⟨cmd, tag, args, .host, capture⟩ } }
    else f s
  | .relay port serial time =>
    match s.mail.relay with
    | r :: rest =>
      if regionLoading s = false ∧ r.source = .relay port serial time ∧ r.cmd = cmd ∧ r.tag = tag ∧ (r.args = args ∨ cmd ∉ relayAllowed) then
        let s := { s with mail := { s.mail with relay := rest } }
        if cmd ∈ relayAllowed then f s else respond s src cmd tag stBadCommand 0 []
      else s
    | [] => s

/-- Answer ACCEPTED and note the asynchronous command as under way (R358). -/
def acceptAsync (s : State) (src : CmdSource) (cmd tag : Nat) : State :=
  let s := { s with mail := { s.mail with running := s.mail.running ++ [(cmd, tag)] } }
  respond s src cmd tag stAccepted 0 []

end Sys2Proof.Machine
end

