-- ==== Sys2Proof/Machine/Ecc.lean ====
section
/-! DEFINITION. The Reed-Solomon code of the DRAM and the places of its symbols in a burst (R304, R305). -/

namespace Sys2Proof.Machine

/-! ## The field GF(2^8) -/

/-- A product with α = 0x02 modulo the field polynomial 0x11D. -/
def gfDouble (x : Byte) : Byte := if x.msb then (x <<< 1) ^^^ 0x1D else x <<< 1

/-- A product of two field elements. -/
def gfMul (a b : Byte) : Byte :=
  (List.range 8).foldr (fun i acc => gfDouble acc ^^^ (if b.getLsbD i then a else 0)) 0

/-- The power α^n. -/
def gfPow (n : Nat) : Byte := Nat.repeat gfDouble n 1

/-! ## RS(20,16) -/

/-- The generator's coefficients of x^3 down to x^0; that of x^4 is 1. -/
def rsGen : List Byte :=
  ((List.range 4).foldl (fun p j =>
    List.zipWith (· ^^^ ·) (p ++ [0]) (0 :: p.map (gfMul (gfPow j)))) [1]).drop 1

/-- The check bytes c_0 to c_3 of data bytes d_0 to d_15: the remainder of d(x)·x^4 divided by the generator. -/
def rsCheck (d : List Byte) : List Byte :=
  d.foldl (fun r b =>
    let fb := b ^^^ r.headD 0
    List.zipWith (fun x g => x ^^^ gfMul fb g) (r.drop 1 ++ [0]) rsGen) [0, 0, 0, 0]

/-- Syndrome `j` of the 20 bytes of a codeword, d_0 first: the polynomial's value at α^j. An error pattern added to a
codeword has the syndromes of the pattern. -/
def rsSyndrome (w : List Byte) (j : Nat) : Byte := w.foldl (fun acc b => gfMul acc (gfPow j) ^^^ b) 0

/-- The four syndrome bytes as a log entry holds them, syndrome 0 lowest (R309). -/
def rsWord (w : List Byte) : Word :=
  rsSyndrome w 3 ++ rsSyndrome w 2 ++ rsSyndrome w 1 ++ rsSyndrome w 0

/-- What the decoder makes of a codeword (R304). -/
inductive RsOutcome where
  /-- Syndrome zero. -/
  | clean
  /-- One symbol in error: its index in the codeword, d_0 first, and the value taken from it. -/
  | corrected (index : Nat) (value : Byte)
  /-- Uncorrectable. -/
  | failed
  deriving DecidableEq, Repr

/-- Decode the error pattern of a codeword. Index `i` is the coefficient of x^(19 − i). -/
def rsDecode (e : List Byte) : RsOutcome :=
  let y := rsSyndrome e
  if y 0 = 0 ∧ y 1 = 0 ∧ y 2 = 0 ∧ y 3 = 0 then .clean
  else if y 0 = 0 then .failed
  else match (List.range 20).find? fun p => (List.range' 1 3).all fun j => y j == gfMul (y 0) (gfPow (j * p)) with
    | some p => .corrected (19 - p) (y 0)
    | none => .failed

/-- What stays wrong in the 16 data bytes after the decoder's correction: nothing for an error in one symbol; more for a
miscorrected one or one with syndrome zero (R304). -/
def rsResidue (e : List Byte) : List Byte :=
  match rsDecode e with
  | .corrected i v => ((e.zipIdx.map fun (b, k) => if k = i then b ^^^ v else b)).take 16
  | _ => e.take 16

/-! ## The burst (R305) -/

/-- The symbol of a codeword's byte `i`, data bytes first and check bytes from 16. -/
def burstSymbol (i : Nat) : Nat := if i < 8 then i else if i < 16 then i + 2 else if i < 18 then i - 8 else i

/-- Where bit `b` of symbol `t` of codeword `j` travels: the beat of the burst and the bit of the 40-bit bus. -/
def burstBit (j t b : Nat) : Nat × Nat := (4 * j + 2 * (t / 10) + b / 4, 4 * (t % 10) + b % 4)

end Sys2Proof.Machine
end

