-- ==== Sys2Proof/Machine/MemPort.lean ====
section
/-! DEFINITION. The memory controller as its requesters meet it: the address map, classes and weights, the error log and
the reads and writes of the units with the reports they cause (R300, R302 to R310, R315). -/

namespace Sys2Proof.Machine

/-- Change the memory controller's hidden state. -/
def setMem (s : State) (f : MemCtl → MemCtl) : State := { s with mem := f s.mem }

/-! ## Address map (R300) -/

/-- Subchannel u = 2 × channel + subchannel of a DRAM byte address. -/
def memSub (s : State) (a : Nat) : Nat :=
  if getF s F.MEM_CONFIG_CHANNELS = 4 then 2 * (bitsOf a 8 7 ^^^ bitsOf a 19 18) + bitsOf a 6 6
  else 2 * (bitsOf a 9 7 ^^^ bitsOf a 20 18) + bitsOf a 6 6

/-- Line L of a DRAM byte address within its subchannel. -/
def memLine (s : State) (a : Nat) : Nat := if getF s F.MEM_CONFIG_CHANNELS = 4 then a / 2 ^ 9 else a / 2 ^ 10

/-- Column burst that line `l` selects. -/
def memColumn (l : Nat) : Nat := bitsOf l 5 0

/-- Bank group that line `l` selects. -/
def memBankGroup (l : Nat) : Nat := bitsOf l 8 6

/-- Bank that line `l` selects. -/
def memBank (l : Nat) : Nat := bitsOf l 10 9

/-- Rank that line `l` selects: bit 11 in a module of two ranks. -/
def memRank (s : State) (a : Nat) : Nat := if getF s F.MEM_CONFIG_RANKS = 2 then bitsOf (memLine s a) 11 11 else 0

/-- Row that line `l` selects, by ranks and device width. -/
def memRow (s : State) (l : Nat) : Nat :=
  if getF s F.MEM_CONFIG_RANKS = 2 then bitsOf l 27 12
  else if getF s F.MEM_CONFIG_WIDTH = 4 then bitsOf l 27 11 else bitsOf l 26 11

/-- Subchannels present. -/
def subCount (s : State) : Nat := 2 * getF s F.MEM_CONFIG_CHANNELS

/-- The subchannels that bytes `a` to `a + n − 1` lie in; 32 lines one after the other meet them all. -/
def subsOf (s : State) (a n : Nat) : List Nat :=
  ((List.range (min 32 ((a % 64 + n + 63) / 64))).map fun i => memSub s (a + 64 * i)).eraseDups

/-! ## Classes (R310) -/

/-- The class that serves requester `req`: one that has waited too long is served as class 2. -/
def reqClass (s : State) (req : Nat) : Nat :=
  let c := if req ≤ 2 then 1 else if req ≤ 8 then 2 else if req ≤ 11 then 3 else 4
  if req ∈ s.mem.promoted then min c 2 else c

/-- The weight of requester `req` within its class; 0 acts as 1. -/
def reqWeight (s : State) (req : Nat) : Nat :=
  if req ≤ 2 then 1
  else if req ≤ 10 then max 1 (bitsOf (getR s R.MEM_ARB_WEIGHT) (4 * (req - 3) + 3) (4 * (req - 3)))
  else max 1 (bitsOf (getR s R.MEM_ARB_WEIGHT_EXT) (4 * (req - 11) + 3) (4 * (req - 11)))

/-! ## Error log (R309) -/

/-- Entries of the memory error log. -/
abbrev memLogLen : Nat := 32768

/-- An entry that the log has no room for is dropped. -/
def memLogFull (s : State) : Bool := (getF s F.MEM_LOG_HEAD_SLOT + 1) % memLogLen == getF s F.MEM_LOG_TAIL_SLOT

/-- Write an entry to the memory error log, or drop it where the log is full. -/
def memLog (s : State) (kind req symbol a synd : Nat) : State :=
  let head := getF s F.MEM_LOG_HEAD_SLOT
  if memLogFull s then setF (bump s R.MEM_LOG_DROP_COUNT) F.MEM_STATUS_LOG_DROP 1
  else
    let b := leBytes 4 0x454D584C ++ leBytes 1 kind ++ leBytes 1 req ++
      leBytes 1 (memSub s a + a / 16 % 4 * 16 + memRank s a * 64) ++ leBytes 1 symbol ++ leBytes 8 a ++
      leBytes 8 s.counter.toNat ++ leBytes 4 synd
    let s := dramWrite s (regionBase s 5 + 32 * head) (b ++ leBytes 4 (crc32c b).toNat)
    setF s F.MEM_LOG_HEAD_SLOT ((head + 1) % memLogLen)

/-- The controller is there to act. -/
def memServes (s : State) : Bool := flag s F.MEM_CTRL_EN && domOn s 25

/-! ## Panic (R311) -/

/-- Memory panic is on. -/
def panicOn (s : State) : Bool := flag s F.MEM_STATUS_PANIC

/-- The microseconds of panic since they were last counted are counted (R319). -/
def panicTally (s : State) : State :=
  if panicOn s then
    let us := (s.counter.toNat - s.mem.panicAt) / 800
    setMem (bumpBy s R.MEM_PANIC_TIME us) fun m => { m with panicAt := m.panicAt + 800 * us }
  else s

/-! ## Reports (R302, R306, R307; log entry 26) -/

/-- An access that the guard refuses is logged and counted (R302). -/
def guardReport (s : State) (req a : Nat) : State :=
  memLog (setF (bump s R.MEM_GUARD_COUNT) F.MEM_STATUS_GUARD 1) 4 req 0xFF a 0

/-- A read of a 64-byte line, or the read of a partial write, meets an uncorrectable error in the codewords `ws`: an entry
for each with its syndrome, one count, and MEM_UE (R306, R307). -/
def ueReport (s : State) (req line : Nat) (rmw : Bool) (ws : List Nat) : State :=
  let s := ws.foldl (fun s w =>
    memLog s (if rmw then 3 else 2) req 0xFF (64 * line + 16 * w) (s.ueSynd.get 0 (4 * line + w)).toNat) s
  let s := setMem s fun m => { m with lastUe := 64 * line + 16 * (ws.getLast?.getD 0) }
  fault (raise (setF (bump s R.MEM_UE_COUNT) F.MEM_STATUS_UE 1) 12) 6

/-- A read of line `line` fails: every codeword of it in error is reported (R306). -/
def lineReport (s : State) (req line : Nat) : State :=
  ueReport s req line false ((List.range 4).filter fun w => 4 * line + w ∈ s.badWords)

/-- The lines with an uncorrectable error that bytes `a` to `a + n − 1` meet. -/
def badLinesIn (s : State) (a n : Nat) : List Nat :=
  ((s.badWords.filter fun w => a / 64 ≤ w / 4 && 64 * (w / 4) < a + n).map (· / 4)).eraseDups

/-! ## Accesses of the units -/

/-- A request of `req` is served: its subchannels leave self-refresh, with nothing owed, and it waits no longer (R310,
R315). -/
def leaveSelfRefresh (s : State) (u : Nat) : State :=
  if getF s (F.MEM_STATE_SR u) = 2 then
    setF (setF (setF s (F.MEM_STATE_SR u) 0) (F.MEM_STATE_OWED_0 u) 0) (F.MEM_STATE_OWED_1 u) 0
  else s

/-- A request of `req` for bytes `a` to `a + n − 1` is served. -/
def served (s : State) (req a n : Nat) : State :=
  let s := setMem s fun m => { m with promoted := m.promoted.filter (· != req) }
  if (List.range 16).any fun u => getF s (F.MEM_STATE_SR u) == 2 then (subsOf s a n).foldl leaveSelfRefresh s else s

/-- The kind of the error response that an access gets: 4 for an uncorrectable error, 2 where the memory refuses it or does
not answer (R302, R306, R389). -/
def memErrKind (s : State) (req a n : Nat) (write : Bool) : Nat := if dramUsable s && guardOk s req a n write then 4 else 2

/-- A unit writes DRAM. A write that meets no usable memory is not performed; one that the guard refuses is reported
instead; one that meets a codeword in error without covering it is not performed there, and reported (R302, R307). -/
def unitWrite (s : State) (req a : Nat) (bs : List Byte) : State :=
  if ¬ dramUsable s then s
  else if ¬ guardOk s req a bs.length true then guardReport s req a
  else (holesOf s a bs.length).foldl (fun s w => ueReport s req (w / 4) true [w % 4])
    (dramWrite (served s req a bs.length) a bs)

/-- A write of a unit gets an error response (R302, R307). -/
def writeFails (s : State) (req a n : Nat) : Bool :=
  !(dramUsable s && guardOk s req a n true && (holesOf s a n).isEmpty)

/-- A unit reads DRAM, and what it gets: none with an error response, whose cause is reported (R302, R306). -/
def unitFetch (s : State) (req a n : Nat) : State × Option (List Byte) :=
  match unitRead s req a n with
  | some bs => (served s req a n, some bs)
  | none =>
    (if ¬ dramUsable s then s
      else if ¬ guardOk s req a n false then guardReport s req a
      else (badLinesIn s a n).foldl (fun s l => lineReport s req l) (served s req a n), none)

/-! ## Scattered writes (R307, R361) -/

/-- The codewords with an error that a write of the bytes at `as` meets without covering them whole (R307). -/
def scatterHoles (s : State) (as : List Nat) : List Nat :=
  s.badWords.filter fun w =>
    let n := (as.filter (· / 16 == w)).eraseDups.length
    0 < n && n < 16

/-- Bytes to their addresses, but for codewords in error that they do not cover, which are reported; one that they cover is
good again (R307). -/
def scatterWrite (s : State) (req : Nat) (as : List Nat) (data : List Byte) : State :=
  let holes := scatterHoles s as
  let s := (as.zip data).foldl (fun s e => if e.1 / 16 ∈ holes then s else dramWrite s e.1 [e.2])
    { s with badWords := s.badWords.filter fun w => w ∈ holes || !as.any (· / 16 == w) }
  holes.foldl (fun s w => ueReport s req (w / 4) true [w % 4]) s

end Sys2Proof.Machine
end

