-- ==== Sys2Proof/Machine/TwinLink.lean ====
section
/-! DEFINITION. The twin unit as the other units see it: whether the chip emits, the guard of the mirrored set, TWIN
frames, and abandonment (R93, R458, R461, R462, R464, R465). -/

namespace Sys2Proof.Machine

/-- The twin STATE code: 0 NONE, 1 UNSYNCED, 2 COPYING, 3 CHECKING, 4 SYNCED, 5 LEADING, 6 ALONE (R468). -/
def twinState (s : State) : Nat := getF s F.TWN_STATUS_STATE

/-- Products, records and packets of frame `f` are emitted (R458, R459, R464). -/
def emitsFrame (s : State) (f : Nat) : Bool :=
  twinState s == 0 || (4 ≤ twinState s && s.twin.emitFrom ≤ f)

/-- The visibility product of an integration that begins at frame `f` is emitted (R459, R464). -/
def emitsInteg (s : State) (f : Nat) : Bool :=
  twinState s == 0 || (4 ≤ twinState s && s.twin.emitInteg ≤ f)

/-- Own chip number (R168). -/
def chipNo (s : State) : Nat := getF s F.XR_GEOMETRY_CHIP

/-- `LANE_n_STATUS`.LINK_STATE is UP. -/
def laneIsUp (s : State) (n : Nat) : Bool := getF s (F.LANE_STATUS_LINK_STATE n) == 5

/-- The lane with transmit use `u`, link `k` and position `p` (R68, R71). -/
def laneFor (s : State) (u k p : Nat) : Option Nat :=
  (List.range 56).find? fun n =>
    getF s (F.LANE_USE_TX_USE n) == u && getF s (F.LANE_USE_LINK n) == k && getF s (F.LANE_USE_POS n) == p

/-- The lanes of a bond in order of position (R68). -/
def bondLanes (s : State) (u k : Nat) : List Nat := (List.range 4).filterMap (laneFor s u k)

/-- Send a frame striped over `lanes` if each of them is UP (R50, R68). -/
def sendOn (s : State) (lanes : List Nat) (header payload : List Byte) : State :=
  if lanes ≠ [] ∧ lanes.all (laneIsUp s) then emit s (.laneFrame lanes header payload) else s

/-- The mirrored set in runs of words: BAR 4 or BAR 0, first offset and number (R461). The weight store; the model table; the
gain banks and their SHIFT registers; the loadable filter bank; `BFM_BANK_m`; the arm registers; TRG_INJECT. -/
def mirrorRuns : List (Bool × Nat × Nat) :=
  [(true, 0, 2 ^ 24), (false, 0x410000, 0x1000), (false, 0x600000, 0x80000), (false, 0x400300, 0x80),
    (false, 0x420000, 0x8000), (false, R.BFM_BANK 0, 8), (false, R.CHZ_SWITCH_CTRL, 1), (false, R.CHZ_SWITCH_FRAME_LO, 2),
    (false, R.CHZ_MODE, 1), (false, R.CHZ_MODE_FRAME_LO, 2), (false, R.BFM_FLIP_MASK 0, 8), (false, R.BFM_FLIP_FRAME_LO, 2),
    (false, R.BFM_FLIP_CTRL, 1), (false, R.TRG_INJECT, 1), (false, R.TRG_INJECT_INDEX_LO, 2)]

/-- The words of the twin snapshot in the order of the stream: the whole mirrored set, ordered by keys that the spec leaves
open (R461, R462; log entry 1). -/
@[irreducible] def twinLayout : List (Bool × Nat) :=
  let words := mirrorRuns.flatMap fun r => (List.range r.2.2).map fun i => (r.1, r.2.1 + 4 * i)
  (words.foldl (fun (m : SMap (List (Bool × Nat))) e => m.upd [] (Config.twinKey e.1 e.2) (e :: ·)) []).flatMap (·.2)

/-- Length of the whole snapshot in bytes (R93, R462). -/
def snapTotal : Nat := 4 * (mirrorRuns.map (·.2.2)).sum

/-- Send a TWIN frame; TOTAL_LEN is the snapshot's length in every kind (R93). A chip that has no role yet puts 1
in the ROLE byte: the rule gives a code to an active and a standby only (DESIGN CHOICE, log entry 55). -/
def sendTwin (s : State) (kind offset : Nat) (payload : List Byte) : State :=
  let role := if getF s F.TWN_STATUS_ROLE == 2 then 2 else 1
  let header := leBytes 1 6 ++ leBytes 1 0x10 ++ leBytes 2 payload.length ++ leBytes 1 (chipNo s) ++ leBytes 1 role ++
    leBytes 2 kind ++ leBytes 8 offset ++ leBytes 4 s.twin.seq ++ leBytes 8 snapTotal ++ leBytes 2 0
  let s := { s with twin := { s.twin with seq := s.twin.seq + 1 } }
  sendOn s (bondLanes s 5 0) header payload

/-- One MIRROR record: space and byte offset, then data padded to a multiple of 4 (R93). -/
def mirrorRecord (bar4 : Bool) (addr : Nat) (data : List Byte) : List Byte :=
  leBytes 4 (addr + ofBool bar4 * 2 ^ 31) ++ leBytes 2 data.length ++ leBytes 2 0 ++
    data ++ List.replicate ((4 - data.length % 4) % 4) 0

/-- The runs of enabled bytes of a write, each with the offset of its first byte (R93). -/
def enabledRuns : Nat → List (Option Byte) → List (Nat × List Byte)
  | _, [] => []
  | addr, none :: rest => enabledRuns (addr + 1) rest
  | addr, some b :: rest =>
    match enabledRuns (addr + 1) rest with
    | (a, bs) :: more => if a = addr + 1 then (addr, b :: bs) :: more else (addr, [b]) :: (a, bs) :: more
    | [] => [(addr, [b])]

/-- A write to the mirrored set by a master: ignored and counted on a chip in UNSYNCED, COPYING, CHECKING or SYNCED;
otherwise done, and sent as MIRROR records, one a run of enabled bytes, by an active with a peer alive, not a SOLO one (R93,
R459, R461). A
write that its bank's limits ignore (`taken` false) enters no array and so not the stream either (R462, log entry 50). -/
def mirroredWrite (s : State) (bar4 : Bool) (addr : Nat) (data : List (Option Byte)) (taken : Bool)
    (apply : State → State) : State :=
  if 1 ≤ twinState s ∧ twinState s ≤ 4 then bump s R.TWN_MIRROR_REJECT_COUNT
  else
    let t := apply s
    let runs := enabledRuns addr data
    if 5 ≤ twinState s ∧ getF s F.TWN_STATUS_ROLE ≠ 3 ∧ flag s F.TWN_STATUS_PEER_ALIVE ∧ taken ∧ runs ≠ [] then
      let t := sendTwin t 4 t.twin.mirrorCount (runs.flatMap fun r => mirrorRecord bar4 r.1 r.2)
      { t with twin := { t.twin with mirrorCount := t.twin.mirrorCount + 1 } }
    else t

/-- A write of whole bytes that no bank's limits ignore (R461). -/
def mirrored (s : State) (bar4 : Bool) (addr : Nat) (data : List Byte) (apply : State → State) : State :=
  mirroredWrite s bar4 addr (data.map some) true apply

/-- Fields of the running digest material of a span: the CRC registers of channelizer, beams and visibilities, the two
sums, how many visibility products the fourth CRC holds, and 1 if one of them began before the checked span (R463). -/
def digestFresh : List Nat := [0xFFFFFFFF, 0, 0xFFFFFFFF, 0, 0xFFFFFFFF, 0, 0]

/-- Change field `i` of the digest material of a span; kept on twinned chips only. -/
def digestAdd (s : State) (span i : Nat) (f : Nat → Nat) : State :=
  if twinState s = 0 then s
  else
    let m := s.twin.material.upd digestFresh span fun l => l.set i (f (l.getD i 0))
    { s with twin := { s.twin with material := m } }

/-- More bytes go through CRC field `i` of the digest of a span. -/
def digestCrc (s : State) (span i : Nat) (bs : List Byte) : State :=
  digestAdd s span i fun c => (bs.foldl crc32cByte (BitVec.ofNat 32 c)).toNat

/-- The CRC-32C of bytes joins sum field `i` of the digest of a span. -/
def digestSum (s : State) (span i : Nat) (bs : List Byte) : State :=
  digestAdd s span i fun x => (x + (crc32c bs).toNat) % 2 ^ 32

/-- The TWIN_JOIN under way ends, with DETAIL giving the cause (R459; log entry 50). -/
def twinJoinEnd (s : State) (status : Nat) (detail : Nat := 0) : State :=
  match s.twin.joinTag with
  | some tag =>
    notice { s with twin := { s.twin with joinTag := none }, mail := { s.mail with detail := detail } } 9 tag status
  | none => s

/-- Entries of the model table, the gain banks and the weight store (R461). -/
def mirroredKey (k : Nat) : Bool := k < 3 * 2 ^ 32

/-- Registers of the mirrored set (R461). -/
def mirroredReg (a : Nat) : Bool :=
  (0x400300 ≤ a && a < 0x400500) || (0x420000 ≤ a && a < 0x440000) || (R.BFM_BANK 0 ≤ a && a < R.BFM_BANK 8) ||
    a == R.CHZ_SWITCH_CTRL || a == R.CHZ_SWITCH_FRAME_LO || a == R.CHZ_SWITCH_FRAME_HI || a == R.CHZ_MODE ||
    a == R.CHZ_MODE_FRAME_LO || a == R.CHZ_MODE_FRAME_HI || (R.BFM_FLIP_MASK 0 ≤ a && a < R.BFM_FLIP_MASK 8) ||
    a == R.BFM_FLIP_FRAME_LO || a == R.BFM_FLIP_FRAME_HI || a == R.BFM_FLIP_CTRL ||
    a == R.TRG_INJECT_INDEX_LO || a == R.TRG_INJECT_INDEX_HI

/-- The mirrored set as it stands, to be put aside (R462). -/
def twinSave (s : State) : TwinSaved :=
  { arrays := s.arrays.filter fun e => mirroredKey e.1, regs := s.regs.filter fun e => mirroredReg e.1
    slotFrame := s.chz.slotFrame, pendSwitch := s.chz.pendSwitch, pendMode := s.chz.pendMode, flip := s.bfm.flip }

/-- The mirrored set is again what was put aside: arrays, registers, slot frames and what is armed (R462; log entry 9). -/
def twinRestore (s : State) (x : TwinSaved) : State :=
  let kept := s.arrays.drop mirroredKey
  let s := { s with arrays := x.arrays.foldl (fun m e => m.put e.1 e.2) kept, regs := s.regs.drop mirroredReg }
  let s := x.regs.foldl (fun s e => wr s e.1 e.2) s
  { s with
    chz := { s.chz with slotFrame := x.slotFrame, pendSwitch := x.pendSwitch, pendMode := x.pendMode }
    bfm := { s.bfm with flip := x.flip } }

/-- A standby that has not reached SYNCED discards what it received (R462, R465). -/
def twinDiscard (s : State) : State :=
  match if twinState s == 2 then s.twin.saved else if twinState s == 3 then s.twin.checked else none with
  | some x => twinRestore s x
  | none => s

/-- The standby goes back to UNSYNCED; its join ends with the cause (R459, R462, R463). -/
def twinUnsync (s : State) (cause detail : Nat) : State :=
  let s := setF (setF s F.TWN_STATUS_STATE 1) F.TWN_STATUS_ABANDON cause
  twinJoinEnd { s with twin := { s.twin with saved := none, checked := none, unsyncDue := none, own := [], peer := [] } }
    stFailed detail

/-- The standby abandons the copy, or the check that follows it, with a cause of R462, and discards what it received. -/
def twinAbandon (s : State) (cause : Nat) : State :=
  if twinState s == 2 || twinState s == 3 then bump (twinUnsync (twinDiscard s) cause cause) R.TWN_ABANDON_COUNT else s

end Sys2Proof.Machine
end

