-- ==== Sys2Proof/Machine/Lanes.lean ====
section
/-! DEFINITION. Serial lanes (R40 to R71, R484) and the states of the exchange links that follow from them
(R156 to R159, R162). -/

namespace Sys2Proof.Machine

/-! ## Lane state -/

/-- What lane `n` holds beside its registers. -/
def lane (s : State) (n : Nat) : Lane := s.lanes.get {} n

/-- Change it. -/
def setLane (s : State) (n : Nat) (f : Lane → Lane) : State := { s with lanes := s.lanes.upd {} n f }

/-- LINK_STATE of lane `n`: 0 OFF, 1 PLL_WAIT, 2 CDR_ACQ, 3 ALIGNING, 4 DESKEW, 5 UP, 6 PARKED, 7 LOOPBACK (R71). -/
def linkState (s : State) (n : Nat) : Nat := getF s (F.LANE_STATUS_LINK_STATE n)

/-- Power domain of the lane's group (R445). -/
def laneDomain (n : Nat) : Nat := 9 + n / 14

/-- Both halves are enabled (R48). -/
def laneEnabled (s : State) (n : Nat) : Bool := flag s (F.LANE_CTRL_EN_TX n) && flag s (F.LANE_CTRL_EN_RX n)

/-- LOOPBACK in force: 1 or 2, or 0 (R71: 3 is treated as 0). -/
def loopback (s : State) (n : Nat) : Nat := getF s (F.LANE_CTRL_LOOPBACK n) % 3

/-- PRBS_MODE in force: 1 or 2, or 0 (R71: 3 is treated as 0). -/
def prbsMode (s : State) (n : Nat) : Nat := getF s (F.LANE_TEST_PRBS_MODE n) % 3

/-- What exchange link `k` holds beside its state. -/
def xlink (s : State) (k : Nat) : Link := s.links.get {} k

/-- Change it. -/
def setXlink (s : State) (k : Nat) (f : Link → Link) : State := { s with links := s.links.upd {} k f }

/-- The lanes whose receive use is `u` with link index `k`, lowest first. -/
def lanesOf (s : State) (u k : Nat) : List Nat :=
  (List.range 56).filter fun n => getF s (F.LANE_USE_RX_USE n) == u && getF s (F.LANE_USE_LINK n) == k

/-- Twin split mode: the lanes of an exchange link are not bonded (R160). -/
def twinSplit (s : State) : Bool := flag s F.XR_CTRL_TWIN_SPLIT

/-- The bond of lane `n`, the lane itself included; just `n` for an unbonded lane (R53, R157, R160). -/
def bondOf (s : State) (n : Nat) : List Nat :=
  let u := getF s (F.LANE_USE_RX_USE n)
  let k := getF s (F.LANE_USE_LINK n)
  if u = 3 then if twinSplit s || (xlink s k).keep.isSome then [n] else lanesOf s 3 k
  else if u = 4 ∨ u = 5 then lanesOf s u k
  else [n]

/-- The STATE byte of the STATUS ordered sets a lane sends, or none while it sends none: before its transmit PLL has
locked, in OFF, PLL_WAIT and LOOPBACK, in QUIET and SLEEP, with its transmitter turned off, and while it sends PRBS (R70,
R157, R484). -/
def statusByte (s : State) (n : Nat) : Option Nat :=
  let st := linkState s n
  if st = 0 ∨ st = 1 ∨ st = 7 ∨ getF s (F.LANE_STATUS_PSTATE n) ≠ 0 ∨ flag s (F.LANE_STATUS_TX_PLL_LOCK n) = false ∨
      (lane s n).txOff = true ∨ prbsMode s n ≠ 0 then none
  else if st = 5 then some 2 else some 1

/-- Lane `n` sends STATUS with its present STATE byte if that is not `old` (R48 steps 2 and 6, R76, R484; log entry
5). -/
def statusFollow (s : State) (n : Nat) (old : Option Nat) : State :=
  match statusByte s n with
  | some b => if old = some b then s else emit s (.statusSent n b 1)
  | none => s

/-- The 16 STATUS ordered sets that announce a power state asked for and not yet entered (R56). A lane that sends no STATUS
announces nothing: R484 wins over R56 where the transmitter is already in QUIET or SLEEP and the other of the two is asked
for, has no locked PLL, is turned off, or sends PRBS (DESIGN CHOICE, log entry 55). -/
def announce (s : State) (n : Nat) : State :=
  let req := getF s (F.LANE_CTRL_PSTATE_REQ n)
  if req = 0 ∨ req = getF s (F.LANE_STATUS_PSTATE n) ∨ (statusByte s n).isNone = true then s
  else emit s (.statusSent n (2 + req) 16)

/-! ## Exchange link states -/

/-- A route entry names exchange link `k` (R156). -/
def linkUsed (s : State) (k : Nat) : Bool :=
  (List.range 8).any (fun j => bitsOf (getR s R.XR_ROW_LINK_0) (4 * j + 3) (4 * j) == k ||
    bitsOf (getR s R.XR_COL_LINK) (4 * j + 3) (4 * j) == k) ||
  (List.range 7).any (fun j => bitsOf (getR s R.XR_ROW_LINK_1) (4 * j + 3) (4 * j) == k)

/-- The state exchange link `k` is in: 0 UNUSED, 1 WIDE, 2 NARROW, 3 DOWN: WIDE asks for both lanes bonded and UP; in twin
split mode the states tell how many of its lanes are UP (R156, R162). -/
def linkStateNow (s : State) (k : Nat) : Nat :=
  let up := (lanesOf s 3 k).filter (laneIsUp s)
  if !linkUsed s k then 0
  else if twinSplit s then if up.length = 2 then 1 else if up.length = 1 then 2 else 3
  else match (xlink s k).keep with
    | some n => if laneIsUp s n then 2 else 3
    | none => if up.length = 2 ∧ up.all (fun n => flag s (F.LANE_STATUS_BONDED n)) = true then 1 else 3

/-- `XR_LINK_STATE` of link `k`. -/
def xlState (s : State) (k : Nat) : Nat := getF s ⟨R.XR_LINK_STATE, 2 * k + 1, 2 * k⟩

/-- Bring `XR_LINK_STATE` of link `k` up to date. A transition out of WIDE, and one from NARROW to DOWN, sets the LINK
fault; out of WIDE the narrowing delay starts, and back in WIDE it ends (R157, R159). -/
def linkUpdate (s : State) (k : Nat) : State :=
  let old := xlState s k
  let new := linkStateNow s k
  let s := setF s ⟨R.XR_LINK_STATE, 2 * k + 1, 2 * k⟩ new
  let s := if (old = 1 ∧ new ≠ 1) ∨ (old = 2 ∧ new = 3) then fault s 9 else s
  if new = 1 then setXlink s k fun l => { l with delay := false, awaitAlign := false }
  else if old = 1 ∧ ¬ twinSplit s then setXlink s k fun l => { l with delay := true }
  else s

/-! ## Entering and leaving link states -/

/-- Lane `n` enters LINK_STATE `st`: the status bits that follow from it, REMOTE_STATE 0 below ALIGNING (R484), its bit
in `LANE_UP`, its STATUS and its exchange link follow. -/
def enter (s : State) (n st : Nat) : State :=
  let old := statusByte s n
  let s := setF s (F.LANE_STATUS_LINK_STATE n) st
  let s := setF s (F.LANE_STATUS_ALIGNED n) (ofBool (st == 4 || st == 5))
  let s := if st = 5 then s else setF s (F.LANE_STATUS_BONDED n) 0
  let s := if st = 4 then s else setF s (F.LANE_STATUS_BOND_SKEW n) 0
  let s := if 3 ≤ st ∧ st ≤ 5 then setF s (F.LANE_STATUS_CDR_LOCK n) 1
    else if st = 6 then s else setF s (F.LANE_STATUS_CDR_LOCK n) 0
  let s := if st < 2 then setF s (F.LANE_STATUS_TX_PLL_LOCK n) 0 else s
  let s := if st < 3 then setF s (F.LANE_STATUS_REMOTE_STATE n) 0 else s
  let s := statusFollow (setPairB s R.LANE_UP_LO n (st == 5)) n old
  if getF s (F.LANE_USE_RX_USE n) = 3 then linkUpdate s (getF s (F.LANE_USE_LINK n)) else s

/-- The next queued lane of group `g`, in lane-index order (R60). -/
def calNext (s : State) (g : Nat) : State :=
  match (List.range 14).find? fun i => flag s (F.LANE_STATUS_CAL_BUSY (14 * g + i)) with
  | some i =>
    { setLane s (14 * g + i) (fun l => { l with runs := 0, lastRun := none }) with
      calActive := s.calActive.put g (14 * g + i) }
  | none => { s with calActive := s.calActive.drop (· == g) }

/-- The calibration of lane `n` ends with RESULT `r`; the engine takes the next queued lane (R60, R63, R65).
`LANE_n_CAL_RESULT` takes the DC gain that CAL_CTRL holds now, which a write during the calibration may have changed
(DESIGN CHOICE, log entry 55). -/
def calEnd (s : State) (n r : Nat) : State :=
  let l := lane s n
  let run := l.lastRun.getD ⟨0, 0, 0⟩
  let s := setF (setF s (F.LANE_CAL_RESULT_RESULT n) r) (F.LANE_CAL_RESULT_RUNS n) l.runs
  let s := setF s (F.LANE_CAL_RESULT_DCGAIN n)
    (match l.pinned with | some q => q / 16 | none => getF s (F.LANE_CAL_CTRL_DCGAIN n))
  let s := setF (setF s (F.LANE_CAL_RESULT_PEAK n) run.peak) (F.LANE_CAL_RESULT_WIDTH n) run.width
  -- a height of 256 mV does not fit the field: the spec states no value there (log entry 1)
  let s := if run.height < 256 then setF s (F.LANE_CAL_RESULT_HEIGHT n) run.height
    else freeTaken (setF s (F.LANE_CAL_RESULT_HEIGHT n) (freeNext s).toNat)
  let s := if r = 2 ∨ r = 3 then fault (setF s (F.LANE_STATUS_CAL_FAIL n) 1) 10 else s
  let s := setF s (F.LANE_STATUS_CAL_BUSY n) 0
  let s := setLane s n fun l => { l with pinned := none, swap := none, runs := 0, lastRun := none }
  if s.calActive.find (n / 14) = some n then calNext s (n / 14) else s

/-- A calibration of lane `n`, queued or running, ends ABORTED (R65). -/
def calAbort (s : State) (n : Nat) : State :=
  if flag s (F.LANE_STATUS_CAL_BUSY n) then calEnd s n 4 else s

/-- Lane `n` goes to state `st`. From UP, its whole bond leaves UP with it, the partners to DESKEW, and calibrations of
those lanes end; `down` tells an exit of R51 that raises LANE_DOWN, counts and sets the DOWN flag for each of them from
an exit that does not. A relay or twin bond that leaves UP sets the LINK fault; with the twin bond a copy is abandoned
(R51, R65, R462, R467). -/
def leave (s : State) (n st : Nat) (down : Bool) : State :=
  if linkState s n = 5 then
    let ups := (bondOf s n).filter (laneIsUp s)
    let u := getF s (F.LANE_USE_RX_USE n)
    let s := ups.foldl (fun s m => calAbort s m) s
    let s := ups.foldl (fun s m => if m = n then s else enter s m 4) s
    let s := setLane (enter s n st) n fun l => { l with cvAt := [] }
    let s := if down then ups.foldl (fun s m =>
        raiseIn (setPairB (bump s (R.LANE_DOWN_COUNT m)) R.LANE_DOWN_FLAG_LO m true) (laneDomain m) 13) s else s
    let s := if u = 4 ∨ u = 5 then fault s 9 else s
    if u = 5 ∧ twinState s = 2 then twinAbandon s 4 else s
  else enter s n st

/-- The state lane `n` starts in: OFF without power or with a half disabled, LOOPBACK while loopback is on, PARKED in
QUIET or SLEEP, else PLL_WAIT (R48, R55, R59, R70; log entry 55). -/
def startState (s : State) (n : Nat) : Nat :=
  if domOn s (laneDomain n) = false then 0
  else if loopback s n ≠ 0 then 7
  else if laneEnabled s n = false then 0
  else if getF s (F.LANE_STATUS_PSTATE n) ≠ 0 then 6 else 1

/-- Bring-up begins at t0: the transmit PLL of a powered and enabled lane starts (R48). -/
def bringUp (s : State) (n : Nat) : State :=
  if laneEnabled s n && domOn s (laneDomain n) then
    setLane (leave s n (startState s n) false) n fun l => { l with txOff := false }
  else s

/-- The group of lane `n` has come on: an enabled lane starts its bring-up, and one in loopback reads LOOPBACK (R48, R59,
R70). -/
def lanePowered (s : State) (n : Nat) : State :=
  if laneEnabled s n then bringUp s n else enter s n (startState s n)

/-- The lane is off: a half is disabled or its group has no power; with power and loopback on it stays in LOOPBACK (R51,
R59, R70). -/
def laneOff (s : State) (n : Nat) : State := calAbort (leave s n (startState s n) false) n

/-- The states of all exchange links follow from their lanes and from the route entries that name them (R156, R162). -/
def linksRefresh (s : State) : State := (List.range 14).foldl linkUpdate s

/-- Exchange link `k` is not narrowed any more, since its lanes or their bond have changed: a lane whose transmitter was
turned off is brought up (log entry 55). -/
def linkFresh (s : State) (k : Nat) : State :=
  let s := setXlink s k fun _ => {}
  (lanesOf s 3 k).foldl (fun s n => if (lane s n).txOff then bringUp s n else s) s

/-- The exchange link that lane `n` belongs to, if any, is not narrowed any more. -/
def linkFreshOf (s : State) (n : Nat) : State :=
  if getF s (F.LANE_USE_RX_USE n) = 3 then linkFresh s (getF s (F.LANE_USE_LINK n)) else s

/-- `LANE_n_USE` takes a value: a lane whose use changes leaves its bond as it was, and one that is enabled starts its
bring-up again; the exchange links it left and joined start afresh (R48, R51, R71, R156). -/
def setUse (s : State) (n : Nat) (v : Word) : State :=
  if v = rd s (R.LANE_USE n) then s
  else
    let s := wr (linkFreshOf (leave s n (startState s n) false) n) (R.LANE_USE n) v
    linksRefresh (bringUp (linkFreshOf s n) n)

/-- `XR_CTRL`.TWIN_SPLIT has changed from `was`: no link is narrowed any more. In twin split mode its lanes are not bonded; out
of it a lane that is UP belongs to a bond that is still to be deskewed, and goes to DESKEW, which the spec leaves open
(R156, R160, R162; DESIGN CHOICE, log entry 55). -/
def splitFollow (s : State) (was : Bool) : State :=
  if twinSplit s = was then s
  else
    let s := (List.range 14).foldl linkFresh s
    linksRefresh ((List.range 56).foldl (fun s n =>
      if getF s (F.LANE_USE_RX_USE n) ≠ 3 ∨ linkState s n ≠ 5 then s
      else if twinSplit s then setF s (F.LANE_STATUS_BONDED n) 0
      else leave s n 4 false) s)

/-- Exchange link `k` narrows onto lane `n`: that lane is unbonded and reaches UP under step 4 of R48, and the other
lane's transmitter is turned off (R157). -/
def narrowOnto (s : State) (k n : Nat) : State :=
  let s := setXlink s k fun _ => { keep := some n }
  let s := (lanesOf s 3 k).foldl (fun s m =>
    if m = n then s else setF (setLane s m fun l => { l with txOff := true }) (F.LANE_STATUS_TX_PLL_LOCK m) 0) s
  linkUpdate (bump s (R.XR_XL_NARROW_COUNT k)) k

/-! ## Enables and test modes -/

/-- EN_TX and EN_RX take their values; both set starts bring-up, either clear turns the lane off (R48, R51, R65). -/
def setEnables (s : State) (n : Nat) (tx rx : Bool) : State :=
  let was := laneEnabled s n
  let s := setF (setF s (F.LANE_CTRL_EN_TX n) (ofBool tx)) (F.LANE_CTRL_EN_RX n) (ofBool rx)
  if tx && rx then if was then s else bringUp s n else laneOff s n

/-- LOOPBACK takes its value: a lane in loopback carries no traffic and belongs to no bond, and one without power stays
off (R51, R59, R65, R70). The spec names no state for the lane when loopback ends: it goes to CDR_ACQ if its transmit PLL
is locked, else to the state it starts in (DESIGN CHOICE, log entry 55). A power state asked for in loopback is announced
then (R56). -/
def setLoopback (s : State) (n mode : Nat) : State :=
  let s := calAbort (setF s (F.LANE_CTRL_LOOPBACK n) mode) n
  if mode % 3 ≠ 0 then if domOn s (laneDomain n) then leave s n 7 false else s
  else if linkState s n = 7 then
    announce (enter s n
      (if startState s n = 1 ∧ flag s (F.LANE_STATUS_TX_PLL_LOCK n) = true then 2 else startState s n)) n
  else s

/-- PRBS_MODE takes its value; the errors the checker found in the mode before are counted, and CHECK_LOCK tells whether
it locks in this one (R51, R70, R71; log entry 55). The spec names no state for a lane that sends PRBS: one in DESKEW or
UP goes to ALIGNING (DESIGN CHOICE, log entry 55). -/
def setPrbs (s : State) (n mode : Nat) (locked : Bool) (errors : Nat) : State :=
  let s := if prbsMode s n ≠ 0 then bumpBy s (R.LANE_PRBS_ERR n) errors else s
  let old := statusByte s n
  let s := setF s (F.LANE_TEST_PRBS_MODE n) mode
  let s := setF s (F.LANE_TEST_CHECK_LOCK n) (ofBool (locked && mode % 3 != 0))
  if mode % 3 ≠ 0 then if linkState s n = 4 ∨ linkState s n = 5 then leave s n 3 false else s
  else if old.isNone then announce (statusFollow s n old) n
  else s


/-- PSTATE_REQ takes its value; QUIET and SLEEP take the lane out of UP and are announced with 16 STATUS ordered sets,
where the lane sends STATUS at all: in OFF, PLL_WAIT and LOOPBACK it does not (R484), and the state asked for is entered
unannounced or, after PLL lock or the end of the loopback, announced then. A request that is taken back before its state is
entered lets the lane align afresh, and STATUS shows ALIGNING again (R484). 3 is ignored (R51, R56, R65, R71; log entry
55). -/
def setPstate (s : State) (n req : Nat) : State :=
  if req = 3 then s
  else
    let was := getF s (F.LANE_CTRL_PSTATE_REQ n)
    let s := calAbort (setF s (F.LANE_CTRL_PSTATE_REQ n) req) n
    if req = 0 then
      if was ≠ 0 ∧ getF s (F.LANE_STATUS_PSTATE n) = 0 ∧ linkState s n = 6 then statusFollow (enter s n 3) n none else s
    else if linkState s n = 0 ∨ linkState s n = 1 ∨ linkState s n = 7 then s
    else announce (leave s n 6 false) n

/-! ## Calibration (R60 to R67) -/

/-- Longest run of open points on a circle (R61). -/
def longestCircularRun (l : List Bool) : Nat :=
  if l.all id then l.length
  else ((l ++ l).foldl (fun (p : Nat × Nat) b => if b then (p.1 + 1, max p.2 (p.1 + 1)) else (0, p.2)) (0, 0)).2

/-- Length of the run of open points that holds point `i`, or 0. -/
def runAt (l : List Bool) (i : Nat) : Nat :=
  if l.getD i false then
    (l.drop i).takeWhile id |>.length.add (((l.take i).reverse.takeWhile id).length)
  else 0

/-- Eye width and height of one peaking setting (R61): the width in UI/64, the height in mV of the run through −2 or
+2 mV. -/
def eyeOf (e : EyeScan) : Nat × Nat :=
  (longestCircularRun e.phase, 4 * max (runAt e.threshold 31) (runAt e.threshold 32))

/-- The setting chosen by a run: widest eye, then tallest, then lowest peaking (R61). -/
def bestRun (scan : List EyeScan) : CalRun :=
  ((scan.zipIdx.map fun (e, i) => CalRun.mk i (eyeOf e).1 (eyeOf e).2).foldl (fun (b : Option CalRun) r =>
    match b with
    | none => some r
    | some b => if b.width < r.width ∨ (b.width = r.width ∧ b.height < r.height) then some r else some b) none).getD
    ⟨0, 0, 0⟩

/-- Two runs agree (R62). -/
def runsAgree (a b : CalRun) : Bool :=
  a.peak ≤ b.peak + 2 && b.peak ≤ a.peak + 2 && a.width ≤ b.width + 3 && b.width ≤ a.width + 3

/-- Largest number of runs: MAX_RUNS, at least 2 (R71). -/
def maxRuns (s : State) (n : Nat) : Nat := max 2 (getF s (F.LANE_CAL_CTRL_MAX_RUNS n))

/-- A calibration of lane `n` is queued, and started if its group's engine is free (R60). CAL_FAIL, which the next START
clears, is cleared by a pinned calibration and a periodic one too: each starts a calibration (DESIGN CHOICE, log entry
55). -/
def calQueue (s : State) (n : Nat) : State :=
  let s := setF (setF s (F.LANE_STATUS_CAL_BUSY n) 1) (F.LANE_STATUS_CAL_FAIL n) 0
  match s.calActive.find (n / 14) with
  | some _ => s
  | none => calNext s (n / 14)

/-- START of `LANE_n_CAL_CTRL` (R60, R65). -/
def calStart (s : State) (n : Nat) : State :=
  if flag s (F.LANE_STATUS_CAL_BUSY n) then s
  else if linkState s n = 5 then calQueue s n
  else
    let s := setF s (F.LANE_STATUS_CAL_FAIL n) 0
    wr s (R.LANE_CAL_RESULT n) (F.LANE_CAL_RESULT_DCGAIN n |>.insert
      ((F.LANE_CAL_RESULT_RESULT n).insert 0 5) (getF s (F.LANE_CAL_CTRL_DCGAIN n)))

/-- One run of the lane's calibration ends with its measurement (R61 to R63, R66). The swap takes the DC gain that CAL_CTRL
holds at the end of the agreed run (DESIGN CHOICE, log entry 55). -/
def calRun (s : State) (n : Nat) (scan : List EyeScan) : State :=
  if s.calActive.find (n / 14) ≠ some n ∨ (lane s n).swap.isSome then s
  else
    let prev := (lane s n).lastRun
    let runs := (lane s n).runs + 1
    match (lane s n).pinned with
    | some q =>
      let eye := eyeOf (scan.getD (q % 16) ⟨[], []⟩)
      setLane s n fun l => { l with runs := runs, lastRun := some ⟨q % 16, eye.1, eye.2⟩, swap := some q }
    | none =>
      let run := bestRun scan
      let s := setLane s n fun l => { l with runs := runs, lastRun := some run }
      if prev.any (runsAgree · run) then
        if getF s (F.LANE_CAL_CTRL_MIN_WIDTH n) ≤ run.width ∧ getF s (F.LANE_CAL_CTRL_MIN_HEIGHT n) ≤ run.height then
          setLane s n fun l => { l with swap := some (getF s (F.LANE_CAL_CTRL_DCGAIN n) * 16 + run.peak) }
        else calEnd s n 3
      else if maxRuns s n ≤ runs then calEnd s n 2 else s

/-- At the next align marker received the lay-by path takes over: `LANE_n_RXEQ` reads the new setting and LAYBY_SWAP is
raised (R64, R66). -/
def calSwap (s : State) (n : Nat) : State :=
  match (lane s n).swap with
  | some q =>
    let s := setF (setF s (F.LANE_RXEQ_DCGAIN n) (q / 16)) (F.LANE_RXEQ_PEAK n) (q % 16)
    raiseIn (calEnd s n 1) (laneDomain n) 14
  | none => s

/-- A write of `LANE_n_RXEQ` (R66). -/
def setRxeq (s : State) (n dcgain peak : Nat) : State :=
  if linkState s n = 5 then
    if flag s (F.LANE_STATUS_CAL_BUSY n) then s
    else calQueue (setLane s n fun l => { l with pinned := some (dcgain * 16 + peak) }) n
  else setF (setF s (F.LANE_RXEQ_DCGAIN n) dcgain) (F.LANE_RXEQ_PEAK n) peak

/-- A write of `LANE_n_TXEQ`: the setting in force stays until the next align marker sent (R45). -/
def setTxeq (s : State) (n swing post pre : Nat) : State :=
  let s := setLane s n fun l => { l with txInForce := some (l.txInForce.getD (rd s (R.LANE_TXEQ n))) }
  setF (setF (setF s (F.LANE_TXEQ_SWING n) swing) (F.LANE_TXEQ_POST n) post) (F.LANE_TXEQ_PRE n) pre

/-- The word of `LANE_n_TXEQ` in force (R45). -/
def txWord (s : State) (n : Nat) : Nat := ((lane s n).txInForce.getD (rd s (R.LANE_TXEQ n))).toNat

/-- The FIR taps (pre, main, post) in force, in 1/64 of full swing: side taps above their range are taken at its top, and
both have negative sign (R44). -/
def txTaps (s : State) (n : Nat) : Int × Int × Int :=
  let pre : Int := min 12 (bitsOf (txWord s n) 3 0)
  let post : Int := min 24 (bitsOf (txWord s n) 12 8)
  (-pre, 64 - pre - post, -post)

/-- The swing in force, the peak amplitude of a main-only setting, in mVppd (R44, R71). -/
def txSwing (s : State) (n : Nat) : Int := 600 + 50 * min 8 (bitsOf (txWord s n) 19 16)

/-- The transmitter's level in 1/64 mVppd for three successive symbols, each 1 or −1, the next one first (R44). -/
def txLevel (s : State) (n : Nat) (next now last : Int) : Int :=
  txSwing s n * ((txTaps s n).1 * next + (txTaps s n).2.1 * now + (txTaps s n).2.2 * last)

/-! ## The commands -/

/-- LANE_ENABLE_WRITE (R48, R51). -/
def execLaneEnableWrite (n : Fin 56) (tx rx : Bool) (s : State) : Res := run (setEnables · n tx rx) s

/-- TX_PLL_LOCKED: the lane sends idle with STATUS ALIGNING and waits for the CDR (R48 step 2); a power state asked for
in the meantime is announced. A lane that started in QUIET keeps its transmitter idle (R55). -/
def execTxPllLocked (n : Fin 56) (s : State) : Res :=
  run (fun s =>
    if linkState s n = 1 then announce (enter (setF s (F.LANE_STATUS_TX_PLL_LOCK n) 1) n 2) n
    else if linkState s n = 6 ∧ getF s (F.LANE_STATUS_PSTATE n) = 1 then setF s (F.LANE_STATUS_TX_PLL_LOCK n) 1
    else s) s

/-- CDR_LOCKED (R48 step 3). SIGNAL_DETECT is set from here, or from aligned commas, until the CDR loses lock or an
announced idle begins; a lane turned off keeps it (DESIGN CHOICE, log entry 55: the spec says only 'Receive signal
present'). -/
def execCdrLocked (n : Fin 56) (s : State) : Res :=
  run (fun s => if linkState s n = 2 then setF (enter s n 3) (F.LANE_STATUS_SIGNAL_DETECT n) 1 else s) s

/-- Three aligned commas (R48 step 4, R49, R57, R157): an unbonded lane goes UP, a bonded one to DESKEW. A link that
waits for an aligned lane narrows onto this one. -/
def commaAligned (s : State) (n : Nat) : State :=
  let st := linkState s n
  if (st = 3 ∨ st = 6 ∨ (st = 4 ∧ bondOf s n = [n])) ∧ prbsMode s n = 0 ∧ (lane s n).txOff = false ∧
      getF s (F.LANE_STATUS_PSTATE n) = 0 ∧ getF s (F.LANE_CTRL_PSTATE_REQ n) = 0 then
    let s := setF s (F.LANE_STATUS_SIGNAL_DETECT n) 1
    let k := getF s (F.LANE_USE_LINK n)
    let s := if getF s (F.LANE_USE_RX_USE n) = 3 ∧ (xlink s k).awaitAlign then narrowOnto s k n else s
    if bondOf s n = [n] then enter s n 5 else enter s n 4
  else s

/-- COMMA_ALIGNED. -/
def execCommaAligned (n : Fin 56) (s : State) : Res := run (commaAligned · n) s

/-- Measured skews of a bond from the marker arrival of each of its lanes, relative to the earliest; beyond 64 symbols
`LANE_n_SKEW` reads 0xFF (R54). -/
def setSkews (s : State) (bond arrival : List Nat) : State :=
  let first := arrival.foldl min (arrival.headD 0)
  (bond.zip arrival).foldl (fun s (m, a) =>
    setF s (F.LANE_SKEW_SKEW m) (if 64 < a - first then 255 else a - first)) s

/-- The skew between the earliest and the latest lane of a bond. -/
def skewSpread (arrival : List Nat) : Nat := arrival.foldl max 0 - arrival.foldl min (arrival.headD 0)

/-- BOND_DESKEWED: a common align marker of the bond. A bond whose lanes are all in DESKEW, with at most 64 symbols of
skew, goes UP; in a bond that is UP the measured skews are refreshed (R48 step 5, R53, R54). -/
def execBondDeskewed (n : Fin 56) (arrival : List Nat) (s : State) : Res :=
  run (fun s =>
    let bond := bondOf s n
    if bond.length > 1 ∧ arrival.length = bond.length ∧ bond.all (linkState s · == 4) then
      let s := setSkews s bond arrival
      if skewSpread arrival ≤ 64 then
        let s := bond.foldl (fun s m => setF (enter s m 5) (F.LANE_STATUS_BONDED m) 1) s
        if getF s (F.LANE_USE_RX_USE n) = 3 then linkUpdate s (getF s (F.LANE_USE_LINK n)) else s
      else bond.foldl (fun s m => setF s (F.LANE_STATUS_BOND_SKEW m) 1) s
    else if bond.length > 1 ∧ arrival.length = bond.length ∧ bond.all (linkState s · == 5) ∧
        skewSpread arrival ≤ 64 then setSkews s bond arrival
    else s) s

/-- STATUS_ORDERED_SET_RECEIVED: REMOTE_STATE follows a STATUS whose third byte is the complement of its second; one
with a state of no meaning is an undefined ordered set (R74, R75, R484). A STATUS that fails the complement test is ignored
and not counted: it is a defined ordered set (DESIGN CHOICE, log entry 55). -/
def execStatusOrderedSetReceived (n : Fin 56) (state check : Byte) (s : State) : Res :=
  run (fun s =>
    if check ≠ state ^^^ 0xFF then s
    else if state.toNat = 0 ∨ 4 < state.toNat then bump s (R.LNK_UNEXPECTED n)
    else if linkState s n < 3 ∨ linkState s n = 7 then s
    else setF s (F.LANE_STATUS_REMOTE_STATE n) state.toNat) s

/-- IDLE_ORDERED_SET_RECEIVED: fill; the elastic buffer passes, deletes or repeats it, and nothing else of the stream
(R77). -/
def execIdleOrderedSetReceived (_ : Fin 56) (_ : Fin 3) (s : State) : Res := run (fun s => s) s

/-- UNDEFINED_ORDERED_SET_RECEIVED (R74). -/
def execUndefinedOrderedSetReceived (n : Fin 56) (s : State) : Res := run (bump · (R.LNK_UNEXPECTED n)) s

/-- A code violation at a symbol position: counted, and the eighth within any 1,024 consecutive symbols takes a lane out
of UP (R51, R52). Violations from before the lane reached UP are not in the window: R51 is a rule for a lane in UP
(DESIGN CHOICE, log entry 55). -/
def codeViolation (s : State) (n symbol : Nat) : State :=
  let s := bump s (R.LANE_CV_COUNT n)
  if linkState s n = 5 then
    let at' := (symbol :: (lane s n).cvAt).take 8
    if at'.length = 8 ∧ symbol - at'.getLastD 0 < 1024 then leave s n 3 true
    else setLane s n fun l => { l with cvAt := at' }
  else s

/-- CODE_VIOLATION. -/
def execCodeViolation (n : Fin 56) (symbol : Nat) (s : State) : Res := run (codeViolation · n symbol) s

/-- COMMA_MISALIGNED: three consecutive commas at another boundary (R51). -/
def execCommaMisaligned (n : Fin 56) (s : State) : Res :=
  run (fun s => if linkState s n = 4 ∨ linkState s n = 5 then leave s n 3 true else s) s

/-- CDR_LOCK_LOST: a parked lane, whose silence was announced, stays parked (R51, R57). -/
def execCdrLockLost (n : Fin 56) (s : State) : Res :=
  run (fun s =>
    if 3 ≤ linkState s n ∧ linkState s n ≤ 5 then setF (leave s n 2 true) (F.LANE_STATUS_SIGNAL_DETECT n) 0
    else if linkState s n = 6 then setF s (F.LANE_STATUS_CDR_LOCK n) 0 else s) s

/-- BOND_SKEW_EXCEEDED: the bond stays in, or goes to, DESKEW with BOND_SKEW set (R51, R53, R54). -/
def execBondSkewExceeded (n : Fin 56) (arrival : List Nat) (s : State) : Res :=
  run (fun s =>
    let bond := bondOf s n
    if bond.length > 1 ∧ arrival.length = bond.length ∧ 64 < skewSpread arrival ∧
        (bond.all (linkState s · == 5) ∨ bond.all (linkState s · == 4)) then
      let s := setSkews (leave s n 4 true) bond arrival
      bond.foldl (fun s m => setF s (F.LANE_STATUS_BOND_SKEW m) 1) s
    else s) s

/-- LANE_PSTATE_REQUEST (R56). -/
def execLanePstateRequest (n : Fin 56) (req : Fin 4) (s : State) : Res := run (setPstate · n req) s

/-- LANE_POWER_STATE_ENTERED: after its announcements the lane is in the state requested; SLEEP stops its PLL and CDR. A
lane that is being brought up is parked with it; one that is OFF or in LOOPBACK stays so (R55, R56). -/
def execLanePowerStateEntered (n : Fin 56) (s : State) : Res :=
  run (fun s =>
    let req := getF s (F.LANE_CTRL_PSTATE_REQ n)
    if (req = 1 ∨ req = 2) ∧ getF s (F.LANE_STATUS_PSTATE n) ≠ req then
      let s := if 1 ≤ linkState s n ∧ linkState s n ≤ 5 then leave s n 6 false else s
      let s := setF s (F.LANE_STATUS_PSTATE n) req
      if req = 2 then setF (setF s (F.LANE_STATUS_TX_PLL_LOCK n) 0) (F.LANE_STATUS_CDR_LOCK n) 0 else s
    else s) s

/-- LANE_WAKE_COMPLETE: the lane is ACTIVE again. A parked one aligns afresh, from QUIET after 64 symbols of idle; one whose
PLL has not locked since it was enabled in QUIET waits for that. One that is off or in LOOPBACK stays so (R55, R56, R58,
R59). -/
def execLaneWakeComplete (n : Fin 56) (s : State) : Res :=
  run (fun s =>
    let ps := getF s (F.LANE_STATUS_PSTATE n)
    if ps ≠ 0 ∧ getF s (F.LANE_CTRL_PSTATE_REQ n) = 0 ∧ domOn s (laneDomain n) then
      if linkState s n ≠ 6 then setF s (F.LANE_STATUS_PSTATE n) 0
      else if ps = 1 ∧ flag s (F.LANE_STATUS_TX_PLL_LOCK n) = false then enter (setF s (F.LANE_STATUS_PSTATE n) 0) n 1
      else
        let s := if ps = 1 then emit s (.idleSent n 64) else s
        let old := statusByte s n
        let s := setF (setF s (F.LANE_STATUS_PSTATE n) 0) (F.LANE_STATUS_TX_PLL_LOCK n) 1
        statusFollow (enter s n 3) n old
    else s) s

/-- ANNOUNCED_IDLE_DETECTED: electrical idle after an announced QUIET or SLEEP parks the receiver (R57). -/
def execAnnouncedIdleDetected (n : Fin 56) (s : State) : Res :=
  run (fun s =>
    let r := getF s (F.LANE_STATUS_REMOTE_STATE n)
    if (r = 3 ∨ r = 4) ∧ 3 ≤ linkState s n ∧ linkState s n ≤ 5 then
      setF (leave s n 6 false) (F.LANE_STATUS_SIGNAL_DETECT n) 0
    else s) s

/-- LANE_LOOPBACK_WRITE (R70). -/
def execLaneLoopbackWrite (n : Fin 56) (mode : Fin 4) (s : State) : Res := run (setLoopback · n mode) s

/-- LANE_PRBS_MODE_WRITE, with what the checker reports (R70). -/
def execLanePrbsModeWrite (n : Fin 56) (r : PrbsRun) (s : State) : Res :=
  run (setPrbs · n r.mode r.locked r.errors) s

/-- LANE_CAL_START (R60). -/
def execLaneCalStart (n : Fin 56) (s : State) : Res := run (calStart · n) s

/-- CAL_RUN_COMPLETE (R62). -/
def execCalRunComplete (n : Fin 56) (scan : List EyeScan) (s : State) : Res := run (calRun · n scan) s

/-- LAYBY_SWAP (R64). -/
def execLaybySwap (n : Fin 56) (s : State) : Res := run (calSwap · n) s

/-- LANE_RXEQ_WRITE (R66). -/
def execLaneRxeqWrite (n : Fin 56) (dcgain : Fin 4) (peak : Fin 16) (s : State) : Res :=
  run (setRxeq · n dcgain peak) s

/-- LANE_TXEQ_WRITE (R45). -/
def execLaneTxeqWrite (n : Fin 56) (swing post pre : Fin 32) (s : State) : Res :=
  run (setTxeq · n swing post pre) s

/-- TXEQ_APPLY: from this align marker on the written setting is in force (R45). -/
def execTxeqApply (n : Fin 56) (s : State) : Res :=
  run (setLane · n fun l => { l with txInForce := none }) s

/-- CAL_PERIOD_EXPIRY: a calibration is queued on every lane that is UP and not already queued or busy (R67). -/
def execCalPeriodExpiry (s : State) : Res :=
  run (fun s =>
    if getF s F.LANE_CAL_PERIOD_SECONDS = 0 then s
    else (List.range 56).foldl (fun s n =>
      if linkState s n = 5 ∧ ¬ flag s (F.LANE_STATUS_CAL_BUSY n) then calQueue s n else s) s) s

end Sys2Proof.Machine
end

