-- ==== Sys2Proof/Machine/Ingest.lean ====
section
/-! DEFINITION. Frames on the lanes and ingest (R72 to R101). -/

namespace Sys2Proof.Machine

/-! ## Frame headers (R79, R84 to R93) -/

/-- Header byte `i`. -/
def frByte (f : RxFrame) (i : Nat) : Nat := (f.header.getD i 0).toNat

/-- `k` header bytes from `i`, little-endian. -/
def frField (f : RxFrame) (i k : Nat) : Nat := leAt f.header i k

/-- The payload with violated bytes taken as 0x00 (R83). -/
def frData (f : RxFrame) : List Byte := f.payload.map (·.getD 0)

/-- The payload length an XCH header implies (R89). -/
def xchLength (f : RxFrame) : Nat :=
  (if bitOf (frByte f 28) 1 then (frField f 18 2 + 63) / 64 * 8 else 0) +
    (frByte f 15 + 1) * frField f 22 2 * frField f 18 2 * (if bitOf (frByte f 28) 0 then 2 else 1)

/-- The payload length a RELAY header implies (R92). -/
def relayLength (f : RxFrame) : Nat := (frByte f 15 + 1) * frByte f 18 * (frByte f 7 + 1) * 6

/-- PAYLOAD_LEN satisfies the limit for the type (R83). -/
def lengthOk (f : RxFrame) : Bool :=
  let len := frField f 2 2
  f.payload.length == len &&
  match frByte f 0 with
  | 1 => len == 16384
  | 2 => len == xchLength f && len ≤ 16384
  | 3 => len ≤ 4096
  | 4 => len == 0
  | 5 => len == relayLength f && len % 6 == 0 && len ≤ 16380
  | 6 => len ≤ 16384
  | _ => false

/-- The header tests that count in `LNK_n_HDR_ERR` (R81). -/
def headerOk (f : RxFrame) : Bool :=
  !f.headerCv && (crc16 (f.header.take 30)).toNat == frField f 30 2 && 1 ≤ frByte f 0 && frByte f 0 ≤ 6 && frByte f 1 / 16 == 1

/-- The lane plan allows frames of the type on lane `n` (R81; CTL on every bond between chips, log entry 12). -/
def typeAllowed (s : State) (n type : Nat) : Bool :=
  match getF s (F.LANE_USE_RX_USE n) with
  | 1 => type == 1
  | 3 => type == 2 || type == 3 || type == 4
  | 4 => type == 5 || type == 3
  | 5 => type == 6 || type == 3
  | _ => false

/-- The payload CRC of a CTL or TWIN frame holds (R80, R83). -/
def payloadCrcOk (f : RxFrame) : Bool :=
  f.payload.all (·.isSome) && f.crc.all (·.isSome) && leNat (f.crc.map (·.getD 0)) == (crc32c (frData f)).toNat

/-- Lane `n` receives a frame of a type: a frame that fails a test of R81 counts once, in the first counter that
applies; a CTL or TWIN frame must also pass its CRC (R83); any other is counted as accepted and goes to `k`. A lane
that is not UP receives nothing. -/
def receive (s : State) (n type : Nat) (f : RxFrame) (k : State → State) : State :=
  if linkState s n ≠ 5 then s
  else
    let s := advanceTo s f.eofAt
    if !headerOk f then bump s (R.LNK_HDR_ERR n)
    else if frByte f 0 ≠ type then s
    else if !(lengthOk f && f.eofInPlace) then bump s (R.LNK_LEN_ERR n)
    else if !typeAllowed s n type then bump s (R.LNK_UNEXPECTED n)
    else
      let s := bump s (R.LNK_RX_FRAMES n)
      if (type = 3 ∨ type = 6) ∧ ¬ payloadCrcOk f then bump s (R.LNK_PCRC_ERR n) else k s

/-- Count the payload bytes taken as 0x00 (R83, R100). -/
def countPayloadCv (s : State) (n : Nat) (f : RxFrame) : State :=
  bumpBy s (R.LNK_PAYLOAD_CV n) (f.payload.countP (·.isNone))

/-! ## Signal states (R97) -/

/-- The state of ingest lane `n`: 0 OFF, 1 LOST, 2 RESYNC, 3 LOCKED. -/
def sigState (s : State) (n : Nat) : Nat := getF s ⟨R.LNK_SIG_STATE (n / 4), 8 * (n % 4) + 1, 8 * (n % 4)⟩

/-- What ingest lane `n` holds beside its registers. -/
def ingestLane (s : State) (n : Nat) : IngestLane := s.ingest.get {} n

/-- Change it. -/
def setIngestLane (s : State) (n : Nat) (f : IngestLane → IngestLane) : State :=
  { s with ingest := s.ingest.upd {} n f }

/-- A signal's lane became LOCKED: its noise estimate is to be trained again, the estimate kept (R246). -/
def noiseRestart (s : State) (i : Nat) : State :=
  let s := setF s (F.TRG_IMP_READY i) 0
  { s with trg := { s.trg with impulses := s.trg.impulses.upd {} i fun m => { m with updates := 0 } } }

/-- The four signals of lane `n` enter a state; a change sets their state-change bits, and entering RESYNC sets the lock
count to 0 (R97, R98). -/
def setSigState (s : State) (n st : Nat) : State :=
  if sigState s n = st then s
  else
    let s := (List.range 4).foldl (fun s j =>
      setPairB (setF s ⟨R.LNK_SIG_STATE (n / 4), 8 * (n % 4) + 2 * j + 1, 8 * (n % 4) + 2 * j⟩ st)
        R.LNK_STATE_CHANGE_LO (4 * n + j) true) s
    let s := if st = 2 then setIngestLane s n fun l => { l with lockCount := 0 } else s
    let s := if st = 3 then (List.range 4).foldl (fun s j => noiseRestart s (4 * n + j)) s else s
    refreshLevels s

/-! ## INGEST frames (R84 to R87, R96) -/

/-- The ingest close of frame `f` (R30). -/
def ingestCloseAt (f : Nat) : Nat := frameStart (f + 1) + 131072

/-- The timing classes of R96. -/
inductive IngestClass where
  | onTime | early | far | closed
  deriving DecidableEq, Repr

/-- The class of an INGEST frame (R96, with R29 after a time step). -/
def ingestClass (s : State) (f : RxFrame) : IngestClass :=
  let idx := frField f 8 8
  let fr := idx / 2 ^ 21
  if f.acrossStep || ingestCloseAt fr ≤ f.eofAt || s.arch.closedUpTo.any (fr ≤ ·) then .closed
  else if f.sofAt / 2 ^ 21 + 2 < fr then .far
  else if f.sofAt + 16384 < idx then .early
  else .onTime

/-- An EARLY, FAR or CLOSED frame: counted, a bad frame, and a LOCKED lane goes to RESYNC (R97). -/
def badFrame (s : State) (n counter : Nat) (f : RxFrame) : State :=
  let s := setIngestLane (bump s counter) n fun l => { l with badAt := f.eofAt :: l.badAt }
  if sigState s n = 3 then setSigState s n 2 else s

/-- An arrival: the frame's local frame is noted and a LOST lane goes to RESYNC (R97). -/
def arrival (s : State) (n : Nat) (f : RxFrame) : State :=
  let s := setIngestLane s n fun l => { l with lastArrival := some (f.eofAt / 2 ^ 21) }
  if sigState s n = 1 then setSigState s n 2 else s

/-- The samples of an ON_TIME frame are accepted, its INVALID flags noted (R87, R96). -/
def acceptIngest (s : State) (n : Nat) (f : RxFrame) : State :=
  let idx := frField f 8 8
  let inv := ((List.range 4).filter fun j => bitOf (frByte f (16 + j)) 0).map fun j => (idx / 2 ^ 21, j)
  let s := setIngestLane s n fun l => { l with
    accepted := idx :: l.accepted, invalid := inv ++ l.invalid, held := ⟨idx, f.eofAt, frData f⟩ :: l.held }
  setPair s (R.LNK_LAST_INDEX_LO n) idx

/-- What becomes of an INGEST frame that passed R81 on an enabled ingest lane (R86, R87, R96). `taps` acts on one that is
accepted (R106). -/
def ingestFrame (s : State) (n : Nat) (f : RxFrame) (taps : State → State) : State :=
  let s := countPayloadCv s n f
  let s := wr s (R.LNK_SOURCE n) (BitVec.ofNat 32 (frField f 6 2 * 2 ^ 16 + frField f 4 2))
  let idx := frField f 8 8
  if idx % 4096 ≠ 0 then bump s (R.LNK_LEN_ERR n)
  else if frField f 6 2 ≠ getR s R.LNK_SIGNAL_BASE + 4 * n then bump s (R.LNK_BASE_ERR n)
  else if idx ∈ (ingestLane s n).accepted then bump s (R.LNK_DUP n)
  else
    let seen := packBits ((List.range 16).map fun i => i % 4 < 3 && bitOf (frByte f (16 + i / 4)) (i % 4))
    let s := wr s (R.LNK_FLAGS_SEEN n) (rd s (R.LNK_FLAGS_SEEN n) ||| BitVec.ofNat 32 seen)
    match ingestClass s f with
    | .closed => badFrame s n (R.LNK_LATE n) f
    | .early => arrival (badFrame s n (R.LNK_EARLY n) f) n f
    | .far => arrival (badFrame s n (R.LNK_FAR n) f) n f
    | .onTime => taps (arrival (acceptIngest s n f) n f)

/-- The sample of local signal `i` at an index, if an accepted INGEST frame has brought it; with the counter value of
its acceptance (R85). -/
def ingestSample (s : State) (i idx : Nat) : Option (Int × Nat) :=
  ((ingestLane s (i / 4)).held.find? fun h => h.index ≤ idx && idx < h.index + 4096).map fun h =>
    ((h.data.getD (4 * (idx - h.index) + i % 4) 0).toInt, h.at_)

/-! ## Ingest close and loss (R98, R99) -/

/-- Lane `n` agrees for frame `f` at its ingest close (R98). -/
def ingestAgrees (s : State) (n f : Nat) : Bool :=
  let l := ingestLane s n
  (l.accepted.countP fun i => i / 2 ^ 21 == f) == 512 &&
    l.badAt.all fun t => t < frameStart f || ingestCloseAt f ≤ t

/-- The ingest close of frame `f` on one enabled lane: the lock count, the state and the four validity bits, clear
for a frame jumped over (R29, R98). -/
def closeLane (s : State) (f n : Nat) : State :=
  let agree := ingestAgrees s n f
  let s := if sigState s n = 2 then
      let c := if agree then (ingestLane s n).lockCount + 1 else 0
      let s := setIngestLane s n fun l => { l with lockCount := c }
      if c = 4 then setSigState s n 3 else s
    else s
  let bits := (List.range 4).map fun j =>
    sigState s n == 3 && agree && !((f, j) ∈ (ingestLane s n).invalid : Bool) && !jumpedOver s f
  let s := { s with ingestValid := s.ingestValid.upd 0 f (· + packBits bits * 2 ^ (4 * n)) }
  setIngestLane s n fun l => { l with
    held := l.held.filter fun h => f ≤ h.index / 2 ^ 21 + 2
    badAt := l.badAt.filter fun t => frameStart f ≤ t }

/-- The ingest close of frame `f`: every enabled lane is evaluated and the four VALID registers change together (R98,
R101). -/
def ingestClose (s : State) (f : Nat) : State :=
  let s := advanceTo s (ingestCloseAt f)
  if s.counter.toNat < ingestCloseAt f ∨ (s.ingestValid.find f).isSome then s
  else
    let s := { s with ingestValid := (s.ingestValid.put f 0).drop (· + 1024 < f) }
    let s := (List.range 16).foldl (fun s n => if getB s R.LNK_ING_EN n then closeLane s f n else s) s
    setPair (setPair s R.LNK_VALID_LO (s.ingestValid.get 0 f)) R.LNK_VALID_FRAME_LO f

/-! ## The commands -/

/-- SIGNAL_LOST_TIMEOUT: at a tick that ends two local frames without arrival the lane is LOST (R97, R98). -/
def execSignalLostTimeout (n : Fin 16) (s : State) : Res :=
  run (fun s =>
    if 2 ≤ sigState s n ∧ (ingestLane s n).lastArrival.all (· + 2 < frameOf s) then setSigState s n 1 else s) s

/-- The enables of `LNK_ING_EN`: a lane enabled goes from OFF to LOST, a lane disabled to OFF (R97, R101). -/
def setIngestEnable (s : State) (enable : BitVec 16) : State :=
  let s := setR s R.LNK_ING_EN enable.toNat
  (List.range 16).foldl (fun s n =>
    if enable.getLsbD n then if sigState s n = 0 then setSigState s n 1 else s else setSigState s n 0) s

/-- INGEST_ENABLE_WRITE. -/
def execIngestEnableWrite (enable : BitVec 16) (s : State) : Res := run (setIngestEnable · enable) s

/-- CTL_FRAME_RECEIVED: no chapter defines an opcode, so each is discarded and counted (R90; log entry 12). Payload bytes
taken as 0x00 count in `LNK_n_PAYLOAD_CV` for the frames that R83 names, INGEST, XCH and RELAY, and not for CTL and TWIN
frames (DESIGN CHOICE, log entry 55: R101's table names no frame type). -/
def execCtlFrameReceived (n : Fin 56) (f : RxFrame) (s : State) : Res :=
  run (fun s => receive s n 3 f fun s => bump s (R.LNK_UNEXPECTED n)) s

end Sys2Proof.Machine
end

