-- ==== Sys2Proof/Machine/Chz.lean ====
section
/-! DEFINITION. The channelizer: read point, models, arms, settings, spectra and validity (R102 to R137). -/

namespace Sys2Proof.Machine

/-! ## The read point (R104 to R106, R429, R434 to R436) -/

/-- Yodex feeds the read point (R434, R435). -/
def replaying (s : State) : Bool := 5 ≤ getF s F.YDX_STATUS_STATE && getF s F.YDX_STATUS_STATE ≤ 6

/-- A power-off has not cut the replay before counter value `t` (R435). -/
def fedBefore (s : State) (t : Nat) : Bool := s.ydx.cut.all (t ≤ ·)

/-- The recorded frame that feeds local frame `g`, if one does; a frame that begins after a cut is fed nothing (R434 to
R436). -/
def replayFrame (s : State) (g : Nat) : Option Nat :=
  if s.ydx.replayFirst ≤ g ∧ fedBefore s (frameStart g) = true then
    let d := g - s.ydx.replayFirst
    if d % s.ydx.pace = 0 ∧ d / s.ydx.pace < s.ydx.count then some (d / s.ydx.pace) else none
  else none

/-- DRAM byte address of sample `t` of signal `i` in recorded frame `k` (R429). -/
def ydxAddr (s : State) (k i t : Nat) : Nat :=
  regionBase s 4 + 0x4000000 + k * 0x8000000 + i * 2 ^ 21 + t

/-- What the read point reads for signal `i` at offset `o` of frame `g`, and whether an INGEST frame supplied it: a
sample of an accepted INGEST frame whose EOF came before the read of its first sample, else 0 (R104); in a replay, the
recording, up to the samples read before a cut (R434, R435). -/
def readPoint (s : State) (i g o : Nat) : Int × Bool :=
  if replaying s then
    match replayFrame s g with
    | some k =>
      if (s.ydx.frames.find k).any (·.gap) ∨ dramBad s (ydxAddr s k i o) 1 = true ∨
          fedBefore s (frameStart g + o + 131073) = false then (0, false)
      else ((readByte s.dram (ydxAddr s k i o)).toInt, true)
    | none => (0, false)
  else
    let idx := frameStart g + o
    match ingestSample s i idx with
    | some (v, at') => if at' < idx / 4096 * 4096 + 131072 then (v, true) else (0, false)
    | none => (0, false)

/-- The frame before `f` on the chain's own time: in a walking replay the one before among those fed (R436). -/
def prevFrame (s : State) (f : Nat) : Nat := if replaying s then f - s.ydx.pace else f - 1

/-- The ingest validity bits of input frame `g` (R98; in a replay, the logged ones, clear for a frame not wholly read before a
cut, R435). -/
def inputValid (s : State) (g : Nat) : Nat :=
  if replaying s then
    match replayFrame s g with
    | some k =>
      match s.ydx.frames.find k with
      | some y => if y.gap || !fedBefore s (frameStart (g + 1) + 131072) then 0 else
          y.ingestValid - packBits ((List.range 64).map fun i => bitOf y.ingestValid i && decide ((k, i) ∈ s.ydx.ue))
      | none => 0
    | none => 0
  else s.ingestValid.get 0 g

/-- A late input fell in input frame `g` of lane `n` (R105; in a replay, the logged bit). -/
def lateInput (s : State) (g n : Nat) : Bool :=
  if replaying s then
    match replayFrame s g with
    | some k => (s.ydx.frames.find k).any fun y => bitOf y.late n
    | none => false
  else (n, g) ∈ s.chz.late

/-! ## Models (R107 to R110) -/

/-- Power domain of local signal `i` (R102). -/
def quadDomain (i : Nat) : Nat := 5 + i / 16

/-- Word `w` of model slot `m` of signal `i`, as stored. -/
def modelWord (s : State) (i m w : Nat) : Nat :=
  (arrGet s .model (quadDomain i) (16 * (4 * i + m) + w)).toNat % 2 ^ 32

/-- A write of one word of the model table; word 1 fixes the slot's match from itself and from word 0 as stored then
(R107, R109). -/
def modelWrite (s : State) (i m w : Nat) (v : Word) : State :=
  if 13 ≤ w then s
  else
    let t := arrSet s .model (16 * (4 * i + m) + w) (v.setWidth 64)
    if w = 1 then
      let frame := (v.toNat % 2 ^ 16) * 2 ^ 32 + modelWord s i m 0
      { t with chz := { t.chz with
        slotFrame := t.chz.slotFrame.put (4 * i + m) (if v.getLsbD 31 then some frame else none) } }
    else t

/-- The entry of a slot, each word as it is stored now (R107, R109). -/
def modelEntry (s : State) (i m : Nat) : ModelEntry :=
  let w := modelWord s i m
  { a0 := w 2 + w 3 * 2 ^ 32
    a1 := toSigned 64 (w 4 + w 5 * 2 ^ 32)
    a2 := toSigned 64 (w 6 + w 7 * 2 ^ 32)
    b0 := w 8
    b1 := toSigned 32 (w 9)
    b2 := toSigned 32 (w 10)
    g0 := toSigned 32 (w 11)
    g1 := toSigned 32 (w 12) }

/-- The lowest-numbered slot of signal `i` that matches frame `f` (R108). -/
def matchingSlot (s : State) (i f : Nat) : Option Nat :=
  (List.range 4).find? fun m => s.chz.slotFrame.get none (4 * i + m) == some f

/-- Change the channelizer's hidden state. -/
def setChz (s : State) (f : Chz → Chz) : State := { s with chz := f s.chz }

/-- The chain of signal `i` latches at frame `f`: a matching entry, or the last one continued, which is counted and
flagged for an enabled signal (R108, R110). -/
def latchModel (s : State) (f i : Nat) : State :=
  match matchingSlot s i f with
  | some m => setChz s fun c => { c with last := c.last.put i (f, modelEntry s i m) }
  | none =>
    if getPairB s R.CHZ_SIG_EN_LO i then setPairB (bump s R.CHZ_MODEL_LATE_COUNT) R.CHZ_STALE_LO i true else s

/-! ## Arms (R123, R124) -/

/-- The latch point of frame `f` (R108). -/
def latchPoint (f : Nat) : Nat := frameStart f + 65536

/-- The latch point of `f` has passed or falls in this cycle. -/
def latchPassed (s : State) (f : Nat) : Bool := latchPoint f ≤ s.counter.toNat

/-- A write of `CHZ_SWITCH_FRAME_HI` (R124). -/
def switchArm (s : State) (high : Word) : State :=
  let s := writePairHigh s R.CHZ_SWITCH_FRAME_LO (high &&& 0xFFFF)
  let f := getPair s R.CHZ_SWITCH_FRAME_LO
  let filters := getF s F.CHZ_SWITCH_CTRL_FILTER
  if (List.range 4).any fun q => 9 ≤ bitsOf filters (4 * q + 3) (4 * q) then setF s F.CHZ_SWITCH_CTRL_LATE 1
  else
    let late := latchPassed s f
    let s := setF s F.CHZ_SWITCH_CTRL_ARMED 1
    let s := if late then setF s F.CHZ_SWITCH_CTRL_LATE 1 else s
    setChz s fun c => { c with pendSwitch := some (f, filters, getF s F.CHZ_SWITCH_CTRL_GAIN_BANK) }

/-- A write of `CHZ_MODE_FRAME_HI` (R123). -/
def modeArm (s : State) (high : Word) : State :=
  let s := writePairHigh s R.CHZ_MODE_FRAME_LO (high &&& 0xFFFF)
  let f := getPair s R.CHZ_MODE_FRAME_LO
  let cal8 := flag s F.CHZ_MODE_NEXT_CAL8
  let si := spanLen s * integLen s
  if f % si ≠ 0 ∨ latchPassed s f ∨ (cal8 ∧ 65536 < si * 256) then setF s F.CHZ_MODE_MODE_REJECT 1
  else setChz (setF s F.CHZ_MODE_ARMED 1) fun c => { c with pendMode := some (f, cal8) }

/-- A pending mode change takes effect at the latch point of its frame, or, jumped over, of the first later frame that
begins an integration (R123, R483). -/
def modeApply (s : State) (f : Nat) : State :=
  match s.chz.pendMode with
  | some (g, cal8) =>
    if g = f ∨ (g < f ∧ f % (spanLen s * integLen s) = 0) then
      setChz (setF (setF s F.CHZ_MODE_CAL8 (ofBool cal8)) F.CHZ_MODE_ARMED 0) fun c => { c with pendMode := none }
    else s
  | none => s

/-- A pending switch takes effect at the latch point of its frame; one whose frame is past or was jumped over takes
effect here with LATE (R124, R483). -/
def switchApply (s : State) (f : Nat) : State :=
  match s.chz.pendSwitch with
  | some (g, filters, bank) =>
    if g ≤ f then
      let s := if g < f then setF s F.CHZ_SWITCH_CTRL_LATE 1 else s
      let s := setF (setF s F.CHZ_ACTIVE_FILTER filters) F.CHZ_ACTIVE_GAIN_BANK bank
      setChz (setPair (setF s F.CHZ_SWITCH_CTRL_ARMED 0) R.CHZ_SWITCH_DONE_LO f) fun c => { c with pendSwitch := none }
    else s
  | none => s

/-! ## Banks in use (R125, R431) -/

/-- From tick FS − 1 to the end of a recording the banks count as in use (R431). -/
def ydxHoldsBanks (s : State) : Bool :=
  (getF s F.YDX_STATUS_STATE == 1 && s.ydx.first ≤ frameOf s + 1) || getF s F.YDX_STATUS_STATE == 2

/-- Gain bank `b` is in use (R125). -/
def gainBankInUse (s : State) (b : Nat) : Bool :=
  getF s F.CHZ_ACTIVE_GAIN_BANK == b || s.chz.pendSwitch.any (fun p => p.2.2 == b) || ydxHoldsBanks s

/-- The loadable filter bank is in use (R125). -/
def filterBankInUse (s : State) : Bool :=
  let sel8 := fun w => (List.range 4).any fun q => bitsOf w (4 * q + 3) (4 * q) == 8
  sel8 (getF s F.CHZ_ACTIVE_FILTER) || s.chz.pendSwitch.any (fun p => sel8 p.2.1) || ydxHoldsBanks s

/-- The bank an address belongs to: 0 or 1 a gain bank or its SHIFT registers, 2 the loadable filter bank (R116,
R121). -/
def bankOf (a : Nat) : Option Nat :=
  if 0x600000 ≤ a ∧ a < 0x800000 then some ((a - 0x600000) / 0x100000)
  else if 0x400300 ≤ a ∧ a < 0x400400 then some 0
  else if 0x400400 ≤ a ∧ a < 0x400500 then some 1
  else if 0x420000 ≤ a ∧ a < 0x440000 then some 2
  else none

/-- Store a word of a bank, a SHIFT register or the loadable filter bank (R116, R121). -/
def bankStore (s : State) (a : Nat) (v : Word) : State :=
  if 0x600000 ≤ a ∧ a < 0x800000 then arrSet s .gain ((a - 0x600000) / 4) (v.setWidth 64)
  else if a < 0x420000 then setR s a (v.toNat % 64)
  else wr s a v

/-- The bank an address belongs to is in use (R125). -/
def bankInUse (s : State) (a : Nat) : Bool :=
  (bankOf a).any fun b => if b = 2 then filterBankInUse s else gainBankInUse s b

/-- A write to a bank: ignored and counted while the bank is in use (R125). -/
def bankWrite (s : State) (a : Nat) (v : Word) : State :=
  if (bankOf a).isNone then s
  else if bankInUse s a then bump s R.CHZ_WRITE_REJECT_COUNT
  else bankStore s a v

/-- The bytes of a register word. -/
def wordBytes (v : Word) : List Byte := leBytes 4 v.toNat

/-- A master's write to a bank; one that is ignored is not mirrored (R125, R461). -/
def bankMirrored (s : State) (a : Nat) (v : Word) : State :=
  mirroredWrite s false a ((wordBytes v).map some) (!bankInUse s a) (bankWrite · a v)

/-! ## The latch point (R108, R126, R130, R131) -/

/-- The chains of quad `q` start, or start again, at frame `f`: history zero, models forgotten, a fill frame (R110,
R130). -/
def quadStartAt (s : State) (f q : Nat) : State :=
  setChz s fun c => { c with quadStart := c.quadStart.put q f, last := c.last.drop (· / 16 == q) }

/-- Quad `q` starts, runs on or stops at the latch point of frame `f` (R130, R131). -/
def quadLatch (s : State) (f q : Nat) : State :=
  let should := getB s R.CHZ_CTRL q && domOn s (5 + q)
  let is := (s.chz.quadStart.find q).isSome
  if should && !is then quadStartAt s f q
  else if !should && is then setChz s fun c => { c with quadStart := c.quadStart.drop (· == q) }
  else s

/-- RUN follows a START, whose fill frame is F0 − 1, and a STOP, whose last frame is FS − 1 (R24, R25, R130, R131). -/
def runFollow (s : State) (f : Nat) : State :=
  let s := match s.chz.armRun with
    | some g => if g ≤ f then setChz (setF s F.CHZ_CTRL_RUN 0xF) fun c => { c with armRun := none } else s
    | none => s
  match s.arch.stopFrame with
  | some g => if g ≤ f then setChz (setF s F.CHZ_CTRL_RUN 0) fun c => { c with armRun := none } else s
  | none => s

/-- The bits of the quads that meet `p`. -/
def quadBits (p : Nat → Bool) : Nat := packBits ((List.range 4).map p)

/-- The settings of frame `f` as they stand at its latch point. -/
def confNow (s : State) (f : Nat) : FrameConf :=
  { models := (List.range 64).map fun i => (s.chz.last.find i).map fun (g, m) => (f - g, m)
    filters := (List.range 4).map fun q => bitsOf (getF s F.CHZ_ACTIVE_FILTER) (4 * q + 3) (4 * q)
    gainBank := getF s F.CHZ_ACTIVE_GAIN_BANK
    cal8 := flag s F.CHZ_MODE_CAL8
    fftMask := getF s F.CHZ_FFT_SHIFT_MASK
    sigEn := getPair s R.CHZ_SIG_EN_LO
    fringeEn := getF s F.CHZ_CTRL_FRINGE_EN
    running := quadBits fun q => (s.chz.quadStart.find q).isSome
    starts := (List.range 4).map fun q => s.chz.quadStart.get 0 q
    cut := 0 }

/-- The settings frame `f` runs under: in a replay the logged ones, with the chip's own running quads (R434). -/
def confFor (s : State) (f : Nat) : FrameConf :=
  let own := confNow s f
  if replaying s then
    match (replayFrame s f).bind s.ydx.frames.find |>.bind (·.conf) with
    | some c => { c with running := own.running, starts := own.starts, cut := 0 }
    | none => { own with models := List.replicate 64 none }
  else own

/-- The records of a CHANNELIZER region that waited are written. The supervisor's writes to the mirrored set are a master's
like any other's: ignored on a standby, and sent on by an active (R371, R401, R461). -/
def reloadWrite (s : State) : State :=
  match s.chz.reload with
  | some ws =>
    let s := ws.foldl (fun s (a, m, v) =>
      if (bankOf a).isSome then mirrored s false a (wordBytes v) (bankStore · a v)
      else
        let w := (rd s a &&& ~~~m) ||| (v &&& m)
        if mirroredReg a then mirrored s false a (wordBytes w) (wr · a w) else wr s a w) s
    setChz s fun c => { c with reload := none }
  | none => s

/-- The CHANNELIZER region loaded while running is written and all four quads restart; the tail of the frame before is
cut (R132, R401). -/
def reloadApply (s : State) (f : Nat) : State :=
  match s.chz.reload with
  | some _ =>
    let s := setChz (reloadWrite s) fun c => { c with confs := c.confs.map fun (g, k) => (g, { k with cut := 0xF }) }
    (List.range 4).foldl (fun s q => if (s.chz.quadStart.find q).isSome then quadStartAt s f q else s) s
  | none => s

/-- The frame at the latch point is recorded, and the first one fixes the seed (R431). -/
def ydxLatch (s : State) (f : Nat) : State :=
  if getF s F.YDX_STATUS_STATE = 2 ∧ s.ydx.first ≤ f ∧ f < s.ydx.first + s.ydx.count then
    let k := f - s.ydx.first
    let y := s.ydx
    let y := if k = 0 then { y with
        seedId := getPair s R.STR_IMAGE_ID_LO
        seedArrays := s.arrays.filter fun e => e.1 / 2 ^ 32 == Arr.gain.id
        seedRegs := s.regs.filter fun e => (bankOf e.1).isSome } else y
    let seed := if k = 0 then { s.ydxSeed with epochs := (List.range 4).map fun q => s.epochs.get 0 (5 + q) } else s.ydxSeed
    { s with ydx := { y with frames := y.frames.put k ⟨s.chz.confs.find f, [], 0, 0, false, 0⟩ }, ydxSeed := seed }
  else s

/-- The latch point of frame `f`: region reload, mode, switch, RUN, quads, models and settings, in this order, each
chain atomically (R108, R123, R124, R126, R130, R131, R401). A frame that a step jumped over, the one it landed in among
them, is not processed, so that what was armed for it waits for the first frame after the step (R29, R483); a frame that
a step back repeats is latched once. -/
def modelLatch (s : State) (f : Nat) : State :=
  let s := advanceTo s (latchPoint f)
  if frameOf s ≠ f ∨ ¬ latchPassed s f ∨ jumpedOver s f = true ∨ (s.chz.modes.any (f ≤ ·.1)) = true then s
  else
    let s := reloadApply s f
    let s := runFollow (switchApply (modeApply s f) f) f
    let s := (List.range 4).foldl (fun s q => quadLatch s f q) s
    let s := (List.range 64).foldl (fun s i =>
      if (s.chz.quadStart.find (i / 16)).isSome ∧ ¬ replaying s then latchModel s f i else s) s
    let s := setF s F.CHZ_STATUS_RUNNING (quadBits fun q => (s.chz.quadStart.find q).isSome)
    let s := setF s F.CHZ_STATUS_FILL (quadBits fun q => s.chz.quadStart.find q == some f)
    let s := setChz s fun c => { c with
      confs := (c.confs.put f (confFor s f)).drop (· + 4 + s.ydx.pace < f)
      modes := (c.modes.put f (confFor s f).cal8).drop (· + 1024 + 4 * (spanLen s * integLen s) < f) }
    ydxLatch s f

/-! ## Spectra (R111 to R122, R127) -/

/-- Coefficient `j` of ROM prototype `r` (R116): number 5 is a single tap. -/
def prototype (r j : Nat) : Int :=
  if r = 5 then if 57344 ≤ j then 32767 else 0 else (Config.filterRom r j).toInt

/-- Coefficient `j` of filter selection `sel` (R116). -/
def filterCoef (s : State) (sel j : Nat) : Int :=
  if sel = 8 then toSigned 16 (bitsOf (getR s (0x420000 + 4 * (j / 2))) (16 * (j % 2) + 15) (16 * (j % 2)))
  else prototype sel j

/-- Resampled sample of signal `i` at offset `u` from the start of frame `f`; offsets below 0 lie in the frame before.
Samples before the quad's start are zero (R113, R130), and so are those of a frame that a step jumped over, which is not
processed (R29). -/
def resampledAt (s : State) (i f : Nat) (u : Int) : Int :=
  let start := ((s.chz.confs.find f).map fun c => c.starts.getD (i / 16) 0).getD 0
  let x : Int → Int := fun v =>
    let g := if 0 ≤ v then f else prevFrame s f
    let o := if 0 ≤ v then v else v + 2 ^ 21
    if g < start ∨ (v < 0 ∧ f ≤ start) ∨ o < 0 then 0 else (readPoint s i g o.toNat).1
  let g := if 0 ≤ u then f else prevFrame s f
  let o := (if 0 ≤ u then u else u + 2 ^ 21).toNat
  if u < 0 ∧ f ≤ start then 0
  else
    match s.chz.confs.find g with
    | none => 0
    | some c => match c.models.getD i none with
      | some (off, m) =>
        let d := delayAt m (o + off * 2 ^ 21)
        resample x u d.1 d.2.1
      | none => resample x u 0 0

/-- The delay of signal `i` was clamped in some output sample of spectrum `k` of frame `f` (R112). -/
def clampedIn (s : State) (i f k : Nat) : Bool :=
  match (s.chz.confs.find f).bind fun c => c.models.getD i none with
  | some (off, m) => (List.range 8192).any fun b => (delayAt m (8192 * k + b + off * 2 ^ 21)).2.2
  | none => false

/-- The bytes of spectrum `k` of frame `f` of signal `i`, with its counts (R111 to R122). -/
def chainSpectrum (s : State) (c : FrameConf) (i f k : Nat) : List Byte × SigCount :=
  let q := i / 16
  let y : Array Int := (Array.range 8192).map fun b =>
    frontEnd (filterCoef s (c.filters.getD q 0)) (resampledAt s i f) (8192 * k) b
  let (x, sats) := realFft c.fftMask fun n => y.getD n 0
  let t := min 47 (getF s (if c.gainBank = 0 then F.CHZ_SHIFT_B0_SHIFT i else F.CHZ_SHIFT_B1_SHIFT i))
  let outs := (List.range 4096).map fun ch =>
    let v := x.getD ch ⟨0, 0⟩
    let (v, n) := match c.models.getD i none with
      | some (off, m) => if bitOf c.fringeEn q then rotate m (k + off * 256) ch v else (v, 0)
      | none => if bitOf c.fringeEn q then rotate ⟨0, 0, 0, 0, 0, 0, 0, 0⟩ k ch v else (v, 0)
    let gain := (arrGet s .gain (quadDomain i) (c.gainBank * 2 ^ 18 + 4096 * i + ch)).toNat
    let (bs, clips) := requantize c.cal8 (toSigned 16 (gain / 2 ^ 16)) (toSigned 16 gain) t v
    (bs, n, clips)
  let sats := sats.add 13 (outs.map fun o => o.2.1).sum
  ((outs.map (·.1)).flatten, ⟨sats.count, sats.stages, (outs.map fun o => o.2.2).sum, false⟩)

/-- Add the counts of a spectrum to those of its frame. -/
def SigCount.plus (a b : SigCount) : SigCount :=
  ⟨a.ovf + b.ovf, a.stages ||| b.stages, a.clip + b.clip, a.clamp || b.clamp⟩

/-- A clamp of the delay in spectrum `k` of signal `i` is flagged, whether or not the signal is enabled (R112). -/
def clampFlag (s : State) (i f k : Nat) : State :=
  if clampedIn s i f k then
    setPairB (setChz s fun z => { z with counts := z.counts.upd {} (64 * f + i) (·.plus { clamp := true }) }) R.CHZ_CLAMP_LO i true
  else s

/-- Spectrum `k` of frame `f` of signal `i` leaves its chain; `late` names the quads that missed their point (R127,
R132, R136). A disabled signal, whose spectra are zero, counts no saturation and no clip (DESIGN CHOICE, log entry 55). -/
def signalSpectrum (s : State) (c : FrameConf) (late : Nat) (i f k : Nat) : State × List Byte :=
  let zero := List.replicate (if c.cal8 then 8192 else 4096) (0 : Byte)
  let q := i / 16
  if ¬ bitOf c.running q ∨ bitOf c.cut q ∨ ¬ domOn s (5 + q) then (s, zero)
  else if bitOf late q ∨ ¬ bitOf c.sigEn i then (clampFlag s i f k, zero)
  else
    let (bs, n) := chainSpectrum s c i f k
    let s := clampFlag (setChz s fun z => { z with counts := z.counts.upd {} (64 * f + i) (·.plus n) }) i f k
    let s := if 0 < n.ovf then setPairB s R.CHZ_OVF_FLAG_LO i true else s
    let s := if 0 < n.clip then setPairB s R.CHZ_CLIP_FLAG_LO i true else s
    (s, bs)

/-- The channelizer validity bit of signal `i` for output frame `f` (R128). -/
def chzValidBit (s : State) (c : FrameConf) (i f : Nat) : Bool :=
  let q := i / 16
  let g := prevFrame s f
  bitOf c.sigEn i && bitOf (inputValid s g) i && bitOf (inputValid s f) i &&
    !lateInput s g (i / 4) && !lateInput s f (i / 4) && !(s.chz.counts.get {} (64 * f + i)).clamp &&
    (c.models.getD i none).any (fun m => m.1 ≤ 8) && bitOf c.running q && c.starts.getD q 0 != f &&
    !bitOf c.cut q && !((f, q) ∈ s.chz.overruns : Bool)

/-- The last spectrum of frame `f` has left: validity and statistics of the frame show, all together (R119, R122,
R129). -/
def frameDone (s : State) (c : FrameConf) (f : Nat) : State :=
  let v := packBits ((List.range 64).map fun i => chzValidBit s c i f)
  let s := setChz s fun z => { z with valid := (z.valid.put f v).drop (· + 1024 < f) }
  let s := setPair (setPair s R.CHZ_VALID_LO v) R.CHZ_VALID_FRAME_LO f
  let s := (List.range 64).foldl (fun s i =>
    let n := s.chz.counts.get {} (64 * f + i)
    let s := setF (setF s (F.CHZ_OVF_COUNT i) (min n.ovf 0xFFFF)) (F.CHZ_OVF_STAGES i) n.stages
    setF s (F.CHZ_CLIP_COUNT i) n.clip) s
  let s := setPair s R.CHZ_STAT_FRAME_LO f
  setChz s fun z => { z with
    counts := z.counts.drop (· / 64 ≤ f), late := z.late.filter (f ≤ ·.2), overruns := z.overruns.filter (f < ·.1) }

/-- The counter value at which spectrum `k` of frame `f` has left the channelizer (R135). -/
def spectrumOutAt (f k : Nat) : Nat := frameStart f + 8192 * k + 8191 + 147456

/-- Spectrum `k` of output frame `f` leaves the channelizer (R127 to R136); `late` names quads whose pipeline missed
its point. -/
def chzSpectrum (s : State) (f k late : Nat) : State :=
  match s.chz.confs.find f with
  | none => s
  | some c =>
    let s := (List.range 4).foldl (fun s q =>
      if bitOf c.running q ∧ (bitOf c.cut q ∨ bitOf late q ∨ ¬ domOn s (5 + q)) then
        let s := setB s R.CHZ_STATUS (12 + q) true
        setChz (bump s R.CHZ_OVERRUN_COUNT) fun z => { z with overruns := (f, q) :: z.overruns }
      else s) s
    let (s, out) := (List.range 64).foldl (fun (p : State × List Byte) i =>
      let r := signalSpectrum p.1 c late i f k
      (r.1, p.2 ++ r.2)) (s, [])
    let s := setChz s fun z => { z with output := z.output.put (256 * f + k) out }
    if k = 255 then frameDone s c f else s

/-! ## The commands -/

/-- MODEL_LATCH. -/
def execModelLatch (frame : Nat) (s : State) : Res := run (modelLatch · frame) s

/-- An address in the address space of the master with code `m`: a Beryl core's own is the word address in its window onto DRAM,
the weight store or BAR 0 (R271, R389). -/
def ownAddress (m target a : Nat) : Nat :=
  if m < 2 ∨ 5 < m then a
  else if target = 0 then 0x400000 + a % 2 ^ 24 / 4
  else (if target = 4 then 0x800000 else 0xC00000) + a % 2 ^ 20 / 4

/-- One error response is recorded and counted (R375, R389). -/
def busErrorOnce (s : State) (m : Nat) (target kind addr : Nat) (write : Bool) : State :=
  let s := wr s R.MTX_ERR_INFO
    (BitVec.ofNat 32 (kind * 2 ^ 28 + m * 2 ^ 24 + target * 2 ^ 20 + ofBool write))
  bump (setPair s R.MTX_ERR_ADDR_LO (ownAddress m target addr)) R.MTX_ERR_COUNT

/-- A request of master `m` gets an error response (R375). The supervisor and the timekeeper try once more; the second
error is noted as FW_ERROR and fails the mailbox command in progress; the twin snapshot engine abandons the snapshot (R376,
R467). -/
def busError (s : State) (m : Nat) (target kind addr : Nat) (write : Bool) : State :=
  let s := busErrorOnce s m target kind addr write
  if m ≤ 1 then requestFails (fault (busErrorOnce s m target kind addr write) 24)
  else if m = 8 then { s with twin := { s.twin with abandoned := true } }
  else s

/-- The code of a master (R371). -/
def masterCode : Master → Nat
  | .supervisor => 0 | .timekeeper => 1 | .beryl k => 2 + k | .host => 6 | .dma => 7 | .twin => 8 | .debug => 9

/-- A write gets an error response: a host's write is dropped and no error reported (R375, R376). -/
def writeError (s : State) (m : Master) (target kind addr : Nat) : State :=
  let t := busError s (masterCode m) target kind addr true
  if m = .host then t else emit t (.errorResponse m addr)

/-- A write by a master into an array of domain `d`: an error response while the domain is not ON (R445, R449). -/
def arrayAccess (s : State) (m : Master) (d target addr : Nat) (f : State → State) : State :=
  if domOn s d then f s
  else writeError s m target 2 addr

/-- MODEL_TABLE_WRITE (R109, R461). -/
def execModelTableWrite (m : Master) (i : Fin 64) (slot : Fin 4) (w : Fin 16) (v : Word) (s : State) : Res :=
  runBy m (fun s =>
    let a := 0x410000 + 64 * (4 * i.val + slot) + 4 * w
    arrayAccess s m (quadDomain i) 2 a fun s => mirrored s false a (wordBytes v) (modelWrite · i slot w v)) s

/-- CHZ_SWITCH_ARM (R124, R461). -/
def execChzSwitchArm (m : Master) (high : BitVec 16) (s : State) : Res :=
  runBy m (fun s => mirrored s false R.CHZ_SWITCH_FRAME_HI (wordBytes (high.setWidth 32))
    (switchArm · (high.setWidth 32))) s

/-- CHZ_MODE_ARM (R123, R461). -/
def execChzModeArm (m : Master) (high : BitVec 16) (s : State) : Res :=
  runBy m (fun s => mirrored s false R.CHZ_MODE_FRAME_HI (wordBytes (high.setWidth 32))
    (modeArm · (high.setWidth 32))) s

/-- The domain an address of a bank lies in: the quad's for a gain entry, PD_0 for the others (R445). -/
def bankDomain (a : Nat) : Nat :=
  if 0x600000 ≤ a ∧ a < 0x800000 then 5 + (a - 0x600000) % 0x100000 / 4 / 4096 / 16 else 0

/-- GAIN_BANK_WRITE (R125, R461). -/
def execGainBankWrite (m : Master) (addr : BitVec 26) (v : Word) (s : State) : Res :=
  runBy m (fun s =>
    let a := addr.toNat / 4 * 4
    if (bankOf a).isSome then
      arrayAccess s m (bankDomain a) 2 a (bankMirrored · a v)
    else s) s

/-- CHZ_RUN_WRITE: the quads start or stop at the next latch point (R130, R131). -/
def execChzRunWrite (quads : BitVec 4) (s : State) : Res := run (setF · F.CHZ_CTRL_RUN quads.toNat) s

end Sys2Proof.Machine
end

