-- ==== Sys2Proof/Machine/Xr.lean ====
section
/-! DEFINITION. The crossroads exchange: geometry, routes, queues, acceptance, validity, links and the span store
(R138 to R169). -/

namespace Sys2Proof.Machine

/-! ## Geometry and routes (R138 to R142) -/

/-- Columns of the domain. -/
def xrCols (s : State) : Nat := getF s F.XR_GEOMETRY_COLS

/-- Chips of the domain (R138). -/
def xrChips (s : State) : Nat := getF s F.XR_GEOMETRY_ROWS * xrCols s

/-- Signals of the domain, D (R138). -/
def domainSignals (s : State) : Nat := 64 * xrChips s

/-- The slice chip `c` owns (R139). -/
def sliceOf (s : State) (c : Nat) : Nat := bitsOf (getR s (R.XR_SLICE (c / 4))) (8 * (c % 4) + 5) (8 * (c % 4))

/-- ROW_LINK of column `j` (R141). -/
def rowLink (s : State) (j : Nat) : Nat :=
  if j < 8 then bitsOf (getR s R.XR_ROW_LINK_0) (4 * j + 3) (4 * j)
  else bitsOf (getR s R.XR_ROW_LINK_1) (4 * (j - 8) + 3) (4 * (j - 8))

/-- COL_LINK of row `i` (R141). -/
def colLink (s : State) (i : Nat) : Nat := bitsOf (getR s R.XR_COL_LINK) (4 * i + 3) (4 * i)

/-- The next hop of a packet that chip `d` owns: its stage and link, or none where this chip owns it (R142). -/
def nextHop (s : State) (d : Nat) : Option (Nat × Nat) :=
  let cols := xrCols s
  let me := chipNo s
  if d % cols ≠ me % cols then some (1, rowLink s (d % cols))
  else if d / cols ≠ me / cols then some (2, colLink s (d / cols))
  else none

/-- Packets per stream and frame (R143). -/
def streamPackets (cal8 : Bool) : Nat := if cal8 then 256 else 128

/-- Symbol slots that link `k`'s scheduled load takes per frame (R147). -/
def linkLoad (s : State) (cal8 : Bool) (k : Nat) : Nat :=
  if (List.range 15).any (fun j => rowLink s j == k) then getF s F.XR_GEOMETRY_ROWS * streamPackets cal8 * 8242
  else if (List.range 8).any (fun i => colLink s i == k) then xrCols s * streamPackets cal8 * 8242
  else 0

/-- Symbol slots of one lane per frame (R147). -/
abbrev laneSlots : Nat := 8910720

/-- A load exceeds 96% of the slots (R147). -/
def overLoad (load slots : Nat) : Bool := 96 * slots < 100 * load

/-- The symbol slots of exchange link `k`: those of one lane in twin split mode and while it is narrowed, else of two
(R147). -/
def linkSlots (s : State) (k : Nat) : Nat :=
  if twinSplit s || (xlink s k).keep.isSome then laneSlots else 2 * laneSlots

/-- The scheduled load of link `k` in 0.1% of its slots, rounded down (R147, R168; the rounding is a DESIGN CHOICE, log entry
55). -/
def linkPermille (s : State) (cal8 : Bool) (k : Nat) : Nat := 1000 * linkLoad s cal8 k / linkSlots s k

/-- The link with the highest scheduled load as a share of its slots, and that load (R147, R168). The spec does not say which
link shows on a tie: the lowest (DESIGN CHOICE, log entry 55). PERMILLE has 10 bits: a load of more than 102.3% reads
1,023, on which the spec is silent (DESIGN CHOICE, log entry 55). -/
def xrLoadWord (s : State) (cal8 : Bool) : Nat :=
  let best := (List.range 14).foldl (fun b k => if linkPermille s cal8 b < linkPermille s cal8 k then k else b) 0
  best * 2 ^ 10 + min 1023 (linkPermille s cal8 best)

/-! ## Frames in work -/

/-- Frame `f` is one of those the data path processes: F0 on, before FS, not jumped over (R24, R25, R29). -/
def inRun (s : State) (f : Nat) : Bool :=
  s.arch.running && s.arch.startFrame ≤ f && s.arch.stopFrame.all (f < ·) && !jumpedOver s f

/-- The crossroads processes frame `f`: once EN is clear and it has stopped, no frame from the stop on, until EN is set again
(R169). -/
def xrRuns (s : State) (f : Nat) : Bool := inRun s f && s.xr.stopAt.all (f < ·) && domOn s 23

/-- The pending mode change takes effect by frame `f`, which is not latched yet: from its own frame on, or, where a step jumped
over that, from the first later frame that begins an integration and is not jumped over (R123, R483). -/
def modeDue (s : State) (g f : Nat) : Bool :=
  let h := f / (spanLen s * integLen s) * (spanLen s * integLen s)
  if jumpedOver s g then g < h && !jumpedOver s h else g ≤ f

/-- Calibration mode in force for frame `f` (R123): as latched. A frame that was never latched, jumped over by a step, has the
mode of the last frame latched before it, since a change waits for the first integration after the step (R483); for a frame
still to come the pending change and the mode in force say. -/
def cal8Of (s : State) (f : Nat) : Bool :=
  match s.chz.modes.find f with
  | some m => m
  | none =>
    let now := flag s F.CHZ_MODE_CAL8
    if s.chz.modes.any (f < ·.1) then ((s.chz.modes.filter (·.1 < f)).getLast?.map (·.2)).getD now
    else match s.chz.pendMode with
      | some (g, m) => if modeDue s g f then m else now
      | none => now

/-- Change the crossroads' hidden state. -/
def setXr (s : State) (f : Xr → Xr) : State := { s with xr := f s.xr }

/-! ## Span store (R163 to R167) -/

/-- The slots whose state goes with span `n`: the one that holds it, and one chosen for it before a STOP and a START within
the span (R163; log entry 55). -/
def spanSlots (s : State) (n : Nat) : List Nat :=
  (List.range 4).filter fun k =>
    (s.xr.slotSpan.find k == some n || s.xr.former.find k == some n) && getF s (F.XR_SLOT_STATE k) != 0

/-- The slot that holds span `n`. -/
def slotOf (s : State) (n : Nat) : Option Nat :=
  (List.range 4).find? fun k => s.xr.slotSpan.find k == some n && getF s (F.XR_SLOT_STATE k) != 0

/-- DRAM byte address of spectrum `k` of frame `f`, local channel `c`, domain signal `p` in slot `slot` (R164). -/
def spanAddr (s : State) (slot f c k p : Nat) (cal8 : Bool) : Nat :=
  let n := spanLen s
  getPair s R.XR_SPAN_BASE_LO + slot * (getF s F.XR_SLOT_SIZE_MIB * 2 ^ 20) +
    (c * n * 256 + f % n * 256 + k) * 4096 + (if cal8 then 2 * p else p)

/-- The span writer stores the samples of a packet: `data` by spectrum, then channel, then signal (R164, R167). -/
def spanWrite (s : State) (f spec count src : Nat) (cal8 : Bool) (data : List Byte) : State :=
  match slotOf s (f / spanLen s) with
  | none => s
  | some slot =>
    let w := if cal8 then 128 else 64
    (List.range (64 * count)).foldl (fun s i =>
      unitWrite s 1 (spanAddr s slot f (i % 64) (spec + i / 64) (64 * src) cal8) ((data.drop (i * w)).take w)) s

/-- Slot `k` takes state `st` (R163). -/
def setSlotState (s : State) (k st : Nat) : State := setF s (F.XR_SLOT_STATE k) st

/-- A slot that holds the first frames of span `n`, from a run before, takes no more of it; its validity record stays with it
(R164 to R166; log entry 55). -/
def slotLeave (s : State) (n : Nat) : State :=
  let of (f : Nat) : Bool := f / spanLen s == n
  match s.xr.slotSpan.find? (·.2 == n) with
  | some (k, _) => setXr s fun x => { x with
      slotSpan := x.slotSpan.drop (· == k)
      former := x.former.put k n
      formerValid := x.formerValid.put k (x.valid.filter fun e => of e.1)
      valid := x.valid.drop of }
  | none => setXr s fun x => { x with valid := x.valid.drop of }

/-- The span writer chooses the slot of span `n`; frames of the span before START's have their bits clear (R164, R165). -/
def chooseSlot (s : State) (n : Nat) : State :=
  let first := match s.xr.lastSlot with
    | some k => k + 1
    | none => 0
  let s := setXr s fun x => { x with lastSpan := some n }
  match ((List.range 4).map fun i => (first + i) % 4).find? fun k =>
      (getF s (F.XR_SLOT_STATE k) == 0 || getF s (F.XR_SLOT_STATE k) == 3) && !flag s (F.XR_SLOT_HELD k) with
  | some k =>
    let old := s.xr.slotSpan.find k
    let s := setXr (slotLeave s n) fun x => { x with
      lastSlot := some k
      slotSpan := x.slotSpan.put k n
      former := x.former.drop (· == k)
      formerValid := x.formerValid.drop (· == k)
      valid := x.valid.drop fun f => old == some (f / spanLen s) }
    setF (setSlotState s k 1) (F.XR_SLOT_SPAN k) (n % 2 ^ 28)
  | none => setF (bump (slotLeave s n) R.XR_NO_SLOT_COUNT) F.XR_STATUS_NO_SLOT 1

/-- Every slot is FREE with HELD clear and no validity record is kept: a structure load (R163), or PD_23 back ON. -/
def freeSlots (s : State) : State :=
  let s := (List.range 4).foldl (fun s k => setR s (R.XR_SLOT k) 0) s
  setXr s fun x => { x with lastSlot := none, slotSpan := [], former := [], formerValid := [], valid := [] }

/-! ## Losses (R152) -/

/-- A loss joins `XR_LAST_LOSS` if it is the latest by date, then source, then spectrum. -/
def recordLoss (s : State) (l : Loss) : State :=
  let s := setF s F.XR_STATUS_LOSS 1
  if s.xr.lastLoss.any fun (d, src, spec) =>
      l.date < d || (l.date == d && (l.src < src || (l.src == src && l.spec < spec))) then s
  else
    let s := setR s R.XR_LAST_LOSS (l.src % 64 * 2 ^ 26 + l.dst % 64 * 2 ^ 20 + l.reason * 2 ^ 16 + l.spec * 2 ^ 8)
    setXr (setPair s R.XR_LAST_LOSS_FRAME_LO l.frame) fun x => { x with lastLoss := some (l.date, l.src, l.spec) }

/-! ## Acceptance (R148 to R152, R161) -/

/-- The header agrees with R143, the local geometry, the link it came on and the modes (R151, check 1). -/
def xchHeaderOk (s : State) (k : Nat) (f : RxFrame) : Bool :=
  let src := frByte f 4
  let dst := frByte f 5
  let frame := frField f 8 6
  let cal8 := cal8Of s frame
  let cols := xrCols s
  let me := chipNo s
  src < xrChips s && dst < xrChips s && src != me &&
  (if frByte f 6 = 1 then src / cols == me / cols && rowLink s (src % cols) == k
    else frByte f 6 == 2 && src / cols != me / cols && colLink s (src / cols) == k) &&
  ((frByte f 7 != 0) == twinSplit s) &&
  (if cal8 then frByte f 15 == 0 else frByte f 14 % 2 == 0 && frByte f 15 == 1) &&
  frField f 16 2 == 64 * src && frField f 18 2 == 64 &&
  frField f 20 2 == 64 * sliceOf s dst && frField f 22 2 == 64 &&
  frField f 24 4 == (frame * 256 + frByte f 14) % 2 ^ 32 &&
  frByte f 28 % 4 == (if cal8 then 3 else 2)

/-- A packet failed a check: it is dropped. The loss is recorded at once, unless another copy may still come (R152,
R161). -/
def dropPacket (s : State) (f : RxFrame) (reason : Nat) : State :=
  let l : Loss := ⟨frField f 8 6, frByte f 4, frByte f 14, frByte f 5, s.counter.toNat, reason⟩
  let s := setXr s fun x => { x with losses := l :: x.losses }
  if twinSplit s ∧ reason ≠ 4 ∧ reason ≠ 5 then s else recordLoss s l

/-- The packet enters the transmit queue of link `k` (R145). -/
def enqueue (s : State) (k : Nat) (p : Packet) : State :=
  setXr s fun x => { x with queues := x.queues.upd [] k (· ++ [p]) }

/-- An XCH frame of link `k` that passed R81 (R148 to R151). `full`: the span writer's buffer has no room, which it can
have only while memory panic lasts (R152). A chip that does not emit the frame forwards none of its packets (R458, R464). `beam`
hands an accepted packet of this owner to the beam engines. -/
def xchReceive (s : State) (k : Nat) (f : RxFrame) (full : Bool)
    (beam : State → Nat → Nat → Nat → Nat → Nat → List Byte → State) : State :=
  let frame := frField f 8 6
  let src := frByte f 4
  let dst := frByte f 5
  let spec := frByte f 14
  let mine := dst == chipNo s
  let now := s.counter.toNat
  if ¬ xrRuns s frame then s
  else if ¬ xchHeaderOk s k f then dropPacket (bump s R.XR_FORMAT_ERR_COUNT) f 1
  else if ¬ mine ∧ ¬ (frByte f 6 = 1 ∧ dst % xrCols s = chipNo s % xrCols s) then
    dropPacket (bump s R.XR_MISROUTE_COUNT) f 2
  else if (frame, spec, src, dst) ∈ s.xr.accepted then
    bump s (if twinSplit s then R.XR_TWIN_DUP_COUNT else R.XR_FORMAT_ERR_COUNT)
  else if now < frameStart frame then dropPacket (bump s R.XR_EARLY_COUNT) f 3
  else if mine ∧ frameStart (frame + 3) ≤ now then
    dropPacket (bump (bump s R.XR_LATE_COUNT) (R.XR_XL_LATE_COUNT k)) f 4
  else if ¬ mine ∧ frameStart (frame + 2) ≤ now then
    dropPacket (bump (bump s R.XR_LATE_S1_COUNT) (R.XR_XL_LATE_COUNT k)) f 5
  else if mine ∧ full ∧ flag s F.MEM_STATUS_PANIC then dropPacket (bump s R.XR_WRITE_DROP_COUNT) f 6
  else
    let s := bump s (R.XR_XL_RX_COUNT k)
    let s := setXr s fun x => { x with accepted := (frame, spec, src, dst) :: x.accepted }
    let s := digestSum s (frame / spanLen s) 1 (frData f)
    if mine then
      let map := leNat ((frData f).take 8)
      let data := (frData f).drop 8
      let s := setXr s fun x => { x with
        got := x.got.upd (0, 2 ^ 64 - 1) (64 * frame + src) fun g => (g.1 + 1, g.2 &&& map) }
      let s := spanWrite s frame spec (frByte f 15 + 1) src (bitOf (frByte f 28) 0) data
      beam s frame spec (frByte f 15 + 1) src map data
    else
      match nextHop s dst with
      | some (stage, out) =>
        if emitsFrame s frame then enqueue s out ⟨(f.header.take 30).set 6 (BitVec.ofNat 8 stage), frData f⟩ else s
      | none => s

/-! ## Sending (R143 to R149, R160) -/

/-- Header bytes 0 to 29 of an XCH frame (R79, R88). -/
def xchHeader (len src dst stage pair frame spec cntM1 sigBase sigCount chBase chCount seq xflags : Nat) : List Byte :=
  leBytes 1 2 ++ leBytes 1 0x10 ++ leBytes 2 len ++ leBytes 1 src ++ leBytes 1 dst ++ leBytes 1 stage ++
    leBytes 1 pair ++ leBytes 6 frame ++ leBytes 1 spec ++ leBytes 1 cntM1 ++ leBytes 2 sigBase ++ leBytes 2 sigCount ++
    leBytes 2 chBase ++ leBytes 2 chCount ++ leBytes 4 seq ++ leBytes 1 xflags ++ leBytes 1 0

/-- The validity map a packet of frame `f` carries: a bit is clear if a cause of R128 is known by now (R143). -/
def mapNow (s : State) (c : FrameConf) (f : Nat) : Nat :=
  match s.chz.valid.find f with
  | some v => v
  | none =>
    let closed := replaying s || (s.ingestValid.find f).isSome
    let t := if closed then s else { s with ingestValid := s.ingestValid.put f (2 ^ 64 - 1) }
    packBits ((List.range 64).map fun i => chzValidBit t c i f)

/-- The samples of owner slice `sl` in spectra `spec` to `spec + count − 1` of frame `f`, by spectrum, channel, signal
(R89). -/
def sliceSamples (s : State) (f spec count sl : Nat) (cal8 : Bool) : List Byte :=
  let w := if cal8 then 2 else 1
  (List.range count).flatMap fun j =>
    let out := (s.chz.output.get [] (256 * f + spec + j)).toArray
    (List.range 64).flatMap fun c =>
      (List.range 64).flatMap fun i =>
        (List.range w).map fun b => out.getD ((4096 * i + 64 * sl + c) * w + b) 0

/-- The packets that begin at spectrum `spec` of frame `f` are ready: one for each other owner, in ascending order, to
the link queues, and the chip's own slice by the internal path (R143, R145, R146). -/
def packetsReady (s : State) (f spec count : Nat)
    (beam : State → Nat → Nat → Nat → Nat → Nat → List Byte → State) : State :=
  match s.chz.confs.find f with
  | none => s
  | some c =>
    let me := chipNo s
    let map := mapNow s c f
    let seq := (f * 256 + spec) % 2 ^ 32
    let s := (List.range (xrChips s)).foldl (fun s d =>
      let data := sliceSamples s f spec count (sliceOf s d) c.cal8
      if d = me then beam (spanWrite s f spec count me c.cal8 data) f spec count me map data
      else if ¬ emitsFrame s f then s
      else
        match nextHop s d with
        | some (stage, k) =>
          let header := xchHeader 8200 me d stage (getF s F.XR_CTRL_TWIN_PAIR) f spec (count - 1) (64 * me) 64
            (64 * sliceOf s d) 64 seq (if c.cal8 then 3 else 2)
          enqueue s k ⟨header, leBytes 8 map ++ data⟩
        | none => s) s
    setChz s fun z => { z with output := z.output.drop fun key => key < 256 * f + spec + count }

/-- The deadline of a packet at its next receiver (R148, R149). -/
def nextDeadline (s : State) (p : Packet) : Nat :=
  let dst := leAt p.header 5 1
  let f := leAt p.header 8 6
  if leAt p.header 6 1 = 1 ∧ dst / xrCols s ≠ chipNo s / xrCols s then frameStart (f + 2) else frameStart (f + 3)

/-- The lanes each copy of a link's symbol stream goes out on: each lane of a twin split link alone, the kept lane of a
narrowed link, or both lanes of the bond, even symbols on the first (R156, R160). -/
def sendLanes (s : State) (k : Nat) : List (List Nat) :=
  if twinSplit s then (bondLanes s 3 k).map ([·])
  else match (xlink s k).keep with
    | some n => [[n]]
    | none => [bondLanes s 3 k]

/-- Send a frame on exchange link `k`. -/
def sendOnLink (s : State) (k : Nat) (header payload : List Byte) : State :=
  (sendLanes s k).foldl (fun s lanes => sendOn s lanes header payload) s

/-- The packet at the head of link `k`'s queue is sent or dropped; one of a frame that the chip emits no longer is not sent and
not counted (R149, R156, R458). -/
def queueHead (s : State) (k : Nat) : State :=
  match s.xr.queues.get [] k with
  | [] => s
  | p :: rest =>
    let s := setXr s fun x => { x with queues := if rest = [] then x.queues.drop (· == k) else x.queues.put k rest }
    let st := xlState s k
    if ¬ emitsFrame s (leAt p.header 8 6) then s
    else if (st = 1 ∨ st = 2) ∧ s.counter.toNat < nextDeadline s p then
      bump (sendOnLink s k p.header p.payload) (R.XR_XL_TX_COUNT k)
    else bump s R.XR_TX_DROP_COUNT

/-! ## Tick f + 3 (R152, R153, R155) -/

/-- The packets of frame `f` from chip `src` that were not accepted, by first spectrum. -/
def missingFrom (s : State) (f src : Nat) (cal8 : Bool) : List Nat :=
  ((List.range (streamPackets cal8)).map fun j => if cal8 then j else 2 * j).filter fun spec =>
    !((f, spec, src, chipNo s) ∈ s.xr.accepted : Bool)

/-- The post-exchange bits of frame `f`: 64 per chip, from the packets and the channelizer's own; none for a span that
is not stored (R153, R165). -/
def exchangeBits (s : State) (f : Nat) : Nat :=
  if (slotOf s (f / spanLen s)).isNone then 0
  else
    let cal8 := cal8Of s f
    ((List.range (xrChips s)).map fun c =>
      (if c = chipNo s then s.chz.valid.get 0 f
        else match s.xr.got.find (64 * f + c) with
          | some (n, map) => if n = streamPackets cal8 then map else 0
          | none => 0) * 2 ^ (64 * c)).sum

/-- The owner fixes frame `f`: the bits, their registers, the missing packets and the exchange-loss event once (R152,
R153, R155). -/
def exchangeFix (s : State) (f : Nat) : State :=
  let cal8 := cal8Of s f
  let missing := ((List.range (xrChips s)).filter (· ≠ chipNo s)).flatMap fun c =>
    (missingFrom s f c cal8).map fun spec => (c, spec)
  let s := missing.foldl (fun s (c, spec) =>
    match s.xr.losses.find? fun l => l.frame == f && l.src == c && l.spec == spec && l.dst == chipNo s with
    | some l => recordLoss s l
    | none => recordLoss s ⟨f, c, spec, chipNo s, frameStart (f + 3), 7⟩) s
  let s := bumpBy s R.XR_MISSING_COUNT missing.length
  let s := if missing = [] then s else fault (raise s 28) 12
  let bits := exchangeBits s f
  let s := (List.range 128).foldl (fun s m => setR s (R.XR_VALID m) (bits / 2 ^ (32 * m) % 2 ^ 32)) s
  let s := setPair s R.XR_VALID_FRAME_LO f
  setXr s fun x => { x with
    valid := if (slotOf s (f / spanLen s)).isSome then x.valid.put f bits else x.valid
    got := x.got.drop fun key => key / 64 ≤ f
    losses := x.losses.filter fun l => f < l.frame
    lastFixed := some f }

/-- Frame `f` is due to be fixed: tick f + 3 has come, and it was not fixed before (R153). -/
def fixDue (s : State) (f : Nat) : Bool :=
  inRun s f && domOn s 23 && f + 3 ≤ frameOf s && s.xr.lastFixed.all (· < f)

/-! ## The commands -/

/-- XCH_QUEUE_HEAD (R149). -/
def execXchQueueHead (k : Fin 14) (at' : Nat) (s : State) : Res := run (fun s => queueHead (advanceTo s at') k) s

/-- LINK_NARROW_DELAY_EXPIRY, that many µs after the bond left UP: `XR_NARROW_DELAY` of them, 0 taken as 1 (R157, R168; log
entry 58). -/
def execLinkNarrowDelayExpiry (e : Timed (Fin 14)) (s : State) : Res :=
  run (fun s =>
    let k := e.what
    if (xlink s k).delay ∧ max 1 (getF s F.XR_NARROW_DELAY_MICROSECONDS) ≤ e.time ∧ flag s F.XR_CTRL_NARROW_EN ∧ ¬ twinSplit s ∧
        ¬ overLoad (linkLoad s (flag s F.CHZ_MODE_CAL8) k) laneSlots then
      match (lanesOf s 3 k).find? fun n => flag s (F.LANE_STATUS_ALIGNED n) with
      | some n =>
        let s := narrowOnto s k n
        if linkState s n = 4 then linkUpdate (enter s n 5) k else s
      | none => setXlink s k fun l => { l with awaitAlign := true }
    else s) s

/-- The WIDEN bits: each narrowed link named returns to WIDE at the next frame tick (R158). -/
def setWiden (s : State) (bits : Nat) : State :=
  (List.range 14).foldl (fun s k =>
    if bitOf bits k ∧ (xlink s k).keep.isSome then setXlink s k fun l => { l with widen := true } else s) s

/-- XR_WIDEN_WRITE. -/
def execXrWidenWrite (bits : BitVec 14) (s : State) : Res := run (setWiden · bits.toNat) s

/-- LINK_WIDEN: both lanes are brought up afresh and bonded (R158). -/
def execLinkWiden (k : Fin 14) (s : State) : Res :=
  run (fun s =>
    if (xlink s k).widen then
      let s := (lanesOf s 3 k).foldl (fun s n => leave s n (startState s n) false) s
      let s := setXlink s k fun _ => {}
      linkUpdate ((lanesOf s 3 k).foldl (fun s n => bringUp s n) s) k
    else s) s

/-- SPAN_SLOT_CHOOSE: at tick s·S, or at tick F0 within a span, or at the first tick of a span whose first one was
jumped over (R164). -/
def execSpanSlotChoose (s : State) : Res :=
  run (fun s =>
    let n := frameOf s / spanLen s
    if inRun s (frameOf s) ∧ domOn s 23 ∧ s.xr.lastSpan ≠ some n then chooseSlot s n else s) s

/-- EN of `XR_CTRL`: set, the crossroads runs; cleared, it stops at the next frame tick (R169). -/
def setXrEnable (s : State) (en : Bool) : State :=
  let was := flag s F.XR_CTRL_EN
  let s := setF s F.XR_CTRL_EN (ofBool en)
  if en then setXr (setF s F.XR_STATUS_RUNNING 1) fun x => { x with stopAt := none }
  else if was then setXr s fun x => { x with stopAt := some (nextTick s) } else s

/-- XR_ENABLE_WRITE. -/
def execXrEnableWrite (en : Bool) (s : State) : Res := run (setXrEnable · en) s

end Sys2Proof.Machine
end

