-- ==== Sys2Proof/Machine/Product.lean ====
section
/-! DEFINITION. The 64-byte product header and flags common to all products (R210, R236). -/

namespace Sys2Proof.Machine

/-- A 64-byte product header: the fields of R210 in order, closed by its HCRC. `b56` is bytes 56–57. -/
def productHeader (s : State) (type seq channel firstFrame w26 w28 signals flags off1 off2 off3 len b56 : Nat)
    (stream : Nat) : List Byte :=
  let h := leBytes 4 0x5653584C ++ leBytes 1 type ++ leBytes 1 0x10 ++ leBytes 2 stream ++ leBytes 8 seq ++
    leBytes 1 (getF s F.XR_CTRL_TWIN_PAIR) ++ leBytes 1 (chipNo s) ++ leBytes 2 channel ++ leBytes 6 firstFrame ++
    leBytes 2 w26 ++ leBytes 2 w28 ++ leBytes 2 signals ++ leBytes 4 flags ++ leBytes 4 off1 ++ leBytes 4 off2 ++
    leBytes 4 off3 ++ leBytes 8 len ++ leBytes 2 b56 ++ leBytes 2 0
  h ++ leBytes 4 (crc32c h).toNat

/-- Pad to a multiple of 64 bytes with zeros. -/
def pad64 (bs : List Byte) : List Byte := bs ++ List.replicate ((64 - bs.length % 64) % 64) 0

/-- Frames `f` to `f + n − 1` hold a suppressed or repeated frame number (R29). -/
def timeStepIn (s : State) (f n : Nat) : Bool := s.arch.stepped.any fun r => r.1 < f + n && f ≤ r.2

end Sys2Proof.Machine
end

