-- ==== Sys2Proof/Machine/Bfm.lean ====
section
/-! DEFINITION. The beamformer: weight store, flips, input buffer, sums, relay, final beams and products (R220 to
R243). -/

namespace Sys2Proof.Machine

/-- Change the beamformer's hidden state. -/
def setBfm (s : State) (f : Bfm → Bfm) : State := { s with bfm := f s.bfm }

/-! ## Weight store and flips (R221 to R224) -/

/-- The beam of a byte offset in the weight store (R221). -/
def weightBeam (off : Nat) : Nat := off % 0x2000000 / 131072

/-- The power domain of a beam's half (R220). -/
def beamDomain (b : Nat) : Nat := if b < 128 then 21 else 22

/-- Active bank of beam `b`. -/
def activeBank (s : State) (b : Nat) : Nat := ofBool (getB s (R.BFM_BANK (b / 32)) (b % 32))

/-- The 256 bits of a group of eight registers. -/
def bits256 (s : State) (a : Nat) : Nat := ((List.range 8).map fun m => getR s (a + 4 * m) * 2 ^ (32 * m)).sum

/-- Set them. -/
def setBits256 (s : State) (a v : Nat) : State :=
  (List.range 8).foldl (fun s m => setR s (a + 4 * m) (v / 2 ^ (32 * m) % 2 ^ 32)) s

/-- Byte `off` of the weight store is protected: the active bank of its beam, or any bank of a beam whose pending flip's
frame F has F − 1 begun (R223). -/
def weightProtected (s : State) (off : Nat) : Bool :=
  let b := weightBeam off
  off / 0x2000000 == activeBank s b || s.bfm.flip.any fun (f, mask) => bitOf mask b && f ≤ nextTick s

/-- Store bytes in the weight store, disabled ones left out (R222). -/
def weightStore (s : State) (off : Nat) (bs : List (Option Byte)) : State :=
  bs.zipIdx.foldl (fun s (b, i) =>
    match b with
    | some v => arrSet s .weight (off + i) (v.setWidth 64)
    | none => s) s

/-- A write touches a protected byte (R223). -/
def weightTouches (s : State) (off : Nat) (bs : List (Option Byte)) : Bool :=
  bs.zipIdx.any fun (b, i) => b.isSome && weightProtected s (off + i)

/-- A write to the weight store: ignored as a whole, and counted once, if it touches a protected byte (R223). -/
def weightWrite (s : State) (off : Nat) (bs : List (Option Byte)) : State :=
  if weightTouches s off bs then bump s R.BFM_WRITE_REJECT_COUNT
  else weightStore s off bs

/-- A weight component: symmetric (R227). -/
def weightAt (s : State) (bank b g p part : Nat) : Int :=
  max (-127) (toSigned 8
    (arrGet s .weight (beamDomain b) (bank * 0x2000000 + ((b * 16 + g) * 4096 + p) * 2 + part)).toNat)

/-- A write of `BFM_FLIP_FRAME_HI`: arms the flip with the mask as it stands, or is refused with LATE (R224). -/
def flipArm (s : State) (high : Word) : State :=
  let s := writePairHigh s R.BFM_FLIP_FRAME_LO (high &&& 0xFFFF)
  let f := getPair s R.BFM_FLIP_FRAME_LO
  if f ≤ nextTick s then setF s F.BFM_FLIP_CTRL_LATE 1
  else setBfm (setF s F.BFM_FLIP_CTRL_ARMED 1) fun b => { b with flip := some (f, bits256 s (R.BFM_FLIP_MASK 0)) }

/-- At the tick of frame `f` a pending flip of `f`, or of a frame jumped over, takes effect; EPOCH arms it again (R224,
R483). EPOCH counts from the frame that was armed, also where a step jumped over it; where the same step passed the new
frame too, the flip after it takes effect at the next tick, one flip a tick (DESIGN CHOICE, log entry 55). -/
def weightFlip (s : State) (f : Nat) : State :=
  match s.bfm.flip with
  | some (g, mask) =>
    if g ≤ f then
      let banks := bits256 s (R.BFM_BANK 0)
      let s := setBits256 s (R.BFM_BANK 0) (banks ^^^ mask)
      let s := setPair s R.BFM_FLIP_DONE_LO f
      let epoch := getF s F.BFM_FLIP_CTRL_EPOCH
      let s := setF s F.BFM_FLIP_CTRL_ARMED (ofBool (epoch != 0))
      setBfm s fun b => { b with
        flip := if epoch = 0 then none else some (g + epoch, mask)
        before := (f, banks)
        flags := b.flags.upd 0 f (· ||| 2 ^ 6) }
    else s
  | none => s

/-- The bank beam `b` uses in frame `f`: the one before the last flip for frames before it (R224). -/
def bankFor (s : State) (f b : Nat) : Nat :=
  if f < s.bfm.before.1 then ofBool (bitOf s.bfm.before.2 b) else activeBank s b

/-! ## Input (R225) -/

/-- The beam point of spectrum `n` of frame `f`. -/
def beamPoint (f n : Nat) : Nat := frameStart f + 8192 * n + 417791

/-- The beamformer processes frame `f` (R24, R240). -/
def bfmRuns (s : State) (f : Nat) : Bool := flag s F.BFM_CTRL_EN && inRun s f

/-- A packet, or the chip's own spectra, enter the input buffer (R225). -/
def beamEnter (s : State) (f spec count src map : Nat) (data : List Byte) : State :=
  if ¬ bfmRuns s f ∨ cal8Of s f then s
  else
    let now := s.counter.toNat
    let last := f * 256 + spec + count - 1
    if beamPoint f spec < now then bump s R.BFM_LATE_COUNT
    else if (now + 8191 - 417791) / 8192 + 36 ≤ last then bump s R.BFM_EARLY_COUNT
    else setBfm s fun b => { b with
      buffer := (List.range count).foldl (fun m j =>
        SMap.put m (64 * (256 * f + spec + j) + src) ⟨map, (data.drop (4096 * j)).take 4096⟩) b.buffer }

/-- Signal `p` takes part in spectrum `n` of frame `f` (R226). -/
def beamTakes (s : State) (f n p : Nat) : Bool :=
  s.bfm.counts.get 0 (4096 * f + p) == n &&
    (s.bfm.buffer.find (64 * (256 * f + n) + p / 64)).any fun x => bitOf x.map (p % 64)

/-- The chip sum of one beam and channel over the samples taken (R227). -/
def chipSum (s : State) (f b c : Nat) (xs : List (Nat × Cpx)) : Int × Int :=
  let bank := bankFor s f b
  xs.foldl (fun a (p, x) =>
    let wr := weightAt s bank b (c / 4) p 0
    let wi := weightAt s bank b (c / 4) p 1
    (a.1 + (wr * x.re - wi * x.im), a.2 + (wr * x.im + wi * x.re))) (0, 0)

/-- The sample of signal `p` in local channel `c` of a buffered spectrum. -/
def beamSample (s : State) (f n c p : Nat) : Cpx :=
  let v := ((s.bfm.buffer.get ⟨0, []⟩ (64 * (256 * f + n) + p / 64)).data.getD (64 * c + p % 64) 0).toNat
  ⟨toSigned 4 (v / 16), toSigned 4 v⟩

/-- The halves that are on, bit 0 for PD_21. -/
def halvesOn (s : State) : Nat := packBits [domOn s 21, domOn s 22]

/-- A frame's flag bits are set. -/
def beamFlag (s : State) (f bits : Nat) : State :=
  setBfm s fun b => { b with flags := b.flags.upd 0 f (· ||| bits) }

/-- The beam point of a spectrum: who takes part, the counts, and the chip sums of the halves that are on (R226, R227,
R241). -/
def beamPointAct (s : State) (f n : Nat) : State :=
  let takes := (List.range (domainSignals s)).filter (beamTakes s f n)
  let sums := (List.range 64).flatMap fun c =>
    let xs := takes.map fun p => (p, beamSample s f n c p)
    (List.range 256).map fun b => if domOn s (beamDomain b) then chipSum s f b c xs else (0, 0)
  let s := if halvesOn s = 3 then s else beamFlag s f (2 ^ 7)
  setBfm s fun b => { b with
    counts := takes.foldl (fun m p => m.upd 0 (4096 * f + p) (· + 1)) b.counts
    sums := if halvesOn s = 0 then b.sums else b.sums.put (256 * f + n) sums
    buffer := b.buffer.drop fun key => key / 64 ≤ 256 * f + n
    lastPoint := some (256 * f + n) }

/-! ## Relay (R229 to R232) -/

/-- Chain position k and last position L − 1; 0 and 0 outside a chain. -/
def chainPos (s : State) : Nat × Nat :=
  if flag s F.BFM_CTRL_RELAY_EN then (getF s F.BFM_CTRL_CHAIN_POS, getF s F.BFM_CTRL_CHAIN_LAST) else (0, 0)

/-- RSH = ceil(log2 L) (R229). -/
def relayShift (s : State) : Nat :=
  let l := (chainPos s).2 + 1
  if l = 1 then 0 else if l = 2 then 1 else if l ≤ 4 then 2 else 3

/-- The send point of spectrum `n` of frame `f` at this chip (R231). -/
def sendPoint (s : State) (f n : Nat) : Nat := beamPoint f n + 8192 + (chainPos s).1 * 32768

/-- Entry `e` of a relay payload (R92). -/
def relayEntry (bs : List Byte) (e : Nat) : Int × Int :=
  (toSigned 24 (leAt bs (6 * e) 3), toSigned 24 (leAt bs (6 * e + 3) 3))

/-- A RELAY frame that passed R81: taken into the receive buffer, of 8 spectra, if it is of the position before and not
late (R231). -/
def relayReceive (s : State) (f : RxFrame) : State :=
  let frame := frField f 8 6
  let n := frByte f 14
  let o := (frField f 16 2 - 64 * sliceOf s (chipNo s)) / 8
  let key := 256 * frame + n
  let fits := (chainPos s).1 ≠ 0 ∧ frByte f 5 + 1 = (chainPos s).1 ∧ frByte f 6 = 0 ∧ frByte f 7 = 255 ∧
    frByte f 15 = 0 ∧ frByte f 18 = 8 ∧ frField f 16 2 = 64 * sliceOf s (chipNo s) + 8 * o ∧ o < 8
  if ¬ fits ∨ ¬ bfmRuns s frame ∨ cal8Of s frame ∨ domOn s 23 = false then s
  else
    let held := (s.bfm.relay.map fun e => e.1 / 8).eraseDups
    if sendPoint s frame n ≤ s.counter.toNat ∨ (key ∉ held ∧ 8 ≤ held.length) then bump s R.BFM_RELAY_LATE_COUNT
    else setBfm s fun b => { b with relay := b.relay.put (8 * key + o) (frData f) }

/-- The running sums of octet `o` of a spectrum, by channel of the octet, then beam; none where the upstream packet is
missing (R230, R231, R241). -/
def runningSum (s : State) (f n o : Nat) (p : Array (Int × Int)) : Option (List (Int × Int)) :=
  let rsh := relayShift s
  let own := fun i =>
    let v := p.getD (2048 * o + i) (0, 0)
    (rhu v.1 rsh, rhu v.2 rsh)
  let sum := fun (up : Nat → Int × Int) => (List.range 2048).map fun i =>
    if domOn s (beamDomain (i % 256)) then ((up i).1 + (own i).1, (up i).2 + (own i).2) else (0, 0)
  if (chainPos s).1 = 0 then some (sum fun _ => (0, 0))
  else (s.bfm.relay.find (8 * (256 * f + n) + o)).map fun bs => sum (relayEntry bs)

/-- Send octet `o` of a spectrum to the next position (R230). -/
def relaySend (s : State) (f n o : Nat) (sums : List (Int × Int)) : State :=
  let me := chipNo s
  let header := leBytes 1 5 ++ leBytes 1 0x10 ++ leBytes 2 12288 ++ leBytes 1 me ++ leBytes 1 (chainPos s).1 ++
    leBytes 1 0 ++ leBytes 1 255 ++ leBytes 6 f ++ leBytes 1 n ++ leBytes 1 0 ++
    leBytes 2 (64 * sliceOf s me + 8 * o) ++ leBytes 1 8 ++ leBytes 1 0 ++
    leBytes 4 (((f * 256 + n) * 8 + o) % 2 ^ 32) ++ leBytes 6 0
  let payload := sums.flatMap fun v => leBytes 3 (ofSigned 24 v.1) ++ leBytes 3 (ofSigned 24 v.2)
  let lanes := bondLanes s 4 0
  if lanes ≠ [] ∧ lanes.all (laneIsUp s) then sendOn (bump s R.BFM_RELAY_TX_COUNT) lanes header payload else s

/-! ## Final beams (R233, R234) -/

/-- MODE of beam `b`: 0 OFF, 1 VOLTAGE, 2 POWER; 3 acts as 0. -/
def beamMode (s : State) (b : Nat) : Nat := getF s (F.BFM_BEAM_MODE b) % 3

/-- Final requantization of one component (R233). -/
def beamQuant (t : Nat) (v : Int) : Int × Nat := clipSym 127 (rhu v t)

/-- The final values of one spectrum from its final sums, by channel, then beam, and the components clipped. -/
def finalBeams (s : State) (sums : List (Int × Int)) : List (Int × Int) × Nat :=
  let modes := ((List.range 256).map fun b => (beamMode s b, min 23 (getF s (F.BFM_BEAM_SHIFT b)))).toArray
  let vs := sums.zipIdx.map fun (v, i) =>
    let m := modes.getD (i % 256) (0, 0)
    if m.1 = 0 then ((0, 0), 0)
    else
      let r := beamQuant m.2 v.1
      let q := beamQuant m.2 v.2
      ((r.1, q.1), r.2 + q.2)
  (vs.map (·.1), (vs.map (·.2)).sum)

/-- Two components as 8+8 bytes (R14). -/
def bytes88 (v : Int × Int) : List Byte := [BitVec.ofInt 8 v.1, BitVec.ofInt 8 v.2]

/-- The lane of voltage stream `n` (R243). -/
def streamLane (n : Nat) : Nat := if n < 16 then n else 34 + n

/-- Channels per voltage packet: the largest power of two up to 64 with 2·C·COUNT ≤ 16,384 (R234). -/
def streamChannels (count : Nat) : Nat :=
  ((List.range 7).map fun i => 2 ^ (6 - i)).find? (fun c => 2 * c * count ≤ 16384) |>.getD 1

/-- The voltage packets of one spectrum leave (R234). -/
def voltageSend (s : State) (f n : Nat) (vs : Array (Int × Int)) : State :=
  if flag s F.BFM_CTRL_VOLT_DEST ∨ ¬ emitsFrame s f then s
  else (List.range 22).foldl (fun s k =>
    if flag s (F.BFM_VSTREAM_EN k) then
      let first := getF s (F.BFM_VSTREAM_FIRST_BEAM k)
      let count := getF s (F.BFM_VSTREAM_COUNT_M1 k) + 1
      let cs := streamChannels count
      (List.range (64 / cs)).foldl (fun s i =>
        let payload := (List.range cs).flatMap fun c => (List.range count).flatMap fun b =>
          bytes88 (vs.getD (256 * (i * cs + c) + first + b) (0, 0))
        let header := xchHeader payload.length (chipNo s) 0 0 (getF s F.XR_CTRL_TWIN_PAIR) f n 0 first count
          (64 * sliceOf s (chipNo s) + i * cs) cs (((f * 256 + n) * (64 / cs) + i) % 2 ^ 32) 1
        sendOn s [streamLane k] header payload) s
    else s) s

/-- The relay unit, which lies in PD_23, works; a chip outside a relay chain does without it (R229, R445, R449). -/
def relayWorks (s : State) : Bool := domOn s 23 || !flag s F.BFM_CTRL_RELAY_EN

/-- The send point of a spectrum: relay sums, or final beams with their gaps, clips and voltage packets (R230 to R234,
R241, R242). -/
def sendPointAct (s : State) (f n : Nat) : State :=
  let key := 256 * f + n
  let unfinished := (s.bfm.sums.find key).isNone
  let p := (s.bfm.sums.get [] key).toArray
  let (k, l) := chainPos s
  let s := if halvesOn s = 3 then s else beamFlag s f (2 ^ 7)
  let s := if unfinished then
      beamFlag (setF (bump s R.BFM_OVERRUN_COUNT) F.BFM_STATUS_OVERRUN 1) f (2 ^ 4)
    else s
  let octets := (List.range 8).map fun o => if relayWorks s then runningSum s f n o p else none
  let missing := if relayWorks s then octets.countP (·.isNone) else 0
  let s := if missing = 0 then s else setF (bumpBy s R.BFM_RELAY_MISS_COUNT missing) F.BFM_STATUS_RELAY_GAP 1
  let s := if k = 0 ∨ relayWorks s = false then s else bumpBy s R.BFM_RELAY_RX_COUNT (8 - missing)
  let gap := if unfinished then 0xFF else packBits (octets.map (·.isNone))
  let s := setBfm s fun b => { b with
    gap := if gap = 0 then b.gap else b.gap.put key gap
    sums := b.sums.drop (· ≤ key)
    relay := b.relay.drop (· / 8 ≤ key)
    lastSend := some key }
  if k < l then
    (octets.zipIdx.foldl (fun s (x, o) =>
      match x with
      | some sums => relaySend s f n o sums
      | none => s) s)
  else
    let sums := octets.zipIdx.flatMap fun (x, o) =>
      if bitOf gap o then List.replicate 2048 (0, 0) else x.getD (List.replicate 2048 (0, 0))
    let (vs, clips) := finalBeams s sums
    let s := if clips = 0 then s else beamFlag (setF (bumpBy s R.BFM_CLIP_COUNT clips) F.BFM_STATUS_CLIP 1) f 4
    let s := setBfm s fun b => { b with final := b.final.put key vs }
    let s := digestCrc s (f / spanLen s) 2
      ((vs.zipIdx.filter fun x => beamMode s (x.2 % 256) != 0).flatMap fun x => bytes88 x.1)
    voltageSend s f n vs.toArray

/-! ## Products (R235 to R241) -/

/-- Register addresses of staging ring `r`. -/
def ringFull (count head tail : Nat) : Bool := count == 0 || (head + 1) % count == tail

/-- A product goes to beam ring `r`, with BEAM_READY, or is dropped and counted (R235, R239). -/
def stageBeam (s : State) (f r : Nat) (bs : List Byte) : State :=
  let count := getR s (R.BFM_RING_COUNT r)
  let head := getR s (R.BFM_RING_HEAD r)
  let a := getPair s (R.BFM_RING_BASE_LO r) + head * getR s (R.BFM_RING_SLOT r) * 1024
  if ¬ emitsFrame s f then s
  else if ringFull count head (getR s (R.BFM_RING_TAIL r)) then
    fault (setF (bump s R.BFM_STAGE_DROP_COUNT) F.BFM_STATUS_STAGE_DROP 1) 14
  else
    let s := setR (unitWrite s 6 a bs) (R.BFM_RING_HEAD r) ((head + 1) % count)
    brlPendAll (raise s 5) 5

/-- The gap bitmap of a frame, one byte per spectrum (R237). -/
def gapBitmap (s : State) (f : Nat) : List Byte :=
  (List.range 256).map fun n => BitVec.ofNat 8 (s.bfm.gap.get 0 (256 * f + n))

/-- Bytes 56–57 of a beam product: CHAIN (R236). -/
def chainByte (s : State) : Nat := (chainPos s).1 + 8 * (chainPos s).2

/-- Count of signal `p` in frame `f`. -/
def beamCount (s : State) (f p : Nat) : Nat := s.bfm.counts.get 0 (4096 * f + p)

/-- FLAGS of the products of frames `f` to `f + k − 1` (R236). -/
def beamFlags (s : State) (f k : Nat) : Nat :=
  let fs := List.range' f k
  let or := fs.foldl (fun v g => v ||| s.bfm.flags.get 0 g) 0
  let gap := fs.any fun g => (List.range 256).any fun n => s.bfm.gap.get 0 (256 * g + n) != 0
  let excl := fs.any fun g => (List.range (domainSignals s)).any fun p => beamCount s g p != 256
  let cal := fs.any fun g => cal8Of s g
  or ||| ofBool gap ||| (ofBool excl * 2) ||| (ofBool (timeStepIn s f k) * 8) ||| (ofBool cal * 32)

/-- The header of a beam product. -/
def beamHeader (s : State) (type first frames spectra signals flags o1 o2 o3 len : Nat) : List Byte :=
  productHeader s type (first / frames) (64 * sliceOf s (chipNo s)) first frames spectra signals flags o1 o2 o3 len
    (chainByte s) (getF s F.BFM_STREAM_STREAM)

/-- The beam record of frame `f` (R237). -/
def beamRecord (s : State) (f flags : Nat) : List Byte :=
  let d := domainSignals s
  beamHeader s 4 f 1 1 d flags 64 (64 + 2 * d) (320 + 2 * d) 0 ++
    ((List.range d).flatMap fun p => leBytes 2 (beamCount s f p)) ++ gapBitmap s f ++
    leBytes (d / 8) (s.xr.valid.get 0 f)

/-- Beams of a mode, ascending. -/
def beamsOf (s : State) (mode : Nat) : List Nat := (List.range 256).filter fun b => beamMode s b == mode

/-- The final value of a spectrum (256 × frame + spectrum), channel and beam; zero where none was formed. -/
def finalValue (s : State) (key c b : Nat) : Int × Int := (s.bfm.final.get [] key).getD (256 * c + b) (0, 0)

/-- The staged voltage product of frame `f` (R238). -/
def voltageProduct (s : State) (f : Nat) : List Byte :=
  let beams := beamsOf s 1
  let payload := (List.range 256).flatMap fun n => (List.range 64).flatMap fun c =>
    beams.flatMap fun b => bytes88 (finalValue s (256 * f + n) c b)
  beamHeader s 3 f 1 1 beams.length (beamFlags s f 1) 64 0 320 payload.length ++ gapBitmap s f ++ payload

/-- K of the power products. -/
def powerK (s : State) : Nat := min 10 (getF s F.BFM_CTRL_POWER_K)

/-- Frames per power product (R233, R236). -/
def powerFrames (s : State) : Nat := max 1 (2 ^ (powerK s - 8))

/-- The power product of the frames from `f` on (R233, R238). -/
def powerProduct (s : State) (f : Nat) : List Byte :=
  let beams := beamsOf s 2
  let k := powerFrames s
  let sum := 2 ^ powerK s
  let payload := (List.range (256 * k / sum)).flatMap fun i => (List.range 64).flatMap fun c =>
    beams.flatMap fun b =>
      leBytes 4 (((List.range sum).map fun j =>
        let v := finalValue s (256 * f + sum * i + j) c b
        v.1 * v.1 + v.2 * v.2).sum).toNat
  beamHeader s 2 f k sum beams.length (beamFlags s f k) 64 0 (64 + 256 * k) payload.length ++
    ((List.range k).flatMap fun j => gapBitmap s (f + j)) ++ payload

/-- Tick f + 3: the beam record of frame `f` and the staged products that end with it (R239, R240). -/
def beamComplete (s : State) (f : Nat) : State :=
  if ¬ bfmRuns s f then s
  else
    let s := bumpBy s R.BFM_EXCLUDED_COUNT
      ((List.range (domainSignals s)).countP fun p => beamCount s f p != 256)
    let step := if s.bfm.stepped then 8 else 0
    let s := setBfm s fun b => { b with stepped := false }
    let s := if cal8Of s f = true ∧ halvesOn s ≠ 3 then beamFlag s f (2 ^ 7) else s
    let s := stageBeam s f 0 (beamRecord s f (beamFlags s f 1 ||| step))
    let (k, l) := chainPos s
    let last := k == l && !cal8Of s f
    let s := if last ∧ flag s F.BFM_CTRL_VOLT_DEST ∧ beamsOf s 1 ≠ [] then stageBeam s f 1 (voltageProduct s f) else s
    let n := powerFrames s
    let s := if last ∧ (f + 1) % n = 0 ∧ beamsOf s 2 ≠ [] then stageBeam s f 1 (powerProduct s (f + 1 - n)) else s
    let keep := if (f + 1) % n = 0 then f + 1 else f + 1 - (f + 1) % n
    setBfm s fun b => { b with
      final := b.final.drop (· / 256 < keep)
      gap := b.gap.drop (· / 256 < keep)
      flags := b.flags.drop (· < keep)
      counts := b.counts.drop (· / 4096 < keep) }

/-! ## The commands -/

/-- BEAM_POINT (R225 to R227, R240). -/
def execBeamPoint (f : Nat) (n : Fin 256) (s : State) : Res :=
  run (fun s =>
    let s := advanceTo s (beamPoint f n)
    if bfmRuns s f ∧ ¬ cal8Of s f ∧ beamPoint f n ≤ s.counter.toNat ∧ s.bfm.lastPoint.all (· < 256 * f + n) then
      beamPointAct s f n
    else s) s

/-- BFM_FLIP_ARM (R224, R461). -/
def execBfmFlipArm (m : Master) (high : BitVec 16) (s : State) : Res :=
  runBy m (fun s => mirrored s false R.BFM_FLIP_FRAME_HI (wordBytes (high.setWidth 32))
    (flipArm · (high.setWidth 32))) s

/-- A write of up to 64 bytes into the weight store by a master: refused with an error response while the half is off
(R222, R223, R449, R461). -/
def weightAccess (s : State) (m : Master) (off : Nat) (bs : List (Option Byte)) : State :=
  arrayAccess s m (beamDomain (weightBeam off)) 4 off fun s =>
    mirroredWrite s true off bs (!weightTouches s off bs) (weightWrite · off bs)

/-- RELAY_FRAME_RECEIVED (R231). -/
def execRelayFrameReceived (n : Fin 56) (f : RxFrame) (s : State) : Res :=
  run (fun s => receive s n 5 f fun s => relayReceive (countPayloadCv s n f) f) s

end Sys2Proof.Machine
end

