-- ==== Sys2Proof/Machine/BusRead.lean ====
section
/-! DEFINITION. Reads over the bus matrix: which target an address belongs to and who reaches it, what a register
shows, the read side effects, register pairs, the on-die arrays, the weight store and DRAM (R2, R7, R8, R9, R11, R371,
R375, R386, R445). -/

namespace Sys2Proof.Machine

/-! ## Targets (R371) -/

/-- The target of a BAR 0 address; none in reserved space (R2). -/
def targetOf (a : Nat) : Option Nat :=
  match a / 0x100000 with
  | 0 => some 8
  | 1 => some 7
  | 2 => some 2
  | 3 => some 2
  | 4 => some 2
  | 5 => some 2
  | 6 => some 2
  | 7 => some 2
  | 8 => some 2
  | 9 => some 3
  | 10 => some 3
  | 11 => some 3
  | 12 => some 3
  | 13 => some 5
  | 14 => some 5
  | 15 => some 5
  | 16 => some 5
  | 17 => some 6
  | 18 => some 6
  | 19 => some 7
  | 20 => some 7
  | 21 => some 6
  | 22 => some 11
  | 23 => some 6
  | 24 => some 6
  | 25 => some 6
  | _ => none

/-- The supervisor, the timekeeper and the debug master. -/
def privileged : Master → Bool
  | .supervisor => true
  | .timekeeper => true
  | .debug => true
  | _ => false

/-- The master reaches target `t` (R371). -/
def reaches (m : Master) (t : Nat) : Bool :=
  privileged m || (2 ≤ t && t ≤ 8) || t == 11 || (t == 0 && m != .dma)

/-! ## What a register shows -/

/-- The low words of the register pairs of R8. -/
def pairRows : List (Nat × List (Nat × Nat)) := [
  (0x300030, []), (0x300038, []), (0x301048, [(56, 0x80)]), (0x400048, []), (0x800800, [(64, 0x8)]),
  (0xC00504, [(16, 0x20)]), (0xC0050C, [(16, 0x20)]), (0x400010, []), (0x400020, []),
  (0x400028, []), (0x400050, []), (0x400078, []), (0x800024, []),
  (0x800050, []), (0x800060, []), (0x900010, []), (0x900104, []),
  (0x90010C, []), (0x910004, [(544, 0x400)]), (0xA00010, []), (0xA00018, []),
  (0xA00028, []), (0xA00030, []), (0xB00010, []), (0xB00018, []),
  (0xB00200, [(2, 0x20)]), (0xC00030, []), (0xC00040, []), (0xC00060, []),
  (0xD00038, [(4, 0x100000)]), (0xD00050, [(4, 0x100000)]), (0x1000D8, []), (0x1000D0, []),
  (0x1000E0, [(2, 0x8)]), (0x108020, []), (0x108028, []), (0x1200008, [(4096, 0x40)]),
  (0x1200010, [(4096, 0x40)]), (0x1250008, []), (0x1400008, []), (0x1300A00, [(8, 0x8)]),
  (0x1300C00, [(8, 0x8)]), (0x1700008, []), (0x1700020, [(2, 0x8)]), (0x1700048, []),
  (0x1700050, []), (0x1700058, []), (0x1600010, []), (0x1600020, []),
  (0x1608008, []), (0x1900010, []), (0x1800010, [])]

/-- `a` is the low word of a register pair (R8). Two words of separate bits are a pair only where their rule has them read
under R8 (R101, R129, R155). -/
def isPairLow (a : Nat) : Bool := pairRows.any fun (b, dims) => b ≤ a && RegMap.hits dims (a - b)

/-- The number of the Beryl core whose block holds `a`. -/
def brlOf (a : Nat) : Nat := a / 0x100000 - 13

/-- The debug window of a Beryl core, offset `o` from its base (R297). -/
def brlDebug (c : BrlCore) (o : Nat) : Word :=
  let slot (i : Nat) : Nat := (c.file.get 0 i).toNat
  BitVec.ofNat 32 <|
    if o < 0x140 then slot ((o - 0x100) / 4)
    else if o < 0x160 then slot (32 + (o - 0x140) / 4)
    else if o < 0x170 then ofSigned 32 (toSigned 24 (slot (40 + (o - 0x160) / 4)))
    else if o < 0x1A0 then slot (44 + (o - 0x170) / 4)
    else if o < 0x1C0 then
      let v := ofSigned 64 (toSigned 40 (slot (64 + (o - 0x1A0) / 8)))
      if o % 8 = 0 then v % 2 ^ 32 else v / 2 ^ 32
    else if o < 0x1E0 then match c.stack[(o - 0x1C0) / 4]? with
      | some e => e.addr
      | none => 0
    else 0

/-- A register of a Beryl block at offset `o`: the debug window is shown in RESET, HALTED and FAULT; STATE reads OFF while
the domain is off, which it is not yet while it quiesces (R292, R296, R297, R448). -/
def brlShown (s : State) (k o : Nat) : Word :=
  let st := getF s (F.BRL_STATUS_STATE k)
  if 0x100 ≤ o ∧ o < 0x200 then
    if domLive s (1 + k) ∧ (st = 0 ∨ st = 2 ∨ st = 4) then brlDebug (brlCore s k) o else 0
  else if o = 4 then
    let w := (F.BRL_STATUS_LEVELS k).insert (rd s (R.BRL_STATUS k)) (brlCore s k).levels.length
    if domLive s (1 + k) then w else (F.BRL_STATUS_STATE k).insert w 5
  else rd s (0xD00000 + 0x100000 * k + o)

/-- Memory windows whose words are kept as registers and that no register table lists: Pending Bit Array and MSI-X table
(R355), mailbox buffers (R356), loadable filter bank (R116), segment validity window (R259). The spec gives the filter bank
no content before it is written: it then reads 0 (DESIGN CHOICE, log entry 61). -/
def windowWord (a : Nat) : Bool :=
  (0x7000 ≤ a && a < 0x7100) || (0x8000 ≤ a && a < 0x10000) || (0x11000 ≤ a && a < 0x13000) ||
    (0x420000 ≤ a && a < 0x440000) || (0xC10000 ≤ a && a < 0xC11200)

/-- The bits of a register that a read returns: those of its fields that are not write-only (R9, R10). -/
def readMask (a : Nat) : Word :=
  if windowWord a then 0xFFFFFFFF
  else match RegMap.row? a with
    | some r => (r.fields.filter (·.acc != .wo)).foldl (fun w f => w ||| Fld.mask ⟨a, f.hi, f.lo⟩) 0
    | none => 0

/-- A word that holds two coefficients, the even one in its low half (R114, R116). -/
def coefPair (even odd : Int) : Word := BitVec.ofNat 32 (ofSigned 16 even + ofSigned 16 odd * 2 ^ 16)

/-- `MTX_MASTER_STATUS`: a Beryl core with stores in its write buffer has requests outstanding, and so has the DMA master with a
register write in execution; a core in RESET or without power is in reset, the host and DMA masters without PD_27, and the debug
master while TEST_MODE is low. The other requests are done within their commands (R377, R389; DEDUCED, log entry 58). -/
def masterStatus (s : State) : Nat :=
  let busy := (List.range 4).map fun k => (brlCore s k).stores != []
  let dma := s.dma.any fun e => e.2.begun && e.2.descs.head?.any fun d => leAt d.bytes 39 1 == 2
  let reset := (List.range 4).map fun k => !domLive s (1 + k) || getF s (F.BRL_STATUS_STATE k) == 0
  let off := !domLive s 27
  (packBits busy * 4 + ofBool dma * 2 ^ 7) * 2 ^ 16 + packBits reset * 4 + ofBool off * (2 ^ 6 + 2 ^ 7) +
    ofBool !flag s F.PWR_BOOT_TEST_MODE * 2 ^ 9

/-- The kinds of consumer input that have an argument: MSI, DOORBELL, COUNT and INJECT (R381). -/
def conHasArg (i : Nat) : Bool := (16 ≤ i && i < 32) || (64 ≤ i && i < 72) || 80 ≤ i

/-- `a` is `EVT_CON_n_ARG` of an input without an argument, which reads 0 (R389). -/
def noArg (a : Nat) : Bool :=
  0x1300400 ≤ a && a < 0x1300A00 && a % 16 == 12 && !conHasArg ((a - 0x1300400) / 16)

/-- What the register at `a` shows; the skew of an unbonded lane is 0 (R71). -/
def shown (s : State) (a : Nat) : Word :=
  if 0xD00000 ≤ a ∧ a < 0x1100000 then
    let o := a % 0x100000
    if 0x100 ≤ o ∧ o < 0x200 then brlShown s (brlOf a) o else brlShown s (brlOf a) o &&& readMask a
  else if a = R.BFM_STATUS then F.BFM_STATUS_HALF_ON.insert (rd s a) (halvesOn s) &&& readMask a
  else if a = R.CHZ_STATUS then F.CHZ_STATUS_POWERED.insert (rd s a) (quadBits fun q => domOn s (5 + q)) &&& readMask a
  else if a = R.MTX_MASTER_STATUS then BitVec.ofNat 32 (masterStatus s)
  else if noArg a then 0
  else if a = R.XR_LOAD then BitVec.ofNat 32 (xrLoadWord s (flag s F.CHZ_MODE_CAL8))
  else if 0x1700080 ≤ a ∧ a < 0x17000B0 then BitVec.ofNat 32 (keyHash ((a - 0x1700080) / 4))
  else if a = R.CLK_COUNTER_LO then BitVec.ofNat 32 s.counter.toNat
  else if a = R.CLK_COUNTER_LO + 4 then BitVec.ofNat 32 (s.counter.toNat / 2 ^ 32)
  else if 0x500000 ≤ a ∧ a < 0x600000 then
    let i := (a - 0x500000) % 0x20000 / 2
    let r := (a - 0x500000) / 0x20000
    coefPair (prototype r i) (prototype r (i + 1))
  else if 0x418000 ≤ a ∧ a < 0x41A000 then
    let p := (a - 0x418000) / 32
    let j := (a - 0x418000) % 32 / 2
    coefPair (resamplerCoef p j) (resamplerCoef p (j + 1))
  else if 0x200000 ≤ a ∧ a < 0x2E0000 ∧ (a - 0x200000) % 0x4000 = 0x38 ∧ (bondOf s ((a - 0x200000) / 0x4000)).length < 2 then 0
  else rd s a &&& readMask a

/-- The SECURE channels, as a 64-bit mask (R386). -/
def secureMask (s : State) : Nat := packBits ((List.range 64).map fun c => flag s (F.EVT_CH_CFG_SECURE c))

/-- The bits of an event-router register that belong to SECURE channels (R386). -/
def hiddenBits (s : State) (a : Nat) : Word :=
  let half (hi : Bool) : Word := BitVec.ofNat 32 (if hi then secureMask s / 2 ^ 32 else secureMask s)
  if a = R.EVT_FLAG_LO ∨ a = R.EVT_RATE_LIMITED_LO then half false
  else if a = R.EVT_FLAG_LO + 4 ∨ a = R.EVT_RATE_LIMITED_LO + 4 then half true
  else if 0x1300100 ≤ a ∧ a < 0x1300300 then
    if flag s (F.EVT_CH_CFG_SECURE ((a - 0x1300100) / 8)) then 0xFFFFFFFF else 0
  else if 0x1300400 ≤ a ∧ a < 0x1300A00 then
    if a % 16 = 0 then half false else if a % 16 = 4 then half true else 0
  else 0

/-! ## Arrays (R445) -/

/-- The array entry behind a BAR 0 address: the array, its domain, its entry. -/
def arrayAt (a : Nat) : Option (Arr × Nat × Nat) :=
  if 0x410000 ≤ a ∧ a < 0x414000 then some (.model, 5 + (a - 0x410000) / 4096, (a - 0x410000) / 4)
  else if 0x600000 ≤ a ∧ a < 0x800000 then
    some (.gain, 5 + (a - 0x600000) % 0x100000 / 0x40000, (a - 0x600000) / 4)
  else if 0xD00000 ≤ a ∧ a < 0x1100000 then
    let k := brlOf a
    let o := a % 0x100000
    if 0x20000 ≤ o ∧ o < 0x40000 then some (.brlC, 1 + k, 0x10000 * k + (o - 0x20000) / 4)
    else if 0x40000 ≤ o ∧ o < 0x80000 then some (.brlX, 1 + k, 0x10000 * k + (o - 0x40000) / 4)
    else if 0x80000 ≤ o ∧ o < 0xC0000 then some (.brlY, 1 + k, 0x10000 * k + (o - 0x80000) / 4)
    else none
  else none

/-- The domain of the array behind a BAR 0 address: of those above, and of the segment validity window (R259, R445). -/
def arrayDomain (a : Nat) : Option Nat :=
  if 0xC10000 ≤ a ∧ a < 0xC11200 then some 24 else (arrayAt a).map (·.2.1)

/-! ## Reading -/

/-- An access gets an error response (R375, R376): it is recorded; a host's read then completes with every byte 0xFF. -/
def readError (s : State) (m : Master) (target kind a : Nat) : State × Option Word :=
  (busError s (masterCode m) target kind a false, none)

/-- Clear the RC fields of the register at `a` after a read (R9, R11), but for what the master does not see. -/
def clearRc (s : State) (a : Nat) (hidden : Word) : State :=
  match RegMap.row? a with
  | some r =>
    let m : Word := (r.fields.filter (·.acc == .rc)).foldl (fun w f => w ||| Fld.mask ⟨a, f.hi, f.lo⟩) 0
    let s := if a = R.PWR_TEMP_MAX then { s with pwr := { s.pwr with tempRead := false } } else s
    if m = 0 then s else wr s a (rd s a &&& ~~~(m &&& ~~~hidden))
  | none => s

/-- A register read at `a` by a master: the word shown, the RC fields cleared, a pair's high word latched for the
requester or its latched value returned (R8, R9, R11). -/
def wordRead (s : State) (m : Master) (a : Nat) : State × Word :=
  let hidden := if privileged m then 0 else hiddenBits s a
  let key (a : Nat) : Nat := 16 * a + masterCode m
  if isPairLow a then ({ s with pairLatch := s.pairLatch.put (key a) (shown s (a + 4)) }, shown s a)
  else if isPairLow (a - 4) ∧ (s.pairLatch.find (key (a - 4))).isSome then
    ({ s with pairLatch := s.pairLatch.drop (· == key (a - 4)) }, s.pairLatch.get 0 (key (a - 4)))
  else (clearRc s a hidden, shown s a &&& ~~~hidden)

/-- A master reads the word at BAR 0 address `a`: none is an error response. -/
def regRead (s : State) (m : Master) (a : Nat) : State × Option Word :=
  match targetOf a with
  | none => (s, some 0)
  | some t =>
    if !reaches m t then readError s m t 1 a
    else match arrayAt a with
      | some (arr, d, i) =>
        if domOn s d then
          (s, some (if arr == .model ∧ 13 ≤ i % 16 then 0 else (arrGet s arr d i).setWidth 32))
        else readError s m t 2 a
      | none =>
        if (arrayDomain a).any fun d => !domOn s d then readError s m t 2 a
        else let r := wordRead (if a = R.MEM_PANIC_TIME then panicTally s else s) m a; (r.1, some r.2)

/-- A master reads a word of the weight store (R221): none is an error response. -/
def weightRead (s : State) (m : Master) (off : Nat) : State × Option Word :=
  let d := beamDomain (weightBeam off)
  if !reaches m 4 then readError s m 4 1 off
  else if domOn s d then
    (s, some (BitVec.ofNat 32 (leNat ((List.range 4).map fun i => (arrGet s .weight d (off + i)).setWidth 8))))
  else readError s m 4 2 off

/-- A read of up to 64 bytes of the weight store, whatever the bank state: the bytes enabled, or an error response, which a
host's read completes with 0xFF (R222, R376, R449). -/
def weightFetch (s : State) (m : Master) (off : Nat) (be : List Bool) : State :=
  let d := beamDomain (weightBeam off)
  let data (v : Nat → Byte) : List Byte := be.zipIdx.map fun (b, i) => if b then v i else 0
  if reaches m 4 && domOn s d then
    emit s (.weightData m off (data fun i => (arrGet s .weight d (off + i)).setWidth 8))
  else
    let s := busError s (masterCode m) 4 (if reaches m 4 then 2 else 1) off false
    emit s (if m = .host then .weightData m off (data fun _ => 0xFF) else .errorResponse m off)

/-- A master reads DRAM through the matrix, as memory requester 10 (R310, R371): none is an error response, of kind 4 for
an uncorrectable error and of kind 2 where the memory refuses (R302, R306). -/
def matrixDramRead (s : State) (m : Master) (a n : Nat) : State × Option (List Byte) :=
  if !reaches m 0 then (busError s (masterCode m) 0 1 a false, none)
  else match unitFetch s 10 a n with
    | (s, some bs) => (s, some bs)
    | (t, none) => (busError t (masterCode m) 0 (memErrKind s 10 a n false) a false, none)

/-- The bytes of a word that the byte enables select. -/
def byteMask (be : BitVec 4) : Word :=
  (if be.getLsbD 0 then 0xFF else 0) ||| (if be.getLsbD 1 then 0xFF00 else 0) |||
    (if be.getLsbD 2 then 0xFF0000 else 0) ||| (if be.getLsbD 3 then 0xFF000000 else 0)

/-- A master's read of a register, and what it gets: the addressed bytes (R7), or every byte 0xFF for a host that met an
error (R376). -/
def busRead (s : State) (m : Master) (a : Nat) (be : BitVec 4) : State :=
  let a := a / 4 * 4
  match regRead s m a with
  | (s, some w) => emit s (.readData m a (w &&& byteMask be))
  | (s, none) => if m = .host then emit s (.readData m a (byteMask be)) else emit s (.errorResponse m a)

/-- WEIGHT_STORE_WRITE; with `read`, BAR 4's other access, the enabled bytes are read. -/
def execWeightStoreWrite (m : Master) (off : BitVec 26) (a : WeightAccess) (s : State) : Res :=
  runBy m (fun s =>
    if a.read then weightFetch s m off.toNat ((a.data.take 64).map (·.isSome))
    else weightAccess s m off.toNat (a.data.take 64)) s

/-- RC_REGISTER_READ (R9, R11). -/
def execRcRegisterRead (m : Master) (addr : BitVec 26) (be : BitVec 4) (s : State) : Res :=
  runBy m (busRead · m addr.toNat be) s

/-- PAIR_LOW_WORD_READ (R8). -/
def execPairLowWordRead (m : Master) (addr : BitVec 26) (s : State) : Res :=
  runBy m (busRead · m addr.toNat 0xF) s

end Sys2Proof.Machine
end

