-- ==== Sys2Proof/Machine/Clock.lean ====
section
/-! DEFINITION. Clocks, references, holdover, steering, time steps and time outputs (R29, R320 to R338, R347, R348). -/

namespace Sys2Proof.Machine

/-- Change the hidden state of the clocks. -/
def setClk (s : State) (f : Clk → Clk) : State := { s with clk := f s.clk }

/-! ## Time steps (R29, R338) -/

/-- The local sample counter is stepped to `t` (R29, R338): counted, event 26; frames whose first sample a forward step
passes are jumped over; a backward step repeats frames, whose ticks are suppressed and whose samples are closed. A step
that lands on the first sample of a frame leaves its tick due (R26). What is dated by the counter moves with it. Of two steps
before a tick, forward and then back, the spec says nothing: the frames that the first jumped over and the second makes run
again tick, and stay jumped over, closed without samples (DESIGN CHOICE, log entry 63). -/
def stepCounter (s : State) (t : Nat) : State :=
  let old : Nat := s.counter.toNat
  let now : Nat := t % 2 ^ 64
  let s := raise (bump s R.CLK_STEP_COUNT) 26
  let last := s.arch.lastStarted.getD (old / 2 ^ 21)
  let d : Int := (now : Int) - old
  let a := s.arch
  let a := if old ≤ now then
      let from_ := old / 2 ^ 21 + 1
      let upTo := (now - 1) / 2 ^ 21
      if from_ ≤ upTo then { a with stepped := (from_, upTo) :: a.stepped, jumped := (from_, upTo) :: a.jumped } else a
    else { a with stepped := (now / 2 ^ 21, last) :: a.stepped, closedUpTo := some last }
  { s with
    counter := BitVec.ofNat 64 now
    arch := { a with tickDue := now % 2 ^ 21 == 0 }
    bfm := { s.bfm with stepped := true }
    mem := { s.mem with panicAt := ((s.mem.panicAt : Int) + d).toNat }
    str := { s.str with trialAt := s.str.trialAt + d }
    ptp := { s.ptp with boundaryAt := s.ptp.boundaryAt.map fun e => (e.1, e.2 + 20 * d) }
    clk := { s.clk with
      phase := if s.clk.phase.1 = old then (now, s.clk.phase.2) else s.clk.phase
      steerAt := s.clk.steerAt.map (· + d)
      ppsEdge := s.clk.ppsEdge.map fun e => (e.1, e.2 + 20 * d)
      ppsRise := s.clk.ppsRise + d
      frameRise := s.clk.frameRise + d } }

/-! ## References (R323 to R326) -/

/-- The source and lane that an entry word of the priority table names; source 7 acts as 0 (R326, R349). -/
def prioSource (w : Word) : Nat × Nat :=
  let src := bitsOf w.toNat 2 0 % 7
  (src, if src = 5 then bitsOf w.toNat 11 8 else 0)

/-- The rank of an entry word; 0 for an empty entry. -/
def prioRank (w : Word) : Nat := if (prioSource w).1 = 0 then 0 else bitsOf w.toNat 19 16

/-- Entry `e` of the table as evaluated last. -/
def prioEntry (s : State) (e : Nat) : Word := s.clk.table.getD e 0

/-- A PTP port is SLAVE and TIME_FAULT is clear (R335). -/
def slaveGood (s : State) : Bool :=
  !flag s F.CLK_STATUS_TIME_FAULT && (getF s F.PTP_STATUS_PORT_0_STATE == 3 || getF s F.PTP_STATUS_PORT_1_STATE == 3)

/-- A STEER entry is qualified (R335). -/
def steerQualified (s : State) : Bool :=
  if flag s F.CLK_CTRL_STEER_OWNER then s.clk.steerAt.any fun t => (s.counter.toNat : Int) ≤ t + 1600000000
  else decide ((6, 0) ∈ s.clk.qualified) && slaveGood s

/-- The frequency offset of a source lies within ±`CLK_FREQ_WINDOW` of XO_IN nominal (R324). -/
def inFreqWindow (s : State) (ffo : Int) : Bool := ffo.natAbs ≤ 1000 * getR s R.CLK_FREQ_WINDOW

/-- The interval between two accepted edges of a PPS input, in 1/16 ns of local time, is 1 s within `CLK_FREQ_WINDOW` as XO_IN
counts: local time runs at the output frequency, 0 where no rule states it (R324; log entry 28). -/
def ppsSteady (s : State) (output interval : Int) : Bool := inFreqWindow s (output - (interval - 16000000000) * 125 / 2)

/-- A source is in window, by its frequency offset, or for a PPS source by its last interval (R324). -/
def sourceInWindow (s : State) (p : Nat × Nat) (ffo : Int) : Bool :=
  if p.1 = 3 ∨ p.1 = 4 then p.1 - 3 ∈ s.clk.ppsGood else inFreqWindow s ffo

/-- The key of a source. -/
def sourceKey (p : Nat × Nat) : Nat := 16 * p.1 + p.2

/-- The source that a command names, in the form of the table's entries. -/
def sourceOf (source lane : Nat) : Nat × Nat := (source % 7, if source = 5 then lane else 0)

/-- A source is out of window, or gone: disqualified at once, its qualification to start from zero (R324). -/
def sourceOut (s : State) (p : Nat × Nat) : State :=
  setClk s fun c => { c with
    qualified := c.qualified.filter (· ≠ p), inWindow := c.inWindow.filter (· ≠ p), inMs := c.inMs.put (sourceKey p) 0 }

/-- An entry of the table is qualified (R326). -/
def prioQualified (s : State) (e : Nat) : Bool :=
  let w := prioEntry s e
  prioRank w != 0 && if (prioSource w).1 = 6 then steerQualified s else decide (prioSource w ∈ s.clk.qualified)

/-- Frequency offset of an entry, 10^-12; 0 for STEER and an empty entry (R349). -/
def prioFfo (s : State) (e : Nat) : Int :=
  let p := prioSource (prioEntry s e)
  if p.1 = 6 ∨ prioRank (prioEntry s e) = 0 then 0 else s.clk.ffo.get 0 (sourceKey p)

/-- The selected entry. -/
def selected (s : State) : Option Nat :=
  if flag s F.CLK_STATUS_SEL_VALID then some (getF s F.CLK_STATUS_SELECTED) else none

/-- DPLL_STATE: 0 FREERUN, 1 ACQUIRE, 2 LOCKED, 3 SWITCHING, 4 HOLDOVER, 5 STEER (R329). -/
def dpllState (s : State) : Nat := getF s F.CLK_STATUS_DPLL_STATE

/-- Source code of the selected entry. -/
def selectedSource (s : State) : Nat :=
  match selected s with
  | some e => (prioSource (prioEntry s e)).1
  | none => 0

/-- The REF status and frequency registers of the entries follow the sources they name (R324). -/
def refShow (s : State) : State :=
  (List.range 8).foldl (fun s e =>
    let p := prioSource (prioEntry s e)
    let s := setF s (F.CLK_REF_STATUS_QUALIFIED e) (ofBool (prioQualified s e))
    let s := setF s (F.CLK_REF_STATUS_IN_WINDOW e) (ofBool (decide (p ∈ s.clk.inWindow)))
    setR s (R.CLK_REF_FFO e) (ofSigned 32 (prioFfo s e))) s

/-! ## Selection (R327 to R330, R333) -/

/-- DPLL_STATE takes a value; out of HOLDOVER, OOS clears (R333). -/
def setDpll (s : State) (st : Nat) : State :=
  let s := if st = 4 then s else setF s F.CLK_STATUS_OOS 0
  refreshLevels (setF s F.CLK_STATUS_DPLL_STATE st)

/-- HOLDOVER is entered (R333). -/
def enterHoldover (s : State) : State :=
  let s := raise (bump (setR s R.CLK_MILESTONE 0) R.CLK_HOLDOVER_COUNT) 15
  setDpll (setF s F.CLK_STATUS_SEL_VALID 0) 4

/-- An entry is selected. -/
def setSelected (s : State) (e : Nat) : State := setF (setF s F.CLK_STATUS_SEL_VALID 1) F.CLK_STATUS_SELECTED e

/-- The loop bandwidth in mHz: `CLK_CTRL`.BW, and at most 0.1 Hz on a PPS source (R329). -/
def loopBandwidth (s : State) : Nat :=
  let bw := 10 ^ (1 + getF s F.CLK_CTRL_BW)
  if selectedSource s = 3 ∨ selectedSource s = 4 then min bw 100 else bw

/-- The output frequency against XO_IN nominal, 10^-12, as far as a rule states it: the selected reference's while
LOCKED, the one held while SWITCHING, hold_ffo in HOLDOVER (R329). -/
def outputFfo (s : State) : Option Int :=
  match dpllState s with
  | 0 => some 0
  | 2 => (selected s).map (prioFfo s)
  | 3 => s.clk.held
  | 4 => some (toSigned 32 (getR s R.CLK_HOLD_FFO))
  | 5 => some (toSigned 32 (getR s R.CLK_STEER_FFO))
  | _ => none

/-- The limits of `CLK_STEER_FFO`, ±100 ppm (R335). -/
def clampSteer (v : Int) : Int := max (-100000000) (min 100000000 v)

/-- A switch to entry `e` starts with the output frequency `out`, which is held; onto STEER the frequency register takes
it. From ACQUIRE no rule states that frequency (R329, R330, R335; log entry 1). -/
def startSwitch (s : State) (e : Nat) (out : Option Int) : State :=
  let s := if (prioSource (prioEntry s e)).1 = 6 then
      match out with
      | some v => setR s R.CLK_STEER_FFO (ofSigned 32 (clampSteer v))
      | none => freeTaken (setR s R.CLK_STEER_FFO (ofSigned 32 (clampSteer (toSigned 32 (freeNext s).toNat))))
    else s
  setClk (setDpll s 3) fun c => { c with target := some e, held := out }

/-- A first selection from FREERUN (R327, R329). -/
def startAcquire (s : State) (e : Nat) : State :=
  setDpll (setSelected s e) (if (prioSource (prioEntry s e)).1 = 6 then 5 else 1)

/-- The pick among the qualified entries of a rank: closest to hold_ffo, the lower index on a tie (R327). -/
def pickEntry (s : State) (rank : Nat) : Option Nat :=
  let hold := toSigned 32 (getR s R.CLK_HOLD_FFO)
  ((List.range 8).filter fun e => prioQualified s e && prioRank (prioEntry s e) == rank).foldl
    (fun (b : Option Nat) e =>
      match b with
      | none => some e
      | some b => if (prioFfo s e - hold).natAbs < (prioFfo s b - hold).natAbs then some e else some b) none

/-- DISAGREE of every entry (R328). -/
def disagree (s : State) : State :=
  let sel := selected s
  let limit := getR s R.CLK_DISAGREE_PPB * 1000
  let pairs := (List.range 8).flatMap fun a => (List.range 8).filterMap fun b =>
    if a < b ∧ prioQualified s a ∧ prioQualified s b = true ∧ prioRank (prioEntry s a) = prioRank (prioEntry s b) ∧
        limit < (prioFfo s a - prioFfo s b).natAbs then some (a, b) else none
  (List.range 8).foldl (fun s e =>
    setF s (F.CLK_REF_STATUS_DISAGREE e) (ofBool (pairs.any fun p => (p.1 == e || p.2 == e) && sel != some e))) s

/-- One evaluation of the priority table (R326 to R328). The table as written takes effect; a write that changed the
selected entry counts as its loss. While SWITCHING only the status of the entries follows (R324, R330). -/
def evaluate (s : State) : State :=
  if dpllState s = 3 then refShow s
  else
    let words := (List.range 8).map fun e => rd s (R.CLK_PRIO e)
    let out := outputFfo s
    let changed := match selected s with
      | some e => prioEntry s e != words.getD e 0
      | none => false
    let s := refShow (setClk s fun c => { c with table := words })
    let lost := match selected s with
      | some e => changed || !prioQualified s e
      | none => false
    let ranks := (List.range 8).filterMap fun e => if prioQualified s e then some (prioRank (prioEntry s e)) else none
    let s := match ranks with
      | [] => if lost then enterHoldover s else s
      | r :: rs =>
        let best := rs.foldl min r
        let keep := match selected s with
          | some e => !lost && (!flag s F.CLK_CTRL_REVERTIVE || prioRank (prioEntry s e) ≤ best)
          | none => false
        if keep then s
        else
          match pickEntry s best with
          | some e => if dpllState s = 0 then startAcquire s e else startSwitch s e out
          | none => s
    disagree s

/-- The table is evaluated at a change of qualification (R327): of an entry whose QUALIFIED bit no longer holds. A break of
what qualifies STEER starts it from zero (R335). -/
def qualChange (s : State) : State :=
  let s := if slaveGood s then s else sourceOut s (6, 0)
  if (List.range 8).any fun e => prioQualified s e != flag s (F.CLK_REF_STATUS_QUALIFIED e) then evaluate s else s

/-! ## Slew (R336, R337) -/

/-- Add a signed amount in ps to what is still to be slewed out; a sum that takes more than 32 bits has no stated value
(log entry 1). -/
def addRemain (s : State) (d : Int) : State :=
  let v := toSigned 32 (getR s R.CLK_PHASE_REMAIN) + d
  if -(2 ^ 31) ≤ v ∧ v < 2 ^ 31 then setR s R.CLK_PHASE_REMAIN (ofSigned 32 v)
  else freeTaken (setR s R.CLK_PHASE_REMAIN ((freeNext s).toNat % 2 ^ 32))

/-- 10 ms of slewing: at most PPB × 10 ps leave the remainder; none in HOLDOVER (R337). -/
def slew (s : State) : State :=
  if dpllState s = 4 then s
  else
    let v := toSigned 32 (getR s R.CLK_PHASE_REMAIN)
    let m : Int := 10 * (max 1 (getR s R.CLK_SLEW) : Nat)
    setR s R.CLK_PHASE_REMAIN (ofSigned 32 (if 0 ≤ v then max 0 (v - m) else min 0 (v + m)))

/-! ## The commands -/

/-- A source as measured over 10 ms more (R324). -/
def sourceMeasured (s : State) (m : RefMeas) : State :=
  let p := sourceOf m.source m.lane
  if p.1 = 0 ∨ p.1 = 6 then s
  else
    let s := setClk s fun c => { c with ffo := c.ffo.put (sourceKey p) m.ffo.toInt }
    if sourceInWindow s p m.ffo.toInt then
      setClk s fun c => { c with inWindow := p :: c.inWindow.filter (· ≠ p), inMs := c.inMs.upd 0 (sourceKey p) (· + 10) }
    else sourceOut s p

/-- A source is lost: LOST in the entries that name it, and the count of a PPS input (R323, R325). -/
def sourceLost (s : State) (p : Nat × Nat) : State :=
  let s := if p.1 = 3 ∨ p.1 = 4 then
      setClk (bump s (R.CLK_PPS_LOST_COUNT (p.1 - 3))) fun c => { c with ppsGood := c.ppsGood.filter (· ≠ p.1 - 3) }
    else s
  let s := (List.range 8).foldl (fun s e =>
    if prioSource (rd s (R.CLK_PRIO e)) = p then setF s (F.CLK_REF_STATUS_LOST e) 1 else s) s
  sourceOut s p

/-- The recovered clocks of lanes that have left UP are lost (R323). -/
def lanesLost (s : State) : State :=
  (List.range 16).foldl (fun s n =>
    if (5, n) ∈ s.clk.inWindow ∧ laneIsUp s n = false then sourceLost s (5, n) else s) s

/-- hold_ffo: the mean output frequency of the last `CLK_HOLD_AVG` seconds but the most recent one, or of what there is of
them; how a mean that is no whole number is rounded no rule states (R332; log entry 1). -/
def holdAverage (s : State) : State :=
  let l := (s.clk.history.drop 100).take (100 * max 1 (getR s R.CLK_HOLD_AVG))
  if l = [] then s
  else
    let n : Int := l.length
    if l.sum % n = 0 then setR s R.CLK_HOLD_FFO (ofSigned 32 (l.sum / n))
    else freeTaken (setR s R.CLK_HOLD_FFO (ofSigned 32 (l.sum / n + ((freeNext s).toNat % 2 : Nat))))

/-- 10 ms more of the output frequency, in LOCKED as measured and in STEER as `CLK_STEER_FFO` sets it (R332, R335). -/
def holdUpdate (s : State) (output : Word) : State :=
  if dpllState s = 2 ∨ dpllState s = 5 then
    let v := if dpllState s = 5 then toSigned 32 (getR s R.CLK_STEER_FFO) else output.toInt
    holdAverage (setClk s fun c => { c with history := v :: c.history })
  else s

/-- The milestone counter shows `n`; when it reaches its limit, OOS and HOLDOVER_OOS, once in a holdover (R333). -/
def milestone (s : State) (n : Nat) : State :=
  let s := setR s R.CLK_MILESTONE (min n (2 ^ 32 - 1))
  if getR s R.CLK_MILESTONE_LIMIT ≤ n ∧ ¬ flag s F.CLK_STATUS_OOS then
    refreshLevels (raise (setF s F.CLK_STATUS_OOS 1) 16)
  else s

/-- PRIORITY_EVALUATION, every 10 ms: the sources as measured, the output frequency over them (R332), the whole seconds of
XO_IN time since HOLDOVER was entered, 10 ms of slewing, and the table (R324, R327, R332, R333, R337). -/
def execPriorityEvaluation (meas : List RefMeas) (output : Word) (seconds : Nat) (s : State) : Res :=
  run (fun s =>
    let s := lanesLost (meas.foldl sourceMeasured s)
    let s := if slaveGood s then setClk s fun c => { c with inMs := c.inMs.upd 0 (sourceKey (6, 0)) (· + 10) }
      else sourceOut s (6, 0)
    let s := holdUpdate s output
    let s := if dpllState s = 4 ∧ getR s R.CLK_MILESTONE < seconds then milestone s seconds else s
    evaluate (slew s)) s

/-- REF_QUALIFIED: a source has been present and in window for `CLK_QUAL_TIME`, or STEER's condition has held for it, to the
10 ms at which the sources are measured; the table is evaluated (R324, R327, R335). -/
def execRefQualified (source : Fin 8) (lane : Fin 16) (ffo : Word) (s : State) : Res :=
  run (fun s =>
    let p := sourceOf source lane
    if p.1 = 0 ∨ s.clk.inMs.get 0 (sourceKey p) + 10 < getR s R.CLK_QUAL_TIME then s
    else if p.1 = 6 then
      (if slaveGood s then evaluate (setClk s fun c => { c with qualified := p :: c.qualified.filter (· ≠ p) }) else s)
    else if sourceInWindow s p ffo.toInt then
      evaluate (setClk s fun c => { c with
        qualified := p :: c.qualified.filter (· ≠ p)
        inWindow := p :: c.inWindow.filter (· ≠ p)
        ffo := c.ffo.put (sourceKey p) ffo.toInt })
    else s) s

/-- A source is lost, or leaves its window: disqualified at once, and the table evaluated (R323 to R325, R327). -/
def refLost (s : State) (p : Nat × Nat) (lost : Bool) : State := evaluate (if lost then sourceLost s p else sourceOut s p)

/-- REF_LOST. -/
def execRefLost (source : Fin 8) (lane : Fin 16) (lost : Bool) (s : State) : Res :=
  run (fun s => refLost s (sourceOf source lane) lost) s

/-- BUILD_OUT_COMPLETE: the switch is done and counted; the table is evaluated again at once (R329, R330). -/
def execBuildOutComplete (s : State) : Res :=
  run (fun s =>
    match s.clk.target with
    | some e =>
      if dpllState s = 3 then
        let s := bump (setSelected s e) R.CLK_SWITCH_COUNT
        let s := setDpll s (if (prioSource (prioEntry s e)).1 = 6 then 5 else 2)
        evaluate (setClk s fun c => { c with target := none })
      else s
    | none => s) s

/-- ACQUIRE_LOCKED (R329). -/
def execAcquireLocked (s : State) : Res := run (fun s => if dpllState s = 1 then setDpll s 2 else s) s

/-- HOLDOVER_OOS: the milestone counter, a second short of its limit or past one that has been lowered, reaches it
(R333). -/
def execHoldoverOos (s : State) : Res :=
  run (fun s =>
    let n := getR s R.CLK_MILESTONE
    if dpllState s = 4 ∧ ¬ flag s F.CLK_STATUS_OOS ∧ getR s R.CLK_MILESTONE_LIMIT ≤ n + 1 then
      milestone s (max n (getR s R.CLK_MILESTONE_LIMIT))
    else s) s

/-- Nanoseconds of local time of the first sample at or after it. -/
def sampleAtNs (ns : Nat) : Nat := (4 * ns + 4) / 5

/-- An accepted edge of PPS input `x` ends an interval: one out of window takes the source out at once (R324, R327). -/
def ppsInterval (s : State) (x : Nat) (output interval : Int) : State :=
  let good := ppsSteady s output interval
  let s := setClk s fun c => { c with ppsGood := (if good then [x] else []) ++ c.ppsGood.filter (· ≠ x) }
  if good then s else evaluate (sourceOut s (3 + x, 0))

/-- What an accepted edge does: its stamp, and where its input is selected the armed time, or the phase that is left (R321,
R325, R331, R347). -/
def ppsAccept (s : State) (x time : Nat) : State :=
  let s := advanceTo s (time / 20)
  let s := if s.counter.toNat = time / 20 then setClk s fun c => { c with phase := (time / 20, time % 20) } else s
  let s := setClk s fun c => { c with ppsEdge := c.ppsEdge.put x time }
  let edge := time - 16 * getF s (F.CLK_PPS_CFG_DELAY x)
  let s := setPair s (R.CLK_PPS_STAMP_LO x) (edge / 16)
  if selectedSource s ≠ 3 + x then s
  else if s.clk.setArmed then
    let s := stepCounter s (getPair s R.CLK_SET_TIME_LO + (s.counter.toNat - time / 20))
    setF (setClk s fun c => { c with setArmed := false }) F.CLK_STATUS_TIME_VALID 1
  else if dpllState s = 2 then
    let off := edge % 16000000000
    let err : Int := if off < 8000000000 then off else (off : Int) - 16000000000
    let ps := err * 1000 / 16
    if -(2 ^ 31) < ps ∧ ps < 2 ^ 31 then setR s R.CLK_PHASE_REMAIN (ofSigned 32 (-ps))
    else freeTaken (setR s R.CLK_PHASE_REMAIN ((freeNext s).toNat % 2 ^ 32))
  else s

/-- An edge of PPSA or PPSB: `time` is the local time of its first transition in 1/16 ns, `held` the core cycles its level
holds, of which the filter asks FILTER, at least 2 (R324, R325). -/
def ppsEdge (s : State) (x : Nat) (falling : Bool) (time held : Nat) : State :=
  if flag s (F.CLK_PPS_CFG_FALLING x) ≠ falling ∨ held < max 2 (getF s (F.CLK_PPS_CFG_FILTER x)) then s
  else if s.clk.ppsEdge.find x |>.any fun p => (time : Int) < p + getF s (F.CLK_PPS_CFG_MIN_PERIOD x) * 16000000 then
    bump s (R.CLK_PPS_FAST_COUNT x)
  else
    let t := ppsAccept s x time
    match s.clk.ppsEdge.find x with
    | some p => ppsInterval t x ((outputFfo s).getD 0) ((time : Int) - p)
    | none => t

/-- PPS_EDGE. -/
def execPpsEdge (x : Fin 2) (falling : Bool) (e : PpsStamp) (s : State) : Res :=
  run (ppsEdge · x falling e.time e.held) s

/-- A write of `CLK_STEER_FFO`: clamped, and ignored unless the writer owns it (R335). -/
def steerWrite (s : State) (m : Master) (v : Word) : State :=
  let owner := flag s F.CLK_CTRL_STEER_OWNER
  let mine := match m with
    | .timekeeper => !owner
    | .supervisor => false
    | _ => owner
  if mine then
    evaluate (setClk (setR s R.CLK_STEER_FFO (ofSigned 32 (clampSteer v.toInt))) fun c => { c with
      steerAt := some (s.counter.toNat : Int) })
  else s

/-- STEER_FFO_WRITE. -/
def execSteerFfoWrite (m : Master) (v : Word) (s : State) : Res := runBy m (steerWrite · m v) s

/-- A write of `CLK_PHASE_ADJ` (R336, R337). -/
def phaseAdjWrite (s : State) (m : Master) (v : Word) : State :=
  if m = .timekeeper ∨ (flag s F.CLK_CTRL_STEER_OWNER ∧ (dpllState s = 2 ∨ dpllState s = 5)) then addRemain s v.toInt else s

/-- PHASE_ADJ_WRITE. -/
def execPhaseAdjWrite (m : Master) (v : Word) (s : State) : Res := runBy m (phaseAdjWrite · m v) s

/-- A write of `CLK_SET_TIME_HI`: ignored while PTP is enabled; at once with SET_NOW, else armed (R347). -/
def setTimeArm (s : State) (high : Word) : State :=
  if flag s F.PTP_CTRL_EN then s
  else
    let s := writePairHigh s R.CLK_SET_TIME_LO high
    if flag s F.CLK_CTRL_SET_NOW then
      setF (setClk (stepCounter s (getPair s R.CLK_SET_TIME_LO)) fun c => { c with setArmed := false })
        F.CLK_STATUS_TIME_VALID 1
    else setClk s fun c => { c with setArmed := true }

/-- SET_TIME_ARM. -/
def execSetTimeArm (high : Word) (s : State) : Res := run (setTimeArm · high) s

/-! ## Time outputs (R348) -/

/-- The time outputs may leave their low level. -/
def outputsLive (s : State) : Bool := flag s F.CLK_STATUS_TIME_VALID || flag s F.CLK_CTRL_FORCE_OUT

/-- FRAME_OUT rises at a frame tick. -/
def frameOutRise (s : State) : State :=
  if flag s F.CLK_CTRL_FRAME_OUT_EN ∧ outputsLive s then
    emit (setClk s fun c => { c with frameOut := true, frameRise := s.counter.toNat }) (.pin "FRAME_OUT" true)
  else s

/-- Outputs that are high go low when they may not leave their low level any more. -/
def outputsCheck (s : State) : State :=
  if outputsLive s then s
  else
    let s := if s.clk.ppsOut then emit (setClk s fun c => { c with ppsOut := false }) (.pin "PPS_OUT" false) else s
    if s.clk.frameOut then emit (setClk s fun c => { c with frameOut := false }) (.pin "FRAME_OUT" false) else s

/-- PPS_OUT_SECOND: at the first sample at or after a whole second plus OFFSET (R348, R378). -/
def execPpsOutSecond (time : Nat) (s : State) : Res :=
  run (fun s =>
    let s := advanceTo s time
    let off := 4 * getF s ⟨R.CLK_PPS_OUT_CFG, 31, 16⟩
    if flag s F.CLK_CTRL_PPS_OUT_EN ∧ outputsLive s ∧ s.counter.toNat = time ∧ off ≤ 5 * time ∧
        (5 * time - off) % 4000000000 < 5 then
      raise (emit (setClk s fun c => { c with ppsOut := true, ppsRise := time }) (.pin "PPS_OUT" true)) 25
    else s) s

/-- Samples for which PPS_OUT (0) stays high, WIDTH µs, or FRAME_OUT (1), its spectra of 8,192; 0 spectra act as 1. -/
def pulseWidth (s : State) (which : Nat) : Nat :=
  if which = 0 then 800 * bitsOf (getR s R.CLK_PPS_OUT_CFG) 15 0
  else 8192 * max 1 (bitsOf (getR s R.CLK_FRAME_OUT_CFG) 15 0)

/-- TIME_OUTPUT_PULSE_END: at local time `time` a pulse has lasted its width (R348). -/
def execTimeOutputPulseEnd (end_ : Timed (Fin 2)) (s : State) : Res :=
  run (fun s =>
    let which := end_.what
    let s := advanceTo s end_.time
    let past (rise : Int) : Bool := rise + pulseWidth s which ≤ s.counter.toNat
    if which = 0 then
      if s.clk.ppsOut ∧ past s.clk.ppsRise then emit (setClk s fun c => { c with ppsOut := false }) (.pin "PPS_OUT" false)
      else s
    else if s.clk.frameOut ∧ past s.clk.frameRise then
      emit (setClk s fun c => { c with frameOut := false }) (.pin "FRAME_OUT" false)
    else s) s

end Sys2Proof.Machine
end

