-- ==== Sys2Proof/Machine/Ptp.lean ====
section
/-! DEFINITION. PTP on the relay path ports: ports, transparent clock, best master, servo, acquisition and time faults
(R339 to R346). -/

namespace Sys2Proof.Machine

/-- Change PTP's hidden state. -/
def setPtp (s : State) (f : Ptp → Ptp) : State := { s with ptp := f s.ptp }

/-- State of port `n`: 0 DISABLED, 1 LISTENING, 2 UNCALIBRATED, 3 SLAVE, 4 PASSIVE, 5 FAULTY (R339). -/
def portState (s : State) (n : Nat) : Nat :=
  getF s (if n = 0 then F.PTP_STATUS_PORT_0_STATE else F.PTP_STATUS_PORT_1_STATE)

/-- Set it; SLAVE_PORT names the port that is UNCALIBRATED or SLAVE. -/
def setPort (s : State) (n st : Nat) : State :=
  let s := setF s (if n = 0 then F.PTP_STATUS_PORT_0_STATE else F.PTP_STATUS_PORT_1_STATE) st
  if st = 2 ∨ st = 3 then setF s F.PTP_STATUS_SLAVE_PORT n else s

/-- Port `n` follows the master. -/
def portFollows (s : State) (n : Nat) : Bool := portState s n == 2 || portState s n == 3

/-! ## Stamps (R341, R342), in 2^-16 ns -/

/-- Mean of differences in half ps, rounded half up to 1/16 ns (R341). -/
def meanLatency (l : List Int) : Nat := ((2 * l.sum + 125 * l.length) / (250 * l.length)).toNat

/-- A measurement of port `n` has these differences so far; with 64 in each direction it is done, and the latencies are
their means. Until then the port has no stamp to use (R341). -/
def measureLatency (s : State) (n : Nat) (rx tx : List Int) : State :=
  if 64 ≤ rx.length ∧ 64 ≤ tx.length then
    let s := setR s (R.PTP_PORT_RX_LAT n) (meanLatency (rx.take 64) % 2 ^ 32)
    let s := setR s (R.PTP_PORT_TX_LAT n) (meanLatency (tx.take 64) % 2 ^ 32)
    setPtp s fun p => { p with
      measured := n :: p.measured.filter (· ≠ n), rxDiffs := p.rxDiffs.drop (· == n), txDiffs := p.txDiffs.drop (· == n) }
  else
    setPtp s fun p => { p with
      measured := p.measured.filter (· ≠ n), rxDiffs := p.rxDiffs.put n rx, txDiffs := p.txDiffs.put n tx }

/-- An event frame passes port `n` while it is being measured; the stamps are in 1/16 ns, 125 half ps (R341). -/
def measureFrame (s : State) (n : Nat) (st : PtpStamp) (egress : Bool) : State :=
  let rx := s.ptp.rxDiffs.get [] n
  let tx := s.ptp.txDiffs.get [] n
  if egress then measureLatency s n rx ((tx ++ [125 * (st.boundary - st.mac)]).take 64)
  else measureLatency s n ((rx ++ [125 * (st.mac - st.boundary)]).take 64) tx

/-- The medium time of an event message on port `n`, in 2^-16 ns (R341, R342). With MB_STAMP the detector stamps it at the
medium boundary, unless it has served a frame within the last 10 µs; that counts. -/
def mediumTime (s : State) (n : Nat) (st : PtpStamp) (egress : Bool) : State × Int :=
  let lat : Int := getR s (if egress then R.PTP_PORT_TX_LAT n else R.PTP_PORT_RX_LAT n)
  let corrected := if egress then st.mac + lat else st.mac - lat
  if flag s ((F.PTP_PORT_CTRL_MB_STAMP n)) then
    if (s.ptp.boundaryAt.find n).any fun t => st.boundary < t + 160000 then
      (bump s (R.PTP_PORT_MB_MISS n), corrected * 4096)
    else (setPtp s fun p => { p with boundaryAt := p.boundaryAt.put n st.boundary }, st.boundary * 4096)
  else (s, corrected * 4096)

/-! ## Transparent clock (R340) -/

/-- Both ports are up and the transparent clock is on. -/
def tcOn (s : State) : Bool := flag s F.PTP_CTRL_TC_EN && decide (0 ∈ s.ptp.up) && decide (1 ∈ s.ptp.up)

/-- Forward a message other than an event message unchanged. -/
def tcForward (s : State) (n type : Nat) (m : PtpMsg) : State :=
  if tcOn s then emit (bump s (R.PTP_PORT_TC_FORWARD (1 - n))) (.ptpFrame (1 - n) type m.correction m.body) else s

/-- Forward an event message with its residence time added. An egress port whose latency is not measured has no stamp to
use: the frame is not forwarded and counts there (R341). -/
def tcForwardEvent (s : State) (n type : Nat) (m : PtpMsg) (rx : Int) (egress : PtpStamp) : State :=
  if ¬ tcOn s then s
  else if (1 - n) ∈ s.ptp.measured then
    let (s, tx) := mediumTime s (1 - n) egress true
    emit (bump s (R.PTP_PORT_TC_FORWARD (1 - n))) (.ptpFrame (1 - n) type (m.correction + (tx - rx)) m.body)
  else measureFrame (bump s (R.PTP_PORT_RX_DISCARD (1 - n))) (1 - n) egress true

/-! ## Best master (R339, R343) -/

/-- An identity as a number whose order is that of its octets; octet 0 is the low byte, as in `PTP_CLOCK_ID` (R349). -/
def octetOrder (d : DWord) : Nat := (List.range 8).foldl (fun n i => 256 * n + bitsOf d.toNat (8 * i + 7) (8 * i)) 0

/-- The order of two datasets (IEEE 1588-2019 clause 9.3): the parts in the order of comparison. -/
def datasetKey (m : PtpMaster) (port : Nat) : List Nat :=
  [m.data.priority1.toNat, m.data.clockClass.toNat, m.data.accuracy.toNat, m.data.variance.toNat, m.data.priority2.toNat,
   octetOrder m.data.grandmaster, m.data.stepsRemoved.toNat, octetOrder m.clockId, m.portNumber.toNat, port]

/-- The first list is lexicographically smaller. -/
def lexLess : List Nat → List Nat → Bool
  | a :: as, b :: bs => a < b || (a == b && lexLess as bs)
  | [], _ :: _ => true
  | _, [] => false

/-- The better of two masters heard on port `n`. -/
def betterMaster (n : Nat) (a b : PtpMaster) : PtpMaster := if lexLess (datasetKey b n) (datasetKey a n) then b else a

/-- The best master that port `n` hears. -/
def portBest (s : State) (n : Nat) : Option PtpMaster :=
  match s.ptp.masters.get [] n with
  | m :: ms => some (ms.foldl (betterMaster n) m)
  | [] => none

/-- The best master the enabled ports hear, with its port. -/
def bestMaster (s : State) : Option (Nat × PtpMaster) :=
  let on := fun n => bitOf (getF s F.PTP_CTRL_PORT_EN) n
  match (if on 0 then portBest s 0 else none), (if on 1 then portBest s 1 else none) with
  | some a, some b => if lexLess (datasetKey b 1) (datasetKey a 0) then some (1, b) else some (0, a)
  | some a, none => some (0, a)
  | none, some b => some (1, b)
  | none, none => none

/-- The port identity of a master. -/
def PtpMaster.sameAs (a b : PtpMaster) : Bool := a.clockId == b.clockId && a.portNumber == b.portNumber

/-- The ports take their states from the masters heard: the port of the best master follows it, from UNCALIBRATED if it
did not follow that master before; a port that hears only the same master is PASSIVE (R339, R343). -/
def choosePorts (s : State) : State :=
  if ¬ flag s F.PTP_CTRL_EN then qualChange s
  else
    qualChange <| match bestMaster s with
    | none => (List.range 2).foldl (fun s n => if portState s n = 0 then s else setPort s n 1) s
    | some (n, m) =>
      let same := portFollows s n && getPair s R.PTP_MASTER_ID_LO == m.clockId.toNat &&
        getR s R.PTP_MASTER_PORT % 2 ^ 16 == m.portNumber.toNat
      let o := 1 - n
      let heard := s.ptp.masters.get [] o
      let passive := heard != [] && heard.all (m.sameAs ·)
      let s := if portState s o = 0 then s else setPort s o (if passive then 4 else 1)
      let s := setR (setPair s R.PTP_MASTER_ID_LO m.clockId.toNat) R.PTP_MASTER_PORT
        (m.data.clockClass.toNat * 2 ^ 16 + m.portNumber.toNat)
      if same then s
      else
        setPtp (setPort s n 2) fun p => { p with
          waiting := none, sync := none, req := none, delays := [], syncs := 0, resps := 0, near := 0 }

/-- The slave takes messages on port `n`: PTP is on, and the port and its link are. -/
def ptpListens (s : State) (n : Nat) : Bool :=
  decide (n ∈ s.ptp.up) && flag s F.PTP_CTRL_EN && portState s n != 0

/-- A message of another domain or version is discarded and counted; none is used while PTP is off (R339). -/
def ptpReceive (s : State) (n : Nat) (m : PtpMsg) (f : State → State) : State :=
  if ¬ ptpListens s n then s
  else if m.version.val ≠ 2 ∨ m.domain.toNat ≠ getF s F.PTP_CTRL_DOMAIN then bump s (R.PTP_PORT_RX_DISCARD n)
  else f s

/-- A message arrives on port `n`. A management message is forwarded unprocessed and a peer-delay message is not; the slave
discards both and counts them (R339, R340). A Signaling message or one of a reserved type is forwarded like every frame, and
the slave has no use for it. Otherwise the message is its row's own. -/
def ptpArrives (s : State) (n : Nat) (m : PtpMsg) (f : State → State) : State :=
  let count (s : State) : State := if ptpListens s n then bump s (R.PTP_PORT_RX_DISCARD n) else s
  if n ∉ s.ptp.up then s
  else match m.kind with
    | .own => f s
    | .management => count (tcForward s n 13 m)
    | .signaling => ptpReceive (tcForward s n 12 m) n m fun s => s
    | .reserved i => ptpReceive (tcForward s n ([4, 5, 6, 7, 14, 15].getD i 0) m) n m fun s => s
    | .peerDelay => count s

/-- The message comes from the master that port `n` follows. -/
def fromMaster (s : State) (n : Nat) (m : PtpMsg) : Bool :=
  portFollows s n && getPair s R.PTP_MASTER_ID_LO == m.clockId.toNat &&
    getR s R.PTP_MASTER_PORT % 2 ^ 16 == m.portNumber.toNat

/-! ## The servo (R343, R344) -/

/-- Units of 2^-16 ns in one sample. -/
abbrev sampleUnits : Int := 81920

/-- ps of a value in 2^-16 ns, rounded down. -/
def unitsToPs (v : Int) : Int := v * 1000 / 65536

/-- Saturate to 32 signed bits. -/
def sat32s (v : Int) : Int := max (-(2 ^ 31)) (min (2 ^ 31 - 1) v)

/-- The counter is stepped by the filtered offset, rounded half up to whole samples; the remainder is slewed (R343,
R345). -/
def stepByOffset (s : State) (off : Int) : State :=
  let k := (2 * off + sampleUnits) / (2 * sampleUnits)
  let s := stepCounter s ((s.counter.toNat : Int) - k).toNat
  let s := addRemain s (-(unitsToPs (off - k * sampleUnits)))
  setPtp s fun p => { p with waiting := none, sync := none, req := none, offset := none, near := 0, far := 0 }

/-- The servo may correct, and the timekeeper that runs it does not restart (R334, R344, R414). -/
def servoCorrects (s : State) : Bool :=
  !s.mail.restarting && dpllState s != 4 && selectedSource s != 3 && selectedSource s != 4 && !flag s F.CLK_STATUS_TIME_FAULT

/-- Rate-only correction by amounts that no rule states (R343; log entry 1). -/
def servoCorrect (s : State) : State :=
  if servoCorrects s then
    let s := freeTaken (setR s R.CLK_PHASE_REMAIN ((freeNext s).toNat % 2 ^ 32))
    if dpllState s = 5 ∧ ¬ flag s F.CLK_CTRL_STEER_OWNER then
      freeTaken (setR s R.CLK_STEER_FFO (ofSigned 32 (clampSteer (toSigned 32 (freeNext s).toNat))))
    else s
  else s

/-- TIME_FAULT takes a value (R344, R345). -/
def setTimeFault (s : State) (on : Bool) : State :=
  let s := refreshLevels (setF s F.CLK_STATUS_TIME_FAULT (ofBool on))
  if on then raise s 17 else setPtp s fun p => { p with far := 0 }

/-- A new filtered offset: registers, acquisition after 16 pairs where the servo may correct, SLAVE after 16 offsets within
100 ns, TIME_FAULT after too many beyond the threshold, and correction after acquisition (R334, R343, R344). Before the 16
pairs there is no filtered path delay yet, and nothing is counted (DEDUCED, log entry 28). -/
def newOffset (s : State) (n : Nat) (sync : PtpSync) (correct : Bool) : State :=
  match s.ptp.delays with
  | [] => s
  | d :: ds =>
    let pd := ds.foldl min d
    let asym := toSigned 32 (getR s (R.PTP_PORT_ASYM n)) * 65536 / 1000
    let off := sync.t2 - sync.t1 - pd - sync.corr - asym
    let s := setR s R.PTP_OFFSET (ofSigned 32 (sat32s (unitsToPs off)))
    let s := setR s R.PTP_PATH_DELAY (ofSigned 32 (unitsToPs pd))
    let s := setPtp s fun p => { p with offset := some off }
    let pairs := decide (16 ≤ s.ptp.syncs) && decide (16 ≤ s.ptp.resps)
    if ¬ flag s F.PTP_STATUS_ACQUIRED ∧ pairs = false then s
    else if ¬ flag s F.PTP_STATUS_ACQUIRED ∧ servoCorrects s = true then
      setF (setF (stepByOffset s off) F.CLK_STATUS_TIME_VALID 1) F.PTP_STATUS_ACQUIRED 1
    else
      let acquired := flag s F.PTP_STATUS_ACQUIRED
      let near := if off.natAbs ≤ 100 * 65536 ∧ acquired then s.ptp.near + 1 else 0
      let far := if getR s R.PTP_RESTEP_THRESH * 65536 < off.natAbs then s.ptp.far + 1 else 0
      let s := setPtp s fun p => { p with near := near, far := far }
      let s := if 16 ≤ near ∧ portState s n = 2 then setPort s n 3 else s
      let s := if max 1 (getR s R.PTP_FAULT_SAMPLES) ≤ far ∧ ¬ flag s F.CLK_STATUS_TIME_FAULT then setTimeFault s true
        else s
      qualChange (if correct ∧ acquired then servoCorrect s else s)

/-- A Sync is complete. -/
def syncDone (s : State) (n : Nat) (sync : PtpSync) : State :=
  let s := setPtp s fun p => { p with waiting := none, sync := some sync, syncs := p.syncs + 1 }
  newOffset s n sync true

/-! ## The commands -/

/-- PTP_SYNC_RECEIVED: `origin` is its timestamp in ns for a one-step master, none for a two-step one; forwarded through
the transparent clock (R339 to R343). -/
def execPtpSyncReceived (n : Fin 2) (m : PtpMsg) (origin : Option Nat) (ingress egress : PtpStamp) (s : State) : Res :=
  run (fun s =>
    ptpArrives s n m fun s =>
      if n.val ∉ s.ptp.measured then measureFrame (bump s (R.PTP_PORT_RX_DISCARD n)) n ingress false
      else
        let (s, t2) := mediumTime s n ingress false
        let s := tcForwardEvent s n 0 m t2 egress
        ptpReceive s n m fun s =>
          if fromMaster s n m then
            let s := bump s (R.PTP_PORT_RX_SYNC n)
            match origin with
            | some t1 => syncDone s n ⟨t1 * 65536, t2, m.correction⟩
            | none => setPtp s fun p => { p with waiting := some (m.seq.toNat, t2, m.correction) }
          else s) s

/-- PTP_FOLLOW_UP_RECEIVED with the precise origin time in ns (R340, R343). -/
def execPtpFollowUpReceived (n : Fin 2) (m : PtpMsg) (origin : Nat) (s : State) : Res :=
  run (fun s =>
    ptpArrives s n m fun s =>
      let s := tcForward s n 8 m
      ptpReceive s n m fun s =>
        match s.ptp.waiting with
        | some (seq, t2, corr) =>
          if fromMaster s n m ∧ seq = m.seq.toNat then
            syncDone (bump s (R.PTP_PORT_RX_FOLLOW_UP n)) n ⟨origin * 65536, t2, corr + m.correction⟩
          else s
        | none => s) s

/-- PTP_DELAY_RESP_RECEIVED: `received` is t4 in ns, `requester` the clockIdentity it answers (R340, R343, R344). -/
def execPtpDelayRespReceived (n : Fin 2) (m : PtpMsg) (received : Nat) (requester : DWord) (s : State) : Res :=
  run (fun s =>
    ptpArrives s n m fun s =>
      let s := tcForward s n 9 m
      ptpReceive s n m fun s =>
        if requester.toNat ≠ getPair s R.PTP_CLOCK_ID_LO ∨ ¬ fromMaster s n m then s
        else
          let s := bump s (R.PTP_PORT_RX_DELAY_RESP n)
          match s.ptp.req, s.ptp.sync with
          | some (seq, t3), some sync =>
            if seq = m.seq.toNat then
              let pd := ((sync.t2 - sync.t1 - sync.corr) + (received * 65536 - t3 - m.correction)) / 2
              let s := setPtp s fun p => { p with
                req := none, resps := p.resps + 1, delays := (pd :: p.delays).take 16 }
              newOffset s n sync false
            else s
          | _, _ => s) s

/-- PTP_ANNOUNCE_RECEIVED (R339, R340, R343). -/
def execPtpAnnounceReceived (n : Fin 2) (m : PtpMsg) (data : PtpDataset) (s : State) : Res :=
  run (fun s =>
    ptpArrives s n m fun s =>
      let s := tcForward s n 11 m
      ptpReceive s n m fun s =>
        let x : PtpMaster := ⟨data, m.clockId, m.portNumber⟩
        choosePorts (setPtp s fun p => { p with masters := p.masters.upd [] n fun l => x :: l.filter fun y => !x.sameAs y })) s

/-- PTP_DELAY_REQ_SEND: the port that follows the master sends one; its egress stamp is t3, unless the
port has no stamp to use yet (R339, R341). -/
def execPtpDelayReqSend (n : Fin 2) (stamp : PtpStamp) (s : State) : Res :=
  run (fun s =>
    if portFollows s n ∧ n.val ∈ s.ptp.up then
      let s := if n.val ∈ s.ptp.measured then
          let (s, t3) := mediumTime s n stamp true
          setPtp s fun p => { p with req := some (p.reqSeq % 2 ^ 16, t3) }
        else measureFrame (setPtp s fun p => { p with req := none }) n stamp true
      let s := setPtp s fun p => { p with reqSeq := p.reqSeq + 1 }
      emit (bump s (R.PTP_PORT_TX_DELAY_REQ n)) (.ptpFrame n 1 0 [])
    else s) s

/-- PTP_DELAY_REQ_RECEIVED: forwarded with its residence time; the slave counts one of another domain or version and has no
use for any other (R339, R340). -/
def execPtpDelayReqReceived (n : Fin 2) (m : PtpMsg) (ingress egress : PtpStamp) (s : State) : Res :=
  run (fun s =>
    ptpArrives s n m fun s =>
      if n.val ∉ s.ptp.measured then measureFrame (bump s (R.PTP_PORT_RX_DISCARD n)) n ingress false
      else
        let (s, rx) := mediumTime s n ingress false
        ptpReceive (tcForwardEvent s n 1 m rx egress) n m fun s => s) s

/-- The measurement of port `n` begins, with the differences in ps of the event frames that it has had already (R341). -/
def measureBegin (s : State) (n : Nat) (rx tx : List Int) : State :=
  measureLatency s n (rx.map (2 * ·)) (tx.map (2 * ·))

/-- PTP_LINK_UP: the port's link is up, and its latencies are measured over the first 64 event frames in each direction, of
which the command brings the differences in ps as far as they have passed (R341). -/
def execPtpLinkUp (n : Fin 2) (rx tx : List Int) (s : State) : Res :=
  run (fun s => measureBegin (setPtp s fun p => { p with up := n.val :: p.up.filter (· ≠ n.val) }) n rx tx) s

/-- A write of MEASURE: the measurement is repeated while the link stays up (R342). -/
def measureWrite (s : State) (n : Nat) (rx tx : List Int) : State :=
  if n ∈ s.ptp.up then measureBegin s n rx tx else s

/-- PTP_MEASURE_WRITE. -/
def execPtpMeasureWrite (n : Fin 2) (rx tx : List Int) (s : State) : Res := run (measureWrite · n rx tx) s

/-- RELAY_PATH_PORT_DOWN (R341). -/
def execRelayPathPortDown (n : Fin 2) (s : State) : Res :=
  run (setPtp · fun p => { p with up := p.up.filter (· ≠ n.val), measured := p.measured.filter (· ≠ n.val) }) s

/-- EN and PORT_EN of `PTP_CTRL`: enabled ports go LISTENING, others are DISABLED (R343). -/
def setPtpEnable (s : State) (en : Bool) (ports : Nat) : State :=
  let was := flag s F.PTP_CTRL_EN
  let s := setF (setF s F.PTP_CTRL_EN (ofBool en)) F.PTP_CTRL_PORT_EN ports
  let s := (List.range 2).foldl (fun s n =>
    if en && bitOf ports n then if was && portState s n != 0 then s else setPort s n 1
    else
      setPtp (setPort s n 0) fun p => { p with masters := p.masters.drop (· == n) }) s
  choosePorts s

/-- PTP_ENABLE_WRITE. -/
def execPtpEnableWrite (en : Bool) (ports : BitVec 2) (s : State) : Res := run (setPtpEnable · en ports.toNat) s

/-- PTP_MASTER_LOSS: the port hears the master it follows no more, or, following none, hears none (R343). -/
def execPtpMasterLoss (n : Fin 2) (s : State) : Res :=
  run (fun s =>
    if portState s n = 0 then s
    else
      let followed (x : PtpMaster) : Bool := getPair s R.PTP_MASTER_ID_LO == x.clockId.toNat &&
        getR s R.PTP_MASTER_PORT % 2 ^ 16 == x.portNumber.toNat
      let s := setPtp s fun p => { p with
        masters := p.masters.upd [] n.val fun l => if portFollows s n then l.filter fun x => !followed x else [] }
      choosePorts (setPort s n 1)) s

/-- FAULT_CLEAR: TIME_FAULT clears without a step; the whole offset is slewed out (R345). -/
def faultClear (s : State) : State :=
  if flag s F.CLK_STATUS_TIME_FAULT then
    let s := setTimeFault s false
    match s.ptp.offset with
    | some off => addRemain s (-(unitsToPs off))
    | none => s
  else s

/-- FAULT_CLEAR. -/
def execFaultClear (s : State) : Res := run faultClear s

/-- STEP_PERMIT: while TIME_FAULT is set, the counter is stepped by the latest filtered offset (R345, R358). -/
def stepPermit (s : State) (src : CmdSource) (tag : Nat) : State :=
  let s := if flag s F.CLK_STATUS_TIME_FAULT then
      let s := match s.ptp.offset with
        | some off => stepByOffset s off
        | none => s
      setTimeFault s false
    else s
  respond s src 8 tag stOk 0 []

/-- STEP_PERMIT. -/
def execStepPermit (src : CmdSource) (tag : Word) (s : State) : Res :=
  run (fun s => serve s src 8 tag.toNat [] (stepPermit · src tag.toNat)) s

end Sys2Proof.Machine
end

