-- ==== Sys2Proof/Machine/Plain.lean ====
section
/-! DEFINITION. A write by access code alone, the CLK_ and PTP_ registers, and what the firmware of a slot keeps of them across
boots (R8, R9, R348, R402). -/

namespace Sys2Proof.Machine

/-! ## By access code (R9) -/

/-- The bits of the register at `a` whose fields have access code `c`. -/
def accMask (a : Nat) (c : Acc) : Word :=
  match RegMap.row? a with
  | some r => (r.fields.filter (·.acc == c)).foldl (fun w f => w ||| Fld.mask ⟨a, f.hi, f.lo⟩) 0
  | none => 0

/-- A register's word after a write of `v` by its access codes alone: RW bits take the value, W1C bits written 1 clear,
W1S bits written 1 set, every other bit stays (R9). -/
def codedWord (a : Nat) (old v : Word) : Word :=
  (old &&& ~~~(accMask a .rw) &&& ~~~(accMask a .w1c &&& v)) ||| (accMask a .rw &&& v) ||| (accMask a .w1s &&& v)

/-- A write by access code, a pair's value taking effect with its high word (R8, R9). -/
def plainWrite (s : State) (a : Nat) (v : Word) : State :=
  let w := codedWord a (rd s a) v
  if w = rd s a ∧ accMask a .rw = 0 then s
  else if isPairLow a then writePairLow s a w
  else if isPairLow (a - 4) then writePairHigh s (a - 4) w
  else wr s a w

/-- The bits of `v` in an RW field, as a number. -/
def fieldOf (v : Word) (f : Fld) : Nat := bitsOf v.toNat f.hi f.lo

/-! ## CLK_ and PTP_ -/

/-- CLK_ and PTP_ registers (R327, R335, R336, R342, R347, R348). -/
def clkWrite (s : State) (m : Master) (a : Nat) (v : Word) : State :=
  if a = R.CLK_STEER_FFO then steerWrite s m v
  else if a = R.CLK_PHASE_ADJ then phaseAdjWrite s m v
  else if a = R.CLK_SET_TIME_HI then setTimeArm s v
  else if a = R.CLK_SET_TIME_LO then (if flag s F.PTP_CTRL_EN then s else plainWrite s a v)
  else if a = R.CLK_CTRL then qualChange (outputsCheck (plainWrite s a v))
  else if a = R.PTP_CTRL then
    let s := setF (setF s F.PTP_CTRL_TC_EN (fieldOf v F.PTP_CTRL_TC_EN)) F.PTP_CTRL_DOMAIN (fieldOf v F.PTP_CTRL_DOMAIN)
    let s := setPtpEnable s (v.getLsbD 0) (fieldOf v F.PTP_CTRL_PORT_EN)
    if v.getLsbD 4 then faultClear s else s
  else if a = R.PTP_PORT_CTRL 0 ∨ a = R.PTP_PORT_CTRL 1 then
    let s := plainWrite s a v
    if v.getLsbD 1 then measureWrite s (if a = R.PTP_PORT_CTRL 0 then 0 else 1) [] [] else s
  else plainWrite s a v

/-! ## The settings kept in flash (R348, R402, R415; log entry 60) -/

/-- `a` holds CLK_ or PTP_ configuration: its RW fields, but for a time to set and a frequency steered. -/
def settingsReg (a : Nat) : Bool :=
  0x100000 ≤ a && a < 0x110000 && accMask a .rw != 0 && a != R.CLK_STEER_FFO && a != R.CLK_SET_TIME_LO && a != R.CLK_SET_TIME_HI

/-- The CLK_ and PTP_ configuration as it stands; an unlisted register is at its reset value. -/
def settingsNow (s : State) : SMap Word :=
  (s.regs.filter fun e => settingsReg e.1).map fun e => (e.1, e.2 &&& accMask e.1 .rw)

/-- The firmware of a flash slot runs. -/
def slotRuns (s : State) : Bool :=
  s.str.firmware && getF s F.PWR_BOOT_BOOT_SRC == 0 && (s.str.slots.find (getF s F.STR_STATUS_BOOT_SLOT)).isSome

/-- The settings area of the running slot holds the configuration that its firmware has kept up to now, in its format. The
spec does not say when it is written: it is as if each write had been kept (DESIGN CHOICE, log entry 60). -/
def settingsSave (s : State) : State :=
  if slotRuns s then
    let k := getF s F.STR_STATUS_BOOT_SLOT
    { s with str := { s.str with settings := s.str.settings.put k ⟨leAt (s.str.slots.get [] k) 40 4, settingsNow s⟩ } }
  else s

/-- The timekeeper restores the configuration from slot `k`'s settings; a register that holds its word already is left alone
(R348). -/
def settingsRestore (s : State) (k : Nat) : State :=
  (s.str.settings.get ⟨0, []⟩ k).regs.foldl (fun s e =>
    if rd s e.1 &&& accMask e.1 .rw = e.2 then s else clkWrite s .timekeeper e.1 e.2) s

end Sys2Proof.Machine
end

