-- ==== Sys2Proof/Machine/Beryl.lean ====
section
/-! DEFINITION. The Beryl cores: registers and pipeline, addressing, arithmetic, repeats, interrupts, faults, and every
instruction (R268 to R297). A command names a core and the instruction that stands at its PC. -/

namespace Sys2Proof.Machine

/-! ## A core and its registers (R274, R282) -/

/-- Change core `k`. -/
def setBrl (s : State) (k : Nat) (f : BrlCore → BrlCore) : State := { s with brl := s.brl.put k (f (brlCore s k)) }

/-- STATE of core `k`: 0 RESET, 1 RUN, 2 HALTED, 3 WAIT, 4 FAULT (R297). -/
def brlState (s : State) (k : Nat) : Nat := getF s (F.BRL_STATUS_STATE k)

/-- A register slot as the next instruction sees it. -/
def BrlCore.slot (c : BrlCore) (i : Nat) : Nat := (c.file.get 0 i).toNat

/-- A register slot as a two's-complement number of `w` bits. -/
def BrlCore.sslot (c : BrlCore) (w i : Nat) : Int := toSigned w (c.slot i)

/-- A write lands: its bits replace those of the slot. -/
def BrlFlight.land (file : SMap DWord) (f : BrlFlight) : SMap DWord :=
  file.upd 0 f.slot fun v => (v &&& ~~~f.mask) ||| (f.val &&& f.mask)

/-- The next instruction is number `c.count`: the writes it sees land, in program order (R282, R283). -/
def BrlCore.landed (c : BrlCore) : BrlCore :=
  { c with
    file := (c.flight.filter (·.due ≤ c.count)).foldl BrlFlight.land c.file
    flight := c.flight.filter (c.count < ·.due) }

/-- The pipeline drains: every write lands, in the order it would have landed. -/
def BrlCore.drained (c : BrlCore) : BrlCore :=
  { c with
    file := ((List.range 4).flatMap fun d => c.flight.filter (·.due == c.count + d)).foldl BrlFlight.land c.file
    flight := [] }

/-- A write of the instruction in work, first seen `d` instructions later (R282). -/
def BrlCore.put (c : BrlCore) (d slot : Nat) (mask val : Nat) : BrlCore :=
  { c with flight := c.flight ++ [⟨c.count + d, slot, BitVec.ofNat 64 mask, BitVec.ofNat 64 val⟩] }

/-- A write of a D register, seen `d` instructions later. -/
def BrlCore.putD (c : BrlCore) (d r v : Nat) : BrlCore := c.put d r (2 ^ 32 - 1) v

/-- The flags N, Z, C, V: seen by the next instruction, and by a branch one later. -/
def BrlCore.putFlags (c : BrlCore) (nzcv : Nat) : BrlCore := (c.put 1 52 15 nzcv).put 2 72 15 nzcv

/-- A sticky bit of SR is set: 7 CO, 6 AV, 5 SV. -/
def BrlCore.stick (c : BrlCore) (bit : Nat) (b : Bool) : BrlCore := if b then c.put 1 52 (2 ^ bit) (2 ^ bit) else c

/-- The bits that areg `a` holds: pointers, modifiers and bases 24, lengths 17, SR without its reserved bits; LC0 to LC2
are read-only (R274). -/
def aregMask (a : Nat) : Nat :=
  if a < 16 then 0xFFFFFF else if a < 20 then 0x1FFFF else if a = 20 then 0x801F00EF else 0

/-- A write of areg `a`, seen three instructions later; SR also carries the flags a branch sees (R282). -/
def BrlCore.putAreg (c : BrlCore) (a v : Nat) : BrlCore :=
  let c := c.put 3 (32 + a) (aregMask a) v
  if a = 20 then c.put 3 72 15 v else c

/-- Areg `a` read into a D register; modifiers are signed (R274). -/
def BrlCore.areg (c : BrlCore) (a : Nat) : Nat :=
  if 8 ≤ a ∧ a < 12 then ofSigned 32 (c.sslot 24 (32 + a)) else c.slot (32 + a)

/-- Accumulator `a` as the next MAC operation sees it. -/
def BrlCore.acc (c : BrlCore) (a : Nat) : Int := c.sslot 40 (64 + a)

/-- A write of accumulator `a`: seen by the next MAC operation, and by MOVA and MOVAC one later (R282). -/
def BrlCore.putAcc (c : BrlCore) (a : Nat) (v : Int) : BrlCore :=
  (c.put 1 (64 + a) (2 ^ 40 - 1) (ofSigned 40 v)).put 2 (68 + a) (2 ^ 40 - 1) (ofSigned 40 v)

/-! ## Instructions (R294, R295) -/

/-- The MAC operations (R278). -/
inductive BrlMac where
  | mac | msu | mac2 | msu2 | cmac | cmsu | cmacj | cmacz
  deriving DecidableEq, Repr

/-- The operations of two D registers, a shift amount and a D result (R281). -/
inductive BrlAlu where
  | add | addc | sub | subc | and | or | xor | not | shl | shr | asr | asrr | shlv | asrv | abs | neg | min | max | cmp
  | mov | cadd | csub | conj | mpy | mpyh | cmpy
  deriving DecidableEq, Repr

/-- An instruction of a core. Register numbers are those of its fields; `acc` is an accumulator or the even one of a pair. -/
inductive BrlOp where
  | pm (op : Option BrlMac) (acc s t : Nat) (mv : BrlMoves)
  | la (areg imm : Nat)
  | loop (intr : Bool) (count : BrlCount) (len : Nat)
  | branch (cond target : Nat) (call : Bool)
  | movk (d imm : Nat)
  | movkh (d imm : Nat)
  | addk (d imm : Nat)
  | cmpk (d imm : Nat)
  | load (x : BrlAccess)
  | store (x : BrlAccess)
  | ldc (d p disp : Nat)
  | alu (op : BrlAlu) (d s t n : Nat)
  | mova (d a : Nat)
  | movac (d a : Nat)
  | movda (a s : Nat)
  | clra (mask : Nat)
  | movrTo (areg s : Nat)
  | movrFrom (d areg : Nat)
  | aadd (areg s : Nat)
  | aaddk (areg imm : Nat)
  | nop | ret | reti | halt | wait | swi | fence
  | setIe (v : Bool)
  | sev (e : Nat)
  | iter (count : BrlCount)
  deriving DecidableEq, Repr

/-- The MAC operation of PM code `c`: codes 1 to 6 (R295). -/
def pmCode (c : Nat) : Option BrlMac :=
  match c with
  | 1 => some .mac2
  | 2 => some .cmac
  | 3 => some .cmacj
  | 4 => some .cmsu
  | 5 => some .msu2
  | 6 => some .cmacz
  | _ => none

/-- One parallel move from its kind, pointer, mode and register fields; kind 3 is illegal (R294). -/
def moveCode (kind p mode r : Nat) : Option BrlMove :=
  match kind with
  | 0 => some .none
  | 1 => some (.load (Fin.ofNat 4 p) (mode == 1) (Fin.ofNat 8 r))
  | 2 => some (.store (Fin.ofNat 4 p) (mode == 1) (Fin.ofNat 8 r))
  | _ => none

/-- The operation of R function `f`, codes 0x00 to 0x22 (R295). -/
def aluCode (f : Nat) : Option BrlAlu :=
  match f with
  | 0x00 => some .add | 0x01 => some .addc | 0x02 => some .sub | 0x03 => some .subc
  | 0x04 => some .and | 0x05 => some .or | 0x06 => some .xor | 0x07 => some .not
  | 0x08 => some .shl | 0x09 => some .shr | 0x0A => some .asr | 0x0B => some .asrr
  | 0x0C => some .shlv | 0x0D => some .asrv | 0x0E => some .abs | 0x0F => some .neg
  | 0x10 => some .min | 0x11 => some .max | 0x12 => some .cmp | 0x13 => some .mov
  | 0x18 => some .cadd | 0x19 => some .csub | 0x1A => some .conj
  | 0x20 => some .mpy | 0x21 => some .mpyh | 0x22 => some .cmpy
  | _ => none

/-- The MAC operation of R function `f`, codes 0x28 to 0x2D, and whether it names a pair (R295). -/
def macCode (f : Nat) : Option (BrlMac × Bool) :=
  match f with
  | 0x28 => some (.mac, false)
  | 0x29 => some (.msu, false)
  | 0x2A => some (.mac2, true)
  | 0x2B => some (.cmac, true)
  | 0x2C => some (.cmacj, true)
  | 0x2D => some (.cmsu, true)
  | _ => none

/-- A count operand: SRC 0 immediate, 1 register (R294). -/
def countCode (src v : Nat) : BrlCount := if src = 0 then .imm (BitVec.ofNat 16 v) else .reg (Fin.ofNat 16 v)

/-- Decode formats PM, LA and LOOP. -/
def decodeWide (w : Nat) : Option BrlOp :=
  let b (hi lo : Nat) : Nat := bitsOf w hi lo
  if b 31 30 = 3 then
    if b 25 25 = 0 ∧ b 18 18 = 0 ∧ b 1 0 = 0 ∧ b 29 27 ≠ 7 then
      match moveCode (b 17 16) (b 15 14) (b 13 13) (b 12 10), moveCode (b 9 8) (b 7 6) (b 5 5) (b 4 2) with
      | some x, some y => some (.pm (pmCode (b 29 27)) (2 * b 26 26) (b 24 22) (b 21 19) ⟨x, y⟩)
      | _, _ => none
    else none
  else if b 31 29 = 5 then if b 28 24 < 24 then some (.la (b 28 24) (b 23 0)) else none
  else if b 31 29 = 4 then
    if b 26 26 = 0 then some (.loop (b 28 28 == 1) (countCode (b 27 27) (b 15 0)) (b 25 16)) else none
  else none

/-- Decode formats B, K and M. An access on X names P0 to P3 and one on Y names P4 to P7 (R268). -/
def decodeMid (w : Nat) : Option BrlOp :=
  let b (hi lo : Nat) : Nat := bitsOf w hi lo
  if b 31 28 = 7 then
    if b 22 15 = 0 ∧ b 27 24 ≤ 12 then some (.branch (b 27 24) (b 14 0) (b 23 23 == 1)) else none
  else if b 31 28 = 6 then
    if b 21 16 ≠ 0 then none
    else match b 27 26 with
      | 0 => some (.movk (b 25 22) (b 15 0))
      | 1 => some (.movkh (b 25 22) (b 15 0))
      | 2 => some (.addk (b 25 22) (b 15 0))
      | _ => some (.cmpk (b 25 22) (b 15 0))
  else if b 31 28 = 5 then
    let x : BrlAccess := { y := b 26 25 == 1, d := Fin.ofNat 16 (b 24 21), p := Fin.ofNat 8 (b 20 18),
                           mode := Fin.ofNat 4 (b 17 16), disp := BitVec.ofNat 12 (b 11 0) }
    if b 15 12 ≠ 0 ∨ b 26 25 = 3 then none
    else if b 26 25 = 2 then if b 27 27 = 0 then some (.ldc (b 24 21) (b 20 18) (b 11 0)) else none
    else if b 26 25 ≠ b 20 20 then none
    else some (if b 27 27 = 0 then .load x else .store x)
  else none

/-- Decode format R. -/
def decodeR (w : Nat) : Option BrlOp :=
  let b (hi lo : Nat) : Nat := bitsOf w hi lo
  if b 4 0 ≠ 0 then none
  else match aluCode (b 27 22), macCode (b 27 22) with
    | some op, _ => some (.alu op (b 21 18) (b 17 14) (b 13 10) (b 9 5))
    | none, some (op, pair) =>
      some (.pm (some op) (if pair then 2 * b 19 19 else b 19 18) (b 17 14) (b 13 10) ⟨.none, .none⟩)
    | none, none =>
      match b 27 22 with
      | 0x30 => some (.mova (b 21 18) (b 15 14))
      | 0x31 => some (.movac (b 21 18) (2 * b 15 15))
      | 0x32 => some (.movda (b 19 18) (b 17 14))
      | 0x33 => some (.clra (b 21 18))
      | _ => none

/-- Decode formats A and S. -/
def decodeAs (w : Nat) : Option BrlOp :=
  let b (hi lo : Nat) : Nat := bitsOf w hi lo
  if b 31 28 = 3 then
    if 24 ≤ b 23 19 then none
    else match b 27 24 with
      | 0 => some (.movrTo (b 23 19) (b 18 15))
      | 1 => some (.movrFrom (b 18 15) (b 23 19))
      | 2 => some (.aadd (b 23 19) (b 18 15))
      | 3 => some (.aaddk (b 23 19) (b 14 0))
      | _ => none
  else if b 31 28 = 2 then
    match b 27 24 with
    | 0 => some .nop
    | 1 => some .ret
    | 2 => some .reti
    | 3 => some .halt
    | 4 => some .wait
    | 5 => some .swi
    | 6 => some .fence
    | 7 => some (.setIe true)
    | 8 => some (.setIe false)
    | 9 => some (.sev (b 1 0))
    | 10 => some (.iter (countCode (b 23 23) (b 15 0)))
    | _ => none
  else none

/-- Decode an instruction word; none is an undefined encoding (R294, R295). -/
def brlDecode (w : Nat) : Option BrlOp :=
  let top := w / 2 ^ 28 % 16
  if 8 ≤ top then decodeWide w
  else if 5 ≤ top then decodeMid w
  else if top = 4 then decodeR w
  else decodeAs w

/-! ## Arithmetic (R278 to R281) -/

/-- What an integer operation gives: the result if it writes one, whether it is seen one instruction later than others, the
flags it sets, and whether it saturated. -/
structure AluOut where
  val : Option Nat
  late : Bool
  flags : Option Nat
  sv : Bool
  deriving DecidableEq, Repr

/-- The flags of a result with carry `c` and overflow `v`. -/
def nzcv (r : Nat) (c v : Bool) : Nat :=
  8 * ofBool (bitOf r 31) + 4 * ofBool (r == 0) + 2 * ofBool c + ofBool v

/-- Addition modulo 2^32 with its flags. -/
def aluAdd (a b cin : Nat) : AluOut :=
  let r := (a + b + cin) % 2 ^ 32
  ⟨some r, false, some (nzcv r (2 ^ 32 ≤ a + b + cin) (toSigned 32 a + toSigned 32 b + cin != toSigned 32 r)), false⟩

/-- Subtraction modulo 2^32 with its flags; C is "no borrow". -/
def aluSub (a b bin : Nat) : AluOut :=
  let r := (a + 2 ^ 32 + 2 ^ 32 - b - bin) % 2 ^ 32
  ⟨some r, false, some (nzcv r (b + bin ≤ a) (toSigned 32 a - toSigned 32 b - bin != toSigned 32 r)), false⟩

/-- A logic operation or right shift: N and Z of the result, no overflow, and a carry that R274 gives no meaning to, taken
from the free value (log entry 1). -/
def aluLogic (fr r : Nat) : AluOut := ⟨some r, false, some (nzcv r (bitOf fr 0) false), false⟩

/-- A left shift: as a logic operation, with V free too (log entry 1). -/
def aluLeft (fr a n : Nat) : AluOut :=
  let r := a * 2 ^ n % 2 ^ 32
  ⟨some r, false, some (nzcv r (bitOf fr 0) (bitOf fr 1)), false⟩

/-- Symmetric saturation at ±`m`, and whether it clipped. -/
def satTo (m v : Int) : Int × Bool := (max (-m) (min m v), v < -m || m < v)

/-- A saturated 32-bit result. -/
def aluSat (v : Int) : AluOut :=
  let r := satTo (2 ^ 31 - 1) v
  ⟨some (ofSigned 32 r.1), false, none, r.2⟩

/-- A complex word from its halves, each saturated at ±32,767 (R281). -/
def aluComplex (late : Bool) (re im : Int) : AluOut :=
  let r := satTo 32767 re
  let i := satTo 32767 im
  ⟨some (ofSigned 16 r.1 * 2 ^ 16 + ofSigned 16 i.1), late, none, r.2 || i.2⟩

/-- High (real) and low (imaginary) half of a D register. -/
def hiOf (a : Nat) : Int := toSigned 16 (a / 2 ^ 16)
def loOf (a : Nat) : Int := toSigned 16 (a % 2 ^ 16)

/-- A plain result without flags. -/
def aluPlain (late : Bool) (r : Nat) : AluOut := ⟨some r, late, none, false⟩

/-- The operation `op` on Ds = `a`, Dt = `b`, shift field `n`, with carry `c` and the free value `fr` (R281, R295). -/
def aluOp (op : BrlAlu) (a b n : Nat) (c : Bool) (fr : Nat) : AluOut :=
  match op with
  | .add => aluAdd a b 0
  | .addc => aluAdd a b (ofBool c)
  | .sub => aluSub a b 0
  | .subc => aluSub a b (ofBool !c)
  | .and => aluLogic fr (Nat.land a b)
  | .or => aluLogic fr (Nat.lor a b)
  | .xor => aluLogic fr (Nat.xor a b)
  | .not => aluLogic fr (2 ^ 32 - 1 - a)
  | .shl => aluLeft fr a n
  | .shr => aluLogic fr (a / 2 ^ n)
  | .asr => aluLogic fr (ofSigned 32 (toSigned 32 a / 2 ^ n))
  | .asrr => aluLogic fr (ofSigned 32 (rhu (toSigned 32 a) n))
  | .shlv => aluLeft fr a (b % 32)
  | .asrv => aluLogic fr (ofSigned 32 (toSigned 32 a / 2 ^ (b % 32)))
  | .abs => aluSat (toSigned 32 a).natAbs
  | .neg => aluSat (-toSigned 32 a)
  | .min => aluPlain false (if toSigned 32 a ≤ toSigned 32 b then a else b)
  | .max => aluPlain false (if toSigned 32 a ≤ toSigned 32 b then b else a)
  | .cmp => { aluSub a b 0 with val := none }
  | .mov => aluPlain false a
  | .cadd => aluComplex false (hiOf a + hiOf b) (loOf a + loOf b)
  | .csub => aluComplex false (hiOf a - hiOf b) (loOf a - loOf b)
  | .conj => aluComplex false (hiOf a) (-loOf a)
  | .mpy => aluPlain true (ofSigned 32 (loOf a * loOf b))
  | .mpyh => aluPlain true (ofSigned 32 (hiOf a * hiOf b))
  | .cmpy => aluComplex true (rhu (hiOf a * hiOf b - loOf a * loOf b) 15) (rhu (hiOf a * loOf b + loOf a * hiOf b) 15)

/-- The core takes a free value for flags the spec does not give (log entry 1). -/
def aluFree (op : BrlAlu) : Bool :=
  match op with
  | .and | .or | .xor | .not | .shl | .shr | .asr | .asrr | .shlv | .asrv => true
  | _ => false

/-- What a MAC operation adds to its accumulator, or to the even and odd one of its pair (R278). -/
def macTerms (op : BrlMac) (a b : Nat) : Int × Int :=
  let re := hiOf a * hiOf b - loOf a * loOf b
  let im := hiOf a * loOf b + loOf a * hiOf b
  match op with
  | .mac => (loOf a * loOf b, 0)
  | .msu => (-(loOf a * loOf b), 0)
  | .mac2 => (hiOf a * hiOf b, loOf a * loOf b)
  | .msu2 => (-(hiOf a * hiOf b), -(loOf a * loOf b))
  | .cmac => (re, im)
  | .cmsu => (-re, -im)
  | .cmacj => (hiOf a * hiOf b + loOf a * loOf b, loOf a * hiOf b - hiOf a * loOf b)
  | .cmacz => (re, im)

/-- The operation works on a single accumulator. -/
def macSingle (op : BrlMac) : Bool := op == .mac || op == .msu

/-- A MAC operation on accumulator `acc` or the pair that begins there: each saturates at ±(2^39 − 1) and sets AV (R278,
R279). -/
def macDo (c0 c : BrlCore) (op : BrlMac) (acc a b : Nat) : BrlCore :=
  let t := macTerms op a b
  let one (c : BrlCore) (i : Nat) (v : Int) : BrlCore :=
    let r := satTo (2 ^ 39 - 1) ((if op = .cmacz then 0 else c0.acc i) + v)
    (c.putAcc i r.1).stick 6 r.2
  let c := one c acc t.1
  if macSingle op then c else one c (acc + 1) t.2

/-! ## Addressing (R275 to R277) -/

/-- An access address, the pointer's new value if it changes, and whether CO is set. -/
structure Ea where
  addr : Nat
  next : Option Nat
  co : Bool
  deriving DecidableEq, Repr

/-- circ(p, s) with base `cb` and length `cl`, and whether it set CO (R276). -/
def circ (p : Nat) (st : Int) (cb cl : Nat) : Nat × Bool :=
  let lin := ((p + st) % 2 ^ 24).toNat
  if cl = 0 then (lin, false)
  else if p < cb ∨ cb + cl ≤ p then (lin, true)
  else
    let o : Int := p - cb + st
    let o := if (cl : Int) ≤ o then o - cl else if o < 0 then o + cl else o
    (((cb + o) % 2 ^ 24).toNat, o < 0 || (cl : Int) ≤ o)

/-- The address of an access through pointer `p` (0 to 7) with a mode and a displacement, and what becomes of the pointer
(R275). -/
def brlEa (c : BrlCore) (p mode : Nat) (d : Int) : Ea :=
  let q := c.slot (32 + p)
  if p < 4 then
    { addr := ((q + d) % 2 ^ 24).toNat
      next := match mode with
        | 1 => some ((q + 1) % 2 ^ 24)
        | 2 => some (((q + c.sslot 24 (40 + p)) % 2 ^ 24).toNat)
        | 3 => some ((q + 2 ^ 24 - 1) % 2 ^ 24)
        | _ => none
      co := false }
  else
    let cb := c.slot (44 + (p - 4))
    let cl := c.slot (48 + (p - 4))
    let acc := circ q d cb cl
    let step (k : Int) : Ea :=
      let n := circ q k cb cl
      { addr := acc.1, next := some n.1, co := acc.2 || n.2 }
    match mode with
    | 1 => step 1
    | 2 => { addr := q, next := some acc.1, co := acc.2 }
    | 3 => step (-1)
    | _ => { addr := acc.1, next := none, co := acc.2 }

/-- The pointer's change is written, and CO. -/
def BrlCore.step (c : BrlCore) (p : Nat) (e : Ea) : BrlCore :=
  let c := match e.next with
    | some v => c.put 1 (32 + p) 0xFFFFFF v
    | none => c
  c.stick 7 e.co

/-- Where a core address leads (R271). -/
inductive BrlPlace where
  | own (arr : Arr) (entry : Nat)
  | window (t : BrlTarget)
  | unmapped
  deriving DecidableEq, Repr

/-- The place of word address `a` on bus X or Y of core `k`, with the page fields as they stand (R271, R272). -/
def brlPlace (s : State) (k : Nat) (y : Bool) (a : Nat) : BrlPlace :=
  if y then
    if a < 0x10000 then .own .brlY (0x10000 * k + a)
    else if 0x400000 ≤ a ∧ a < 0x800000 then
      .window (.dram (getF s (F.BRL_PAGE_DRAM_PAGE k) * 2 ^ 24 + 4 * (a - 0x400000)))
    else .unmapped
  else if a < 0x10000 then .own .brlX (0x10000 * k + a)
  else if 0x400000 ≤ a ∧ a < 0x401000 then .window (.bar0 (0x410000 + 4 * (a - 0x400000)))
  else if 0x800000 ≤ a ∧ a < 0x840000 then
    .window (.weight (getF s (F.BRL_PAGE_WT_PAGE k) * 2 ^ 20 + 4 * (a - 0x800000)))
  else if 0xC00000 ≤ a ∧ a < 0xC40000 then
    .window (.bar0 (getF s (F.BRL_PAGE_REG_PAGE k) * 2 ^ 20 + 4 * (a - 0xC00000)))
  else if 0xFF0000 ≤ a ∧ a < 0xFF0080 then .window (.bar0 (0xD00000 + 0x100000 * k + 4 * (a - 0xFF0000)))
  else .unmapped

/-- One data access of an instruction: bus, pointer, register, whether it stores, and its address. -/
structure BrlUse where
  y : Bool
  p : Nat
  r : Nat
  st : Bool
  ea : Ea
  deriving DecidableEq, Repr

/-- The access of one half of a parallel move: X mode 2, Y mode 1, displacement 0 (R275). -/
def moveUse (c : BrlCore) (y : Bool) (m : BrlMove) : List BrlUse :=
  let use (p : Nat) (md : Bool) (r : Nat) (st : Bool) : BrlUse :=
    let p := if y then 4 + p else p
    ⟨y, p, r, st, brlEa c p (if md then (if y then 1 else 2) else 0) 0⟩
  match m with
  | .none => []
  | .load p md r => [use p md r false]
  | .store p md r => [use p md r true]

/-- The pointer that an access in format M names: P0 to P3 on X, P4 to P7 on Y. -/
def accessUse (c : BrlCore) (x : BrlAccess) (st : Bool) : BrlUse :=
  ⟨x.y, x.p, x.d, st, brlEa c x.p x.mode x.disp.toInt⟩

/-- The data accesses of an instruction. -/
def brlUses (c : BrlCore) : BrlOp → List BrlUse
  | .pm _ _ _ _ mv => moveUse c false mv.x ++ moveUse c true mv.y
  | .load x => [accessUse c x false]
  | .store x => [accessUse c x true]
  | _ => []

/-- A window access at core address `a` got an error response, which the matrix has recorded; it goes down with that address
(R273, R389). -/
def windowError (s : State) (k : Nat) (y : Bool) (a : Nat) : State :=
  let s := setF (setF (setPair s R.MTX_ERR_ADDR_LO a) (F.BRL_ERR_ADDR_BUS k) (ofBool y)) (F.BRL_ERR_ADDR_ADDR k) a
  brlPend (bump s (R.BRL_ERR_COUNT k)) k 13

/-- The matrix answers an access of core `k` to a window with an error that the command reports: kind 4 for an uncorrectable
error, else 2 (R375; log entry 58). -/
def windowRefused (s : State) (k : Nat) (t : BrlTarget) (write : Bool) : State :=
  let m := masterCode (.beryl (Fin.ofNat 4 k))
  match t with
  | .bar0 a => busError s m ((targetOf a).getD 0) 2 a write
  | .weight off => busError s m 4 2 off write
  | .dram a => busError s m 0 (memErrKind s 10 a 4 write) a write

/-- Read a window as the core: none is an error response. -/
def windowRead (s : State) (k : Nat) (t : BrlTarget) : State × Option Word :=
  let m := Master.beryl (Fin.ofNat 4 k)
  match t with
  | .bar0 a => regRead s m a
  | .weight off => weightRead s m off
  | .dram a => let r := matrixDramRead s m a 4; (r.1, r.2.map fun bs => BitVec.ofNat 32 (leNat bs))

/-- Perform one access: a load's value lands two instructions later; a window store enters the write buffer; `err` marks a
load that got an error response, which returns 0 (R272, R273, R282). -/
def brlAccess (s : State) (k : Nat) (c0 : BrlCore) (err : Bool) (u : BrlUse) : State :=
  let a := u.ea.addr
  let got (s : State) (v : Nat) : State := setBrl s k fun c => c.putD 2 u.r v
  let s := if u.st then
      let v := BitVec.ofNat 32 (c0.slot u.r)
      match brlPlace s k u.y a with
      | .own arr i => arrSet s arr i (v.setWidth 64)
      | .window t => setBrl s k fun c => { c with stores := c.stores ++ [⟨t, u.y, a, v⟩] }
      | .unmapped => s
    else match brlPlace s k u.y a with
      | .own arr i => got s ((arrGet s arr (1 + k) i).toNat % 2 ^ 32)
      | .window t =>
        if err then got (windowError (windowRefused s k t false) k u.y a) 0
        else match windowRead s k t with
          | (s, some v) => got s v.toNat
          | (s, none) => got (windowError s k u.y a) 0
      | .unmapped => s
  setBrl s k fun c => c.step u.p u.ea

/-! ## What stops an instruction (R284 to R286, R291, R293) -/

/-- Branch, CALL, RET and RETI. -/
def isBranch : BrlOp → Bool
  | .branch .. => true
  | .ret => true
  | .reti => true
  | _ => false

/-- Those, LOOP and ITER: not allowed in a delay slot (R284). -/
def isRepeatOrBranch : BrlOp → Bool
  | .loop .. => true
  | .iter _ => true
  | op => isBranch op

/-- What ITER must not repeat (R285). -/
def notIterable : BrlOp → Bool
  | .wait => true
  | .halt => true
  | .swi => true
  | op => isRepeatOrBranch op

/-- The word of C memory at `a`. -/
def cWord (s : State) (k a : Nat) : Nat := (arrGet s .brlC (1 + k) (0x10000 * k + a % 32768)).toNat % 2 ^ 32

/-- The last body instruction of a LOOP, or one of the two before it, is a branch: then the last is a branch or stands in
its delay slots (R284). -/
def badLoopEnd (s : State) (k first last : Nat) : Bool :=
  (List.range 3).any fun i => first + i ≤ last && (brlDecode (cWord s k (last - i))).any isBranch

/-- A branch condition on the flags N, Z, C, V in bits 3 to 0 (R295). -/
def condHolds (cond fl : Nat) : Bool :=
  let n := bitOf fl 3
  let z := bitOf fl 2
  let c := bitOf fl 1
  let v := bitOf fl 0
  match cond with
  | 0 => true
  | 1 => z
  | 2 => !z
  | 3 => n != v
  | 4 => n == v
  | 5 => !z && n == v
  | 6 => z || n != v
  | 7 => c
  | 8 => !c
  | 9 => v
  | 10 => !v
  | 11 => n
  | 12 => !n
  | _ => false

/-- The core's PC. -/
def brlPc (s : State) (k : Nat) : Nat := getF s (F.BRL_PC_PC k)

/-- The innermost LOOP level of the running program. -/
def BrlCore.inner (c : BrlCore) : Option BrlLevel := if c.base < c.levels.length then c.levels.getLast? else none

/-- The last body address of a LOOP at `pc`. -/
def loopEnd (pc len : Nat) : Nat := pc + 1 + len

/-- The same register is loaded on X and on Y (R283). -/
def sameLoad (us : List BrlUse) : Bool :=
  match us with
  | [a, b] => !a.st && !b.st && a.r == b.r
  | _ => false

/-- An encoding that R294 and R295 leave undefined: an areg index of 24 or more, a condition above 12, an X access through
P4 to P7 or a Y access through P0 to P3. -/
def badEncoding : BrlOp → Bool
  | .la a _ => 24 ≤ a
  | .movrTo a _ => 24 ≤ a
  | .movrFrom _ a => 24 ≤ a
  | .aadd a _ => 24 ≤ a
  | .aaddk a _ => 24 ≤ a
  | .load x => x.y != decide (4 ≤ x.p.val)
  | .store x => x.y != decide (4 ≤ x.p.val)
  | .branch cond _ _ => 12 < cond
  | _ => false

/-- The cause for which the instruction stops the core, if any (R284 to R286, R291, R293). -/
def brlCause (s : State) (k : Nat) (op : BrlOp) : Option Nat :=
  let c := brlCore s k
  let pc := brlPc s k
  let us := brlUses c op
  if badEncoding op then some 1
  else if (0 < c.slots && isRepeatOrBranch op) || (0 < c.iter && notIterable op) then some 2
  else if sameLoad us then some 7
  else if us.any fun u => brlPlace s k u.y u.ea.addr == .unmapped then some 3
  else match op with
    | .loop _ _ len =>
      let last := loopEnd pc len
      if 3 ≤ c.levels.length then some 6
      else if c.inner.any (·.last ≤ last) || badLoopEnd s k (pc + 1) last then some 2
      else none
    | .iter _ => if c.inner.any (·.last == pc) then some 2 else none
    | .branch cond _ call =>
      if call ∧ condHolds cond (c.slot 72) = true ∧ 8 ≤ c.stack.length then some 4
      else none
    | .ret => if c.stack = [] then some 5 else none
    | .reti => if c.stack = [] then some 5 else none
    | _ => none

/-- The core stops in FAULT (R293). -/
def brlFault (s : State) (k cause : Nat) : State :=
  let s := setF (setF s (F.BRL_FAULT_PC_PC k) (brlPc s k)) (F.BRL_STATUS_CAUSE k) cause
  let s := setBrl (setF s (F.BRL_STATUS_STATE k) 4) k BrlCore.drained
  fault (raise s (21 + k)) 16

/-- The instruction waits for the write buffer (R272): a window load or FENCE while it holds a store, a window store while
it is full. -/
def brlStalls (s : State) (k : Nat) (op : BrlOp) : Bool :=
  let c := brlCore s k
  let wins := (brlUses c op).filter fun u =>
    match brlPlace s k u.y u.ea.addr with
    | .window _ => true
    | _ => false
  (c.stores != [] && (op == .fence || wins.any (!·.st))) || 16 < c.stores.length + wins.countP (·.st)

/-! ## What an instruction does -/

/-- How an instruction leads on: to the next one, to a delayed target, or into an ITER of `n`. -/
inductive BrlCtl where
  | seq
  | branch (target : Option Nat)
  | iter (n : Nat)
  deriving DecidableEq, Repr

/-- The count of a LOOP or ITER, 1 to 65,536 (R285, R286). -/
def countOf (c : BrlCore) : BrlCount → Nat
  | .imm n => n.toNat + 1
  | .reg d => c.slot d % 2 ^ 16 + 1

/-- The number of an SR that RETI takes back from an entry: what an interrupt pushed; a CALL pushed none (log entry 1). -/
def returnSr (s : State) (e : BrlReturn) : Nat :=
  match e.sr with
  | some v => v.toNat
  | none => (freeNext s).toNat

/-- The effect of an instruction on registers and memory, and how it leads on (R275 to R295). `err` marks a load that got
an error response. -/
def brlEffect (s : State) (k : Nat) (op : BrlOp) (err : Bool) : State × BrlCtl :=
  let c0 := brlCore s k
  let pc := brlPc s k
  let core (f : BrlCore → BrlCore) : State := setBrl s k f
  let saccess (t : State) : State := (brlUses c0 op).foldl (fun t u => brlAccess t k c0 err u) t
  let sc := bitsOf c0.sr 20 16
  match op with
  | .pm none _ _ _ _ => (saccess s, .seq)
  | .pm (some m) acc a b _ => (saccess (core fun c => macDo c0 c m acc (c0.slot a) (c0.slot b)), .seq)
  | .la a imm => (core (·.putAreg a imm), .seq)
  | .loop intr n len =>
    (core fun c =>
      { (c.put 1 (53 + c.levels.length) 0x1FFFF (countOf c0 n)) with
        levels := c.levels ++ [⟨(pc + 1) % 32768, loopEnd pc len, intr, false⟩]
        fresh := true }, .seq)
  | .branch cond target call =>
    if condHolds cond (c0.slot 72) then
      let t := if call then core fun c => { c with stack := c.stack ++ [⟨(pc + 3) % 32768, none, c.base, false⟩] } else s
      (t, .branch (some target))
    else (s, .branch none)
  | .movk d imm => (core (·.putD 1 d (ofSigned 32 (toSigned 16 imm))), .seq)
  | .movkh d imm => (core (·.putD 1 d (imm * 2 ^ 16 + c0.slot d % 2 ^ 16)), .seq)
  | .addk d imm => (core (·.putD 1 d ((c0.slot d + ofSigned 32 (toSigned 16 imm)) % 2 ^ 32)), .seq)
  | .cmpk d imm => (core (·.putFlags ((aluSub (c0.slot d) (ofSigned 32 (toSigned 16 imm)) 0).flags.getD 0)), .seq)
  | .load _ => (saccess s, .seq)
  | .store _ => (saccess s, .seq)
  | .ldc d p disp =>
    let a := ((c0.slot (32 + p) + toSigned 12 disp) % 2 ^ 15).toNat
    (core (·.putD 2 d (cWord s k a)), .seq)
  | .alu op d a b n =>
    let o := aluOp op (c0.slot a) (c0.slot b) n (bitOf c0.sr 1) (freeNext s).toNat
    let t := core fun c =>
      let c := match o.val with
        | some v => c.putD (if o.late then 2 else 1) d v
        | none => c
      let c := match o.flags with
        | some f => c.putFlags f
        | none => c
      c.stick 5 o.sv
    (if aluFree op then freeTaken t else t, .seq)
  | .mova d a =>
    let r := satTo (2 ^ 31 - 1) (rhu (c0.sslot 40 (68 + a)) sc)
    (core fun c => (c.putD 2 d (ofSigned 32 r.1)).stick 5 r.2, .seq)
  | .movac d a =>
    let o := aluComplex true (rhu (c0.sslot 40 (68 + a)) sc) (rhu (c0.sslot 40 (69 + a)) sc)
    (core fun c => (c.putD 2 d (o.val.getD 0)).stick 5 o.sv, .seq)
  | .movda a r => (core (·.putAcc a (c0.sslot 32 r)), .seq)
  | .clra mask => (core fun c => ((List.range 4).filter (bitOf mask ·)).foldl (fun c a => c.putAcc a 0) c, .seq)
  | .movrTo a r => (core (·.putAreg a (c0.slot r)), .seq)
  | .movrFrom d a => (core (·.putD 1 d (c0.areg a)), .seq)
  | .aadd a r => (core (·.putAreg a (c0.slot (32 + a) + c0.slot r)), .seq)
  | .aaddk a imm => (core (·.putAreg a (c0.slot (32 + a) + ofSigned 32 (toSigned 15 imm))), .seq)
  | .nop => (s, .seq)
  | .ret =>
    match c0.stack.getLast? with
    | some e => (core fun c => { c with stack := c.stack.dropLast, base := e.base, resume := e.fresh }, .branch (some e.addr))
    | none => (s, .seq)
  | .reti =>
    match c0.stack.getLast? with
    | some e =>
      let t := core fun c =>
        { (c.putAreg 20 (returnSr s e)) with stack := c.stack.dropLast, base := e.base, resume := e.fresh }
      (if e.sr.isNone then freeTaken t else t, .branch (some e.addr))
    | none => (s, .seq)
  | .halt => (setF (core fun c => { c with halt := true }) (F.BRL_CTRL_RUN k) 0, .seq)
  | .wait => (core fun c => { c with waiting := true }, .seq)
  | .swi => (brlPend s k 15, .seq)
  | .fence => (s, .seq)
  | .setIe v => (core (·.put 3 52 (2 ^ 31) (ofBool v * 2 ^ 31)), .seq)
  | .sev e => (raise s (40 + 4 * k + e), .seq)
  | .iter n => (s, .iter (countOf c0 n))

/-! ## Sequencing (R284 to R287, R290, R292) -/

/-- Execution goes to `pc`. -/
def setBrlPc (s : State) (k pc : Nat) : State := setF s (F.BRL_PC_PC k) (pc % 32768)

/-- The next instruction in sequence: a LOOP body's end leads back to its start while iterations remain (R286). -/
def brlSeq (s : State) (k : Nat) : State :=
  let c := brlCore s k
  let pc := brlPc s k
  match c.inner with
  | some l =>
    if l.last = pc then
      let lc := 53 + (c.levels.length - 1) % 3
      let left := c.slot lc - 1
      let file := c.file.put lc (BitVec.ofNat 64 left)
      if left = 0 then
        setBrlPc (setBrl s k fun c => { c with file := file, levels := c.levels.dropLast, fresh := false }) k (pc + 1)
      else
        let back : BrlLevel := { l with again := true }
        setBrlPc (setBrl s k fun c => { c with file := file, levels := c.levels.dropLast ++ [back], fresh := true }) k l.first
    else setBrlPc (if pc + 1 = l.first ∧ c.fresh = true then s else setBrl s k fun c => { c with fresh := false }) k (pc + 1)
  | none => setBrlPc s k (pc + 1)

/-- A taken branch goes to `target`: the levels whose body it leaves end, with those inside them; the levels of interrupted
programs stay; a RETI or RET comes back to the boundary the vector was taken at (R287, R290, R291). -/
def brlJump (s : State) (k target : Nat) : State :=
  let keep (c : BrlCore) : List BrlLevel :=
    c.levels.take c.base ++ (c.levels.drop c.base).takeWhile fun l => l.first ≤ target && target ≤ l.last
  setBrlPc (setBrl s k fun c => { c with levels := keep c, fresh := c.resume, resume := false, target := none }) k target

/-- The core halts or waits at a boundary that allows it, once the write buffer is empty (R292). -/
def brlSettle (s : State) (k : Nat) : State :=
  let c := brlCore s k
  let st := brlState s k
  if (st = 1 ∨ st = 3) ∧ c.stores = [] ∧ (c.halt ∨ (flag s (F.BRL_CTRL_RUN k) = false ∧ c.slots = 0 ∧ c.iter = 0)) then
    setBrl (setF s (F.BRL_STATUS_STATE k) 2) k fun c => { c.drained with halt := false }
  else s

/-- After an executed WAIT: fetch stops until an enabled vector is pending (R292). -/
def brlWaitCheck (s : State) (k : Nat) : State :=
  if (brlCore s k).waiting then
    brlWake (setBrl (setF s (F.BRL_STATUS_STATE k) 3) k BrlCore.drained) k
  else s

/-- Count `n` cycles (R297). -/
def brlCycles (s : State) (k n : Nat) : State :=
  setPair s (R.BRL_CYCLES_LO k) ((getPair s (R.BRL_CYCLES_LO k) + n) % 2 ^ 64)

/-- The instruction is done: the next one sees what R282 lets it see, and execution goes on. -/
def brlAdvance (s : State) (k : Nat) (ctl : BrlCtl) : State :=
  let c := brlCore s k
  let s := setBrl (brlCycles s k 1) k fun c => { c with count := c.count + 1 }
  let s := setBrl s k BrlCore.landed
  let s := match ctl with
    | .branch t => setBrlPc (setBrl s k fun c => { c with slots := 2, target := t, fresh := false }) k (brlPc s k + 1)
    | .iter n => setBrlPc (setBrl s k fun c => { c with iter := n }) k (brlPc s k + 1)
    | .seq =>
      if 1 < c.iter then setBrl s k fun c => { c with iter := c.iter - 1 }
      else
        let s := if c.iter = 1 then setBrl s k fun c => { c with iter := 0 } else s
        let s := if 0 < c.slots then setBrl s k fun c => { c with slots := c.slots - 1 } else s
        match c.slots, c.target with
        | 1, some t => brlJump s k t
        | _, _ => brlSeq s k
  brlSettle (brlWaitCheck s k) k

/-- Core `k` can issue an instruction: its domain is on, it is in RUN, and it is not about to halt (R292). -/
def brlIssues (s : State) (k : Nat) : Bool :=
  let c := brlCore s k
  domLive s (1 + k) && brlState s k == 1 && !c.halt &&
    (flag s (F.BRL_CTRL_RUN k) || 0 < c.slots || 0 < c.iter)

/-- An LDC stalls the core for a cycle but where it stands inside a body that runs from the repeat cache, at whatever level of
the running program (R288). -/
def ldcStall (s : State) (k : Nat) (op : BrlOp) : State :=
  match op with
  | .ldc .. =>
    let c := brlCore s k
    let pc := brlPc s k
    if (c.levels.drop c.base).any fun l =>
        l.again && l.last + 1 - l.first ≤ 16 && l.first ≤ pc && pc ≤ l.last then s
    else brlCycles (bump s (R.BRL_STALL_COUNT k)) k 1
  | _ => s

/-- Core `k` executes `op` at its PC: it faults, stalls, or does it. -/
def brlExecute (s : State) (k : Nat) (op : BrlOp) (err : Bool) : State :=
  match brlCause s k op with
  | some cause => brlFault s k cause
  | none =>
    if brlStalls s k op then brlCycles (bump s (R.BRL_STALL_COUNT k)) k 1
    else
      let r := brlEffect (ldcStall s k op) k op err
      brlAdvance r.1 k r.2

/-- The instruction `op` is the next one core `k` issues. -/
def brlIssue (s : State) (k : Nat) (op : BrlOp) : State := if brlIssues s k then brlExecute s k op false else s

/-! ## Running and halting (R292, R296, R297) -/

/-- The innermost level allows an interrupt: no level is active, or all have I = 1 and the next instruction begins an
iteration of the innermost (R290). -/
def loopsAllow (c : BrlCore) : Bool := c.levels.all (·.intr) && (c.levels == [] || c.fresh)

/-- The lowest enabled pending vector (R289). -/
def brlVector (s : State) (k : Nat) : Option Nat :=
  (List.range 16).find? fun v => 0 < v && getB s (R.BRL_IRQ_EN k) v && getB s (R.BRL_IRQ_PEND k) v

/-- A pending vector is taken at the boundary before the next instruction (R290, R291); a core in WAIT takes it whatever
levels are active (R292). -/
def interruptTake (s : State) (k : Nat) : State :=
  let c := brlCore s k
  match brlVector s k with
  | none => s
  | some v =>
    if domOn s (1 + k) ∧ flag s (F.BRL_CTRL_RUN k) ∧ c.halt = false ∧ bitOf c.sr 31 ∧ c.slots = 0 ∧ c.iter = 0 ∧
        ((brlState s k = 1 ∧ loopsAllow c = true) ∨ brlState s k = 3) then
      if 8 ≤ c.stack.length then brlFault s k 4
      else
        let d := c.drained
        let e : BrlReturn := ⟨brlPc s k, some (BitVec.ofNat 32 d.sr), c.base, c.fresh⟩
        let s := setBrl s k fun _ =>
          { d with
            stack := d.stack ++ [e]
            base := d.levels.length
            fresh := false
            waiting := false
            file := d.file.put 52 (BitVec.ofNat 64 (d.sr % 2 ^ 31)) }
        let s := setB s (R.BRL_IRQ_PEND k) v false
        setBrlPc (setF s (F.BRL_STATUS_STATE k) 1) k (4 * v)
    else s

/-- A write of `BRL_k_CTRL`.RUN (R292, R296, R297): ignored in FAULT and OFF. -/
def brlRun (s : State) (k : Nat) (v : Bool) : State :=
  let st := brlState s k
  if domOn s (1 + k) = false ∨ st = 4 then s
  else
    let s := setF s (F.BRL_CTRL_RUN k) (ofBool v)
    if v then
      if st = 0 then setBrlPc (setF s (F.BRL_STATUS_STATE k) 1) k 0
      else if st = 2 then brlWaitCheck (setF s (F.BRL_STATUS_STATE k) 1) k
      else s
    else brlSettle s k

/-- CORE_RESET (R296): registers, stacks, levels, pending vectors and unissued stores are gone; the core is in RESET. -/
def coreReset (s : State) (k : Nat) : State :=
  let s := { s with brl := s.brl.put k {} }
  let s := setR (setR s (R.BRL_IRQ_PEND k) 0) (R.BRL_PC k) 0
  let s := setF (setF (setF s (F.BRL_CTRL_RUN k) 0) (F.BRL_STATUS_STATE k) 0) (F.BRL_STATUS_CAUSE k) 0
  bump (setPair s (R.BRL_CYCLES_LO k) 0) R.MTX_RESET_COUNT

/-- A step goes on while the next boundary is a delay slot or inside an ITER (R292, R297). -/
def stepOn : Nat → State → Nat → State
  | 0, s, _ => s
  | n + 1, s, k =>
    if brlIssues s k then
      match brlDecode (cWord s k (brlPc s k)) with
      | none => brlFault s k 1
      | some op =>
        let t := brlExecute s k op false
        if (brlCore t k).count = (brlCore s k).count then t else stepOn n t k
    else s

/-- STEP from HALTED: the instruction at PC is fetched and run, with what must follow it (R297). -/
def brlStep (s : State) (k : Nat) : State :=
  if domOn s (1 + k) ∧ brlState s k = 2 then
    let s := setBrl (setF s (F.BRL_STATUS_STATE k) 1) k fun c => { c with waiting := false }
    match brlDecode (cWord s k (brlPc s k)) with
    | none => brlFault s k 1
    | some op => stepOn 65540 (brlExecute s k op false) k
  else s

/-- A host write of `BRL_k_MBOX_IN` (R289). -/
def mboxInWrite (s : State) (k : Nat) (v : Word) : State :=
  let s := wr s (R.BRL_MBOX_IN k) v
  if domOn s (1 + k) then brlPend s k 14 else s

/-- A W1S write of `BRL_k_IRQ_PEND` (R289). -/
def irqPendWrite (s : State) (k v : Nat) : State :=
  ((List.range 16).filter fun i => 0 < i && bitOf v i).foldl (fun s i => brlPend s k i) s

/-- A write to C memory from outside (R269, R445). -/
def cMemWrite (s : State) (m : Master) (k i : Nat) (v : Word) : State :=
  arrayAccess s m (1 + k) 5 (0xD20000 + 0x100000 * k + 4 * i) fun s =>
    let st := brlState s k
    if st = 0 ∨ st = 2 ∨ st = 4 then arrSet s .brlC (0x10000 * k + i) (v.setWidth 64)
    else setF s (F.BRL_STATUS_HOST_REJECT k) 1

/-! ## The commands -/

/-- PARALLEL_MOVE (R295). -/
def execParallelMove (k : Fin 4) (mv : BrlMoves) (s : State) : Res :=
  run (fun s => brlIssue s k (.pm none 0 0 0 mv)) s

/-- MAC (R278). -/
def execMac (k : Fin 4) (acc : Fin 4) (rs rt : Fin 16) (s : State) : Res :=
  run (fun s => brlIssue s k (.pm (some .mac) acc rs rt ⟨.none, .none⟩)) s

/-- MSU (R278). -/
def execMsu (k : Fin 4) (acc : Fin 4) (rs rt : Fin 16) (s : State) : Res :=
  run (fun s => brlIssue s k (.pm (some .msu) acc rs rt ⟨.none, .none⟩)) s

/-- MAC2 (R278). -/
def execMac2 (k : Fin 4) (pair : Fin 2) (rs rt : Fin 16) (mv : BrlMoves) (s : State) : Res :=
  run (fun s => brlIssue s k (.pm (some .mac2) (2 * pair.val) rs rt mv)) s

/-- MSU2 (R278). -/
def execMsu2 (k : Fin 4) (pair : Fin 2) (rs rt : Fin 16) (mv : BrlMoves) (s : State) : Res :=
  run (fun s => brlIssue s k (.pm (some .msu2) (2 * pair.val) rs rt mv)) s

/-- CMAC (R278). -/
def execCmac (k : Fin 4) (pair : Fin 2) (rs rt : Fin 16) (mv : BrlMoves) (s : State) : Res :=
  run (fun s => brlIssue s k (.pm (some .cmac) (2 * pair.val) rs rt mv)) s

/-- CMSU (R278). -/
def execCmsu (k : Fin 4) (pair : Fin 2) (rs rt : Fin 16) (mv : BrlMoves) (s : State) : Res :=
  run (fun s => brlIssue s k (.pm (some .cmsu) (2 * pair.val) rs rt mv)) s

/-- CMACJ (R278). -/
def execCmacj (k : Fin 4) (pair : Fin 2) (rs rt : Fin 16) (mv : BrlMoves) (s : State) : Res :=
  run (fun s => brlIssue s k (.pm (some .cmacj) (2 * pair.val) rs rt mv)) s

/-- CMACZ (R278). -/
def execCmacz (k : Fin 4) (pair : Fin 2) (rs rt : Fin 16) (mv : BrlMoves) (s : State) : Res :=
  run (fun s => brlIssue s k (.pm (some .cmacz) (2 * pair.val) rs rt mv)) s

/-- LA (R294). -/
def execLa (k : Fin 4) (areg : Fin 32) (imm : BitVec 24) (s : State) : Res :=
  run (fun s => brlIssue s k (.la areg imm.toNat)) s

/-- LOOP (R286). -/
def execLoop (k : Fin 4) (intr : Bool) (count : BrlCount) (len : Fin 1024) (s : State) : Res :=
  run (fun s => brlIssue s k (.loop intr count len)) s

/-- BRANCH (R284). -/
def execBranch (k : Fin 4) (cond : Fin 16) (target : BitVec 15) (s : State) : Res :=
  run (fun s => brlIssue s k (.branch cond target.toNat false)) s

/-- CALL (R284). -/
def execCall (k : Fin 4) (cond : Fin 16) (target : BitVec 15) (s : State) : Res :=
  run (fun s => brlIssue s k (.branch cond target.toNat true)) s

/-- MOVK (R294). -/
def execMovk (k : Fin 4) (rd : Fin 16) (imm : BitVec 16) (s : State) : Res :=
  run (fun s => brlIssue s k (.movk rd imm.toNat)) s

/-- MOVKH (R294). -/
def execMovkh (k : Fin 4) (rd : Fin 16) (imm : BitVec 16) (s : State) : Res :=
  run (fun s => brlIssue s k (.movkh rd imm.toNat)) s

/-- ADDK (R294). -/
def execAddk (k : Fin 4) (rd : Fin 16) (imm : BitVec 16) (s : State) : Res :=
  run (fun s => brlIssue s k (.addk rd imm.toNat)) s

/-- CMPK (R294). -/
def execCmpk (k : Fin 4) (rd : Fin 16) (imm : BitVec 16) (s : State) : Res :=
  run (fun s => brlIssue s k (.cmpk rd imm.toNat)) s

/-- LD (R275). -/
def execLd (k : Fin 4) (x : BrlAccess) (s : State) : Res :=
  run (fun s => brlIssue s k (.load x)) s

/-- ST (R272). -/
def execSt (k : Fin 4) (x : BrlAccess) (s : State) : Res :=
  run (fun s => brlIssue s k (.store x)) s

/-- LDC (R288). -/
def execLdc (k : Fin 4) (rd : Fin 16) (p : Fin 8) (disp : BitVec 12) (s : State) : Res :=
  run (fun s => brlIssue s k (.ldc rd p disp.toNat)) s

/-- ADD (R281, R295). -/
def execAdd (k : Fin 4) (rd rs rt : Fin 16) (s : State) : Res :=
  run (fun s => brlIssue s k (.alu .add rd rs rt 0)) s

/-- ADDC (R281, R295). -/
def execAddc (k : Fin 4) (rd rs rt : Fin 16) (s : State) : Res :=
  run (fun s => brlIssue s k (.alu .addc rd rs rt 0)) s

/-- SUB (R281, R295). -/
def execSub (k : Fin 4) (rd rs rt : Fin 16) (s : State) : Res :=
  run (fun s => brlIssue s k (.alu .sub rd rs rt 0)) s

/-- SUBC (R281, R295). -/
def execSubc (k : Fin 4) (rd rs rt : Fin 16) (s : State) : Res :=
  run (fun s => brlIssue s k (.alu .subc rd rs rt 0)) s

/-- AND (R281, R295). -/
def execAnd (k : Fin 4) (rd rs rt : Fin 16) (s : State) : Res :=
  run (fun s => brlIssue s k (.alu .and rd rs rt 0)) s

/-- OR (R281, R295). -/
def execOr (k : Fin 4) (rd rs rt : Fin 16) (s : State) : Res :=
  run (fun s => brlIssue s k (.alu .or rd rs rt 0)) s

/-- XOR (R281, R295). -/
def execXor (k : Fin 4) (rd rs rt : Fin 16) (s : State) : Res :=
  run (fun s => brlIssue s k (.alu .xor rd rs rt 0)) s

/-- SHLV (R281, R295). -/
def execShlv (k : Fin 4) (rd rs rt : Fin 16) (s : State) : Res :=
  run (fun s => brlIssue s k (.alu .shlv rd rs rt 0)) s

/-- ASRV (R281, R295). -/
def execAsrv (k : Fin 4) (rd rs rt : Fin 16) (s : State) : Res :=
  run (fun s => brlIssue s k (.alu .asrv rd rs rt 0)) s

/-- MIN (R281, R295). -/
def execMin (k : Fin 4) (rd rs rt : Fin 16) (s : State) : Res :=
  run (fun s => brlIssue s k (.alu .min rd rs rt 0)) s

/-- MAX (R281, R295). -/
def execMax (k : Fin 4) (rd rs rt : Fin 16) (s : State) : Res :=
  run (fun s => brlIssue s k (.alu .max rd rs rt 0)) s

/-- CADD (R281, R295). -/
def execCadd (k : Fin 4) (rd rs rt : Fin 16) (s : State) : Res :=
  run (fun s => brlIssue s k (.alu .cadd rd rs rt 0)) s

/-- CSUB (R281, R295). -/
def execCsub (k : Fin 4) (rd rs rt : Fin 16) (s : State) : Res :=
  run (fun s => brlIssue s k (.alu .csub rd rs rt 0)) s

/-- MPY (R281, R295). -/
def execMpy (k : Fin 4) (rd rs rt : Fin 16) (s : State) : Res :=
  run (fun s => brlIssue s k (.alu .mpy rd rs rt 0)) s

/-- MPYH (R281, R295). -/
def execMpyh (k : Fin 4) (rd rs rt : Fin 16) (s : State) : Res :=
  run (fun s => brlIssue s k (.alu .mpyh rd rs rt 0)) s

/-- CMPY (R281, R295). -/
def execCmpy (k : Fin 4) (rd rs rt : Fin 16) (s : State) : Res :=
  run (fun s => brlIssue s k (.alu .cmpy rd rs rt 0)) s

/-- NOT (R281, R295). -/
def execNot (k : Fin 4) (rd rs : Fin 16) (s : State) : Res :=
  run (fun s => brlIssue s k (.alu .not rd rs 0 0)) s

/-- ABS (R281, R295). -/
def execAbs (k : Fin 4) (rd rs : Fin 16) (s : State) : Res :=
  run (fun s => brlIssue s k (.alu .abs rd rs 0 0)) s

/-- NEG (R281, R295). -/
def execNeg (k : Fin 4) (rd rs : Fin 16) (s : State) : Res :=
  run (fun s => brlIssue s k (.alu .neg rd rs 0 0)) s

/-- MOV (R281, R295). -/
def execMov (k : Fin 4) (rd rs : Fin 16) (s : State) : Res :=
  run (fun s => brlIssue s k (.alu .mov rd rs 0 0)) s

/-- CONJ (R281, R295). -/
def execConj (k : Fin 4) (rd rs : Fin 16) (s : State) : Res :=
  run (fun s => brlIssue s k (.alu .conj rd rs 0 0)) s

/-- SHL (R281). -/
def execShl (k : Fin 4) (rd rs : Fin 16) (n : Fin 32) (s : State) : Res :=
  run (fun s => brlIssue s k (.alu .shl rd rs 0 n)) s

/-- SHR (R281). -/
def execShr (k : Fin 4) (rd rs : Fin 16) (n : Fin 32) (s : State) : Res :=
  run (fun s => brlIssue s k (.alu .shr rd rs 0 n)) s

/-- ASR (R281). -/
def execAsr (k : Fin 4) (rd rs : Fin 16) (n : Fin 32) (s : State) : Res :=
  run (fun s => brlIssue s k (.alu .asr rd rs 0 n)) s

/-- ASRR (R281). -/
def execAsrr (k : Fin 4) (rd rs : Fin 16) (n : Fin 32) (s : State) : Res :=
  run (fun s => brlIssue s k (.alu .asrr rd rs 0 n)) s

/-- CMP (R281). -/
def execCmp (k : Fin 4) (rs rt : Fin 16) (s : State) : Res :=
  run (fun s => brlIssue s k (.alu .cmp 0 rs rt 0)) s

/-- MOVA (R280). -/
def execMova (k : Fin 4) (rd : Fin 16) (acc : Fin 4) (s : State) : Res :=
  run (fun s => brlIssue s k (.mova rd acc)) s

/-- MOVAC (R280). -/
def execMovac (k : Fin 4) (rd : Fin 16) (pair : Fin 2) (s : State) : Res :=
  run (fun s => brlIssue s k (.movac rd (2 * pair.val))) s

/-- MOVDA (R280). -/
def execMovda (k : Fin 4) (acc : Fin 4) (rs : Fin 16) (s : State) : Res :=
  run (fun s => brlIssue s k (.movda acc rs)) s

/-- CLRA (R280). -/
def execClra (k : Fin 4) (mask : BitVec 4) (s : State) : Res :=
  run (fun s => brlIssue s k (.clra mask.toNat)) s

/-- MOVR_TO_AREG (R282). -/
def execMovrToAreg (k : Fin 4) (areg : Fin 32) (rs : Fin 16) (s : State) : Res :=
  run (fun s => brlIssue s k (.movrTo areg rs)) s

/-- MOVR_FROM_AREG (R294). -/
def execMovrFromAreg (k : Fin 4) (rd : Fin 16) (areg : Fin 32) (s : State) : Res :=
  run (fun s => brlIssue s k (.movrFrom rd areg)) s

/-- AADD (R294). -/
def execAadd (k : Fin 4) (areg : Fin 32) (rs : Fin 16) (s : State) : Res :=
  run (fun s => brlIssue s k (.aadd areg rs)) s

/-- AADDK (R294). -/
def execAaddk (k : Fin 4) (areg : Fin 32) (imm : BitVec 15) (s : State) : Res :=
  run (fun s => brlIssue s k (.aaddk areg imm.toNat)) s

/-- NOP (R295). -/
def execNop (k : Fin 4) (s : State) : Res :=
  run (fun s => brlIssue s k .nop) s

/-- RET (R291). -/
def execRet (k : Fin 4) (s : State) : Res :=
  run (fun s => brlIssue s k .ret) s

/-- RETI (R291). -/
def execReti (k : Fin 4) (s : State) : Res :=
  run (fun s => brlIssue s k .reti) s

/-- HALT (R295). -/
def execHalt (k : Fin 4) (s : State) : Res :=
  run (fun s => brlIssue s k .halt) s

/-- WAIT (R292). -/
def execWait (k : Fin 4) (s : State) : Res :=
  run (fun s => brlIssue s k .wait) s

/-- SWI (R289). -/
def execSwi (k : Fin 4) (s : State) : Res :=
  run (fun s => brlIssue s k .swi) s

/-- FENCE (R272). -/
def execFence (k : Fin 4) (s : State) : Res :=
  run (fun s => brlIssue s k .fence) s

/-- SEI (R295). -/
def execSei (k : Fin 4) (s : State) : Res :=
  run (fun s => brlIssue s k (.setIe true)) s

/-- CLI (R295). -/
def execCli (k : Fin 4) (s : State) : Res :=
  run (fun s => brlIssue s k (.setIe false)) s

/-- SEV (R295). -/
def execSev (k : Fin 4) (event : Fin 4) (s : State) : Res :=
  run (fun s => brlIssue s k (.sev event)) s

/-- ITER (R285). -/
def execIter (k : Fin 4) (count : BrlCount) (s : State) : Res :=
  run (fun s => brlIssue s k (.iter count)) s

/-- INTERRUPT_TAKE (R290, R291). -/
def execInterruptTake (k : Fin 4) (s : State) : Res :=
  run (fun s => interruptTake s k) s

/-- BRL_RUN_WRITE (R292). -/
def execBrlRunWrite (k : Fin 4) (runBit : Bool) (s : State) : Res :=
  run (fun s => brlRun s k runBit) s

/-- CORE_RESET (R296). -/
def execCoreReset (k : Fin 4) (s : State) : Res :=
  run (fun s => coreReset s k) s

/-- BRL_STEP (R297). -/
def execBrlStep (k : Fin 4) (s : State) : Res :=
  run (fun s => brlStep s k) s

/-- BRL_MBOX_IN_WRITE (R289). -/
def execBrlMboxInWrite (k : Fin 4) (value : Word) (s : State) : Res :=
  run (fun s => mboxInWrite s k value) s

/-- BRL_IRQ_PEND_WRITE (R289). -/
def execBrlIrqPendWrite (k : Fin 4) (vectors : BitVec 16) (s : State) : Res :=
  run (fun s => irqPendWrite s k vectors.toNat) s

/-- BRL_TIMER_EXPIRY (R289). -/
def execBrlTimerExpiry (k : Fin 4) (s : State) : Res :=
  run (fun s => if getR s (R.BRL_TIMER k) ≠ 0 ∧ domOn s (1 + k.val) = true then brlPend s k 12 else s) s

/-- HOST_C_MEMORY_WRITE (R269). -/
def execHostCMemoryWrite (k : Fin 4) (index : Fin 32768) (data : Word) (s : State) : Res :=
  run (fun s => cMemWrite s .host k index data) s

end Sys2Proof.Machine
end

