-- ==== Sys2Proof/Machine/Inflate.lean ====
section
/-! DEFINITION. The DEFLATE format of RFC 1951 as the decompressor reads it, with the outcomes of R428. Outcome codes:
2 BAD_BLOCK, 3 BAD_DISTANCE, 4 TRUNCATED, 5 OUT_LIMIT, 7 MEM_UE. -/

namespace Sys2Proof.Machine

/-- The source of a job: its bytes, none where a read returns an uncorrectable error. -/
abbrev DecSrc := List (Option Byte)

/-- Bit `p` of the source, bytes least significant bit first. -/
def srcBit (src : DecSrc) (p : Nat) : Except Nat Nat :=
  match src[p / 8]? with
  | some (some b) => .ok (b.toNat / 2 ^ (p % 8) % 2)
  | some none => .error 7
  | none => .error 4

/-- `n` bits from bit `p`, the first read least significant. -/
def srcBits (src : DecSrc) (p : Nat) : Nat → Except Nat Nat
  | 0 => .ok 0
  | n + 1 => do
    let b ← srcBit src p
    let r ← srcBits src (p + 1) n
    return b + 2 * r

/-- Where the decoder stands: the next source bit, and the bytes produced, newest first. -/
structure DecAt where
  pos : Nat
  out : List Byte
  deriving DecidableEq, Repr

/-- What a stretch of decoding gives: where it ends, and the outcome code if it failed there. -/
structure DecRes where
  fin : DecAt
  err : Option Nat
  deriving DecidableEq, Repr

/-- Number of codes of each length 0 to 15. -/
def codeCounts (lens : List Nat) : List Nat := (List.range 16).map fun n => lens.count n

/-- Codes left unused by a set of lengths, in units of 2^-15; negative if over-full. -/
def codeLeft (lens : List Nat) : Int :=
  2 ^ 15 - ((List.range 15).map fun n => (lens.count (n + 1) * 2 ^ (14 - n) : Int)).sum

/-- The lengths form a complete code. -/
def codeComplete (lens : List Nat) : Bool := codeLeft lens == 0

/-- RFC 1951 also lets the distance code have one code of one bit, or none at all. -/
def distanceOk (lens : List Nat) : Bool :=
  let used := lens.filter (· != 0)
  codeComplete lens || used == [1] || used == []

/-- The symbols in the order of their canonical codes. -/
def codeSymbols (lens : List Nat) : List Nat :=
  (List.range 15).flatMap fun n => (List.range lens.length).filter fun i => lens.getD i 0 == n + 1

/-- Read one Huffman symbol, bit by bit: `code`, `first` and `index` as in canonical decoding. -/
def huffRead (src : DecSrc) (counts symbols : List Nat) : Nat → Nat → Nat → Nat → Nat → Except Nat (Nat × Nat)
  | 0, _, _, _, _ => .error 2
  | n + 1, p, code, first, index => do
    let b ← srcBit src p
    let code := 2 * code + b
    let cnt := counts.getD (15 - n) 0
    if code < first + cnt then return (symbols.getD (index + (code - first)) 0, p + 1)
    else huffRead src counts symbols n (p + 1) code (2 * (first + cnt)) (index + cnt)

/-- Read one symbol of the code with these lengths at bit `p`. -/
def huffSym (src : DecSrc) (lens : List Nat) (p : Nat) : Except Nat (Nat × Nat) :=
  huffRead src (codeCounts lens) (codeSymbols lens) 15 p 0 0 0

/-- Base and extra bits of length symbol 257 + `i`. -/
def lengthOf (i : Nat) : Nat × Nat :=
  if i < 8 then (3 + i, 0)
  else if i = 28 then (258, 0)
  else
    let e := (i - 4) / 4
    ((4 + i % 4) * 2 ^ e + 3, e)

/-- Base and extra bits of distance symbol `i`. -/
def distanceOf (i : Nat) : Nat × Nat :=
  if i < 4 then (1 + i, 0)
  else
    let e := (i - 2) / 2
    ((2 + i % 2) * 2 ^ e + 1, e)

/-- Copy `n` bytes from `dist` back, up to the output limit. -/
def copyBack (limit dist : Nat) : Nat → List Byte → List Byte × Bool
  | 0, out => (out, true)
  | n + 1, out =>
    if limit ≤ out.length then (out, false) else copyBack limit dist n (out.getD (dist - 1) 0 :: out)

/-- Symbols of a compressed block up to its end-of-block code. -/
def blockSymbols (src : DecSrc) (limit : Nat) (lit dst : List Nat) : Nat → DecAt → DecRes
  | 0, a => ⟨a, some 4⟩
  | n + 1, a =>
    match huffSym src lit a.pos with
    | .error e => ⟨a, some e⟩
    | .ok (sym, p) =>
      if sym < 256 then
        if limit ≤ a.out.length then ⟨a, some 5⟩
        else blockSymbols src limit lit dst n ⟨p, BitVec.ofNat 8 sym :: a.out⟩
      else if sym = 256 then ⟨{ a with pos := p }, none⟩
      else if 286 ≤ sym then ⟨a, some 2⟩
      else
        let (lb, le) := lengthOf (sym - 257)
        let read : Except Nat (Nat × Nat × Nat) := do
          let x ← srcBits src p le
          let (ds, q) ← huffSym src dst (p + le)
          if 30 ≤ ds then throw 2
          let (db, de) := distanceOf ds
          let y ← srcBits src q de
          return (lb + x, db + y, q + de)
        match read with
        | .error e => ⟨a, some e⟩
        | .ok (len, dist, q) =>
          if a.out.length < dist ∨ 32768 < dist then ⟨a, some 3⟩
          else match copyBack limit dist len a.out with
            | (out, true) => blockSymbols src limit lit dst n ⟨q, out⟩
            | (out, false) => ⟨⟨q, out⟩, some 5⟩

/-- Lengths of the fixed literal code. -/
def fixedLit : List Nat :=
  List.replicate 144 8 ++ List.replicate 112 9 ++ List.replicate 24 7 ++ List.replicate 8 8

/-- The order of the code-length code lengths. -/
def clOrder : List Nat := [16, 17, 18, 0, 8, 7, 9, 6, 10, 5, 11, 4, 12, 3, 13, 2, 14, 1, 15]

/-- Code lengths of a dynamic block: `want` of them, coded with the code-length code `cl`. -/
def readLens (src : DecSrc) (cl : List Nat) (want : Nat) : Nat → Nat → List Nat → Except Nat (List Nat × Nat)
  | 0, _, _ => .error 2
  | n + 1, p, acc =>
    if acc.length = want then .ok (acc, p)
    else if want < acc.length then .error 2
    else do
      let (sym, p) ← huffSym src cl p
      if sym < 16 then readLens src cl want n p (acc ++ [sym])
      else if sym = 16 then
        match acc.getLast? with
        | none => throw 2
        | some v => readLens src cl want n (p + 2) (acc ++ List.replicate (3 + (← srcBits src p 2)) v)
      else if sym = 17 then readLens src cl want n (p + 3) (acc ++ List.replicate (3 + (← srcBits src p 3)) 0)
      else readLens src cl want n (p + 7) (acc ++ List.replicate (11 + (← srcBits src p 7)) 0)

/-- The header of a dynamic block: the two codes and where its symbols begin. -/
def dynamicCodes (src : DecSrc) (p : Nat) : Except Nat (List Nat × List Nat × Nat) := do
  let hlit ← srcBits src p 5
  let hdist ← srcBits src (p + 5) 5
  let hclen ← srcBits src (p + 10) 4
  if 29 < hlit then throw 2
  let cls ← (List.range (hclen + 4)).mapM fun i => srcBits src (p + 14 + 3 * i) 3
  let cl := (List.range 19).map fun v => (clOrder.zip cls).findSome? (fun (o, l) => if o = v then some l else none) |>.getD 0
  if !codeComplete cl then throw 2
  let (lens, q) ← readLens src cl (257 + hlit + 1 + hdist) 321 (p + 14 + 3 * (hclen + 4)) []
  let lit := lens.take (257 + hlit)
  let dst := lens.drop (257 + hlit)
  if codeComplete lit && distanceOk dst then return (lit, dst, q) else throw 2

/-- Copy `n` stored bytes from byte `i` of the source. -/
def copyStored (src : DecSrc) (limit : Nat) : Nat → Nat → List Byte → DecRes
  | 0, i, out => ⟨⟨8 * i, out⟩, none⟩
  | n + 1, i, out =>
    match src[i]? with
    | none => ⟨⟨8 * i, out⟩, some 4⟩
    | some none => ⟨⟨8 * i, out⟩, some 7⟩
    | some (some b) =>
      if limit ≤ out.length then ⟨⟨8 * i, out⟩, some 5⟩ else copyStored src limit n (i + 1) (b :: out)

/-- One block after its three header bits. -/
def blockBody (src : DecSrc) (limit type : Nat) (a : DecAt) : DecRes :=
  let fuel := 8 * src.length + 8
  match type with
  | 0 =>
    let i := (a.pos + 7) / 8
    let head : Except Nat Nat := do
      let len ← srcBits src (8 * i) 16
      let nlen ← srcBits src (8 * i + 16) 16
      if len + nlen ≠ 65535 then throw 2
      return len
    match head with
    | .error e => ⟨a, some e⟩
    | .ok len => copyStored src limit len (i + 4) a.out
  | 1 => blockSymbols src limit fixedLit (List.replicate 32 5) fuel a
  | 2 =>
    match dynamicCodes src a.pos with
    | .error e => ⟨a, some e⟩
    | .ok (lit, dst, q) => blockSymbols src limit lit dst fuel { a with pos := q }
  | _ => ⟨a, some 2⟩

/-- The blocks of a stream up to the final one. -/
def inflateFrom (src : DecSrc) (limit : Nat) : Nat → DecAt → DecRes
  | 0, a => ⟨a, some 4⟩
  | n + 1, a =>
    match srcBits src a.pos 3 with
    | .error e => ⟨a, some e⟩
    | .ok h =>
      let r := blockBody src limit (h / 2) { a with pos := a.pos + 3 }
      match r.err with
      | some _ => r
      | none => if h % 2 = 1 then r else inflateFrom src limit n r.fin

/-- Inflate the stream that begins at byte `i` of the source. -/
def inflate (src : DecSrc) (limit i : Nat) : DecRes := inflateFrom src limit (8 * src.length + 8) ⟨8 * i, []⟩

end Sys2Proof.Machine
end

