-- ==== Sys2Proof/Machine/Deflate.lean ====
section
/-! DEFINITION. The compressor's DEFLATE stream (R419 to R422): its blocks, the form each takes, and their coding under
RFC 1951. Which candidates the search tries, and with which dynamic codes a block could be sent, the spec does not fix: both
are proposals of `Config`, taken where RFC 1951, R419 and R420 allow them (log entry 1). -/

namespace Sys2Proof.Machine

/-- A symbol of the compressor's input: a literal byte, or a match. -/
inductive DefSym where
  | lit (b : Byte)
  | copy (len dist : Nat)
  deriving DecidableEq, Repr

/-- `n` bits of a number, least significant first. -/
def bitsLsb (n v : Nat) : List Bool := (List.range n).map (bitOf v ·)

/-- Bits packed into bytes, the first in the least significant place, padded with zeros. -/
def bitBytes (l : List Bool) : List Byte :=
  (List.range ((l.length + 7) / 8)).map fun i => BitVec.ofNat 8 (packBits ((l.drop (8 * i)).take 8))

/-! ## Matches (R419, R422) -/

/-- The bytes from `i` repeat those `dist` back for `len` bytes, before `e`, within the window of 32 KiB. -/
def matchOk (input : List Byte) (i e len dist : Nat) : Bool :=
  3 ≤ len && len ≤ 258 && 1 ≤ dist && dist ≤ 32768 && dist ≤ i && i + len ≤ e &&
    (List.range len).all fun k => input[i + k]? == input[i + k - dist]?

/-- Candidates tried per position, by level (R420). -/
def lzTries (level : Nat) : Nat := [4, 8, 16, 16, 32, 64, 128, 256, 1024].getD (level - 1) 1024

/-- The match found at byte `i`: the longest of the candidates tried that are matches, the first of equal ones (log entry 1). -/
def lzFind (tries : Nat) (cands : Nat → List (Nat × Nat)) (input : List Byte) (e i : Nat) : Option (Nat × Nat) :=
  (((cands i).take tries).filter fun m => matchOk input i e m.1 m.2).foldl
    (fun (b : Option (Nat × Nat)) m => if b.all (·.1 < m.1) then some m else b) none

/-- The symbols of the input from `i` to `e`. With lazy matching a match gives way to a longer one at the next byte, and its
first byte stands alone (R420). -/
def parseFrom (find : Nat → Option (Nat × Nat)) (lazy : Bool) (input : List Byte) (e : Nat) : Nat → Nat → List DefSym
  | 0, _ => []
  | n + 1, i =>
    if e ≤ i then []
    else match find i with
      | some m =>
        if lazy && (find (i + 1)).any (m.1 < ·.1) then .lit (input.getD i 0) :: parseFrom find lazy input e n (i + 1)
        else .copy m.1 m.2 :: parseFrom find lazy input e n (i + m.1)
      | none => .lit (input.getD i 0) :: parseFrom find lazy input e n (i + 1)

/-! ## Codes -/

/-- Number of the length or distance symbol whose base is the highest at most `v`. -/
def symbolOf (table : Nat → Nat × Nat) (n v : Nat) : Nat := (List.range n).countP (fun i => decide ((table i).1 ≤ v)) - 1

/-- The canonical code of a symbol, first bit first. -/
def huffCode (lens : List Nat) (sym : Nat) : List Bool :=
  let n := lens.getD sym 0
  let first := ((List.range' 1 (n - 1)).map fun m => lens.count m * 2 ^ (n - m)).sum
  (bitsLsb n (first + (lens.take sym).count n)).reverse

/-- The codes a symbol takes: of the literal code and, for a match, of the distance code. -/
def symCodes : DefSym → Nat × Option Nat
  | .lit b => (b.toNat, none)
  | .copy len dist => (257 + symbolOf lengthOf 29 len, some (symbolOf distanceOf 30 dist))

/-- A symbol in bits. -/
def symBits (lit dst : List Nat) : DefSym → List Bool
  | .lit b => huffCode lit b.toNat
  | .copy len dist =>
    let i := symbolOf lengthOf 29 len
    let j := symbolOf distanceOf 30 dist
    huffCode lit (257 + i) ++ bitsLsb (lengthOf i).2 (len - (lengthOf i).1) ++
      huffCode dst j ++ bitsLsb (distanceOf j).2 (dist - (distanceOf j).1)

/-- A block's symbols and its end-of-block code. -/
def bodyBits (lit dst : List Nat) (syms : List DefSym) : List Bool := syms.flatMap (symBits lit dst) ++ huffCode lit 256

/-- The two codes have every symbol of the block. -/
def codesCover (lit dst : List Nat) (syms : List DefSym) : Bool :=
  lit.getD 256 0 != 0 && syms.all fun x =>
    lit.getD (symCodes x).1 0 != 0 && (symCodes x).2.all fun j => dst.getD j 0 != 0

/-! ## Forms of a block (R421) -/

/-- The stored form, in blocks of at most 65,535 bytes; `p` bits have gone before. -/
def storedBits (final : Bool) : Nat → Nat → List Byte → List Bool
  | 0, _, _ => []
  | n + 1, p, bs =>
    let part := bs.take 65535
    let rest := bs.drop 65535
    let block := [final && rest == [], false, false] ++ List.replicate ((8 - (p + 3) % 8) % 8) false ++
      bitsLsb 16 part.length ++ bitsLsb 16 (65535 - part.length) ++ part.flatMap fun b => bitsLsb 8 b.toNat
    if rest == [] then block else block ++ storedBits final n (p + block.length) rest

/-- The fixed form. -/
def fixedBits (final : Bool) (syms : List DefSym) : List Bool :=
  [final, true, false] ++ bodyBits fixedLit (List.replicate 32 5) syms

/-- A header of dynamic codes that has every symbol: 226 literal and length codes of 8 bits and 60 of 9, 2 distance codes of 4
bits and 28 of 5, each length given by itself in a code of 2 bits. -/
def plainHeader : List Bool :=
  let lens := List.replicate 226 8 ++ List.replicate 60 9 ++ List.replicate 2 4 ++ List.replicate 28 5
  let codes := (List.range 19).map fun k => if k ∈ [4, 5, 8, 9] then 2 else 0
  bitsLsb 5 29 ++ bitsLsb 5 29 ++ bitsLsb 4 8 ++
    ([16, 17, 18, 0, 8, 7, 9, 6, 10, 5, 11, 4].flatMap fun k => bitsLsb 3 (codes.getD k 0)) ++ lens.flatMap (huffCode codes)

/-- The dynamic form with a header, if that is one: of at most 15 bits a code, as RFC 1951 lays it down. -/
def dynamicBits (final : Bool) (header : List Bool) (syms : List DefSym) : Option (List Bool) :=
  match dynamicCodes ((bitBytes header).map some) 0 with
  | .ok (lit, dst, q) =>
    if q = header.length ∧ codesCover lit dst syms = true then
      some ([final, false, true] ++ header ++ bodyBits lit dst syms) else none
  | .error _ => none

/-- The form a block takes: stored if it is no larger than the others, else fixed if it is no larger than dynamic. -/
def smallestForm (stored fixed : List Bool) (dynamic : Option (List Bool)) : List Bool :=
  if stored.length ≤ fixed.length ∧ dynamic.all (fun d => decide (stored.length ≤ d.length)) = true then stored
  else match dynamic with
    | some d => if fixed.length ≤ d.length then fixed else d
    | none => fixed

/-! ## The stream -/

/-- Blocks of at most `n` bytes from `i` to `e`. -/
def blockCuts (n e : Nat) : Nat → Nat → List (Nat × Nat)
  | 0, _ => []
  | k + 1, i => if e ≤ i then [] else (i, min e (i + n)) :: blockCuts n e k (i + n)

/-- The blocks of an input: from where to where, and whether the block is the empty stored one of a flush. A block ends after
`n` bytes of its own, at the end of a flushed run and at the end of the input; a run's last block is followed by an empty
stored one (R421). -/
def blockPlan (n : Nat) (runs : List Nat) (len : Nat) : List (Nat × Nat × Bool) :=
  let cut (i e : Nat) : List (Nat × Nat × Bool) := (blockCuts n e len i).map fun b => (b.1, b.2, false)
  let plan := if runs = [] then cut 0 len
    else (runs.foldl (fun (p : Nat × List (Nat × Nat × Bool)) r =>
      let e := min len (p.1 + r)
      (e, p.2 ++ cut p.1 e ++ [(e, e, true)])) (0, [])).2
  if plan = [] then [(0, 0, false)] else plan

/-- The DEFLATE stream of an input, for a level, BLOCK_KIB, and the lengths of the runs it flushes at (none: no flushes);
the same for the same four (R421, R422). -/
def deflateStream (level blockKib : Nat) (runs : List Nat) (input : List Byte) : List Byte :=
  let plan := blockPlan (1024 * blockKib) runs input.length
  let bits := plan.zipIdx.foldl (fun (acc : List Bool) (b, k) =>
    let (i, e, flushed) := b
    let final := k + 1 == plan.length
    let stored := storedBits final (e - i + 1) acc.length ((input.drop i).take (e - i))
    if flushed then acc ++ stored
    else
      let found := lzFind (lzTries level) (Config.lzCandidates level blockKib runs input) input e
      let syms := parseFrom found (4 ≤ level) input e (e - i) i
      acc ++ smallestForm stored (fixedBits final syms)
        (dynamicBits final (Config.dynamicHeader level blockKib runs input i) syms <|> dynamicBits final plainHeader syms)) []
  bitBytes bits

end Sys2Proof.Machine
end

