-- ==== Sys2Proof/Machine/Trg.lean ====
section
/-! DEFINITION. Triggers: impulse and beam searches, records, signposts, raw ring, captures and holds (R244 to
R267). -/

namespace Sys2Proof.Machine

/-- Change the trigger engine's hidden state. -/
def setTrg (s : State) (f : Trg → Trg) : State := { s with trg := f s.trg }

/-- A configuration field as the engine uses it: a word written since the last tick while the engine runs is not in
force yet (R267). -/
def trgF (s : State) (f : Fld) : Nat := bitsOf (s.trg.old.get (rd s f.addr) f.addr).toNat f.hi f.lo

/-- Bit `i` of a pair of configuration registers as the engine uses it. -/
def trgPairB (s : State) (a i : Nat) : Bool := trgF s ⟨a + 4 * (i / 32), i % 32, i % 32⟩ == 1

/-- A master writes a configuration register: while RUNNING the word in force stays until the next tick (R267). -/
def trgWrite (s : State) (a : Nat) (v : Word) : State :=
  let s := if flag s F.TRG_STATUS_RUNNING ∧ (s.trg.old.find a).isNone then
      setTrg s fun t => { t with old := t.old.put a (rd s a) }
    else s
  wr s a v

/-- The engine runs: EN set and PD_24 on. -/
def trgOn (s : State) : Bool := flag s F.TRG_CTRL_EN && domOn s 24

/-! ## Segments and captures (R257 to R262) -/

/-- DRAM byte address of sample `t` of signal `i` in frame `j` of segment `k` (R257). -/
def rawAddr (s : State) (k j i t : Nat) : Nat :=
  getPair s R.TRG_RAW_BASE_LO + k * 805306368 + (64 * j + i) * 2 ^ 21 + t

/-- State of segment `k`: 0 FREE, 1 WRITING, 2 WRITTEN, 3 FROZEN (R259). -/
def segState (s : State) (k : Nat) : Nat := getF s (F.TRG_SEG_STATE k)

/-- Segment `k` is FROZEN or PENDING. -/
def segKept (s : State) (k : Nat) : Bool := segState s k == 3 || flag s (F.TRG_SEG_PENDING k)

/-- Segments FROZEN or PENDING. -/
def keptCount (s : State) : Nat := (List.range 96).countP (segKept s)

/-- Captures not FREE. -/
def openCaptures (s : State) : List Nat := (List.range 16).filter fun c => getF s (F.TRG_CAPTURE_STATE c) != 0

/-- The segments in the order in which the writer takes them after the current one: those neither FROZEN nor PENDING
(R258). -/
def rotation (s : State) : List Nat :=
  let first := match s.trg.current with
    | some k => k + 1
    | none => 0
  ((List.range 96).map fun i => (first + i) % 96).filter fun k => !segKept s k && s.trg.current != some k

/-- First frame of the block of six that the writer is in, or will take next when it has taken none. -/
def writerBlock (s : State) : Option Nat := s.trg.current.bind s.trg.segFirst.find

/-- The block from frame `b` on has not been begun by the writer, and will be: a STOP leaves out blocks that begin at or
after FS (R25). -/
def blockAhead (s : State) (b : Nat) : Bool :=
  s.arch.stopFrame.all (b < ·) &&
  match writerBlock s with
  | some w => w < b
  | none => frameOf s ≤ b + 5

/-- The segment that holds, is being written with, or is claimed for the block from frame `b` on. -/
def segHolding (s : State) (b : Nat) : Option Nat :=
  match (List.range 96).find? fun k => s.trg.segFirst.find k == some b && segState s k != 0 with
  | some k => some k
  | none => (List.range 96).find? fun k => s.trg.claimed.find k == some b

/-- The segment the writer will take for a block ahead, passing over those claimed. -/
def segAhead (s : State) (b : Nat) : Option Nat :=
  let from_ := match writerBlock s with
    | some w => w + 6
    | none => (frameOf s + 5) / 6 * 6
  let skipped := (b - from_) / 6 - s.trg.claimed.countP (fun e => e.2 < b)
  let r := rotation s
  if r = [] then none else r[skipped % r.length]?

/-- Bring `TRG_RAW_STATE` and the counts of the open captures up to date; a segment claimed ahead still shows the frames it
held before, which are none of the capture's (R266). -/
def rawShow (s : State) : State :=
  let s := setF (setF s F.TRG_RAW_STATE_OPEN (openCaptures s).length) F.TRG_RAW_STATE_FROZEN (keptCount s)
  (openCaptures s).foldl (fun s c =>
    let segs := s.trg.captureSegs.get [] c
    let s := setF s (F.TRG_CAPTURE_SEGMENTS c) segs.length
    setF s (F.TRG_CAPTURE_RAW_GAP c)
      (ofBool (segs.any fun k => (s.trg.claimed.find k).isNone && getF s (F.TRG_SEG_RAW_GAP k) != 0))) s

/-- The result of a claim. -/
inductive Claim where
  | done (s : State)
  | gone
  | full

/-- Capture `c` claims the segment of the block from frame `b` on (R260). -/
def claimBlock (s : State) (c b : Nat) : Claim :=
  let held := segHolding s b
  let new := held.isNone
  match if new then (if blockAhead s b then segAhead s b else none) else held with
  | none => .gone
  | some k =>
    if k ∈ s.trg.captureSegs.get [] c then .done s
    else if ¬ segKept s k ∧ 72 ≤ keptCount s then .full
    else
      let s := setF s (F.TRG_SEG_REFS k) (getF s (F.TRG_SEG_REFS k) + 1)
      let s := if new then setTrg s fun t => { t with claimed := t.claimed.put k b } else s
      let s := if new ∨ segState s k = 1 ∨ (s.trg.claimed.find k).isSome then setF s (F.TRG_SEG_PENDING k) 1
        else setF s (F.TRG_SEG_STATE k) 3
      .done (setTrg s fun t => { t with captureSegs := t.captureSegs.upd [] c (· ++ [k]) })

/-- Claim blocks in order until the limit of 72 is met (R260). -/
def claimBlocks : State → Nat → List Nat → State
  | s, _, [] => s
  | s, c, b :: bs =>
    match claimBlock s c b with
    | .done s => claimBlocks s c bs
    | .gone => claimBlocks (setF s (F.TRG_CAPTURE_PARTIAL c) 1) c bs
    | .full => setF s (F.TRG_CAPTURE_TRUNCATED c) 1

/-- A FILLING capture none of whose segments is PENDING is COMPLETE, and CAPTURE_FREEZE is raised (R262). -/
def captureCheck (s : State) (c : Nat) : State :=
  let waits := (s.trg.captureSegs.get [] c).any fun k => flag s (F.TRG_SEG_PENDING k)
  let st := getF s (F.TRG_CAPTURE_STATE c)
  if st = 1 ∧ ¬ waits then brlPendAll (raise (setF s (F.TRG_CAPTURE_STATE c) 2) 9) 7
  else if st = 2 ∧ waits then setF s (F.TRG_CAPTURE_STATE c) 1
  else s

/-- Check every capture. -/
def captureChecks (s : State) : State := (List.range 16).foldl captureCheck (rawShow s)

/-- First and last frame of a capture's range. -/
def captureRange (s : State) (c : Nat) : Nat × Nat :=
  (getR s (R.TRG_CAPTURE c + 4) + getR s (R.TRG_CAPTURE c + 8) * 2 ^ 32,
   getR s (R.TRG_CAPTURE c + 12) + getR s (R.TRG_CAPTURE c + 16) * 2 ^ 32)

/-- Set it. -/
def setCaptureRange (s : State) (c : Nat) (r : Nat × Nat) : State :=
  let s := setR (setR s (R.TRG_CAPTURE c + 4) (r.1 % 2 ^ 32)) (R.TRG_CAPTURE c + 8) (r.1 / 2 ^ 32)
  setR (setR s (R.TRG_CAPTURE c + 12) (r.2 % 2 ^ 32)) (R.TRG_CAPTURE c + 16) (r.2 / 2 ^ 32)

/-- The blocks from first frame `a` to `b` in claiming order for frame `ft` (R260). -/
def claimOrder (a b ft : Nat) : List Nat :=
  let blocks := (List.range ((b - a) / 6 + 1)).map fun i => a + 6 * i
  let m := ft / 6 * 6
  m :: blocks.filter (m < ·) ++ (blocks.filter (· < m)).reverse

/-- A FREEZE action for frame `ft`: the capture it opened or joined, or none where it was refused (R260, R261). A chip
without a raw ring region has none to freeze (R299). -/
def freeze (s : State) (ft : Nat) : State × Option Nat :=
  let lo := ft - min 575 (trgF s F.TRG_FREEZE_CFG_PRE)
  let hi := ft + min 71 (trgF s F.TRG_FREEZE_CFG_POST)
  let a := lo / 6 * 6
  let b := hi / 6 * 6
  let refused := (setF (bump s R.TRG_FREEZE_REFUSED_COUNT) F.TRG_STATUS_FREEZE_REFUSED 1, none)
  if regionSize s 0 = 0 then refused
  else
    match (openCaptures s).find? fun c => lo ≤ (captureRange s c).2 + 1 && (captureRange s c).1 ≤ hi + 1 with
    | some c =>
      let r := captureRange s c
      let s := setCaptureRange s c (min r.1 a, max r.2 (b + 5))
      let s := bumpF s (F.TRG_CAPTURE_TRIGGERS c)
      (captureChecks (claimBlocks s c (claimOrder a b ft)), some c)
    | none =>
      match (List.range 16).find? fun c => getF s (F.TRG_CAPTURE_STATE c) == 0 with
      | some c =>
        let s := setF (setF (setR s (R.TRG_CAPTURE c) 0) (F.TRG_CAPTURE_STATE c) 1) (F.TRG_CAPTURE_TRIGGERS c) 1
        let s := setCaptureRange (setTrg s fun t => { t with captureSegs := t.captureSegs.put c [] }) c (a, b + 5)
        (captureChecks (claimBlocks s c (claimOrder a b ft)), some c)
      | none => refused

/-- The hold of span slot `k` ends (R263). -/
def holdEnd (s : State) (k : Nat) : State :=
  setTrg (setF s (F.XR_SLOT_HELD k) 0) fun t => { t with holds := t.holds.drop (· == k) }

/-- A segment loses one reference; at 0 a FROZEN one is WRITTEN and a claim is undone (R262). -/
def segRelease (s : State) (k : Nat) : State :=
  let n := getF s (F.TRG_SEG_REFS k) - 1
  let s := setF s (F.TRG_SEG_REFS k) n
  if n ≠ 0 then s
  else
    let s := if segState s k = 3 then setF s (F.TRG_SEG_STATE k) 2 else s
    setTrg (setF s (F.TRG_SEG_PENDING k) 0) fun t => { t with claimed := t.claimed.drop (· == k) }

/-- Release of capture `c` (R262). -/
def captureRelease (s : State) (c : Nat) : State :=
  if getF s (F.TRG_CAPTURE_STATE c) = 0 then s
  else
    let s := (s.trg.captureSegs.get [] c).foldl segRelease s
    let s := setF (setF (setF s (F.TRG_CAPTURE_STATE c) 0) (F.TRG_CAPTURE_HELD c) 0) (F.TRG_CAPTURE_SEGMENTS c) 0
    let mine := s.trg.holds.filter fun e => c ∈ e.2
    let s := setTrg s fun t => { t with
      captureSegs := t.captureSegs.drop (· == c)
      holds := t.holds.map fun e => (e.1, e.2.erase c) }
    let s := mine.foldl (fun s e => if e.2 = [c] then holdEnd s e.1 else s) s
    raise (rawShow s) 10

/-! ## Holds (R263) -/

/-- A HOLD action for frame `ft` of a trigger with capture `cap`: the slot held, or none where it was refused. -/
def holdSlot (s : State) (ft : Nat) (cap : Option Nat) : State × Option Nat :=
  let refused := (setF (bump s R.TRG_HOLD_REFUSED_COUNT) F.TRG_STATUS_HOLD_REFUSED 1, none)
  match slotOf s (ft / spanLen s) with
  | none => refused
  | some k =>
    let own := fun (s : State) =>
      match cap with
      | some c => setF (setF s (F.TRG_CAPTURE_HELD c) 1) (F.TRG_CAPTURE_SLOT c) k
      | none => s
    let owners := s.trg.holds.get [] k
    if flag s (F.XR_SLOT_HELD k) then
      if owners = [] then refused
      else
        let s := setTrg s fun t => { t with holds := t.holds.put k (owners ++ (cap.toList.filter (· ∉ owners))) }
        (own s, some k)
    else if min 2 (trgF s F.TRG_HOLD_CFG_MAX) ≤ (List.range 4).countP (fun j => flag s (F.XR_SLOT_HELD j)) then refused
    else
      let s := setTrg (setF s (F.XR_SLOT_HELD k) 1) fun t => { t with holds := t.holds.put k cap.toList }
      (own s, some k)

/-! ## Signposts (R255, R256) -/

/-- Header bytes 0 to 29 of a SIGNPOST frame (R79, R91). -/
def signpostHeader (origin hops channel index seq kind width snr : Nat) : List Byte :=
  leBytes 1 4 ++ leBytes 1 0x10 ++ leBytes 2 0 ++ leBytes 1 origin ++ leBytes 1 hops ++ leBytes 2 channel ++
    leBytes 8 index ++ leBytes 4 seq ++ leBytes 1 kind ++ leBytes 1 0 ++ leBytes 2 width ++ leBytes 4 snr ++ leBytes 2 0

/-- The exchange links that are WIDE or NARROW (R156). -/
def usableLinks (s : State) : List Nat := (List.range 14).filter fun k => xlState s k == 1 || xlState s k == 2

/-! ## A trigger (R245, R253 to R255) -/

/-- A trigger as it fires: the record's fields, its action mask, and for a received signpost its origin. -/
structure Trigger where
  kind : Nat
  channel : Nat
  index : Nat
  snr : Nat := 0
  width : Nat := 0
  detail : Nat := 0
  hits : Nat := 0
  act : Nat
  lateHits : Bool := false
  excluded : Bool := false
  origin : Option Nat := none

/-- Send the signpost of a trigger; whether it went (R255). -/
def signpostSend (s : State) (t : Trigger) : State × Bool :=
  let f := frameOf s
  let n := if s.trg.perFrame.1 = f then s.trg.perFrame.2 else 0
  let hops := trgF s F.TRG_SP_CFG_HOPS
  if hops = 0 ∨ usableLinks s = [] ∨ ¬ emitsFrame s (t.index / 2 ^ 21) then (s, false)
  else if trgF s F.TRG_SP_CFG_MAX_PER_FRAME ≤ n then
    (setF (bump s R.TRG_SP_LIMIT_COUNT) F.TRG_STATUS_SP_LIMIT 1, false)
  else
    let h := signpostHeader (chipNo s) (hops - 1) t.channel t.index s.trg.sent t.kind t.width t.snr
    let s := (usableLinks s).foldl (fun s k => sendOnLink s k h []) s
    (setTrg (bump s R.TRG_SP_TX_COUNT) fun g => { g with sent := g.sent + 1, perFrame := (f, n + 1) }, true)

/-- The 64 bytes of a trigger record (R254). -/
def trigRecord (s : State) (t : Trigger) (flags capture slot : Nat) : List Byte :=
  let b := leBytes 4 0x4754584C ++ leBytes 1 t.kind ++ leBytes 1 flags ++ leBytes 2 t.channel ++ leBytes 8 t.index ++
    leBytes 8 s.trg.seq ++ leBytes 4 t.snr ++ leBytes 2 t.width ++ leBytes 1 t.detail ++ leBytes 1 capture ++
    leBytes 1 (t.origin.getD (chipNo s)) ++ leBytes 1 (chipNo s) ++ leBytes 1 slot ++
    leBytes 1 (getF s F.XR_CTRL_TWIN_PAIR) ++ leBytes 8 t.hits ++ leBytes 16 0
  b ++ leBytes 4 (crc32c b).toNat

/-- Write a record to the record ring, or drop it where the ring is full (R253). -/
def recordWrite (s : State) (t : Trigger) (flags capture slot : Nat) : State :=
  let bs := trigRecord s t flags capture slot
  let s := setTrg s fun g => { g with seq := g.seq + 1 }
  let f := t.index / 2 ^ 21
  let s := digestSum s (f / spanLen s) 3
    (bs.take 5 ++ (bs.drop 6).take 10 ++ (bs.drop 24).take 7 ++ (bs.drop 36).take 8)
  let count := getR s R.TRG_RING_COUNT
  let head := getR s R.TRG_RING_HEAD
  if ¬ emitsFrame s f then s
  else if ringFull count head (getR s R.TRG_RING_TAIL) then
    fault (setF (bump s R.TRG_RECORD_DROP_COUNT) F.TRG_STATUS_RECORD_DROP 1) 14
  else
    let s := unitWrite s 7 (getPair s R.TRG_RING_BASE_LO + 64 * head) bs
    brlPendAll (bump (setR s R.TRG_RING_HEAD ((head + 1) % count)) R.TRG_RECORD_COUNT) 4

/-- The value of an action's bit `i`. -/
def Trigger.does (t : Trigger) (i : Nat) : Bool := bitOf t.act i

/-- A trigger takes its actions: freeze claim, hold, signpost, record, event (R245, R253, R255, R256, R260, R263). -/
def fireTrigger (s : State) (t : Trigger) : State :=
  let ft := t.index / 2 ^ 21
  let (s, cap) := if t.does 2 then freeze s ft else (s, none)
  let (s, slot) := if t.does 3 then holdSlot s ft cap else (s, none)
  let (s, sent) := if t.does 1 ∧ t.kind ≠ 5 then signpostSend s t else (s, false)
  let flags := packBits [sent, cap.isSome, t.does 2 && cap.isNone, slot.isSome, t.does 3 && slot.isNone,
    t.lateHits, t.excluded]
  let s := if t.act % 16 = 0 then s else recordWrite s t flags (cap.getD 0xFF) (slot.getD 0xFF)
  if t.does 4 then
    match t.kind with
    | 1 => raise s 6
    | 2 => raise s 7
    | 5 => raise s 8
    | _ => s
  else s

/-- A signpost arrives on exchange link `k` (R256). -/
def signpostReceive (s : State) (k : Nat) (f : RxFrame) : State :=
  if ¬ trgOn s then s
  else
    let origin := frByte f 4
    let hops := frByte f 5
    let channel := frField f 6 2
    let index := frField f 8 8
    let key := (origin, channel, index)
    if origin = chipNo s ∨ key ∈ s.trg.keys then bump s R.TRG_SP_DUP_COUNT
    else
      let s := setTrg (bump s R.TRG_SP_RX_COUNT) fun t => { t with keys := (key :: t.keys).take 256 }
      let kind := frByte f 20
      let width := frField f 22 2
      let snr := frField f 24 4
      let s := if hops = 0 ∨ ¬ emitsFrame s (index / 2 ^ 21) then s
        else (usableLinks s).foldl (fun s j =>
          if j = k then s
          else sendOnLink s j (signpostHeader origin (hops - 1) channel index (frField f 16 4) kind width snr) []) s
      fireTrigger s
        { kind := 5, channel, index, snr, width, detail := hops, origin := some origin
          act := trgF s F.TRG_SP_CFG_ACTION &&& 0b11101 }

/-! ## Impulse search (R246 to R249) -/

/-- One signal's impulse search. -/
def impulse (s : State) (i : Nat) : Impulse := s.trg.impulses.get {} i

/-- Envelope length. -/
def envLen (s : State) : Nat := 2 ^ min 5 (trgF s F.TRG_IMP_CFG_ENV_LOG)

/-- What the search of one signal carries from sample to sample: nq, READY, the rest, and the hit events. -/
structure ImpAcc where
  nq : Nat
  ready : Bool
  imp : Impulse
  hits : List (Nat × Nat)

/-- One sample `x` with index `t` (R246). `hits` collects the index and ratio of each hit event; a ratio with nq = 0 is
held as 2^64. -/
def impSample (len thr ns holdoff : Nat) (locked : Bool) (a : ImpAcc) (t : Nat) (x : Int) : ImpAcc :=
  let hist := (x :: a.imp.hist).take 32
  let e := ((hist.take len).map fun v => (v * v).toNat).sum
  let hit := a.ready && locked && e * 2 ^ 12 > a.nq * thr
  let imp := { a.imp with hist, last := some (max t (a.imp.last.getD t)) }
  if hit then
    let event := !a.imp.inRun && a.imp.lastHit.all (· + holdoff ≤ t)
    let ratio := if a.nq = 0 then 2 ^ 64 else e * 2 ^ 24 / a.nq
    { a with
      imp := { imp with inRun := true, lastHit := if event then some t else a.imp.lastHit }
      hits := if event then a.hits ++ [(t, ratio)] else a.hits }
  else if locked then
    let updates := a.imp.updates + 1
    { a with
      nq := ((a.nq : Int) + rhu ((e * 256 : Nat) - (a.nq : Int)) ns).toNat
      ready := a.ready || updates == 2 ^ ns
      imp := { imp with inRun := false, updates } }
  else { a with imp := { imp with inRun := false } }

/-- The search goes on at index `idx`: behind it lie the samples delivered up to there, in whatever order they came;
missing ones read as 0 and are no hits (R246). -/
def impAt (imp : Impulse) (idx : Nat) : Impulse :=
  match imp.tails.find? (·.1 == idx) with
  | some (_, inRun, hist) => { imp with inRun, hist }
  | none => { imp with inRun := false, hist := [] }

/-- Samples up to before index `next` have been searched; what lies out of reach of an INGEST frame's class is dropped
(R96). -/
def impEnd (imp : Impulse) (next : Nat) : Impulse :=
  { imp with tails := (next, imp.inRun, imp.hist) :: imp.tails.filter fun e => e.1 != next && next < e.1 + 2 ^ 22 }

/-- The last samples of an INGEST frame that never came: they read as 0 and are no hits (R246). -/
def impRest (missing : Nat) (imp : Impulse) : Impulse :=
  if missing = 0 then imp
  else { imp with inRun := false, hist := (List.replicate (min missing 32) 0 ++ imp.hist).take 32 }

/-- The signals of lane `n` count as LOCKED in the impulse search: by their state (R97), and in a replay, in which the lanes
feed nothing, always (R434; log entry 41). -/
def tapLocked (s : State) (n : Nat) : Bool := replaying s || sigState s n == 3

/-- The group's horizon (R247): the lowest index that every LOCKED member lane has delivered, never below the counter
less 131,072, and it does not go back. -/
def horizonNow (s : State) (k : Nat) : Nat :=
  let members := (List.range 16).filter fun n =>
    tapLocked s n && (List.range 4).any fun j => trgPairB s (R.TRG_GROUP_MASK_LO k) (4 * n + j)
  let floor := s.counter.toNat - 131072
  let low := match members with
    | [] => floor
    | n :: ns => ns.foldl (fun h m => min h ((impulse s (4 * m)).last.getD 0)) ((impulse s (4 * n)).last.getD 0)
  max (s.trg.groups.get {} k).horizon (max floor low)

/-- A RETRACT record (R249). -/
def retractRecord (s : State) (channel index : Nat) : State :=
  recordWrite (bump s R.TRG_RETRACT_COUNT) { kind := 6, channel, index, act := 1 } 0 0xFF 0xFF

/-- Group `k` fires at index `t` with the hits `set`; a set with a hit of an INGEST frame discarded since is retracted at once
(R248, R249; log entry 62). -/
def groupFire (s : State) (k t : Nat) (set : List Hit) (late : Bool) : State :=
  let first := set.foldl (fun (b : Hit) h =>
    if h.at_ < b.at_ ∨ (h.at_ = b.at_ ∧ h.signal < b.signal) then h else b) (set.headD ⟨t, 0, 0, 0, false⟩)
  let ratio := (set.map (·.ratio)).foldl max 0
  let (s, snr) := if ratio < 2 ^ 32 then (s, ratio) else (freeTaken s, (freeNext s).toNat % 2 ^ 32)
  let bad := set.any (·.bad)
  let s := if bad then s else setTrg s fun g => { g with
    fired := ⟨first.signal, first.at_, set.map fun h => (h.signal, h.source)⟩ :: g.fired }
  let s := raise (bump s R.TRG_IMP_FIRE_COUNT) (120 + k)
  let s := fireTrigger s
    { kind := 1
      channel := first.signal
      index := first.at_
      snr
      width := t - first.at_ + 1
      detail := k
      hits := packBits ((List.range 64).map fun i => set.any (·.signal == i))
      act := trgF s (F.TRG_GROUP_CFG_ACTION k)
      lateHits := late }
  if bad then retractRecord s first.signal first.at_ else s

/-- Group `k` evaluates the hits at index `t` (R248). -/
def groupAt (s : State) (k t : Nat) : State :=
  let g := s.trg.groups.get {} k
  let w := trgF s (F.TRG_GROUP_CFG_WINDOW_M1 k) + 1
  let m := min 64 (max 1 (trgF s (F.TRG_GROUP_CFG_M k)))
  let recent := (g.recent ++ g.waiting.filter (·.at_ == t)).filter fun h => t < h.at_ + w && h.at_ ≤ t
  let members := (List.range 64).countP fun i => recent.any (·.signal == i)
  let fires := m ≤ members && g.hold ≤ t
  let late := g.late.any fun l => t < l + w && l ≤ t
  let g := { g with
    waiting := g.waiting.filter fun h => t < h.at_
    recent := recent
    hold := if fires then t + w + trgF s F.TRG_IMP_CFG_HOLDOFF else g.hold }
  let s := setTrg s fun x => { x with groups := x.groups.put k g }
  if fires then groupFire s k t recent late else s

/-- Group `k`'s horizon advances, and the hits up to it are evaluated in index order; late hits out of reach of any
window from there on are forgotten after that (R247, R248, R254). -/
def horizonAdvance (s : State) (k : Nat) : State :=
  let h := horizonNow s k
  let s := setTrg s fun x => { x with groups := x.groups.upd {} k fun g => { g with horizon := h } }
  let due := (((s.trg.groups.get {} k).waiting.map (·.at_)).filter (· ≤ h)).mergeSort.eraseDups
  let s := due.foldl (fun s t => groupAt s k t) s
  setTrg s fun x => { x with groups := x.groups.upd {} k fun g => { g with
    late := g.late.filter fun l => h < l + 8192 } }

/-- A hit event reaches the groups its signal belongs to; one below the horizon of a group is late (R247). -/
def hitToGroups (s : State) (h : Hit) : State :=
  let member := fun k => trgF s (F.TRG_GROUP_CFG_EN k) == 1 && trgPairB s (R.TRG_GROUP_MASK_LO k) h.signal
  let ks := (List.range 8).filter member
  let late := ks.filter fun k => h.at_ < (s.trg.groups.get {} k).horizon
  let s := if late = [] then s else bump s R.TRG_LATE_HIT_COUNT
  ks.foldl (fun s k => setTrg s fun x => { x with groups := x.groups.upd {} k fun g =>
    if k ∈ late then { g with late := h.at_ :: g.late } else { g with waiting := h :: g.waiting } }) s

/-- At the first sample of the second frame of a recording, the seed takes the signal's search state (R431). -/
def seedImpulse (s : State) (i idx : Nat) : State :=
  if i ∈ s.ydxSeed.due ∧ frameStart (s.ydx.first + 1) ≤ idx then
    let v := (impulse s i, rd s (R.TRG_IMP_NOISE i), flag s (F.TRG_IMP_READY i))
    let y := s.ydxSeed
    { s with ydxSeed := { y with due := y.due.erase i, impulses := y.impulses.put i v } }
  else s

/-- At the first spectrum of the second frame of a recording, the seed takes the beam search's state (R431). -/
def seedBeams (s : State) (x : Nat) : State :=
  if s.ydxSeed.beamsDue ∧ 256 * (s.ydx.first + 1) ≤ x then
    let y := s.ydxSeed
    { s with ydxSeed := { y with beamsDue := false, beams := s.trg.beams } }
  else s

/-- The impulse tap delivers samples of signal `i` from index `idx` on, where an INGEST frame begins: all 4,096, or as many as
came of a frame cut short (R106, R246). -/
def tapSignal (s : State) (i idx : Nat) (xs : List Int) : State :=
  let s := seedImpulse s i idx
  let rest := impRest (4096 - xs.length)
  if xs = [] then s else
  if ¬ trgPairB s R.TRG_IMP_EN_LO i then
    setTrg s fun t => { t with impulses := t.impulses.upd {} i fun m => impEnd (rest { m with
      last := some (max (idx + xs.length - 1) (m.last.getD 0)), inRun := false, hist := xs.reverse.take 32 }) (idx + 4096) }
  else
    let ns := min 24 (max 8 (trgF s (F.TRG_IMP_NOISE_SHIFT i)))
    let a : ImpAcc := ⟨getR s (R.TRG_IMP_NOISE i), flag s (F.TRG_IMP_READY i), impAt (impulse s i) idx, []⟩
    let locked := tapLocked s (i / 4)
    let a := xs.zipIdx.foldl (fun a (x, o) =>
      impSample (envLen s) (trgF s (F.TRG_IMP_THRESH i)) ns (trgF s F.TRG_IMP_CFG_HOLDOFF) locked a (idx + o) x) a
    let s := setF (setR s (R.TRG_IMP_NOISE i) a.nq) (F.TRG_IMP_READY i) (ofBool a.ready)
    let s := setTrg s fun t => { t with impulses := t.impulses.put i (impEnd (rest a.imp) (idx + 4096)) }
    a.hits.foldl (fun s (t, ratio) => hitToGroups (bump s R.TRG_IMP_HIT_COUNT) ⟨t, i, ratio, idx, false⟩) s

/-- The impulse search runs on frame `f`. -/
def impulseOn (s : State) (f : Nat) : Bool := trgOn s && trgF s F.TRG_CTRL_IMP_EN == 1 && inRun s f && !replaying s

/-- The tap takes an INGEST frame of lane `n` cut-through, before its EOF is checked: every header test passed, so that
lane, index and class are known at SOF, with the bytes that came (R106). A hit is late against the horizon as it stands when it arrives
(R247). -/
def impulseTap (s : State) (n : Nat) (f : RxFrame) : State :=
  let idx := frField f 8 8
  if impulseOn s (idx / 2 ^ 21) then
    let s := (List.range 8).foldl horizonAdvance s
    let data := (frData f).toArray
    let s := (List.range 4).foldl (fun s j =>
      tapSignal s (4 * n + j) idx ((List.range (min 4096 ((data.size + 3 - j) / 4))).map fun o =>
        (data.getD (4 * o + j) 0).toInt)) s
    (List.range 8).foldl horizonAdvance s
  else s

/-- A hit that INGEST frame `idx` of lane `n` supplied is marked. -/
def hitSpoil (n idx : Nat) (h : Hit) : Hit := { h with bad := h.bad || (h.signal / 4 == n && h.source == idx) }

/-- The INGEST frame of lane `n` with SAMPLE_INDEX `idx` is discarded under R81 or R82 after the tap took it: one RETRACT
record for each fired set it supplied a hit of; its hits in sets yet to fire are marked (R249; log entry 62). -/
def retract (s : State) (n idx : Nat) : State :=
  let of (r : Fired) : Bool := r.sources.any fun p => p.1 / 4 == n && p.2 == idx
  (s.trg.fired.filter of).foldl (fun s r => retractRecord s r.channel r.index) (setTrg s fun t => { t with
    fired := t.fired.filter fun r => !of r
    groups := t.groups.map fun e => (e.1, { e.2 with
      waiting := e.2.waiting.map (hitSpoil n idx), recent := e.2.recent.map (hitSpoil n idx) }) })

/-! ## Beam search (R250 to R252) -/

/-- The square root, rounded down. -/
def isqrt (n : Nat) : Nat := n.sqrt

/-- The best passing boxcar of a history: SNR, the low 32 bits of the quotient, and w (R251). A quotient whose divisor is 0 has
no stated value: `undef w`. -/
def bestBoxcar (undef : Nat → Nat) (widths thr : Nat) (b : BeamSearch) : Option (Nat × Nat) :=
  (List.range 9).foldl (fun best w =>
    if ¬ bitOf widths w ∨ b.hist.length < 2 ^ w ∨ ¬ b.ready then best
    else
      let d := ((b.hist.take (2 ^ w)).sum : Int) * 256 - b.mu * 2 ^ w
      let var := b.var.toNat * 2 ^ w
      if 0 < d ∧ (thr * thr * var : Nat) < d * d * 65536 then
        let root := isqrt var
        let snr := if root = 0 then undef w else d.toNat * 65536 / root % 2 ^ 32
        if best.all (·.1 < snr) then some (snr, w) else best
      else best) none

/-- One spectrum of a searched channel with power `p`; `x` numbers the spectrum (256 × frame + spectrum). The candidate
that closes, if one does (R251, R252). -/
def beamStep (undef : Nat → Nat) (widths thr ss holdoff : Nat) (x p : Nat) (b : BeamSearch) : BeamSearch × Option Candidate :=
  let b := { b with hist := (p :: b.hist).take 256 }
  let best := bestBoxcar undef widths thr b
  let b := if best.isNone ∧ b.candidate.isNone then
      let dev := (p : Int) * 256 - b.mu
      let updates := b.updates + 1
      { b with
        mu := b.mu + rhu dev ss
        var := b.var + rhu (dev * dev - b.var) ss
        updates
        ready := b.ready || updates == 2 ^ ss }
    else b
  let next : Option Candidate := match b.candidate, best with
    | none, some (snr, w) => if b.hold ≤ x then some ⟨snr, w, x, 1, 0⟩ else none
    | none, none => none
    | some c, some (snr, w) =>
      some (if c.snr < snr then ⟨snr, w, x, c.spectra + 1, 0⟩ else { c with spectra := c.spectra + 1, since := 0 })
    | some c, none => some { c with spectra := c.spectra + 1, since := c.since + 1 }
  match next with
  | some c =>
    if max 16 (2 ^ c.w) ≤ c.since ∨ 1024 ≤ c.spectra then ({ b with candidate := none, hold := x + holdoff }, some c)
    else ({ b with candidate := some c }, none)
  | none => ({ b with candidate := none }, none)

/-- A spectrum that the search leaves out: the history is cleared, the statistics stand, and an open candidate sees no
pass (R250). -/
def beamSkip (holdoff x : Nat) (b : BeamSearch) : BeamSearch × Option Candidate :=
  match b.candidate with
  | some c =>
    let c := { c with spectra := c.spectra + 1, since := c.since + 1 }
    if max 16 (2 ^ c.w) ≤ c.since ∨ 1024 ≤ c.spectra then
      ({ b with hist := [], candidate := none, hold := x + holdoff }, some c)
    else ({ b with hist := [], candidate := some c }, none)
  | none => ({ b with hist := [] }, none)

/-- The frame's beam record has EXCLUDED (R236): as recorded, or as known so far where the record is not written yet. -/
def excludedKnown (s : State) (f : Nat) : Bool :=
  f ∈ s.bfm.excluded ||
    (s.xr.lastFixed.all (· < f) &&
      let past := match s.bfm.lastPoint with
        | some x => if x / 256 = f then x % 256 + 1 else if f < x / 256 then 256 else 0
        | none => 0
      (List.range (domainSignals s)).any fun p => beamCount s f p < past)

/-- A candidate of channel (β, g) closes and fires (R252). -/
def beamFire (s : State) (beta g : Nat) (c : Candidate) : State :=
  fireTrigger (bump s R.TRG_BEAM_FIRE_COUNT)
    { kind := 2
      channel := 64 + 16 * beta + g
      index := (c.last + 1 - 2 ^ c.w) * 8192
      snr := c.snr
      width := 2 ^ c.w
      detail := c.w
      hits := beta + g * 256 + c.spectra * 65536
      act := trgF s F.TRG_BEAM_ACT_ACTION
      excluded := excludedKnown s (c.last / 256) }

/-- The beam search covers beam β (R250). -/
def beamSearched (s : State) (beta : Nat) : Bool :=
  trgOn s && trgF s F.TRG_CTRL_BEAM_EN == 1 && (chainPos s).1 == (chainPos s).2 && beamMode s beta != 0 &&
    trgF s ⟨R.TRG_BEAM_EN (beta / 32), beta % 32, beta % 32⟩ == 1

/-- P of channel group `g` of a beam in a spectrum (R251). -/
def beamPower (vs : Array (Int × Int)) (beta g : Nat) : Nat :=
  ((List.range 4).map fun i =>
    let v := vs.getD (256 * (4 * g + i) + beta) (0, 0)
    (v.1 * v.1 + v.2 * v.2).toNat).sum

/-- The beam search takes spectrum `n` of frame `f`; `skip` where the frame is in calibration mode (R250 to R252). -/
def beamSearchAt (s : State) (f n : Nat) (skip : Bool) : State :=
  let x := 256 * f + n
  let s := seedBeams s x
  let vs := (s.bfm.final.get [] x).toArray
  let gap := s.bfm.gap.get 0 x
  let holdoff := trgF s F.TRG_BEAM_ACT_HOLDOFF
  let ss := min 24 (max 8 (trgF s F.TRG_BEAM_CFG_SIGMA_SHIFT))
  (List.range 4096).foldl (fun s k =>
    let beta := k / 16
    let g := k % 16
    if beamSearched s beta then
      let b := s.trg.beams.get {} k
      let undef := fun w => (Config.freeValue (s.free + w)).toNat % 2 ^ 32
      let s := if b.ready ∧ b.var.toNat = 0 then { s with free := s.free + 9 } else s
      let (b, fired) := if skip || bitOf gap (g / 2) || !domOn s (beamDomain beta) then beamSkip holdoff x b
        else beamStep undef (trgF s F.TRG_BEAM_CFG_WIDTHS) (trgF s F.TRG_BEAM_CFG_THRESH) ss holdoff x (beamPower vs beta g) b
      let s := setTrg s fun t => { t with beams := t.beams.put k b }
      match fired with
      | some c => beamFire s beta g c
      | none => s
    else s) s

/-! ## The raw ring writer (R258, R259) -/

/-- The raw ring writer works on frame `f`. -/
def rawOn (s : State) (f : Nat) : Bool :=
  trgOn s && s.arch.running && s.arch.startFrame ≤ f && s.arch.stopFrame.all (f < ·) && regionSize s 0 != 0

/-- At frame `f`, a multiple of 6, the writer takes a segment: the one claimed for it, or the next in rotation that is
neither FROZEN nor PENDING. With RAW_EN clear it stops here (R258). -/
def segmentStart (s : State) (f : Nat) : State :=
  let stop := setTrg s fun t => { t with current := none }
  if trgF s F.TRG_CTRL_RAW_EN = 0 then stop
  else
    match ((List.range 96).find? fun k => s.trg.claimed.find k == some f) <|> (rotation s).head? with
    | none => stop
    | some k =>
      let pending := flag s (F.TRG_SEG_PENDING k)
      let refs := getF s (F.TRG_SEG_REFS k)
      let s := setR s (R.TRG_SEG k) 0
      let s := setF (setF (setF s (F.TRG_SEG_STATE k) 1) (F.TRG_SEG_PENDING k) (ofBool pending)) (F.TRG_SEG_REFS k) refs
      let s := setF (setF s (F.TRG_SEG_FRAME k) (f % 2 ^ 18)) F.TRG_RAW_STATE_SEGMENT k
      setTrg s fun t => { t with
        current := some k
        segFirst := t.segFirst.put k f
        claimed := t.claimed.drop (· == k) }

/-- The segment that frame `f` belongs to, while it is being written. -/
def segOfFrame (s : State) (f : Nat) : Option Nat :=
  (List.range 96).find? fun k => s.trg.segFirst.find k == some (f / 6 * 6) && segState s k == 1

/-- The segment's last frame is written: FROZEN if PENDING, else WRITTEN (R259). -/
def segmentDone (s : State) (k : Nat) : State :=
  let s := if flag s (F.TRG_SEG_PENDING k) then setF (setF s (F.TRG_SEG_STATE k) 3) (F.TRG_SEG_PENDING k) 0
    else setF s (F.TRG_SEG_STATE k) 2
  captureChecks s

/-- A frame's RAW_GAP (R258). -/
def rawGap (s : State) (k f : Nat) : State :=
  let s := setF (bump s R.TRG_RAW_GAP_COUNT) F.TRG_STATUS_RAW_GAP 1
  rawShow (setF s (F.TRG_SEG_RAW_GAP k) (getF s (F.TRG_SEG_RAW_GAP k) ||| 2 ^ (f % 6)))

/-- Address of a frame's entry in the segment validity window. -/
def validEntry (k f : Nat) : Nat := 0xC10000 + 8 * (6 * k + f % 6)

/-- The samples of signal `i` in frame `f` at the read point; zeros for a frame R29 suppressed (R106, R264). -/
def rawSamples (s : State) (f i : Nat) : List Byte :=
  (List.range (2 ^ 21)).map fun t => if jumpedOver s f then 0 else BitVec.ofInt 8 (readPoint s i f t).1

/-- The write of frame `f` into segment `k` is one that the guard lets pass and that meets usable memory (R302, R316). -/
def rawWritable (s : State) (k f : Nat) : Bool :=
  dramUsable s && guardOk s 0 (rawAddr s k (f % 6) 0 0) (64 * 2 ^ 21) true

/-- The signals of frame `f` named by `sigs` are stored in segment `k` (R257, R258). -/
def rawStore (s : State) (k f : Nat) (sigs : Nat → Bool) : State :=
  (List.range 64).foldl (fun s i =>
    if sigs i then unitWrite s 0 (rawAddr s k (f % 6) i 0) (rawSamples s f i) else s) s

/-- Frame `f` is written to its segment (R257, R258). A frame whose write is not performed has RAW_GAP; one that the guard
refuses is reported (R302). -/
def rawWrite (s : State) (f : Nat) : State :=
  match segOfFrame s f with
  | none => s
  | some k =>
    if rawWritable s k f then rawStore s k f fun _ => true
    else rawGap (if dramUsable s then guardReport s 0 (rawAddr s k (f % 6) 0 0) else s) k f

/-- Frame `f` is the last of its segment. -/
def lastOfSegment (s : State) (f : Nat) : Bool := f % 6 == 5 || s.arch.stopFrame.any (· == f + 1)

/-- The writer is done with frame `f`, written or abandoned. -/
def rawEnd (s : State) (f : Nat) : State :=
  let s := setTrg s fun t => { t with rawDue := t.rawDue.erase f }
  match segOfFrame s f with
  | some k => if lastOfSegment s f then segmentDone s k else s
  | none => s

/-- The frames up to `f` whose writes wait are written (R258). -/
def rawCommit (s : State) (f : Nat) : State :=
  (s.trg.rawDue.filter (· ≤ f)).mergeSort.foldl (fun s g => rawEnd (rawWrite s g) g) s

/-- At its ingest close, or when it is jumped over, frame `f` is due to be written; its validity bits go to the window
(R258, R264). -/
def rawQueue (s : State) (f valid : Nat) : State :=
  match segOfFrame s f with
  | some k => setTrg (setPair s (validEntry k f) valid) fun t => { t with rawDue := t.rawDue ++ [f] }
  | none => s

/-! ## Enable (R246, R251, R259, R460) -/

/-- The trigger statistics and boxcar histories as they are at EN (R246, R251). -/
def clearStatistics (s : State) : State :=
  let s := (List.range 64).foldl (fun s i => setF (setR s (R.TRG_IMP_NOISE i) 0) (F.TRG_IMP_READY i) 0) s
  setTrg s fun t => { t with
    beams := []
    impulses := t.impulses.map fun e => (e.1, { e.2 with updates := 0, lastHit := none, inRun := false }) }

/-- EN of `TRG_CTRL`. Set: statistics and SEQ start afresh, and every segment that no capture holds is FREE (R246, R251,
R254, R259). -/
def setTrgEnable (s : State) (en : Bool) : State :=
  let was := flag s F.TRG_CTRL_EN
  let s := setF s F.TRG_CTRL_EN (ofBool en)
  if en ∧ ¬ was then
    let s := clearStatistics s
    let free := (List.range 96).filter fun k => getF s (F.TRG_SEG_REFS k) == 0
    let s := free.foldl (fun s k => setR s (R.TRG_SEG k) 0) s
    let s := setTrg s fun t => { t with
      seq := 0, groups := [], fired := [], current := none, rawDue := []
      segFirst := t.segFirst.drop (fun k => decide (k ∈ free)) }
    setF s F.TRG_STATUS_RUNNING 1
  else if ¬ en ∧ was then setTrg (setF s F.TRG_STATUS_RUNNING 0) fun t => { t with old := [] }
  else s

/-- A STOP: from tick FS on, a PENDING segment claimed for a block at or after FS will not be written; it is unclaimed,
and its captures get PARTIAL (R25). -/
def unclaimFrom (s : State) (fs : Nat) : State :=
  let gone := ((List.range 96).filter fun k => (s.trg.claimed.find k).any (fs ≤ ·))
  let s := gone.foldl (fun s k =>
    let caps := (List.range 16).filter fun c => k ∈ s.trg.captureSegs.get [] c
    let s := caps.foldl (fun s c => setF s (F.TRG_CAPTURE_PARTIAL c) 1) s
    let s := setF (setF s (F.TRG_SEG_PENDING k) 0) (F.TRG_SEG_REFS k) 0
    setTrg s fun t => { t with
      claimed := t.claimed.drop (· == k)
      captureSegs := t.captureSegs.map fun e => (e.1, e.2.erase k) }) s
  if gone = [] then s else captureChecks s

/-- PD_24 off: all segment, capture and hold state is lost, and every held slot is released (R264). -/
def trgLost (s : State) : State :=
  let s := (List.range 4).foldl (fun s k => if flag s (F.XR_SLOT_HELD k) then holdEnd s k else s) s
  let s := (List.range 96).foldl (fun s k => setR s (R.TRG_SEG k) 0) s
  let s := { s with regs := s.regs.drop fun a =>
    (0xC10000 ≤ a && a < 0xC10000 + 8 * 576) || (List.range 16).any fun c => R.TRG_CAPTURE c ≤ a && a < R.TRG_CAPTURE c + 20 }
  rawShow { s with trg := {} }

/-! ## The commands -/

/-- IMPULSE_HORIZON_ADVANCE: the counter has come to `at'` (R247, R248). -/
def execImpulseHorizonAdvance (k : Fin 8) (at' : Nat) (s : State) : Res :=
  run (fun s => if trgOn s ∧ trgF s F.TRG_CTRL_IMP_EN = 1 then horizonAdvance (advanceTo s at') k else s) s

/-- A write of `TRG_INJECT` (R254). -/
def injectWrite (s : State) (v : Word) : State :=
  if v.getLsbD 31 ∧ trgOn s then
    fireTrigger s { kind := 3, channel := bitsOf v.toNat 28 16, index := getPair s R.TRG_INJECT_INDEX_LO
                    act := bitsOf v.toNat 4 0 }
  else s

/-- TRIGGER_INJECT: GO with a channel and actions (R254, R461). -/
def execTriggerInject (channel : BitVec 13) (action : BitVec 5) (s : State) : Res :=
  run (fun s =>
    let v : Word := BitVec.ofNat 32 (2 ^ 31 + channel.toNat * 65536 + action.toNat)
    mirrored s false R.TRG_INJECT (wordBytes v) (injectWrite · v)) s

/-- RAW_SEGMENT_START: at a frame with f mod 6 = 0, from F0 on (R258). -/
def execRawSegmentStart (s : State) : Res :=
  run (fun s =>
    let f := frameOf s / 6 * 6
    let due := s.trg.current.all fun k => (s.trg.segFirst.get 0 k) < f
    if rawOn s f ∧ due ∧ (frameOf s = f ∨ (List.range' f (frameOf s - f)).all (jumpedOver s)) then segmentStart s f
    else s) s

/-- RAW_WRITE_DEADLINE: the write of a frame misses tick f + 2: abandoned, the signals named had been written (R258). -/
def execRawWriteDeadline (f : Nat) (written : BitVec 64) (s : State) : Res :=
  run (fun s =>
    if f ∈ s.trg.rawDue then
      match segOfFrame s f with
      | some k =>
        let s := if rawWritable s k f then rawStore s k f fun i => written.getLsbD i else s
        rawEnd (rawGap s k f) f
      | none => s
    else s) s

/-- SEGMENT_WRITE_COMPLETE: the last frame of segment `k` is written (R259). -/
def execSegmentWriteComplete (k : Fin 96) (s : State) : Res :=
  run (fun s =>
    match s.trg.segFirst.find k with
    | some b => if s.trg.rawDue.any fun f => f / 6 * 6 == b && lastOfSegment s f then rawCommit s (b + 5) else s
    | none => s) s

/-- CAPTURE_RELEASE_WRITE (R262). -/
def captureReleases (s : State) (bits : Nat) : State :=
  if domOn s 24 then (List.range 16).foldl (fun s c => if bitOf bits c then captureRelease s c else s) s else s

/-- CAPTURE_RELEASE_WRITE. -/
def execCaptureReleaseWrite (bits : BitVec 16) (s : State) : Res := run (captureReleases · bits.toNat) s

/-- CAPTURE_TIMEOUT: `TRG_TIMEOUT` after COMPLETE (R262). -/
def execCaptureTimeout (c : Fin 16) (s : State) : Res :=
  run (fun s =>
    if getF s (F.TRG_CAPTURE_STATE c) = 2 ∧ trgF s F.TRG_TIMEOUT_SECONDS ≠ 0 ∧ domOn s 24 then
      captureRelease (setF s (F.TRG_CAPTURE_EXPIRED c) 1) c
    else s) s

/-- The hold of slot `k` belongs to no capture. -/
def holdAlone (s : State) (k : Nat) : Bool := flag s (F.XR_SLOT_HELD k) && s.trg.holds.get [] k == []

/-- RELEASE of `TRG_HOLD_CFG` (R263). -/
def holdReleases (s : State) (bits : Nat) : State :=
  if domOn s 24 then (List.range 4).foldl (fun s k => if bitOf bits k ∧ holdAlone s k then holdEnd s k else s) s else s

/-- HOLD_RELEASE_WRITE. -/
def execHoldReleaseWrite (slots : BitVec 4) (s : State) : Res := run (holdReleases · slots.toNat) s

/-- HOLD_TIMEOUT (R263). -/
def execHoldTimeout (k : Fin 4) (s : State) : Res :=
  run (fun s =>
    if holdAlone s k ∧ trgF s F.TRG_TIMEOUT_SECONDS ≠ 0 ∧ domOn s 24 then holdEnd s k else s) s

end Sys2Proof.Machine
end

