-- ==== Sys2Proof/Machine/Dma.lean ====
section
/-! DEFINITION. The descriptor rings and DMA engines up to the moving of data: rings, doorbells, descriptors, stops, and
the capture read (R359 to R370). -/

namespace Sys2Proof.Machine

/-- Ring `n`. -/
def dmaRing (s : State) (n : Nat) : DmaRing := s.dma.get {} n

/-- Change ring `n`. -/
def setRing (s : State) (n : Nat) (f : DmaRing → DmaRing) : State := { s with dma := s.dma.put n (f (dmaRing s n)) }

/-- STATE of ring `n`: 0 DISABLED, 1 IDLE, 2 RUNNING, 3 STOPPED (R362). -/
def ringState (s : State) (n : Nat) : Nat := getF s (F.DMA_RING_STATUS_STATE n)

/-- Set it. -/
def setRingState (s : State) (n st : Nat) : State := setF s (F.DMA_RING_STATUS_STATE n) st

/-- Descriptors in ring `n` (R362). -/
def ringSize (s : State) (n : Nat) : Nat := 2 ^ max 1 (getF s (F.DMA_RING_CTRL_SIZE_LOG n))

/-- Host address of descriptor `i` of ring `n`. -/
def descHostAddr (s : State) (n i : Nat) : Nat := getPair s (R.DMA_RING_BASE_LO n) / 64 * 64 + 64 * i

/-- HEAD of ring `n`. -/
def ringHead (s : State) (n : Nat) : Nat := getR s (R.DMA_RING_HEAD n)

/-! ## Descriptors (R360, R361) -/

/-- KIND: 0 device to host, 1 host to device, 2 register write, 3 device to host through the compressor. -/
def DmaDesc.kind (d : DmaDesc) : Nat := leAt d.bytes 39 1

/-- HOST_ADDR, DEV_ADDR, LEN0, CTRL and USER. -/
def DmaDesc.host (d : DmaDesc) : Nat := leAt d.bytes 0 8
def DmaDesc.dev (d : DmaDesc) : Nat := leAt d.bytes 8 8
def DmaDesc.len0 (d : DmaDesc) : Nat := leAt d.bytes 16 4
def DmaDesc.ctrl (d : DmaDesc) : Nat := leAt d.bytes 40 4
def DmaDesc.user (d : DmaDesc) : Nat := leAt d.bytes 44 4

/-- Bits of CTRL. -/
def DmaDesc.isEnd (d : DmaDesc) : Bool := bitOf d.ctrl 0
def DmaDesc.barrier (d : DmaDesc) : Bool := bitOf d.ctrl 1
def DmaDesc.irq (d : DmaDesc) : Bool := bitOf d.ctrl 2
def DmaDesc.status (d : DmaDesc) : Bool := bitOf d.ctrl 3

/-- A bad descriptor (R360). -/
def DmaDesc.bad (d : DmaDesc) : Bool :=
  let wrap := leAt d.bytes 38 1
  32 ≤ d.ctrl || leAt d.bytes 48 16 != 0 || 4 ≤ d.kind || d.len0 == 0 || (1 ≤ wrap && wrap ≤ 11) || 39 < wrap ||
    (d.kind == 2 && leAt d.bytes 20 19 != 0)

/-- Device addresses at which the runs begin, before wrapping, in the order of the three loops (R361). -/
def DmaDesc.runs (d : DmaDesc) : List Int :=
  let n (o : Nat) : List Nat := List.range (leAt d.bytes o 2 + 1)
  let st (o : Nat) : Int := toSigned 32 (leAt d.bytes o 4)
  (n 36).flatMap fun i3 => (n 34).flatMap fun i2 => (n 32).map fun i1 =>
    (d.dev : Int) + i3 * st 28 + i2 * st 24 + i1 * st 20

/-- Device address of a byte: modulo 2^64, wrapped inside the region of 2^WRAP_LOG bytes that holds DEV_ADDR (R361). -/
def DmaDesc.wrap (d : DmaDesc) (x : Int) : Nat :=
  let a := (x % 2 ^ 64).toNat
  let w := leAt d.bytes 38 1
  if w = 0 then a else d.dev / 2 ^ w * 2 ^ w + a % 2 ^ w

/-- Device addresses of all bytes, in the order of the host side (R361). -/
def DmaDesc.addrs (d : DmaDesc) : List Nat :=
  d.runs.flatMap fun r => (List.range d.len0).map fun (b : Nat) => d.wrap (r + b)

/-- The 64-byte lines of a list of addresses that hold an uncorrectable error (R367). -/
def badLines (s : State) (as : List Nat) : List Nat := ((as.filter fun a => dramBad s a 1).map (· / 64)).eraseDups

/-- The bytes a descriptor reads: zeros in a line with an uncorrectable error (R367). -/
def descRead (s : State) (as : List Nat) : List Byte :=
  let bad := badLines s as
  as.map fun a => if a / 64 ∈ bad then 0 else readByte s.dram a

/-- The domain of a KIND 2 target that lies in an array, PD_0 for a register (R445). -/
def kind2Domain (d : DmaDesc) : Nat :=
  match arrayAt (d.dev % 2 ^ 26 / 4 * 4) with
  | some (_, dom, _) => dom
  | none => 0

/-- A domain a descriptor needs is not ON (R368, R448). -/
def descDomainOff (s : State) (d : DmaDesc) : Bool :=
  if d.kind = 2 then !domOn s (kind2Domain d)
  else !domOn s 25 || (getF s F.MEM_CONFIG_CHANNELS != 4 && !domOn s 26) || (d.kind == 3 && !domOn s 28)

/-- The guard or the memory refuses an access of a descriptor (R302). -/
def descRefused (s : State) (d : DmaDesc) : Bool :=
  d.kind != 2 && (!dramUsable s || d.addrs.any fun a => !guardOk s 9 a 1 (d.kind == 1))

/-- What the guard refused is reported (R302). -/
def descGuard (s : State) (d : DmaDesc) : State :=
  match if dramUsable s then d.addrs.find? fun a => !guardOk s 9 a 1 (d.kind == 1) else none with
  | some a => guardReport s 9 a
  | none => s

/-! ## Stops (R355, R368, R369) -/

/-- Ring `n` has a descriptor in execution on engine `e`. -/
def ringMoves (s : State) (e n : Nat) : Bool :=
  ringState s n == 2 && (dmaRing s n).begun && (dmaRing s n).descs != [] && getF s (F.DMA_RING_CTRL_ENGINE n) == e

/-- A descriptor of ring `n` has begun or ended. Its engine is busy while any of its rings has one in execution, and serves them
round robin: the ring being served keeps its turn, and after it comes the next that moves data. The end of a turn after 1 MiB
sets only when bytes move, and is left out (R363, R370; log entry 52). -/
def setEngine (s : State) (n : Nat) : State :=
  let e := getF s (F.DMA_RING_CTRL_ENGINE n)
  let moving := (s.dma.map (·.1)).filter (ringMoves s e)
  let turn := getF s (F.DMA_ENGINE_RING e)
  let s := setF s (F.DMA_ENGINE_BUSY e) (ofBool (moving != []))
  if turn ∈ moving then s
  else match (moving.find? (turn < ·)) <|> moving.head? with
    | some m => setF s (F.DMA_ENGINE_RING e) m
    | none => s

/-- The compressor has no capsule in progress any more, unless a ring's stands; a FLUSH_PER_RUN that waited for that is set
(R426, R438). -/
def compressorIdle (s : State) : State :=
  if s.cmp.current.isSome then s
  else
    let t := setF s F.CMP_STATUS_BUSY 0
    if s.cmp.flushDue then setF { t with cmp := { t.cmp with flushDue := false } } F.CMP_CTRL_FLUSH_PER_RUN 1 else t

/-- The supervisor sets FLUSH_PER_RUN; while a capsule is in progress `CMP_CTRL` takes no write, and it waits for the end
(R426, R438). -/
def flushPerRun (s : State) : State :=
  if flag s F.CMP_STATUS_BUSY then { s with cmp := { s.cmp with flushDue := true } } else setF s F.CMP_CTRL_FLUSH_PER_RUN 1

/-- A CAPTURE_READ whose last descriptor is index `i` of ring `n` ends (R359). -/
def captureReadEnd (s : State) (n : Nat) (i : Option Nat) (status : Nat) : State :=
  match s.mail.captureRead.find? fun (r, j, _) => r == n && i.all (· == j) with
  | some (r, j, tag) =>
    notice { s with mail := { s.mail with
      captureRead := s.mail.captureRead.erase (r, j, tag), captureRest := s.mail.captureRest.drop (· == n) } } 0xB tag status
  | none => s

/-- Ring `n` stops with a code: the descriptor in execution is abandoned and HEAD names it (R368). -/
def ringHalt (s : State) (n code : Nat) : State :=
  let s := match (dmaRing s n).descs with
    | d :: _ => setR s (R.DMA_RING_HEAD n) d.index
    | [] => s
  let s := setEngine (setRing s n fun r => { r with
    pending := false, fetching := false, refetch := 0, descs := [], begun := false }) n
  let s := { s with cmp := { s.cmp with
    queue := s.cmp.queue.filter (· != n)
    current := s.cmp.current.filter (·.1 != n) } }
  let s := compressorIdle s
  let s := bump (setF (setRingState s n 3) (F.DMA_RING_STATUS_CODE n) code) R.DMA_DATA_ERR_COUNT
  let s := if code = 2 ∨ code = 3 then setF s F.DMA_STATUS_DATA_ERR 1
    else if code = 4 then setF s F.DMA_STATUS_DOMAIN_OFF 1 else s
  captureReadEnd s n none stFailed

/-- A DMA stop is reported: vector 2,046, event 29, fault bit 15 (R355, R378, R467). -/
def dmaStopReport (s : State) : State := fault (raise (msix s 2046) 29) 15

/-- Ring `n` stops for an error of its own; `kind` is the kind of `DMA_ERR_INFO`, where it has one (R368, R370). -/
def ringStop (s : State) (n code : Nat) (kind : Option Nat) : State :=
  let s := ringHalt s n code
  let s := match kind with
    | some k => setF (setF s F.DMA_ERR_INFO_KIND k) F.DMA_ERR_INFO_RING n
    | none => s
  dmaStopReport s

/-! ## Fetching and beginning (R363, R364) -/

/-- The prefetch unit fetches the ring's next descriptor, unless the last one fetched ends the list, four stand ahead of
the one in execution, or FETCH_STOP is set (R363, R369). -/
def fetchNext (s : State) (n : Nat) : State :=
  let r := dmaRing s n
  if r.fetching ∨ 5 ≤ r.descs.length ∨ (r.descs.getLast?.any (·.isEnd)) = true ∨ flag s F.DMA_STATUS_FETCH_STOP ∨
      domOn s 27 = false then s
  else emit (setRing s n fun r => { r with fetching := true, pending := false })
    (.hostRead (descHostAddr s n (ringHead s n)) 64)

/-- The ring runs and fetches from HEAD. -/
def startFetch (s : State) (n : Nat) : State := fetchNext (setRingState s n 2) n

/-- The CTRL and USER words of the anchor are read again (R364). -/
def refetchCtrl (s : State) (n : Nat) : State :=
  let a := descHostAddr s n (getF s (F.DMA_RING_STATUS_ANCHOR n)) + 40
  emit (setRing s n fun r => { r with refetch := r.refetch + 1 }) (.hostRead a 8)

/-- A doorbell of ring `n` (R364). -/
def doorbell (s : State) (n : Nat) : State :=
  if domOn s 27 = false then s
  else
    let st := ringState s n
    if st = 1 then
      if flag s F.DMA_STATUS_FETCH_STOP then s
      else if flag s (F.DMA_RING_STATUS_ANCHOR_VALID n) then refetchCtrl s n
      else startFetch s n
    else if st = 2 then setRing s n fun r => { r with pending := true }
    else bump s R.DMA_DOORBELL_NOP_COUNT

/-- The compressor takes the KIND 3 descriptor of ring `n`; THROTTLE caps the level at 3 (R419, R420, R438, R456). -/
def compressorTake (s : State) (n : Nat) : State :=
  let level := max 1 (min 9 (getF s F.CMP_CTRL_LEVEL))
  let level := if flag s F.PWR_STATUS_THROTTLE then min 3 level else level
  let s := { s with cmp := { s.cmp with current := some (n, level), queue := s.cmp.queue.filter (· != n) } }
  setF (setF s F.CMP_STATUS_BUSY 1) F.CMP_STATUS_RING n

/-- The first descriptor of ring `n` begins, unless PD_27 takes no new work (R448, R450): a bad one, one whose domain is off or one that the guard refuses stops the
ring; one of KIND 3 waits for the compressor (R360, R363, R368, R419). -/
def descBegin (s : State) (n : Nat) : State :=
  match (dmaRing s n).descs with
  | [] => s
  | d :: _ =>
    if ¬ domOn s 27 then s
    else if d.bad then ringStop s n 1 none
    else if descDomainOff s d then ringStop s n 4 (some 6)
    else if descRefused s d then ringStop (descGuard s d) n 2 (some 5)
    else
      let s := setEngine (setRing s n fun r => { r with begun := true }) n
      let s := if d.kind = 2 then s else d.runs.foldl (fun s r => served s 9 (d.wrap r) d.len0) s
      if d.kind = 3 then
        if s.cmp.current.isNone ∧ s.cmp.queue = [] then compressorTake s n
        else { s with cmp := { s.cmp with queue := s.cmp.queue ++ [n] } }
      else s

/-- A descriptor arrives (R362, R363). -/
def descFetched (s : State) (n : Nat) (bytes : List Byte) : State :=
  let r := dmaRing s n
  if r.fetching = false ∨ ringState s n ≠ 2 ∨ domOn s 27 = false ∨ bytes.length ≠ 64 then s
  else
    let i := ringHead s n
    let s := setR s (R.DMA_RING_HEAD n) ((i + 1) % ringSize s n)
    let s := setRing s n fun r => { r with fetching := false, descs := r.descs ++ [⟨i, bytes⟩] }
    let s := if r.descs = [] then descBegin s n else s
    if ringState s n = 2 then fetchNext s n else s

/-- The message vector of ring `n`. -/
def ringVector (s : State) (n : Nat) : Nat := min 2045 (getF s (F.DMA_RING_CTRL_VECTOR n))

/-- The completion record (R365, R367). -/
def completionRecord (d : DmaDesc) (poisoned : Bool) (moved : Nat) : List Byte :=
  leBytes 4 d.user ++ leBytes 2 d.index ++ leBytes 1 (ofBool poisoned) ++ leBytes 1 (ofBool poisoned) ++ leBytes 8 moved

/-- The data writes of a descriptor carry Relaxed Ordering: RO_EN is set, the host permits it, and CTRL.RO asks for it
(R366). -/
def descRelaxed (s : State) (d : DmaDesc) : Bool := flag s F.DMA_CTRL_RO_EN && s.pcie.relaxedOrdering && bitOf d.ctrl 4

/-- Ring `n` has written host memory up to address `a` (R366). -/
def ringWrote (s : State) (n a : Nat) : State := setRing s n fun r => { r with written := some a }

/-- A barrier of ring `n`: a zero-length read to the last host address written confirms the writes of this descriptor and of
the ring's earlier ones (R366). -/
def barrierRead (s : State) (n : Nat) : State :=
  match (dmaRing s n).written with
  | some a => emit (setRing s n fun r => { r with written := none }) (.hostRead a 0)
  | none => s

/-- Poisoned lines of ring `n` count (R367). -/
def descPoison (s : State) (n poison : Nat) : State :=
  let s := bumpBy s (R.DMA_RING_POISON n) poison
  if 0 < poison then setF s F.DMA_STATUS_POISON 1 else s

/-- The descriptors of a capture read that ring `n` has slots for, one slot left free; where more are to come, the last of them
carries END (R362). -/
def capturePortion (s : State) (n : Nat) (ds : List (List Byte)) : List (List Byte) :=
  let now := ds.take (ringSize s n - 1)
  match ds.drop (ringSize s n - 1), now.getLast? with
  | _ :: _, some d => now.dropLast ++ [d.take 40 ++ leBytes 4 (leAt d 40 4 ||| 1) ++ d.drop 44]
  | _, _ => now

/-- Index of the last of them; 2^16, which no descriptor has, while more are to come. -/
def captureLast (s : State) (n : Nat) (ds : List (List Byte)) : Nat :=
  if ringSize s n - 1 < ds.length then 2 ^ 16 else (ringHead s n + ds.length - 1) % ringSize s n

/-- The supervisor appends to an anchored ring as the host does: it clears END on the old tail with one write of its bytes
40 to 47 (R364). -/
def tailOpened (s : State) (n : Nat) : State :=
  if flag s (F.DMA_RING_STATUS_ANCHOR_VALID n) then
    let t := (dmaRing s n).tail
    emit s (.hostWrite (descHostAddr s n (getF s (F.DMA_RING_STATUS_ANCHOR n)) + 40)
      (leBytes 4 (t.1 / 2 * 2) ++ leBytes 4 t.2) false)
  else s

/-- The supervisor writes descriptors of a capture read into ring `n` from HEAD, as many as it has slots for, and rings the
doorbell; the others wait until these are done (R359, R362, R364; log entry 57). -/
def captureAppend (s : State) (n : Nat) (ds : List (List Byte)) : State :=
  let rest := ds.drop (ringSize s n - 1)
  let t := (capturePortion s n ds).zipIdx.foldl (fun t (d, i) =>
    emit t (.hostWrite (descHostAddr s n ((ringHead s n + i) % ringSize s n)) d false)) s
  doorbell (tailOpened { t with mail := { t.mail with
    captureRest := if rest = [] then t.mail.captureRest.drop (· == n) else t.mail.captureRest.put n rest } } n) n

/-- Ring `n` has come to an END: the capture read that it serves goes on, if one does. -/
def captureMore (s : State) (n : Nat) : State :=
  match s.mail.captureRest.find n with
  | some ds =>
    let last := captureLast s n ds
    captureAppend { s with mail := { s.mail with captureRead := s.mail.captureRead.map fun (r, j, tag) =>
      (r, if r = n ∧ j = 2 ^ 16 then last else j, tag) } } n ds
  | none => s

/-- A descriptor has completed: a barrier's zero-length read, the record, the message, the count, and then END or the next
descriptor (R364 to R367). -/
def descDone (s : State) (n : Nat) (d : DmaDesc) (poison moved : Nat) : State :=
  let s := if d.barrier then barrierRead s n else s
  let s := descPoison s n poison
  let s := if d.status ∨ 0 < poison then
      let a := getPair s (R.DMA_RING_CPL_LO n) / 16 * 16 + 16 * d.index
      emit (ringWrote s n (a + 15)) (.hostWrite a (completionRecord d (0 < poison) moved) false)
    else s
  let s := if d.irq then raise (msix s (ringVector s n)) (64 + getF s (F.DMA_RING_CTRL_ENGINE n)) else s
  let s := setR s (R.DMA_RING_DONE n) ((getR s (R.DMA_RING_DONE n) + 1) % 2 ^ 32)
  let s := setEngine (setRing s n fun r => { r with descs := r.descs.drop 1, begun := false }) n
  let s := captureReadEnd s n (some d.index) stOk
  if d.isEnd then
    let s := setF (setF s (F.DMA_RING_STATUS_ANCHOR_VALID n) 1) (F.DMA_RING_STATUS_ANCHOR n) d.index
    let s := captureMore (setRing s n fun r => { r with tail := (d.ctrl, d.user) }) n
    if (dmaRing s n).pending then refetchCtrl (setRing s n fun r => { r with pending := false }) n
    else setRingState s n 1
  else
    let s := descBegin s n
    if ringState s n = 2 then fetchNext s n else s

/-- The refetched CTRL of the anchor comes (R364). -/
def ctrlRefetched (s : State) (n : Nat) (ctrl : Word) : State :=
  let r := dmaRing s n
  if r.refetch = 0 ∨ domOn s 27 = false then s
  else
    let s := setRing s n fun r => { r with refetch := r.refetch - 1 }
    if r.fetching ∨ r.descs ≠ [] ∨ 3 ≤ ringState s n ∨ ringState s n = 0 then s
    else if ctrl.getLsbD 0 then bump (setRingState s n 1) R.DMA_DOORBELL_NOP_COUNT
    else startFetch s n

/-- A descriptor fetch ends in error: every engine stops (R369). -/
def fetchError (s : State) (addr : Nat) : State :=
  if domOn s 27 = false then s
  else
    let s := (List.range 4096).foldl (fun s n => if ringState s n = 2 then ringHalt s n 5 else s) s
    let s := setPair (bump s R.DMA_FETCH_ERR_COUNT) R.DMA_ERR_ADDR_LO addr
    dmaStopReport (setF s F.DMA_STATUS_FETCH_STOP 1)

/-- FETCH_STOP has been cleared: a ring that came to RUNNING meanwhile, by a refetch issued before, fetches now (R369; log entry
57). -/
def fetchResume (s : State) : State :=
  (s.dma.map (·.1)).foldl (fun s n => if ringState s n = 2 then fetchNext s n else s) s

/-- A write of `DMA_RING_n_CTRL` (R362, R368 to R370): the other fields take a write only while EN is clear; EN going up
takes a DISABLED ring to IDLE, going down stops a RUNNING one with ABORTED; RESUME takes a STOPPED one to IDLE; what a later barrier has to confirm stays (R366). -/
def ringCtrlWrite (s : State) (n : Nat) (v : Word) : State :=
  let was := flag s (F.DMA_RING_CTRL_EN n)
  let now := v.getLsbD 31
  let old := (rd s (R.DMA_RING_CTRL n)).toNat
  let keep := if was then old else v.toNat
  let s := wr s (R.DMA_RING_CTRL n) (BitVec.ofNat 32
    (ofBool now * 2 ^ 31 + bitsOf keep 28 24 * 2 ^ 24 + bitsOf keep 18 8 * 2 ^ 8 + bitsOf keep 3 0))
  if domOn s 27 = false then s
  else
    let clear (s : State) (st : Nat) : State :=
      setF (setRing (setRingState s n st) n fun r => { written := r.written }) (F.DMA_RING_STATUS_ANCHOR_VALID n) 0
    let s := if now then
        let s := if was then s else setR s (R.DMA_RING_DONE n) 0
        if ringState s n = 0 then clear s 1 else s
      else if was then (if ringState s n = 2 then ringStop s n 6 none else clear s 0)
      else s
    if v.getLsbD 30 ∧ ringState s n = 3 ∧ flag s F.DMA_STATUS_FETCH_STOP = false then clear s (if now then 1 else 0) else s

/-- PERST_N or a Function Level Reset (R354): the endpoint, its configuration space, the engines and every DMA_ register; the ports of the host and
DMA masters are released (R377). -/
def hostReset (s : State) : State :=
  let dmaAddr (a : Nat) : Bool := (0x1200000 ≤ a && a < 0x1300000) || (0x7000 ≤ a && a < 0x7100) ||
    (0x8000 ≤ a && a < 0x10000)
  let s := { s with
    regs := s.regs.drop dmaAddr
    pairLow := s.pairLow.drop dmaAddr
    totals := s.totals.drop dmaAddr
    dma := []
    pcie := {}
    cmp := { s.cmp with queue := [], current := none } }
  let s := s.mail.captureRead.foldl (fun s e => captureReadEnd s e.1 none stFailed) s
  bumpBy (compressorIdle s) R.MTX_RESET_COUNT 2

/-! ## CAPTURE_READ (R359) -/

/-- The CTRL word of a descriptor is `ctrl`. -/
def withCtrl (bytes : List Byte) (ctrl : Nat) : List Byte := bytes.take 40 ++ leBytes 4 ctrl ++ bytes.drop 44

/-- DRAM addresses at which the frames of a capture begin, 128 MiB each, segment by segment (R257, R264). -/
def captureFrames (s : State) (cap : Nat) : List Nat :=
  let range := captureRange s cap
  (s.trg.captureSegs.get [] cap).flatMap fun k => (List.range 6).filterMap fun j =>
    let f := s.trg.segFirst.get 0 k + j
    if range.1 ≤ f ∧ f ≤ range.2 then some (rawAddr s k j 0 0) else none

/-- Bytes of a frame in a segment: 64 signals of 2 MiB. -/
abbrev frameBytes : Nat := 2 ^ 27

/-- The slot that a capture holds (R263). -/
def captureSlot (s : State) (cap : Nat) : Option Nat :=
  (List.range 4).find? fun k => decide (cap ∈ s.trg.holds.get [] k)

/-- An address lies in slot `slot` of the span store (R164). -/
def inSlot (s : State) (slot a : Nat) : Bool :=
  let size := getF s F.XR_SLOT_SIZE_MIB * 2 ^ 20
  let base := getPair s R.XR_SPAN_BASE_LO + slot * size
  base ≤ a && a < base + size

/-- Data descriptors are right for a capture: good ones of the right KIND, with each frame of a signal one run for the
compressor, that cover the capture's frames and else only the slot it holds (R264, R359, R428). -/
def capturePlanOk (s : State) (cap : Nat) (compress : Bool) (plan : List (List Byte)) : Bool :=
  let ds := plan.map (DmaDesc.mk 0)
  let as := ds.flatMap DmaDesc.addrs
  ds.all (fun d => d.bytes.length == 64 && !d.bad && d.kind == (if compress then 3 else 0) &&
      (!compress || d.len0 == 2 ^ 21)) &&
    (captureFrames s cap).all (fun r => (List.range frameBytes).all fun x => decide (r + x ∈ as)) &&
    as.all fun a => (captureFrames s cap).any (fun r => r ≤ a && a < r + frameBytes) || (captureSlot s cap).any (inSlot s · a)

/-- One descriptor a frame, a signal a run, the host side one frame after the other. -/
def capturePlain (s : State) (cap : Nat) (host : DWord) (compress : Bool) : List (List Byte) :=
  (captureFrames s cap).zipIdx.map fun (r, i) =>
    leBytes 8 (host.toNat + frameBytes * i) ++ leBytes 8 r ++ leBytes 4 (2 ^ 21) ++ leBytes 4 (2 ^ 21) ++ leBytes 8 0 ++
      leBytes 2 63 ++ leBytes 5 0 ++ leBytes 1 (if compress then 3 else 0) ++ leBytes 24 0

/-- The supervisor's data descriptors for a capture: what it builds is not fixed, but covers the capture (R359; log entry
1). -/
def capturePlan (s : State) (cap : Nat) (host : DWord) (compress : Bool) : List (List Byte) :=
  let range := captureRange s cap
  let plan := Config.captureReadPlan range.1 range.2 (getPair s R.TRG_RAW_BASE_LO) (s.trg.captureSegs.get [] cap)
    (captureSlot s cap) host compress
  if capturePlanOk s cap compress plan then plan else capturePlain s cap host compress

/-- The descriptors of a capture read: the supervisor's data descriptors, and with RELEASE a register write that releases
the capture; the last carries END, BARRIER and STATUS and no other END stands before it (R359). -/
def captureDescs (s : State) (cap : Nat) (host : DWord) (compress release : Bool) : List (List Byte) :=
  let data := (capturePlan s cap host compress).map fun d => withCtrl d (leAt d 40 4 &&& 0b11110)
  let all := if release then
      data ++ [leBytes 8 0 ++ leBytes 8 R.TRG_CAPTURE_RELEASE ++ leBytes 4 (2 ^ cap) ++ leBytes 19 0 ++ leBytes 1 2 ++
        leBytes 24 0]
    else data
  match all.getLast? with
  | some d => all.dropLast ++ [withCtrl d (leAt d 40 4 ||| 0b1011)]
  | none => []

/-- Ring `n` has no descriptor, no fetch and no doorbell outstanding. -/
def ringEmpty (s : State) (n : Nat) : Bool :=
  !(dmaRing s n).pending && !(dmaRing s n).fetching && (dmaRing s n).refetch == 0 && (dmaRing s n).descs == []

/-- The ring is IDLE with no descriptor outstanding. -/
def ringFree (s : State) (n : Nat) : Bool := ringState s n == 1 && ringEmpty s n

/-- CAPTURE_READ: `room` is the size of the host buffer, which must take the capture's frames, uncompressed (R359; DESIGN
CHOICE, log entry 57). -/
def captureRead (s : State) (src : CmdSource) (tag cap ring : Nat) (host : DWord) (room : Nat) (compress release : Bool) :
    State :=
  if ringFree s ring = false ∨ getF s (F.TRG_CAPTURE_STATE cap) = 0 ∨ domOn s 27 = false ∨
      room < frameBytes * (captureFrames s cap).length then
    respond s src 0xB tag stBadArgs 0 []
  else
    let s := acceptAsync s src 0xB tag
    let s := if compress then flushPerRun s else s
    let ds := captureDescs s cap host compress release
    let last := captureLast s ring ds
    captureAppend { s with mail := { s.mail with captureRead := s.mail.captureRead ++ [(ring, last, tag)] } } ring ds

/-! ## Configuration space (R350 to R352, R355) -/

/-- What a configuration read returns: the identity, the capabilities by their PCIe codes (Power Management 0x01, PCI Express
0x10, MSI-X 0x11; extended, AER 0x0001, Device Serial Number 0x0003), and what the host has written. -/
def pcieRead (s : State) : PcieField → List Nat
  | .vendorId => [0x1F9D]
  | .deviceId => [0x4096]
  | .revisionId => [0xA1]
  | .classCode => [0x118000]
  | .subsystemVendorId => [0x1F9D]
  | .subsystemId => [0]
  | .serialNumber => [deviceSerial]
  | .capabilities => [0x01, 0x10, 0x11, 0x0001, 0x0003]
  | .maxLinkSpeed => [32]
  | .maxLinkWidth => [16]
  | .maxPayload => [s.pcie.maxPayload]
  | .maxReadRequest => [s.pcie.maxReadRequest]
  | .relaxedOrdering => [ofBool s.pcie.relaxedOrdering]
  | .bar n => [if n = 0 then s.pcie.bars.1 else if n = 1 then s.pcie.bars.2.1 else s.pcie.bars.2.2]
  | .msixEnable => [ofBool s.pcie.msixEnable]
  | .functionMask => [ofBool s.pcie.functionMask]

/-- The bytes a BAR maps: BAR 0, BAR 2, BAR 4 (R352). -/
def barSize (n : Nat) : Nat := if n = 1 then 2 ^ 34 else 2 ^ 26

/-- BAR `n` as written: the address bits below its size read 0, and its type bits, 64-bit, and for BAR 2 prefetchable, stand
fixed (R352). -/
def barWord (n v : Nat) : Nat := v % 2 ^ 64 / barSize n * barSize n + (if n = 1 then 0xC else 0x4)

/-- A size in bytes that Device Control can hold, up to the endpoint's limit. -/
def sizeOk (v limit : Nat) : Bool := v ≤ limit && [128, 256, 512, 1024, 2048, 4096].contains v

/-- Pending messages go out once neither the function nor their vector is masked (R355). -/
def msixRelease (s : State) : State :=
  if domLive s 27 && s.pcie.msixEnable && !s.pcie.functionMask then
    (List.range 2048).foldl (fun s v =>
      if getB s (0x7000 + 4 * (v / 32)) (v % 32) && !getB s (0x8000 + 16 * v + 12) 0 then
        msixSend (setB s (0x7000 + 4 * (v / 32)) (v % 32) false) v
      else s) s
  else s

/-- The host writes a field of configuration space; one that is read only, or a size beyond the endpoint's limits, is left
(R351). -/
def pcieWrite (s : State) (f : PcieField) (v : Nat) : State :=
  let p := s.pcie
  match f with
  | .maxPayload => if sizeOk v 512 then { s with pcie := { p with maxPayload := v } } else s
  | .maxReadRequest => if sizeOk v 4096 then { s with pcie := { p with maxReadRequest := v } } else s
  | .relaxedOrdering => { s with pcie := { p with relaxedOrdering := v % 2 == 1 } }
  | .bar n =>
    let w := barWord n v
    { s with pcie := { p with bars :=
      if n = 0 then (w, p.bars.2) else if n = 1 then (p.bars.1, w, p.bars.2.2) else (p.bars.1, p.bars.2.1, w) } }
  | .msixEnable => msixRelease { s with pcie := { p with msixEnable := v % 2 == 1 } }
  | .functionMask => msixRelease { s with pcie := { p with functionMask := v % 2 == 1 } }
  | _ => s

/-! ## BAR 2 (R353) -/

/-- Data that a BAR 2 request did not get: all bytes 0xFF, counted (R353, R376). -/
def bar2Fail (s : State) : State := bump s R.DMA_BAR2_ERR_COUNT

/-- DRAM byte offset of BAR 2 offset `x`. -/
def bar2Addr (s : State) (x : Nat) : Nat := getF s F.DMA_BAR2_WINDOW_BASE_GIB * 2 ^ 30 + x

/-- A BAR 2 read of `n` bytes. -/
def bar2Read (s : State) (x n : Nat) : State :=
  match unitFetch s 10 (bar2Addr s x) n with
  | (t, some bs) => emit t (.memData x bs)
  | (t, none) =>
    emit (bar2Fail (busError t 6 0 (memErrKind s 10 (bar2Addr s x) n false) x false)) (.memData x (List.replicate n 0xFF))

/-- A BAR 2 write: bytes without a byte enable are left (R307, R353). -/
def bar2Write (s : State) (x : Nat) (bs : List (Option Byte)) : State :=
  let a := bar2Addr s x
  let es := bs.zipIdx.filterMap fun (b, i) => b.map fun v => (a + i, v)
  if dramUsable s = false then bar2Fail (busError s 6 0 2 x true)
  else if guardOk s 10 a bs.length true = false then bar2Fail (busError (guardReport s 10 a) 6 0 2 x true)
  else
    let t := scatterWrite (served s 10 a bs.length) 10 (es.map (·.1)) (es.map (·.2))
    if scatterHoles s (es.map (·.1)) = [] then t else bar2Fail (busError t 6 0 4 x true)

/-- BAR2_ACCESS, and the configuration requests that come to the same endpoint. -/
def execBar2Access (x : BitVec 34) (acc : Bar2Req) (s : State) : Res :=
  run (fun s =>
    if domOn s 27 = false then s
    else match acc with
      | .read n => bar2Read s x.toNat n
      | .write bs => bar2Write s x.toNat bs
      | .configRead f => emit s (.configData f (pcieRead s f))
      | .configWrite f v => pcieWrite s f v) s

/-! ## The commands of the rings -/

/-- DMA_DOORBELL (R364). -/
def execDmaDoorbell (ring : Fin 4096) (s : State) : Res := run (doorbell · ring) s

/-- DESCRIPTOR_FETCHED (R363). -/
def execDescriptorFetched (ring : Fin 4096) (bytes : List Byte) (s : State) : Res := run (descFetched · ring bytes) s

/-- CTRL_REFETCHED (R364). -/
def execCtrlRefetched (ring : Fin 4096) (ctrl : Word) (s : State) : Res := run (ctrlRefetched · ring ctrl) s

/-- FETCH_ERROR (R369). -/
def execFetchError (addr : DWord) (s : State) : Res := run (fetchError · addr.toNat) s

/-- DMA_RING_ENABLE (R362, R370). -/
def execDmaRingEnable (ring : Fin 4096) (engine : Fin 32) (vector : Fin 2048) (sizeLog : Fin 16) (s : State) : Res :=
  run (ringCtrlWrite · ring
    (BitVec.ofNat 32 (2 ^ 31 + engine.val * 2 ^ 24 + vector.val * 2 ^ 8 + sizeLog.val))) s

/-- DMA_RING_DISABLE (R368). -/
def execDmaRingDisable (ring : Fin 4096) (s : State) : Res := run (ringCtrlWrite · ring 0) s

/-- DMA_RING_RESUME: RESUME, with EN set (R369). -/
def execDmaRingResume (ring : Fin 4096) (s : State) : Res := run (ringCtrlWrite · ring 0xC0000000) s

/-- FETCH_STOP_CLEAR (R369). -/
def execFetchStopClear (s : State) : Res := run (fun s => fetchResume (setF s F.DMA_STATUS_FETCH_STOP 0)) s

/-- HOST_RESET (R354). -/
def execHostReset (s : State) : Res := run hostReset s

/-- CAPTURE_READ (R359). -/
def execCaptureRead (src : CmdSource) (tag : Word) (cap : Fin 16) (ring : Fin 4096) (host : HostBuffer)
    (compress release : Bool) (s : State) : Res :=
  run (fun s => serve s src 0xB tag.toNat []
    (captureRead · src tag.toNat cap ring host.addr host.room.toNat compress release)
    (some (cap.val, ring.val, host.addr, host.room.toNat, compress, release))) s

end Sys2Proof.Machine
end

