-- ==== Sys2Proof/Machine/Cmp.lean ====
section
/-! DEFINITION. The compressor's capsules and the decompressor's jobs (R419 to R428). -/

namespace Sys2Proof.Machine

/-! ## Capsules (R423 to R426) -/

/-- A capsule around a DEFLATE stream. -/
def capsule (level user : Nat) (flush poisoned : Bool) (input stream : List Byte) : List Byte × List Byte :=
  let h := leBytes 4 0x5043584C ++ leBytes 1 0x10 ++ leBytes 1 level ++ leBytes 1 (ofBool flush) ++ leBytes 1 0 ++
    leBytes 4 user
  let t := leBytes 4 0x5443584C ++ leBytes 1 (ofBool poisoned) ++ leBytes 3 0 ++ leBytes 8 input.length ++
    leBytes 8 stream.length ++ leBytes 4 (crc32c input).toNat
  (h ++ leBytes 4 (crc32c h).toNat ++ stream, t ++ leBytes 4 (crc32c t).toNat)

/-- The entries of a chain table as its bytes give them, 16 bytes each (R424). -/
def chainTable (table : List Byte) : List ChainEntry :=
  (List.range (table.length / 16)).map fun i =>
    ⟨BitVec.ofNat 64 (leAt table (16 * i) 8), BitVec.ofNat 32 (leAt table (16 * i + 8) 4), bitOf (leAt table (16 * i + 12) 4) 0⟩

/-- The buffers of a chain table: its entries up to LAST, at most 256, and whether a LAST was found (R424, R425). -/
def chainBuffers : Nat → List ChainEntry → List ChainEntry × Bool
  | 0, _ => ([], false)
  | _, [] => ([], false)
  | n + 1, e :: es =>
    if e.last then ([e], true)
    else
      let r := chainBuffers n es
      (e :: r.1, r.2)

/-- Bytes fill the buffers in table order; the address of the last byte written (R424). -/
def chainWrite (ro : Bool) : State → List ChainEntry → List Byte → State × Option Nat
  | s, [], _ => (s, none)
  | s, _, [] => (s, none)
  | s, e :: es, b :: bs =>
    let part := (b :: bs).take e.len.toNat
    let s := if part = [] then s else emit s (.hostWrite e.addr.toNat part ro)
    match chainWrite ro s es ((b :: bs).drop e.len.toNat) with
    | (s, some a) => (s, some a)
    | (s, none) => (s, if part = [] then none else some (e.addr.toNat + part.length - 1))

/-- The capsule of ring `n` ends: the engine has read the chain table at HOST_ADDR, entry by entry up to LAST, as `table`, and
the capsule goes to its buffers, with its trailer if it fits; one that does not fit counts its poisoned lines all the same (R367,
R423 to R426; log entry 57). -/
def capsuleComplete (s : State) (n : Nat) (table : List Byte) : State :=
  match s.cmp.current, (dmaRing s n).descs with
  | some (m, level), d :: _ =>
    if m ≠ n ∨ domLive s 28 = false ∨ ringState s n ≠ 2 then s
    else
      let as := d.addrs
      let bad := badLines s as
      let poison := bad.length
      let input := descRead s as
      let s := bad.foldl (fun s l => lineReport s 9 l) s
      let flush := flag s F.CMP_CTRL_FLUSH_PER_RUN
      let runs := if flush then d.runs.map fun _ => d.len0 else []
      let stream := deflateStream level (max 1 (getF s F.CMP_CTRL_BLOCK_KIB)) runs input
      let (body, trailer) := capsule level d.user flush (0 < poison) input stream
      let (bufs, ok) := chainBuffers 256 (chainTable table)
      let s := (List.range bufs.length).foldl (fun s i => emit s (.hostRead (d.host + 16 * i) 16)) s
      let room := (bufs.map (·.len.toNat)).sum
      let s := compressorIdle { s with cmp := { s.cmp with current := none } }
      if ok ∧ body.length + trailer.length ≤ room then
        let (s, last) := chainWrite (descRelaxed s d) s bufs (body ++ trailer)
        let s := match last with
          | some a => ringWrote s n a
          | none => s
        descDone (bump s R.CMP_CAPSULE_COUNT) n d poison (body.length + trailer.length)
      else
        let s := bump (chainWrite (descRelaxed s d) s bufs (body.take room)).1 R.CMP_CHAIN_FULL_COUNT
        ringStop (descPoison s n poison) n 2 (some 5)
  | _, _ => s

/-- CAPSULE_COMPLETE. -/
def execCapsuleComplete (ring : Fin 4096) (table : List Byte) (s : State) : Res :=
  run (capsuleComplete · ring table) s

/-- COMPRESSOR_FREE: the next waiting descriptor is taken (R419). -/
def execCompressorFree (s : State) : Res :=
  run (fun s =>
    match s.cmp.current, s.cmp.queue with
    | none, n :: _ => if domOn s 28 then compressorTake s n else s
    | _, _ => s) s

/-! ## The decompressor (R427, R428) -/

/-- A write of GO with RAW, which is stored: refused and counted while a job runs; without PD_28 there is nothing to start
(R427, R438, R445). -/
def decompressGo (s : State) (raw : Bool) : State :=
  let s := setF s F.CMP_DEC_CTRL_RAW (ofBool raw)
  if flag s F.CMP_STATUS_DEC_BUSY then bump s R.CMP_DEC_REFUSED_COUNT
  else if domOn s 28 = false then s
  else
    let s := setF s F.CMP_STATUS_DEC_BUSY 1
    let job := (getPair s R.CMP_DEC_SRC_LO, getR s R.CMP_DEC_SRC_LEN, getPair s R.CMP_DEC_DST_LO, getR s R.CMP_DEC_LIMIT, raw)
    { s with cmp := { s.cmp with job := some job } }

/-- DECOMPRESS_GO. -/
def execDecompressGo (raw : Bool) (s : State) : Res := run (decompressGo · raw) s

/-- The source of a job: bytes that no usable, error-free memory holds are none (R306, R428). -/
def decSource (s : State) (a n : Nat) : DecSrc :=
  (List.range n).map fun i => if dramUsable s && guardOk s 11 (a + i) 1 false && !dramBad s (a + i) 1
    then some (readByte s.dram (a + i)) else none

/-- Bytes `i` to `i + n − 1` of the source, or the outcome that reading them meets. -/
def srcTake (src : DecSrc) (i n : Nat) : Except Nat (List Byte) :=
  (List.range n).mapM fun k =>
    match src[i + k]? with
    | some (some b) => .ok b
    | some none => .error 7
    | none => .error 4

/-- A bare stream: outcome and output, oldest byte first. -/
def decRaw (src : DecSrc) (limit : Nat) : Nat × List Byte :=
  let r := inflate src limit 0
  match r.err with
  | some e => (e, r.fin.out.reverse)
  | none => (if (r.fin.pos + 7) / 8 < src.length then 9 else 0, r.fin.out.reverse)

/-- A capsule: outcome, output, and POISONED of its trailer. -/
def decCapsule (src : DecSrc) (limit : Nat) : Nat × List Byte × Bool :=
  match srcTake src 0 16 with
  | .error e => (e, [], false)
  | .ok h =>
    if leAt h 0 4 ≠ 0x5043584C ∨ leAt h 4 1 ≠ 0x10 ∨ leAt h 12 4 ≠ (crc32c (h.take 12)).toNat then (1, [], false)
    else
      let r := inflate src limit 16
      let out := r.fin.out.reverse
      match r.err with
      | some e => (e, out, false)
      | none =>
        let t0 := (r.fin.pos + 7) / 8
        match srcTake src t0 32 with
        | .error e => (e, out, false)
        | .ok t =>
          if leAt t 28 4 ≠ (crc32c (t.take 28)).toNat ∨ leAt t 8 8 ≠ out.length ∨ leAt t 16 8 ≠ t0 - 16 ∨
              leAt t 24 4 ≠ (crc32c out).toNat then (6, out, false)
          else (if t0 + 32 < src.length then 9 else 0, out, bitOf (leAt t 4 1) 0)

/-- A job's destination lies in region 3 or region 5 (R427). -/
def decDestOk (s : State) (dst limit : Nat) : Bool :=
  (inRegion s 3 dst limit || inRegion s 5 dst limit) && guardOk s 11 dst limit true

/-- The read that ended a job with MEM_UE is reported: its line in error, or what the guard refused (R302, R306). -/
def decReport (s : State) (src : DecSrc) (a : Nat) : State :=
  let x := a + src.findIdx (·.isNone)
  if dramUsable s = false then s
  else if guardOk s 11 x 1 false then lineReport s 11 (x / 64) else guardReport s 11 x

/-- The job ends, also while PD_28 finishes its work (R315, R428, R448). -/
def decompressEnd (s : State) : State :=
  match s.cmp.job with
  | none => s
  | some (a, n, dst, limit, raw) =>
    if domLive s 28 = false then s
    else
      let s := if dramUsable s then served s 11 a n else s
      let src := decSource s a n
      let r : Nat × List Byte × Bool :=
        if !decDestOk s dst limit then (8, [], false)
        else if raw then let d := decRaw src limit; (d.1, d.2, false)
        else decCapsule src limit
      let s := if r.1 = 7 then decReport s src a else if r.1 = 8 ∧ dramUsable s = true then guardReport s 11 dst else s
      let s := if r.1 = 8 then s else unitWrite s 11 dst r.2.1
      let s := setF (setF { s with cmp := { s.cmp with job := none } } F.CMP_STATUS_DEC_BUSY 0) F.CMP_DEC_RESULT_RESULT r.1
      let s := setF (setF s F.CMP_DEC_RESULT_POISONED (ofBool r.2.2)) F.CMP_DEC_RESULT_DONE 1
      let s := setR s R.CMP_DEC_OUT_LEN r.2.1.length
      if r.1 = 0 then s else bump s R.CMP_DEC_FAIL_COUNT

/-- DECOMPRESS_JOB_END. -/
def execDecompressJobEnd (s : State) : Res := run decompressEnd s

end Sys2Proof.Machine
end

