-- ==== Sys2Proof/Machine/Memory.lean ====
section
/-! DEFINITION. The memory controller: address map, error log, panic, refresh, self-refresh, scrubber, sweep and
start-up (R298 to R319). -/

namespace Sys2Proof.Machine

/-! ## Errors (R304, R306 to R309) -/

/-- The data of codeword `w` with an error pattern's residue, which a read delivers from now on (R304). -/
def wordSpoilt (s : State) (w : Nat) (residue : List Byte) : State :=
  if residue.all (· == 0) then s
  else { s with dram := writeBytes s.dram (16 * w) (List.zipWith (· ^^^ ·) (dramRead s (16 * w) 16) residue) }

/-- A correctable error in codeword `w`: corrected, counted, logged within the limit of the second, and with the scrubber
enabled its line's write-back is queued (R306, R308, R309). An entry that a full log drops has not been written. -/
def memCe (s : State) (req w symbol synd : Nat) : State :=
  let s := setF (bump s R.MEM_CE_COUNT) F.MEM_STATUS_CE 1
  let now := localNs s / 1000000000
  let n := if s.mem.ceSecond.1 = now then s.mem.ceSecond.2 else 0
  let s := if n < getF s F.MEM_CE_LOG_MAX_COUNT then
      let n := if memLogFull s then n else n + 1
      setMem (memLog s 1 req symbol (16 * w) synd) fun m => { m with ceSecond := (now, n) }
    else s
  if flag s F.MEM_CTRL_SCRUB_EN = false ∨ w / 4 ∈ s.mem.scrubQueue then s
  else setMem s fun m => { m with scrubQueue := m.scrubQueue ++ [w / 4] }

/-- Codeword `w` comes to hold an uncorrectable error with these syndromes. -/
def wordBad (s : State) (w : Nat) (synd : Word) : State :=
  { s with badWords := w :: s.badWords.filter (· != w), ueSynd := s.ueSynd.put w synd }

/-- A read of a line, or of the codeword that a partial write modifies, meets error patterns that the decoder cannot
correct (R306, R307); the others of the list are none of this command's. -/
def memUe (s : State) (req line : Nat) (words : List (Nat × List Byte)) (rmw : Bool) : State :=
  let failed := words.filter fun w => rsDecode w.2 = .failed
  if failed = [] then s
  else ueReport (failed.foldl (fun s w => wordBad s (4 * line + w.1) (rsWord w.2)) s) req line rmw
    ((List.range 4).filter fun w => failed.any (·.1 == w))

/-- MEM_UE. -/
def execMemUe (req : Fin 14) (line : Nat) (words : List (Fin 4 × List Byte)) (rmw : Bool) (s : State) : Res :=
  run (fun s =>
    if memServes s ∧ 64 * line < capacity s then memUe s req line (words.map fun w => (w.1.val, w.2)) rmw else s) s

/-- MEM_GUARD_REFUSAL: the access is not performed; it is logged and counted (R302). -/
def execMemGuardRefusal (req : Fin 14) (addr len : Nat) (write : Bool) (s : State) : Res :=
  run (fun s =>
    if memServes s ∧ ¬ guardOk s req addr len write then guardReport s req addr else s) s

/-! ## Refresh (R312 to R314) -/

/-- The owed count of a rank. -/
def owedF (u rank : Nat) : Fld := if rank = 0 then F.MEM_STATE_OWED_0 u else F.MEM_STATE_OWED_1 u

/-- Rank `r` of subchannel `u` is in the doubled mode. -/
def rate2x (s : State) (u r : Nat) : Bool := bitOf (getF s (F.MEM_STATE_RATE_2X u)) r

/-- POSTPONE_MAX in force. -/
def postponeMax (s : State) : Nat := min 4 (max 1 (getF s F.MEM_REFRESH_CFG_POSTPONE_MAX))

/-- A REFRESH is issued on subchannel `u`: a commit that waits copies TRIAL into LIVE (R318). -/
def refreshIssued (s : State) (u : Nat) : State :=
  if flag s F.MEM_SWEEP_CTRL_BUSY ∧ getF s F.MEM_SWEEP_CTRL_SEL = u then
    let s := (List.range 10).foldl (fun s n => wr s (R.MEM_LIVE u n) (rd s (R.MEM_TRIAL u n))) s
    setF s F.MEM_SWEEP_CTRL_BUSY 0
  else s

/-- A refresh interval of a rank elapses. With no class 1 request waiting and panic off the refreshes owed are issued;
otherwise this one is postponed, or, past the limit, mandatory (R313). -/
def refreshInterval (s : State) (u r : Nat) (class1Waits : Bool) : State :=
  if getF s (F.MEM_STATE_SR u) = 2 then s
  else
    let owed := getF s (owedF u r) + 1
    if ¬ class1Waits ∧ ¬ panicOn s then refreshIssued (setF s (owedF u r) 0) u
    else if postponeMax s < owed then refreshIssued (bump (setF s (owedF u r) (postponeMax s)) R.MEM_FORCED_REF_COUNT) u
    else setF s (owedF u r) owed

/-- REFRESH_INTERVAL. -/
def execRefreshInterval (u : Fin 16) (rank : Fin 2) (class1Waits : Bool) (s : State) : Res :=
  run (fun s => if memServes s then refreshInterval s u rank class1Waits else s) s

/-- A rank changes to the doubled mode or back; refreshes owed are restated, and past the limit a catch-up burst brings
them to 0 (R314). -/
def rankMode (s : State) (u r : Nat) (double : Bool) : State :=
  if rate2x s u r = double then s
  else
    let s := setF s ⟨R.MEM_STATE u, 10 + r, 10 + r⟩ (ofBool double)
    let owed := getF s (owedF u r)
    if double then
      if postponeMax s < 2 * owed then
        let s := setF (bump s R.MEM_CATCHUP_COUNT) F.MEM_STATUS_CATCHUP 1
        refreshIssued (setF s (owedF u r) 0) u
      else setF s (owedF u r) (2 * owed)
    else setF s (owedF u r) ((owed + 1) / 2)

/-- MR4_POLL: MR4 calls for the doubled rate or does not; FORCE_2X holds it (R312). -/
def execMr4Poll (u : Fin 16) (rank : Fin 2) (double : Bool) (s : State) : Res :=
  run (fun s =>
    if memServes s ∧ getF s (F.MEM_STATE_SR u) ≠ 2 then rankMode s u rank (double || flag s F.MEM_CTRL_FORCE_2X)
    else s) s

/-- FORCE_2X is set: every rank is in the doubled mode (R312). -/
def forceDouble (s : State) : State :=
  (List.range (subCount s)).foldl (fun s u =>
    (List.range (getF s F.MEM_CONFIG_RANKS)).foldl (fun s r => rankMode s u r true) s) s

/-! ## Panic (R311) -/

/-- A level in KiB of a buffer of `size` KiB reaches `n`/64 of it. -/
def levelAt (kib size n : Nat) : Bool := n * size ≤ 64 * kib

/-- The levels of the two real-time buffers. -/
def setLevels (s : State) (raw span : Nat) : State :=
  setF (setF s F.MEM_RT_LEVEL_RAW raw) F.MEM_RT_LEVEL_SPAN span

/-- The refreshes owed to every rank outside self-refresh are issued: no class 1 request waits and panic is off (R313). -/
def issueOwed (s : State) : State :=
  (List.range 16).foldl (fun s u =>
    if getF s (F.MEM_STATE_SR u) ≠ 2 ∧ getF s (owedF u 0) + getF s (owedF u 1) ≠ 0 then
      refreshIssued (setF (setF s (owedF u 0) 0) (owedF u 1) 0) u
    else s) s

/-- MEM_PANIC: a buffer reaches ON; every subchannel in self-refresh leaves it (R311, R316). -/
def execMemPanic (raw : Fin 8193) (level : Timed (Fin 8193)) (s : State) : Res :=
  run (fun s =>
    let s := advanceTo s level.time
    let span := level.what
    let on := getF s F.MEM_PANIC_CFG_ON
    let s := if memServes s then setLevels s raw span else s
    if memServes s ∧ ¬ panicOn s ∧ (levelAt raw 8192 on || levelAt span 4096 on) = true then
      let s := setMem (setF (bump s R.MEM_PANIC_COUNT) F.MEM_STATUS_PANIC 1) fun m => { m with
        panicAt := s.counter.toNat }
      raise ((List.range 16).foldl leaveSelfRefresh s) 11
    else s) s

/-- PANIC_END: both levels are at or below OFF; the time in panic is counted (R311). With both buffers empty no class 1
request waits, so what is owed is issued at once; otherwise the next REFRESH_INTERVAL says whether one waits (R313; DESIGN
CHOICE, log entry 27). -/
def execPanicEnd (raw span : Fin 8193) (time : Nat) (s : State) : Res :=
  run (fun s =>
    let s := advanceTo s time
    let off := min (getF s F.MEM_PANIC_CFG_OFF) (getF s F.MEM_PANIC_CFG_ON)
    let s := setLevels s raw span
    if panicOn s ∧ 64 * raw.val ≤ off * 8192 ∧ 64 * span.val ≤ off * 4096 then
      let s := setF (panicTally s) F.MEM_STATUS_PANIC 0
      if raw.val = 0 ∧ span.val = 0 ∧ memServes s = true then issueOwed s else s
    else s) s

/-! ## Scrubber (R308) -/

/-- An error pattern that the decoder corrects, perhaps wrongly, or does not see (R304, R306). A codeword already
uncorrectable stays so. -/
def memFound (s : State) (e : CorrErr) : State :=
  if e.word ∈ s.badWords then s
  else match rsDecode e.error with
    | .clean => wordSpoilt s e.word (rsResidue e.error)
    | .corrected i _ =>
      memCe (wordSpoilt s e.word (rsResidue e.error)) e.requester e.word (burstSymbol i) (rsWord e.error).toNat
    | .failed => s

/-- The error patterns of `found` that the decoder cannot correct, by read: those of one requester in one line are one failed
read (R306). The scrubber's read of line `own` is reported with what the line holds already. -/
def memFoundUe (s : State) (found : List CorrErr) (own : Option Nat) : State :=
  let ues := found.filter fun e => rsDecode e.error = .failed && !(s.badWords.contains e.word)
  let reads := (ues.map fun e => (e.requester, e.word / 4)).eraseDups
  reads.foldl (fun s r =>
    let ws := (ues.filter fun e => e.requester == r.1 && e.word / 4 == r.2).map fun e => (e.word % 4, e.error)
    if r.1.val = 12 ∧ own = some r.2 then ws.foldl (fun s w => wordBad s (4 * r.2 + w.1) (rsWord w.2)) s
    else memUe s r.1 r.2 ws false) s

/-- SCRUB_READ: the next line in address order is read; `found` are the error patterns met since the last one, in this read
or in demand reads (R306, R308). -/
def execScrubRead (found : List CorrErr) (s : State) : Res :=
  run (fun s =>
    if ¬ memServes s then s
    else
      let reads := flag s F.MEM_CTRL_SCRUB_EN && flag s F.MEM_STATUS_INIT_DONE && !panicOn s && !flag s F.PWR_STATUS_THROTTLE
      let s := memFoundUe (found.foldl memFound s) found (if reads then some s.mem.scrubNext else none)
      if reads then
        let l := s.mem.scrubNext
        let s := served s 12 (64 * l) 64
        let s := if (badLinesIn s (64 * l) 64).isEmpty then s else lineReport s 12 l
        setMem s fun m => { m with scrubNext := if (64 * (l + 1)) < capacity s then l + 1 else 0 }
      else s) s

/-- SCRUB_WRITE_BACK: the write-back queued first is performed while the scrubber is enabled; one whose line was written
meanwhile is not in the queue any more (R308). THROTTLE pauses the scrubber's write-backs as it does its reads (R456). -/
def execScrubWriteBack (s : State) : Res :=
  run (fun s =>
    match s.mem.scrubQueue with
    | [] => s
    | l :: rest =>
      if memServes s ∧ ¬ panicOn s ∧ flag s F.MEM_CTRL_SCRUB_EN ∧ ¬ flag s F.PWR_STATUS_THROTTLE then
        setMem (bump (served s 12 (64 * l) 64) R.MEM_SCRUB_FIX_COUNT) fun m => { m with scrubQueue := rest }
      else s) s

/-! ## Self-refresh (R315, R316) -/

/-- SELF_REFRESH_ENTRY: the idle time has passed; the refreshes owed are issued, then the entry command. A request that
arrives among them, after `issued` of them, aborts the entry (R315, R316). -/
def execSelfRefreshEntry (u : Fin 16) (aborted : Option Nat) (s : State) : Res :=
  run (fun s =>
    if memServes s ∧ getR s R.MEM_SR_IDLE % 65536 ≠ 0 ∧ ¬ panicOn s ∧ getF s (F.MEM_STATE_SR u) = 0 then
      let total := getF s (owedF u 0) + getF s (owedF u 1)
      match aborted with
      | some issued =>
        let k := min issued total
        let r0 := min k (getF s (owedF u 0))
        let s := setF s (owedF u 0) (getF s (owedF u 0) - r0)
        let s := setF s (owedF u 1) (getF s (owedF u 1) - (k - r0))
        let s := if k = 0 then s else refreshIssued s u
        bump s R.MEM_SR_ABORT_COUNT
      | none =>
        let s := if total = 0 then s else refreshIssued s u
        let s := setF (setF s (owedF u 0) 0) (owedF u 1) 0
        bump (setF s (F.MEM_STATE_SR u) 2) R.MEM_SR_ENTRY_COUNT
    else s) s

/-- SELF_REFRESH_EXIT (R315, R316). -/
def execSelfRefreshExit (u : Fin 16) (s : State) : Res := run (fun s => leaveSelfRefresh s u) s

/-- REQUEST_AGE_PROMOTION: a request that has waited longer than `MEM_AGE_LIMIT` is served as class 2 until it is served;
0 disables the limit (R310, R319). -/
def execRequestAgePromotion (req : Fin 14) (s : State) : Res :=
  run (fun s =>
    if memServes s ∧ getF s F.MEM_AGE_LIMIT_US ≠ 0 ∧ req.val ∉ s.mem.promoted then
      setMem s fun m => { m with promoted := m.promoted ++ [req.val] }
    else s) s

/-! ## The sweep (R317, R318) -/

/-- A write of `MEM_SWEEP_CTRL`: ignored while BUSY; COMMIT sets BUSY, and a subchannel in self-refresh leaves it
(R318). -/
def sweepCtrlWrite (s : State) (sel : Nat) (trialEn commit : Bool) : State :=
  if flag s F.MEM_SWEEP_CTRL_BUSY then s
  else
    let s := setF (setF s F.MEM_SWEEP_CTRL_SEL sel) F.MEM_SWEEP_CTRL_TRIAL_EN (ofBool trialEn)
    if commit then leaveSelfRefresh (setF s F.MEM_SWEEP_CTRL_BUSY 1) sel else s

/-- MEM_SWEEP_COMMIT. -/
def execMemSweepCommit (sel : Fin 16) (trialEn : Bool) (s : State) : Res := run (sweepCtrlWrite · sel trialEn true) s

/-- DRAM_SWEEP: the subchannels of the mask are swept one at a time (R318, R358). One that the memory lacks is a bad
argument, and a second sweep while one runs answers BUSY (log entry 27). -/
def dramSweep (s : State) (src : CmdSource) (tag mask : Nat) : State :=
  let us := (List.range 16).filter (bitOf mask)
  if s.mem.sweep ≠ [] then respond s src 10 tag stBusy 0 []
  else if us.any (subCount s ≤ ·) then respond s src 10 tag stBadArgs 0 []
  else if ¬ memServes s then respond s src 10 tag stNotReady 0 []
  else
    let s := acceptAsync s src 10 tag
    if us = [] then notice s 10 tag stOk else setMem s fun m => { m with sweep := us, sweepTag := tag }

/-- DRAM_SWEEP. -/
def execDramSweep (src : CmdSource) (tag : Word) (mask : BitVec 16) (s : State) : Res :=
  run (fun s => serve s src 10 tag.toNat (leBytes 2 mask.toNat) (dramSweep · src tag.toNat mask.toNat)) s

/-- The widest run of passing points in a scan: its first point and its width; the lowest on a tie. -/
def widestRun (l : List Bool) : Nat × Nat :=
  (l.zipIdx.foldl (fun (a : (Nat × Nat) × (Nat × Nat)) (b, i) =>
    if b then
      let cur := if a.1.2 = 0 then (i, 1) else (a.1.1, a.1.2 + 1)
      (cur, if a.2.2 < cur.2 then cur else a.2)
    else ((0, 0), a.2)) ((0, 0), (0, 0))).2

/-- Centre of a window; for an even width the spec does not say which of the two middle points: free value `k` of the
sweep's says (log entry 1). -/
def windowCentre (s : State) (k : Nat) (w : Nat × Nat) : Nat :=
  w.1 + (w.2 - 1) / 2 + if w.2 % 2 = 0 then (Config.freeValue (s.free + k)).toNat % 2 else 0

/-- The nibble whose window nibble `n` shares: the first of its device for an x8 one (R317). -/
def sweepNibble (s : State) (n : Nat) : Nat := if getF s F.MEM_CONFIG_WIDTH = 8 then n / 2 * 2 else n

/-- The nibble with the narrowest window, the lowest on a tie, and that window. -/
def narrowest (ws : List (Nat × Nat)) : Nat × Nat :=
  let best := ws.zipIdx.foldl (fun (b : Nat × Nat) (w, i) => if w.2 < b.2 then (i, w.2) else b) (0, 64)
  (best.1, min 63 best.2)

/-- The training area of a subchannel holds the last of the sweep's patterns, which no rule states (log entry 1). -/
def trainingFilled (s : State) (u : Nat) : State :=
  let base := regionBase s 5 + regionSize s 5 - 2 ^ 20
  (List.range 16384).foldl (fun s i =>
    let a := base + 64 * i
    if memSub s a = u then
      (List.range 8).foldl (fun s j => freeTaken (dramWrite s (a + 8 * j) (leBytes 8 (freeNext s).toNat))) s
    else s) s

/-- The delay word that an access of `req` to bytes from `a` uses on nibble `n` of its subchannel: TRIAL for the sweep in
the training area of the selected subchannel while TRIAL_EN is set, LIVE otherwise (R317). -/
def accessDelays (s : State) (req a n : Nat) : Word :=
  let u := memSub s a
  if req = 13 ∧ flag s F.MEM_SWEEP_CTRL_TRIAL_EN ∧ getF s F.MEM_SWEEP_CTRL_SEL = u ∧ inTraining s a 1 = true then
    rd s (R.MEM_TRIAL u n)
  else rd s (R.MEM_LIVE u n)

/-- The passing points of nibble `n` in the scans that `f` picks. The two nibbles of an x8 device are set alike, so a point
passes there if it passes for both (R317; DESIGN CHOICE, log entry 27). -/
def sweepPoints (s : State) (f : SweepScan → List Bool) (scans : List SweepScan) (n : Nat) : List Bool :=
  let one (n : Nat) : List Bool := f (scans.getD n ⟨[], []⟩)
  let k := sweepNibble s n
  if getF s F.MEM_CONFIG_WIDTH = 8 then List.zipWith (· && ·) (one k) (one (k + 1)) else one n

/-- The sweep of a subchannel ends with the passing points of each nibble's scans (R318). -/
def sweepEnd (s : State) (u : Nat) (scans : List SweepScan) : State :=
  let rds := (List.range 10).map fun n => widestRun (sweepPoints s (·.rd) scans n)
  let wrs := (List.range 10).map fun n => widestRun (sweepPoints s (·.wr) scans n)
  let r := narrowest rds
  let w := narrowest wrs
  let s := trainingFilled s u
  let s := setF (setF s (F.MEM_SWEEP_RESULT_RD_NIBBLE u) r.1) (F.MEM_SWEEP_RESULT_RD_WIDTH u) r.2
  let s := setF (setF s (F.MEM_SWEEP_RESULT_WR_NIBBLE u) w.1) (F.MEM_SWEEP_RESULT_WR_WIDTH u) w.2
  if r.2 < 16 ∨ w.2 < 16 then fault (setF s (F.MEM_STATE_SWEEP_FAIL u) 1) 7
  else
    let s := (List.range 10).foldl (fun s n =>
      let k := sweepNibble s n
      let s := setF s (F.MEM_TRIAL_RD_DQ u n) (windowCentre s (2 * k) (rds.getD n (0, 0)))
      setF s (F.MEM_TRIAL_WR_DQ u n) (windowCentre s (2 * k + 1) (wrs.getD n (0, 0)))) s
    let s := { s with free := s.free + 20 }
    let s := setF s (F.MEM_STATE_SWEEP_FAIL u) 0
    (List.range 10).foldl (fun s n => wr s (R.MEM_LIVE u n) (rd s (R.MEM_TRIAL u n))) (leaveSelfRefresh s u)

/-- INIT of `MEM_CTRL`: the fill begins. -/
def memInit (s : State) : State :=
  if memServes s then setF (setF s F.MEM_STATUS_INIT_BUSY 1) F.MEM_STATUS_INIT_DONE 0 else s

/-- DRAM_SWEEP_COMPLETE: the sweep of the next subchannel ends; after the last the notice follows, or at start-up INIT. It is
suspended during panic, and while THROTTLE is set (R311, R318, R319, R456). -/
def execDramSweepComplete (scans : List SweepScan) (s : State) : Res :=
  run (fun s =>
    match s.mem.sweep with
    | [] => s
    | u :: rest =>
      if panicOn s ∨ flag s F.PWR_STATUS_THROTTLE then s
      else
        let s := setMem (sweepEnd s u scans) fun m => { m with sweep := rest }
        if rest ≠ [] then s
        else if s.mem.starting then memInit (setMem s fun m => { m with starting := false })
        else notice s 10 s.mem.sweepTag stOk) s

/-! ## Start-up (R298, R299, R319) -/

/-- A module within the limits (R298): rated at 6,400 MT/s or faster, EC8, 16 Gbit devices, and one of the three makes. -/
def dimmOk (d : Dimm) : Bool :=
  d.rdimm && 6400 ≤ d.rate && d.ecc8 && d.gbit == 16 &&
    ((d.gib == 16 && d.ranks == 1 && d.width == 8) || (d.gib == 32 && d.ranks == 2 && d.width == 8) ||
      (d.gib == 32 && d.ranks == 1 && d.width == 4))

/-- Channels 4 to 7 are populated at all. -/
def dimmsEight (ds : List (List Dimm)) : Bool := (ds.drop 4).any (· != [])

/-- The channels refused: not exactly one DIMM, one outside the limits, or one that differs from that of channel 0; and
four DIMMs of 32 GiB, a capacity that does not exist (R298, R299). -/
def dimmsRefused (ds : List (List Dimm)) : List Nat :=
  (List.range (if dimmsEight ds then 8 else 4)).filter fun c =>
    match ds.getD c [] with
    | [d] => !dimmOk d || ds.getD c [] != ds.getD 0 [] || (!dimmsEight ds && d.gib != 16)
    | _ => true

/-- Step 2 of the start-up of memory that is not refused: the timings, which for the devices of R298 are the reset values; the
CA delays that training finds, which no rule states (log entry 1); EN; and the sweep of every subchannel, after which INIT
follows as step 3 (R298, R319; log entry 27). -/
def memStart (s : State) : State :=
  let s := [R.MEM_T_0, R.MEM_T_1, R.MEM_T_2].foldl (fun s a => wr s a (resetWord a)) s
  let s := (List.range (subCount s)).foldl (fun s u =>
    freeTaken (wr s (R.MEM_CA u) ((freeNext s).setWidth 32 &&& 0x03FF03FF))) s
  setMem (setF s F.MEM_CTRL_EN 1) fun m => { m with sweep := List.range (subCount s), starting := true }

/-- The supervisor reads every DIMM's SPD with PD_25 and PD_26 on, writes `MEM_CONFIG`, 0 where it refuses the memory, and
starts the memory that it does not refuse (R298, R319). -/
def spdRead (s : State) : State :=
  match s.pwr.dimms with
  | none => s
  | some ds =>
    let refused := dimmsRefused ds
    let channels := if dimmsEight ds then 8 else 4
    let s := { s with arch := { s.arch with dimmRefused := refused != [], refusedChannels := refused } }
    let word := match ds.getD 0 [] with
      | d :: _ => channels * d.gib * 2 ^ 16 + channels * 2 ^ 8 + d.ranks * 2 ^ 4 + d.width
      | [] => 0
    let s := refreshLevels (setR s R.MEM_CONFIG (if refused = [] then word else 0))
    if refused = [] then memStart s else s

/-- MEM_INIT. -/
def execMemInit (s : State) : Res := run memInit s

/-- MEM_INIT_DONE: the whole capacity holds zeros with valid check bytes; every line is written, so no write-back is left
(R308). -/
def execMemInitDone (s : State) : Res :=
  run (fun s =>
    if flag s F.MEM_STATUS_INIT_BUSY then
      setF (setF { s with dram := [], badWords := [], ueSynd := [], mem := { s.mem with scrubQueue := [] } } F.MEM_STATUS_INIT_BUSY 0) F.MEM_STATUS_INIT_DONE 1
    else s) s

end Sys2Proof.Machine
end

