-- ==== Sys2Proof/Machine/Integ.lean ====
section
/-! DEFINITION. The fold unit: sum store, merged records, readout and visibility products (R196 to R219). -/

namespace Sys2Proof.Machine

/-! ## Sizes and addresses -/

/-- Signal groups in use, G (R170). -/
def groupsOf (s : State) : Nat := (domainSignals s + 127) / 128

/-- Blocks in use (R170). -/
def blocksOf (s : State) : Nat := groupsOf s * (groupsOf s + 1) / 2

/-- Byte address of word `w` of block `b` of channel `c` in set `z` (R196). -/
def sumAddr (s : State) (z c b w : Nat) : Nat :=
  getPair s R.INT_SUM_BASE_LO + z * 4429185024 + c * 69206016 + b * 131072 + w * 8

/-- State of channel `c` in set `z`: 0 DIRTY, 1 CLEAR, 2 SUM (R197). -/
def chanState (s : State) (z c : Nat) : Nat := getF s ⟨R.INT_SET_STATE z (c / 16), 2 * (c % 16) + 1, 2 * (c % 16)⟩

/-- Set it. -/
def setChanState (s : State) (z c st : Nat) : State :=
  setF s ⟨R.INT_SET_STATE z (c / 16), 2 * (c % 16) + 1, 2 * (c % 16)⟩ st

/-- Change the fold unit's hidden state. -/
def setInteg (s : State) (f : Integ → Integ) : State := { s with integ := f s.integ }

/-- The merged record of channel `c` of integration `n`. -/
def chanRec (s : State) (n c : Nat) : ChanRec := s.integ.recs.get {} (64 * n + c)

/-- Change it. -/
def setChanRec (s : State) (n c : Nat) (f : ChanRec → ChanRec) : State :=
  setInteg s fun i => { i with recs := i.recs.upd {} (64 * n + c) f }

/-- A STOP leaves integration `n` out: it does not end at or before FS (R25). -/
def stopsInteg (s : State) (n : Nat) : Bool :=
  s.arch.stopFrame.any fun fs => fs ≤ frameOf s && fs < integStart s (n + 1)

/-- The fold unit folds integration `n` (R24, R25, R198, R217). -/
def foldsInteg (s : State) (n : Nat) : Bool :=
  flag s F.INT_CTRL_EN && domOn s 23 && s.integ.first.any (· ≤ n) && !(n ∈ s.integ.dead : Bool) && !stopsInteg s n

/-! ## Folding (R199, R200) -/

/-- Two 32-bit components as 8 bytes (R180). -/
def wordPair (v : Int × Int) : List Byte := leBytes 4 (ofSigned 32 v.1) ++ leBytes 4 (ofSigned 32 v.2)

/-- The limit of the sum store and of the SRAM: ±(2^31 − 1). -/
abbrev sumMax : Int := 2147483647

/-- A component clamped to ±(2^31 − 1), and whether it lay beyond. -/
def sat31 (v : Int) : Int × Bool :=
  if v > sumMax then (sumMax, true) else if v < -sumMax then (-sumMax, true) else (v, false)

/-- Fold one 64-byte line, 8 words, into the sum store: the words that saturated, and whether the read failed. -/
def foldLine (s : State) (a : Nat) (ts : List (Int × Int)) (dirty : Bool) : State × Nat × Bool :=
  if dirty then (unitWrite s 4 a (ts.flatMap wordPair), 0, false)
  else
    let (s, old) := unitFetch s 4 a 64
    let sums := ts.zipIdx.map fun (t, i) =>
      let o := match old with
        | some bs => (toSigned 32 (leAt bs (8 * i) 4), toSigned 32 (leAt bs (8 * i + 4) 4))
        | none => (0, 0)
      (sat31 (o.1 + t.1), sat31 (o.2 + t.2))
    let s := unitWrite s 4 a (sums.flatMap fun (r, i) => wordPair (r.1, i.1))
    (s, sums.countP fun (r, i) => r.2 || i.2, old.isNone)

/-- What a block contributes: the words of its units that had a tile, none for a unit that is LOST or a channel that is
skipped. -/
def contribution (acc : SMap UnitAcc) (cal8 : Bool) (b l : Nat) : Option (List (Int × Int)) :=
  if cal8 then (acc.find (4 * b + l / 512)).map fun u => (u.words.drop (l % 512 * 8)).take 8
  else (acc.find b).map fun u => (u.words.drop (l * 8)).take 8

/-- Fold block `b`: its SUM_UE and FOLD_SAT bits, with the counts. -/
def foldBlock (s : State) (z c b : Nat) (acc : SMap UnitAcc) (cal8 dirty : Bool) : State × Nat :=
  (List.range 2048).foldl (fun (p : State × Nat) l =>
    let a := sumAddr p.1 z c b (8 * l)
    match contribution acc cal8 b l with
    | some ts =>
      let (s, sat, ue) := foldLine p.1 a ts dirty
      let s := if sat = 0 then s else setF (bumpBy s R.INT_FOLD_SAT_COUNT sat) F.INT_STATUS_FOLD_SAT 1
      let s := if ue then setF (bump s R.INT_SUM_UE_COUNT) F.INT_STATUS_SUM_UE 1 else s
      (s, p.2 ||| (if sat = 0 then 0 else 2) ||| (if ue then 16 else 0))
    | none =>
      if dirty then (unitWrite p.1 4 a (List.replicate 64 0), p.2) else p) (s, 0)

/-- A channel record as the correlator hands it over (R181). -/
structure ChannelRecord where
  /-- 0 DONE, 1 SKIP_OVERRUN, 2 SKIP_ABORT, 3 SKIP_MODE, 4 SKIP_NO_SLOT, 5 NO_RECORD. -/
  status : Nat
  memUe : Bool
  /-- Post-exchange bits by frame of the span. -/
  valid : List Nat
  /-- Blocks with SAT, and blocks with a LOST unit. -/
  sat : List Nat
  lost : List Nat
  acc : SMap UnitAcc
  cal8 : Bool

/-- The fold unit takes channel `c` of span `n` (R199 to R201, R212 to R214). -/
def foldChannel (s : State) (span c : Nat) (r : ChannelRecord) : State :=
  let n := span / integLen s
  if ¬ foldsInteg s n then s
  else
    let z := n % 2
    let m := span % integLen s
    let dirty := chanState s z c == 0
    let acc := if r.status = 0 then r.acc else []
    let (s, flags) := (List.range (blocksOf s)).foldl (fun (p : State × List (Nat × Nat)) b =>
      let q := foldBlock p.1 z c b acc r.cal8 dirty
      (q.1, if q.2 = 0 then p.2 else (b, q.2) :: p.2)) (s, [])
    let s := setChanState s z c 2
    let sat := !r.sat.isEmpty || flags.any fun f => bitOf f.2 1
    let entry := r.status + 8 * ofBool r.memUe +
      64 * ofBool sat + 128 * ofBool !r.lost.isEmpty
    let or := fun (bl : SMap Nat) (b v : Nat) => bl.upd 0 b (· ||| v)
    setChanRec s n c fun x =>
      let bl := flags.foldl (fun bl f => or bl f.1 f.2) x.blocks
      let bl := r.sat.foldl (fun bl b => or bl b 1) bl
      { entries := x.entries.put m entry
        blocks := r.lost.foldl (fun bl b => or bl b 4) bl
        bitmap := if r.status = 0 then
            r.valid.zipIdx.foldl (fun bm (v, t) => bm.put (m * spanLen s + t) v) x.bitmap
          else x.bitmap }

/-- The merged record of a channel as its product shows it: TIME_STEP stands in the entry of every span that holds a
suppressed or repeated frame, also where the step came after the fold (R29, R212). -/
def recordShown (s : State) (n c : Nat) : ChanRec :=
  let x := chanRec s n c
  { x with entries := x.entries.map fun (m, e) =>
      (m, e ||| 16 * ofBool (timeStepIn s (spanStart s (n * integLen s + m)) (spanLen s))) }

/-- The fold of a channel of an integration's last span is complete (R204). -/
def foldedLast (s : State) (n c : Nat) : Bool := ((chanRec s n c).entries.find (integLen s - 1)).isSome

/-- The integrations being folded: the one noted, and the next where the window of its first span has opened while a drain
of the last span before still runs (R217). -/
def beingFolded (s : State) : List Nat :=
  match s.integ.folding with
  | some n =>
    let m := n + 1
    if flag s F.INT_CTRL_EN = true ∧ domOn s 23 = true ∧ s.integ.first.any (· ≤ m) = true ∧ m ∉ s.integ.dead ∧
      integStart s m + spanLen s + 2 ≤ frameOf s then [n, m] else [n]
  | none => []

/-- An integration is abandoned: the channels into which it has folded become DIRTY, and a readout of its own that had begun
beside its last drain ends (R217). -/
def abandonInteg (s : State) (n : Nat) : State :=
  let s := (List.range 64).foldl (fun s c =>
    if (s.integ.recs.find (64 * n + c)).isSome then setChanState s (n % 2) c 0 else s) s
  let s := setInteg s fun i => { i with
    recs := i.recs.drop (· / 64 == n), dead := n :: i.dead
    folding := i.folding.filter (· != n) }
  let s := if s.integ.readout.any (·.1 == n) then
      setInteg (setF s F.INT_READOUT_BUSY 0) fun i => { i with readout := none }
    else s
  bump s R.INT_ABANDON_COUNT

/-! ## Products (R205 to R216) -/

/-- FLAGS of R211, but for READOUT_OVERRUN. -/
def productFlags (s : State) (n : Nat) (x : ChanRec) : Nat :=
  let st := fun k => x.entries.any fun e => e.2 % 8 == k
  let eb := fun i => x.entries.any fun e => bitOf e.2 i
  let bb := fun i => x.blocks.any fun e => bitOf e.2 i
  let frames := spanLen s * integLen s
  let full := 2 ^ domainSignals s - 1
  let late := (List.range frames).any fun t => x.bitmap.get 0 t != full
  packBits [st 1 || st 2, st 4, st 3, eb 3, bb 4, bb 0, bb 1, bb 2, bb 3, eb 4, late, false,
    cal8Of s (integStart s n), st 5]

/-- SEQ, CHANNEL and the other fields common to the full and the header-only product (R210, R216). -/
def visHeader (s : State) (n c flags off1 off2 off3 len : Nat) : List Byte :=
  productHeader s 1 (n * 64 + c) (64 * sliceOf s (chipNo s) + c) (integStart s n) (integLen s) (spanLen s)
    (domainSignals s) flags off1 off2 off3 len (blocksOf s) (getF s F.INT_STREAM_STREAM)

/-- The sections of a product between header and payload: bitmap, span table, block table (R209, R212 to R214). -/
def visTables (s : State) (x : ChanRec) : List Byte × List Byte × List Byte :=
  (pad64 ((List.range (spanLen s * integLen s)).flatMap fun t => leBytes (domainSignals s / 8) (x.bitmap.get 0 t)),
   pad64 ((List.range (integLen s)).flatMap fun m => leBytes 4 (x.entries.get 0 m)),
   pad64 ((List.range (blocksOf s)).map fun b => BitVec.ofNat 8 (x.blocks.get 0 b)))

/-- A whole product from its record and payload (R209). -/
def visProduct (s : State) (n c : Nat) (x : ChanRec) (payload : List Byte) : List Byte :=
  let (bm, st, bt) := visTables s x
  let o1 := 64 + bm.length
  let o2 := o1 + st.length
  let o3 := o2 + bt.length
  visHeader s n c (productFlags s n x) o1 o2 o3 payload.length ++ bm ++ st ++ bt ++ pad64 payload

/-- A header-only product (R207). -/
def headerOnly (s : State) (n c : Nat) : List Byte :=
  visHeader s n c (productFlags s n (recordShown s n c) ||| 2 ^ 11) 0 0 0 0

/-- Byte address of staging slot `c` of buffer `z` (R206). -/
def stageAddr (s : State) (z c : Nat) : Nat :=
  getPair s R.INT_STAGE_BASE_LO + (64 * z + c) * (getF s F.INT_PRODUCT_SLOT_MIB * 2 ^ 20)

/-- A product is dropped for a slot that is not free (R206). -/
def dropProduct (s : State) : State :=
  fault (setF (bump s R.INT_STAGE_BUSY_COUNT) F.INT_STATUS_STAGE_BUSY 1) 14

/-- A product goes to its staging slot: written with VIS_READY, or dropped and counted where the slot is not free or the
guard refuses (R206, R208). A chip that does not emit the integration writes nothing. The digest covers it either way
(R463). -/
def stageProduct (s : State) (n c : Nat) (bs : List Byte) : State :=
  let z := n % 2
  let span := frameOf s / spanLen s
  let s := digestAdd (digestCrc s span 4 bs) span 5 (· + 1)
  let s := digestAdd s span 6 fun v => if v = 0 then integStart s n + 1 else min v (integStart s n + 1)
  if ¬ emitsInteg s (integStart s n) then s
  else if getPairB s (R.INT_STAGE_FREE_LO z) c ∧ dramUsable s ∧ guardOk s 5 (stageAddr s z c) bs.length true then
    let s := setPairB (unitWrite s 5 (stageAddr s z c) bs) (R.INT_STAGE_FREE_LO z) c false
    brlPendAll (raise (bump s R.INT_PRODUCT_COUNT) 3) 6
  else dropProduct (if getPairB s (R.INT_STAGE_FREE_LO z) c then unitWrite s 5 (stageAddr s z c) bs else s)

/-- One more channel of the readout is read out, dropped or marked; after the last, INTEG_DONE (R208). -/
def readoutDone (s : State) (n : Nat) : State :=
  let d := getF s F.INT_READOUT_DONE + 1
  let s := setF s F.INT_READOUT_DONE d
  if d = 64 then
    let s := setInteg (setF s F.INT_READOUT_BUSY 0) fun i => { i with
      readout := none, lastDone := some n, recs := i.recs.drop (· / 64 == n) }
    raise (setPair s R.INT_DONE_LO n) 4
  else setInteg s fun i => { i with readout := some (n, d) }

/-- The lines of the channel's in-use blocks, read: 64 bytes each, none where the read failed. -/
def sumLines (s : State) (z c : Nat) : Array (Option (List Byte)) :=
  ((List.range (blocksOf s * 2048)).map fun i => unitRead s 5 (sumAddr s z c 0 (8 * i)) 64).toArray

/-- The reads of lines that failed are reported (R302, R306). -/
def sumReports (s : State) (z c : Nat) (lines : Array (Option (List Byte))) : State :=
  (List.range lines.size).foldl (fun s i =>
    if (lines.getD i none).isNone then (unitFetch s 5 (sumAddr s z c 0 (8 * i)) 64).1 else s) s

/-- The payload in baseline order from the lines read (R205). -/
def payloadOf (s : State) (lines : Array (Option (List Byte))) : List Byte :=
  (List.range (domainSignals s)).flatMap fun p =>
    (List.range (p + 1)).flatMap fun q =>
      let b := (p / 128) * (p / 128 + 1) / 2 + q / 128
      let w := p % 128 * 128 + q % 128
      match lines.getD (b * 2048 + w / 8) none with
      | some bs => (bs.drop (w % 8 * 8)).take 8
      | none => List.replicate 8 0

/-- Write zeros behind the readout; the channel is CLEAR (R205). -/
def clearChannel (s : State) (z c : Nat) : State :=
  let s := (List.range (blocksOf s * 2048)).foldl (fun s i =>
    unitWrite s 5 (sumAddr s z c 0 (8 * i)) (List.replicate 64 0)) s
  setChanState s z c 1

/-- The readout of the next channel (R205, R206). -/
def readoutChannel (s : State) (n c : Nat) : State :=
  let z := n % 2
  let st := chanState s z c
  let s := if st = 0 then stageProduct s n c (headerOnly s n c)
    else if st = 1 then
      stageProduct s n c (visProduct s n c (recordShown s n c)
        (List.replicate (domainSignals s * (domainSignals s + 1) / 2 * 8) 0))
    else if getPairB s (R.INT_STAGE_FREE_LO z) c then
      let lines := sumLines s z c
      let bad := (List.range (blocksOf s)).filter fun b =>
        (List.range 2048).any fun l => (lines.getD (2048 * b + l) none).isNone
      let ues : Nat := lines.foldl (fun k l => if l.isNone then k + 1 else k) 0
      let s := if ues = 0 then s else sumReports s z c lines
      let s := if ues = 0 then s else setF (bumpBy s R.INT_SUM_UE_COUNT ues) F.INT_STATUS_SUM_UE 1
      let s := setChanRec s n c fun x => { x with
        blocks := bad.foldl (fun bl b => bl.upd 0 b (· ||| 16)) x.blocks }
      let bs := visProduct s n c (recordShown s n c) (payloadOf s lines)
      stageProduct (clearChannel s z c) n c bs
    else clearChannel (if emitsInteg s (integStart s n) then dropProduct s else s) z c
  readoutDone s n

/-- A channel not read out when its window closes: DIRTY, counted, with a header-only product (R207). -/
def readoutMiss (s : State) (n c : Nat) : State :=
  let s := setF (bump (setChanState s (n % 2) c 0) R.INT_READOUT_OVERRUN_COUNT) F.INT_STATUS_READOUT_OVERRUN 1
  readoutDone (stageProduct (fault s 14) n c (headerOnly s n c)) n

/-- The readout window of integration `n` opens (R204). -/
def readoutOpen (s : State) (n : Nat) : State :=
  let s := setF (setF (setF s F.INT_READOUT_BUSY 1) F.INT_READOUT_BUFFER (n % 2)) F.INT_READOUT_DONE 0
  setInteg s fun i => { i with readout := some (n, 0) }

/-- Integration `n` is owed a readout: it has folded, was not abandoned and has not been read out. EN cleared and set again
after its fold changes nothing of that (R204, R205, R217). -/
def owedReadout (s : State) (n : Nat) : Bool :=
  !(n ∈ s.integ.dead : Bool) && !stopsInteg s n && s.integ.lastDone.all (· < n) && (List.range 64).any fun c => (s.integ.recs.find (64 * n + c)).isSome

/-- EN of `INT_CTRL` (R198, R217): set, all states but those owed to a readout become DIRTY and folding begins with the
first integration that starts at or after the next tick; cleared, what is being folded is abandoned. -/
def setIntEnable (s : State) (en : Bool) : State :=
  let was := flag s F.INT_CTRL_EN
  let open_ := beingFolded s
  let s := setF s F.INT_CTRL_EN (ofBool en)
  if en ∧ ¬ was then
    let s := (List.range 128).foldl (fun s k =>
      match s.integ.readout with
      | some (n, c) => if k / 64 = n % 2 ∧ c ≤ k % 64 then s else setChanState s (k / 64) (k % 64) 0
      | none => setChanState s (k / 64) (k % 64) 0) s
    let si := spanLen s * integLen s
    setInteg (setF s F.INT_STATUS_RUNNING 1) fun i => { i with first := some ((nextTick s + si - 1) / si) }
  else if ¬ en ∧ was then
    setF (open_.foldl abandonInteg s) F.INT_STATUS_RUNNING 0
  else s

/-! ## The commands -/

/-- INT_ENABLE (R198). -/
def execIntEnable (s : State) : Res := run (setIntEnable · true) s

/-- INT_DISABLE (R217). -/
def execIntDisable (s : State) : Res := run (setIntEnable · false) s

/-- READOUT_WINDOW_OPEN: at tick E + S + 2, or at the first tick after a step that jumped over it (R30, R204, R483). -/
def execReadoutWindowOpen (n : Nat) (s : State) : Res :=
  run (fun s =>
    let e := integStart s (n + 1)
    if owedReadout s n ∧ e + spanLen s + 2 ≤ frameOf s ∧ frameOf s < e + 2 * spanLen s + 2 ∧
        s.integ.readout.isNone then readoutOpen s n else s) s

/-- READOUT_CHANNEL: the next channel, once its last fold is done (R204, R205). -/
def execReadoutChannel (s : State) : Res :=
  run (fun s =>
    match s.integ.readout with
    | some (n, c) => if foldedLast s n c ∧ domOn s 23 then readoutChannel s n c else s
    | none => s) s

/-- READOUT_WINDOW_CLOSE: at tick E + 2S + 2; a window that a step jumped over is missed whole (R207, R483). -/
def execReadoutWindowClose (n : Nat) (s : State) : Res :=
  run (fun s =>
    if owedReadout s n ∧ integStart s (n + 1) + 2 * spanLen s + 2 ≤ frameOf s then
      let s := if s.integ.readout.any (·.1 == n) then s else readoutOpen s n
      match s.integ.readout with
      | some (_, c) => (List.range' c (64 - c)).foldl (fun s c => readoutMiss s n c) s
      | none => s
    else s) s

end Sys2Proof.Machine
end

