-- ==== Sys2Proof/Machine/Cor.lean ====
section
/-! DEFINITION. The correlator: blocks, tiles, the channel cycle, aborts and patrol (R170 to R195). -/

namespace Sys2Proof.Machine

/-! ## The arithmetic of a unit (R170 to R176) -/

/-- Rows of the triangle up to block `b`: its (i, j) (R170). -/
def blockPair (b : Nat) : Nat × Nat :=
  let i := ((List.range 33).filter fun i => i * (i + 1) / 2 ≤ b).length - 1
  (i, b - i * (i + 1) / 2)

/-- One sample as a complex number: a 4+4 byte (R13), or two signed bytes (R14). -/
def sampleOf (cal8 : Bool) (bs : List Byte) : Cpx :=
  if cal8 then ⟨(bs.getD 0 0).toInt, (bs.getD 1 0).toInt⟩
  else ⟨toSigned 4 ((bs.getD 0 0).toNat / 16), toSigned 4 (bs.getD 0 0).toNat⟩

/-- The failed reads of this channel cut signal `p` in frame `fr` of the span from spectrum `k` on; none if they did not
touch it (R184). -/
def cutAt (s : State) (p fr : Nat) : Option Nat :=
  (s.cor.cuts.find? fun x => x.frame == fr && bitOf x.signals p).map (·.spectrum)

/-- The sample of signal `p`, spectrum `n` of the span in the channel in work (R171, R184). -/
def causewaySample (s : State) (cal8 : Bool) (slot span c p n : Nat) : Cpx :=
  let fr := n / 256
  let used := match cutAt s p fr with
    | some k => decide (n % 256 < k)
    | none => bitOf (s.xr.valid.get 0 (spanStart s span + fr)) p
  if p < domainSignals s ∧ used = true then
    sampleOf cal8 (dramRead s (spanAddr s slot (spanStart s span + fr) c (n % 256) p cal8) 2)
  else ⟨0, 0⟩

/-- Change the correlator's hidden state. -/
def setCor (s : State) (f : Cor → Cor) : State := { s with cor := f s.cor }

/-- Signals that a 64-byte line of the span buffer holds: 64, or 32 in 8-bit mode (R184). -/
def lineSignals (cal8 : Bool) : Nat := if cal8 then 32 else 64

/-- DRAM address of line `line` of spectrum `k`, frame `fr` of the span, in the channel in work (R164). -/
def causewayLine (s : State) (slot span fr k line : Nat) : Nat :=
  let cal8 := flag s F.COR_STATUS_MODE8
  spanAddr s slot (spanStart s span + fr) (getF s F.COR_STATUS_CHANNEL) k (lineSignals cal8 * line) cal8

/-- The read of a line fails: its signals are cut from there and cleared in the validity record, and the read counts (R184).
An error response whose cause is no uncorrectable error is handled alike (DESIGN CHOICE, log entry 59). -/
def causewayCut (s : State) (span fr k line : Nat) : State :=
  let wide := lineSignals (flag s F.COR_STATUS_MODE8)
  let mask := (2 ^ wide - 1) * 2 ^ (wide * line)
  let f := spanStart s span + fr
  let bits := s.xr.valid.get 0 f
  let s := setCor s fun c => { c with cuts := c.cuts ++ [⟨fr, k, bits &&& mask⟩] }
  bump (setXr s fun x => { x with valid := x.valid.put f (bits - (bits &&& mask)) }) R.COR_UE_COUNT

/-- The causeway reader asks for a line some signal of which is used; a read that gets an error response is reported by the
memory and cut (R184, R302, R306, R316). -/
def causewayRead (s : State) (slot span fr k line : Nat) : State :=
  let wide := lineSignals (flag s F.COR_STATUS_MODE8)
  if s.xr.valid.get 0 (spanStart s span + fr) &&& (2 ^ wide - 1) * 2 ^ (wide * line) = 0 then s
  else match unitFetch s 3 (causewayLine s slot span fr k line) 64 with
    | (t, some _) => t
    | (t, none) => causewayCut t span fr k line

/-- The causeways' reads of the channel in work, in address order; where the memory answers and the whole channel lies in
region 1, only lines with an uncorrectable error can fail (R171, R184, R302). -/
def causewayReads (s : State) (slot span : Nat) : State :=
  let base := causewayLine s slot span 0 0 0
  let len := spanLen s * 256 * 4096
  if dramUsable s && guardOk s 3 base len false then
    let bad := ((badLinesIn s base len).foldl (fun (m : SMap Unit) l => m.put l ()) []).map (·.1)
    bad.foldl (fun s l =>
      let i := (64 * l - base) / 64
      causewayRead s slot span (i / 16384) (i / 64 % 256) (i % 64)) (served s 3 base len)
  else
    (List.range (spanLen s * 16384)).foldl (fun s i => causewayRead s slot span (i / 16384) (i / 64 % 256) (i % 64)) s

/-- One batch of 16 spectra at the flop level, x·conj(y). -/
def flopSum (x y : Nat → Cpx) (n0 : Nat) : Int × Int :=
  (List.range' n0 16).foldl (fun f n =>
    let a := x n
    let b := y n
    (f.1 + (a.re * b.re + a.im * b.im), f.2 + (a.im * b.re - a.re * b.im))) (0, 0)

/-- One SRAM word over `nspec` spectra, and whether it saturated (R174, R175). -/
def tileWord (x y : Nat → Cpx) (nspec : Nat) : (Int × Int) × Bool :=
  (List.range (nspec / 16)).foldl (fun (w : (Int × Int) × Bool) i =>
    let f := flopSum x y (16 * i)
    let r := sat31 (w.1.1 + f.1)
    let q := sat31 (w.1.2 + f.2)
    ((r.1, q.1), w.2 || r.2 || q.2)) ((0, 0), false)

/-- The words unit `e` forms in the channel in work: a whole block, or quarter `e % 4` of one in 8-bit mode (R173,
R176). -/
def unitWords (s : State) (cal8 : Bool) (slot span c e : Nat) : UnitAcc :=
  let b := if cal8 then e / 4 else e
  let (i, j) := blockPair b
  let first := if cal8 then 4096 * (e % 4) else 0
  let ws := (List.range (if cal8 then 4096 else 16384)).map fun k =>
    let w := first + k
    tileWord (causewaySample s cal8 slot span c (128 * i + w / 128))
      (causewaySample s cal8 slot span c (128 * j + w % 128)) (spanLen s * 256)
  ⟨ws.map (·.1), ws.countP (·.2)⟩

/-! ## Tiles, pool and map (R172) -/

/-- Tile state: 0 OFF, 1 POOL, 2 SERVICE, 3 TEST, 4 RETIRED. -/
def tileState (s : State) (t : Nat) : Nat := getF s (F.COR_TILE_STATE_STATE t)

/-- Set a tile's state and its unit. -/
def setTile (s : State) (t st unit : Nat) : State :=
  setF (setF s (F.COR_TILE_STATE_STATE t) st) (F.COR_TILE_STATE_UNIT t) unit

/-- No test runs: TEST_TILE. -/
abbrev noTile : Nat := 0x3FF

/-- Set the pool, with its count. -/
def setPool (s : State) (pool : List Nat) : State :=
  setF (setCor s fun c => { c with pool := pool }) F.COR_PATROL_STATUS_POOL pool.length

/-- PATROL_HALT shows a map without a pool tile while no tile is in TEST that could join the pool (R191). -/
def haltShow (s : State) : State :=
  refreshLevels (setF s F.COR_STATUS_PATROL_HALT (ofBool (s.cor.pool.isEmpty && s.cor.built.isSome &&
    s.cor.waitTest.isEmpty && getF s F.COR_PATROL_STATUS_TEST_TILE == noTile)))

/-- Work units in use. -/
def unitsOf (s : State) : Nat := getF s F.COR_USE_UNITS

/-- The tile of unit `e`, if it has one. -/
def tileOf (s : State) (e : Nat) : Option Nat :=
  if flag s (F.COR_MAP_IN_USE e) ∧ ¬ flag s (F.COR_MAP_LOST e) then some (getF s (F.COR_MAP_TILE e)) else none

/-- Entry `k` of the order list. -/
def orderEntry (s : State) (k : Nat) : Nat :=
  if k % 2 = 0 then getF s (F.COR_ORDER_EVEN (k / 2)) else getF s (F.COR_ORDER_ODD (k / 2))

/-- The tiles of the order list, without those above 543 or named before (R172). -/
def orderList (s : State) : List Nat :=
  (List.range 544).foldl (fun l k =>
    let t := orderEntry s k
    if 543 < t ∨ t ∈ l then l else l ++ [t]) []

/-- A tile takes unit `e`, to compute from a span and channel on (R172, R187). -/
def giveUnit (s : State) (t e span c : Nat) : State :=
  let s := setTile s t 2 e
  let s := setR (setR s (R.COR_TILE_SINCE_LO t) (span % 2 ^ 32)) (R.COR_TILE_SINCE_HI t) (c * 2 ^ 16 + span / 2 ^ 32)
  setR s (R.COR_MAP e) (2 ^ 31 + t)

/-- Build the map for a mode: unit e to the e-th usable tile of the order list; the rest is the pool (R172). NEXT_UNIT stays
where it was, or goes to 0 past the units in use (DESIGN CHOICE, log entry 59). -/
def buildMap (s : State) (cal8 : Bool) (span : Nat) : State :=
  let usable := (orderList s).filter fun t => tileState s t == 1 || tileState s t == 2
  let units := if cal8 then 4 * min (blocksOf s) 120 else blocksOf s
  let s := setF (setF s F.COR_USE_UNITS units) F.COR_USE_GROUPS (groupsOf s)
  let s := (List.range 528).foldl (fun s e => setR s (R.COR_MAP e) (if e < units then 3 * 2 ^ 30 else 0)) s
  let s := usable.foldl (fun s t => setTile s t 1 0) s
  let s := (usable.zipIdx.take units).foldl (fun s (t, e) => giveUnit s t e span 0) s
  let s := setPool (setCor s fun c => { c with
    built := some cal8, released := c.released.drop fun t => t ∈ usable }) (usable.drop units)
  let s := setF s F.COR_PATROL_STATUS_NEXT_UNIT
    (if getF s F.COR_PATROL_STATUS_NEXT_UNIT < units then getF s F.COR_PATROL_STATUS_NEXT_UNIT else 0)
  let s := haltShow s
  if usable.length < units then fault (setF s F.COR_STATUS_UNIT_LOST 1) 5 else s

/-- Units in use that have no tile. -/
def lostUnits (s : State) : List Nat := (List.range (unitsOf s)).filter fun e => (tileOf s e).isNone

/-- Blocks with a LOST unit; after EN is cleared the units are still those of the span in work. -/
def lostBlocks (s : State) : List Nat :=
  let per := if s.cor.built.getD (flag s F.COR_STATUS_MODE8) then 4 else 1
  ((lostUnits s).map (· / per)).eraseDups

/-! ## Spans and channels (R177, R178, R181 to R183) -/

/-- A channel is handed over as skipped. LOST goes with every record and counts; the channel in work takes its MEM_UE and
SAT along (R181, R184, R193). -/
def skipChannel (s : State) (span c status : Nat) : State :=
  let mine := s.cor.span == some span && getF s F.COR_STATUS_CHANNEL == c
  let s := bumpBy s R.COR_UNIT_LOST_COUNT (lostUnits s).length
  foldChannel s span c ⟨status, mine && !s.cor.cuts.isEmpty, [], if mine then s.cor.sat else [], lostBlocks s, [], false⟩

/-- Channels `c` to 63 of a span are skipped. -/
def skipFrom (s : State) (span c status : Nat) : State :=
  (List.range' c (64 - c)).foldl (fun s c => skipChannel s span c status) s

/-- Phase: 0 IDLE, 1 COMPUTE, 2 FLUSH, 3 DRAIN. -/
def corPhase (s : State) : Nat := getF s F.COR_STATUS_PHASE

/-- The correlator idles; MODE8 and CHANNEL keep what they showed last (DESIGN CHOICE, log entry 59). -/
def corIdle (s : State) : State :=
  setCor (setF s F.COR_STATUS_PHASE 0) fun c => { c with span := none, closed := false, acc := [], cuts := [], sat := [] }

/-- Channel `c` of the span in work begins its COMPUTE. -/
def corCompute (s : State) (c : Nat) : State :=
  setCor (setF (setF s F.COR_STATUS_PHASE 1) F.COR_STATUS_CHANNEL c) fun x => { x with acc := [], cuts := [], sat := [] }

/-- The window of span `span` closes at this tick (R30). -/
def corCloseTick (s : State) (span : Nat) : Nat := spanStart s span + 2 * spanLen s + 2

/-- The correlator does the work of a span's integration (R24, R25, R186). -/
def correlates (s : State) (span : Nat) : Bool :=
  let n := span / integLen s
  flag s F.COR_CTRL_EN && domOn s 23 && s.integ.first.any (· ≤ n) && !(n ∈ s.integ.dead : Bool) && !stopsInteg s n

/-- The integration of a span is being folded, from its first window's opening on (R217). -/
def beginFolding (s : State) (span : Nat) : State :=
  let n := span / integLen s
  if foldsInteg s n ∧ s.integ.folding.isNone then
    setF (setPair (setInteg s fun i => { i with folding := some n }) R.INT_INTEG_LO n) F.INT_STATUS_FOLD_SET (n % 2)
  else s

/-- After the last fold of an integration's last span it is no longer being folded; where the window of the next span has
opened already, its integration is (R217). -/
def foldingEnd (s : State) (span : Nat) : State :=
  if (span + 1) % integLen s = 0 ∧ s.integ.folding = some (span / integLen s) then
    let s := setInteg s fun i => { i with folding := none }
    if corCloseTick s span ≤ frameOf s then beginFolding s (span + 1) else s
  else s

/-- Why the correlator does no work on a span, as the STATUS of its channels: not stored, or in 8-bit mode in too large a
domain (R177, R183). -/
def corIdles (s : State) (span : Nat) : Option Nat :=
  if (slotOf s span).isNone then some 4
  else if cal8Of s (spanStart s span) = true ∧ 1920 < domainSignals s then some 3
  else none

/-- Every channel of a span gets a STATUS without work; no window time is used (R177, R183). -/
def corPass (s : State) (span status : Nat) : State :=
  foldingEnd (skipFrom (setCor s fun c => { c with last := some span }) span 0 status) span

/-- Correlation of span `span` starts (R172, R178). -/
def corStart (s : State) (span : Nat) : State :=
  let cal8 := cal8Of s (spanStart s span)
  let s := setPair (setCor s fun c => { c with last := some span, waiting := none }) R.COR_SPAN_LO span
  let s := setF s F.COR_STATUS_MODE8 (ofBool cal8)
  let s := if s.cor.built = some cal8 then s else buildMap s cal8 span
  corCompute (setCor s fun c => { c with span := some span, closed := false }) 0

/-- The correlator can take a span: its map is built, no drain runs on and no abort is in progress (R182, R185, R192). -/
def corReady (s : State) : Bool := s.cor.built.isSome && s.cor.span.isNone && !flag s F.COR_STATUS_ABORT_BUSY

/-- A span whose window opened waits for its turn no longer, if its window is still open (R182, R185). -/
def corNext (s : State) : State :=
  match s.cor.waiting with
  | some n =>
    if corReady s = true ∧ frameOf s < corCloseTick s n ∧ correlates s n then corStart s n else s
  | none => s

/-- The rest of the span in work from channel `c` on is overrun (R182). -/
def corOverrun (s : State) (span c : Nat) : State :=
  let s := skipFrom (bumpBy s R.COR_SKIP_COUNT (64 - c)) span c 1
  let s := setF (setF (bump s R.COR_OVERRUN_COUNT) F.COR_STATUS_OVERRUN 1) F.COR_SLACK_TIME 0
  fault (raise s 27) 13

/-- The channel in work and those after it are skipped by an abort, which starts now (R185). `COR_SLACK` keeps the value of
the span before (DESIGN CHOICE, log entry 59). -/
def corAbortFrom (s : State) (span c : Nat) : State :=
  let s := foldingEnd (skipFrom (bumpBy s R.COR_ABORT_COUNT (64 - c)) span c 2) span
  corIdle (setCor s fun x => { x with abortDue := false })

/-- An abort-drain: ABORT_BUSY from now; in a DRAIN phase it waits for the drain's end (R185). -/
def corAbort (s : State) : State :=
  let s := setF s F.COR_STATUS_ABORT_BUSY 1
  match s.cor.span with
  | some span =>
    if corPhase s = 3 then setCor s fun c => { c with abortDue := true }
    else corAbortFrom s span (getF s F.COR_STATUS_CHANNEL)
  | none => s

/-! ## Patrol (R187 to R193) -/

/-- The next waiting tile is tested, when no test runs; from the boundary after PATROL_EN was cleared none begins (R189,
R192, R193). -/
def testNext (s : State) : State :=
  if getF s F.COR_PATROL_STATUS_TEST_TILE ≠ noTile ∨ s.cor.startup ≠ [] ∨
      (flag s F.COR_CTRL_PATROL_EN = false ∧ s.cor.patrol = false) then s
  else match s.cor.waitTest with
    | t :: rest =>
      let s := setCor s fun c => { c with waitTest := rest }
      setF (setTile s t 3 0) F.COR_PATROL_STATUS_TEST_TILE t
    | [] => s

/-- The first unit from `e` on, in rotation, that is not LOST (R187). -/
def nextUnit (s : State) (e : Nat) : Option Nat :=
  ((List.range (unitsOf s)).map fun i => (e + i) % unitsOf s).find? fun u => (tileOf s u).isSome

/-- Patrol's move at the boundary after channel `c` of span `span`; a test that waited for PATROL_EN may begin (R187, R190
to R192). -/
def patrolMove (s : State) (span c : Nat) : State :=
  let en := flag s F.COR_CTRL_PATROL_EN
  let s := setCor s fun x => { x with patrol := en }
  let s := if en then testNext s else s
  if ¬ en ∨ unitsOf s = 0 then s
  else match s.cor.pool with
    | [] => bump s R.COR_PATROL_SKIP_COUNT
    | t :: pool =>
      match nextUnit s (getF s F.COR_PATROL_STATUS_NEXT_UNIT) with
      | none => s
      | some e =>
        let old := (tileOf s e).getD 0
        let nspan := if c = 63 then span + 1 else span
        let nc := (c + 1) % 64
        let s := setPool s pool
        let s := giveUnit s t e nspan nc
        let s := setTile s old 3 0
        let s := setCor s fun x => { x with
          released := x.released.put old (e, nspan, nc), waitTest := old :: x.waitTest }
        let s := setF s F.COR_PATROL_STATUS_NEXT_UNIT ((e + 1) % unitsOf s)
        haltShow (testNext (bump s R.COR_PATROL_MOVE_COUNT))

/-- The start-up tests have ended: the map is built, and a window that waited begins (R172, R192). SINCE names the first span
that can be correlated: the one that waits, or the next whose window opens, counted by local time while no START has named
an integration (DESIGN CHOICE, log entry 59). -/
def startupDone (s : State) : State :=
  let open' := if frameOf s < spanLen s + 2 then 0 else (frameOf s - spanLen s - 2) / spanLen s + 1
  let next := match s.cor.waiting with
    | some n => n
    | none => max (s.integ.first.getD 0 * integLen s) open'
  corNext (buildMap s (cal8Of s (spanStart s next)) next)

/-- Channel records in the suspect range of a unit's block get SUSPECT, where their product is not yet in staging (R190,
R201, R212). Positions are 64 × span + channel. -/
def markSuspect (s : State) (block lo hi : Nat) : State :=
  let mark := fun (e : Nat × ChanRec) =>
    let pos := fun (m : Nat) => 64 * (e.1 / 64 * integLen s + m) + e.1 % 64
    let hit := fun (m : Nat) => lo ≤ pos m && pos m ≤ hi
    if e.2.entries.any (fun x => hit x.1) then
      (e.1, { e.2 with
        blocks := e.2.blocks.upd 0 block (· ||| 8)
        entries := e.2.entries.map fun (m, w) => (m, if hit m then w ||| 256 else w) })
    else e
  setInteg s fun i => { i with recs := i.recs.map mark }

/-- Tile `t` has failed two passes: RETIRED, PATROL_FAIL, and the suspect range of the unit it held, if it computed any
channel of it (R189, R190). -/
def retireTile (s : State) (t : Nat) : State :=
  let s := setB (setTile s t 4 0) (R.COR_RETIRED (t / 32)) (t % 32) true
  let s := fault (raise (bumpF s F.COR_RETIRED_COUNT_COUNT) 18) 3
  match s.cor.released.find t with
  | some (e, nspan, nc) =>
    let hi := 64 * nspan + nc - 1
    let lospan := getR s (R.COR_TILE_SINCE_LO t) + getR s (R.COR_TILE_SINCE_HI t) % 2 ^ 16 * 2 ^ 32
    let lo := 64 * lospan + bitsOf (getR s (R.COR_TILE_SINCE_HI t)) 21 16
    let s := setCor s fun c => { c with released := c.released.drop (· == t) }
    if hi < lo then s
    else
      let s := setR s R.COR_SUSPECT (t * 2 ^ 22 + e * 2 ^ 12 + lo % 64 * 2 ^ 6 + hi % 64)
      let s := setPair (setPair s R.COR_SUSPECT_FROM_LO lospan) R.COR_SUSPECT_TO_LO (hi / 64)
      markSuspect s (if cal8Of s (spanStart s (hi / 64)) then e / 4 else e) lo hi
  | none => s

/-- After a start-up test, or a sector off: the next one, or the map is built (R192). -/
def startupGo (s : State) : State :=
  match s.cor.startup with
  | [] => if flag s F.COR_CTRL_EN then haltShow (testNext (startupDone s)) else s
  | u :: _ => setF s F.COR_PATROL_STATUS_TEST_TILE u

/-- The test of tile `t` ends: it joins the pool or is retired; another may begin, or the map be built (R189, R192). -/
def testEnd (s : State) (t : Nat) (pass : Bool) : State :=
  let s := setCor s fun c => { c with second := c.second.erase t }
  let s := if pass then
      let s := setCor (setTile s t 1 0) fun c => { c with released := c.released.drop (· == t) }
      if s.cor.built.isSome then setPool s (s.cor.pool ++ [t]) else s
    else retireTile s t
  let s := if getF s F.COR_PATROL_STATUS_TEST_TILE = t then setF s F.COR_PATROL_STATUS_TEST_TILE noTile else s
  if t ∈ s.cor.startup then
    let s := setCor s fun c => { c with startup := c.startup.erase t }
    startupGo s
  else haltShow (testNext s)

/-- A self-test pass of tile `t` ends with a signature (R188, R189). THROTTLE suspends the tests of patrol (R456). -/
def patrolPass (s : State) (t : Nat) (sig : Word) : State :=
  if tileState s t = 3 ∧ t ∉ s.cor.waitTest ∧ (t ∈ s.cor.startup ∨ ¬ flag s F.PWR_STATUS_THROTTLE) then
    let ok := sig == rd s R.COR_GOLD_SIG
    let s := bump (wr s (R.COR_TILE_SIG t) sig) (R.COR_TILE_PASS_COUNT t)
    let s := setF s (F.COR_TILE_STATE_MISMATCH_LAST t) (ofBool !ok)
    if ok then testEnd s t true
    else
      let s := bump (bump s (R.COR_TILE_MISMATCH_COUNT t)) R.COR_PATROL_MISMATCH_COUNT
      if t ∈ s.cor.second then testEnd s t false
      else setCor s fun c => { c with second := t :: c.second }
  else s

/-- Setting EN: every usable tile runs one test before the map is built (R192). -/
def corEnable (s : State) : State :=
  if flag s F.COR_CTRL_EN then s
  else
    let s := setF s F.COR_CTRL_EN 1
    let tiles := (List.range 544).filter fun t => tileState s t == 1 || tileState s t == 2
    let s := haltShow (setPool (setCor s fun c => { c with built := none, waiting := none }) [])
    let s := tiles.foldl (fun s t => setTile s t 3 0) s
    let s := setCor s fun c => { c with startup := c.startup ++ tiles }
    match s.cor.startup with
    | [] => startupDone s
    | t :: _ => setF s F.COR_PATROL_STATUS_TEST_TILE t

/-- The span and channel that a tile in service would compute next, from an abort-drain on (R185, R190). -/
def corPosition (s : State) : Option (Nat × Nat) :=
  match s.cor.span with
  | some span =>
    let c := getF s F.COR_STATUS_CHANNEL
    some (if corPhase s ≠ 3 then (span, c) else if c = 63 then (span + 1, 0) else (span, c + 1))
  | none => s.cor.last.map fun span => (span + 1, 0)

/-- The tiles in service that meet `p` are released from their units, which they computed up to a position (R190). -/
def releaseTiles (s : State) (p : Nat → Bool) (pos : Option (Nat × Nat)) : State :=
  match pos with
  | some q =>
    (List.range (unitsOf s)).foldl (fun s e =>
      match tileOf s e with
      | some t => if p t then setCor s fun c => { c with released := c.released.put t (e, q.1, q.2) } else s
      | none => s) s
  | none => s

/-- Every tile in service is released from its unit (R186, R190). -/
def releaseAll (s : State) : State := releaseTiles s (fun _ => true) (corPosition s)

/-- The span and channel that a tile whose accumulators are dropped now has not computed: the channel in work (R190, R193). -/
def dropPosition (s : State) : Option (Nat × Nat) :=
  match s.cor.span with
  | some span => some (span, getF s F.COR_STATUS_CHANNEL)
  | none => corPosition s

/-- Clearing EN: an abort-drain, then idle; a test in progress completes, waiting ones do not begin (R186). -/
def corDisable (s : State) : State :=
  if flag s F.COR_CTRL_EN then
    let s := corAbort (releaseAll (setF s F.COR_CTRL_EN 0))
    let s := s.cor.waitTest.foldl (fun s t => setTile s t 1 0) s
    setCor s fun c => { c with built := none, waiting := none, waitTest := [] }
  else s

/-- Sector `m` is switched off: its units become LOST, all its tiles read OFF (R193). What a tile in service has computed
since its last test stays suspect until its next one (R190). With EN clear the units that the map still names are marked
LOST as well (DESIGN CHOICE, log entry 59). -/
def sectorOff (s : State) (m : Nat) : State :=
  let mine := fun t => t / 68 == m
  let was := s.cor.startup
  let held := (List.range (unitsOf s)).filter fun e => (tileOf s e).any mine
  let s := if s.cor.built.isSome then releaseTiles s mine (dropPosition s) else s
  let s := held.foldl (fun s e => setF s (F.COR_MAP_LOST e) 1) s
  let s := if held = [] then s else fault (setF s F.COR_STATUS_UNIT_LOST 1) 5
  let s := (List.range' (68 * m) 68).foldl (fun s t => setTile s t 0 0) s
  let s := setCor s fun c => { c with
    acc := c.acc.drop fun e => e ∈ held
    startup := c.startup.filter fun t => !mine t
    waitTest := c.waitTest.filter fun t => !mine t
    second := c.second.filter fun t => !mine t }
  let starting := s.cor.built.isNone && was.any mine
  let s := setPool s (s.cor.pool.filter fun t => !mine t)
  let s := if mine (getF s F.COR_PATROL_STATUS_TEST_TILE) then
      testNext (setF s F.COR_PATROL_STATUS_TEST_TILE noTile) else s
  if starting then startupGo s else haltShow s

/-- Sector `m` returns to ON: its tiles wait to be tested while EN is set, and are usable at once otherwise; a retired tile
reads RETIRED again (R189, R193). With EN clear a usable tile reads POOL, though no map counts it (DESIGN CHOICE, log entry
59). -/
def sectorOn (s : State) (m : Nat) : State :=
  let retired := fun t => getB s (R.COR_RETIRED (t / 32)) (t % 32)
  let tiles := (List.range' (68 * m) 68).filter fun t => !retired t
  let s := ((List.range' (68 * m) 68).filter retired).foldl (fun s t => setTile s t 4 0) s
  if flag s F.COR_CTRL_EN then
    testNext (setCor s fun c => { c with waitTest := c.waitTest ++ tiles })
  else tiles.foldl (fun s t => setTile s t 1 0) s

/-! ## The commands -/

/-- COMPUTE_COMPLETE: the channel's last spectrum is delivered; every tile holds its words, those that saturated are
counted, and VALID is taken (R170 to R178, R181). -/
def execComputeComplete (s : State) : Res :=
  run (fun s =>
    match s.cor.span with
    | some span =>
      if corPhase s ≠ 1 then s
      else
        let cal8 := flag s F.COR_STATUS_MODE8
        let slot := (slotOf s span).getD 0
        let c := getF s F.COR_STATUS_CHANNEL
        let s := causewayReads s slot span
        let units := (List.range (unitsOf s)).filter fun e => (tileOf s e).isSome
        let acc := units.foldl (fun (m : SMap UnitAcc) e => SMap.put m e (unitWords s cal8 slot span c e)) []
        let valid := (List.range (spanLen s)).map fun t => s.xr.valid.get 0 (spanStart s span + t)
        let sat := ((acc.filter fun u => 0 < u.2.sat).map fun u => u.1 / (if cal8 then 4 else 1)).eraseDups
        let s := acc.foldl (fun s (e, u) => bumpBy s (R.COR_TILE_SAT_COUNT ((tileOf s e).getD 0)) u.sat) s
        let s := bumpBy s R.COR_SAT_COUNT sat.length
        setF (setCor s fun x => { x with acc := acc, valid := valid, sat := sat }) F.COR_STATUS_PHASE 2
    | none => s) s

/-- FLUSH_COMPLETE: the adder tree is empty and DRAIN begins (R178, R179). -/
def execFlushComplete (at' : Nat) (s : State) : Res :=
  run (fun s =>
    let s := advanceTo s at'
    if corPhase s = 2 then
      setCor (setF s F.COR_STATUS_PHASE 3) fun c => { c with drainAt := s.counter.toNat }
    else s) s

/-- The drain of the channel in work ends: record, fold, counters and patrol (R175, R178, R181, R187, R199). -/
def drainEnd (s : State) (span : Nat) : State :=
  let c := getF s F.COR_STATUS_CHANNEL
  let cal8 := flag s F.COR_STATUS_MODE8
  let per := if cal8 then 4 else 1
  let lostUnits := ((List.range (unitsOf s)).filter fun e => (s.cor.acc.find e).isNone)
  let s := bumpBy s R.COR_UNIT_LOST_COUNT lostUnits.length
  let dur := min 0xFFFF ((s.counter.toNat - s.cor.drainAt) / 80)
  let s := setF (setF s F.COR_DRAIN_LAST_TIME dur) F.COR_DRAIN_MAX_TIME (max dur (getF s F.COR_DRAIN_MAX_TIME))
  let s := foldChannel s span c
    ⟨0, !s.cor.cuts.isEmpty, s.cor.valid, s.cor.sat, (lostUnits.map (· / per)).eraseDups, s.cor.acc, cal8⟩
  patrolMove s span c

/-- DRAIN_COMPLETE: the channel boundary is reached: the next channel, the abort that waited, the span that waits, or
idle (R178, R182, R185). -/
def execDrainComplete (at' : Nat) (s : State) : Res :=
  run (fun s =>
    let s := advanceTo s at'
    match s.cor.span with
    | some span =>
      if corPhase s ≠ 3 then s
      else
        let s := drainEnd s span
        let c := getF s F.COR_STATUS_CHANNEL
        if s.cor.closed then
          let s := if c = 63 then setF s F.COR_SLACK_TIME 0 else s
          corNext (corIdle (foldingEnd (setCor s fun x => { x with abortDue := false }) span))
        else if c = 63 then
          let slack := (frameStart (corCloseTick s span) - s.counter.toNat) / 8000
          let s := setF s F.COR_SLACK_TIME (min 0xFFFF slack)
          corIdle (foldingEnd (setCor s fun x => { x with abortDue := false }) span)
        else if s.cor.abortDue then corAbortFrom s span (c + 1)
        else corCompute s (c + 1)
    | none => s) s

/-- The window of span `n` closes: what is not finished is overrun, what has no record is folded as NO_RECORD, the slot is
DONE; a span whose window opened at this tick starts (R163, R182, R201). -/
def corWindowClose (s : State) (n : Nat) : State :=
  let s := if s.cor.span = some n then
      let c := getF s F.COR_STATUS_CHANNEL
      if corPhase s = 3 then
        let s := setCor s fun x => { x with closed := true }
        if c = 63 then s else corOverrun s n (c + 1)
      else corIdle (corOverrun s n c)
    else if s.cor.waiting = some n ∨ (correlates s n ∧ jumpedOver s (spanStart s n + spanLen s + 2) ∧
        s.cor.last.all (· < n)) then
      corOverrun (setCor s fun x => { x with waiting := if x.waiting = some n then none else x.waiting }) n 0
    else s
  let s := (List.range 64).foldl (fun s c =>
    if s.cor.span = some n ∧ c = getF s F.COR_STATUS_CHANNEL then s
    else if ((chanRec s (n / integLen s) c).entries.find (n % integLen s)).isSome then s
    else foldChannel s n c ⟨5, false, [], [], [], [], false⟩) s
  let s := if s.cor.span = some n then s else foldingEnd s n
  corNext ((spanSlots s n).foldl (fun s k => setSlotState s k 3) s)

/-- CORRELATION_WINDOW_CLOSE (R182). -/
def execCorrelationWindowClose (n : Nat) (s : State) : Res :=
  run (fun s =>
    if corCloseTick s n ≤ frameOf s ∧ s.cor.lastClosed.all (· < n) then
      corWindowClose (setCor s fun c => { c with lastClosed := some n }) n
    else s) s

/-- The windows of the spans in work and waiting that close at this tick close before another opens at it (R30, R182). -/
def corCloseDue (s : State) (n : Nat) : State :=
  match s.cor.waiting with
  | some m =>
    if m < n ∧ corCloseTick s m ≤ frameOf s ∧ s.cor.lastClosed.all (· < m) then
      corWindowClose (setCor s fun c => { c with lastClosed := some m }) m
    else s
  | none => s

/-- CORRELATION_WINDOW_OPEN: at tick s·S + S + 2, or at the first tick after a step that jumped over it, while the window
has not closed. A span without work passes at once; another waits while the one before, the start-up tests or an abort
still run (R30, R163, R177, R182, R183, R185, R192, R483). -/
def execCorrelationWindowOpen (n : Nat) (s : State) : Res :=
  run (fun s =>
    if frameOf s < spanStart s n + spanLen s + 2 ∨ corCloseTick s n ≤ frameOf s then s
    else
      let s := corCloseDue s n
      let s := (spanSlots s n).foldl (fun s k => if getF s (F.XR_SLOT_STATE k) = 1 then setSlotState s k 2 else s) s
      let s := beginFolding s n
      if ¬ correlates s n ∨ s.cor.waiting.isSome ∨ s.cor.last.any (n ≤ ·) then s
      else match corIdles s n with
        | some st => corPass s n st
        | none => if corReady s then corStart s n else setCor s fun c => { c with waiting := some n }) s

/-- COR_ENABLE (R192). -/
def execCorEnable (s : State) : Res := run corEnable s

/-- COR_DISABLE (R186). -/
def execCorDisable (s : State) : Res := run corDisable s

/-- COR_ABORT (R185). -/
def execCorAbort (s : State) : Res := run corAbort s

/-- ABORT_DRAIN_COMPLETE: every tile is idle; a span that waited is correlated in what remains of its window (R185). -/
def execAbortDrainComplete (s : State) : Res :=
  run (fun s =>
    if flag s F.COR_STATUS_ABORT_BUSY ∧ ¬ s.cor.abortDue then corNext (setF s F.COR_STATUS_ABORT_BUSY 0) else s) s

/-- PATROL_PASS_COMPLETE (R189). -/
def execPatrolPassComplete (t : Fin 544) (sig : Word) (s : State) : Res := run (patrolPass · t sig) s

/-- CAUSEWAY_READ_UE: a failed read of spectrum `k` of frame `fr` of the span, in the channel in work, at the 64-byte line
`line` of the spectrum: its signals are cut from there and cleared in the validity record (R184), and the read is reported
(R306). -/
def execCausewayReadUe (fr : Nat) (k : Fin 256) (line : Fin 64) (s : State) : Res :=
  run (fun s =>
    match s.cor.span with
    | some span =>
      if corPhase s = 1 ∧ fr < spanLen s then
        let s := match slotOf s span with
          | some slot => (badLinesIn s (causewayLine s slot span fr k line) 64).foldl (fun s l => lineReport s 3 l) s
          | none => s
        causewayCut s span fr k line
      else s
    | none => s) s

end Sys2Proof.Machine
end

