-- ==== Sys2Proof/Machine/DataPath.lean ====
section
/-! DEFINITION. The commands of the data path that act on several units: frames of the lanes, ingest close, spectra,
packets, the exchange fix and final beams. -/

namespace Sys2Proof.Machine

/-! ## Ingest -/

/-- An INGEST frame came in whose samples, or some of them, were read at the read point before its EOF: a late input of
its lane in that frame (R105). -/
def lateHook (s : State) (n : Nat) (f : RxFrame) : State :=
  let idx := frField f 8 8
  if idx + 131072 ≤ f.eofAt then
    setChz (bump s (R.CHZ_LATE_INPUT n)) fun c => { c with late := (n, idx / 2 ^ 21) :: c.late }
  else s

/-- The header of an INGEST frame passes every test that can be made at SOF, so that the impulse tap takes its payload
cut-through (R106). -/
def tapTakes (s : State) (n : Nat) (f : RxFrame) : Bool :=
  linkState s n == 5 && n < 16 && headerOk f && frByte f 0 == 1 && frField f 2 2 == 16384 && typeAllowed s n 1 &&
    getB s R.LNK_ING_EN n && frField f 8 8 % 4096 == 0 && frField f 6 2 == getR s R.LNK_SIGNAL_BASE + 4 * n &&
    !(frField f 8 8 ∈ (ingestLane s n).accepted : Bool) && ingestClass s { f with eofAt := f.sofAt } == .onTime

/-- The impulse tap has the frame before its EOF is checked (R106, R249). -/
def tapFirst (s : State) (n : Nat) (f : RxFrame) : State × Bool :=
  if tapTakes s n f then (impulseTap (advanceTo s f.sofAt) n f, true) else (s, false)

/-- A RETRACT record, if the tap had taken the frame (R249). -/
def retractIf (taken : Bool) (s : State) (n : Nat) (f : RxFrame) : State :=
  if taken then retract s n (frField f 8 8) else s

/-- An INGEST frame on lane `n` (R81 to R87, R96, R105, R249). Only a discard under R81 or R82 retracts. On a lane that is not enabled it is discarded
without any other count (R96). -/
def ingestReceived (s : State) (n : Nat) (f : RxFrame) : State :=
  let (s, taken) := tapFirst s n f
  if taken ∧ ¬ (lengthOk f && f.eofInPlace) then retract (receive s n 1 f id) n (frField f 8 8)
  else receive s n 1 f fun s =>
    if getB s R.LNK_ING_EN n then ingestFrame s n f (fun s => lateHook s n f) else s

/-- INGEST_FRAME_RECEIVED. -/
def execIngestFrameReceived (n : Fin 56) (f : RxFrame) (s : State) : Res := run (ingestReceived · n f) s

/-- A K27.7 inside a frame drops the frame in progress, of which `f` holds what came: a whole header that fails
counts as a header error, anything else as a length error (R82). -/
def sofInside (s : State) (n : Nat) (f : RxFrame) : State :=
  if linkState s n ≠ 5 then s
  else
    let (s, taken) := tapFirst s n f
    let s := advanceTo s f.eofAt
    let s := if 32 ≤ f.header.length ∧ ¬ headerOk f then bump s (R.LNK_HDR_ERR n) else bump s (R.LNK_LEN_ERR n)
    retractIf taken s n f

/-- SOF_INSIDE_FRAME. -/
def execSofInsideFrame (n : Fin 56) (f : RxFrame) (s : State) : Res := run (sofInside · n f) s

/-- The ingest close of frame `f`, from which on its samples are final for the raw ring; in a replay the segment takes the
logged validity (R30, R98, R258, R437). -/
def ingestCloseAll (s : State) (f : Nat) : State :=
  let fresh := (s.ingestValid.find f).isNone
  let s := ingestClose s f
  if fresh ∧ (s.ingestValid.find f).isSome = true ∧ rawOn s f = true then rawQueue s f (inputValid s f) else s

/-- INGEST_CLOSE. -/
def execIngestClose (f : Nat) (s : State) : Res := run (ingestCloseAll · f) s

/-- SIGNPOST_FRAME_RECEIVED (R91, R256). -/
def execSignpostFrameReceived (n : Fin 56) (f : RxFrame) (s : State) : Res :=
  run (fun s => receive s n 4 f fun s => signpostReceive s (getF s (F.LANE_USE_LINK n)) f) s

/-! ## Spectra and packets -/

/-- Spectrum `k` of frame `f` leaves the channelizer and is digested; the packet it completes is ready (R127, R135,
R143, R463). -/
def spectrumDone (s : State) (f k late : Nat) : State :=
  let s := advanceTo s (spectrumOutAt f k)
  if s.counter.toNat < spectrumOutAt f k ∨ (s.chz.confs.find f).isNone ∨ (s.chz.output.find (256 * f + k)).isSome then s
  else
    let s := chzSpectrum s f k late
    let s := digestCrc s (f / spanLen s) 0 (s.chz.output.get [] (256 * f + k))
    let cal8 := cal8Of s f
    if ¬ xrRuns s f then setChz s fun z => { z with output := z.output.drop (· ≤ 256 * f + k) }
    else if cal8 then packetsReady s f k 1 beamEnter
    else if k % 2 = 1 then packetsReady s f (k - 1) 2 beamEnter
    else s

/-- SPECTRUM_COMPLETE. -/
def execSpectrumComplete (f : Nat) (k : Fin 256) (missed : BitVec 4) (s : State) : Res :=
  run (spectrumDone · f k missed.toNat) s

/-- XCH_FRAME_RECEIVED (R148 to R155). -/
def execXchFrameReceived (n : Fin 56) (f : RxFrame) (full : Bool) (s : State) : Res :=
  run (fun s => receive s n 2 f fun s =>
    xchReceive (countPayloadCv s n f) (getF s (F.LANE_USE_LINK n)) f full beamEnter) s

/-- Tick f + 3: the exchange of frame `f` is fixed and its beams are complete (R153, R239). -/
def exchangeFixAll (s : State) (f : Nat) : State :=
  if fixDue s f then
    let s := exchangeFix s f
    let excl := bfmRuns s f && (List.range (domainSignals s)).any fun p => beamCount s f p != 256
    let s := if excl then setBfm s fun b => { b with excluded := (f :: b.excluded).take 16 } else s
    beamComplete s f
  else s

/-- POST_EXCHANGE_FIX. -/
def execPostExchangeFix (f : Nat) (s : State) : Res := run (exchangeFixAll · f) s

/-- The send point of a spectrum, and where the chip forms final beams the beam search over them, which a spectrum in
calibration mode clears (R231, R233, R250). -/
def sendPointAll (s : State) (f n : Nat) : State :=
  let s := advanceTo s (sendPoint s f n)
  if bfmRuns s f ∧ sendPoint s f n ≤ s.counter.toNat ∧ s.bfm.lastSend.all (· < 256 * f + n) then
    if cal8Of s f then beamSearchAt (setBfm s fun b => { b with lastSend := some (256 * f + n) }) f n true
    else
      let s := sendPointAct s f n
      if (chainPos s).1 = (chainPos s).2 then beamSearchAt s f n false else s
  else s

/-- RELAY_SEND_POINT. -/
def execRelaySendPoint (f : Nat) (n : Fin 256) (s : State) : Res := run (sendPointAll · f n) s

end Sys2Proof.Machine
end

