-- ==== Sys2Proof/Machine/Run.lean ====
section
/-! DEFINITION. The run of the data path: START, STOP, the end of a stop, and the work due at tick FS (R24, R25). -/

namespace Sys2Proof.Machine

/-- Change what the supervisor and the tick logic hold. -/
def setArch (s : State) (f : Arch → Arch) : State := { s with arch := f s.arch }

/-- EN of `BFM_CTRL` (R240). -/
def setBfmEnable (s : State) (en : Bool) : State :=
  setF (setF s F.BFM_CTRL_EN (ofBool en)) F.BFM_STATUS_RUNNING (ofBool en)

/-- The data path is enabled to run from frame `f0` (R24): RUN bits rise for the fill frame `f0` − 1 (R130), the EN bits are
set, and the fold unit begins with the first integration whose first frame is at or after `f0` (R217). -/
def startRun (s : State) (f0 : Nat) : State :=
  let si := spanLen s * integLen s
  let s := setArch s fun a => { a with running := true, startFrame := f0, stopFrame := none }
  let s := setChz s fun c => { c with armRun := some (f0 - 1) }
  let s := setXr (setXrEnable s true) fun x => { x with
    lastFixed := none, lastSpan := none, accepted := [], got := [], losses := [] }
  let s := setCor (corEnable s) fun c => { c with last := none, lastClosed := none }
  let s := setInteg (setIntEnable s true) fun i => { i with first := some ((f0 + si - 1) / si), lastDone := none }
  let s := setBfm (setBfmEnable s true) fun b => { b with lastPoint := none, lastSend := none }
  setTrgEnable s true

/-- What START answers: NOT_READY while the data path runs or a STOP has not taken effect, TIMING without valid time or
with a start frame less than 4 frames ahead (R24, R322). -/
def startStatus (s : State) (f0 : Nat) : Nat :=
  if s.arch.running then stNotReady
  else if ¬ flag s F.CLK_STATUS_TIME_VALID ∨ f0 < frameOf s + 4 then stTiming
  else stOk

/-- The START command. -/
def start (s : State) (src : CmdSource) (tag f0 : Nat) : State :=
  serve s src 3 tag (leBytes 6 f0) fun s =>
    let st := startStatus s f0
    respond (if st = stOk then startRun s f0 else s) src 3 tag st 0 []

/-- START. -/
def execStart (src : CmdSource) (tag : Word) (f0 : BitVec 48) (s : State) : Res :=
  run (start · src tag.toNat f0.toNat) s

/-- What STOP answers: TIMING for a stop frame already started (R25). While the data path is stopped R25 gives such a frame
both TIMING and OK: the model answers TIMING (DESIGN CHOICE, log entry 55). -/
def stopStatus (s : State) (fs : Nat) : Nat := if fs ≠ 0 ∧ fs < nextTick s then stTiming else stOk

/-- The STOP command (R25). While an earlier STOP has not taken full effect it changes nothing (log entry 40). -/
def stop (s : State) (src : CmdSource) (tag fs : Nat) : State :=
  serve s src 4 tag (leBytes 6 fs) fun s =>
    let st := stopStatus s fs
    let frame := if fs = 0 then nextTick s else fs
    let s := if st = stOk ∧ s.arch.running ∧ s.arch.stopFrame.isNone then
        setArch s fun a => { a with stopFrame := some frame }
      else s
    respond s src 4 tag st 0 []

/-- STOP. -/
def execStop (src : CmdSource) (tag : Word) (fs : BitVec 48) (s : State) : Res :=
  run (stop · src tag.toNat fs.toNat) s

/-- The integration that contains the stop frame, unless it is its first frame, is abandoned; it counts if it is being
folded. Folding of another integration goes on (R25, R217). -/
def stopInteg (s : State) (fs : Nat) : State :=
  let si := spanLen s * integLen s
  let n := fs / si
  if fs % si = 0 then s
  else if n ∈ beingFolded s then abandonInteg s n
  else setInteg s fun i => { i with dead := n :: i.dead }

/-- The work due at tick FS of a STOP. -/
def stopTick (s : State) (f : Nat) : State :=
  match s.arch.stopFrame with
  | some fs => if s.arch.running ∧ (f = fs ∨ (fs < f ∧ jumpedOver s fs)) then unclaimFrom (stopInteg s fs) fs else s
  | none => s

/-- Integration `n` is one that a run which stops at `fs` reads out: it ends by `fs`, and it has folded or will (R25). -/
def readsOut (s : State) (fs n : Nat) : Bool :=
  integStart s (n + 1) ≤ fs && !(n ∈ s.integ.dead : Bool) &&
    ((flag s F.INT_CTRL_EN && s.integ.first.any (· ≤ n)) || owedReadout s n)

/-- The tick at which the last work of a run that stops at `fs` has ended: E + 2S + 2 of the last integration read out, or
FS + 4 if that is later (R25). Only the last few integrations can end their readout after FS + 4. -/
def stopEnd (s : State) (fs : Nat) : Nat :=
  let k := fs / (spanLen s * integLen s)
  (List.range 4).foldl (fun t j =>
    if j < k ∧ readsOut s fs (k - 1 - j) = true then max t (integStart s (k - j) + 2 * spanLen s + 2) else t) (fs + 4)

/-- The data path has stopped: a replay under way is over (R435; log entry 42). -/
def replayStop (s : State) : State :=
  if 4 ≤ getF s F.YDX_STATUS_STATE then
    let s := setF s F.YDX_STATUS_STATE 0
    if (13, s.ydx.replayTag) ∈ s.mail.running then notice s 13 s.ydx.replayTag stOk else s
  else s

/-- The data path is stopped: the supervisor clears the EN bits, and RUNNING reads 0 (R25). A CHANNELIZER region that waited
for a latch point, of which there is none any more, is written (R401; DESIGN CHOICE, log entry 48). -/
def stopRun (s : State) : State :=
  let s := reloadWrite (setChz s fun c => { c with armRun := none })
  let s := setXr (setF (setF s F.XR_CTRL_EN 0) F.XR_STATUS_RUNNING 0) fun x => { x with stopAt := none }
  let s := setTrgEnable (setBfmEnable (setIntEnable (corDisable s) false) false) false
  replayStop (setArch s fun a => { a with running := false, stopFrame := none })

/-- DATA_PATH_STOP_COMPLETE: at the tick of R25, the readouts ended. -/
def execDataPathStopComplete (s : State) : Res :=
  run (fun s =>
    match s.arch.stopFrame with
    | some fs => if s.arch.running ∧ stopEnd s fs ≤ frameOf s ∧ s.integ.readout.isNone then stopRun s else s
    | none => s) s

end Sys2Proof.Machine
end

