-- ==== Sys2Proof/Machine/Ydx.lean ====
section
/-! DEFINITION. Yodex: recording, streaming and replay (R429 to R438). -/

namespace Sys2Proof.Machine

/-- Change what Yodex holds. -/
def setYdx (s : State) (f : Ydx → Ydx) : State := { s with ydx := f s.ydx }

/-- `YDX_STATUS`.STATE. -/
def ydxState (s : State) : Nat := getF s F.YDX_STATUS_STATE

/-- Frames that region 4 holds (R429). -/
def ydxCapacity (s : State) : Nat := (regionSize s 4 - 0x4000000) / 0x8000000

/-- The layout of the seed and the log is not stated: the first 64 MiB of region 4 hold free bytes (R429, R431; log entry
42). -/
def ydxLogWrite (s : State) : State :=
  unitWrite (freeTaken s) 8 (regionBase s 4) ((Config.ydxLog s.free).take 0x4000000)

/-! ## Recording (R430 to R432) -/

/-- What YODEX_RECORD answers. -/
def recordStatus (s : State) (fs n : Nat) : Nat :=
  if ydxState s ≠ 0 ∨ (s.mail.running.any fun r => r.1 == 12 || r.1 == 13) = true then stBusy
  else if fs < frameOf s + 4 ∨ n = 0 ∨ ydxCapacity s < n then stBadArgs
  else stAccepted

/-- The YODEX_RECORD command (R430). -/
def yodexRecord (s : State) (src : CmdSource) (tag fs n : Nat) (stream : Bool) : State :=
  serve s src 12 tag (leBytes 6 fs ++ leBytes 2 0 ++ leBytes 4 n ++ leBytes 1 (ofBool stream)) fun s =>
    let st := recordStatus s fs n
    if st ≠ stAccepted then respond s src 12 tag st 0 []
    else
      let s := acceptAsync s src 12 tag
      { (setF s F.YDX_STATUS_STATE 1) with ydx := { tag, first := fs, count := n, stream } }

/-- YODEX_RECORD. -/
def execYodexRecord (src : CmdSource) (tag : Word) (fs : BitVec 48) (count : Word) (stream : Bool) (s : State) : Res :=
  run (yodexRecord · src tag.toNat fs.toNat count.toNat stream) s

/-- SAMPLE_INDEX of the INGEST frames of lane `n` that supplied frame `g` at the read point (R104, R431). -/
def presentOf (s : State) (n g : Nat) : List Nat :=
  (((ingestLane s n).held.filter fun h => h.index / 2 ^ 21 == g && h.at_ < h.index + 131072).map (·.index)).mergeSort

/-- The frame log entry of frame `g` beside the settings the latch point noted (R431). -/
def ydxLogEntry (s : State) (g : Nat) (gap : Bool) : YdxFrame :=
  { conf := (s.ydx.frames.find (g - s.ydx.first)).bind (·.conf)
    present := (List.range 16).map fun n => presentOf s n g
    ingestValid := s.ingestValid.get 0 g
    late := packBits ((List.range 16).map fun n => decide ((n, g) ∈ s.chz.late))
    gap
    base := getR s R.LNK_SIGNAL_BASE }

/-- At tick g + 2 frame `g` is in the recording: its samples, zeros included (R430), of the signals written; a frame that
was not fully written has GAP (R432). -/
def ydxCommit (s : State) (g : Nat) (written : Option (BitVec 64)) : State :=
  let k := g - s.ydx.first
  let ok := domOn s 29 && dramUsable s && guardOk s 8 (ydxAddr s k 0 0) 0x8000000 true
  let gap := !ok || written.isSome
  let s := if ok then (List.range 64).foldl (fun s i =>
      if written.all (·.getLsbD i) then unitWrite s 8 (ydxAddr s k i 0) (rawSamples s g i) else s) s
    else if domOn s 29 && dramUsable s then guardReport s 8 (ydxAddr s k 0 0) else s
  let s := ydxLogWrite s
  let s := if gap then setF (bump s R.YDX_GAP_COUNT) F.YDX_STATUS_GAP 1 else s
  let entry := ydxLogEntry s g gap
  setF (setYdx s fun y => { y with frames := y.frames.put k entry }) F.YDX_REC_FRAMES_N (k + 1)

/-- The recording begins: seed and log are open (R430, R431). -/
def recordBegin (s : State) : State :=
  let s := setF (setPair (setF s F.YDX_STATUS_STATE 2) R.YDX_REC_FIRST_LO s.ydx.first) F.YDX_REC_FRAMES_N 0
  { s with ydxSeed := { due := List.range 64, beamsDue := true } }

/-- The recording at the tick of frame `f`: begun at FS, and the frames up to f − 2 completed. -/
def recordTick (s : State) (f : Nat) (written : Option (BitVec 64)) : State :=
  let s := if ydxState s = 1 ∧ s.ydx.first ≤ f then recordBegin s else s
  if ydxState s = 2 then
    let from_ := s.ydx.first + getF s F.YDX_REC_FRAMES_N
    (List.range' from_ (min (f - 1) (s.ydx.first + s.ydx.count) - from_)).foldl (fun s g =>
      ydxCommit s g (if g + 2 = f then written else none)) s
  else s

/-- PD_29 goes off during a recording: it ends, and the frames not complete are marked GAP (R432). -/
def recordCut (s : State) : State :=
  let from_ := getF s F.YDX_REC_FRAMES_N
  let s := (List.range' from_ (s.ydx.count - from_)).foldl (fun s k =>
    let s := setF (bump s R.YDX_GAP_COUNT) F.YDX_STATUS_GAP 1
    let entry := ydxLogEntry s (s.ydx.first + k) true
    setYdx s fun y => { y with frames := y.frames.put k entry }) s
  setF (setYdx s fun y => { y with held := true, ended := true }) F.YDX_STATUS_STATE 0

/-! ## Streaming (R433) -/

/-- The lanes whose use is Yodex streaming. -/
def ydxLanes (s : State) : List Nat := (List.range 56).filter fun n => getF s (F.LANE_USE_TX_USE n) == 6

/-- One INGEST frame of the recording leaves: recorded frame `k`, lane `n`, SAMPLE_INDEX `idx`, and counts if its lane sends
it. Its DIGITIZER_ID and its other signal flags are free (log entry 42). -/
def ydxSend (s : State) (k n idx lane base valid : Nat) : State :=
  let v := (freeNext s).toNat
  let flags := fun j => (v / 2 ^ (16 + 2 * j) % 4) * 2 + ofBool (!bitOf valid (4 * n + j))
  let header := leBytes 1 1 ++ leBytes 1 0x10 ++ leBytes 2 16384 ++ leBytes 2 v ++
    leBytes 2 (base + 4 * n) ++ leBytes 8 idx ++
    (List.range 4).flatMap (fun j => leBytes 1 (flags j)) ++ leBytes 10 0
  let payload := (List.range 4096).flatMap fun t => (List.range 4).map fun j =>
    readByte s.dram (ydxAddr s k (4 * n + j) (idx % 2 ^ 21 + t))
  let s := sendOn (freeTaken s) [lane] header payload
  if laneIsUp s lane then bump s R.YDX_STREAM_FRAME_COUNT else s

/-- The recording goes out on the streaming lanes: recorded ingest lane n on the (n mod L)-th. -/
def ydxStream (s : State) : State :=
  let lanes := ydxLanes s
  if lanes = [] then s
  else (List.range s.ydx.count).foldl (fun s k =>
    match s.ydx.frames.find k with
    | some y => (List.range 16).foldl (fun s n =>
        (y.present.getD n []).foldl (fun s idx => ydxSend s k n idx (lanes.getD (n % lanes.length) 0) y.base y.ingestValid) s) s
    | none => s) s

/-- YODEX_RECORD_END: at tick FS + N + 1 the notice; with STREAM_OUT the streaming begins (R430, R433). -/
def execYodexRecordEnd (s : State) : Res :=
  run (fun s =>
    if (12, s.ydx.tag) ∈ s.mail.running ∧ s.ydx.first + s.ydx.count + 1 ≤ frameOf s then
      let s := if ydxState s = 2 then
          let s := setYdx s fun y => { y with held := true }
          if s.ydx.stream then ydxStream (setF s F.YDX_STATUS_STATE 3) else setF s F.YDX_STATUS_STATE 0
        else s
      notice s 12 s.ydx.tag stOk
    else s) s

/-- YODEX_STREAM_COMPLETE. -/
def execYodexStreamComplete (s : State) : Res :=
  run (fun s => if ydxState s = 3 then setF s F.YDX_STATUS_STATE 0 else s) s

/-! ## Replay (R434 to R436) -/

/-- What YODEX_REPLAY answers. -/
def replayStatus (s : State) (fp pace : Nat) : Nat :=
  let si := spanLen s * integLen s
  if ydxState s ≠ 0 ∨ (s.mail.running.any fun r => r.1 == 12 || r.1 == 13) = true then stBusy
  else if s.arch.running then stNotReady
  else if ¬ s.ydx.held ∨ s.ydx.seedId ≠ getPair s R.STR_IMAGE_ID_LO ∨ fp < frameOf s + 4 ∨ 16 < pace ∨
      ((fp : Int) - s.ydx.first) % si ≠ 0 ∨ (fp + 1) % si ≠ 0 then stBadArgs
  else if ¬ flag s F.CLK_STATUS_TIME_VALID then stTiming
  else stAccepted

/-- The arrays of the seed as they are to be loaded: entries listed, and, where a quad has lost its arrays since, what its
unlisted entries read as when the seed was taken. -/
def seedArrays (s : State) : SMap DWord :=
  let lost := (List.range 4).filter fun q => s.ydxSeed.epochs.getD q 0 ≠ s.epochs.get 0 (5 + q)
  let old := lost.flatMap fun q => (List.range 2).flatMap fun b => (List.range' (16 * q) 16).flatMap fun i =>
    (List.range 4096).map fun c =>
      let e := b * 0x40000 + i * 4096 + c
      (Arr.gain.key e, Config.arrayPowerOn Arr.gain.id (s.ydxSeed.epochs.getD q 0) e)
  s.ydx.seedArrays.foldl (fun m e => m.put e.1 e.2) (old.foldl (fun m e => m.put e.1 e.2) [])

/-- The gain banks, SHIFT registers and filter bank of the seed are loaded (R431, R434). -/
def seedLoad (s : State) : State :=
  let mine := seedArrays s
  let arrays := mine.foldl (fun m e => m.put e.1 e.2) (s.arrays.drop fun k => k / 2 ^ 32 == Arr.gain.id)
  let regs := s.ydx.seedRegs.foldl (fun m e => m.put e.1 e.2) (s.regs.drop fun a => (bankOf a).isSome)
  { s with arrays, regs }

/-- A point of the recording, on the local time of the replay. -/
def shiftBy (delta : Int) (x : Nat) : Nat := (x + delta).toNat

/-- A signal's impulse search with its points in time moved. -/
def impShift (move : Nat → Nat) (m : Impulse) : Impulse :=
  { m with
    last := m.last.map move
    lastHit := m.lastHit.map move
    tails := m.tails.map fun t => (move t.1, t.2) }

/-- The impulse and beam search state of the seed, on local time, in place of the state at EN (R431, R437). -/
def seedSearch (s : State) (fp : Nat) : State :=
  let d : Int := (fp : Int) - s.ydx.first
  let s := s.ydxSeed.impulses.foldl (fun s (i, imp, noise, ready) =>
    let s := setF (wr s (R.TRG_IMP_NOISE i) noise) (F.TRG_IMP_READY i) (ofBool ready)
    setTrg s fun t => { t with impulses := t.impulses.put i (impShift (shiftBy (d * 2 ^ 21)) imp) }) s
  let beams := s.ydxSeed.beams.map fun (k, b) =>
    let c := b.candidate.map fun c => { c with last := shiftBy (d * 256) c.last }
    (k, { b with hold := shiftBy (d * 256) b.hold, candidate := c })
  setTrg s fun t => { t with beams }

/-- The YODEX_REPLAY command (R434): the seed is loaded, and the data path starts with F0 = FP + 1. With PD_29 off it feeds
nothing from the start, as after a power-off (R435; log entry 42). -/
def yodexReplay (s : State) (src : CmdSource) (tag fp pace : Nat) : State :=
  serve s src 13 tag (leBytes 6 fp ++ leBytes 2 0 ++ leBytes 2 pace) fun s =>
    let st := replayStatus s fp pace
    if st ≠ stAccepted then respond s src 13 tag st 0 []
    else
      let s := acceptAsync s src 13 tag
      let cut := if domOn s 29 then none else some 0
      let s := setYdx s fun y => { y with
        replayFirst := fp, pace := max 1 pace, replayTag := tag, ue := [], cut }
      let s := setF (setF (setF s F.YDX_REPLAY_PACE (max 1 pace)) F.YDX_REPLAY_DONE 0) F.YDX_STATUS_STATE 4
      seedSearch (startRun (seedLoad s) (fp + 1)) fp

/-- YODEX_REPLAY. -/
def execYodexReplay (src : CmdSource) (tag : Word) (fp : BitVec 48) (pace : BitVec 16) (s : State) : Res :=
  run (yodexReplay · src tag.toNat fp.toNat pace.toNat) s

/-- The reads of recorded frame `k` that meet an uncorrectable error: zeros, the signal's validity bit cleared, counted
(R435). -/
def replayUe (s : State) (k : Nat) : State :=
  let base := ydxAddr s k 0 0
  let lines := badLinesIn s base 0x8000000
  if lines = [] then s
  else
    let sigs := (lines.map fun l => (k, (64 * l - base) / 2 ^ 21)).eraseDups
    let s := lines.foldl (fun s l => lineReport s 2 l) s
    setYdx (setF (bumpBy s R.YDX_UE_COUNT lines.length) F.YDX_STATUS_UE 1) fun y => { y with ue := y.ue ++ sigs }

/-- At walking pace the impulse search does not advance during the local frames between: its points in time move on by
them (R436). -/
def walkOn (s : State) : State :=
  let d := (s.ydx.pace - 1) * 2 ^ 21
  let hits := fun (l : List Hit) => l.map fun h => { h with at_ := h.at_ + d, source := h.source + d }
  setTrg s fun t => { t with
    impulses := t.impulses.map fun (k, m) => (k, impShift (· + d) m)
    groups := t.groups.map fun (k, g) => (k, { g with
      hold := g.hold + d, waiting := hits g.waiting, recent := hits g.recent, late := g.late.map (· + d) }) }

/-- The recorded frame `k` goes through the impulse tap in local frame `f`: the INGEST frames present, in order of index
(R106, R434). -/
def replayTap (s : State) (f k : Nat) : State :=
  if trgOn s ∧ trgF s F.TRG_CTRL_IMP_EN = 1 ∧ inRun s f = true then
    match s.ydx.frames.find k with
    | some y =>
      if y.gap then s
      else (List.range 512).foldl (fun s m =>
        let o := 4096 * m
        let lanes := (List.range 16).filter fun n => (y.present.getD n []).any fun idx => idx % 2 ^ 21 == o
        let s := lanes.foldl (fun s n => (List.range 4).foldl (fun s j =>
          tapSignal s (4 * n + j) (frameStart f + o)
            ((List.range 4096).map fun t => (readPoint s (4 * n + j) f (o + t)).1)) s) s
        (List.range 8).foldl horizonAdvance s) s
    | none => s
  else s

/-- The replay at the tick of local frame `f` (R434 to R436). -/
def replayTick (s : State) (f : Nat) : State :=
  let s := if ydxState s = 4 ∧ s.ydx.replayFirst ≤ f then setF s F.YDX_STATUS_STATE 5 else s
  if ydxState s = 5 then
    let s := if s.ydx.cut.isSome then s
      else setF s F.YDX_REPLAY_DONE (min s.ydx.count ((f - s.ydx.replayFirst + s.ydx.pace - 1) / s.ydx.pace))
    match replayFrame s f with
    | some k =>
      let s := replayUe s k
      let s := if 2 ≤ s.ydx.pace ∧ 0 < k then walkOn s else s
      replayTap s f k
    | none => s
  else s

/-- Yodex at the tick of frame `f`. -/
def ydxTick (s : State) (f : Nat) (written : Option (BitVec 64)) : State := replayTick (recordTick s f written) f

/-- YODEX_REPLAY_END: after the last frame, or after a power-off of PD_29 (R435). -/
def execYodexReplayEnd (s : State) : Res :=
  run (fun s =>
    if ydxState s = 5 ∧ (s.ydx.cut.isSome ∨ s.ydx.replayFirst + s.ydx.pace * (s.ydx.count - 1) + 1 ≤ frameOf s) then
      let s := if s.ydx.cut.isSome then s else setF s F.YDX_REPLAY_DONE s.ydx.count
      notice (setF s F.YDX_STATUS_STATE 6) 13 s.ydx.replayTag stOk
    else s) s

/-- PD_29 goes off (R432, R433, R435). -/
def ydxOff (s : State) : State :=
  let st := ydxState s
  if st = 1 then recordCut (recordBegin s)
  else if st = 2 then recordCut s
  else if st = 3 then setF s F.YDX_STATUS_STATE 0
  else if 4 ≤ st then setYdx s fun y => { y with cut := y.cut <|> some s.counter.toNat }
  else s

end Sys2Proof.Machine
end

