-- ==== Sys2Proof/Machine/Power.lean ====
section
/-! DEFINITION. Power domains: requests, transitions, isolation, and what each unit loses and regains; temperature and
throttling (R445 to R450, R456). -/

namespace Sys2Proof.Machine

/-- Change what the regulators, the reset pin and the sensors hold. -/
def setPwr (s : State) (f : Pwr → Pwr) : State := { s with pwr := f s.pwr }

/-- Set the state code of domain `d`, and its bit of `PWR_ON` (R448). -/
def setDomState (s : State) (d st : Nat) : State :=
  setB (setF s ⟨R.PWR_STATE (d / 10), 3 * (d % 10) + 2, 3 * (d % 10)⟩ st) R.PWR_ON d (st == 2)

/-- The domains a rail feeds, PD_0 apart; rails in the order of R440. -/
def railFeeds (rail d : Nat) : Bool :=
  if rail = 2 ∨ rail = 3 then 9 ≤ d && d ≤ 12
  else if rail = 4 then d == 25 || d == 26
  else 1 ≤ d && d ≤ 29

/-- Rail `rail` is on: VIN is there, no fault or trip has turned it off, and for VLANE, VLANEH and VDDQ one of the domains it
feeds is (R439, R441, R443). -/
def railOn (s : State) (rail : Nat) : Bool :=
  s.pwr.vin && !s.pwr.latched && !s.pwr.railOff.contains rail &&
    (rail < 2 || 5 ≤ rail || (List.range' 1 29).any fun d => railFeeds rail d && domState s d != 0)

/-- Domain `d` cannot be powered until a chip reset: a trip, or a rail that has been turned off (R443, R456). -/
def domBlocked (s : State) (d : Nat) : Bool := flag s F.PWR_STATUS_TRIP || s.pwr.railOff.any (railFeeds · d)

/-- The request bit of domain `d`. -/
def domWanted (s : State) (d : Nat) : Bool := getB s R.PWR_REQ d

/-- A domain is in a transition. -/
def domMoving (s : State) (d : Nat) : Bool := domState s d != 0 && domState s d != 2

/-- `PWR_STATUS`.BUSY. -/
def powerShow (s : State) : State :=
  setF s F.PWR_STATUS_BUSY (ofBool ((List.range' 1 29).any (domMoving s)))

/-! ## What a unit loses (R445) -/

/-- The arrays of domain `d` are lost. -/
def arraysLost (s : State) (d : Nat) : State :=
  { s with
    epochs := s.epochs.upd 0 d (· + 1)
    arrays := s.arrays.drop fun k =>
      let e := k % 2 ^ 32
      match k / 2 ^ 32 with
      | 0 => 5 + e / 1024 == d
      | 1 => 5 + e % 0x40000 / 4096 / 16 == d
      | 2 => beamDomain (weightBeam e) == d
      | 3 => 1 + e / 65536 == d
      | _ => 1 + e / 65536 == d }

/-- Chain of a quad: its work on the frames in the pipeline is cut short (R132). -/
def quadOff (s : State) (q : Nat) : State :=
  let s := setChz s fun c => { c with
    quadStart := c.quadStart.drop (· == q)
    last := c.last.drop (· / 16 == q)
    slotFrame := c.slotFrame.drop (· / 64 == q)
    confs := c.confs.map fun (g, k) => (g, { k with cut := k.cut ||| 2 ^ q }) }
  let s := setF s F.CHZ_STATUS_FILL (getF s F.CHZ_STATUS_FILL / 2 ^ (q + 1) * 2 ^ (q + 1) + getF s F.CHZ_STATUS_FILL % 2 ^ q)
  setF s F.CHZ_STATUS_RUNNING (quadBits fun q => (s.chz.quadStart.find q).isSome)

/-- PD_23: slots FREE, validity records cleared, holds released, and a span whose slot is lost counts as not stored (R163,
R165); the sequencers are idle, and the integration being folded cannot go on (R217). -/
def exchangeOff (s : State) : State :=
  let lost := (List.range 4).countP fun k => s.xr.slotSpan.find k != none &&
    (getF s (F.XR_SLOT_STATE k) == 1 || getF s (F.XR_SLOT_STATE k) == 2)
  let s := if lost = 0 then s else setF (bumpBy s R.XR_NO_SLOT_COUNT lost) F.XR_STATUS_NO_SLOT 1
  let s := (List.range 4).foldl (fun s k =>
    let s := if flag s (F.XR_SLOT_HELD k) then holdEnd s k else s
    setR s (R.XR_SLOT k) 0) s
  let s := (List.range 16).foldl (fun s c => setF s (F.TRG_CAPTURE_HELD c) 0) s
  let s := setXr s fun x => { lastFixed := x.lastFixed, lastSpan := x.lastSpan, stopAt := x.stopAt }
  let s := (beingFolded s).foldl abandonInteg s
  let s := s.integ.recs.foldl (fun s e => setChanState s (e.1 / 64 % 2) (e.1 % 64) 0) s
  let s := setF (setInteg s fun i => { first := i.first, dead := i.dead, lastDone := i.lastDone }) F.INT_READOUT_BUSY 0
  let s := setF (setF (setCor s fun c => { last := c.last, lastClosed := c.lastClosed }) F.COR_STATUS_PHASE 0)
    F.COR_STATUS_ABORT_BUSY 0
  setBfm s fun b => { flip := b.flip, before := b.before, excluded := b.excluded, stepped := b.stepped,
                      flags := [], lastPoint := b.lastPoint, lastSend := b.lastSend }

/-- PD_25 or PD_26: the controller must be started again, and the subchannels present enter self-refresh, what they owe
issued first (R315, R316); a sweep under way ends with its notice FAILED (log entry 27). -/
def memoryOff (s : State) (d : Nat) : State :=
  let s := (List.range (subCount s)).foldl (fun s u =>
    if (d == 25) == decide (u < 8) ∧ getF s (F.MEM_STATE_SR u) ≠ 2 then
      let s := if getF s (owedF u 0) + getF s (owedF u 1) = 0 then s else refreshIssued s u
      let s := setF (setF s (owedF u 0) 0) (owedF u 1) 0
      bump (setF s (F.MEM_STATE_SR u) 2) R.MEM_SR_ENTRY_COUNT
    else s) s
  if d = 26 ∧ getF s F.MEM_CONFIG_CHANNELS = 4 then s
  else
    let s := setF (setF s F.MEM_STATUS_INIT_DONE 0) F.MEM_STATUS_INIT_BUSY 0
    let s := if s.mem.sweep ≠ [] ∧ s.mem.starting = false then notice s 10 s.mem.sweepTag stFailed else s
    let s := setMem s fun m => { m with sweep := [], starting := false }
    if d = 25 then setMem (setF (panicTally s) F.MEM_STATUS_PANIC 0) fun m => { m with scrubQueue := [], promoted := [] }
    else s

/-- PD_27: rings that run stop, with the kind and the ring in `DMA_ERR_INFO`; an endpoint without power sends no message and
raises nothing (R368). -/
def hostOff (s : State) : State :=
  (s.dma.map (·.1)).foldl (fun s n =>
    if ringState s n = 2 then setF (setF (ringHalt s n 4) F.DMA_ERR_INFO_KIND 6) F.DMA_ERR_INFO_RING n else s) s

/-- Every ring whose descriptor in execution needs a domain that is not ON stops with DOMAIN_OFF (R368, R448). -/
def ringsOff (s : State) : State :=
  (s.dma.map (·.1)).foldl (fun s n =>
    match (dmaRing s n).descs with
    | d :: _ => if ringState s n = 2 ∧ ¬ d.bad ∧ descDomainOff s d then ringStop s n 4 (some 6) else s
    | [] => s) s

/-- PD_28: a decompressor job is dropped. -/
def compressionOff (s : State) : State :=
  setF (setF { s with cmp := { s.cmp with job := none } } F.CMP_STATUS_DEC_BUSY 0) F.CMP_STATUS_BUSY 0

/-- The unit of domain `d` loses power: its arrays and what it holds are gone (R445). -/
def domainOff (s : State) (d : Nat) : State :=
  let s := arraysLost s d
  let s :=
    if 1 ≤ d ∧ d ≤ 4 then coreReset s (d - 1)
    else if 5 ≤ d ∧ d ≤ 8 then quadOff s (d - 5)
    else if 9 ≤ d ∧ d ≤ 12 then (List.range' (14 * (d - 9)) 14).foldl laneOff s
    else if 13 ≤ d ∧ d ≤ 20 then sectorOff s (d - 13)
    else if d = 23 then exchangeOff s
    else if d = 24 then trgLost s
    else if d = 25 ∨ d = 26 then memoryOff s d
    else if d = 27 then hostOff s
    else if d = 28 then compressionOff s
    else if d = 29 then ydxOff s
    else s
  ringsOff s

/-- A correlator whose EN is set when PD_23 returns starts as at the setting of EN (R192; log entry 45). -/
def exchangeOn (s : State) : State :=
  if flag s F.COR_CTRL_EN then corEnable (setF s F.COR_CTRL_EN 0) else s

/-- A trigger engine whose EN is set when PD_24 returns starts as at the setting of EN (log entry 45). -/
def triggerOn (s : State) : State :=
  if flag s F.TRG_CTRL_EN then setTrgEnable (setF s F.TRG_CTRL_EN 0) true else s

/-- A core whose code an image loaded while its domain was coming on starts (R394, R399). -/
def coreOn (s : State) (k : Nat) : State :=
  if k ∈ s.str.runDue then brlRun { s with str := { s.str with runDue := s.str.runDue.erase k } } k true else s

/-- The unit of domain `d` comes out of reset (R445). -/
def domainOn (s : State) (d : Nat) : State :=
  if 1 ≤ d ∧ d ≤ 4 then coreOn s (d - 1)
  else if 9 ≤ d ∧ d ≤ 12 then (List.range' (14 * (d - 9)) 14).foldl lanePowered s
  else if 13 ≤ d ∧ d ≤ 20 then sectorOn s (d - 13)
  else if d = 23 then exchangeOn s
  else if d = 24 then triggerOn s
  else if d = 25 ∨ d = 26 then (if domOn s 25 && domOn s 26 then spdRead s else s)
  else s

/-! ## Transitions (R447, R448) -/

/-- The power switches of domain `d` open: POWERING_DOWN. -/
def openSwitches (s : State) (d : Nat) : State := domainOff (setDomState s d 5) d

/-- Domain `d` is isolated without waiting for its outstanding work (R448). -/
def forceIsolate (s : State) (d : Nat) : State :=
  if domState s d = 1 ∨ domState s d = 2 ∨ domState s d = 3 then
    openSwitches (setF (bump s R.PWR_FORCED_COUNT) F.PWR_STATUS_FORCED 1) d
  else s

/-- The domains that meet `p` are isolated by force. -/
def forceIsolateAll (s : State) (p : Nat → Bool) : State :=
  powerShow ((List.range' 1 29).foldl (fun s d => if p d then forceIsolate s d else s) s)

/-- A power-down begins: QUIESCING; a Beryl core halts (R296, R448). -/
def beginDown (s : State) (d : Nat) : State :=
  let s := if 1 ≤ d ∧ d ≤ 4 then brlRun s (d - 1) false else s
  setDomState s d 3

/-- With no transition in progress, the changed domain of lowest number begins its own (R447). -/
def powerNext (s : State) : State :=
  let s := powerShow s
  if flag s F.PWR_STATUS_BUSY then s
  else
    match (List.range' 1 29).find? fun d =>
      (domState s d == 0 && domWanted s d && !domBlocked s d) || (domState s d == 2 && !domWanted s d) with
    | some d => powerShow (if domState s d = 0 then setDomState s d 1 else beginDown s d)
    | none => s

/-- The outstanding work of domain `d` is complete (R450). -/
def quiesced (s : State) (d : Nat) : Bool :=
  if 1 ≤ d ∧ d ≤ 4 then brlState s (d - 1) != 1 && (brlCore s (d - 1)).stores == []
  else if d = 27 then (List.range 32).all fun e => !flag s (F.DMA_ENGINE_BUSY e)
  else if d = 28 then s.cmp.current.isNone && s.cmp.job.isNone
  else true

/-- QUIESCE_COMPLETE. -/
def execQuiesceComplete (d : Fin 30) (s : State) : Res :=
  run (fun s => if domState s d = 3 ∧ quiesced s d = true then powerShow (openSwitches s d) else s) s

/-- QUIESCE_TIMEOUT, `waited` µs into the quiesce: `PWR_QUIESCE_TIMEOUT` of them, 0 acting as 1 (R448, R457). -/
def execQuiesceTimeout (w : Timed (Fin 30)) (s : State) : Res :=
  run (fun s =>
    let d := w.what
    if domState s d = 3 ∧ max 1 (getR s R.PWR_QUIESCE_TIMEOUT % 2 ^ 16) ≤ w.time then powerShow (forceIsolate s d)
    else s) s

/-- A transition completes: counted, event 31 (R447). -/
def powerDone (s : State) (d st : Nat) : State :=
  let s := raise (bump (setDomState s d st) R.PWR_SWITCH_COUNT) 31
  powerNext (if st = 2 then domainOn s d else s)

/-- POWER_DOWN_COMPLETE. -/
def execPowerDownComplete (d : Fin 30) (s : State) : Res :=
  run (fun s => if domState s d = 5 then powerDone s d 0 else s) s

/-- POWER_UP_COMPLETE. -/
def execPowerUpComplete (d : Fin 30) (s : State) : Res :=
  run (fun s => if domState s d = 1 then powerDone s d 2 else s) s

/-! ## Requests (R446) -/

/-- Master `m` may change the request of domain `d` to `on`, where the write asks for the domains `v` (R446). -/
def requestOk (s : State) (m : Master) (v : Word) (d : Nat) (on : Bool) : Bool :=
  if d = 26 ∧ on then domWanted s 25 || v.getLsbD 25
  else if d = 25 ∧ ¬ on then domState s 26 == 0 && !v.getLsbD 26
  else if d = 27 ∧ ¬ on then privileged m
  else true

/-- A write of `PWR_REQ` (R446, R447): each changed bit is taken or refused. -/
def pwrReqWrite (s : State) (m : Master) (v : Word) : State :=
  let s0 := s
  let s := (List.range' 1 29).foldl (fun s d =>
    if domWanted s d = v.getLsbD d then s
    else if requestOk s0 m v d (v.getLsbD d) then setB s R.PWR_REQ d (v.getLsbD d)
    else setF (bump s R.PWR_REFUSED_COUNT) F.PWR_STATUS_REFUSED 1) s
  powerNext s

/-- PWR_REQ_WRITE. -/
def execPwrReqWrite (m : Master) (v : Word) (s : State) : Res :=
  runBy m (pwrReqWrite · m v) s

/-! ## Temperature (R456) -/

/-- PWRGOOD is driven low. -/
def pwrgoodLow (s : State) : State :=
  if s.pwr.pwrgood then emit (setPwr s fun p => { p with pwrgood := false }) (.pin "PWRGOOD" false) else s

/-- TRIP: every domain but PD_0 isolated, the rails that feed them off, so PWRGOOD low, and the cause recorded (R444, R456;
log entry 45). -/
def thermalTrip (s : State) : State :=
  let s := forceIsolateAll (setF s F.PWR_STATUS_TRIP 1) fun _ => true
  pwrgoodLow (setF (setPwr s fun p => { p with railOff := [0, 1, 2, 3, 4] }) F.PWR_RESET_CAUSE_CAUSE 5)

/-- The hottest of a list of readings, in 1/16 °C. -/
def hottest (ts : List Int) : Int := ts.foldl max (ts.headD 0)

/-- The thresholds act on the hottest sensor: WARN, THROTTLE and TRIP. -/
def thermalAct (s : State) (t : Int) : State :=
  let warn : Int := 16 * (getF s F.PWR_THERM_CFG_WARN : Int)
  let thr : Int := 16 * (getF s F.PWR_THERM_CFG_THROTTLE : Int)
  let s := if warn ≤ t ∧ ¬ flag s F.PWR_STATUS_WARN then raise (setF s F.PWR_STATUS_WARN 1) 20
    else if t ≤ warn - 80 then setF s F.PWR_STATUS_WARN 0 else s
  let s := if thr ≤ t then setF s F.PWR_STATUS_THROTTLE 1
    else if t ≤ thr - 80 then setF s F.PWR_STATUS_THROTTLE 0 else s
  let s := if flag s F.PWR_STATUS_THROTTLE then bump s R.PWR_THROTTLE_TIME else s
  let s := if 1840 ≤ t ∧ ¬ flag s F.PWR_STATUS_TRIP then thermalTrip s else s
  refreshLevels s

/-- VCORE moves from `mv` toward `target`, by at most 5 mV in each of `n` periods of 10 µs (R441). -/
def vcoreMove (mv target n : Nat) : Nat :=
  if mv ≤ target then min target (mv + 5 * n) else max target (mv - 5 * n)

/-- The set point of VCORE, within 0.70 to 0.85 V, for the fused speed code and the hottest sensor (R440, R441; log entry 46). -/
def vcoreTarget (hottest : Int) : Nat := min 850 (max 700 (Config.vcoreFor (Config.fuse 14) hottest))

/-- The sensors are read: temperatures, and the voltages and currents of VIN and the rails (R456, R457; log entry 46); VCORE
follows them for the millisecond up to the next reading (R441). -/
def thermalSample (s : State) (temps : List Int) (power : List Word) : State :=
  let s := temps.zipIdx.foldl (fun s (t, i) => setR s (R.PWR_TEMP i) (ofSigned 16 t)) s
  let s := power.zipIdx.foldl (fun s (v, i) => wr s (if i = 0 then R.PWR_VIN else R.PWR_RAIL (i - 1)) v) s
  let t := hottest temps
  let old := toSigned 16 (getF s F.PWR_TEMP_MAX_TEMP)
  let s := setR s R.PWR_TEMP_MAX (ofSigned 16 (if s.pwr.tempRead then max old t else t))
  thermalAct (setPwr s fun p => { p with
    tempMax := some (match p.tempMax with | some m => max m t | none => t)
    tempRead := true
    vcore := vcoreMove p.vcore (vcoreTarget t) 100 }) t

/-- THERMAL_SAMPLE: sixteen readings of the on-die sensors, on which alone WARN, THROTTLE and TRIP act; the thermal diode is
read from outside and enters nothing here (R456, R477); `power` is empty or holds VIN and the seven rails. -/
def execThermalSample (temps : List (BitVec 16)) (power : List Word) (s : State) : Res :=
  run (fun s =>
    if temps.length = 16 ∧ (power.length = 0 ∨ power.length = 8) then thermalSample s (temps.map (·.toInt)) power else s) s

end Sys2Proof.Machine
end

