-- ==== Sys2Proof/Machine/Boot.lean ====
section
/-! DEFINITION. Rails, resets, the boot record and the boot ROM (R402 to R404, R440 to R444, R451 to R454). -/

namespace Sys2Proof.Machine

/-- Change what the supervisor and the flash hold for images and updates. -/
def setStr (s : State) (f : Str → Str) : State := { s with str := f s.str }

/-! ## The flash (R402) -/

/-- Offset and size of the flash's areas: the two copies of the boot record, the reserved area, the two slots, their settings
and the firmware log. -/
def flashMap : List (String × Nat × Nat) :=
  [("record 0", 0x0, 0x10000), ("record 1", 0x10000, 0x10000), ("reserved", 0x20000, 3968 * 2 ^ 10),
    ("slot 0", 0x400000, 60 * 2 ^ 20), ("slot 1", 0x4000000, 60 * 2 ^ 20), ("settings 0", 0x7C00000, 2 ^ 20),
    ("settings 1", 0x7D00000, 2 ^ 20), ("log", 0x7E00000, 2 * 2 ^ 20)]

/-! ## The boot record (R403) -/

/-- The bytes of a boot record. -/
def bootRecord (seq active trial boots tag fr timeout : Nat) : List Byte :=
  let b := leBytes 4 0x4252584C ++ leBytes 4 seq ++ leBytes 1 active ++ leBytes 1 trial ++ leBytes 1 boots ++
    leBytes 1 0 ++ leBytes 4 tag ++ leBytes 6 fr ++ leBytes 2 timeout ++ leBytes 4 0
  b ++ leBytes 4 (crc32c b).toNat

/-- A copy is valid. -/
def recordOk (b : List Byte) : Bool :=
  b.length == 32 && leAt b 0 4 == 0x4252584C && (crc32c (b.take 28)).toNat == leAt b 28 4

/-- The copy in force: the valid one with the higher SEQ. -/
def recordCopy (s : State) : Option Nat :=
  let ok := fun k => (s.str.record.find k).any recordOk
  let seq := fun k => leAt (s.str.record.get [] k) 4 4
  if ok 0 ∧ ok 1 then some (if seq 0 < seq 1 then 1 else 0) else if ok 0 then some 0 else if ok 1 then some 1 else none

/-- The record in force. -/
def recordNow (s : State) : Option (List Byte) := (recordCopy s).map fun k => s.str.record.get [] k

/-- ACTIVE of the record in force; slot 0 without one (log entry 47). -/
def activeSlot (s : State) : Nat := ((recordNow s).map fun b => leAt b 8 1 % 2).getD 0

/-- The slot on trial. -/
def trialSlot (s : State) : Option Nat :=
  (recordNow s).bind fun b => if leAt b 9 1 = 0xFF then none else some (leAt b 9 1 % 2)

/-- A record is written over the other copy, with the next SEQ. -/
def recordWriteFlash (s : State) (active trial boots tag fr timeout : Nat) : State :=
  let k := ((recordCopy s).map (1 - ·)).getD 0
  let seq := ((recordNow s).map fun b => leAt b 4 4 + 1).getD 0
  setStr s fun x => { x with record := x.record.put k (bootRecord (seq % 2 ^ 32) active trial boots tag fr timeout) }

/-! ## Relay frames sent (R405) -/

/-- Send a relay frame on a port whose link is up. -/
def relaySendFrame (s : State) (port kind flags serial time offset : Nat) (payload : List Byte) : State :=
  if port ∈ s.ptp.up then
    emit s (.relayFrame port kind (relayHeader kind flags 63 payload.length serial time offset ++ payload))
  else s

/-! ## Slots and fallback (R404, R417) -/

/-- Slot `k` holds `img`. -/
def slotShow (s : State) (k st : Nat) (img : List Byte) : State :=
  setPair (setF (setF s (F.STR_SLOT_STATE_STATE k) st) (F.STR_SLOT_STATE_SCHEDULED k) 0) (R.STR_SLOT_ID_LO k) (imageId img)

/-- The slots as the firmware finds them at a boot: EMPTY, ACTIVE, TRIAL or VALID. -/
def slotsShow (s : State) : State :=
  (List.range 2).foldl (fun s k =>
    match s.str.slots.find k with
    | some img =>
      slotShow s k (if trialSlot s = some k then 3 else if (recordNow s).isSome ∧ activeSlot s = k then 2 else 1) img
    | none => s) s

/-- The firmware of an image runs. -/
def firmwareRuns (s : State) (img : List Byte) : State :=
  setStr (setR s R.STR_FW_VERSION (leAt img 32 2 * 2 ^ 16 + leAt img 36 2)) fun x => { x with firmware := true }

/-- The reports of a fallback: FALLBACK and its reason, the count, the fault bit, the notice with the stored TAG, and
FALLBACK on both relay ports (R417, R467). -/
def fallbackReport (s : State) (reason tag failed : Nat) : State :=
  let s := setF (setF s F.STR_STATUS_FALLBACK 1) F.STR_STATUS_FALLBACK_REASON reason
  let s := notice (fault (bump s R.STR_FALLBACK_COUNT) 23) 5 tag stFailed
  let body := leBytes 8 deviceSerial ++ leBytes 1 reason ++ leBytes 8 failed ++ leBytes 8 (getPair s R.STR_IMAGE_ID_LO)
  (List.range 2).foldl (fun s p => relaySendFrame s p 8 0 deviceSerial (localNs s) 0 body) s

/-- TRIAL is cleared in a new record, and the trial slot is FAILED (R417). -/
def trialFailed (s : State) (k : Nat) : State :=
  let b := (recordNow s).getD []
  setF (recordWriteFlash s (activeSlot s) 0xFF 0 (leAt b 12 4) (leAt b 16 6) (leAt b 22 2)) (F.STR_SLOT_STATE_STATE k) 4

/-! ## The boot ROM (R404, R454) -/

/-- The member code a chip takes (R4). -/
def memberCode (s : State) : Nat := bitsOf (getR s R.CAP_0) 31 24

/-- A slot's image passes orders 1 to 8 with both firmware sections; the failing code otherwise. -/
def slotCheck (s : State) (k : Nat) : Option (Nat × Nat) :=
  match s.str.slots.find k with
  | some img => imageCheck (memberCode s) img true
  | none => some (lrFormat, 255)

/-- The firmware of slot `k` starts; it restores its settings and is to load its image (R348, R404), or as trial firmware to
read the settings of ACTIVE first (R415). -/
def bootSlot (s : State) (k : Nat) : State :=
  let img := s.str.slots.get [] k
  let s := setF (firmwareRuns (settingsSave s) img) F.STR_STATUS_BOOT_SLOT k
  if trialSlot s = some k then
    { (setStr s fun x => { x with restart := some k }) with mail := { s.mail with restarting := true } }
  else setStr (setF (settingsRestore s k) F.STR_STATUS_LOADING 1) fun x => { x with load := some ⟨0, 0, none, img, some k⟩ }

/-- The ROM has found a slot bad, with a code and a table entry: an image in it is rejected (R396, R404, R418). -/
def slotRejected (s : State) (k code sec : Nat) : State :=
  let s := setF (setF s F.STR_STATUS_LAST_RESULT code) F.STR_STATUS_LAST_SECTION sec
  if (s.str.slots.find k).isSome then bump s R.STR_REJECT_COUNT else s

/-- Boot from flash (R404). -/
def flashBoot (s : State) : State :=
  match recordNow s with
  | none => s
  | some b =>
    let tag := leAt b 12 4
    let (s, chosen, tooOften) := match trialSlot s with
      | some t =>
        let boots := leAt b 10 1 + 1
        let s := recordWriteFlash s (activeSlot s) t boots tag (leAt b 16 6) (leAt b 22 2)
        if 3 < boots then (trialFailed s t, activeSlot s, some t) else (s, t, none)
      | none => (s, activeSlot s, none)
    let report (s : State) (reason k : Nat) : State := fallbackReport s reason tag (imageId (s.str.slots.get [] k))
    let s := match tooOften with
      | some t => report s 3 t
      | none => s
    match slotCheck s chosen with
    | none => bootSlot s chosen
    | some (code, sec) =>
      let s := slotRejected s chosen code sec
      let s := if trialSlot s = some chosen then trialFailed s chosen else setF s (F.STR_SLOT_STATE_STATE chosen) 4
      match slotCheck s (1 - chosen) with
      | none => report (bootSlot s (1 - chosen)) 2 chosen
      | some (code, sec) => slotRejected s (1 - chosen) code sec

/-- The boot ROM starts: PCIe and the memory are brought up, and the source the straps select is booted (R444, R454; log
entry 47). -/
def boot (s : State) : State :=
  let s := setF s F.STR_STATUS_KEY_BLANK (ofBool keyBlank)
  let s := slotsShow s
  let s := if getF s F.PWR_BOOT_BOOT_SRC = 0 then flashBoot s else s
  powerNext ([25, 26, 27].foldl (fun s d => setB s R.PWR_REQ d true) s)

/-! ## Resets (R451, R452) -/

/-- A chip reset, or a power-on reset: everything returns to reset but the fuses, the flash, the cause, the sampled straps
and the TRIP fault (R451, R467). -/
def resetChip (s : State) (cause : Nat) : State :=
  let flash := (settingsSave s).str
  let straps := rd s R.PWR_BOOT
  let trip := getB s R.HLT_FAULT 1
  let t : State :=
    { epochs := (List.range 30).foldl (fun m d => m.upd 0 d (· + 1)) s.epochs
      dram := s.dram
      badWords := s.badWords
      ueSynd := s.ueSynd
      free := s.free
      out := s.out
      arch := { up := s.arch.up }
      str := { slots := flash.slots, record := flash.record, settings := flash.settings, fwLog := flash.fwLog }
      pwr := { s.pwr with railOff := [], tempMax := none, tempRead := false, vcore := 850 }
      pending := s.pending }
  let t := setF (wr t R.PWR_BOOT straps) F.PWR_RESET_CAUSE_CAUSE cause
  if trip then fault t 1 else t

/-- The chip runs while VIN is up, no VAON or VIO fault has turned it off, and RESET_N is high. -/
def upShow (s : State) : State := setArch s fun a => { a with up := s.pwr.vin && !s.pwr.latched && s.pwr.resetN }

/-- The regulators of VAON, VIO, VCORE and VSRAM are in regulation (R444). -/
def railsGood (s : State) : Bool := s.pwr.vin && !s.pwr.latched && !(s.pwr.railOff.any (· < 2))

/-! ## Pins (R442, R444, R453, R467) -/

/-- VIO_REF is on: VIO is in regulation (R442). -/
def vioRefOn (s : State) : Bool := s.pwr.vin && !s.pwr.latched

/-- The level at which the chip drives an output pin; none while it is high-impedance or an open-drain pin is released. While
VIN is low or RESET_N is, every CMOS output is high-impedance, and FAULT_N is released but for a trip (R453, R456). The clock
and the chip select of the flash are driven once RESET_N is released, at levels no rule states (log entry 4). -/
def pinLevel (s : State) (name : String) : Option Bool :=
  if name = "PWRGOOD" then (if s.pwr.pwrgood then none else some false)
  else if name = "VIO_REF" then (if vioRefOn s then some true else none)
  else if name = "FAULT_N" then
    (if s.pwr.vin && (if s.arch.up then faultDriven s else getB s R.HLT_FAULT 1) then some false else none)
  else if s.arch.up = false then none
  else if name = "QSPI_CLK" then some (Config.qspiLevel false s.counter.toNat)
  else if name = "QSPI_CS_N" then some (Config.qspiLevel true s.counter.toNat)
  else if name = "PPS_OUT" then some s.clk.ppsOut
  else if name = "FRAME_OUT" then some s.clk.frameOut
  else match (List.range 8).find? fun k => name == "EVIO_" ++ toString k with
    | some k => if flag s (F.EVT_EVIO_CFG_DIR k) then
        some ((s.evt.pulsing.find k).isSome != flag s (F.EVT_EVIO_CFG_ACTIVE_LOW k)) else none
    | none => none

/-- RP_A and RP_B send idle, or the frames given to them, while PD_0 runs: from the release of RESET_N on (R453). -/
def relayPortsSend (s : State) : Bool := s.arch.up

/-- IDCODE of the JTAG port: version 0x1, part 0x4096, manufacturer 0x5D3 and a 1 (R481). -/
def jtagIdcode : Word := BitVec.ofNat 32 (0x1 * 2 ^ 28 + 0x4096 * 2 ^ 12 + 0x5D3 * 2 + 1)

/-- VIN_RISE: the regulators start; a power-on reset (R439, R451). -/
def execVinRise (s : State) : Res :=
  .next (if s.pwr.vin then s
    else
      let s := upShow (setPwr s fun p => { p with vin := true })
      let s := resetChip s (if s.pwr.railCause then 4 else 0)
      let s := wr s R.PWR_BOOT 0
      setPwr (wr s R.HLT_FAULT 0) fun p => { p with railCause := false })

/-- VIN_FALL: every regulator stops; a VAON or VIO fault is over (R439, R443). -/
def execVinFall (s : State) : Res :=
  .next (if s.pwr.vin then pwrgoodLow (upShow (setPwr s fun p => { p with vin := false, latched := false, foldback := false }))
    else s)

/-- PWRGOOD_RELEASED (R444). -/
def execPwrgoodReleased (s : State) : Res :=
  .next (if railsGood s ∧ s.pwr.pwrgood = false then
      emit (setPwr s fun p => { p with pwrgood := true }) (.pin "PWRGOOD" true)
    else s)

/-- VIO_REF_FOLDBACK (R442). -/
def execVioRefFoldback (s : State) : Res :=
  .next (if vioRefOn s then setPwr s fun p => { p with foldback := true } else s)

/-- VIO_REF_LOAD_FALL (R442). -/
def execVioRefLoadFall (s : State) : Res := .next (setPwr s fun p => { p with foldback := false })

/-- A rail that is on exceeds its current limit (R443): VIO and VAON turn the chip off; any other rail turns off with the
domains it feeds. -/
def railFault (s : State) (rail : Nat) : State :=
  if railOn s rail = false then s
  else if 5 ≤ rail then pwrgoodLow (upShow (setPwr s fun p => { p with latched := true, railCause := true, foldback := false }))
  else
    let s := setPwr s fun p => { p with railOff := if rail ∈ p.railOff then p.railOff else rail :: p.railOff }
    let s := if rail < 2 then pwrgoodLow s else s
    refreshLevels (setF (forceIsolateAll s (railFeeds rail)) F.PWR_STATUS_RAIL_FAULT 1)

/-- RAIL_FAULT. -/
def execRailFault (rail : Fin 7) (s : State) : Res := .next (railFault s rail)

/-- RESET_N_ASSERT: low for at least 1 µs; outputs are released while it is low (R451, R453). -/
def execResetNAssert (s : State) : Res :=
  .next (if s.pwr.resetN then
      let t := upShow (setPwr s fun p => { p with resetN := false })
      if s.arch.up then resetChip t 1 else t
    else s)

/-- RESET_N_RELEASE: the straps are sampled and the boot ROM starts (R453, R454); `dimms` are the DIMMs then fitted, by
channel, whose SPDs the supervisor reads once the memory has power (R298). -/
def execResetNRelease (bootSrc : Fin 4) (board : Board) (s : State) : Res :=
  .next (if s.pwr.resetN then s
    else
      let s := upShow (setPwr s fun p => { p with resetN := true, dimms := some board.dimms })
      if s.arch.up then
        boot (setF (setF s F.PWR_BOOT_BOOT_SRC bootSrc) F.PWR_BOOT_TEST_MODE (ofBool board.testMode))
      else s)

/-- A write of `PWR_CTRL`: 0x5253 resets the chip, any other value is ignored (R452). -/
def chipResetWrite (s : State) (v : Word) : State := if v.toNat % 2 ^ 16 = 0x5253 then boot (resetChip s 2) else s

/-- CHIP_RESET: a write of `PWR_CTRL`. -/
def execChipReset (m : Master) (v : Word) (s : State) : Res := runBy m (chipResetWrite · v) s

/-- WATCHDOG_EXPIRY (R452). -/
def execWatchdogExpiry (s : State) : Res := run (fun s => boot (resetChip s 3)) s

end Sys2Proof.Machine
end

