-- ==== Sys2Proof/Machine/Events.lean ====
section
/-! DEFINITION. The event router, its consumers, the EVIO pins, and the bus matrix's timeouts and register slices (R374,
R375, R378 to R389). -/

namespace Sys2Proof.Machine

/-- Change the event router's hidden state. -/
def setEvt (s : State) (f : Evt → Evt) : State := { s with evt := f s.evt }

/-! ## Routing (R379, R380, R384) -/

/-- Group `g` is enabled for firings in cycle `n`: those in the cycle of a GROUP_ON or GROUP_OFF activation see the state
before it (R383). -/
def groupEnabled (s : State) (n g : Nat) : Bool :=
  match s.evt.groupsBefore with
  | some (m, w) => if m = n then w.getLsbD g else getB s R.EVT_GROUP_EN g
  | none => getB s R.EVT_GROUP_EN g

/-- A GROUP_ON or GROUP_OFF activation in cycle `m` sets or clears the group's bit from cycle m + 1 (R383). -/
def groupSwitch (s : State) (m g : Nat) (on : Bool) : State :=
  let s := if s.evt.groupsBefore.any (·.1 == m) then s
    else setEvt s fun e => { e with groupsBefore := some (m, rd s R.EVT_GROUP_EN) }
  setB s R.EVT_GROUP_EN g on

/-- A channel whose source pulse reaches the router in cycle `n`: it fires if the router, the channel and its group are
enabled and the rate limiter admits it (R380, R383, R384). -/
def channelPulse (s : State) (n c : Nat) : State :=
  if flag s F.EVT_CTRL_EN && flag s (F.EVT_CH_CFG_EN c) && groupEnabled s n (c / 8) then
    if s.evt.lastFire.find c |>.any fun t => n < t + max 1 (getF s (F.EVT_CH_CFG_RATE c)) then
      setPairB s R.EVT_RATE_LIMITED_LO c true
    else
      let s := setPairB (bump s (R.EVT_CH_COUNT c)) R.EVT_FLAG_LO c true
      setEvt s fun e => { e with lastFire := e.lastFire.put c n, fired := e.fired ++ [(n, c)] }
  else s

/-- The oldest `k` source pulses reach the router in fabric cycle `n`: equal ones merge, and every channel wired to one of
them sees it (R379, R380). -/
def eventRoute (s : State) (n k : Nat) : State :=
  let srcs := (s.pulses.take k).eraseDups
  let merged := (s.pulses.take k).length - srcs.length
  let s := bumpBy { s with pulses := s.pulses.drop k } R.EVT_SRC_MERGE_COUNT merged
  let s := setEvt s fun e =>
    { e with fired := e.fired.filter fun (t, _) => n ≤ t + 1, active := e.active.filter fun (t, _) => n ≤ t + 1 }
  (List.range 64).foldl (fun s c => if getF s (F.EVT_CH_CFG_SOURCE c) ∈ srcs then channelPulse s n c else s) s

/-- EVENT_ROUTE. -/
def execEventRoute (n k : Nat) (s : State) : Res := run (eventRoute · n k) s

/-! ## Consumers (R381 to R383) -/

/-- The power domain of a consumer input (R381, R445). -/
def consumerDomain (i : Nat) : Nat :=
  if i < 16 then 1 + i / 4
  else if i < 32 ∨ (64 ≤ i ∧ i < 72) then 27
  else if (40 ≤ i ∧ i < 48) ∨ 88 ≤ i then 24
  else 0

/-- An EVIO output drives its pin (R388). -/
def evioDrive (s : State) (k : Nat) (active : Bool) : State :=
  emit s (.pin ("EVIO_" ++ toString k) (active != flag s (F.EVT_EVIO_CFG_ACTIVE_LOW k)))

/-- What consumer input `i` does when it is activated in cycle `m`, by channel `c` as its source (R381). -/
def consumerAct (s : State) (m i c : Nat) : State :=
  let arg := getR s (R.EVT_CON_ARG i)
  if i < 16 then brlPend s (i / 4) (8 + i % 4)
  else if i < 32 then msix s (arg % 2048)
  else if i < 40 then
    let k := i - 32
    if flag s (F.EVT_EVIO_CFG_DIR k) then
      setEvt (evioDrive s k true) fun e => { e with pulsing := e.pulsing.put k m }
    else s
  else if i < 48 then
    let k := i - 40
    let src := getF s (F.EVT_CH_CFG_SOURCE c)
    let index := if 32 ≤ src ∧ src < 40 then getPair s (R.EVT_EVIO_STAMP_LO (src - 32)) else s.counter.toNat
    if trgOn s then fireTrigger s { kind := 4, channel := k, index, act := trgF s ⟨R.TRG_EVIO_ACT, 4, 0⟩ } else s
  else if i < 56 then
    if (m, i + 8) ∈ s.evt.active then s else groupSwitch s m (i - 48) true
  else if i < 64 then groupSwitch s m (i - 56) false
  else if i < 72 then doorbell s (arg % 4096)
  else if i < 80 then setPair s (R.EVT_STAMP_LO (i - 72)) s.counter.toNat
  else if i < 88 then
    let k := i - 80
    let v := (getR s (R.EVT_COUNT k) + 1) % 2 ^ 32
    if v = arg then raise (setR s (R.EVT_COUNT k) 0) (56 + k) else setR s (R.EVT_COUNT k) v
  else if trgOn s then
    fireTrigger s { kind := 3, channel := bitsOf arg 28 16, index := s.counter.toNat, act := arg % 32 }
  else s

/-- Consumer input `i` in cycle `m`: it is activated once if channels of its mask fired in the cycle before and its EN is
1; two or more merge; one whose domain is off is dropped (R381, R382). -/
def consumerActivation (s : State) (m i : Nat) : State :=
  let cs := (List.range 64).filter fun c =>
    getPairB s (R.EVT_CON_MASK_LO i) c && s.evt.fired.any fun (t, ch) => t + 1 == m && ch == c
  match cs with
  | [] => s
  | c :: more =>
    if (m, i) ∈ s.evt.active ∨ flag s (F.EVT_CON_CFG_EN i) = false then s
    else
      let s := setEvt s fun e => { e with active := (m, i) :: e.active }
      let s := if more = [] then s else bumpF s (F.EVT_CON_CFG_MERGE i)
      if domOn s (consumerDomain i) then consumerAct s m i c else bump s R.EVT_OFF_DROP_COUNT

/-- CONSUMER_ACTIVATION. -/
def execConsumerActivation (m : Nat) (i : Fin 96) (s : State) : Res := run (consumerActivation · m i) s

/-! ## Software, timer and pin sources (R378, R387, R388) -/

/-- A write of `EVT_SW_FIRE`. -/
def swFire (s : State) (bits : Nat) : State :=
  ((List.range 16).filter (bitOf bits ·)).foldl (fun s k => raise s (96 + k)) s

/-- EVT_SW_FIRE. -/
def execEvtSwFire (bits : BitVec 16) (s : State) : Res := run (swFire · bits.toNat) s

/-- EVT_TIMER_EXPIRY, `elapsed` fabric cycles after the write of the period or the last expiry; period 0 stops a timer
(R389). -/
def execEvtTimerExpiry (e : Timed (Fin 8)) (s : State) : Res :=
  run (fun s =>
    let k := e.what
    if getR s (R.EVT_TIMER k) = 0 ∨ e.time < getR s (R.EVT_TIMER k) then s else raise s (112 + k)) s

/-- An edge at an EVIO input that held its new level for `held` core cycles; `time` is the local counter and `cycle` the
core cycle of its first transition (R387). -/
def evioEdge (s : State) (k : Nat) (rising : Bool) (time cycle held : Nat) : State :=
  let edge := getF s (F.EVT_EVIO_CFG_EDGE k)
  if flag s (F.EVT_EVIO_CFG_DIR k) ∨ held < max 2 (getF s (F.EVT_EVIO_CFG_FILTER k)) ∨
      bitOf edge (if rising then 0 else 1) = false then s
  else if s.evt.lastEdge.find k |>.any fun t => cycle < t + getF s (F.EVT_EVIO_CFG_MIN_PERIOD k) then
    bump s (R.EVT_EVIO_FAST_COUNT k)
  else
    let s := setEvt s fun e => { e with lastEdge := e.lastEdge.put k cycle }
    raise (setPair s (R.EVT_EVIO_STAMP_LO k) time) (32 + k)

/-- EVIO_EDGE. -/
def execEvioEdge (k : Fin 8) (rising : Bool) (time cycle held : Nat) (s : State) : Res :=
  run (evioEdge · k rising time cycle held) s

/-- EVIO_PULSE_END in core cycle `cycle`: at least WIDTH core cycles, two to a fabric cycle, after the latest activation
(R388, R389). -/
def execEvioPulseEnd (e : Timed (Fin 8)) (s : State) : Res :=
  run (fun s =>
    let k := e.what
    if (s.evt.pulsing.find k).any fun m => 2 * m + max 1 (getR s (R.EVT_EVIO_WIDTH k)) ≤ e.time then
      setEvt (evioDrive s k false) fun v => { v with pulsing := v.pulsing.drop (· == k.val) }
    else s) s

/-- A write of `EVT_EVIO_k_CFG`: a change of DIR ends any pulse in progress; an output rests at its inactive level, also
when ACTIVE_LOW changes (R388). -/
def evioCfgWrite (s : State) (k : Nat) (v : Word) : State :=
  let was := flag s (F.EVT_EVIO_CFG_DIR k)
  let low := flag s (F.EVT_EVIO_CFG_ACTIVE_LOW k)
  let s := wr s (R.EVT_EVIO_CFG k) (v &&& readMask (R.EVT_EVIO_CFG k))
  let now := flag s (F.EVT_EVIO_CFG_DIR k)
  let s := if was = now then s else setEvt s fun e => { e with pulsing := e.pulsing.drop (· == k) }
  if now ∧ (¬ was ∨ low != flag s (F.EVT_EVIO_CFG_ACTIVE_LOW k)) then evioDrive s k (s.evt.pulsing.find k).isSome else s

/-! ## Who may write (R386) -/

/-- The channel's OWNER code is master `m`: 0 and 7 supervisor, 1 timekeeper, 2 host, 3 to 6 Beryl. -/
def ownerIs (o : Nat) (m : Master) : Bool :=
  match m with
  | .supervisor => o == 0 || o == 7
  | .timekeeper => o == 1
  | .host => o == 2
  | .beryl k => o == 3 + k.val
  | _ => false

/-- Writes to channel `c` take effect from `m` (R386). -/
def channelWritable (s : State) (m : Master) (c : Nat) : Bool :=
  m == .supervisor || m == .debug || ownerIs (getF s (F.EVT_CH_CFG_OWNER c)) m

/-- A write to `EVT_CH_c_CFG` (R386). -/
def channelCfgWrite (s : State) (m : Master) (c : Nat) (v : Word) : State :=
  if channelWritable s m c then
    setF (setF s (F.EVT_CH_CFG_EN c) (ofBool (v.getLsbD 31))) (F.EVT_CH_CFG_RATE c) (bitsOf v.toNat 15 0)
  else bump s R.EVT_DENY_COUNT

/-- A W1C write to a word of FLAG or RATE_LIMITED bits, whose bit 0 is channel `c0`: bits of other owners' channels are
ignored, and a write with an ignored part counts once (R386). -/
def channelBitsWrite (s : State) (m : Master) (a c0 : Nat) (v : Word) : State :=
  let ok (i : Nat) : Bool := channelWritable s m (c0 + i)
  let t := ((List.range 32).filter fun i => v.getLsbD i && ok i).foldl (fun s i => setB s a i false) s
  if (List.range 32).any fun i => v.getLsbD i && !ok i then bump t R.EVT_DENY_COUNT else t

/-- Registers of consumer `i` take a write from `m`: any master, unless its mask includes a SECURE channel (R386). -/
def consumerWritable (s : State) (m : Master) (i : Nat) : Bool :=
  privileged m || !(List.range 64).any fun c =>
    getPairB s (R.EVT_CON_MASK_LO i) c && flag s (F.EVT_CH_CFG_SECURE c)

/-! ## The bus matrix (R374, R375) -/

/-- `MTX_TIMEOUT` in fabric cycles: 0 acts as 0xFFFF (R389). -/
def matrixLimit (s : State) : Nat :=
  if getR s R.MTX_TIMEOUT % 2 ^ 16 = 0 then 0xFFFF else getR s R.MTX_TIMEOUT % 2 ^ 16

/-- MATRIX_LATE_RESPONSE (R375). -/
def execMatrixLateResponse (s : State) : Res := run (bump · R.MTX_LATE_RESP_COUNT) s

/-- A write of `MTX_SLICE`: PENDING until the path is idle, if the setting changes (R374). -/
def sliceWrite (s : State) (pcie dram : Nat) : State :=
  let s := setF (setF s F.MTX_SLICE_PCIE_OUT pcie) F.MTX_SLICE_DRAM dram
  setF s F.MTX_SLICE_PENDING (ofBool (s.evt.slices != (min 2 pcie, min 2 dram)))

/-- MTX_SLICE_WRITE. -/
def execMtxSliceWrite (pcie dram : Fin 4) (s : State) : Res := run (sliceWrite · pcie dram) s

/-- SLICE_APPLY: the path is idle; 3 acts as 2 (R374, R389). -/
def execSliceApply (s : State) : Res :=
  run (fun s =>
    let s := setEvt s fun e =>
      { e with slices := (min 2 (getF s F.MTX_SLICE_PCIE_OUT), min 2 (getF s F.MTX_SLICE_DRAM)) }
    setF s F.MTX_SLICE_PENDING 0) s

end Sys2Proof.Machine
end

