-- ==== Sys2Proof/Machine/Wr.lean ====
section
/-! DEFINITION. A master's write over the bus matrix: what each register does with it, by its access codes and by the rules
that name it; arrays, the weight store and DRAM (R2, R7, R9, R10, R371, R375, R376, R386, R445). The mailbox doorbell
stands in `Bus.lean`. -/

namespace Sys2Proof.Machine

/-! ## Block by block -/

/-- LANE_n registers (R45, R60, R66, R70, R71). A write brings no measurement with it: the checker is taken to have found no
error in the mode before, and to lock in the new one exactly when the lane is in loopback (DESIGN CHOICE, log entry 55;
LANE_PRBS_MODE_WRITE brings both). -/
def laneWrite (s : State) (a : Nat) (v : Word) : State :=
  let n := (a - 0x200000) / 0x4000
  let b (i : Nat) : Bool := v.getLsbD i
  if 0x2E0000 ≤ a then plainWrite s a v
  else if a = R.LANE_CTRL n then
    let tx := b 0
    let rx := b 1
    let s := if tx = flag s (F.LANE_CTRL_EN_TX n) ∧ rx = flag s (F.LANE_CTRL_EN_RX n) then s else setEnables s n tx rx
    let req := fieldOf v (F.LANE_CTRL_PSTATE_REQ n)
    setLoopback (setPstate s n req) n (fieldOf v (F.LANE_CTRL_LOOPBACK n))
  else if a = R.LANE_TXEQ n then
    setTxeq s n (fieldOf v (F.LANE_TXEQ_SWING n)) (fieldOf v (F.LANE_TXEQ_POST n)) (fieldOf v (F.LANE_TXEQ_PRE n))
  else if a = R.LANE_RXEQ n then setRxeq s n (fieldOf v (F.LANE_RXEQ_DCGAIN n)) (fieldOf v (F.LANE_RXEQ_PEAK n))
  else if a = R.LANE_CAL_CTRL n then
    let s := plainWrite s a v
    if b 31 then calStart s n else s
  else if a = R.LANE_TEST n then setPrbs s n (fieldOf v (F.LANE_TEST_PRBS_MODE n)) (loopback s n != 0) 0
  else plainWrite s a v

/-- CHZ_ registers and the loadable filter bank (R116, R123, R124, R125, R461). -/
def chzWrite (s : State) (a : Nat) (v : Word) : State :=
  if (bankOf a).isSome then bankMirrored s a v
  else if a = R.CHZ_SWITCH_FRAME_HI then mirrored s false a (wordBytes v) (switchArm · v)
  else if a = R.CHZ_MODE_FRAME_HI then mirrored s false a (wordBytes v) (modeArm · v)
  else if a = R.CHZ_SWITCH_CTRL ∨ a = R.CHZ_SWITCH_FRAME_LO ∨ a = R.CHZ_MODE ∨ a = R.CHZ_MODE_FRAME_LO then
    mirrored s false a (wordBytes v) (plainWrite · a v)
  else plainWrite s a v

/-- XR_ registers: the geometry stands still while the crossroads run (R158, R169). -/
def xrWrite (s : State) (a : Nat) (v : Word) : State :=
  let running := flag s F.XR_STATUS_RUNNING
  if a = R.XR_CTRL then
    let split := if running then ofBool (flag s F.XR_CTRL_TWIN_SPLIT) else fieldOf v F.XR_CTRL_TWIN_SPLIT
    let en := v.getLsbD 0
    let w := F.XR_CTRL_EN.insert (F.XR_CTRL_TWIN_SPLIT.insert v split) (ofBool (flag s F.XR_CTRL_EN))
    let s := linksRefresh (splitFollow (plainWrite s a w) (twinSplit s))
    if en = flag s F.XR_CTRL_EN then s else setXrEnable s en
  else if a = R.XR_LINK_CTRL then setWiden s (v.toNat % 2 ^ 14)
  else if running ∧ (a = R.XR_GEOMETRY ∨ a = R.XR_ROW_LINK_0 ∨ a = R.XR_ROW_LINK_1 ∨ a = R.XR_COL_LINK ∨
      (R.XR_SLICE 0 ≤ a ∧ a < R.XR_SLICE 16)) then s
  else if a = R.XR_ROW_LINK_0 ∨ a = R.XR_ROW_LINK_1 ∨ a = R.XR_COL_LINK then linksRefresh (plainWrite s a v)
  else plainWrite s a v

/-- COR_ registers (R185, R186, R195). -/
def corWrite (s : State) (a : Nat) (v : Word) : State :=
  if a = R.COR_CTRL then
    let s := setF s F.COR_CTRL_PATROL_EN (fieldOf v F.COR_CTRL_PATROL_EN)
    let s := if v.getLsbD 2 then corAbort s else s
    if v.getLsbD 0 then corEnable s else corDisable s
  else if R.COR_ORDER 0 ≤ a ∧ a < R.COR_ORDER 272 then
    if flag s F.COR_CTRL_EN ∨ flag s F.COR_STATUS_ABORT_BUSY then s else plainWrite s a v
  else plainWrite s a v

/-- INT_ registers (R217, R219). -/
def intWrite (s : State) (a : Nat) (v : Word) : State :=
  if a = R.INT_CTRL then
    let en := v.getLsbD 0
    if en = flag s F.INT_CTRL_EN then s else setIntEnable s en
  else if a = R.INT_STREAM ∧ flag s F.INT_STATUS_RUNNING then s
  else plainWrite s a v

/-- BFM_ registers: while the beam-former runs only EN of its configuration changes (R224, R226, R243, R461). -/
def bfmWrite (s : State) (a : Nat) (v : Word) : State :=
  let running := flag s F.BFM_STATUS_RUNNING
  if a = R.BFM_CTRL then
    let en := v.getLsbD 0
    let s := if running then s else plainWrite s a (F.BFM_CTRL_EN.insert v (ofBool (flag s F.BFM_CTRL_EN)))
    if en = flag s F.BFM_CTRL_EN then s else setBfmEnable s en
  else if a = R.BFM_FLIP_FRAME_HI then mirrored s false a (wordBytes v) (flipArm · v)
  else if a = R.BFM_FLIP_FRAME_LO ∨ a = R.BFM_FLIP_CTRL ∨ (R.BFM_FLIP_MASK 0 ≤ a ∧ a < R.BFM_FLIP_MASK 8) then
    mirrored s false a (wordBytes v) (plainWrite · a v)
  else if running ∧ (a = R.BFM_STREAM ∨ (R.BFM_BEAM 0 ≤ a ∧ a < R.BFM_BEAM 256) ∨
      (R.BFM_VSTREAM 0 ≤ a ∧ a < R.BFM_VSTREAM 22)) then s
  else plainWrite s a v

/-- TRG_ registers: four settings stand still while the unit runs, the other configuration fields take effect at the next
tick (R254, R265, R267, R461). -/
def trgRegWrite (s : State) (a : Nat) (v : Word) : State :=
  let running := flag s F.TRG_STATUS_RUNNING
  let later (s : State) (w : Word) : State := trgWrite s a (codedWord a (rd s a) w)
  if a = R.TRG_CTRL then
    let en := v.getLsbD 0
    let s := later s (F.TRG_CTRL_EN.insert v (ofBool (flag s F.TRG_CTRL_EN)))
    if en = flag s F.TRG_CTRL_EN then s else setTrgEnable s en
  else if a = R.TRG_STATUS then plainWrite s a v
  else if a = R.TRG_HOLD_CFG then holdReleases (later s v) (bitsOf v.toNat 11 8)
  else if a = R.TRG_CAPTURE_RELEASE then captureReleases s (v.toNat % 2 ^ 16)
  else if a = R.TRG_INJECT then mirrored s false a (wordBytes v) (injectWrite · v)
  else if a = R.TRG_INJECT_INDEX_LO ∨ a = R.TRG_INJECT_INDEX_HI then mirrored s false a (wordBytes v) (plainWrite · a v)
  else if a = R.TRG_RING_TAIL then plainWrite s a v
  else if accMask a .rw = 0 then plainWrite s a v
  else if running ∧ a = R.TRG_IMP_CFG then s
  else if running ∧ a = R.TRG_BEAM_CFG then s
  else if running ∧ R.TRG_IMP 0 ≤ a ∧ a < R.TRG_IMP 64 then
    let n := (a - R.TRG_IMP 0) / 4
    later s ((F.TRG_IMP_NOISE_SHIFT n).insert v (getF s (F.TRG_IMP_NOISE_SHIFT n)))
  else later s v

/-- `BRL_k_CTRL`: CORE_RESET acts in every state; RUN and STEP not in FAULT and OFF (R292, R296, R297). -/
def brlCtrlWrite (s : State) (k : Nat) (v : Word) : State :=
  if v.getLsbD 2 then coreReset s k
  else
    let halted := domLive s (1 + k) && brlState s k == 2
    let s := brlRun s k (v.getLsbD 0)
    if v.getLsbD 1 && halted && !v.getLsbD 0 then brlStep s k else s

/-- A write to the debug window in RESET or HALTED; the return stack and LC are read-only (R274, R297). -/
def brlDebugWrite (s : State) (k o : Nat) (v : Word) : State :=
  let put (i n : Nat) : State := setBrl s k fun c =>
    let c := c.drained
    { c with file := c.file.put i (BitVec.ofNat 64 n) }
  let w := v.toNat
  if o < 0x140 then put ((o - 0x100) / 4) w
  else if o < 0x190 then
    let a := if o < 0x160 then (o - 0x140) / 4 else if o < 0x170 then 8 + (o - 0x160) / 4 else 12 + (o - 0x170) / 4
    put (32 + a) (w % (aregMask a + 1))
  else if o = 0x190 then
    let sr := w &&& aregMask 20
    setBrl (put 52 sr) k fun c => { c with file := c.file.put 72 (BitVec.ofNat 64 (sr % 16)) }
  else if 0x1A0 ≤ o ∧ o < 0x1C0 then
    let i := 64 + (o - 0x1A0) / 8
    let old := ((brlCore s k).drained).slot i
    let acc : DWord := BitVec.ofNat 64 (if o % 8 = 0 then old / 2 ^ 32 * 2 ^ 32 + w else w % 256 * 2 ^ 32 + old % 2 ^ 32)
    setBrl s k fun c =>
      let c := c.drained
      { c with file := (c.file.put i acc).put (i + 4) acc }
  else s

/-- Registers of a Beryl block at offset `o` (R289, R292, R297). -/
def brlRegWrite (s : State) (m : Master) (k o : Nat) (v : Word) : State :=
  let a := 0xD00000 + 0x100000 * k + o
  let st := brlState s k
  let open' := domLive s (1 + k) && (st == 0 || st == 2)
  if o = 0 then brlCtrlWrite s k v
  else if o = 8 then
    let pc := brlPc s k
    if open' then setBrl (plainWrite s a v) k fun c => { c with fresh := c.fresh && pc == v.toNat % 32768 } else s
  else if o = 0x20 then brlWake (plainWrite s a (v &&& 0xFFFE)) k
  else if o = 0x24 then irqPendWrite s k (v.toNat % 2 ^ 16)
  else if o = 0x28 then (if m = .host then mboxInWrite s k v else wr s a v)
  else if o = 0x2C then
    let s := wr s a v
    match m with
    | .beryl _ => raise s (40 + 4 * k + 3)
    | _ => s
  else if 0x100 ≤ o ∧ o < 0x200 then (if open' then brlDebugWrite s k o v else s)
  else plainWrite s a v

/-- MEM_ registers; MEM_CONFIG is what the supervisor finds, 0 where it refuses the memory (R298, R312, R317, R318, R319). -/
def memWrite (s : State) (m : Master) (a : Nat) (v : Word) : State :=
  let en := flag s F.MEM_CTRL_EN
  let u := (a - 0x1110000) / 0x1000
  if a = R.MEM_CTRL then
    let force := v.getLsbD 3 && !flag s F.MEM_CTRL_FORCE_2X
    let s := plainWrite s a v
    let s := if force then forceDouble s else s
    if v.getLsbD 4 then memInit s else s
  else if a = R.MEM_CONFIG then
    if m = .supervisor then refreshLevels (setArch (wr s a v) fun x => { x with dimmRefused := v == 0 }) else s
  else if a = R.MEM_SWEEP_CTRL then sweepCtrlWrite s (bitsOf v.toNat 3 0) (v.getLsbD 4) (v.getLsbD 8)
  else if en ∧ (a = R.MEM_T_0 ∨ a = R.MEM_T_1 ∨ a = R.MEM_T_2) then s
  else if en ∧ 0x1110000 ≤ a ∧ (a = R.MEM_CA u ∨ (R.MEM_LIVE u 0 ≤ a ∧ a < R.MEM_LIVE u 10)) then s
  else plainWrite s a v

/-- DMA_ registers (R362, R364, R368, R369, R370). -/
def dmaWrite (s : State) (a : Nat) (v : Word) : State :=
  if 0x1240000 ≤ a ∧ a < 0x1244000 then doorbell s ((a - 0x1240000) / 4)
  else if a < 0x1240000 then
    let n := (a - 0x1200000) / 0x40
    if a = R.DMA_RING_CTRL n then ringCtrlWrite s n v
    else if a = R.DMA_RING_HEAD n then (if ringState s n = 0 ∨ ringState s n = 3 then plainWrite s a v else s)
    else plainWrite s a v
  else plainWrite s a v

/-- EVT_ registers by owner and secrecy (R386, R387, R388). -/
def evtWrite (s : State) (m : Master) (a : Nat) (v : Word) : State :=
  if a = R.EVT_SW_FIRE then swFire s (v.toNat % 2 ^ 16)
  else if a = R.EVT_FLAG_LO ∨ a = R.EVT_RATE_LIMITED_LO then channelBitsWrite s m a 0 v
  else if a = R.EVT_FLAG_LO + 4 ∨ a = R.EVT_RATE_LIMITED_LO + 4 then channelBitsWrite s m a 32 v
  else if 0x1300100 ≤ a ∧ a < 0x1300300 ∧ a % 8 = 0 then channelCfgWrite s m ((a - 0x1300100) / 8) v
  else if 0x1300400 ≤ a ∧ a < 0x1300A00 then
    if consumerWritable s m ((a - 0x1300400) / 16) then (if noArg a then s else plainWrite s a v)
    else bump s R.EVT_DENY_COUNT
  else if 0x1300B00 ≤ a ∧ a < 0x1300B80 ∧ a % 16 = 0 then evioCfgWrite s ((a - 0x1300B00) / 16) v
  else plainWrite s a v

/-- A write to the MSI-X table: an unmasked vector that is pending is sent (R355; log entry 8). -/
def msixWrite (s : State) (a : Nat) (v : Word) : State :=
  let s := wr s a v
  let n := (a - 0x8000) / 16
  let p := 0x7000 + 4 * (n / 32)
  if a % 16 = 12 ∧ v.getLsbD 0 = false ∧ getB s p (n % 32) = true ∧ domLive s 27 = true ∧ s.pcie.msixEnable = true ∧
      s.pcie.functionMask = false then msixSend (setB s p (n % 32) false) n
  else s

/-- A write to the register at `a` by a master that reaches it, every rule but the mailbox doorbell's. -/
def regWrite (s : State) (m : Master) (a : Nat) (v : Word) : State :=
  if 0x8000 ≤ a ∧ a < 0x10000 then msixWrite s a v
  else if 0x11000 ≤ a ∧ a < 0x12000 then wr s a v
  else if a < 0x100000 then plainWrite s a v
  else if a < 0x200000 then clkWrite s m a v
  else if a < 0x300000 then laneWrite s a v
  else if a < 0x400000 then
    (if a = R.LNK_ING_EN then setIngestEnable s (v.setWidth 16) else plainWrite s a v)
  else if a < 0x800000 then
    match arrayAt a with
    | some (.model, _, e) => mirrored s false a (wordBytes v) (modelWrite · (e / 64) (e / 16 % 4) (e % 16) v)
    | _ => chzWrite s a v
  else if a < 0x900000 then xrWrite s a v
  else if a < 0xA00000 then corWrite s a v
  else if a < 0xB00000 then intWrite s a v
  else if a < 0xC00000 then bfmWrite s a v
  else if a < 0xD00000 then trgRegWrite s a v
  else if a < 0x1100000 then
    match arrayAt a with
    | some (.brlC, _, _) => cMemWrite s m (brlOf a) ((a % 0x100000 - 0x20000) / 4) v
    | some (arr, _, i) => arrSet s arr i (v.setWidth 64)
    | none => brlRegWrite s m (brlOf a) (a % 0x100000) v
  else if a < 0x1200000 then memWrite s m a v
  else if a < 0x1300000 then dmaWrite s a v
  else if a < 0x1400000 then evtWrite s m a v
  else if a < 0x1500000 then
    (if a = R.MTX_SLICE then sliceWrite s (fieldOf v F.MTX_SLICE_PCIE_OUT) (fieldOf v F.MTX_SLICE_DRAM)
     else plainWrite s a v)
  else if a < 0x1600000 then
    (if a = R.PWR_REQ then pwrReqWrite s m v else if a = R.PWR_CTRL then chipResetWrite s v else plainWrite s a v)
  else if a < 0x1700000 then
    (if a = R.CMP_CTRL ∧ flag s F.CMP_STATUS_BUSY then s
     else if a = R.DMA_STATUS then fetchResume (plainWrite s a v)
     else if a = R.CMP_DEC_CTRL then
       (if v.getLsbD 0 then decompressGo s (v.getLsbD 1) else plainWrite s a v)
     else plainWrite s a v)
  else if a = R.HLT_FAULT then refreshLevels (plainWrite s a v)
  else if a = R.HLT_FAULT_MASK then faultRecord s (plainWrite s a v)
  else plainWrite s a v

/-! ## Over the matrix -/

/-- The kind of the error response a write at BAR 0 address `a` gets, if any: 1 where the master does not reach the target,
2 where an array's domain is off (R371, R375, R445). -/
def writeRefused (s : State) (m : Master) (a : Nat) : Option Nat :=
  match targetOf a with
  | none => none
  | some t => if !reaches m t then some 1 else match arrayDomain a with
    | some d => if domOn s d then none else some 2
    | none => none

/-- The same for the weight store (R221, R449). -/
def weightRefused (s : State) (m : Master) (off : Nat) : Option Nat :=
  if !reaches m 4 then some 1 else if domOn s (beamDomain (weightBeam off)) then none else some 2

/-- The same for a DRAM write of `n` bytes, as memory requester 10 (R302, R307, R310). -/
def matrixDramRefused (s : State) (m : Master) (a n : Nat) : Option Nat :=
  if !reaches m 0 then some 1 else if writeFails s 10 a n then some (memErrKind s 10 a n true) else none

end Sys2Proof.Machine
end

