-- ==== Sys2Proof/Machine/Health.lean ====
section
/-! DEFINITION. The health record (R466). -/

namespace Sys2Proof.Machine

/-- A register as the record shows it: read without clearing (R466). -/
def healthReg (s : State) (a : Nat) : List Byte := wordBytes (shown s a)

/-- A counter's total since reset, in 32 bits. -/
def healthTotal (s : State) (a : Nat) : List Byte := leBytes 4 (s.totals.get 0 a)

/-- Registers one after the other. -/
def healthRegs (s : State) (l : List Nat) : List Byte := l.flatMap (healthReg s)

/-- Padded with zeros to a length. -/
def padTo (n : Nat) (bs : List Byte) : List Byte := bs ++ List.replicate (n - bs.length) 0

/-- Bytes 0 to 255 of the record. -/
def healthHead (s : State) : List Byte :=
  leBytes 4 0x5448584C ++ leBytes 4 0x10 ++ leBytes 8 deviceSerial ++ leBytes 8 (getPair s R.STR_IMAGE_ID_LO) ++
    leBytes 8 (localNs s) ++
    healthRegs s [R.HLT_FAULT, R.HLT_FIRST, R.HLT_FIRST_TIME_LO, R.HLT_FIRST_TIME_HI, R.CLK_STATUS, R.CLK_MILESTONE,
      R.PTP_STATUS, R.PTP_OFFSET, R.PTP_PATH_DELAY, R.CLK_HOLD_FFO, R.TWN_STATUS, R.TWN_MISMATCH, R.TWN_SYNC_FRAME_LO,
      R.TWN_SYNC_FRAME_HI] ++
    leBytes 8 (getF s F.TWN_STATUS_ABANDON) ++
    padTo 32 (healthRegs s [R.COR_RETIRED_COUNT, R.COR_PATROL_STATUS, R.COR_SUSPECT, R.COR_SUSPECT_FROM_LO,
      R.COR_SUSPECT_FROM_HI, R.COR_SUSPECT_TO_LO, R.COR_SUSPECT_TO_HI]) ++
    padTo 128 (healthRegs s ((List.range 17).map R.COR_RETIRED))

/-- Bytes 256 to 1,439: lanes, links, ingest, memory. -/
def healthUnits (s : State) : List Byte :=
  ((List.range 56).flatMap fun n =>
      healthRegs s [R.LANE_STATUS n, R.LANE_CAL_RESULT n] ++ healthTotal s (R.LANE_DOWN_COUNT n) ++
        healthTotal s (R.LANE_CV_COUNT n)) ++
    healthRegs s [R.XR_LINK_STATE, R.XR_LOAD] ++ ((List.range 14).flatMap fun k => healthTotal s (R.XR_XL_NARROW_COUNT k)) ++
    padTo 64 (healthRegs s ((List.range 4).map R.LNK_SIG_STATE)) ++
    ((List.range 16).flatMap fun u => healthRegs s [R.MEM_STATE u, R.MEM_SWEEP_RESULT u]) ++
    padTo 32 (healthTotal s R.MEM_CE_COUNT ++ healthTotal s R.MEM_UE_COUNT ++ leBytes 8 s.mem.lastUe ++
      healthReg s R.MEM_STATUS)

/-- Bytes 1,440 to 1,607: power, temperature, structure. The hottest reading is that since the last record. -/
def healthPower (s : State) : List Byte :=
  let hot := match s.pwr.tempMax with
    | some t => leBytes 4 (ofSigned 32 t % 2 ^ 16)
    | none => leBytes 4 (getF s F.PWR_TEMP_MAX_TEMP)
  padTo 96 (healthRegs s [R.PWR_STATUS, R.PWR_ON] ++ hot ++ healthRegs s ((List.range 16).map R.PWR_TEMP)) ++
    padTo 64 (healthReg s R.PWR_VIN ++ healthRegs s ((List.range 7).map R.PWR_RAIL) ++ healthReg s R.PWR_RESET_CAUSE) ++
    healthRegs s [R.STR_STATUS, R.STR_FW_VERSION]

/-- The 4,096 bytes of the record (R466; log entry 51). -/
def healthRecord (s : State) : List Byte :=
  let b := padTo 4092 (healthHead s ++ healthUnits s ++ healthPower s)
  b ++ leBytes 4 (crc32c b).toNat

/-- READ_HEALTH: to the host's address, or with the response over the relay path (R412, R466). -/
def readHealth (s : State) (src : CmdSource) (tag host : Nat) : State :=
  serve s src 7 tag (leBytes 8 host) fun s =>
    let b := healthRecord s
    let s := setPwr s fun p => { p with tempMax := none }
    match src with
    | .host => respond (if domLive s 27 then emit s (.hostWrite host b false) else s) src 7 tag stOk 0 []
    | .relay _ _ _ => respond s src 7 tag stOk 0 b

/-- READ_HEALTH. -/
def execReadHealth (src : CmdSource) (tag : Word) (host : DWord) (s : State) : Res :=
  run (readHealth · src tag.toNat host.toNat) s

end Sys2Proof.Machine
end

