-- ==== Sys2Proof/Machine/Content.lean ====
section
/-! DEFINITION. The content rules of order 9 (R396): the register state that an image's records would produce, and the rules
of the other chapters on it (R20, R21, R68, R138, R139, R141, R147, R172, R218, R229, R234, R235, R299, R301). -/

namespace Sys2Proof.Machine

/-! ## The register state that the records would produce -/

/-- Where the value of a MEM_PARTITION word is kept: regions 4 and 5 apart from the counters that share their addresses
(log entry 10). -/
def partitionKey (a : Nat) : Nat :=
  if 0x1100060 ≤ a ∧ a < 0x1100090 then memRegionKey ((a - 0x1100060) / 8) + (a - 0x1100060) % 8 else a

/-- Bits that only the supervisor sets: the RO fields of a register (R393), but for those that show whether something is
armed: a record arms nothing. -/
def supervisorMask (a : Nat) : Word :=
  if 0x1100060 ≤ a ∧ a < 0x1100090 then 0xFFFFF
  else if a = R.CHZ_MODE then accMask a .ro &&& ~~~F.CHZ_MODE_ARMED.mask
  else if a = R.CHZ_SWITCH_CTRL then accMask a .ro &&& ~~~F.CHZ_SWITCH_CTRL_ARMED.mask
  else if a = R.BFM_FLIP_CTRL then accMask a .ro &&& ~~~F.BFM_FLIP_CTRL_ARMED.mask
  else accMask a .ro

/-- Registers whose RO fields show what stands while the data path is stopped, and that a load therefore does not return to
reset: power of the quads, the correlator's abort, patrol, retired tiles and tile states, the masters of the matrix, and the
states and readings of the power domains (R193, R399; log entry 48). -/
def liveRo (a : Nat) : Bool :=
  a == R.CHZ_STATUS || a == R.COR_STATUS || a == R.COR_PATROL_STATUS || a == R.COR_RETIRED_COUNT ||
    (0x900080 ≤ a && a < 0x9000C4) || (0x910000 ≤ a && a < 0x998000) || a == R.MTX_MASTER_STATUS ||
    (0x1500000 ≤ a && a < 0x1600000)

/-- `a` keeps a base or a size of a DRAM region. -/
def regionWord (a : Nat) : Bool := (0x1100060 ≤ a && a < 0x1100080) || 0x80000000 ≤ a

/-- `a` lies in a block that the sections of TYPE 1 to 7 write, or is a word of MEM_PARTITION's (R392). -/
def configBlock (a : Nat) : Bool :=
  (0x200000 ≤ a && a < 0xD00000) || (0x1300000 ≤ a && a < 0x1600000) || regionWord a

/-- The bits of the register at `a` that a structure load returns to their reset value: every field of a block that the
configuration sections may write, but for what shows a present condition (R399; log entry 48). -/
def configMask (a : Nat) : Word :=
  if regionWord a then 0xFFFFF
  else accMask a .rw ||| accMask a .w1c ||| accMask a .w1s ||| accMask a .rc ||| (if liveRo a then 0 else accMask a .ro)

/-- The configuration registers alone, back at their reset values. -/
def configReset (s : State) : State :=
  let regs := (s.regs.filter fun e => e.1 != memRegionKey 5 && e.1 != memRegionKey 5 + 4).map fun e =>
    if configBlock e.1 then (e.1, (e.2 &&& ~~~(configMask e.1)) ||| (resetWord e.1 &&& configMask e.1)) else e
  { s with regs := regs, pairLow := s.pairLow.filter fun e => !configBlock e.1 }

/-- One record's value, stored without its effects. -/
def rawRecord (s : State) (e : Nat × Nat) : State :=
  let m := supervisorMask e.1 ||| accMask e.1 .rw
  let k := partitionKey e.1
  if (arrayAt e.1).isSome || (bankOf e.1).isSome then s
  else wr s k ((rd s k &&& ~~~m) ||| (BitVec.ofNat 32 e.2 &&& m))

/-- The register state that the image's records would produce (R396). -/
def shadowState (s : State) (img : List Byte) : State :=
  (applyOrder.flatMap (typeWrites img)).foldl rawRecord (configReset s)

/-! ## The rules, each with the section that carries it -/

/-- S is 16 to 256 in steps of 16, I at least 1, and both limits of R21 hold. -/
def spanRule (c : State) : Bool :=
  let sp := spanLen c
  let n := sp * integLen c * 256
  16 ≤ sp && sp ≤ 256 && sp % 16 == 0 && 1 ≤ integLen c &&
    n ≤ (if flag c F.CHZ_MODE_CAL8 then 65536 else 16777216) && sp * 64 ≤ getF c F.XR_SLOT_SIZE_MIB

/-- A use is allowed on lane `n`: receive (0, 1, 3, 4, 5) or transmit (0, 2 to 6) (R68, R71). -/
def useOk (rx : Bool) (u n : Nat) : Bool :=
  match u with
  | 0 => true
  | 1 => rx && n < 16
  | 2 => !rx && (n < 16 || 50 ≤ n)
  | 3 => (16 ≤ n && n < 44) || 50 ≤ n
  | 4 => 44 ≤ n && n < 48 || 50 ≤ n
  | 5 => n == 48 || n == 49 || 50 ≤ n
  | 6 => !rx && 50 ≤ n
  | _ => false

/-- The lane plan (R68): allowed uses, bonds of their full width with each position once. -/
def lanePlanRule (c : State) : Bool :=
  let ns := List.range 56
  let rx (n : Nat) : Nat := getF c (F.LANE_USE_RX_USE n)
  let tx (n : Nat) : Nat := getF c (F.LANE_USE_TX_USE n)
  let pos (n : Nat) : Nat := getF c (F.LANE_USE_POS n)
  let bond (l : List Nat) (w : Nat) : Bool := l.length == w && (List.range w).all fun p => l.any fun n => pos n == p
  let of (u : Nat) : List Nat := ns.filter fun n => tx n == u
  ns.all (fun n => useOk true (rx n) n && useOk false (tx n) n &&
      (!(3 ≤ rx n && rx n ≤ 5 || 3 ≤ tx n && tx n ≤ 5) || rx n == tx n)) &&
    (List.range 16).all (fun k =>
      let l := (of 3).filter fun n => getF c (F.LANE_USE_LINK n) == k
      l == [] || k < 14 && bond l 2) &&
    bond (of 4) 4 && bond (of 5) 2

/-- The geometry (R138), the chip's own number in it, and the distinct slices (R139). -/
def geometryRule (c : State) : Bool :=
  let rows := getF c F.XR_GEOMETRY_ROWS
  let n := xrChips c
  let sl := (List.range n).map (sliceOf c)
  1 ≤ rows && rows ≤ 8 && 1 ≤ xrCols c && xrCols c ≤ (if rows = 1 then 15 else 8) && chipNo c < n && decide sl.Nodup

/-- LNK_SIGNAL_BASE reads 64 times the chip number (R138). -/
def signalBaseRule (c : State) : Bool := getF c F.LNK_SIGNAL_BASE_BASE == chipNo c

/-- The route table (R141) and the scheduled loads (R147). -/
def routeRule (c : State) : Bool :=
  let rows := getF c F.XR_GEOMETRY_ROWS
  let cols := xrCols c
  let row := (List.range 15).map fun j => (j == chipNo c % cols || cols ≤ j, rowLink c j)
  let col := (List.range 8).map fun i => (i == chipNo c / cols || rows ≤ i, colLink c i)
  let all := row ++ col
  let used := (all.filter (!·.1)).map (·.2)
  let lanes (k : Nat) : List Nat :=
    (List.range 56).filter fun n => getF c (F.LANE_USE_TX_USE n) == 3 && getF c (F.LANE_USE_LINK n) == k
  let slots := if twinSplit c then laneSlots else 2 * laneSlots
  all.all (fun e => !e.1 || e.2 == 15) && decide used.Nodup &&
    used.all fun k => (lanes k).length == 2 && (lanes k).all (laneEnabled c) &&
      !overLoad (linkLoad c (flag c F.CHZ_MODE_CAL8) k) slots

/-- The order list names each tile once (R172). -/
def orderRule (c : State) : Bool :=
  let l := (List.range 544).map (orderEntry c)
  l.all (· < 544) && decide l.Nodup

/-- A length padded to a multiple of 64. -/
def padLen (n : Nat) : Nat := (n + 63) / 64 * 64

/-- Bytes of a channel product (R209). -/
def productSize (c : State) : Nat :=
  let d := domainSignals c
  64 + padLen (spanLen c * integLen c * d / 8) + padLen (4 * integLen c) + padLen (blocksOf c) + d * (d + 1) / 2 * 8

/-- Product slots, staging buffers and sum-store sets (R218). -/
def stagingRule (c : State) : Bool :=
  let slot := getF c F.INT_PRODUCT_SLOT_MIB * 2 ^ 20
  productSize c ≤ slot && inRegion c 3 (getPair c R.INT_STAGE_BASE_LO) (128 * slot) &&
    inRegion c 2 (getPair c R.INT_SUM_BASE_LO) (2 * 4429185024)

/-- Relay and twin split exclude each other (R229). -/
def relayRule (c : State) : Bool := !(flag c F.BFM_CTRL_RELAY_EN && twinSplit c)

/-- Voltage streams (R234), whatever VOLT_DEST says: each on a lane with the voltage-beam use, its beams in VOLTAGE mode, its load
within 96% of a lane. -/
def streamRule (c : State) : Bool :=
  (List.range 22).all fun n =>
    let first := getF c (F.BFM_VSTREAM_FIRST_BEAM n)
    let count := getF c (F.BFM_VSTREAM_COUNT_M1 n) + 1
    let ch := streamChannels count
    !flag c (F.BFM_VSTREAM_EN n) ||
      (getF c (F.LANE_USE_TX_USE (streamLane n)) == 2 && first + count ≤ 256 &&
        (List.range' first count).all (fun b => beamMode c b == 1) &&
        !overLoad (256 * (64 / ch) * (2 * ch * count + 42)) laneSlots)

/-- Bytes of the largest product that ring `r` takes (R235, R237, R238). -/
def largestProduct (c : State) (r : Nat) : Nat :=
  let d := domainSignals c
  if r = 0 then 320 + 2 * d + d / 8
  else
    let pw := (beamsOf c 2).length
    let vo := if flag c F.BFM_CTRL_VOLT_DEST then (beamsOf c 1).length else 0
    let fr := powerFrames c
    max (if pw = 0 then 0 else 64 + 256 * fr + fr * 256 / 2 ^ powerK c * 64 * pw * 4)
      (if vo = 0 then 0 else 320 + 256 * 64 * vo * 2)

/-- The slots of the beam rings hold the largest product (R235). -/
def ringRule (c : State) : Bool :=
  (List.range 2).all fun r => largestProduct c r ≤ getF c ⟨R.BFM_RING_SLOT r, 31, 0⟩ * 1024

/-- The memory partition (R299, R301). -/
def partitionRule (c : State) : Bool :=
  let rs := List.range 6
  let base := regionBase c
  let size := regionSize c
  rs.all (fun r => size r == 0 || base r + size r ≤ capacity c) &&
    rs.all (fun r => rs.all fun q => r == q || size r == 0 || size q == 0 || base r + size r ≤ base q ||
      base q + size q ≤ base r) &&
    [0, 1].all (fun r => base r % 2 ^ 30 == 0 && size r % 2 ^ 30 == 0) && 4 * 2 ^ 20 ≤ size 5 &&
    (capacity c != 64 * 2 ^ 30 || size 0 == 0)

/-- The rules in order, each with the TYPE of the section that carries it. -/
def contentRules : List (Nat × (State → Bool)) :=
  [(5, spanRule), (1, lanePlanRule), (2, geometryRule), (1, signalBaseRule), (2, routeRule), (3, orderRule), (8, stagingRule),
    (5, relayRule), (5, streamRule), (8, ringRule), (8, partitionRule)]

/-- Order 9: CONTENT with the table entry of the section that carries the first rule broken (R396; log entry 48). -/
def contentCheck (s : State) (img : List Byte) : Option (Nat × Nat) :=
  let c := shadowState s img
  match contentRules.find? fun e => !e.2 c with
  | some (t, _) => some (lrContent, (((sections img).find? (·.type == t)).map (·.k)).getD 255)
  | none => none

/-- The checks of R396 in order; a bundle where one is required. -/
def fullCheck (s : State) (bytes : List Byte) (bundle : Bool) : Option (Nat × Nat) :=
  match imageCheck (memberCode s) bytes bundle with
  | some e => some e
  | none => contentCheck s (imageOf bytes)

end Sys2Proof.Machine
end

