-- ==== Sys2Proof/Machine/Load.lean ====
section
/-! DEFINITION. Loading a structure image: LOAD_STRUCTURE, LOAD_REGION, and what the end of a load does (R393, R394, R396 to
R401, R454). -/

namespace Sys2Proof.Machine

/-! ## Applying records -/

/-- Registers that take a record as they stand, whatever keeps another master's write out. -/
def forcedWrite (a : Nat) : Bool :=
  (0x800004 ≤ a && a < 0x800180 && a != R.XR_LINK_CTRL) || (0x902000 ≤ a && a < 0x902440) || a == R.INT_STREAM ||
    (0xB00020 ≤ a && a < 0xC00000 && !(R.BFM_FLIP_MASK 0 ≤ a && a < R.BFM_FLIP_MASK 8)) ||
    (0xC00008 ≤ a && a < 0xC00020) || (0xC000C0 ≤ a && a < 0xC00700)

/-- The word that a record asks for: EN of the data path's units is START's and stays as it is (R168, R194, R219, R243,
R266). -/
def recordWord (s : State) (a n : Nat) : Word :=
  let v := BitVec.ofNat 32 n
  if a = R.XR_CTRL ∨ a = R.COR_CTRL ∨ a = R.INT_CTRL ∨ a = R.BFM_CTRL ∨ a = R.TRG_CTRL then
    Fld.insert ⟨a, 0, 0⟩ v (getF s ⟨a, 0, 0⟩)
  else v

/-- The supervisor writes one record: the register's effects, and the RO and Image fields too (R393), a bank in use as any
other (R125). A lane whose use changes while enabled starts its bring-up again (R71). An array of a domain neither ON nor requested takes nothing;
`COR_TILE_COUNT` is fixed in silicon (R3). -/
def supervisorWrite (s : State) (e : Nat × Nat) : State :=
  let a := e.1
  let v := recordWord s a e.2
  let raw (s : State) (m : Word) : State := wr s a ((rd s a &&& ~~~m) ||| (v &&& m))
  if 0x1100060 ≤ a ∧ a < 0x1100090 then wr s (partitionKey a) (v &&& 0xFFFFF)
  else if a = R.PWR_REQ ∨ a = R.COR_TILE_COUNT then s
  else if (bankOf a).isSome then
    let d := bankDomain a
    if domOn s d || domWanted s d then mirrored s false a (wordBytes v) (bankStore · a v) else s
  else if forcedWrite a then raw s (accMask a .rw ||| supervisorMask a)
  else if 0x200000 ≤ a ∧ a < 0x2E0000 ∧ (a - 0x200000) % 0x4000 = 8 then
    setUse s ((a - 0x200000) / 0x4000) ((rd s a &&& ~~~(accMask a .ro)) ||| (v &&& accMask a .ro))
  else raw (regWrite s .supervisor a v) (supervisorMask a)

/-- What the units of the configuration blocks hold beside their registers goes back to reset with them: nothing is armed,
counted or left from an earlier run. The model table keeps its frames, patrol its tests and the correlator its pool, as the
arrays and tiles they describe stay (R399; log entry 48). -/
def unitsClear (s : State) : State :=
  let s := trgLost s
  { s with
    lanes := [], calActive := [], links := [], ingest := [], ingestValid := []
    chz := { slotFrame := s.chz.slotFrame }
    xr := {}, bfm := {}, integ := {}, evt := {}
    cor := { s.cor with last := none, lastClosed := none, waiting := none } }

/-- The registers of the configuration blocks go back to their reset values: units and lanes off, pins inputs, and the rest
as they are after reset; POWER_MAP's requests are made once, when it is applied (R399; log entry 48). -/
def configClear (s : State) : State :=
  let s := (List.range 56).foldl (fun s n =>
    if rd s (R.LANE_CTRL n) = resetWord (R.LANE_CTRL n) then s else laneWrite s (R.LANE_CTRL n) (resetWord (R.LANE_CTRL n))) s
  let s := (List.range 56).foldl (fun s n =>
    if rd s (R.LANE_TEST n) = resetWord (R.LANE_TEST n) then s else laneWrite s (R.LANE_TEST n) (resetWord (R.LANE_TEST n))) s
  let s := setIngestEnable s 0
  let s := (List.range 8).foldl (fun s k => evioCfgWrite s k (resetWord (R.EVT_EVIO_CFG k))) s
  let s := if flag s F.XR_CTRL_EN then setXrEnable s false else s
  let s := setTrgEnable (setBfmEnable (setIntEnable (corDisable s) false) false) false
  let req := rd s R.PWR_REQ
  wr (configReset (unitsClear s)) R.PWR_REQ req

/-- `PWR_REQ` takes what POWER_MAP last says, or its reset value (R446, R457). -/
def powerMap (s : State) (ws : List (Nat × Nat)) : State :=
  let v := match (ws.filter (·.1 == R.PWR_REQ)).getLast? with
    | some e => BitVec.ofNat 32 e.2
    | none => resetWord R.PWR_REQ
  pwrReqWrite s .supervisor v

/-- The records of one section type are applied in order. -/
def applyType (img : List Byte) (s : State) (t : Nat) : State :=
  let ws := typeWrites img t
  let s := ws.foldl supervisorWrite s
  let s := if t = 7 then powerMap s ws else s
  let s := if t = 1 ∨ t = 2 then linksRefresh s else s
  if t = 8 then setF s F.YDX_CAPACITY_FRAMES (ydxCapacity s) else s

/-- Store little-endian words into an array of a core, from its first entry. -/
def coreStore (s : State) (arr : Arr) (k : Nat) (bs : List Byte) : State :=
  (wordsOf bs).zipIdx.foldl (fun s (w, i) => arrSet s arr (0x10000 * k + i) (BitVec.ofNat 64 w)) s

/-- The BERYL_CODE section of core `k`, or none: the core is reset, loaded, and with RUN starts at C address 0, as soon as
its domain is ON (R296, R394, R399, R401). -/
def coreLoad (s : State) (k : Nat) (code : Option (List Byte)) : State :=
  let s := setStr (if domOn s (1 + k) then coreReset s k else s) fun x => { x with runDue := x.runDue.erase k }
  match code with
  | none => s
  | some bs =>
    let c := leAt bs 0 4
    let x := leAt bs 4 4
    let y := leAt bs 8 4
    if ¬ (domOn s (1 + k) || domWanted s (1 + k)) then s
    else
      let s := coreStore s .brlC k (bytesAt bs 16 c)
      let s := coreStore s .brlX k (bytesAt bs (16 + c) x)
      let s := coreStore s .brlY k (bytesAt bs (16 + c + x) y)
      if bitOf (leAt bs 12 1) 0 = false then s
      else if domOn s (1 + k) then brlRun s k true
      else setStr s fun z => { z with runDue := z.runDue ++ [k] }

/-- The code an image has for core `k`. -/
def coreCode (img : List Byte) (k : Nat) : Option (List Byte) :=
  ((sections img).find? fun x => x.type == 9 && x.region == 9 + k).map (sectionBytes img)

/-- The image runs: its ID and its sections' CRCs (R399, R400). -/
def imageRuns (s : State) (img : List Byte) : State :=
  let s := setPair (setF s F.STR_STATUS_LOADED 1) R.STR_IMAGE_ID_LO (imageId img)
  setStr s fun x => { x with image := (sections img).map fun e => (e.type, e.region, e.crc) }

/-- The chip is twinned no more: a join under way fails, and no peer has been heard (R458, R459, R468). -/
def twinLeave (s : State) : State :=
  let s := twinJoinEnd s stFailed
  [F.TWN_STATUS_STATE, F.TWN_STATUS_ROLE, F.TWN_STATUS_SLICE_OUT, F.TWN_STATUS_PEER_ALIVE].foldl (fun s f => setF s f 0)
    { s with twin := { seq := s.twin.seq } }

/-- A chip whose image sets TWIN_SPLIT is twinned and UNSYNCED; any other is not (R458). -/
def twinImage (s : State) : State :=
  let s := twinLeave s
  setF s F.TWN_STATUS_STATE (ofBool (twinSplit s))

/-- An image that passed every check is applied (R399). -/
def applyImage (s : State) (img : List Byte) : State :=
  let s := freeSlots (configClear (twinLeave s))
  let s := applyOrder.foldl (applyType img) s
  let s := (List.range 4).foldl (fun s k => coreLoad s k (coreCode img k)) s
  refreshLevels (twinImage (imageRuns s img))

/-! ## One region (R400, R401) -/

/-- The sections of every other region are those of the running image, and so are the firmware versions, unless 0. -/
def regionMatches (s : State) (img : List Byte) (r : Nat) : Bool :=
  let others := fun (l : List (Nat × Nat × Nat)) => l.filter (·.2.1 != r)
  let new := others ((sections img).map fun e => (e.type, e.region, e.crc))
  let old := others s.str.image
  let fw := getR s R.STR_FW_VERSION
  let ver := fun (o run : Nat) => leAt img o 4 == 0 || leAt img o 4 == run
  r != 0 && new.all (old.contains ·) && old.all (new.contains ·) && ver 32 (fw / 2 ^ 16) && ver 36 (fw % 2 ^ 16)

/-- The regions that load while the data path runs (R401). -/
def runningRegion (r : Nat) : Bool := r == 4 || r == 3 || r == 6 || (9 ≤ r && r ≤ 12)

/-- Records for later, each with the bits a section sets; RUN of `CHZ_CTRL` stays. -/
def laterWrites (ws : List (Nat × Nat)) : List (Nat × Word × Word) :=
  ws.map fun (a, v) =>
    let m := if (bankOf a).isSome then 0xFFFFFFFF else accMask a .rw ||| supervisorMask a
    (a, if a = R.CHZ_CTRL then m &&& ~~~F.CHZ_CTRL_RUN.mask else m, BitVec.ofNat 32 v)

/-- One region of an image that passed every check is applied, at once or when R401 says; the CORRELATOR region sets EN, which
a running data path has set unless a master has cleared it. -/
def applyRegion (s : State) (img : List Byte) (r : Nat) : State :=
  let ws := typeWrites img r
  if 9 ≤ r then coreLoad s (r - 9) (coreCode img (r - 9))
  else if s.arch.running = false then twinIf r (applyType img s r)
  else if r = 4 then setChz s fun c => { c with reload := some (laterWrites ws) }
  else if r = 6 then setStr s fun x => { x with events := some (laterWrites ws) }
  else corEnable (ws.foldl supervisorWrite (corDisable s))
where
  /-- A new route table may twin the chip or end that (R458). -/
  twinIf (r : Nat) (s : State) : State :=
    if r = 2 ∧ (twinSplit s ≠ decide (twinState s ≠ 0)) then twinImage s else s

/-! ## The commands -/

/-- An image location is within region 5, outside its first and last MiB (R398). -/
def imageAt (s : State) (off len : Nat) : Bool :=
  regionBase s 5 + 2 ^ 20 ≤ off && off + len + 2 ^ 20 ≤ regionBase s 5 + regionSize s 5

/-- The supervisor could not read what a command names: both reads are reported and get error responses, FW_ERROR, and
FAILED (R302, R306, R376). -/
def readFailed (s : State) (src : CmdSource) (cmd tag off len : Nat) : State :=
  let t := (unitFetch (unitFetch s 10 off len).1 10 off len).1
  respond (busError t 0 0 (memErrKind s 10 off len false) off false) src cmd tag stFailed 0 []

/-- A load is accepted: the image is copied, and LOADING reads 1 (R398). -/
def loadAccept (s : State) (src : CmdSource) (cmd tag off len : Nat) (region : Option Nat) : State :=
  match unitRead s 10 off len with
  | some bs =>
    acceptAsync (setStr (setF (served s 10 off len) F.STR_STATUS_LOADING 1) fun x => { x with
      load := some ⟨cmd, tag, region, bs, none⟩ }) src cmd tag
  | none => readFailed s src cmd tag off len

/-- LOAD_STRUCTURE (R398, R399). -/
def loadStructure (s : State) (src : CmdSource) (tag off len : Nat) : State :=
  serve s src 1 tag (leBytes 8 off ++ leBytes 4 len) fun s =>
    if s.str.load.isSome then respond s src 1 tag stBusy 0 []
    else if ¬ imageAt s off len then respond s src 1 tag stBadArgs 0 []
    else if s.arch.running then
      respond (setF (setF s F.STR_STATUS_LAST_RESULT lrNotStopped) F.STR_STATUS_LAST_SECTION 255) src 1 tag stNotReady 0 []
    else loadAccept s src 1 tag off len none

/-- LOAD_REGION (R398, R400). -/
def loadRegion (s : State) (src : CmdSource) (tag off len region : Nat) : State :=
  serve s src 2 tag (leBytes 8 off ++ leBytes 4 len ++ leBytes 1 region) fun s =>
    if s.str.load.isSome then respond s src 2 tag stBusy 0 []
    else if ¬ imageAt s off len ∨ 12 < region then respond s src 2 tag stBadArgs 0 []
    else loadAccept s src 2 tag off len (some region)

/-- The result of a load is shown, and its command ends (R396, R399). A load at boot has no command. -/
def loadEnd (s : State) (l : StrLoad) (fail : Option (Nat × Nat)) : State :=
  let (code, sec) := fail.getD (0, 255)
  let s := setF (setF s F.STR_STATUS_LAST_RESULT code) F.STR_STATUS_LAST_SECTION sec
  let s := if fail.isSome then bump s R.STR_REJECT_COUNT else s
  if l.cmd = 0 then s else notice s l.cmd l.tag (if fail.isSome then stRejected else stOk)

/-- What keeps a load from being applied, if anything: the checks in order, then what R399 and R400 ask. Until firmware runs
a bundle is required (R454). -/
def loadFails (s : State) (l : StrLoad) : Option (Nat × Nat) :=
  match fullCheck s l.bytes (!s.str.firmware) with
  | some e => some e
  | none => match l.region with
    | none => if s.arch.running then some (lrNotStopped, 255) else none
    | some r =>
      if ¬ regionMatches s (imageOf l.bytes) r then some (lrRegionMismatch, 255)
      else if s.arch.running ∧ ¬ runningRegion r then some (lrNotStopped, 255)
      else none

/-- The boot ROM runs the firmware of the bundle of a load: no firmware runs yet, and the bundle passes orders 1 to 8 (R454). -/
def bootRuns (s : State) (l : StrLoad) : Bool :=
  !s.str.firmware && l.region.isNone && (imageCheck (memberCode s) l.bytes true).isNone

/-- The end of a load: the checks, then the registers (R397, R399, R400). Under host and relay boot the bundle's firmware
runs once orders 1 to 8 are passed (R454). Images applied by LOAD_STRUCTURE or LOAD_REGION count (R418). -/
def loadComplete (s : State) : State :=
  match s.str.load with
  | none => s
  | some l =>
    let s := setStr (setF s F.STR_STATUS_LOADING 0) fun x => { x with load := none }
    let img := imageOf l.bytes
    let t := if bootRuns s l then firmwareRuns s img else s
    match loadFails s l with
    | some e => loadEnd t l (some e)
    | none =>
      let t := match l.region with
        | none => applyImage t img
        | some r => imageRuns (applyRegion t img r) img
      loadEnd (if l.cmd = 0 then t else bump t R.STR_LOAD_COUNT) l none

/-- LOAD_STRUCTURE. -/
def execLoadStructure (src : CmdSource) (tag : Word) (offset : DWord) (length : Word) (s : State) : Res :=
  run (loadStructure · src tag.toNat offset.toNat length.toNat) s

/-- LOAD_REGION. -/
def execLoadRegion (src : CmdSource) (tag : Word) (offset : DWord) (length : Word) (region : Byte) (s : State) : Res :=
  run (loadRegion · src tag.toNat offset.toNat length.toNat region.toNat) s

/-- STRUCTURE_LOAD_COMPLETE. -/
def execStructureLoadComplete (s : State) : Res := run loadComplete s

end Sys2Proof.Machine
end

