-- ==== Sys2Proof/Machine/Update.lean ====
section
/-! DEFINITION. Update sessions, the inactive slot, activation, trial, confirmation and fallback (R402, R403, R405 to R417). -/

namespace Sys2Proof.Machine

/-! ## Sessions -/

/-- STATE of `STR_SESSION`: 0 NONE, 1 RECEIVING, 2 CHECKING, 3 PROGRAMMING (R418). -/
def sessionState (s : State) : Nat := getF s F.STR_SESSION_STATE

/-- The session key of `a` is earlier than that of `b`: by ORIGIN_TIME, then by serial (R405). A key is (serial, time). -/
def keyEarlier (a b : Nat × Nat) : Bool := decide (a.2 < b.2) || (a.2 == b.2 && decide (a.1 < b.1))

/-- A session begins and is shown (R407, R418); a schedule pending at the chip is cancelled. -/
def sessionBegin (s : State) (x : StrSession) (st bytes : Nat) : State :=
  let s := [(F.STR_SESSION_STATE, st), (F.STR_SESSION_PORT, x.port.getD 0), (F.STR_SESSION_OWN, ofBool x.port.isNone),
    (F.STR_SESSION_FORCE, ofBool x.force), (F.STR_SESSION_PULLS, 0)].foldl (fun s e => setF s e.1 e.2) s
  let s := setPair (setPair (setR s R.STR_SESSION_BYTES bytes) R.STR_SESSION_ORIGIN_LO x.serial) R.STR_SESSION_TIME_LO x.time
  let s := (List.range 2).foldl (fun s k => setF s (F.STR_SLOT_STATE_SCHEDULED k) 0) s
  setStr (setPair s R.STR_ACT_FRAME_LO 0) fun z => { z with session := some x, refused := [], schedule := none }

/-- The chip is left with no session. -/
def sessionEnd (s : State) : State :=
  setStr (setR (setR s R.STR_SESSION 0) R.STR_SESSION_BYTES 0) fun z => { z with session := none }

/-- The chip has no session after an ABORT: PULL with OFFSET 0 on every port on which it refused a HEADER (R409). -/
def pullRefused (s : State) : State :=
  let s' := s.str.refused.foldl (fun s (p, serial, time) =>
    relaySendFrame (bump s R.STR_RELAY_PULL_COUNT) p 6 0 serial time 0 []) s
  setStr s' fun z => { z with refused := [] }

/-- Flash programming under way is abandoned: the slot is FAILED (R411). -/
def programStop (s : State) : State :=
  (List.range 2).foldl (fun s k =>
    if getF s (F.STR_SLOT_STATE_STATE k) = 5 then setF s (F.STR_SLOT_STATE_STATE k) 4 else s) s

/-- RESULT with a code towards the origin, out of the port of the session (R406, R411). -/
def sendResult (s : State) (port : Option Nat) (key : Nat × Nat) (code id : Nat) : State :=
  match port with
  | some p => relaySendFrame s p 7 0 key.1 key.2 0 (leBytes 8 deviceSerial ++ leBytes 1 code ++ leBytes 8 id)
  | none => s

/-- The slot an update programs: the one that does not run; none while a trial is not confirmed (R411, R416; log entry
49). -/
def inactiveSlot (s : State) : Option Nat := if (trialSlot s).isSome then none else some (1 - activeSlot s)

/-- The update staging area (R407). -/
def stagingBase (s : State) : Nat := regionBase s 5 + 64 * 2 ^ 20

/-- The schedule in 16 bytes (R413). -/
def scheduleOf (b : List Byte) : StrSchedule := ⟨leAt b 0 6, leAt b 6 6, leAt b 12 2, leAt b 14 1⟩

/-- The bytes of a schedule. -/
def scheduleBytes (x : StrSchedule) : List Byte :=
  leBytes 6 x.fa ++ leBytes 6 x.fr ++ leBytes 2 x.timeout ++ leBytes 1 x.flags ++ leBytes 1 0

/-- The HEADER of a session on a port (R406). -/
def sendHeader (s : State) (x : StrSession) (p : Nat) : State :=
  match x.schedule with
  | some sch => relaySendFrame s p 1 (ofBool x.force) x.serial x.time 0 (scheduleBytes sch ++ x.head)
  | none => s

/-- DATA frames of a session from `off`, 1,024 bytes each but the last (R406). -/
def sendData (x : StrSession) (p : Nat) : Nat → State → Nat → List Byte → State
  | 0, s, _, _ => s
  | n + 1, s, off, bs =>
    if bs == [] then s
    else sendData x p n (relaySendFrame s p 2 (ofBool x.force) x.serial x.time off (bs.take 1024)) (off + 1024) (bs.drop 1024)

/-- END of a session (R406). -/
def sendEnd (s : State) (x : StrSession) (p len : Nat) : State :=
  relaySendFrame s p 3 (ofBool x.force) x.serial x.time len []

/-- The image from `off` on and then END, on a port. -/
def sendImage (s : State) (x : StrSession) (p off : Nat) (img : List Byte) (ended : Bool) : State :=
  let s := sendData x p (img.length / 1024 + 1) s off (img.drop off)
  if ended then sendEnd s x p img.length else s

/-- A relay session in progress is ended by a FORCE session: ABORT along it, and the count (R410). -/
def sessionForcedOut (s : State) : State :=
  match s.str.session with
  | some x =>
    let s := (List.range 2).foldl (fun s p => relaySendFrame s p 5 0 x.serial x.time 0 []) s
    sessionEnd (programStop (bump s R.STR_RELAY_ABORT_COUNT))
  | none => s

/-- The image of a session has passed its checks: the inactive slot is programmed. What it held is gone from now on, and
until programming ends it holds nothing that boots (R411; log entry 49). -/
def programBegin (s : State) : State :=
  let s := setF s F.STR_SESSION_STATE 3
  match inactiveSlot s with
  | some k =>
    setStr (setF (setF s (F.STR_SLOT_STATE_STATE k) 5) (F.STR_SLOT_STATE_SCHEDULED k) 0) fun z =>
      { z with slots := z.slots.drop (· == k) }
  | none => s

/-- The inactive slot is FAILED: the image for it failed a check (R411). -/
def slotFailed (s : State) : State :=
  match inactiveSlot s with
  | some k => setF s (F.STR_SLOT_STATE_STATE k) 4
  | none => s

/-! ## SCHEDULE_UPDATE (R413) -/

/-- The schedule is one that R413 allows. -/
def scheduleOk (s : State) (x : StrSchedule) : Bool :=
  frameOf s + 4 ≤ x.fa && (x.fr == 0 || x.fa + 2048 ≤ x.fr) && x.timeout != 0

/-- The host's session starts on an image that passed its checks; with RELAY it is sent on both ports (R406, R413). -/
def ownSession (s : State) (tag : Nat) (sch : StrSchedule) (img : List Byte) : State :=
  let relay := bitOf sch.flags 0
  let x : StrSession :=
    { serial := deviceSerial, time := localNs s, port := none, force := bitOf sch.flags 1, relay := relay, tag := tag
      schedule := some sch, head := img.take (256 + 32 * leAt img 16 4), image := img, ended := true, same := false }
  let s := programBegin (sessionBegin s x 2 img.length)
  if relay then
    (List.range 2).foldl (fun s p => sendImage (sendHeader s x p) x p 0 img true) s
  else s

/-- SCHEDULE_UPDATE: its arguments, whether the chip is free, and the check of its own copy (R410, R411, R413). -/
def scheduleUpdate (s : State) (src : CmdSource) (tag off len : Nat) (sch : StrSchedule) : State :=
  serve s src 5 tag (leBytes 8 off ++ leBytes 4 len ++ scheduleBytes sch) fun s =>
    let own := s.str.session.any (·.port.isNone)
    if ¬ imageAt s off len ∨ ¬ scheduleOk s sch then respond s src 5 tag stBadArgs 0 []
    else if own ∨ sessionState s = 3 ∨ (inactiveSlot s).isNone ∨ (s.str.session.isSome ∧ bitOf sch.flags 1 = false) then
      respond s src 5 tag stBusy 0 []
    else match unitRead s 10 off len with
      | none => readFailed s src 5 tag off len
      | some bs =>
        let s := acceptAsync (served s 10 off len) src 5 tag
        match fullCheck s bs true with
        | some (code, sec) =>
          let s := setF (setF (slotFailed s) F.STR_STATUS_LAST_RESULT code) F.STR_STATUS_LAST_SECTION sec
          notice (bump s R.STR_REJECT_COUNT) 5 tag stRejected
        | none => ownSession (sessionForcedOut s) tag sch (imageOf bs)

/-! ## The end of programming (R411) -/

/-- The slot is VALID and carries the schedule, if that still stands (R411, R414). -/
def slotValid (s : State) (k : Nat) (x : StrSession) (img : List Byte) : State :=
  let s := setStr (slotShow s k 1 img) fun z => { z with slots := z.slots.put k img }
  match x.schedule with
  | some sch =>
    setStr (setPair (setF s (F.STR_SLOT_STATE_SCHEDULED k) 1) R.STR_ACT_FRAME_LO sch.fa) fun z =>
      { z with schedule := some (k, sch, x.tag, x.port), origin := (x.serial, x.time) }
  | none => s

/-- The session of this chip has ended with a code: LAST_RESULT, RESULT towards the origin or the notice of the host's
command (R411, R413). -/
def updateEnd (s : State) (x : StrSession) (code sec status id : Nat) : State :=
  let s := setF (setF s F.STR_STATUS_LAST_RESULT code) F.STR_STATUS_LAST_SECTION sec
  let s := sessionEnd s
  if x.port.isNone then notice s 5 x.tag status else sendResult s x.port (x.serial, x.time) code id

/-- The image of a session: the origin's own copy, or the staged one (R407). -/
def sessionImage (s : State) (x : StrSession) : List Byte :=
  if x.port.isNone then x.image else dramRead s (stagingBase s) (getR s R.STR_SESSION_BYTES)

/-- SLOT_PROGRAM_COMPLETE: the slot was read back, and matched or did not (R411). -/
def slotProgramComplete (s : State) (readBack : Bool) : State :=
  match s.str.session, inactiveSlot s with
  | some x, some k =>
    if sessionState s ≠ 3 then s
    else
      let img := sessionImage s x
      if readBack then updateEnd (slotValid s k x img) x 0 255 stOk (imageId img)
      else updateEnd (setF s (F.STR_SLOT_STATE_STATE k) 4) x lrFlash 255 stFailed (imageId img)
  | _, _ => s

/-! ## Activation, trial, confirmation, fallback (R414 to R417) -/

/-- A session whose slot is not VALID at tick FA loses its schedule: RESULT with LATE (R414). -/
def scheduleLate (s : State) : State :=
  match s.str.session with
  | some x =>
    if x.schedule.any fun sch => decide (sch.fa ≤ startedFrame s) then
      let s := setF s F.STR_STATUS_LAST_RESULT lrLate
      let s := setStr s fun z => { z with session := some { x with schedule := none } }
      sendResult s x.port (x.serial, x.time) lrLate (leAt x.head 8 8)
    else s
  | none => s

/-- UPDATE_ACTIVATION: at tick FA, no load being under way, the scheduled slot is activated (R414). -/
def updateActivation (s : State) : State :=
  if s.str.load.isSome then s
  else match s.str.schedule with
    | some (k, sch, tag, _) =>
      if startedFrame s < sch.fa then s
      else
        let f := startedFrame s
        let s := if s.arch.running ∧ s.arch.stopFrame.all (f < ·) then
            stopTick (setArch s fun a => { a with stopFrame := some f }) f
          else s
        let s := recordWriteFlash s (activeSlot s) k 0 tag sch.fr sch.timeout
        let s := setF (setF s (F.STR_SLOT_STATE_STATE k) 3) (F.STR_SLOT_STATE_SCHEDULED k) 0
        bootSlot (setStr (setPair s R.STR_ACT_FRAME_LO 0) fun z => { z with schedule := none }) k
    | none => scheduleLate s

/-- Fallback: the record, the data path, the ACTIVE slot's firmware, settings and image, and the reports (R417). -/
def fallback (s : State) (k reason : Nat) : State :=
  let b := (recordNow s).getD []
  let failed := imageId (s.str.slots.get [] k)
  let s := setF (trialFailed (settingsSave s) k) F.STR_STATUS_TRIAL 0
  let s := if s.arch.running then stopRun s else s
  let s := { (setStr s fun z => { z with restart := none }) with mail := { s.mail with restarting := false } }
  let a := activeSlot s
  let img := s.str.slots.get [] a
  let s := settingsRestore (setF (firmwareRuns s img) F.STR_STATUS_BOOT_SLOT a) a
  let s := match fullCheck s img true with
    | none => applyImage s (imageOf img)
    | some (code, sec) => slotRejected s a code sec
  fallbackReport s reason (leAt b 12 4) failed

/-- TRIAL_FIRMWARE_START: the data path stopped, the trial firmware has or has not been able to parse the settings of ACTIVE;
what it has parsed it keeps in its own area and format (R415). -/
def trialStart (s : State) (parsed : Bool) : State :=
  match s.str.restart with
  | none => s
  | some k =>
    if s.arch.running then s
    else
      let b := (recordNow s).getD []
      let s := { (setStr s fun z => { z with restart := none, trialAt := s.counter.toNat }) with mail := { s.mail with restarting := false } }
      let img := s.str.slots.get [] k
      if ¬ parsed then fallback s k 1
      else
        let own : Settings := ⟨leAt img 40 4, (s.str.settings.get ⟨0, []⟩ (activeSlot s)).regs⟩
        let s := settingsRestore (setStr s fun z => { z with settings := z.settings.put k own }) k
        match fullCheck s img true with
        | some (code, sec) => fallback (slotRejected s k code sec) k 2
        | none =>
          let s := applyImage s (imageOf img)
          let s := setF (setF s F.STR_STATUS_LAST_RESULT 0) F.STR_STATUS_LAST_SECTION 255
          let fr := leAt b 16 6
          let s := if fr ≠ 0 ∧ startStatus s fr = stOk then startRun s fr else s
          notice (setF s F.STR_STATUS_TRIAL 1) 5 (leAt b 12 4) stOk

/-- CONFIRM_UPDATE: the trial slot becomes ACTIVE (R416). -/
def confirmUpdate (s : State) (src : CmdSource) (tag id : Nat) : State :=
  serve s src 6 tag (leBytes 8 id) fun s =>
    match trialSlot s with
    | some k =>
      if flag s F.STR_STATUS_TRIAL ∧ id = imageId (s.str.slots.get [] k) then
        let s := recordWriteFlash s k 0xFF 0 0 0 0
        let s := setF (setF s (F.STR_SLOT_STATE_STATE k) 2) F.STR_STATUS_TRIAL 0
        let s := if getF s (F.STR_SLOT_STATE_STATE (1 - k)) = 2 then setF s (F.STR_SLOT_STATE_STATE (1 - k)) 1 else s
        respond s src 6 tag stOk 0 []
      else respond s src 6 tag stRejected 0 []
    | none => respond s src 6 tag stRejected 0 []

/-- The counter value at which the record's CONFIRM_TIMEOUT, in seconds from the trial firmware's start, is over (R403, R416).
-/
def trialDue (s : State) : Int := s.str.trialAt + leAt ((recordNow s).getD []) 22 2 * 800000000

/-- CONFIRM_TIMEOUT: no confirm came within the record's CONFIRM_TIMEOUT of the trial firmware's start (R416). -/
def confirmTimeout (s : State) : State :=
  match trialSlot s with
  | some k => if flag s F.STR_STATUS_TRIAL ∧ trialDue s ≤ s.counter.toNat then fallback s k 4 else s
  | none => s

/-! ## The commands -/

/-- SCHEDULE_UPDATE. -/
def execScheduleUpdate (src : CmdSource) (tag : Word) (offset : DWord) (length : Word) (fa fr : BitVec 48)
    (timeout : BitVec 16) (relay force : Bool) (s : State) : Res :=
  run (scheduleUpdate · src tag.toNat offset.toNat length.toNat
    ⟨fa.toNat, fr.toNat, timeout.toNat, ofBool relay + 2 * ofBool force⟩) s

/-- CONFIRM_UPDATE. -/
def execConfirmUpdate (src : CmdSource) (tag : Word) (id : DWord) (s : State) : Res :=
  run (confirmUpdate · src tag.toNat id.toNat) s

/-- SLOT_PROGRAM_COMPLETE. -/
def execSlotProgramComplete (readBack : Bool) (s : State) : Res := run (slotProgramComplete · readBack) s

/-- UPDATE_ACTIVATION. -/
def execUpdateActivation (s : State) : Res := run updateActivation s

/-- TRIAL_FIRMWARE_START. -/
def execTrialFirmwareStart (parsed : Bool) (s : State) : Res := run (trialStart · parsed) s

/-- CONFIRM_TIMEOUT. -/
def execConfirmTimeout (s : State) : Res := run confirmTimeout s

end Sys2Proof.Machine
end

