-- ==== Sys2Proof/Machine/Relay.lean ====
section
/-! DEFINITION. Relay frames received on the relay path ports (R405 to R412). -/

namespace Sys2Proof.Machine

/-- Fields of a relay frame (R405). -/
def RelayFrame.key (f : Sys2Proof.RelayFrame) : Nat × Nat := (leAt f.header 8 8, leAt f.header 16 8)
def RelayFrame.offset (f : Sys2Proof.RelayFrame) : Nat := leAt f.header 24 8

/-- A frame comes in on a port: one with a bad CRC is dropped and counted (R405). -/
def relayIn (s : State) (f : Sys2Proof.RelayFrame) (act : State → State) : State :=
  if f.header.length = 32 ∧ f.payload.length = leAt f.header 4 2 ∧
      leBytes 4 (crc32c (f.header ++ f.payload)).toNat = f.crc then act s
  else bump s R.STR_RELAY_CRC_ERR_COUNT

/-- A frame goes on out of the other port with HOPS_LEFT one less, unless that is 0 (R405). -/
def relayForward (s : State) (port : Nat) (f : Sys2Proof.RelayFrame) : State :=
  let hops := leAt f.header 2 1
  if hops = 0 ∨ (1 - port) ∉ s.ptp.up then s
  else emit s (.relayFrame (1 - port) (leAt f.header 0 1)
    (f.header.take 2 ++ leBytes 1 (hops - 1) ++ f.header.drop 3 ++ f.payload))

/-- The frame belongs to the relay session that the chip receives on this port. -/
def sessionOf (s : State) (port : Nat) (f : Sys2Proof.RelayFrame) : Option StrSession :=
  s.str.session.bind fun x =>
    if x.port = some port ∧ RelayFrame.key f = (x.serial, x.time) ∧ sessionState s = 1 then some x else none

/-! ## HEADER (R407, R410) -/

/-- One table entry as R391 and R392 say, as far as the table shows it. -/
def entryOk (head : List Byte) (before : List Section) (x : Section) : Bool :=
  let o := 256 + 32 * x.k
  regionOk x.type x.region && zeroAt head (o + 2) 2 && zeroAt head (o + 16) 16 && x.offset % 64 == 0 && 1 ≤ x.length &&
    256 + 32 * leAt head 16 4 ≤ x.offset && x.offset + x.length ≤ sigOff head &&
    before.all fun y => !(y.type == x.type && y.region == x.region) &&
      (y.offset + y.length ≤ x.offset || x.offset + x.length ≤ y.offset)

/-- Orders 1 to 4 of R396 on header and table, with BUNDLE (R407). -/
def tableOk (s : State) (head : List Byte) : Bool :=
  let n := leAt head 16 4
  let xs := sections head
  let has := fun t => xs.any (·.type == t)
  imageLen head ≤ 62914560 && headCheck (memberCode s) head == none && 1 ≤ n && n ≤ 32 && head.length == 256 + 32 * n &&
    leAt head 20 4 == 256 && sigOff head % 64 == 0 && 256 + 32 * n ≤ sigOff head && imageLen head == sigOff head + 256 &&
    leAt head 7 1 == 1 && zeroAt head 108 144 && (List.range' 1 8).all has && has 10 && has 11 &&
    (List.range xs.length).all fun i => (xs[i]?).any (entryOk head (xs.take i))

/-- BUSY with the key of the session in the way and its IMAGE_ID; the refusal is counted, but not while a slot is being
programmed (R406, R407, R411). -/
def refuseHeader (s : State) (port : Nat) (x : StrSession) (f : Sys2Proof.RelayFrame) : State :=
  let (serial, time) := RelayFrame.key f
  let s := if sessionState s = 3 then s else bump s R.STR_RELAY_BUSY_COUNT
  let s := setStr s fun z => { z with refused := z.refused ++ [(port, serial, time)] }
  relaySendFrame s port 4 0 serial time 0 (leBytes 8 x.serial ++ leBytes 8 x.time ++ leBytes 8 (leAt x.head 8 8))

/-- A HEADER is accepted: the session begins, and the HEADER goes on (R407). -/
def acceptHeader (s : State) (port : Nat) (f : Sys2Proof.RelayFrame) : State :=
  let head := f.payload.drop 16
  let (serial, time) := RelayFrame.key f
  let same := (inactiveSlot s).any fun k =>
    getF s (F.STR_SLOT_STATE_STATE k) == 1 && getPair s (R.STR_SLOT_ID_LO k) == imageId head
  let x : StrSession :=
    { serial := serial, time := time, port := some port, force := bitOf (leAt f.header 1 1) 0, relay := true, tag := 0
      schedule := some (scheduleOf f.payload), head := head, image := [], ended := false, same := same }
  relayForward (sessionBegin s x 1 0) port f

/-- HEADER: with no session one that passes the checks is accepted, and any other does nothing; the header of another session
than the one held is refused with BUSY, but for one with FORCE that passes the checks, over a relay session (R407, R410). -/
def headerReceived (s : State) (port : Nat) (f : Sys2Proof.RelayFrame) : State :=
  let ok := tableOk s (f.payload.drop 16)
  match s.str.session with
  | none => if ok then acceptHeader s port f else s
  | some x =>
    if RelayFrame.key f = (x.serial, x.time) then s
    else if ok ∧ x.port.isSome ∧ sessionState s ≠ 3 ∧ bitOf (leAt f.header 1 1) 0 = true then
      acceptHeader (sessionForcedOut s) port f
    else refuseHeader s port x f

/-! ## DATA and END (R407, R408, R411) -/

/-- A session that has lost frames is abandoned: RESULT with LOST, whose code the spec does not give (R408; log entry 49). -/
def sessionLost (s : State) (x : StrSession) : State :=
  let code := (freeNext s).toNat % 256
  sessionEnd (sendResult (freeTaken s) x.port (x.serial, x.time) code (leAt x.head 8 8))

/-- A frame that is not the next one is dropped: PULL with the OFFSET expected, or after 8 PULLs the end (R408). -/
def pullNext (s : State) (port : Nat) (x : StrSession) : State :=
  if 8 ≤ getF s F.STR_SESSION_PULLS then sessionLost s x
  else
    let s := setF s F.STR_SESSION_PULLS (getF s F.STR_SESSION_PULLS + 1)
    relaySendFrame (bump s R.STR_RELAY_PULL_COUNT) port 6 0 x.serial x.time (getR s R.STR_SESSION_BYTES) []

/-- DATA of the session in order is staged and forwarded (R407, R408). -/
def dataReceived (s : State) (port : Nat) (f : Sys2Proof.RelayFrame) : State :=
  match sessionOf s port f with
  | none => s
  | some x =>
    let off := getR s R.STR_SESSION_BYTES
    let n := f.payload.length
    if RelayFrame.offset f ≠ off then pullNext s port x
    else if 1024 < n ∨ n = 0 ∨ imageLen x.head < off + n then s
    else
      let s := unitWrite s 10 (stagingBase s + off) f.payload
      relayForward (setR s R.STR_SESSION_BYTES (off + n)) port f

/-- The staged image cannot be read: both reads are reported and get error responses, FW_ERROR, and the slot is FAILED (R302,
R306, R376, R411; log entry 49). -/
def stagedLost (s : State) (x : StrSession) : State :=
  let off := stagingBase s
  let len := getR s R.STR_SESSION_BYTES
  let t := (unitFetch (unitFetch s 10 off len).1 10 off len).1
  let t := busError t 0 0 (memErrKind s 10 off len false) off false
  updateEnd (slotFailed t) x lrFlash 255 stFailed (leAt x.head 8 8)

/-- The staged image `img` is checked after END: booted under relay boot (R454), FAILED with its code, a schedule for a slot
that holds the image already, or programming (R396, R407, R411). -/
def stagedCheck (s : State) (x : StrSession) (img : List Byte) : State :=
  let id := imageId img
  let rejected (s : State) : State := bump s R.STR_REJECT_COUNT
  if s.str.firmware = false ∧ getF s F.PWR_BOOT_BOOT_SRC = 2 then
    match imageCheck (memberCode s) img true with
    | some (code, sec) => updateEnd (rejected s) x code sec stRejected id
    | none =>
      let s := updateEnd (firmwareRuns s img) x 0 255 stOk id
      setStr (setF s F.STR_STATUS_LOADING 1) fun z => { z with load := some ⟨0, 0, none, img, none⟩ }
  else match fullCheck s img true, inactiveSlot s with
    | some (code, sec), _ => updateEnd (slotFailed (rejected s)) x code sec stRejected id
    | none, none => updateEnd s x lrFlash 255 stFailed id
    | none, some k =>
      if x.same then updateEnd (slotValid s k x (s.str.slots.get [] k)) x 0 255 stOk id else programBegin s

/-- The staged image is read and checked (R411). -/
def sessionCheck (s : State) (x : StrSession) : State :=
  match unitRead s 10 (stagingBase s) (getR s R.STR_SESSION_BYTES) with
  | none => stagedLost s x
  | some img => stagedCheck (served s 10 (stagingBase s) (getR s R.STR_SESSION_BYTES)) x img

/-- END of the session: forwarded, and the staged image is checked; before the whole image it is out of order (R408,
R411). -/
def endReceived (s : State) (port : Nat) (f : Sys2Proof.RelayFrame) : State :=
  match sessionOf s port f with
  | none => s
  | some x =>
    if getR s R.STR_SESSION_BYTES ≠ imageLen x.head ∨ RelayFrame.offset f ≠ imageLen x.head then pullNext s port x
    else
      let x := { x with ended := true }
      let s := setStr (setF (relayForward s port f) F.STR_SESSION_STATE 2) fun z => { z with session := some x }
      sessionCheck s x

/-! ## BUSY, ABORT, PULL (R408, R409) -/

/-- BUSY: at its origin an earlier blocking key ends the session; elsewhere it goes on (R409). -/
def busyReceived (s : State) (port : Nat) (f : Sys2Proof.RelayFrame) : State :=
  if (RelayFrame.key f).1 ≠ deviceSerial then relayForward s port f
  else match s.str.session with
    | some x =>
      if x.port.isNone ∧ RelayFrame.key f = (x.serial, x.time) ∧
          keyEarlier (leAt f.payload 0 8, leAt f.payload 8 8) (x.serial, x.time) = true then
        let s := (List.range 2).foldl (fun s p => relaySendFrame s p 5 0 x.serial x.time 0 []) s
        pullRefused (notice (sessionEnd (programStop s)) 5 x.tag stBusy)
      else s
    | none => s

/-- ABORT of the session held, from either side: it is dropped and goes on, and what was refused is pulled; at its origin
the host's command ends with FAILED (R409; DESIGN CHOICE, log entry 49). -/
def abortReceived (s : State) (port : Nat) (f : Sys2Proof.RelayFrame) : State :=
  match s.str.session with
  | some x =>
    if RelayFrame.key f = (x.serial, x.time) then
      let s := sessionEnd (programStop s)
      let s := if x.port.isNone then notice s 5 x.tag stFailed else s
      pullRefused (relayForward s port f)
    else s
  | none => s

/-- PULL: forwarding on that port restarts from OFFSET, out of the chip's own copy as far as it goes; from 0 with the
HEADER (R408, R409). -/
def pullReceived (s : State) (port : Nat) (f : Sys2Proof.RelayFrame) : State :=
  match s.str.session with
  | some x =>
    if RelayFrame.key f = (x.serial, x.time) then
      let off := RelayFrame.offset f
      let s := if off = 0 then sendHeader s x port else s
      sendImage s x port off (sessionImage s x) x.ended
    else s
  | none => s

/-! ## RESULT, FALLBACK, MGMT_REQ, MGMT_RSP (R406, R411, R412) -/

/-- RESULT: counted at the origin, else passed on (R411). -/
def resultReceived (s : State) (port : Nat) (f : Sys2Proof.RelayFrame) : State :=
  if (RelayFrame.key f).1 ≠ deviceSerial then relayForward s port f
  else if leAt f.payload 8 1 = 0 then bump s R.STR_RESULT_OK_COUNT
  else bump s R.STR_RESULT_FAIL_COUNT

/-- MGMT_REQ: for this chip it queues at the mailbox, else it goes on (R412). -/
def mgmtReqReceived (s : State) (port : Fin 2) (f : Sys2Proof.RelayFrame) : State :=
  if leAt f.payload 0 8 ≠ deviceSerial then relayForward s port f
  else if f.payload.length < 24 then s
  else
    let req := f.payload.drop 8
    let (serial, time) := RelayFrame.key f
    let r : MgmtReq :=
      { cmd := leAt req 0 2, tag := leAt req 4 4, args := (req.drop 16).take (leAt req 2 2)
        source := .relay port (BitVec.ofNat 64 serial) (BitVec.ofNat 64 time) }
    { s with mail := { s.mail with relay := s.mail.relay ++ [r] } }

/-- MGMT_RSP: passed on towards the requester (R406). -/
def mgmtRspReceived (s : State) (port : Nat) (f : Sys2Proof.RelayFrame) : State :=
  if (RelayFrame.key f).1 = deviceSerial then s else relayForward s port f

/-! ## The commands -/

/-- RELAY_HEADER_RECEIVED. -/
def execRelayHeaderReceived (port : Fin 2) (f : Sys2Proof.RelayFrame) (s : State) : Res :=
  run (fun s => relayIn s f (headerReceived · port f)) s

/-- RELAY_DATA_RECEIVED. -/
def execRelayDataReceived (port : Fin 2) (f : Sys2Proof.RelayFrame) (s : State) : Res :=
  run (fun s => relayIn s f (dataReceived · port f)) s

/-- RELAY_END_RECEIVED. -/
def execRelayEndReceived (port : Fin 2) (f : Sys2Proof.RelayFrame) (s : State) : Res :=
  run (fun s => relayIn s f (endReceived · port f)) s

/-- RELAY_BUSY_RECEIVED. -/
def execRelayBusyReceived (port : Fin 2) (f : Sys2Proof.RelayFrame) (s : State) : Res :=
  run (fun s => relayIn s f (busyReceived · port f)) s

/-- RELAY_ABORT_RECEIVED. -/
def execRelayAbortReceived (port : Fin 2) (f : Sys2Proof.RelayFrame) (s : State) : Res :=
  run (fun s => relayIn s f (abortReceived · port f)) s

/-- RELAY_PULL_RECEIVED. -/
def execRelayPullReceived (port : Fin 2) (f : Sys2Proof.RelayFrame) (s : State) : Res :=
  run (fun s => relayIn s f (pullReceived · port f)) s

/-- RELAY_RESULT_RECEIVED. -/
def execRelayResultReceived (port : Fin 2) (f : Sys2Proof.RelayFrame) (s : State) : Res :=
  run (fun s => relayIn s f (resultReceived · port f)) s

/-- RELAY_FALLBACK_RECEIVED: FALLBACK goes to every chip, so it goes on (R406). -/
def execRelayFallbackReceived (port : Fin 2) (f : Sys2Proof.RelayFrame) (s : State) : Res :=
  run (fun s => relayIn s f (relayForward · port f)) s

/-- RELAY_MGMT_REQ_RECEIVED. -/
def execRelayMgmtReqReceived (port : Fin 2) (f : Sys2Proof.RelayFrame) (s : State) : Res :=
  run (fun s => relayIn s f (mgmtReqReceived · port f)) s

/-- RELAY_MGMT_RSP_RECEIVED. -/
def execRelayMgmtRspReceived (port : Fin 2) (f : Sys2Proof.RelayFrame) (s : State) : Res :=
  run (fun s => relayIn s f (mgmtRspReceived · port f)) s

/-- SESSION_TIMEOUT: 1 s without a frame of a relay session (R408). -/
def execSessionTimeout (s : State) : Res :=
  run (fun s =>
    match s.str.session with
    | some x => if x.port.isSome ∧ sessionState s = 1 then sessionLost s x else s
    | none => s) s

end Sys2Proof.Machine
end

