-- ==== Sys2Proof/Machine/Twin.lean ====
section
/-! DEFINITION. The twin unit: joining, the snapshot, TWIN frames, digests, peer loss (R458 to R465). -/

namespace Sys2Proof.Machine

/-- Change what the twin unit holds. -/
def setTwin (s : State) (f : Twin → Twin) : State := { s with twin := f s.twin }

/-- ROLE: 0 none, 1 ACTIVE, 2 STANDBY, 3 SOLO (R468). -/
def twinRole (s : State) : Nat := getF s F.TWN_STATUS_ROLE

/-- SYNCED and ALONE put the slice back in service (R465). -/
def sliceIn (s : State) : State := refreshLevels (setF s F.TWN_STATUS_SLICE_OUT 0)

/-! ## TWIN_JOIN (R459) -/

/-- What the arguments of TWIN_JOIN must be; a chip that is not twinned takes none (log entry 50). -/
def joinOk (s : State) (role pair fj : Nat) : Bool :=
  twinState s != 0 && 1 ≤ role && role ≤ 3 && pair == getF s F.XR_CTRL_TWIN_PAIR && frameOf s + 4 ≤ fj && s.arch.running &&
    !flag s F.BFM_CTRL_RELAY_EN

/-- A join of either kind: what it names is noted (R459). -/
def joinNote (s : State) (role pair fj : Nat) : State :=
  let s := setF (setF (twinJoinEnd s stFailed) F.TWN_STATUS_ROLE role) F.TWN_STATUS_PAIR pair
  setTwin s fun t => { t with joinFrame := fj, joined := false, heardActive := false, silent := 0, abandoned := false,
                              streamEnd := none, checkedFrame := none, unsyncDue := none, own := [], peer := [],
                              checked := none, lost := false }

/-- An ACTIVE or SOLO join: ALONE at once, emitting from FJ unless it emits already (R458, R459). -/
def joinActive (s : State) (role pair fj : Nat) : State :=
  let was := 4 ≤ twinState s
  let s := setF (joinNote s role pair fj) F.TWN_STATUS_STATE 6
  sliceIn (if was then s else setTwin s fun t => { t with emitFrom := fj, emitInteg := fj })

/-- A STANDBY join: COPYING, the mirrored set kept aside so that a copy can be discarded (R458, R462). -/
def joinStandby (s : State) (tag pair fj : Nat) : State :=
  let s := setF (joinNote s 2 pair fj) F.TWN_STATUS_STATE 2
  setTwin (setR (setR s R.TWN_SNAP_TOTAL 0) R.TWN_SNAP_DONE 0) fun t => { t with
    joinTag := some tag, snapOffset := 0, saved := some (twinSave s) }

/-- The TWIN_JOIN command. -/
def twinJoin (s : State) (src : CmdSource) (tag role pair fj : Nat) : State :=
  serve s src 9 tag (leBytes 1 role ++ leBytes 1 pair ++ leBytes 6 fj) fun s =>
    if ¬ joinOk s role pair fj then respond s src 9 tag stBadArgs 0 []
    else if role = 2 then acceptAsync (joinStandby s tag pair fj) src 9 tag
    else notice (acceptAsync (joinActive s role pair fj) src 9 tag) 9 tag stOk

/-! ## The snapshot (R462) -/

/-- The domain that holds a word of the mirrored set. -/
def mirrorDomain (e : Bool × Nat) : Nat :=
  if e.1 then beamDomain (weightBeam e.2)
  else match arrayAt e.2 with
    | some (_, d, _) => d
    | none => 0

/-- A word of the mirrored set as the engine reads it. -/
def mirrorWord (s : State) (e : Bool × Nat) : List Byte :=
  if e.1 then (List.range 4).map fun i => (arrGet s .weight (mirrorDomain e) (e.2 + i)).setWidth 8
  else match arrayAt e.2 with
    | some (a, d, i) => leBytes 4 (arrGet s a d i).toNat
    | none => wordBytes (rd s e.2)

/-- What is armed follows the arm registers that a snapshot has brought: a switch, a mode change and a weight flip (R123,
R124, R224, R461). -/
def armsFollow (s : State) : State :=
  let s := setChz s fun c => { c with
    pendSwitch := if flag s F.CHZ_SWITCH_CTRL_ARMED then
        some (getPair s R.CHZ_SWITCH_FRAME_LO, getF s F.CHZ_SWITCH_CTRL_FILTER, getF s F.CHZ_SWITCH_CTRL_GAIN_BANK) else none
    pendMode := if flag s F.CHZ_MODE_ARMED then
        some (getPair s R.CHZ_MODE_FRAME_LO, flag s F.CHZ_MODE_NEXT_CAL8) else none }
  setBfm s fun b => { b with
    flip := if flag s F.BFM_FLIP_CTRL_ARMED then some (getPair s R.BFM_FLIP_FRAME_LO, bits256 s (R.BFM_FLIP_MASK 0)) else none }

/-- `a` is an arm register of the mirrored set (R461). -/
def armReg (a : Nat) : Bool :=
  (0x400000 ≤ a && a < 0x400300) || (0xB00008 ≤ a && a < R.BFM_BANK 0)

/-- A word of the snapshot is stored as it is. -/
def mirrorStore (s : State) (e : Bool × Nat) (bs : List Byte) : State :=
  let v : Word := BitVec.ofNat 32 (leNat bs)
  if e.1 then weightStore s e.2 (bs.map some)
  else match arrayAt e.2 with
    | some (.model, _, i) => modelWrite s (i / 64) (i / 16 % 4) (i % 16) v
    | some (a, _, i) => arrSet s a i (v.setWidth 64)
    | none => if armReg e.2 then armsFollow (wr s e.2 v) else wr s e.2 v

/-- The snapshot in frames of 16,384 bytes (R462). -/
def snapFrames (words : List (Bool × Nat)) : Nat → State → Nat → State
  | 0, s, _ => s
  | n + 1, s, i =>
    let ws := (words.drop (4096 * i)).take 4096
    snapFrames words n (sendTwin s 1 (16384 * i) (ws.flatMap (mirrorWord s))) (i + 1)

/-- The first of some words of the mirrored set that lies in a domain which is not ON. -/
def mirrorDark (s : State) (words : List (Bool × Nat)) : Option (Bool × Nat) := words.find? fun e => !domOn s (mirrorDomain e)

/-- The engine's access to a word of the mirrored set gets an error response of kind 2, and it abandons (R375, R376). -/
def snapError (s : State) (e : Bool × Nat) (write : Bool) : State := busError s 8 (if e.1 then 4 else 2) 2 e.2 write

/-- The engine sends some words of the mirrored set; where an array has no power it gets an error response and abandons
(R376, R462). -/
def snapOver (words : List (Bool × Nat)) (s : State) : State :=
  match mirrorDark s words with
  | some e => snapError s e false
  | none =>
    let s := setR (setR s R.TWN_SNAP_TOTAL snapTotal) R.TWN_SNAP_DONE snapTotal
    snapFrames words ((words.length + 4095) / 4096) s 0

/-- The engine sends the whole mirrored set. -/
def snapSend (s : State) : State := snapOver twinLayout s

/-- SNAPSHOT_COMPLETE: the stream has ended; the checked span is the first that begins at or after its end (R462, R463). -/
def snapshotComplete (s : State) : State :=
  let f := (s.counter.toNat + 2 ^ 21 - 1) / 2 ^ 21
  let first := (f + spanLen s - 1) / spanLen s * spanLen s
  let note (s : State) : State := setTwin s fun t => { t with streamEnd := some f, checkedFrame := some first }
  if ¬ s.twin.joined then s
  else if twinState s = 2 ∧ getR s R.TWN_SNAP_TOTAL ≠ 0 ∧ s.twin.snapOffset = getR s R.TWN_SNAP_TOTAL then
    setF (setTwin (note s) fun t => { t with saved := none, checked := t.saved }) F.TWN_STATUS_STATE 3
  else if twinRole s = 1 ∧ s.twin.streamEnd.isNone ∧ s.twin.abandoned = false then note s
  else s

/-! ## What every tick does (R460, R463, R465) -/

/-- A HEARTBEAT (R460). -/
def heartbeat (s : State) (f : Nat) : State :=
  let p := leBytes 1 (twinState s) ++ leBytes 1 (twinRole s) ++ leBytes 1 (getF s F.TWN_STATUS_PAIR) ++
    leBytes 1 (ofBool s.twin.abandoned) ++ leBytes 8 (getPair s R.STR_IMAGE_ID_LO) ++ leBytes 6 s.twin.joinFrame ++
    leBytes 6 0
  sendTwin s 3 f p

/-- The digest of span `sp` from its material (R463). -/
def digestOf (s : State) (sp : Nat) : Digest :=
  let m := s.twin.material.get digestFresh sp
  let crc (i : Nat) : Nat := (~~~(BitVec.ofNat 32 (m.getD i 0))).toNat
  { span := sp
    fields := [crc 0, m.getD 1 0, crc 2, m.getD 3 0, if m.getD 5 0 = 0 then 0 else crc 4]
    visCmp := s.twin.checkedFrame.any fun c => m.getD 6 0 == 0 || decide (c < m.getD 6 0) }

/-- Bits of the fields that differ; VIS_CRC only where both VIS_CMP are 1 (R463). -/
def digestDiffers (a b : Digest) : Nat :=
  packBits ((List.range 5).map fun i =>
    (a.fields.getD i 0 != b.fields.getD i 0) && (i != 4 || (a.visCmp && b.visCmp)))

/-- A standby compares own and peer digest of a span from the checked span on (R463, R464). -/
def digestCompare (s : State) (a b : Digest) : State :=
  let d := digestDiffers a b
  if d = 0 then
    let s := bump s R.TWN_DIGEST_MATCH_COUNT
    if twinState s = 3 ∧ s.twin.checkedFrame = some (a.span * spanLen s) then
      let f := frameOf s
      let s := setPair (setF s F.TWN_STATUS_STATE 4) R.TWN_SYNC_FRAME_LO f
      let s := setTwin s fun t => { t with emitFrom := f, emitInteg := a.span * spanLen s, checked := none }
      twinJoinEnd (sliceIn s) stOk
    else s
  else
    let s := fault (setR (bump s R.TWN_DIGEST_MISMATCH_COUNT) R.TWN_MISMATCH d) 21
    setTwin s fun t => { t with unsyncDue := some 0 }

/-- Own and peer digests of the same span meet. -/
def digestMeet (s : State) : State :=
  if twinState s ≠ 3 ∧ twinState s ≠ 4 then s
  else
    let both := s.twin.own.filterMap fun a => (s.twin.peer.find? (·.span == a.span)).map fun b => (a, b)
    let s := setTwin s fun t => { t with
      own := t.own.filter fun a => !both.any (·.1.span == a.span)
      peer := t.peer.filter fun a => !both.any (·.1.span == a.span) }
    both.foldl (fun s e =>
      if s.twin.checkedFrame.any fun c => decide (c ≤ e.1.span * spanLen s) then digestCompare s e.1 e.2 else s) s

/-- At tick s·S + 2S + 3 the digest of span s is sent and kept (R463). -/
def digestTick (s : State) (f : Nat) : State :=
  let n := spanLen s
  if n = 0 ∨ f < 2 * n + 3 ∨ (f - 3) % n ≠ 0 then s
  else
    let sp := (f - 3) / n - 2
    let d := digestOf s sp
    let p := d.fields.flatMap (leBytes 4) ++ leBytes 1 (ofBool d.visCmp) ++ leBytes 3 0
    let s := sendTwin s 2 (sp * n) p
    digestMeet (setTwin s fun t => { t with
      own := if twinRole s = 2 then t.own ++ [d] else []
      material := t.material.drop (· ≤ sp) })

/-- The join takes effect at tick FJ: statistics fresh, the active's snapshot, a standby that heard no active gives up
(R460, R462). -/
def joinTick (s : State) (f : Nat) : State :=
  if s.twin.joined ∨ twinRole s = 0 ∨ f < s.twin.joinFrame then s
  else
    let s := setTwin (clearStatistics s) fun t => { t with joined := true, mirrorCount := 0 }
    if twinRole s = 1 then snapSend s
    else if twinState s = 2 ∧ s.twin.heardActive = false then twinAbandon s 5
    else s

/-- A twinned chip at the tick of frame `f`; a standby whose engine has met an error gives up (R376, log entry 50); SOLO sends nothing on the twin link (R459), and its peer is alive no longer once
it has not been heard for `TWN_TIMEOUT` ticks (R468). -/
def twinTick (s : State) (f : Nat) : State :=
  if twinState s = 0 then s
  else
    let s := joinTick (setTwin s fun t => { t with silent := t.silent + 1 }) f
    let s := if twinState s = 2 ∧ twinRole s = 2 ∧ s.twin.abandoned = true then twinAbandon s 2 else s
    if twinRole s = 3 then
      (if max 1 (getF s F.TWN_TIMEOUT_VALUE) ≤ s.twin.silent then setF s F.TWN_STATUS_PEER_ALIVE 0 else s)
    else digestTick (heartbeat s f) f

/-! ## TWIN frames received (R93, R460, R462, R463) -/

/-- The frame passes R81. -/
def twinPasses (s : State) (n : Nat) (f : RxFrame) : Bool :=
  linkState s n == 5 && headerOk f && frByte f 0 == 6 && lengthOk f && f.eofInPlace && typeAllowed s n 6

/-- A stream error of the standby: the copy is abandoned, or after it the standby leaves at the next tick (R462). -/
def streamError (s : State) (mirror : Bool) : State :=
  if twinState s = 2 then twinAbandon s 2
  else if mirror ∧ (twinState s = 3 ∨ twinState s = 4) then setTwin s fun t => { t with unsyncDue := some 2 }
  else s

/-- A TWIN frame of a kind comes in: the peer is alive; one that fails its CRC is a stream error (R462, R465). -/
def twinReceive (s : State) (n kind : Nat) (f : RxFrame) (act : State → State) : State :=
  if ¬ twinPasses s n f then receive s n 6 f id
  else
    let s := setF (setTwin s fun t => { t with silent := 0, lost := false }) F.TWN_STATUS_PEER_ALIVE (ofBool (twinState s != 0))
    if ¬ payloadCrcOk f then streamError (receive s n 6 f id) (frField f 6 2 == 4)
    else receive s n 6 f fun s => if frField f 6 2 = kind ∧ twinState s ≠ 0 then act s else s

/-- The payload of a SNAPSHOT is stored as some words of the mirrored set; where an array here has no power the engine abandons,
with code 2 (R376, R462; log entry 50). -/
def snapStore (s : State) (f : RxFrame) (words : List (Bool × Nat)) : State :=
  let bs := frData f
  match mirrorDark s words with
  | some e => twinAbandon (snapError s e true) 2
  | none =>
    let s := words.zipIdx.foldl (fun s (e, i) => mirrorStore s e ((bs.drop (4 * i)).take 4)) s
    let off := s.twin.snapOffset + bs.length
    setTwin (setR (setR s R.TWN_SNAP_TOTAL (frField f 20 8)) R.TWN_SNAP_DONE off) fun t => { t with snapOffset := off }

/-- SNAPSHOT: the next bytes of the mirrored set (R462). -/
def snapshotReceived (s : State) (f : RxFrame) : State :=
  if twinState s ≠ 2 then s
  else if frField f 8 8 ≠ s.twin.snapOffset then twinAbandon s 2
  else snapStore s f ((twinLayout.drop (s.twin.snapOffset / 4)).take ((frData f).length / 4))

/-- One MIRROR record is done as the active did it; a bank in use takes it as any other (R93, R125, R223, R461). -/
def mirrorApply (s : State) (bar4 : Bool) (addr : Nat) (data : List Byte) : State :=
  if bar4 then
    if domOn s (beamDomain (weightBeam addr)) then weightStore s addr (data.map some) else s
  else
    (List.range (data.length / 4)).foldl (fun s i =>
      let a := addr + 4 * i
      let v : Word := BitVec.ofNat 32 (leNat ((data.drop (4 * i)).take 4))
      if a % 4 ≠ 0 ∨ domOn s (mirrorDomain (false, a)) = false then s
      else match arrayAt a with
        | some (.model, _, e) => modelWrite s (e / 64) (e / 16 % 4) (e % 16) v
        | _ =>
          if (bankOf a).isSome then bankStore s a v
          else if a = R.CHZ_SWITCH_FRAME_HI then switchArm s v
          else if a = R.CHZ_MODE_FRAME_HI then modeArm s v
          else if a = R.BFM_FLIP_FRAME_HI then flipArm s v
          else if a = R.TRG_INJECT then injectWrite s v
          else plainWrite s a v) s

/-- The records of a MIRROR payload, in order. -/
def mirrorRecords : Nat → State → List Byte → State
  | 0, s, _ => s
  | n + 1, s, bs =>
    if bs.length < 8 then s
    else
      let a := leAt bs 0 4
      let len := leAt bs 4 2
      let s := mirrorApply s (bitOf a 31) (a % 2 ^ 26) ((bs.drop 8).take len)
      mirrorRecords n s (bs.drop (8 + (len + 3) / 4 * 4))

/-- MIRROR: the next frame of records, on a standby whose join has taken effect (R93, R462). -/
def mirrorReceived (s : State) (f : RxFrame) : State :=
  let st := twinState s
  if st < 2 ∨ 4 < st ∨ s.twin.joined = false then s
  else if frField f 8 8 ≠ s.twin.mirrorCount then streamError s true
  else
    let bs := frData f
    mirrorRecords (bs.length / 8 + 1) (setTwin s fun t => { t with mirrorCount := t.mirrorCount + 1 }) bs

/-- DIGEST of the peer (R463). -/
def digestReceived (s : State) (f : RxFrame) : State :=
  if twinRole s ≠ 2 ∨ spanLen s = 0 then s
  else
    let bs := frData f
    let d : Digest :=
      { span := frField f 8 8 / spanLen s, fields := (List.range 5).map fun i => leAt bs (4 * i) 4
        visCmp := bitOf (leAt bs 20 1) 0 }
    digestMeet (setTwin s fun t => { t with peer := t.peer ++ [d] })

/-- A heartbeat's payload names another configuration than this chip's. A peer that has no role yet has named neither PAIR nor
FJ, so only its image is held against this chip's (R460; DESIGN CHOICE, log entry 50). -/
def configDiffers (s : State) (bs : List Byte) : Bool :=
  leAt bs 4 8 != getPair s R.STR_IMAGE_ID_LO ||
    (leAt bs 1 1 != 0 && (leAt bs 2 1 != getF s F.TWN_STATUS_PAIR || leAt bs 12 6 != s.twin.joinFrame))

/-- HEARTBEAT of the peer: configuration and abandonment for a standby whose join is under way, the peer's state for an active
(R458, R460, R462). -/
def heartbeatReceived (s : State) (f : RxFrame) : State :=
  let bs := frData f
  let st := leAt bs 0 1
  let s := if leAt bs 1 1 = 1 then setTwin s fun t => { t with heardActive := true } else s
  if twinState s = 2 ∨ twinState s = 3 then
    if configDiffers s bs then twinAbandon s 5
    else if twinState s = 2 ∧ leAt bs 1 1 = 1 ∧ bitOf (leAt bs 3 1) 0 = true then twinAbandon s 3
    else s
  else if twinRole s = 1 ∧ twinState s = 6 ∧ st = 4 then setF s F.TWN_STATUS_STATE 5
  else if twinState s = 5 ∧ st ≠ 4 then setF s F.TWN_STATUS_STATE 6
  else s

/-! ## The end of being twins (R463, R465) -/

/-- TWIN_UNSYNC: at the next tick the standby leaves; cause 2 counts as an abandonment, a mismatch leaves ABANDON as it is
(R462, R463). The spec gives a mismatch no number for the DETAIL of the join: it is a free value (R459; log entry 50). -/
def unsync (s : State) : State :=
  match s.twin.unsyncDue with
  | some c =>
    if twinState s ≠ 3 ∧ twinState s ≠ 4 then setTwin s fun t => { t with unsyncDue := none }
    else if c = 0 then
      if s.twin.joinTag.isSome then
        twinUnsync (freeTaken s) (getF s F.TWN_STATUS_ABANDON) ((freeNext s).toNat % 2 ^ 16)
      else twinUnsync s (getF s F.TWN_STATUS_ABANDON) 0
    else bump (twinUnsync s c c) R.TWN_ABANDON_COUNT
  | none => s

/-- The peer is lost after `TWN_TIMEOUT` ticks without a TWIN frame, once until it is heard again (R465). -/
def peerLost (s : State) : State :=
  let st := twinState s
  if st = 0 ∨ twinRole s = 3 ∨ s.twin.silent < max 1 (getF s F.TWN_TIMEOUT_VALUE) ∨
      (flag s F.TWN_STATUS_PEER_ALIVE = false ∧ st ≠ 2 ∧ st ≠ 3 ∧ s.twin.lost = true) then s
  else
    let s := setTwin (fault (bump (setF s F.TWN_STATUS_PEER_ALIVE 0) R.TWN_PEER_LOST_COUNT) 20) fun t => { t with lost := true }
    let out (s : State) : State := refreshLevels (setF s F.TWN_STATUS_SLICE_OUT 1)
    if st = 4 then
      let s := setF (setF s F.TWN_STATUS_STATE 6) F.TWN_STATUS_ROLE 1
      sliceIn (raise (bump (setTwin s fun t => { t with unsyncDue := none }) R.TWN_TAKEOVER_COUNT) 19)
    else if st = 5 then setF s F.TWN_STATUS_STATE 6
    else if st = 2 ∨ st = 3 then out (twinAbandon s 1)
    else if st = 1 then out s
    else s

/-! ## The commands -/

/-- TWIN_JOIN. -/
def execTwinJoin (src : CmdSource) (tag : Word) (role pair : Byte) (fj : BitVec 48) (s : State) : Res :=
  run (twinJoin · src tag.toNat role.toNat pair.toNat fj.toNat) s

/-- TWIN_SNAPSHOT_RECEIVED. -/
def execTwinSnapshotReceived (lane : Fin 56) (frame : RxFrame) (s : State) : Res :=
  run (fun s => twinReceive s lane 1 frame (snapshotReceived · frame)) s

/-- TWIN_MIRROR_RECEIVED. -/
def execTwinMirrorReceived (lane : Fin 56) (frame : RxFrame) (s : State) : Res :=
  run (fun s => twinReceive s lane 4 frame (mirrorReceived · frame)) s

/-- TWIN_DIGEST_RECEIVED. -/
def execTwinDigestReceived (lane : Fin 56) (frame : RxFrame) (s : State) : Res :=
  run (fun s => twinReceive s lane 2 frame (digestReceived · frame)) s

/-- TWIN_HEARTBEAT_RECEIVED. -/
def execTwinHeartbeatReceived (lane : Fin 56) (frame : RxFrame) (s : State) : Res :=
  run (fun s => twinReceive s lane 3 frame (heartbeatReceived · frame)) s

/-- SNAPSHOT_COMPLETE. -/
def execSnapshotComplete (s : State) : Res := run snapshotComplete s

/-- PEER_LOST_TIMEOUT. -/
def execPeerLostTimeout (s : State) : Res := run peerLost s

/-- TWIN_UNSYNC. -/
def execTwinUnsync (s : State) : Res := run unsync s

end Sys2Proof.Machine
end

