-- ==== Sys2Proof/Machine/Tick.lean ====
section
/-! DEFINITION. The frame tick: which frame it starts, whether it occurs, and everything that is due at it (R26, R27, R29). -/

namespace Sys2Proof.Machine

/-- An EVENTS region that waited applies; flags, channel and merge counts, rate limiters, stamps and pulses in progress are
as after reset (R401). -/
def eventsApply (s : State) : State :=
  match s.str.events with
  | none => s
  | some ws =>
    let s := setStr s fun x => { x with events := none }
    let s := ws.foldl (fun s (a, m, v) =>
      let v := (rd s a &&& ~~~m) ||| (v &&& m)
      if 0x1300B00 ≤ a ∧ a < 0x1300B80 ∧ a % 16 = 0 then evioCfgWrite s ((a - 0x1300B00) / 16) v
      else if a = R.MTX_SLICE then sliceWrite s (fieldOf v F.MTX_SLICE_PCIE_OUT) (fieldOf v F.MTX_SLICE_DRAM)
      else wr s a v) s
    let zero := [R.EVT_FLAG_LO, R.EVT_FLAG_HI, R.EVT_RATE_LIMITED_LO, R.EVT_RATE_LIMITED_HI, R.EVT_SRC_MERGE_COUNT] ++
      (List.range 64).map R.EVT_CH_COUNT ++
      (List.range 8).flatMap fun k => [R.EVT_STAMP_LO k, R.EVT_STAMP_HI k, R.EVT_EVIO_STAMP_LO k, R.EVT_EVIO_STAMP_HI k]
    let s := zero.foldl (fun s a => setR s a 0) s
    let s := (List.range 96).foldl (fun s n => setF s (F.EVT_CON_CFG_MERGE n) 0) s
    let s := (s.evt.pulsing.map (·.1)).foldl (fun s k => evioDrive s k false) s
    setEvt s fun e => { e with lastFire := [], fired := [], active := [], pulsing := [] }

/-- Settings that wait for a tick: TRG_ fields, the stop of the crossroads, the weight flip (R169, R224, R267). -/
def settingsTick (s : State) (f : Nat) : State :=
  let s := setTrg s fun t => { t with old := [] }
  let s := if s.xr.stopAt.any (· ≤ f) then setF s F.XR_STATUS_RUNNING 0 else s
  weightFlip s f

/-- FRAME_TICK, SPAN_END and INTEG_END: the events, the vectors of the cores, FRAME_OUT (R26, R27, R289, R348, R378). -/
def tickEvents (s : State) (f : Nat) : State :=
  let n := spanLen s
  let m := n * integLen s
  let s := (List.range 4).foldl (fun s k => setPair s (R.BRL_TICK_FRAME_LO k) f) s
  let s := brlPendAll (raise s 0) 1
  let s := if n ≠ 0 ∧ f % n = 0 then brlPendAll (raise s 1) 2 else s
  let s := if m ≠ 0 ∧ f % m = 0 then brlPendAll (raise s 2) 3 else s
  frameOutRise s

/-- Status that follows the frame: calibration mode at the beam-former, a beam search that does not run (R240, R250). -/
def tickStatus (s : State) (f : Nat) : State :=
  let cal8 := cal8Of s f
  let s := setF s F.BFM_STATUS_CAL8_IDLE (ofBool cal8)
  let searched := !cal8 && (List.range 256).any (beamSearched s)
  refreshLevels (setF s F.TRG_STATUS_BEAM_IDLE (ofBool (flag s F.TRG_STATUS_RUNNING && !searched)))

/-- All that is due at the tick that starts frame `f`. `written` says which signals of the frame before the last were
recorded in time (R432). -/
def tickWork (s : State) (f : Nat) (written : Option (BitVec 64)) : State :=
  let s := setArch s fun a => { a with lastStarted := some f }
  let s := eventsApply (settingsTick s f)
  let s := tickEvents (stopTick s f) f
  let s := if 2 ≤ f then rawCommit s (f - 2) else s
  tickStatus (twinTick (ydxTick s f written) f) f

/-- The frame tick (R26): the counter reaches the next multiple of 2^21, or a step has set it to one. After a backward step
ticks are suppressed until the frame number exceeds the last frame then started (R29); the wrap of the counter to 0 by
counting suppresses none (R23). -/
def frameTick (s : State) (written : Option (BitVec 64)) : State :=
  let f := if s.arch.tickDue then frameOf s else frameOf s + 1
  let s := setArch { s with counter := BitVec.ofNat 64 (frameStart f) } fun a =>
    { a with tickDue := false, closedUpTo := if f = 2 ^ 43 then none else a.closedUpTo }
  let f := frameOf s
  if s.arch.closedUpTo.any (f ≤ ·) then s else tickWork s f written

/-- FRAME_TICK. -/
def execFrameTick (ydxWritten : Option (BitVec 64)) (s : State) : Res := run (frameTick · ydxWritten) s

end Sys2Proof.Machine
end

