-- ==== Sys2Proof/Machine/Bus.lean ====
section
/-! DEFINITION. A master's write with all its consequences, the mailbox doorbell among them, and the requests that the Beryl
cores' write buffers and the DMA engines put on the matrix (R7, R9, R272, R273, R356 to R361, R367, R368, R461). -/

namespace Sys2Proof.Machine

/-! ## The mailbox (R356 to R358) -/

/-- The argument bytes of the request in the buffer: LEN of them. -/
def mailArgs (s : State) : List Byte :=
  let len := min 4080 (bitsOf (getR s 0x11000) 31 16)
  (((List.range 1020).flatMap fun i => wordBytes (rd s (0x11010 + 4 * i)))).take len

/-- A CMD that names no defined command (R358). -/
def mailboxBad (s : State) (src : CmdSource) (tag cmd : Nat) : State :=
  serve s src cmd tag [] fun s => respond s src cmd tag stBadCommand 0 []

/-- A write of 1 to GO: the request in the buffer is copied and STATE reads BUSY; while it does, or the supervisor restarts,
the GO is ignored and sets REFUSED (R356, R414). -/
def mailboxGo (s : State) : State :=
  if getF s F.MBX_STATUS_STATE = 1 ∨ s.mail.restarting = true then setF s F.MBX_STATUS_REFUSED 1
  else
    let r : MgmtReq := ⟨getR s 0x11000 % 2 ^ 16, getR s 0x11004, mailArgs s, .host, none⟩
    { (setF s F.MBX_STATUS_STATE 1) with mail := { s.mail with request := some r } }

/-- A management request with the argument bytes its command has (R358). -/
def MgmtReq.plain (r : MgmtReq) : MgmtReq :=
  { r with args := match r.cmd with
      | 3 => leBytes 6 (leAt r.args 0 6)
      | 4 => leBytes 6 (leAt r.args 0 6)
      | 6 => leBytes 8 (leAt r.args 0 8)
      | 7 => leBytes 8 (leAt r.args 0 8)
      | 8 => []
      | _ => r.args }

/-- The supervisor serves a request, each by its command (R358). -/
def requestServe (s : State) (r : MgmtReq) : State :=
    let tag := r.tag
    let a := r.args
    let src := r.source
    match r.cmd with
    | 1 => loadStructure s src tag (leAt a 0 8) (leAt a 8 4)
    | 2 => loadRegion s src tag (leAt a 0 8) (leAt a 8 4) (leAt a 12 1)
    | 3 => start s src tag (leAt a 0 6)
    | 4 => stop s src tag (leAt a 0 6)
    | 5 => scheduleUpdate s src tag (leAt a 0 8) (leAt a 8 4) (scheduleOf (a.drop 12))
    | 6 => confirmUpdate s src tag (leAt a 0 8)
    | 7 => readHealth s src tag (leAt a 0 8)
    | 8 => serve s src 8 tag [] (stepPermit · src tag)
    | 9 => twinJoin s src tag (leAt a 0 1) (leAt a 1 1) (leAt a 2 6)
    | 10 => serve s src 10 tag (leBytes 2 (leAt a 0 2)) (dramSweep · src tag (leAt a 0 2))
    | 11 =>
      let (cap, ring, host, room, compress, release) := r.capture.getD
        (let c := Config.captureArgs a; (c.1, c.2.1, c.2.2.1, c.2.2.2.1.toNat, c.2.2.2.2.1, c.2.2.2.2.2))
      serve s src 11 tag [] (captureRead · src tag (cap % 16) (ring % 4096) host room compress release)
    | 12 => yodexRecord s src tag (leAt a 0 6) (leAt a 8 4) (bitOf (leAt a 12 1) 0)
    | 13 => yodexReplay s src tag (leAt a 0 6) (leAt a 8 2)
    | cmd => mailboxBad s src tag cmd

/-- The supervisor serves the request it has copied, and between host commands the oldest that came over the relay path
(R356, R412). -/
def mailboxServe (s : State) : State :=
  match s.mail.request, s.mail.relay with
  | some r, _ => requestServe { (setF s F.MBX_STATUS_STATE 0) with mail := { s.mail with request := none } } r
  | none, r :: rest => requestServe { s with mail := { s.mail with relay := r.plain :: rest } } r.plain
  | none, [] => s

/-- The supervisor serves commands: it does not restart, and no region is being loaded (R401, R414). -/
def serves (s : State) : Bool :=
  s.arch.up && !s.mail.restarting && !regionLoading s

/-- What the block does when no command waits: the supervisor serves one request that waits in its mailbox; without one the
block idles (R356; log entry 11). -/
def idle (s : State) : State := if serves s then mailboxServe s else s

/-! ## A write over the matrix -/

/-- A master writes the word at a BAR 0 address. One with fewer than four byte enables is completed and ignored (R7); one
that is refused gets an error response (R375, R376). -/
def busWrite (s : State) (m : Master) (addr : Nat) (v : Word) (be : BitVec 4) : State :=
  let a := addr / 4 * 4
  if be ≠ 0xF then s
  else match writeRefused s m a, targetOf a with
    | some kind, t => writeError s m (t.getD 0) kind a
    | none, none => s
    | none, some _ =>
      if a = R.MBX_DOORBELL then (if v.getLsbD 0 then mailboxGo s else s) else regWrite s m a v

/-- The address is one of the mirrored set in BAR 0 (R461). -/
def inMirroredSet (a : Nat) : Bool :=
  mirroredReg a || a == R.TRG_INJECT || (bankOf a).isSome || (0x410000 ≤ a && a < 0x414000)

/-- A write to the mirrored set (R461). -/
def mirroredSetWrite (s : State) (m : Master) (bar4 : Bool) (addr : Nat) (v : Word) : State :=
  let a := addr / 4 * 4
  if bar4 then
    match weightRefused s m a with
    | some kind => writeError s m 4 kind a
    | none => weightAccess s m a ((wordBytes v).map some)
  else if inMirroredSet a then busWrite s m a v 0xF
  else s

/-- REGISTER_WRITE. -/
def execRegisterWrite (m : Master) (addr : BitVec 26) (v : Word) (be : BitVec 4) (s : State) : Res :=
  runBy m (busWrite · m addr.toNat v be) s

/-- MIRRORED_SET_WRITE. -/
def execMirroredSetWrite (m : Master) (bar4 : Bool) (addr : BitVec 26) (v : Word) (s : State) : Res :=
  runBy m (mirroredSetWrite · m bar4 addr.toNat v) s

/-- MAILBOX_BAD_COMMAND: a CMD that R358 does define is not this command's. -/
def execMailboxBadCommand (src : CmdSource) (tag : Word) (cmd : BitVec 16) (s : State) : Res :=
  run (fun s => if 1 ≤ cmd.toNat ∧ cmd.toNat ≤ 13 then s else mailboxBad s src tag.toNat cmd.toNat) s

/-! ## The window write buffer of a core (R272, R273) -/

/-- The oldest store leaves the buffer of core `k`. -/
def dropStore (s : State) (k : Nat) : State := setBrl s k fun c => { c with stores := c.stores.drop 1 }

/-- A posted store completes at its target, or is lost with a window error (R272, R273). -/
def storeComplete (s : State) (k : Nat) : State :=
  match (brlCore s k).stores with
  | [] => s
  | x :: _ =>
    let m := Master.beryl (Fin.ofNat 4 k)
    let lost (s : State) (t kind a : Nat) : State := windowError (writeError s m t kind a) k x.y x.addr
    let s := dropStore s k
    let s := match x.target with
      | .bar0 a =>
        match writeRefused s m a with
        | some kind => lost s ((targetOf a).getD 0) kind a
        | none => busWrite s m a x.data 0xF
      | .weight off =>
        match weightRefused s m off with
        | some kind => lost s 4 kind off
        | none => weightAccess s m off ((wordBytes x.data).map some)
      | .dram a =>
        match matrixDramRefused s m a 4 with
        | some kind => lost (if kind = 1 then s else unitWrite s 10 a (wordBytes x.data)) 0 kind a
        | none => unitWrite s 10 a (wordBytes x.data)
    brlSettle s k

/-- The oldest store, whose error response is recorded, is lost (R273). -/
def storeLost (s : State) (k : Nat) (x : BrlStore) : State := brlSettle (windowError (dropStore s k) k x.y x.addr) k

/-- A window access gets an error response: a load returns 0, a posted store is lost (R273). -/
def windowAccessError (s : State) (k : Nat) (load : Option BrlAccess) : State :=
  match load with
  | some x => if brlIssues s k then brlExecute s k (.load x) true else s
  | none =>
    match (brlCore s k).stores with
    | [] => s
    | x :: _ => storeLost (windowRefused s k x.target true) k x

/-- WINDOW_WRITE_COMPLETE. -/
def execWindowWriteComplete (k : Fin 4) (s : State) : Res := run (storeComplete · k) s

/-- WINDOW_ACCESS_ERROR. -/
def execWindowAccessError (k : Fin 4) (load : Option BrlAccess) (s : State) : Res := run (windowAccessError · k load) s

/-! ## A descriptor's data (R360, R361, R367, R368) -/

/-- The data of a descriptor in execution moves and the descriptor is done, or its ring stops; a register write that stops its
own ring leaves the descriptor without a record (R361, R367, R368). -/
def descriptorComplete (s : State) (n : Nat) (data : List Byte) : State :=
  match (dmaRing s n).descs with
  | [] => s
  | d :: _ =>
    let as := d.addrs
    if ringState s n ≠ 2 ∨ (dmaRing s n).begun = false ∨ domLive s 27 = false then s
    else if d.kind = 0 then
      let s := emit s (.hostWrite d.host (descRead s as) (descRelaxed s d))
      let bad := badLines s as
      descDone (bad.foldl (fun s l => lineReport s 9 l) (ringWrote s n (d.host + as.length - 1))) n d bad.length as.length
    else if d.kind = 1 then
      if data.length ≠ as.length then s
      else
        let holes := scatterHoles s as
        let s := scatterWrite s 9 as data
        if holes = [] then descDone s n d 0 as.length else ringStop s n 2 (some 5)
    else if d.kind = 2 then
      let a := d.dev % 2 ^ 26 / 4 * 4
      match writeRefused s .dma a with
      | some kind =>
        let s := busError s (masterCode .dma) ((targetOf a).getD 0) kind a true
        if kind = 2 then ringStop s n 4 (some 6) else ringStop s n 2 (some 5)
      | none =>
        let t := busWrite s .dma a (BitVec.ofNat 32 d.len0) 0xF
        if ringState t n = 2 then descDone t n d 0 4 else t
    else s

/-! ## Errors that the matrix reports by itself (R368, R375, R376) -/

/-- The ring whose register write to `a` is in execution. -/
def kind2Ring (s : State) (a : Nat) : Option Nat :=
  (s.dma.find? fun e => e.2.begun && ringState s e.1 == 2 &&
    e.2.descs.head?.any fun d => d.kind == 2 && d.dev % 2 ^ 26 / 4 * 4 == a).map (·.1)

/-- The instruction at the PC of core `k`, where it loads from BAR 0 address `a` through a window. -/
def windowLoad (s : State) (k a : Nat) : Option BrlOp :=
  (brlDecode (cWord s k (brlPc s k))).filter fun op => brlIssues s k &&
    (brlUses (brlCore s k) op).any fun u => !u.st && brlPlace s k u.y u.ea.addr == .window (.bar0 a)

/-- A register access has timed out: error responses of kind 3, two of firmware, which tries twice, and what each master makes of
one: a core's load returns 0 and its store is lost, the ring of a DMA write stops (R273, R368, R376). -/
def matrixTimeout (s : State) (m : Master) (t a : Nat) (write : Bool) : State :=
  let s := bumpBy s R.MTX_TIMEOUT_COUNT (if masterCode m ≤ 1 then 2 else 1)
  let failed := busError s (masterCode m) t 3 a write
  match m, write with
  | .host, false => emit failed (.readData m a 0xFFFFFFFF)
  | .host, true => failed
  | .beryl k, false =>
    match windowLoad s k a with
    | some op => setF (brlExecute (emit s (.errorResponse m a)) k op true) F.MTX_ERR_INFO_KIND 3
    | none => emit failed (.errorResponse m a)
  | .beryl k, true =>
    let s := emit failed (.errorResponse m a)
    match (brlCore s k).stores with
    | x :: _ => if x.target = .bar0 a then storeLost s k x else s
    | [] => s
  | .dma, true =>
    let s := emit failed (.errorResponse m a)
    match kind2Ring s a with
    | some n => ringStop s n 2 (some 5)
    | none => s
  | _, _ => emit failed (.errorResponse m a)

/-- MATRIX_TIMEOUT: a register target has not answered within `MTX_TIMEOUT` of the `waited` fabric cycles; targets 0 and 1
have no timeout (R375, R376). -/
def execMatrixTimeout (m : Master) (addr : BitVec 26) (access : Timed Bool) (s : State) : Res :=
  runBy m (fun s =>
    let a := addr.toNat / 4 * 4
    match targetOf a with
    | none => s
    | some t => if access.time < matrixLimit s then s else matrixTimeout s m t a access.what) s

/-- DMA_DATA_ERROR: kinds 1 to 4 are HOST_ERR, 5 DEV_ERR, 6 DOMAIN_OFF; the failed register write of a KIND 2 descriptor is an
error response of the matrix (R368, R370, R375). -/
def execDmaDataError (ring : Fin 4096) (kind : Fin 7) (s : State) : Res :=
  run (fun s =>
    match (dmaRing s ring).descs with
    | d :: _ =>
      if ringState s ring = 2 ∧ (dmaRing s ring).begun = true ∧ kind.val ≠ 0 then
        let a := d.dev % 2 ^ 26 / 4 * 4
        let s := if d.kind = 2 ∧ 5 ≤ kind.val then busError s (masterCode .dma) ((targetOf a).getD 0) 2 a true else s
        ringStop s ring (if kind.val ≤ 4 then 3 else if kind.val = 5 then 2 else 4) (some kind.val)
      else s
    | [] => s) s

/-- DESCRIPTOR_COMPLETE; `data` is what a host-to-device transfer read from the host. -/
def execDescriptorComplete (ring : Fin 4096) (data : List Byte) (s : State) : Res :=
  run (descriptorComplete · ring data) s

end Sys2Proof.Machine
end

