-- ==== Sys2Proof/Machine/Dispatch.lean ====
section
/-! DEFINITION. One arm per command: a direct call of its meaning. -/

namespace Sys2Proof.Machine

def exec (i : Instr) (s : State) : Host.Outcome State Fault Refusal :=
  match i with
  | .registerWrite m addr v be => Sys2Proof.Machine.execRegisterWrite m addr v be s
  | .rcRegisterRead m addr be => Sys2Proof.Machine.execRcRegisterRead m addr be s
  | .pairLowWordRead m addr => Sys2Proof.Machine.execPairLowWordRead m addr s
  | .start src tag f0 => Sys2Proof.Machine.execStart src tag f0 s
  | .stop src tag fs => Sys2Proof.Machine.execStop src tag fs s
  | .dataPathStopComplete => Sys2Proof.Machine.execDataPathStopComplete s
  | .frameTick ydxWritten => Sys2Proof.Machine.execFrameTick ydxWritten s
  | .correlationWindowOpen span => Sys2Proof.Machine.execCorrelationWindowOpen span s
  | .correlationWindowClose span => Sys2Proof.Machine.execCorrelationWindowClose span s
  | .readoutWindowOpen integ => Sys2Proof.Machine.execReadoutWindowOpen integ s
  | .readoutWindowClose integ => Sys2Proof.Machine.execReadoutWindowClose integ s
  | .ingestClose frame => Sys2Proof.Machine.execIngestClose frame s
  | .signalLostTimeout lane => Sys2Proof.Machine.execSignalLostTimeout lane s
  | .laneEnableWrite lane enTx enRx => Sys2Proof.Machine.execLaneEnableWrite lane enTx enRx s
  | .txPllLocked lane => Sys2Proof.Machine.execTxPllLocked lane s
  | .cdrLocked lane => Sys2Proof.Machine.execCdrLocked lane s
  | .commaAligned lane => Sys2Proof.Machine.execCommaAligned lane s
  | .bondDeskewed lane arrival => Sys2Proof.Machine.execBondDeskewed lane arrival s
  | .statusOrderedSetReceived lane state check => Sys2Proof.Machine.execStatusOrderedSetReceived lane state check s
  | .idleOrderedSetReceived lane drift => Sys2Proof.Machine.execIdleOrderedSetReceived lane drift s
  | .undefinedOrderedSetReceived lane => Sys2Proof.Machine.execUndefinedOrderedSetReceived lane s
  | .codeViolation lane symbol => Sys2Proof.Machine.execCodeViolation lane symbol s
  | .commaMisaligned lane => Sys2Proof.Machine.execCommaMisaligned lane s
  | .cdrLockLost lane => Sys2Proof.Machine.execCdrLockLost lane s
  | .bondSkewExceeded lane arrival => Sys2Proof.Machine.execBondSkewExceeded lane arrival s
  | .lanePstateRequest lane req => Sys2Proof.Machine.execLanePstateRequest lane req s
  | .lanePowerStateEntered lane => Sys2Proof.Machine.execLanePowerStateEntered lane s
  | .laneWakeComplete lane => Sys2Proof.Machine.execLaneWakeComplete lane s
  | .announcedIdleDetected lane => Sys2Proof.Machine.execAnnouncedIdleDetected lane s
  | .laneLoopbackWrite lane mode => Sys2Proof.Machine.execLaneLoopbackWrite lane mode s
  | .lanePrbsModeWrite lane mode => Sys2Proof.Machine.execLanePrbsModeWrite lane mode s
  | .laneCalStart lane => Sys2Proof.Machine.execLaneCalStart lane s
  | .calRunComplete lane scan => Sys2Proof.Machine.execCalRunComplete lane scan s
  | .laybySwap lane => Sys2Proof.Machine.execLaybySwap lane s
  | .laneRxeqWrite lane dcgain peak => Sys2Proof.Machine.execLaneRxeqWrite lane dcgain peak s
  | .laneTxeqWrite lane swing post pre => Sys2Proof.Machine.execLaneTxeqWrite lane swing post pre s
  | .txeqApply lane => Sys2Proof.Machine.execTxeqApply lane s
  | .calPeriodExpiry => Sys2Proof.Machine.execCalPeriodExpiry s
  | .ingestFrameReceived lane frame => Sys2Proof.Machine.execIngestFrameReceived lane frame s
  | .sofInsideFrame lane frame => Sys2Proof.Machine.execSofInsideFrame lane frame s
  | .ingestEnableWrite enable => Sys2Proof.Machine.execIngestEnableWrite enable s
  | .xchFrameReceived lane frame full => Sys2Proof.Machine.execXchFrameReceived lane frame full s
  | .ctlFrameReceived lane frame => Sys2Proof.Machine.execCtlFrameReceived lane frame s
  | .signpostFrameReceived lane frame => Sys2Proof.Machine.execSignpostFrameReceived lane frame s
  | .relayFrameReceived lane frame => Sys2Proof.Machine.execRelayFrameReceived lane frame s
  | .twinSnapshotReceived lane frame => Sys2Proof.Machine.execTwinSnapshotReceived lane frame s
  | .twinMirrorReceived lane frame => Sys2Proof.Machine.execTwinMirrorReceived lane frame s
  | .twinDigestReceived lane frame => Sys2Proof.Machine.execTwinDigestReceived lane frame s
  | .twinHeartbeatReceived lane frame => Sys2Proof.Machine.execTwinHeartbeatReceived lane frame s
  | .modelLatch frame => Sys2Proof.Machine.execModelLatch frame s
  | .modelTableWrite m signal slot word data => Sys2Proof.Machine.execModelTableWrite m signal slot word data s
  | .chzSwitchArm m high => Sys2Proof.Machine.execChzSwitchArm m high s
  | .chzModeArm m high => Sys2Proof.Machine.execChzModeArm m high s
  | .gainBankWrite m addr data => Sys2Proof.Machine.execGainBankWrite m addr data s
  | .chzRunWrite quads => Sys2Proof.Machine.execChzRunWrite quads s
  | .spectrumComplete frame spectrum missed => Sys2Proof.Machine.execSpectrumComplete frame spectrum missed s
  | .xchQueueHead link time => Sys2Proof.Machine.execXchQueueHead link time s
  | .postExchangeFix frame => Sys2Proof.Machine.execPostExchangeFix frame s
  | .linkNarrowDelayExpiry link => Sys2Proof.Machine.execLinkNarrowDelayExpiry link s
  | .xrWidenWrite bits => Sys2Proof.Machine.execXrWidenWrite bits s
  | .linkWiden link => Sys2Proof.Machine.execLinkWiden link s
  | .spanSlotChoose => Sys2Proof.Machine.execSpanSlotChoose s
  | .xrEnableWrite enable => Sys2Proof.Machine.execXrEnableWrite enable s
  | .corEnable => Sys2Proof.Machine.execCorEnable s
  | .corDisable => Sys2Proof.Machine.execCorDisable s
  | .corAbort => Sys2Proof.Machine.execCorAbort s
  | .abortDrainComplete => Sys2Proof.Machine.execAbortDrainComplete s
  | .computeComplete => Sys2Proof.Machine.execComputeComplete s
  | .flushComplete time => Sys2Proof.Machine.execFlushComplete time s
  | .drainComplete time => Sys2Proof.Machine.execDrainComplete time s
  | .patrolPassComplete tile signature => Sys2Proof.Machine.execPatrolPassComplete tile signature s
  | .causewayReadUe frame spectrum line => Sys2Proof.Machine.execCausewayReadUe frame spectrum line s
  | .intEnable => Sys2Proof.Machine.execIntEnable s
  | .intDisable => Sys2Proof.Machine.execIntDisable s
  | .readoutChannel => Sys2Proof.Machine.execReadoutChannel s
  | .beamPoint frame spectrum => Sys2Proof.Machine.execBeamPoint frame spectrum s
  | .relaySendPoint frame spectrum => Sys2Proof.Machine.execRelaySendPoint frame spectrum s
  | .bfmFlipArm m high => Sys2Proof.Machine.execBfmFlipArm m high s
  | .weightStoreWrite m offset data => Sys2Proof.Machine.execWeightStoreWrite m offset data s
  | .impulseHorizonAdvance group time => Sys2Proof.Machine.execImpulseHorizonAdvance group time s
  | .triggerInject channel action => Sys2Proof.Machine.execTriggerInject channel action s
  | .rawSegmentStart => Sys2Proof.Machine.execRawSegmentStart s
  | .rawWriteDeadline frame written => Sys2Proof.Machine.execRawWriteDeadline frame written s
  | .segmentWriteComplete segment => Sys2Proof.Machine.execSegmentWriteComplete segment s
  | .captureReleaseWrite captures => Sys2Proof.Machine.execCaptureReleaseWrite captures s
  | .captureTimeout capture => Sys2Proof.Machine.execCaptureTimeout capture s
  | .holdReleaseWrite slots => Sys2Proof.Machine.execHoldReleaseWrite slots s
  | .holdTimeout slot => Sys2Proof.Machine.execHoldTimeout slot s
  | .parallelMove k mv => Sys2Proof.Machine.execParallelMove k mv s
  | .mac k acc rs rt => Sys2Proof.Machine.execMac k acc rs rt s
  | .msu k acc rs rt => Sys2Proof.Machine.execMsu k acc rs rt s
  | .mac2 k pair rs rt mv => Sys2Proof.Machine.execMac2 k pair rs rt mv s
  | .msu2 k pair rs rt mv => Sys2Proof.Machine.execMsu2 k pair rs rt mv s
  | .cmac k pair rs rt mv => Sys2Proof.Machine.execCmac k pair rs rt mv s
  | .cmsu k pair rs rt mv => Sys2Proof.Machine.execCmsu k pair rs rt mv s
  | .cmacj k pair rs rt mv => Sys2Proof.Machine.execCmacj k pair rs rt mv s
  | .cmacz k pair rs rt mv => Sys2Proof.Machine.execCmacz k pair rs rt mv s
  | .la k areg imm => Sys2Proof.Machine.execLa k areg imm s
  | .loop k intr count len => Sys2Proof.Machine.execLoop k intr count len s
  | .branch k cond target => Sys2Proof.Machine.execBranch k cond target s
  | .call k cond target => Sys2Proof.Machine.execCall k cond target s
  | .movk k rd imm => Sys2Proof.Machine.execMovk k rd imm s
  | .movkh k rd imm => Sys2Proof.Machine.execMovkh k rd imm s
  | .addk k rd imm => Sys2Proof.Machine.execAddk k rd imm s
  | .cmpk k rd imm => Sys2Proof.Machine.execCmpk k rd imm s
  | .ld k x => Sys2Proof.Machine.execLd k x s
  | .st k x => Sys2Proof.Machine.execSt k x s
  | .ldc k rd p disp => Sys2Proof.Machine.execLdc k rd p disp s
  | .add k rd rs rt => Sys2Proof.Machine.execAdd k rd rs rt s
  | .addc k rd rs rt => Sys2Proof.Machine.execAddc k rd rs rt s
  | .sub k rd rs rt => Sys2Proof.Machine.execSub k rd rs rt s
  | .subc k rd rs rt => Sys2Proof.Machine.execSubc k rd rs rt s
  | .and k rd rs rt => Sys2Proof.Machine.execAnd k rd rs rt s
  | .or k rd rs rt => Sys2Proof.Machine.execOr k rd rs rt s
  | .xor k rd rs rt => Sys2Proof.Machine.execXor k rd rs rt s
  | .not k rd rs => Sys2Proof.Machine.execNot k rd rs s
  | .shl k rd rs n => Sys2Proof.Machine.execShl k rd rs n s
  | .shr k rd rs n => Sys2Proof.Machine.execShr k rd rs n s
  | .asr k rd rs n => Sys2Proof.Machine.execAsr k rd rs n s
  | .asrr k rd rs n => Sys2Proof.Machine.execAsrr k rd rs n s
  | .shlv k rd rs rt => Sys2Proof.Machine.execShlv k rd rs rt s
  | .asrv k rd rs rt => Sys2Proof.Machine.execAsrv k rd rs rt s
  | .abs k rd rs => Sys2Proof.Machine.execAbs k rd rs s
  | .neg k rd rs => Sys2Proof.Machine.execNeg k rd rs s
  | .min k rd rs rt => Sys2Proof.Machine.execMin k rd rs rt s
  | .max k rd rs rt => Sys2Proof.Machine.execMax k rd rs rt s
  | .cmp k rs rt => Sys2Proof.Machine.execCmp k rs rt s
  | .mov k rd rs => Sys2Proof.Machine.execMov k rd rs s
  | .cadd k rd rs rt => Sys2Proof.Machine.execCadd k rd rs rt s
  | .csub k rd rs rt => Sys2Proof.Machine.execCsub k rd rs rt s
  | .conj k rd rs => Sys2Proof.Machine.execConj k rd rs s
  | .mpy k rd rs rt => Sys2Proof.Machine.execMpy k rd rs rt s
  | .mpyh k rd rs rt => Sys2Proof.Machine.execMpyh k rd rs rt s
  | .cmpy k rd rs rt => Sys2Proof.Machine.execCmpy k rd rs rt s
  | .mova k rd acc => Sys2Proof.Machine.execMova k rd acc s
  | .movac k rd pair => Sys2Proof.Machine.execMovac k rd pair s
  | .movda k acc rs => Sys2Proof.Machine.execMovda k acc rs s
  | .clra k mask => Sys2Proof.Machine.execClra k mask s
  | .movrToAreg k areg rs => Sys2Proof.Machine.execMovrToAreg k areg rs s
  | .movrFromAreg k rd areg => Sys2Proof.Machine.execMovrFromAreg k rd areg s
  | .aadd k areg rs => Sys2Proof.Machine.execAadd k areg rs s
  | .aaddk k areg imm => Sys2Proof.Machine.execAaddk k areg imm s
  | .nop k => Sys2Proof.Machine.execNop k s
  | .ret k => Sys2Proof.Machine.execRet k s
  | .reti k => Sys2Proof.Machine.execReti k s
  | .halt k => Sys2Proof.Machine.execHalt k s
  | .wait k => Sys2Proof.Machine.execWait k s
  | .swi k => Sys2Proof.Machine.execSwi k s
  | .fence k => Sys2Proof.Machine.execFence k s
  | .sei k => Sys2Proof.Machine.execSei k s
  | .cli k => Sys2Proof.Machine.execCli k s
  | .sev k event => Sys2Proof.Machine.execSev k event s
  | .iter k count => Sys2Proof.Machine.execIter k count s
  | .interruptTake k => Sys2Proof.Machine.execInterruptTake k s
  | .windowWriteComplete k => Sys2Proof.Machine.execWindowWriteComplete k s
  | .windowAccessError k load => Sys2Proof.Machine.execWindowAccessError k load s
  | .brlRunWrite k runBit => Sys2Proof.Machine.execBrlRunWrite k runBit s
  | .coreReset k => Sys2Proof.Machine.execCoreReset k s
  | .brlStep k => Sys2Proof.Machine.execBrlStep k s
  | .brlMboxInWrite k value => Sys2Proof.Machine.execBrlMboxInWrite k value s
  | .brlIrqPendWrite k vectors => Sys2Proof.Machine.execBrlIrqPendWrite k vectors s
  | .brlTimerExpiry k => Sys2Proof.Machine.execBrlTimerExpiry k s
  | .hostCMemoryWrite k index data => Sys2Proof.Machine.execHostCMemoryWrite k index data s
  | .refreshInterval sub rank class1Waits => Sys2Proof.Machine.execRefreshInterval sub rank class1Waits s
  | .mr4Poll sub rank double => Sys2Proof.Machine.execMr4Poll sub rank double s
  | .memPanic raw span => Sys2Proof.Machine.execMemPanic raw span s
  | .panicEnd raw span time => Sys2Proof.Machine.execPanicEnd raw span time s
  | .scrubRead found => Sys2Proof.Machine.execScrubRead found s
  | .scrubWriteBack => Sys2Proof.Machine.execScrubWriteBack s
  | .memUe requester line words rmw => Sys2Proof.Machine.execMemUe requester line words rmw s
  | .memGuardRefusal requester addr len write => Sys2Proof.Machine.execMemGuardRefusal requester addr len write s
  | .selfRefreshEntry sub aborted => Sys2Proof.Machine.execSelfRefreshEntry sub aborted s
  | .selfRefreshExit sub => Sys2Proof.Machine.execSelfRefreshExit sub s
  | .requestAgePromotion requester => Sys2Proof.Machine.execRequestAgePromotion requester s
  | .memSweepCommit sub trialEn => Sys2Proof.Machine.execMemSweepCommit sub trialEn s
  | .memInit => Sys2Proof.Machine.execMemInit s
  | .memInitDone => Sys2Proof.Machine.execMemInitDone s
  | .priorityEvaluation measured output seconds => Sys2Proof.Machine.execPriorityEvaluation measured output seconds s
  | .refQualified source lane ffo => Sys2Proof.Machine.execRefQualified source lane ffo s
  | .refLost source lane lost => Sys2Proof.Machine.execRefLost source lane lost s
  | .buildOutComplete => Sys2Proof.Machine.execBuildOutComplete s
  | .acquireLocked => Sys2Proof.Machine.execAcquireLocked s
  | .holdoverOos => Sys2Proof.Machine.execHoldoverOos s
  | .ppsEdge pps falling time => Sys2Proof.Machine.execPpsEdge pps falling time s
  | .steerFfoWrite m ffo => Sys2Proof.Machine.execSteerFfoWrite m ffo s
  | .phaseAdjWrite m amount => Sys2Proof.Machine.execPhaseAdjWrite m amount s
  | .ptpSyncReceived port msg origin ingress egress => Sys2Proof.Machine.execPtpSyncReceived port msg origin ingress egress s
  | .ptpFollowUpReceived port msg origin => Sys2Proof.Machine.execPtpFollowUpReceived port msg origin s
  | .ptpDelayRespReceived port msg received requester => Sys2Proof.Machine.execPtpDelayRespReceived port msg received requester s
  | .ptpAnnounceReceived port msg data => Sys2Proof.Machine.execPtpAnnounceReceived port msg data s
  | .ptpDelayReqSend port stamp => Sys2Proof.Machine.execPtpDelayReqSend port stamp s
  | .ptpLinkUp port rx tx => Sys2Proof.Machine.execPtpLinkUp port rx tx s
  | .ptpMeasureWrite port rx tx => Sys2Proof.Machine.execPtpMeasureWrite port rx tx s
  | .ptpEnableWrite enable ports => Sys2Proof.Machine.execPtpEnableWrite enable ports s
  | .faultClear => Sys2Proof.Machine.execFaultClear s
  | .setTimeArm high => Sys2Proof.Machine.execSetTimeArm high s
  | .ppsOutSecond time => Sys2Proof.Machine.execPpsOutSecond time s
  | .loadStructure src tag offset length => Sys2Proof.Machine.execLoadStructure src tag offset length s
  | .loadRegion src tag offset length region => Sys2Proof.Machine.execLoadRegion src tag offset length region s
  | .scheduleUpdate src tag offset length fa fr timeout relay force => Sys2Proof.Machine.execScheduleUpdate src tag offset length fa fr timeout relay force s
  | .confirmUpdate src tag id => Sys2Proof.Machine.execConfirmUpdate src tag id s
  | .readHealth src tag host => Sys2Proof.Machine.execReadHealth src tag host s
  | .stepPermit src tag => Sys2Proof.Machine.execStepPermit src tag s
  | .twinJoin src tag role pair fj => Sys2Proof.Machine.execTwinJoin src tag role pair fj s
  | .dramSweep src tag mask => Sys2Proof.Machine.execDramSweep src tag mask s
  | .captureRead src tag cap ring host compress release => Sys2Proof.Machine.execCaptureRead src tag cap ring host compress release s
  | .yodexRecord src tag fs count stream => Sys2Proof.Machine.execYodexRecord src tag fs count stream s
  | .yodexReplay src tag fp pace => Sys2Proof.Machine.execYodexReplay src tag fp pace s
  | .dmaDoorbell ring => Sys2Proof.Machine.execDmaDoorbell ring s
  | .descriptorFetched ring bytes => Sys2Proof.Machine.execDescriptorFetched ring bytes s
  | .descriptorComplete ring data => Sys2Proof.Machine.execDescriptorComplete ring data s
  | .ctrlRefetched ring ctrl => Sys2Proof.Machine.execCtrlRefetched ring ctrl s
  | .fetchError addr => Sys2Proof.Machine.execFetchError addr s
  | .dmaDataError ring kind => Sys2Proof.Machine.execDmaDataError ring kind s
  | .dmaRingEnable ring engine vector sizeLog => Sys2Proof.Machine.execDmaRingEnable ring engine vector sizeLog s
  | .dmaRingDisable ring => Sys2Proof.Machine.execDmaRingDisable ring s
  | .dmaRingResume ring => Sys2Proof.Machine.execDmaRingResume ring s
  | .fetchStopClear => Sys2Proof.Machine.execFetchStopClear s
  | .bar2Access offset acc => Sys2Proof.Machine.execBar2Access offset acc s
  | .hostReset => Sys2Proof.Machine.execHostReset s
  | .eventRoute cycle n => Sys2Proof.Machine.execEventRoute cycle n s
  | .consumerActivation cycle input => Sys2Proof.Machine.execConsumerActivation cycle input s
  | .evtSwFire bits => Sys2Proof.Machine.execEvtSwFire bits s
  | .evtTimerExpiry timer => Sys2Proof.Machine.execEvtTimerExpiry timer s
  | .evioEdge pin rising time cycle held => Sys2Proof.Machine.execEvioEdge pin rising time cycle held s
  | .evioPulseEnd pin => Sys2Proof.Machine.execEvioPulseEnd pin s
  | .matrixTimeout m addr write => Sys2Proof.Machine.execMatrixTimeout m addr write s
  | .mtxSliceWrite pcieOut dram => Sys2Proof.Machine.execMtxSliceWrite pcieOut dram s
  | .sliceApply => Sys2Proof.Machine.execSliceApply s
  | .relayHeaderReceived port f => Sys2Proof.Machine.execRelayHeaderReceived port f s
  | .relayDataReceived port f => Sys2Proof.Machine.execRelayDataReceived port f s
  | .relayEndReceived port f => Sys2Proof.Machine.execRelayEndReceived port f s
  | .relayBusyReceived port f => Sys2Proof.Machine.execRelayBusyReceived port f s
  | .relayAbortReceived port f => Sys2Proof.Machine.execRelayAbortReceived port f s
  | .relayPullReceived port f => Sys2Proof.Machine.execRelayPullReceived port f s
  | .relayResultReceived port f => Sys2Proof.Machine.execRelayResultReceived port f s
  | .relayFallbackReceived port f => Sys2Proof.Machine.execRelayFallbackReceived port f s
  | .relayMgmtReqReceived port f => Sys2Proof.Machine.execRelayMgmtReqReceived port f s
  | .relayMgmtRspReceived port f => Sys2Proof.Machine.execRelayMgmtRspReceived port f s
  | .sessionTimeout => Sys2Proof.Machine.execSessionTimeout s
  | .slotProgramComplete readBack => Sys2Proof.Machine.execSlotProgramComplete readBack s
  | .updateActivation => Sys2Proof.Machine.execUpdateActivation s
  | .trialFirmwareStart parsed => Sys2Proof.Machine.execTrialFirmwareStart parsed s
  | .confirmTimeout => Sys2Proof.Machine.execConfirmTimeout s
  | .compressorFree => Sys2Proof.Machine.execCompressorFree s
  | .capsuleComplete ring table => Sys2Proof.Machine.execCapsuleComplete ring table s
  | .decompressGo raw => Sys2Proof.Machine.execDecompressGo raw s
  | .decompressJobEnd => Sys2Proof.Machine.execDecompressJobEnd s
  | .yodexRecordEnd => Sys2Proof.Machine.execYodexRecordEnd s
  | .yodexReplayEnd => Sys2Proof.Machine.execYodexReplayEnd s
  | .vinRise => Sys2Proof.Machine.execVinRise s
  | .vinFall => Sys2Proof.Machine.execVinFall s
  | .railFault rail => Sys2Proof.Machine.execRailFault rail s
  | .pwrReqWrite m v => Sys2Proof.Machine.execPwrReqWrite m v s
  | .quiesceComplete d => Sys2Proof.Machine.execQuiesceComplete d s
  | .quiesceTimeout d => Sys2Proof.Machine.execQuiesceTimeout d s
  | .powerDownComplete d => Sys2Proof.Machine.execPowerDownComplete d s
  | .powerUpComplete d => Sys2Proof.Machine.execPowerUpComplete d s
  | .resetNAssert => Sys2Proof.Machine.execResetNAssert s
  | .resetNRelease bootSrc board => Sys2Proof.Machine.execResetNRelease bootSrc board s
  | .chipReset m v => Sys2Proof.Machine.execChipReset m v s
  | .watchdogExpiry => Sys2Proof.Machine.execWatchdogExpiry s
  | .thermalSample temps power => Sys2Proof.Machine.execThermalSample temps power s
  | .snapshotComplete => Sys2Proof.Machine.execSnapshotComplete s
  | .mirroredSetWrite m bar4 addr v => Sys2Proof.Machine.execMirroredSetWrite m bar4 addr v s
  | .peerLostTimeout => Sys2Proof.Machine.execPeerLostTimeout s
  | .twinUnsync => Sys2Proof.Machine.execTwinUnsync s
  | .ptpMasterLoss port => Sys2Proof.Machine.execPtpMasterLoss port s
  | .relayPathPortDown port => Sys2Proof.Machine.execRelayPathPortDown port s
  | .ptpDelayReqReceived port msg ingress egress => Sys2Proof.Machine.execPtpDelayReqReceived port msg ingress egress s
  | .dramSweepComplete scans => Sys2Proof.Machine.execDramSweepComplete scans s
  | .structureLoadComplete => Sys2Proof.Machine.execStructureLoadComplete s
  | .yodexStreamComplete => Sys2Proof.Machine.execYodexStreamComplete s
  | .matrixLateResponse => Sys2Proof.Machine.execMatrixLateResponse s
  | .pwrgoodReleased => Sys2Proof.Machine.execPwrgoodReleased s
  | .timeOutputPulseEnd output => Sys2Proof.Machine.execTimeOutputPulseEnd output s
  | .vioRefFoldback => Sys2Proof.Machine.execVioRefFoldback s
  | .vioRefLoadFall => Sys2Proof.Machine.execVioRefLoadFall s
  | .mailboxBadCommand src tag cmd => Sys2Proof.Machine.execMailboxBadCommand src tag cmd s

end Sys2Proof.Machine
end

