-- ==== Sys2Proof/Machine/Step.lean ====
section
/-! DEFINITION. One step of the block: the command at the front of the queue is carried out (log entry 11). -/

namespace Sys2Proof.Machine

/-- Take the command at the front of the queue and carry it out on the state with the rest of the queue. With no command
waiting the supervisor serves the request in its mailbox, and without one the block idles (log entry 11). -/
def step (s : State) : Host.Outcome State Fault Refusal :=
  match s.pending with
  | [] => .next (idle s)
  | c :: rest => exec c { s with pending := rest }

/-- `s` with the command a word spells at the front of its queue; `s` itself where the word spells none. The table gives no
row any bits, so no word spells a command (log entry 13). -/
def State.withFetchWord (s : State) (nbits w : Nat) : State :=
  match Sys2Proof.decodeTableWord nbits w with
  | some c => { s with pending := c :: s.pending }
  | none => s

end Sys2Proof.Machine
end

