-- ==== Sys2Proof/Safety.lean ====
section
/-! DEFINITION. What the claims call a sound state, a safe step, a completed command, and what it leaves as it was. -/

namespace Sys2Proof.Machine

/-- A state is sound when its DRAM, its registers and its arrays are in canonical form (equal contents are equal data), and
the block counts as up exactly while VIN stands, no VAON or VIO fault is latched and RESET_N is released (R438, R443, R450). -/
def State.Sound (s : State) : Prop :=
  Memory.wf s.dram ∧ SMap.Sorted s.regs ∧ SMap.Sorted s.arrays ∧
    s.arch.up = (s.pwr.vin && !s.pwr.latched && s.pwr.resetN)

end Sys2Proof.Machine

namespace Sys2Proof

/-- A step is safe when it answers a next state: neither a fault nor a refusal. -/
def SafeStep (s : Machine.State) : Prop := ∃ t, Machine.step s = .next t

/-- The rails are up and RESET_N is released: commands act. -/
def Up (s : Machine.State) : Prop := s.arch.up = true

/-- Bus master `m` may send commands: the block is up, and the debug master needs TEST_MODE high (R371, R455). -/
def Sends (s : Machine.State) (m : Master) : Prop :=
  Up s ∧ (m = .debug → Machine.flag s Machine.F.PWR_BOOT_TEST_MODE = true)

/-- Carrying out `c` in `s` completes, in a state that meets `post`. -/
def Completes (c : Instr) (s : Machine.State) (post : Machine.State → Prop) : Prop :=
  ∃ t, Machine.exec c s = .next t ∧ post t

/-- Every register reads the same in both states but those at the addresses listed. -/
def RegsSameBut (l : List Nat) (s t : Machine.State) : Prop := ∀ a, a ∉ l → Machine.rd t a = Machine.rd s a

/-- Every byte of DRAM and every array entry reads the same in both states. -/
def MemorySame (s t : Machine.State) : Prop :=
  (∀ a, Machine.readByte t.dram a = Machine.readByte s.dram a) ∧ t.arrays = s.arrays

/-- Every byte of DRAM and every array entry reads the same in both states, but that a twin copy under way may be abandoned with
its link, and the mirrored set be what it was before the copy (R51, R462). -/
def MemorySameButCopy (s t : Machine.State) : Prop :=
  (∀ a, Machine.readByte t.dram a = Machine.readByte s.dram a) ∧ (Machine.twinState s ≠ 2 → t.arrays = s.arrays)

/-- Every byte of DRAM reads the same in both states but the `n` bytes at `a` and those of the memory error log (R309). -/
def MemoryBut (a n : Nat) (s t : Machine.State) : Prop :=
  ∀ b, b < a ∨ a + n ≤ b → b < Machine.regionBase s 5 ∨ Machine.regionBase s 5 + 32 * Machine.memLogLen ≤ b →
    Machine.readByte t.dram b = Machine.readByte s.dram b

/-- Where the supervisor's answers and notices stand: the response buffer, its registers, and the pending bits of the message
vectors (R355, R356, R357). -/
def MailReg (a : Nat) : Prop :=
  (0x7000 ≤ a ∧ a < 0x7100) ∨ (0x12000 ≤ a ∧ a < 0x13000) ∨
    a ∈ [Machine.R.MBX_STATUS, Machine.R.MBX_NOTICE_TAG, Machine.R.MBX_NOTICE_STATUS]

/-- Only the registers of answers and notices, and those listed, may differ. -/
def MailOnlyBut (l : List Nat) (s t : Machine.State) : Prop :=
  (∀ a, ¬ MailReg a → a ∉ l → Machine.rd t a = Machine.rd s a) ∧ MemorySame s t

/-- The notice registers show the end of an asynchronous command (R356). -/
def Noticed (t : Machine.State) (cmd tag status : Nat) : Prop :=
  Machine.getR t Machine.R.MBX_NOTICE_TAG = tag % 2 ^ 32 ∧ Machine.getR t Machine.R.MBX_NOTICE_STATUS = cmd * 2 ^ 16 + status ∧
    Machine.getF t Machine.F.MBX_STATUS_NOTICE = 1

/-- A relay frame that passes: whole, of the length its header gives, its CRC right (R405). -/
def RelayGood (f : RelayFrame) : Prop :=
  f.header.length = 32 ∧ f.payload.length = Machine.leAt f.header 4 2 ∧
    Machine.leBytes 4 (Machine.crc32c (f.header ++ f.payload)).toNat = f.crc

/-- A TWIN frame on lane `n` that passes every check (R81, R93). -/
def TwinGood (s : Machine.State) (n : Fin 56) (f : RxFrame) (kind : Nat) : Prop :=
  Machine.twinPasses s n f = true ∧ Machine.payloadCrcOk f = true ∧ Machine.frField f 6 2 = kind

/-- Core `k` issues `op` now, and neither a fault nor a full write buffer keeps it from doing it (R272, R292, R293). -/
def CoreRuns (s : Machine.State) (k : Nat) (op : Machine.BrlOp) : Prop :=
  Machine.brlIssues s k = true ∧ Machine.brlCause s k op = none ∧ Machine.brlStalls s k op = false

/-- No write of a register slot of core `k` is still in the pipeline. -/
def Landed (s : Machine.State) (k slot : Nat) : Prop := ∀ f ∈ (Machine.brlCore s k).flight, f.slot ≠ slot

/-- A register slot of core `k` as the `n`-th instruction after the next one sees it, if none of them writes it (R282). -/
def seenAfter (t : Machine.State) (k n slot : Nat) : Nat :=
  (Machine.BrlCore.landed { Machine.brlCore t k with count := (Machine.brlCore t k).count + n }).slot slot

/-- What an instruction of core `k` in straight sequence leaves: memory, the other cores, every register but the core's PC,
cycle counter and status and those listed, and every slot but those of `dst` and the loop counts; the PC goes on by one
where no LOOP ends, no branch is due and no ITER repeats. -/
def CoreFrame (s t : Machine.State) (k : Nat) (regs dst : List Nat) : Prop :=
  MemorySame s t ∧
    RegsSameBut ([Machine.R.BRL_PC k, Machine.R.BRL_CYCLES_LO k, Machine.R.BRL_CYCLES_HI k, Machine.R.BRL_STATUS k] ++ regs) s t ∧
    (∀ j, j ≠ k → Machine.brlCore t j = Machine.brlCore s j) ∧
    (∀ x, x < 73 → x ∉ dst → x ∉ [53, 54, 55] → Landed s k x → seenAfter t k 2 x = (Machine.brlCore s k).slot x) ∧
    ((Machine.brlCore s k).levels = [] → (Machine.brlCore s k).slots = 0 → (Machine.brlCore s k).iter = 0 →
      Machine.brlPc t k = (Machine.brlPc s k + 1) % 32768)

/-- Core `k` has stopped in FAULT at its PC with a cause (R293). -/
def CoreFaulted (s t : Machine.State) (k cause : Nat) : Prop :=
  Machine.brlState t k = 4 ∧ Machine.getF t (Machine.F.BRL_STATUS_CAUSE k) = cause ∧
    Machine.getF t (Machine.F.BRL_FAULT_PC_PC k) = Machine.brlPc s k ∧ Machine.getB t Machine.R.HLT_FAULT 16 = true ∧
    MemorySame s t

/-- The supervisor takes a command: no region load is under way; a host's GO finds it neither busy nor restarting; a command of
the relay path stands first in its queue and is one of those the path may carry (R356, R401, R412, R414). -/
def Served (s : Machine.State) (src : CmdSource) (cmd tag : Nat) (args : List Byte) : Prop :=
  match src with
  | .host => Machine.getF s Machine.F.MBX_STATUS_STATE ≠ 1 ∧ s.mail.restarting = false ∧ Machine.regionLoading s = false
  | .relay _ _ _ => Machine.regionLoading s = false ∧ cmd ∈ Machine.relayAllowed ∧
      ∃ rest, s.mail.relay = ⟨cmd, tag, args, src, none⟩ :: rest

/-- The answer to a command, with its code, tag and status: in the response buffer, which is then ready, or in an MGMT_RSP
frame on the port the command came from (R356, R357, R412). -/
def Answered (t : Machine.State) (src : CmdSource) (cmd tag status : Nat) : Prop :=
  match src with
  | .host => Machine.getR t 0x12000 % 65536 = cmd ∧ Machine.getR t 0x12004 = tag ∧ Machine.getR t 0x12008 % 65536 = status ∧
      Machine.getF t Machine.F.MBX_STATUS_STATE = 2
  | .relay port _ _ => ∃ payload, .relayFrame port 10 payload ∈ t.out

end Sys2Proof
end

