-- ==== Sys2Proof/Certificates/Slice0/Obligations.lean ====
section
/-! DEFINITION. The statements about the model, for the provers. -/

open Sys2Proof Sys2Proof.Machine

/-- Commands of lane bring-up take a lane from OFF through PLL_WAIT, CDR_ACQ, ALIGNING and DESKEW to UP. On a block that is
up: LANE_ENABLE_WRITE sets both enables, starts bring-up in PLL_WAIT when both halves of a powered ACTIVE lane outside
loopback become enabled, in PARKED when the lane's PSTATE is QUIET or SLEEP (the model's choice, log entry 55), and with
either cleared puts the lane in OFF, or in LOOPBACK while it is powered with loopback on; TX_PLL_LOCKED moves PLL_WAIT to
CDR_ACQ, CDR_LOCKED moves CDR_ACQ to ALIGNING, COMMA_ALIGNED moves an ALIGNING lane that is ACTIVE with no other state
requested to UP, or to DESKEW when it belongs to a bond, BOND_DESKEWED brings every lane of a bond with at most 64 symbols
of skew to UP with BONDED set, and LANE_WAKE_COMPLETE returns a powered, parked lane in QUIET (with its PLL locked) or
SLEEP whose request is ACTIVE to ACTIVE and ALIGNING. DRAM and arrays stay as they were, but that a lane which leaves a
twin bond ends a copy under way. (R48, R49, R51, R53, R55, R56, R58) -/
def Obligations.LaneBringUpCompletes : Prop :=
  (∀ (s : State) (n : Fin 56) (tx rx : Bool), Up s → Completes (.laneEnableWrite n tx rx) s fun t =>
    getF t (F.LANE_CTRL_EN_TX n) = ofBool tx ∧ getF t (F.LANE_CTRL_EN_RX n) = ofBool rx ∧
    (tx = true → rx = true → laneEnabled s n = false → domOn s (laneDomain n) = true → loopback s n = 0 →
      getF s (F.LANE_STATUS_PSTATE n) = 0 → linkState t n = 1) ∧
    (tx = true → rx = true → laneEnabled s n = false → domOn s (laneDomain n) = true → loopback s n = 0 →
      getF s (F.LANE_STATUS_PSTATE n) ≠ 0 → linkState t n = 6) ∧
    ((tx && rx) = false →
      linkState t n = if domOn s (laneDomain n) = true ∧ loopback s n ≠ 0 then 7 else 0) ∧ MemorySameButCopy s t) ∧
  (∀ (s : State) (n : Fin 56), Up s → linkState s n = 1 → Completes (.txPllLocked n) s fun t =>
    linkState t n = 2 ∧ getF t (F.LANE_STATUS_TX_PLL_LOCK n) = 1 ∧ MemorySame s t) ∧
  (∀ (s : State) (n : Fin 56), Up s → linkState s n = 2 → Completes (.cdrLocked n) s fun t =>
    linkState t n = 3 ∧ getF t (F.LANE_STATUS_CDR_LOCK n) = 1 ∧ MemorySame s t) ∧
  (∀ (s : State) (n : Fin 56), Up s → linkState s n = 3 → prbsMode s n = 0 → (lane s n).txOff = false →
    getF s (F.LANE_STATUS_PSTATE n) = 0 → getF s (F.LANE_CTRL_PSTATE_REQ n) = 0 → Completes (.commaAligned n) s fun t =>
      linkState t n = (if bondOf t n = [n.val] then 5 else 4) ∧ getF t (F.LANE_STATUS_ALIGNED n) = 1 ∧ MemorySame s t) ∧
  (∀ (s : State) (n : Fin 56) (arrival : List Nat), Up s → 1 < (bondOf s n).length →
    arrival.length = (bondOf s n).length → (∀ m ∈ bondOf s n, linkState s m = 4) → skewSpread arrival ≤ 64 →
    Completes (.bondDeskewed n arrival) s fun t =>
      (∀ m ∈ bondOf s n, linkState t m = 5 ∧ getF t (F.LANE_STATUS_BONDED m) = 1) ∧ MemorySame s t) ∧
  (∀ (s : State) (n : Fin 56), Up s → getF s (F.LANE_STATUS_PSTATE n) ≠ 0 → getF s (F.LANE_CTRL_PSTATE_REQ n) = 0 →
    linkState s n = 6 → domOn s (laneDomain n) = true →
    (getF s (F.LANE_STATUS_PSTATE n) = 1 → flag s (F.LANE_STATUS_TX_PLL_LOCK n) = true) →
    Completes (.laneWakeComplete n) s fun t =>
      getF t (F.LANE_STATUS_PSTATE n) = 0 ∧ linkState t n = 3 ∧ getF t (F.LANE_STATUS_TX_PLL_LOCK n) = 1 ∧
      MemorySame s t)

/-- A lane leaves UP on errors, and parks or powers down on request. On a block that is up: CODE_VIOLATION counts on
LANE_n_CV_COUNT, saturating, and takes a lane in UP to ALIGNING when it is the eighth within 1,024 symbols;
COMMA_MISALIGNED takes a lane in UP to ALIGNING; CDR_LOCK_LOST takes a lane from ALIGNING, DESKEW or UP to CDR_ACQ with
SIGNAL_DETECT clear (the model's choice, log entry 55); BOND_SKEW_EXCEEDED takes every lane of a bond in UP to DESKEW with
BOND_SKEW set; ANNOUNCED_IDLE_DETECTED parks a lane whose far end announced QUIET or SLEEP, with SIGNAL_DETECT clear (log
entry 55); LANE_PSTATE_REQUEST for QUIET or SLEEP, on a lane between CDR_ACQ and PARKED that is not in that state, stores
the request, parks the lane and, where the lane sends STATUS at all (log entry 55), sends 16 STATUS ordered sets that
announce the state (R56 asks for at least 16, the record is log entry 5); LANE_POWER_STATE_ENTERED then shows the state in
PSTATE, where it did not yet. DRAM and arrays stay as they were, but that a twin bond which leaves UP ends a copy under
way. (R51, R52, R53, R55, R56, R57) -/
def Obligations.LaneLossAndParking : Prop :=
  (∀ (s : State) (n : Fin 56) (symbol : Nat), Up s → Completes (.codeViolation n symbol) s fun t =>
    (rd t (R.LANE_CV_COUNT n)).toNat = min ((rd s (R.LANE_CV_COUNT n)).toNat + 1) 0xFFFFFFFF ∧
    (linkState s n = 5 → 7 ≤ (lane s n).cvAt.length → symbol - (lane s n).cvAt.getD 6 0 < 1024 → linkState t n = 3) ∧
    (linkState s n = 5 → (lane s n).cvAt.length < 7 → linkState t n = 5) ∧ MemorySameButCopy s t) ∧
  (∀ (s : State) (n : Fin 56), Up s → linkState s n = 5 → Completes (.commaMisaligned n) s fun t =>
    linkState t n = 3 ∧ MemorySameButCopy s t) ∧
  (∀ (s : State) (n : Fin 56), Up s → 3 ≤ linkState s n → linkState s n ≤ 5 → Completes (.cdrLockLost n) s fun t =>
    linkState t n = 2 ∧ getF t (F.LANE_STATUS_SIGNAL_DETECT n) = 0 ∧ MemorySameButCopy s t) ∧
  (∀ (s : State) (n : Fin 56) (arrival : List Nat), Up s → 1 < (bondOf s n).length →
    arrival.length = (bondOf s n).length → (∀ m ∈ bondOf s n, linkState s m = 5) → 64 < skewSpread arrival →
    Completes (.bondSkewExceeded n arrival) s fun t =>
      (∀ m ∈ bondOf s n, linkState t m = 4 ∧ getF t (F.LANE_STATUS_BOND_SKEW m) = 1) ∧ MemorySameButCopy s t) ∧
  (∀ (s : State) (n : Fin 56), Up s → getF s (F.LANE_STATUS_REMOTE_STATE n) = 3 ∨
      getF s (F.LANE_STATUS_REMOTE_STATE n) = 4 → 3 ≤ linkState s n → linkState s n ≤ 5 →
    Completes (.announcedIdleDetected n) s fun t =>
      linkState t n = 6 ∧ getF t (F.LANE_STATUS_SIGNAL_DETECT n) = 0 ∧ MemorySameButCopy s t) ∧
  (∀ (s : State) (n : Fin 56) (req : Fin 4), Up s → req = 1 ∨ req = 2 → 2 ≤ linkState s n → linkState s n ≤ 6 →
    getF s (F.LANE_STATUS_PSTATE n) ≠ req → Completes (.lanePstateRequest n req) s fun t =>
      getF t (F.LANE_CTRL_PSTATE_REQ n) = req ∧ linkState t n = 6 ∧
      ((statusByte s n).isSome = true → t.out.getLast? = some (.statusSent n (2 + req) 16)) ∧ MemorySameButCopy s t) ∧
  (∀ (s : State) (n : Fin 56), Up s → getF s (F.LANE_CTRL_PSTATE_REQ n) = 1 ∨ getF s (F.LANE_CTRL_PSTATE_REQ n) = 2 →
    linkState s n = 6 → getF s (F.LANE_STATUS_PSTATE n) ≠ getF s (F.LANE_CTRL_PSTATE_REQ n) →
    Completes (.lanePowerStateEntered n) s fun t =>
      getF t (F.LANE_STATUS_PSTATE n) = getF s (F.LANE_CTRL_PSTATE_REQ n) ∧ linkState t n = 6 ∧
      RegsSameBut [R.LANE_STATUS n] s t ∧ MemorySame s t)

/-- What received STATUS, idle and undefined ordered sets do, and all that they leave unchanged. On a block that is up: a
STATUS ordered set with a valid check byte and a defined state sets REMOTE_STATE of a lane in ALIGNING, DESKEW, UP or
PARKED, one whose check byte is wrong changes nothing and is not counted (the model's choice between R74 and R75, log
entry 55), and one of undefined state counts on the lane's unexpected counter; an idle ordered set changes nothing; an
undefined ordered set counts one. No other register, no DRAM byte and no array entry changes. (R74, R75, R77, R484) -/
def Obligations.OrderedSetsReceived : Prop :=
  (∀ (s : State) (n : Fin 56) (state : Byte), Up s → 1 ≤ state.toNat → state.toNat ≤ 4 → 3 ≤ linkState s n →
    linkState s n ≠ 7 → Completes (.statusOrderedSetReceived n state (state ^^^ 0xFF)) s fun t =>
      getF t (F.LANE_STATUS_REMOTE_STATE n) = state.toNat ∧ RegsSameBut [R.LANE_STATUS n] s t ∧ MemorySame s t) ∧
  (∀ (s : State) (n : Fin 56) (state check : Byte), Up s → check ≠ state ^^^ 0xFF →
    Completes (.statusOrderedSetReceived n state check) s fun t => t = s) ∧
  (∀ (s : State) (n : Fin 56) (state : Byte), Up s → state.toNat = 0 ∨ 4 < state.toNat →
    Completes (.statusOrderedSetReceived n state (state ^^^ 0xFF)) s fun t =>
      (rd t (R.LNK_UNEXPECTED n)).toNat = min ((rd s (R.LNK_UNEXPECTED n)).toNat + 1) 0xFFFFFFFF ∧
      RegsSameBut [R.LNK_UNEXPECTED n] s t ∧ MemorySame s t) ∧
  (∀ (s : State) (n : Fin 56) (drift : Fin 3), Up s → Completes (.idleOrderedSetReceived n drift) s fun t => t = s) ∧
  (∀ (s : State) (n : Fin 56), Up s → Completes (.undefinedOrderedSetReceived n) s fun t =>
    (rd t (R.LNK_UNEXPECTED n)).toNat = min ((rd s (R.LNK_UNEXPECTED n)).toNat + 1) 0xFFFFFFFF ∧
    RegsSameBut [R.LNK_UNEXPECTED n] s t ∧ MemorySame s t)

/-- Loopback, PRBS and equalizer writes of a lane. On a block that is up: LANE_LOOPBACK_WRITE stores the mode and puts a
powered lane in LOOPBACK for modes 1 and 2; LANE_PRBS_MODE_WRITE stores the mode, counts the errors that the checker found
in the mode before, saturating, shows for modes 1 and 2 whether the checker locks, and takes a lane in UP or DESKEW to
ALIGNING for modes 1 and 2 (the model's choice, log entry 55); LANE_RXEQ_WRITE writes the setting of a lane that is not
UP, and on a lane that is UP and not calibrating it queues a pinned calibration while LANE_n_RXEQ still reads the old
setting; LANE_TXEQ_WRITE stores the setting as written, not clamped (log entry 18), while the setting in force stays that
of before, and TXEQ_APPLY puts the written one in force: side taps of negative sign, each held to its top, the main tap
what they leave of 64, and the swing in steps of 50 mV from 600. DRAM and arrays stay as they were, but that a twin bond
which leaves UP ends a copy under way. (R44, R45, R66, R70) -/
def Obligations.LaneTestAndEqualizer : Prop :=
  (∀ (s : State) (n : Fin 56) (mode : Fin 4), Up s → Completes (.laneLoopbackWrite n mode) s fun t =>
    getF t (F.LANE_CTRL_LOOPBACK n) = mode ∧ (mode = 1 ∨ mode = 2 → domOn s (laneDomain n) = true → linkState t n = 7) ∧
    MemorySameButCopy s t) ∧
  (∀ (s : State) (n : Fin 56) (mode : Fin 4) (locked : Bool) (errors : Nat), Up s →
    Completes (.lanePrbsModeWrite n ⟨mode, locked, errors⟩) s fun t =>
    getF t (F.LANE_TEST_PRBS_MODE n) = mode ∧
    (mode = 1 ∨ mode = 2 → getF t (F.LANE_TEST_CHECK_LOCK n) = ofBool locked) ∧
    rd t (R.LANE_PRBS_ERR n) =
      (if prbsMode s n = 0 then rd s (R.LANE_PRBS_ERR n)
       else BitVec.ofNat 32 (min ((rd s (R.LANE_PRBS_ERR n)).toNat + errors) 0xFFFFFFFF)) ∧
    (mode = 1 ∨ mode = 2 → linkState s n = 4 ∨ linkState s n = 5 → linkState t n = 3) ∧ MemorySameButCopy s t) ∧
  (∀ (s : State) (n : Fin 56) (dcgain : Fin 4) (peak : Fin 16), Up s → linkState s n ≠ 5 →
    Completes (.laneRxeqWrite n dcgain peak) s fun t =>
      getF t (F.LANE_RXEQ_DCGAIN n) = dcgain ∧ getF t (F.LANE_RXEQ_PEAK n) = peak ∧
      RegsSameBut [R.LANE_RXEQ n] s t ∧ MemorySame s t) ∧
  (∀ (s : State) (n : Fin 56) (dcgain : Fin 4) (peak : Fin 16), Up s → linkState s n = 5 →
    flag s (F.LANE_STATUS_CAL_BUSY n) = false → Completes (.laneRxeqWrite n dcgain peak) s fun t =>
      (lane t n).pinned = some (16 * dcgain.val + peak.val) ∧ getF t (F.LANE_STATUS_CAL_BUSY n) = 1 ∧
      RegsSameBut [R.LANE_STATUS n] s t ∧ MemorySame s t) ∧
  (∀ (s : State) (n : Fin 56) (swing post pre : Fin 32), Up s → swing.val ≤ 15 → pre.val ≤ 15 →
    Completes (.laneTxeqWrite n swing post pre) s fun t =>
      getF t (F.LANE_TXEQ_SWING n) = swing ∧ getF t (F.LANE_TXEQ_POST n) = post ∧ getF t (F.LANE_TXEQ_PRE n) = pre ∧
      txTaps t n = txTaps s n ∧ RegsSameBut [R.LANE_TXEQ n] s t ∧ MemorySame s t) ∧
  (∀ (s : State) (n : Fin 56), Up s → Completes (.txeqApply n) s fun t =>
    let pre : Int := min 12 (bitsOf (rd s (R.LANE_TXEQ n)).toNat 3 0);
    let post : Int := min 24 (bitsOf (rd s (R.LANE_TXEQ n)).toNat 12 8);
    txTaps t n = (-pre, 64 - pre - post, -post) ∧
    txSwing t n = 600 + 50 * min 8 (bitsOf (rd s (R.LANE_TXEQ n)).toNat 19 16) ∧ RegsSameBut [] s t ∧ MemorySame s t)

/-- Calibration of a lane: start, runs, lay-by swap and period. On a block that is up: LANE_CAL_START on a lane that is UP and
not busy sets CAL_BUSY and clears CAL_FAIL, on a lane that is not UP it ends at once with RESULT 5 (NOT_UP) and RUNS,
PEAK, HEIGHT and WIDTH 0, and on a busy lane it changes nothing; CAL_RUN_COMPLETE of the lane in work counts a run, and
where the run agrees with the one before and meets both limits it arms the swap; LAYBY_SWAP then puts the armed setting,
with the DC gain that CAL_CTRL held at the agreed run (log entry 55), into LANE_n_RXEQ, ends the calibration with RESULT 1
(ACCEPTED) and clears CAL_BUSY; CAL_PERIOD_EXPIRY with a period of 0 changes nothing and with another period sets CAL_BUSY
on every lane that is UP. (R60, R62, R63, R64, R65, R67) -/
def Obligations.LaneCalibration : Prop :=
  (∀ (s : State) (n : Fin 56), Up s → linkState s n = 5 → flag s (F.LANE_STATUS_CAL_BUSY n) = false →
    Completes (.laneCalStart n) s fun t =>
      getF t (F.LANE_STATUS_CAL_BUSY n) = 1 ∧ getF t (F.LANE_STATUS_CAL_FAIL n) = 0 ∧
      RegsSameBut [R.LANE_STATUS n] s t ∧ MemorySame s t) ∧
  (∀ (s : State) (n : Fin 56), Up s → linkState s n ≠ 5 → flag s (F.LANE_STATUS_CAL_BUSY n) = false →
    Completes (.laneCalStart n) s fun t =>
      getF t (F.LANE_CAL_RESULT_RESULT n) = 5 ∧ getF t (F.LANE_CAL_RESULT_RUNS n) = 0 ∧
      getF t (F.LANE_CAL_RESULT_PEAK n) = 0 ∧ getF t (F.LANE_CAL_RESULT_HEIGHT n) = 0 ∧
      getF t (F.LANE_CAL_RESULT_WIDTH n) = 0 ∧
      getF t (F.LANE_CAL_RESULT_DCGAIN n) = getF s (F.LANE_CAL_CTRL_DCGAIN n) ∧
      RegsSameBut [R.LANE_STATUS n, R.LANE_CAL_RESULT n] s t ∧ MemorySame s t) ∧
  (∀ (s : State) (n : Fin 56), Up s → flag s (F.LANE_STATUS_CAL_BUSY n) = true →
    Completes (.laneCalStart n) s fun t => t = s) ∧
  (∀ (s : State) (n : Fin 56) (scan : List EyeScan) (prev : CalRun), Up s → s.calActive.find (n.val / 14) = some n.val →
    (lane s n).swap = none → (lane s n).pinned = none → (lane s n).lastRun = some prev →
    runsAgree prev (bestRun scan) = true → getF s (F.LANE_CAL_CTRL_MIN_WIDTH n) ≤ (bestRun scan).width →
    getF s (F.LANE_CAL_CTRL_MIN_HEIGHT n) ≤ (bestRun scan).height →
    Completes (.calRunComplete n scan) s fun t =>
      (lane t n).swap = some (16 * getF s (F.LANE_CAL_CTRL_DCGAIN n) + (bestRun scan).peak) ∧
      (lane t n).runs = (lane s n).runs + 1 ∧ RegsSameBut [] s t ∧ MemorySame s t) ∧
  (∀ (s : State) (n : Fin 56) (q : Fin 64), Up s → (lane s n).swap = some q.val →
    Completes (.laybySwap n) s fun t =>
      getF t (F.LANE_RXEQ_DCGAIN n) = q.val / 16 ∧ getF t (F.LANE_RXEQ_PEAK n) = q.val % 16 ∧
      getF t (F.LANE_CAL_RESULT_RESULT n) = 1 ∧ getF t (F.LANE_STATUS_CAL_BUSY n) = 0 ∧
      RegsSameBut [R.LANE_STATUS n, R.LANE_RXEQ n, R.LANE_CAL_RESULT n] s t ∧ MemorySame s t) ∧
  (∀ s : State, Up s → getF s F.LANE_CAL_PERIOD_SECONDS = 0 → Completes .calPeriodExpiry s fun t => t = s) ∧
  (∀ s : State, Up s → getF s F.LANE_CAL_PERIOD_SECONDS ≠ 0 → Completes .calPeriodExpiry s fun t =>
    (∀ n : Fin 56, linkState s n = 5 → getF t (F.LANE_STATUS_CAL_BUSY n) = 1) ∧
    RegsSameBut ((List.range 56).map R.LANE_STATUS) s t ∧ MemorySame s t)

/-- Ingest: accepted frames, dropped frames, enables, the ingest close and signal loss. On a block that is up: an INGEST frame
that passes every test on an enabled ingest lane and is ON_TIME has its sample index accepted and its arrival noted; a
start of frame inside a frame counts one header error where a whole header failed and one length error otherwise;
INGEST_ENABLE_WRITE stores the enables, takes an enabled lane from OFF to LOST and a disabled one to OFF; INGEST_CLOSE of
the frame before the present one shows the frame and its validity bits, none of them set for a disabled lane;
SIGNAL_LOST_TIMEOUT makes a lane without arrival for two frames LOST; a CTL frame that passes its tests is counted as
received and as unexpected, as the model reads R90 (log entry 12). (R81, R82, R85, R86, R90, R96, R97, R98, R101) -/
def Obligations.IngestCommandsComplete : Prop :=
  (∀ (s : State) (n : Fin 16) (f : RxFrame), Up s → linkState s n = 5 → headerOk f = true → frByte f 0 = 1 →
    lengthOk f = true → f.eofInPlace = true → typeAllowed s n 1 = true → getB s R.LNK_ING_EN n = true →
    frField f 8 8 % 4096 = 0 → frField f 6 2 = getR s R.LNK_SIGNAL_BASE + 4 * n.val →
    frField f 8 8 ∉ (ingestLane s n).accepted → ingestClass s f = .onTime →
    Completes (.ingestFrameReceived (n.castLE (by decide)) f) s fun t =>
      frField f 8 8 ∈ (ingestLane t n).accepted ∧ (ingestLane t n).lastArrival = some (f.eofAt / 2 ^ 21)) ∧
  (∀ (s : State) (n : Fin 56) (f : RxFrame), Up s → linkState s n = 5 → Completes (.sofInsideFrame n f) s fun t =>
    if 32 ≤ f.header.length ∧ headerOk f = false then
      (rd t (R.LNK_HDR_ERR n)).toNat = min ((rd s (R.LNK_HDR_ERR n)).toNat + 1) 0xFFFFFFFF
    else (rd t (R.LNK_LEN_ERR n)).toNat = min ((rd s (R.LNK_LEN_ERR n)).toNat + 1) 0xFFFFFFFF) ∧
  (∀ (s : State) (enable : BitVec 16), Up s → Completes (.ingestEnableWrite enable) s fun t =>
    getR t R.LNK_ING_EN = enable.toNat ∧
    (∀ n : Fin 16, enable.getLsbD n = false → sigState t n = 0) ∧
    (∀ n : Fin 16, enable.getLsbD n = true → sigState t n = if sigState s n = 0 then 1 else sigState s n) ∧
    MemorySame s t) ∧
  (∀ (s : State) (f : Nat), Up s → frameOf s = f + 1 → s.counter.toNat ≤ ingestCloseAt f → s.ingestValid.find f = none →
    Completes (.ingestClose f) s fun t =>
      getPair t R.LNK_VALID_FRAME_LO = f ∧ (∃ v, t.ingestValid.find f = some v ∧ getPair t R.LNK_VALID_LO = v) ∧
      ∀ i : Fin 64, getB s R.LNK_ING_EN (i.val / 4) = false → (getPair t R.LNK_VALID_LO).testBit i = false) ∧
  (∀ (s : State) (n : Fin 16), Up s → 2 ≤ sigState s n →
    (∀ l, (ingestLane s n).lastArrival = some l → l + 2 < frameOf s) → Completes (.signalLostTimeout n) s fun t =>
      sigState t n = 1 ∧ MemorySame s t) ∧
  (∀ (s : State) (n : Fin 56) (f : RxFrame), Up s → linkState s n = 5 → headerOk f = true → frByte f 0 = 3 →
    lengthOk f = true → f.eofInPlace = true → typeAllowed s n 3 = true → payloadCrcOk f = true →
    Completes (.ctlFrameReceived n f) s fun t =>
      (rd t (R.LNK_RX_FRAMES n)).toNat = min ((rd s (R.LNK_RX_FRAMES n)).toNat + 1) 0xFFFFFFFF ∧
      (rd t (R.LNK_UNEXPECTED n)).toNat = min ((rd s (R.LNK_UNEXPECTED n)).toNat + 1) 0xFFFFFFFF ∧
      RegsSameBut [R.LNK_RX_FRAMES n, R.LNK_UNEXPECTED n] s t ∧ MemorySame s t)

/-- A frame whose header fails its tests counts once as a header error and has no other effect on registers or memory. Any
INGEST, XCH, CTL, SIGNPOST, RELAY or TWIN frame received on a lane that is UP, whose header has a code violation, a wrong
CRC, an undefined type or a wrong version, adds one to the lane's LNK_n_HDR_ERR, saturating, and changes no other
register, no DRAM byte and no array entry. (R81) -/
def Obligations.FrameWithBadHeaderCountsOnce : Prop :=
  ∀ (s : State) (n : Fin 56) (f : RxFrame) (full : Bool) (c : Instr), Up s → linkState s n = 5 → headerOk f = false →
    c ∈ [Instr.ingestFrameReceived n f, .xchFrameReceived n f full, .ctlFrameReceived n f,
      .signpostFrameReceived n f, .relayFrameReceived n f, .twinSnapshotReceived n f, .twinMirrorReceived n f,
      .twinDigestReceived n f, .twinHeartbeatReceived n f] →
    Completes c s fun t =>
      (rd t (R.LNK_HDR_ERR n)).toNat = min ((rd s (R.LNK_HDR_ERR n)).toNat + 1) 0xFFFFFFFF ∧
      RegsSameBut [R.LNK_HDR_ERR n] s t ∧ MemorySame s t

/-- Model table, arms, gain banks, RUN, the latch point and the spectra of the channelizer. On a block that is up, and for the
mirrored writes on a chip whose twin state is not 1 to 4: MODEL_TABLE_WRITE stores words 0 to 12 of a slot, word 1 fixing
the frame the slot matches, and ignores words 13 to 15; CHZ_SWITCH_ARM with defined filter selections arms the switch with
its frame and settings; CHZ_MODE_ARM for a frame that begins an integration and whose latch point lies ahead, with at most
65,536 spectra per integration in calibration mode, arms the mode change, and is rejected with MODE_REJECT otherwise;
GAIN_BANK_WRITE stores an entry of a bank that is not in use and counts a write to one that is; CHZ_RUN_WRITE stores RUN;
MODEL_LATCH of the present frame, not jumped over and not latched before, latches its settings, each running signal taking
its matching entry; SPECTRUM_COMPLETE of a latched frame delivers the spectrum, kept until its packet is complete and
dropped where the crossroads does not run, and the last one shows the frame's validity. A command of the debug master
needs TEST_MODE high. (R107, R108, R109, R123, R124, R125, R127, R130, R455) -/
def Obligations.ChannelizerCommandsComplete : Prop :=
  (∀ (s : State) (m : Master) (i : Fin 64) (slot : Fin 4) (w : Fin 16) (v : Word), Sends s m →
    domOn s (quadDomain i) = true → twinState s = 0 ∨ 5 ≤ twinState s → Completes (.modelTableWrite m i slot w v) s fun t =>
      (w.val ≤ 12 → modelWord t i slot w = v.toNat) ∧
      (w.val = 1 → t.chz.slotFrame.find (4 * i.val + slot.val) = some (if v.getLsbD 31 then
        some (v.toNat % 2 ^ 16 * 2 ^ 32 + modelWord s i slot 0) else none)) ∧
      (13 ≤ w.val → t.arrays = s.arrays) ∧ ∀ a, readByte t.dram a = readByte s.dram a) ∧
  (∀ (s : State) (m : Master) (high : BitVec 16), Sends s m → twinState s = 0 ∨ 5 ≤ twinState s →
    (∀ q : Fin 4, bitsOf (getF s F.CHZ_SWITCH_CTRL_FILTER) (4 * q.val + 3) (4 * q.val) < 9) →
    Completes (.chzSwitchArm m high) s fun t =>
      t.chz.pendSwitch = some (getR s R.CHZ_SWITCH_FRAME_LO + high.toNat * 2 ^ 32, getF s F.CHZ_SWITCH_CTRL_FILTER,
        getF s F.CHZ_SWITCH_CTRL_GAIN_BANK) ∧ getF t F.CHZ_SWITCH_CTRL_ARMED = 1 ∧ MemorySame s t) ∧
  (∀ (s : State) (m : Master) (high : BitVec 16) (f : Nat), Sends s m → twinState s = 0 ∨ 5 ≤ twinState s →
    f = getR s R.CHZ_MODE_FRAME_LO + high.toNat * 2 ^ 32 → Completes (.chzModeArm m high) s fun t =>
      MemorySame s t ∧
      if f % (spanLen s * integLen s) = 0 ∧ s.counter.toNat < latchPoint f ∧
          (flag s F.CHZ_MODE_NEXT_CAL8 = true → spanLen s * integLen s * 256 ≤ 65536) then
        t.chz.pendMode = some (f, flag s F.CHZ_MODE_NEXT_CAL8) ∧ getF t F.CHZ_MODE_ARMED = 1
      else t.chz.pendMode = s.chz.pendMode ∧ getF t F.CHZ_MODE_MODE_REJECT = 1) ∧
  (∀ (s : State) (m : Master) (b : Fin 2) (e : Fin 262144) (v : Word), Sends s m → twinState s = 0 ∨ 5 ≤ twinState s →
    domOn s (5 + e.val / 65536) = true →
    Completes (.gainBankWrite m (BitVec.ofNat 26 (0x600000 + b.val * 0x100000 + 4 * e.val)) v) s fun t =>
      if gainBankInUse s b = true then
        (rd t R.CHZ_WRITE_REJECT_COUNT).toNat = min ((rd s R.CHZ_WRITE_REJECT_COUNT).toNat + 1) 0xFFFFFFFF ∧
        t.arrays = s.arrays
      else arrGet t .gain (5 + e.val / 65536) (b.val * 262144 + e.val) = v.setWidth 64) ∧
  (∀ (s : State) (quads : BitVec 4), Up s → Completes (.chzRunWrite quads) s fun t =>
    getF t F.CHZ_CTRL_RUN = quads.toNat ∧ RegsSameBut [R.CHZ_CTRL] s t ∧ MemorySame s t) ∧
  (∀ (s : State) (f : Nat), Up s → frameOf s = f → s.counter.toNat ≤ latchPoint f → jumpedOver s f = false →
    (s.chz.modes.any fun m => f ≤ m.1) = false → Completes (.modelLatch f) s fun t =>
      (t.chz.confs.find f).isSome = true ∧
      (s.chz.reload = none → replaying s = false → ∀ (i : Fin 64) (k : Nat), matchingSlot s i f = some k →
        (t.chz.quadStart.find (i.val / 16)).isSome = true → t.chz.last.find i = some (f, modelEntry s i k))) ∧
  (∀ (s : State) (f : Nat) (k : Fin 256) (missed : BitVec 4), Up s →
    spectrumOutAt f k ≤ (advanceTo s (spectrumOutAt f k)).counter.toNat → (s.chz.confs.find f).isSome = true →
    s.chz.output.find (256 * f + k.val) = none → Completes (.spectrumComplete f k missed) s fun t =>
      (k.val = 255 → getPair t R.CHZ_VALID_FRAME_LO = f ∧ (t.chz.valid.find f).isSome = true) ∧
      (k.val % 2 = 0 → cal8Of s f = false → xrRuns s f = true → (t.chz.output.find (256 * f + k.val)).isSome = true) ∧
      (xrRuns s f = false → (t.chz.output.find (256 * f + k.val)) = none))

/-- The crossroads exchange: queues, acceptance, the fix, narrowed links, span slots and its enable. On a block that is up:
XCH_QUEUE_HEAD takes the packet at the head of a link's queue and counts it as sent on a WIDE or NARROW link before its
deadline and as dropped otherwise, where the chip emits packets of the frame, and else counts nothing (log entry 37); an
XCH frame that passes every check is accepted once and counted; POST_EXCHANGE_FIX of a due frame writes the frame and its
validity bits; LINK_NARROW_DELAY_EXPIRY, after the narrowing delay, narrows a link onto its first aligned lane;
XR_WIDEN_WRITE marks narrowed links and LINK_WIDEN ends the narrowing; SPAN_SLOT_CHOOSE takes a slot that is free or read
and not held, and counts NO_SLOT where there is none; XR_ENABLE_WRITE starts the crossroads at once (log entry 30) and
stops it at the next frame tick. (R145, R149, R153, R157, R158, R163, R164, R169) -/
def Obligations.ExchangeCommandsComplete : Prop :=
  (∀ (s : State) (k : Fin 14) (time : Nat) (p : Packet) (rest : List Packet), Up s → s.xr.queues.get [] k = p :: rest →
    Completes (.xchQueueHead k time) s fun t =>
      t.xr.queues.get [] k = rest ∧
      if emitsFrame s (leAt p.header 8 6) = false then RegsSameBut [] s t
      else if (xlState s k = 1 ∨ xlState s k = 2) ∧ (advanceTo s time).counter.toNat < nextDeadline s p then
        (rd t (R.XR_XL_TX_COUNT k)).toNat = min ((rd s (R.XR_XL_TX_COUNT k)).toNat + 1) 0xFFFFFFFF
      else (rd t R.XR_TX_DROP_COUNT).toNat = min ((rd s R.XR_TX_DROP_COUNT).toNat + 1) 0xFFFFFFFF) ∧
  (∀ (s : State) (n : Fin 56) (f : RxFrame) (now : Nat), Up s → linkState s n = 5 → headerOk f = true → frByte f 0 = 2 →
    lengthOk f = true → f.eofInPlace = true → typeAllowed s n 2 = true → xrRuns s (frField f 8 6) = true →
    xchHeaderOk s (getF s (F.LANE_USE_LINK n)) f = true → frByte f 5 = chipNo s →
    (frField f 8 6, frByte f 14, frByte f 4, frByte f 5) ∉ s.xr.accepted →
    now = (advanceTo s f.eofAt).counter.toNat → frameStart (frField f 8 6) ≤ now → now < frameStart (frField f 8 6 + 3) →
    Completes (.xchFrameReceived n f false) s fun t =>
      (frField f 8 6, frByte f 14, frByte f 4, frByte f 5) ∈ t.xr.accepted ∧
      (rd t (R.LNK_RX_FRAMES n)).toNat = min ((rd s (R.LNK_RX_FRAMES n)).toNat + 1) 0xFFFFFFFF ∧
      (rd t (R.XR_XL_RX_COUNT (getF s (F.LANE_USE_LINK n)))).toNat =
        min ((rd s (R.XR_XL_RX_COUNT (getF s (F.LANE_USE_LINK n)))).toNat + 1) 0xFFFFFFFF) ∧
  (∀ (s : State) (f : Nat), Up s → fixDue s f = true → Completes (.postExchangeFix f) s fun t =>
    t.xr.lastFixed = some f ∧ getPair t R.XR_VALID_FRAME_LO = f ∧
    ∀ m : Fin 128, getR t (R.XR_VALID m) = exchangeBits s f / 2 ^ (32 * m.val) % 2 ^ 32) ∧
  (∀ (s : State) (k : Fin 14) (time n : Nat), Up s → (xlink s k).delay = true →
    max 1 (getF s F.XR_NARROW_DELAY_MICROSECONDS) ≤ time → flag s F.XR_CTRL_NARROW_EN = true →
    twinSplit s = false → overLoad (linkLoad s (flag s F.CHZ_MODE_CAL8) k) laneSlots = false →
    (lanesOf s 3 k).find? (fun n => flag s (F.LANE_STATUS_ALIGNED n)) = some n →
    Completes (.linkNarrowDelayExpiry ⟨k, time⟩) s fun t =>
      (xlink t k).keep = some n ∧
      (rd t (R.XR_XL_NARROW_COUNT k)).toNat = min ((rd s (R.XR_XL_NARROW_COUNT k)).toNat + 1) 0xFFFFFFFF ∧
      MemorySame s t) ∧
  (∀ (s : State) (bits : BitVec 14), Up s → Completes (.xrWidenWrite bits) s fun t =>
    (∀ k : Fin 14, bits.getLsbD k = true → (xlink s k).keep.isSome = true → (xlink t k).widen = true) ∧
    (∀ k : Fin 14, bits.getLsbD k = false → xlink t k = xlink s k) ∧ RegsSameBut [] s t ∧ MemorySame s t) ∧
  (∀ (s : State) (k : Fin 14), Up s → (xlink s k).widen = true → Completes (.linkWiden k) s fun t =>
    (xlink t k).keep = none ∧ (xlink t k).widen = false ∧ MemorySame s t) ∧
  (∀ s : State, Up s → inRun s (frameOf s) = true → domOn s 23 = true →
    s.xr.lastSpan ≠ some (frameOf s / spanLen s) → Completes .spanSlotChoose s fun t =>
      t.xr.lastSpan = some (frameOf s / spanLen s) ∧ MemorySame s t ∧
      ((∃ k : Fin 4, (getF s (F.XR_SLOT_STATE k) = 0 ∨ getF s (F.XR_SLOT_STATE k) = 3) ∧
          getF s (F.XR_SLOT_HELD k) = 0 ∧ t.xr.lastSlot = some k.val ∧ getF t (F.XR_SLOT_STATE k) = 1 ∧
          getF t (F.XR_SLOT_SPAN k) = frameOf s / spanLen s % 2 ^ 28) ∨
        (∀ k : Fin 4, (getF s (F.XR_SLOT_STATE k) ≠ 0 ∧ getF s (F.XR_SLOT_STATE k) ≠ 3) ∨
          getF s (F.XR_SLOT_HELD k) = 1) ∧ getF t F.XR_STATUS_NO_SLOT = 1)) ∧
  (∀ (s : State) (enable : Bool), Up s → Completes (.xrEnableWrite enable) s fun t =>
    getF t F.XR_CTRL_EN = ofBool enable ∧
    (enable = true → getF t F.XR_STATUS_RUNNING = 1 ∧ t.xr.stopAt = none) ∧
    (enable = false → flag s F.XR_CTRL_EN = true → t.xr.stopAt = some (nextTick s)) ∧
    RegsSameBut [R.XR_CTRL, R.XR_STATUS] s t ∧ MemorySame s t)

/-- Beam points, send points, flips, the weight store and relayed sums. On a block that is up: BEAM_POINT of a spectrum the
beamformer processes, in order and not in calibration mode, ends its use of the input buffer and, with both halves on,
forms its chip sums; RELAY_SEND_POINT takes its sums and flags an overrun where there are none; BFM_FLIP_ARM arms the flip
for a frame later than the one the next tick starts with the mask as it stands, and refuses an earlier one with LATE;
WEIGHT_STORE_WRITE stores every enabled byte where none of them is protected, and otherwise stores nothing and counts one,
and as a read it returns the enabled bytes as stored; a RELAY frame of the position before that is in time enters the
receive buffer while PD_23 has power. A command of the debug master needs TEST_MODE high. (R222, R223, R224, R225, R226,
R231, R240, R455) -/
def Obligations.BeamCommandsComplete : Prop :=
  (∀ (s : State) (f : Nat) (n : Fin 256), Up s → bfmRuns s f = true → cal8Of s f = false →
    beamPoint f n ≤ (advanceTo s (beamPoint f n)).counter.toNat → (∀ x, s.bfm.lastPoint = some x → x < 256 * f + n.val) →
    Completes (.beamPoint f n) s fun t =>
      t.bfm.lastPoint = some (256 * f + n.val) ∧ (halvesOn s = 3 → (t.bfm.sums.find (256 * f + n.val)).isSome = true) ∧
      (∀ c : Fin 64, t.bfm.buffer.find (64 * (256 * f + n.val) + c.val) = none) ∧ RegsSameBut [] s t ∧ MemorySame s t) ∧
  (∀ (s : State) (f : Nat) (n : Fin 256), Up s → bfmRuns s f = true → cal8Of s f = false →
    sendPoint s f n ≤ (advanceTo s (sendPoint s f n)).counter.toNat →
    (∀ x, s.bfm.lastSend = some x → x < 256 * f + n.val) → Completes (.relaySendPoint f n) s fun t =>
      t.bfm.lastSend = some (256 * f + n.val) ∧ t.bfm.sums.find (256 * f + n.val) = none ∧
      (s.bfm.sums.find (256 * f + n.val) = none → getF t F.BFM_STATUS_OVERRUN = 1)) ∧
  (∀ (s : State) (m : Master) (high : BitVec 16) (f : Nat), Sends s m → twinState s = 0 ∨ 5 ≤ twinState s →
    f = getR s R.BFM_FLIP_FRAME_LO + high.toNat * 2 ^ 32 → Completes (.bfmFlipArm m high) s fun t =>
      MemorySame s t ∧
      if f ≤ nextTick s then t.bfm.flip = s.bfm.flip ∧ getF t F.BFM_FLIP_CTRL_LATE = 1
      else t.bfm.flip = some (f, bits256 s (R.BFM_FLIP_MASK 0)) ∧ getF t F.BFM_FLIP_CTRL_ARMED = 1) ∧
  (∀ (s : State) (m : Master) (off : BitVec 26) (bs : List (Option Byte)), Sends s m →
    twinState s = 0 ∨ 5 ≤ twinState s → domOn s (beamDomain (weightBeam off.toNat)) = true →
    (∀ (i : Nat) (v : Byte), i < 64 → bs[i]? = some (some v) → weightProtected s (off.toNat + i) = false) →
    Completes (.weightStoreWrite m off ⟨false, bs⟩) s fun t =>
      (∀ (i : Nat) (v : Byte), i < 64 → bs[i]? = some (some v) →
        arrGet t .weight (beamDomain (weightBeam off.toNat)) (off.toNat + i) = v.setWidth 64) ∧
      ∀ a, readByte t.dram a = readByte s.dram a) ∧
  (∀ (s : State) (m : Master) (off : BitVec 26) (bs : List (Option Byte)) (i : Nat) (v : Byte), Sends s m →
    twinState s = 0 ∨ 5 ≤ twinState s → domOn s (beamDomain (weightBeam off.toNat)) = true → i < 64 →
    bs[i]? = some (some v) → weightProtected s (off.toNat + i) = true → Completes (.weightStoreWrite m off ⟨false, bs⟩) s fun t =>
      (rd t R.BFM_WRITE_REJECT_COUNT).toNat = min ((rd s R.BFM_WRITE_REJECT_COUNT).toNat + 1) 0xFFFFFFFF ∧
      RegsSameBut [R.BFM_WRITE_REJECT_COUNT] s t ∧ MemorySame s t) ∧
  (∀ (s : State) (m : Master) (off : BitVec 26) (bs : List (Option Byte)), Sends s m → reaches m 4 = true →
    domOn s (beamDomain (weightBeam off.toNat)) = true → Completes (.weightStoreWrite m off ⟨true, bs⟩) s fun t =>
      t.out = s.out ++ [.weightData m off.toNat ((bs.take 64).zipIdx.map fun (b, i) =>
        if b.isSome then (arrGet s .weight (beamDomain (weightBeam off.toNat)) (off.toNat + i)).setWidth 8 else 0)] ∧
      RegsSameBut [] s t ∧ MemorySame s t) ∧
  (∀ (s : State) (n : Fin 56) (f : RxFrame) (o : Fin 8), Up s → linkState s n = 5 → headerOk f = true → frByte f 0 = 5 →
    lengthOk f = true → f.eofInPlace = true → typeAllowed s n 5 = true → (chainPos s).1 ≠ 0 →
    frByte f 5 + 1 = (chainPos s).1 → frByte f 6 = 0 → frByte f 7 = 255 → frByte f 15 = 0 → frByte f 18 = 8 →
    frField f 16 2 = 64 * sliceOf s (chipNo s) + 8 * o.val → bfmRuns s (frField f 8 6) = true →
    cal8Of s (frField f 8 6) = false → domOn s 23 = true →
    (advanceTo s f.eofAt).counter.toNat < sendPoint s (frField f 8 6) (frByte f 14) →
    ((s.bfm.relay.map fun e => e.1 / 8).eraseDups).length < 8 → Completes (.relayFrameReceived n f) s fun t =>
      t.bfm.relay.find (8 * (256 * frField f 8 6 + frByte f 14) + o.val) = some (frData f) ∧
      (rd t (R.LNK_RX_FRAMES n)).toNat = min ((rd s (R.LNK_RX_FRAMES n)).toNat + 1) 0xFFFFFFFF ∧ MemorySame s t)

/-- The correlation window of a span and the phases of a channel. On a block that is up: CORRELATION_WINDOW_OPEN in the span's
window marks its slot, which no waiting span held before it, as being read and starts the span, lets it wait while the map
is not built, another span is in work or an abort runs, or passes it with a STATUS and no work where it is not stored or
too large for 8-bit mode; COMPUTE_COMPLETE ends COMPUTE and every unit with a tile, and no other, holds its words, of
registers only the status and the saturation counts changing where the causeways' reads meet no self-refresh and no error;
FLUSH_COMPLETE ends FLUSH; DRAIN_COMPLETE goes on to the next channel, or after the last to idle; CAUSEWAY_READ_UE in
COMPUTE counts one and cuts the line's signals from the frame's validity record, and where no codeword of the DRAM is in
error it changes nothing else; CORRELATION_WINDOW_CLOSE closes the window once and marks the slot DONE. (R163, R172, R178,
R181, R182, R184, R185) -/
def Obligations.CorrelatorWindowsComplete : Prop :=
  (∀ (s : State) (n : Nat), Up s → spanStart s n + spanLen s + 2 ≤ frameOf s → frameOf s < corCloseTick s n →
    Completes (.correlationWindowOpen n) s fun t =>
      (∀ k : Fin 4, slotOf s n = some k.val → (∀ m, s.cor.waiting = some m → s.xr.former.find k ≠ some m) →
        getF s (F.XR_SLOT_STATE k) = 1 → getF t (F.XR_SLOT_STATE k) = 2) ∧
      (correlates s n = true → s.cor.waiting = none → (∀ l, s.cor.last = some l → l < n) →
        (corIdles s n = none → corReady s = false → t.cor.waiting = some n) ∧
        (corIdles s n = none → corReady s = true → t.cor.last = some n ∧ t.cor.span = some n) ∧
        ((corIdles s n).isSome = true → t.cor.last = some n ∧ t.cor.span = s.cor.span))) ∧
  (∀ (s : State) (span : Nat), Up s → s.cor.span = some span → corPhase s = 1 → Completes .computeComplete s fun t =>
    corPhase t = 2 ∧ (∀ e, e < unitsOf s → (tileOf s e).isSome = true → (t.cor.acc.find e).isSome = true) ∧
    (∀ e, e < unitsOf s → (tileOf s e).isSome = false → t.cor.acc.find e = none) ∧
    (s.badWords = [] → dramUsable s = true → (∀ u : Fin 16, getF s (F.MEM_STATE_SR u) ≠ 2) →
      guardOk s 3 (causewayLine s ((slotOf s span).getD 0) span 0 0 0) (spanLen s * 256 * 4096) false = true →
      RegsSameBut ([R.COR_STATUS, R.COR_SAT_COUNT] ++ (List.range 1024).map R.COR_TILE_SAT_COUNT) s t ∧ MemorySame s t)) ∧
  (∀ (s : State) (time : Nat), Up s → corPhase s = 2 → Completes (.flushComplete time) s fun t =>
    corPhase t = 3 ∧ RegsSameBut [R.COR_STATUS] s t ∧ MemorySame s t) ∧
  (∀ (s : State) (span time : Nat), Up s → s.cor.span = some span → corPhase s = 3 → s.cor.closed = false →
    s.cor.abortDue = false → Completes (.drainComplete time) s fun t =>
      (getF s F.COR_STATUS_CHANNEL < 63 →
        corPhase t = 1 ∧ getF t F.COR_STATUS_CHANNEL = getF s F.COR_STATUS_CHANNEL + 1 ∧ t.cor.span = some span) ∧
      (getF s F.COR_STATUS_CHANNEL = 63 → corPhase t = 0 ∧ t.cor.span = none)) ∧
  (∀ (s : State) (fr : Nat) (k : Fin 256) (line : Fin 64) (span : Nat), Up s → s.cor.span = some span → corPhase s = 1 →
    fr < spanLen s → flag s F.COR_STATUS_MODE8 = false → Completes (.causewayReadUe fr k line) s fun t =>
      (rd t R.COR_UE_COUNT).toNat = min ((rd s R.COR_UE_COUNT).toNat + 1) 0xFFFFFFFF ∧
      (∀ j : Fin 64, (t.xr.valid.get 0 (spanStart s span + fr)).testBit (64 * line.val + j.val) = false) ∧
      (s.badWords = [] → RegsSameBut [R.COR_UE_COUNT] s t ∧ MemorySame s t)) ∧
  (∀ (s : State) (n : Nat), Up s → corCloseTick s n ≤ frameOf s → (∀ l, s.cor.lastClosed = some l → l < n) →
    Completes (.correlationWindowClose n) s fun t =>
      t.cor.lastClosed = some n ∧ ∀ k : Fin 4, slotOf s n = some k.val → getF t (F.XR_SLOT_STATE k) = 3)

/-- Enable, disable, abort and the patrol of the correlator's tiles. On a block that is up: COR_ENABLE on a correlator that is
not enabled sets EN and puts every usable tile in TEST before the map is built; COR_DISABLE clears EN and the map;
COR_ABORT sets ABORT_BUSY and outside a drain leaves no span in work; ABORT_DRAIN_COMPLETE clears ABORT_BUSY;
PATROL_PASS_COMPLETE of a tile in test counts the pass, keeps its signature and shows whether it mismatched. (R185, R186,
R187, R189, R190, R192) -/
def Obligations.CorrelatorControlCompletes : Prop :=
  (∀ s : State, Up s → flag s F.COR_CTRL_EN = false → (∃ t : Fin 544, tileState s t = 1 ∨ tileState s t = 2) →
    Completes .corEnable s fun t =>
      getF t F.COR_CTRL_EN = 1 ∧ t.cor.built = none ∧
      (∀ k : Fin 544, tileState s k = 1 ∨ tileState s k = 2 → tileState t k = 3 ∧ k.val ∈ t.cor.startup) ∧
      MemorySame s t) ∧
  (∀ s : State, Up s → flag s F.COR_CTRL_EN = true → Completes .corDisable s fun t =>
    getF t F.COR_CTRL_EN = 0 ∧ t.cor.built = none ∧ t.cor.waiting = none ∧ t.cor.waitTest = []) ∧
  (∀ s : State, Up s → Completes .corAbort s fun t =>
    getF t F.COR_STATUS_ABORT_BUSY = 1 ∧
    (s.cor.span.isSome = true → corPhase s ≠ 3 → t.cor.span = none ∧ corPhase t = 0) ∧
    (s.cor.span.isSome = true → corPhase s = 3 → t.cor.abortDue = true ∧ t.cor.span = s.cor.span)) ∧
  (∀ s : State, Up s → flag s F.COR_STATUS_ABORT_BUSY = true → s.cor.abortDue = false →
    Completes .abortDrainComplete s fun t => getF t F.COR_STATUS_ABORT_BUSY = 0) ∧
  (∀ (s : State) (k : Fin 544) (sig : Word), Up s → tileState s k = 3 → k.val ∉ s.cor.waitTest →
    flag s F.PWR_STATUS_THROTTLE = false → Completes (.patrolPassComplete k sig) s fun t =>
      rd t (R.COR_TILE_SIG k) = sig ∧
      (rd t (R.COR_TILE_PASS_COUNT k)).toNat = min ((rd s (R.COR_TILE_PASS_COUNT k)).toNat + 1) 0xFFFFFFFF ∧
      getF t (F.COR_TILE_STATE_MISMATCH_LAST k) = ofBool (sig != rd s R.COR_GOLD_SIG) ∧
      (sig ≠ rd s R.COR_GOLD_SIG → k.val ∈ s.cor.second → tileState t k = 4))

/-- Enable, disable and the readout of an integration. On a block that is up: INT_ENABLE on a fold unit that is not enabled
sets EN and at once RUNNING (log entry 30), marks every channel DIRTY where no readout is under way, and folds from the
first integration that starts at or after the next tick; INT_DISABLE clears both and abandons, with a count each, the
integrations being folded (the model's reading, log entry 30: the next one too, where its first window has opened beside a
late drain); READOUT_WINDOW_OPEN of an integration owed a readout opens it at channel 0; READOUT_CHANNEL reads out the
next channel and after the last ends the readout; READOUT_WINDOW_CLOSE ends the readout of the channels left with an
overrun. (R198, R204, R205, R207, R217) -/
def Obligations.IntegrationCommandsComplete : Prop :=
  (∀ s : State, Up s → flag s F.INT_CTRL_EN = false → s.integ.readout = none → Completes .intEnable s fun t =>
    getF t F.INT_CTRL_EN = 1 ∧ getF t F.INT_STATUS_RUNNING = 1 ∧
    (∀ (z : Fin 2) (c : Fin 64), chanState t z c = 0) ∧
    t.integ.first = some ((nextTick s + spanLen s * integLen s - 1) / (spanLen s * integLen s)) ∧ MemorySame s t) ∧
  (∀ s : State, Up s → flag s F.INT_CTRL_EN = true → Completes .intDisable s fun t =>
    getF t F.INT_CTRL_EN = 0 ∧ getF t F.INT_STATUS_RUNNING = 0 ∧
    (∀ n, s.integ.folding = some n → n ∈ t.integ.dead ∧ t.integ.folding = none ∧
      (rd t R.INT_ABANDON_COUNT).toNat = min ((rd s R.INT_ABANDON_COUNT).toNat + (beingFolded s).length) 0xFFFFFFFF ∧
      ∀ m ∈ beingFolded s, m ∈ t.integ.dead) ∧ MemorySame s t) ∧
  (∀ (s : State) (n : Nat), Up s → owedReadout s n = true → integStart s (n + 1) + spanLen s + 2 ≤ frameOf s →
    frameOf s < integStart s (n + 1) + 2 * spanLen s + 2 → s.integ.readout = none →
    Completes (.readoutWindowOpen n) s fun t =>
      t.integ.readout = some (n, 0) ∧ getF t F.INT_READOUT_BUSY = 1 ∧ getF t F.INT_READOUT_BUFFER = n % 2 ∧
      getF t F.INT_READOUT_DONE = 0 ∧ RegsSameBut [R.INT_READOUT] s t ∧ MemorySame s t) ∧
  (∀ (s : State) (n : Nat) (c : Fin 64), Up s → s.integ.readout = some (n, c.val) → getF s F.INT_READOUT_DONE = c →
    foldedLast s n c = true → domOn s 23 = true → Completes .readoutChannel s fun t =>
      (c.val < 63 → t.integ.readout = some (n, c.val + 1) ∧ getF t F.INT_READOUT_DONE = c.val + 1) ∧
      (c.val = 63 → t.integ.readout = none ∧ t.integ.lastDone = some n ∧ getF t F.INT_READOUT_BUSY = 0)) ∧
  (∀ (s : State) (n : Nat), Up s → owedReadout s n = true → integStart s (n + 1) + 2 * spanLen s + 2 ≤ frameOf s →
    (∀ c, s.integ.readout = some (n, c) → c < 64 ∧ getF s F.INT_READOUT_DONE = c) →
    Completes (.readoutWindowClose n) s fun t =>
      t.integ.readout = none ∧ t.integ.lastDone = some n ∧ getF t F.INT_STATUS_READOUT_OVERRUN = 1)

/-- Injected triggers, horizons, the raw ring writer, captures, holds and signposts. On a block that is up, the trigger engine
running: TRIGGER_INJECT with any record action advances SEQ by one, and on a chip in UNSYNCED, COPYING, CHECKING or SYNCED
is only counted as rejected; IMPULSE_HORIZON_ADVANCE brings the group's horizon up to date; RAW_SEGMENT_START at a frame
due takes the segment next in rotation; RAW_WRITE_DEADLINE abandons the frame's write with RAW_GAP; SEGMENT_WRITE_COMPLETE
writes what is due of the segment (the two as log entry 24 dates them), which is then WRITTEN if no capture waits for it;
CAPTURE_RELEASE_WRITE and CAPTURE_TIMEOUT free captures; HOLD_RELEASE_WRITE and HOLD_TIMEOUT end holds of their own; a
SIGNPOST frame of another origin not seen before is counted and remembered. (R247, R254, R256, R258, R259, R262, R263,
R461) -/
def Obligations.TriggerCommandsComplete : Prop :=
  (∀ (s : State) (channel : BitVec 13) (action : BitVec 5), Up s → twinState s = 0 ∨ 5 ≤ twinState s → trgOn s = true →
    Completes (.triggerInject channel action) s fun t =>
      t.trg.seq = s.trg.seq + (if action.toNat % 16 = 0 then 0 else 1)) ∧
  (∀ (s : State) (channel : BitVec 13) (action : BitVec 5), Up s → 1 ≤ twinState s → twinState s ≤ 4 →
    Completes (.triggerInject channel action) s fun t =>
      (rd t R.TWN_MIRROR_REJECT_COUNT).toNat = min ((rd s R.TWN_MIRROR_REJECT_COUNT).toNat + 1) 0xFFFFFFFF ∧
      RegsSameBut [R.TWN_MIRROR_REJECT_COUNT] s t ∧ MemorySame s t) ∧
  (∀ (s : State) (k : Fin 8) (time : Nat), Up s → trgOn s = true → trgF s F.TRG_CTRL_IMP_EN = 1 →
    Completes (.impulseHorizonAdvance k time) s fun t =>
      (t.trg.groups.get {} k).horizon = horizonNow (advanceTo s time) k) ∧
  (∀ (s : State) (k : Fin 96), Up s → rawOn s (frameOf s) = true → frameOf s % 6 = 0 →
    (∀ j, s.trg.current = some j → s.trg.segFirst.get 0 j < frameOf s) → trgF s F.TRG_CTRL_RAW_EN = 1 →
    (∀ j : Fin 96, s.trg.claimed.find j ≠ some (frameOf s)) → (rotation s).head? = some k.val →
    Completes .rawSegmentStart s fun t =>
      t.trg.current = some k.val ∧ segState t k = 1 ∧ t.trg.segFirst.find k = some (frameOf s) ∧
      getF t F.TRG_RAW_STATE_SEGMENT = k ∧ MemorySame s t) ∧
  (∀ (s : State) (f : Nat) (written : BitVec 64) (k : Nat), Up s → f ∈ s.trg.rawDue → segOfFrame s f = some k →
    Completes (.rawWriteDeadline f written) s fun t =>
      (rd t R.TRG_RAW_GAP_COUNT).toNat = min ((rd s R.TRG_RAW_GAP_COUNT).toNat + 1) 0xFFFFFFFF ∧
      getF t F.TRG_STATUS_RAW_GAP = 1 ∧ t.trg.rawDue = s.trg.rawDue.erase f) ∧
  (∀ (s : State) (k : Fin 96) (b : Nat), Up s → s.trg.segFirst.find k = some b → b % 6 = 0 → b + 5 ∈ s.trg.rawDue →
    segOfFrame s (b + 5) = some k.val → Completes (.segmentWriteComplete k) s fun t =>
      (∀ f ∈ t.trg.rawDue, b + 5 < f) ∧
      (flag s (F.TRG_SEG_PENDING k) = false → segState t k = 2) ∧ t.arrays = s.arrays) ∧
  (∀ (s : State) (bits : BitVec 16), Up s → domOn s 24 = true → Completes (.captureReleaseWrite bits) s fun t =>
    (∀ c : Fin 16, bits.getLsbD c = true → getF t (F.TRG_CAPTURE_STATE c) = 0) ∧
    (∀ c : Fin 16, bits.getLsbD c = false → getF t (F.TRG_CAPTURE_STATE c) = getF s (F.TRG_CAPTURE_STATE c)) ∧
    MemorySame s t) ∧
  (∀ (s : State) (c : Fin 16), Up s → getF s (F.TRG_CAPTURE_STATE c) = 2 → trgF s F.TRG_TIMEOUT_SECONDS ≠ 0 →
    domOn s 24 = true → Completes (.captureTimeout c) s fun t =>
      getF t (F.TRG_CAPTURE_STATE c) = 0 ∧ getF t (F.TRG_CAPTURE_EXPIRED c) = 1 ∧ MemorySame s t) ∧
  (∀ (s : State) (slots : BitVec 4), Up s → domOn s 24 = true → Completes (.holdReleaseWrite slots) s fun t =>
    (∀ k : Fin 4, slots.getLsbD k = true → holdAlone s k = true → getF t (F.XR_SLOT_HELD k) = 0) ∧
    (∀ k : Fin 4, slots.getLsbD k = false → getF t (F.XR_SLOT_HELD k) = getF s (F.XR_SLOT_HELD k)) ∧ MemorySame s t) ∧
  (∀ (s : State) (k : Fin 4), Up s → holdAlone s k = true → trgF s F.TRG_TIMEOUT_SECONDS ≠ 0 → domOn s 24 = true →
    Completes (.holdTimeout k) s fun t =>
      getF t (F.XR_SLOT_HELD k) = 0 ∧ RegsSameBut [R.XR_SLOT k] s t ∧ MemorySame s t) ∧
  (∀ (s : State) (n : Fin 56) (f : RxFrame), Up s → linkState s n = 5 → headerOk f = true → frByte f 0 = 4 →
    lengthOk f = true → f.eofInPlace = true → typeAllowed s n 4 = true → trgOn s = true → frByte f 4 ≠ chipNo s →
    (frByte f 4, frField f 6 2, frField f 8 8) ∉ s.trg.keys → Completes (.signpostFrameReceived n f) s fun t =>
      (frByte f 4, frField f 6 2, frField f 8 8) ∈ t.trg.keys ∧
      (rd t R.TRG_SP_RX_COUNT).toNat = min ((rd s R.TRG_SP_RX_COUNT).toNat + 1) 0xFFFFFFFF)

/-- Memory errors, guard refusals, the scrubber and panic. On a block whose memory is served: MEM_UE whose error patterns the
code of R304 cannot correct counts one error, sets UE and the MEM_UE fault and raises event 12 (log entry 26), and one
whose patterns it corrects changes nothing (log entry 15); MEM_GUARD_REFUSAL counts, and the only DRAM bytes that change
are the 32 of the error log's entry; SCRUB_READ counts each error pattern found that the code corrects and, where the
scrubber runs, goes on to the next line, after the last one to the first; SCRUB_WRITE_BACK with the scrubber enabled and
not throttled performs the write-back queued first; MEM_PANIC at a buffer that reaches its ON level sets PANIC, counts it
and leaves no subchannel in self-refresh; PANIC_END with both levels at or below OFF clears PANIC, and with both buffers
empty issues what is owed to every rank outside self-refresh (the moment is the model's choice, log entry 27). (R302,
R304, R306, R307, R308, R309, R311, R313, R456) -/
def Obligations.MemoryReportsComplete : Prop :=
  (∀ (s : State) (req : Fin 14) (line : Nat) (words : List (Fin 4 × List Byte)) (rmw : Bool), Up s → memServes s = true →
    (∃ w ∈ words, rsDecode w.2 = .failed) → 64 * line < capacity s → Completes (.memUe req line words rmw) s fun t =>
      (rd t R.MEM_UE_COUNT).toNat = min ((rd s R.MEM_UE_COUNT).toNat + 1) 0xFFFFFFFF ∧ getF t F.MEM_STATUS_UE = 1 ∧
      getB t R.HLT_FAULT 6 = true ∧ t.pulses = s.pulses ++ [12] ∧ t.arrays = s.arrays) ∧
  (∀ (s : State) (req : Fin 14) (line : Nat) (words : List (Fin 4 × List Byte)) (rmw : Bool), Up s →
    (∀ w ∈ words, rsDecode w.2 ≠ .failed) → Completes (.memUe req line words rmw) s fun t => t = s) ∧
  (∀ (s : State) (req : Fin 14) (addr len : Nat) (write : Bool), Up s → memServes s = true →
    guardOk s req addr len write = false → Completes (.memGuardRefusal req addr len write) s fun t =>
      (rd t R.MEM_GUARD_COUNT).toNat = min ((rd s R.MEM_GUARD_COUNT).toNat + 1) 0xFFFFFFFF ∧
      getF t F.MEM_STATUS_GUARD = 1 ∧ t.arrays = s.arrays ∧
      ∀ a, (a < regionBase s 5 + 32 * getF s F.MEM_LOG_HEAD_SLOT ∨
          regionBase s 5 + 32 * getF s F.MEM_LOG_HEAD_SLOT + 32 ≤ a) → readByte t.dram a = readByte s.dram a) ∧
  (∀ (s : State) (found : List CorrErr), Up s → memServes s = true → Completes (.scrubRead found) s fun t =>
    ((∀ e ∈ found, e.word ∉ s.badWords ∧ ∃ i v, rsDecode e.error = .corrected i v) →
      (rd t R.MEM_CE_COUNT).toNat = min ((rd s R.MEM_CE_COUNT).toNat + found.length) 0xFFFFFFFF) ∧
    (flag s F.MEM_CTRL_SCRUB_EN = true → flag s F.MEM_STATUS_INIT_DONE = true → panicOn s = false →
      flag s F.PWR_STATUS_THROTTLE = false →
      t.mem.scrubNext = if 64 * (s.mem.scrubNext + 1) < capacity s then s.mem.scrubNext + 1 else 0)) ∧
  (∀ (s : State) (l : Nat) (rest : List Nat), Up s → memServes s = true → panicOn s = false →
    flag s F.MEM_CTRL_SCRUB_EN = true → flag s F.PWR_STATUS_THROTTLE = false → s.mem.scrubQueue = l :: rest → Completes .scrubWriteBack s fun t =>
      t.mem.scrubQueue = rest ∧
      (rd t R.MEM_SCRUB_FIX_COUNT).toNat = min ((rd s R.MEM_SCRUB_FIX_COUNT).toNat + 1) 0xFFFFFFFF ∧
      RegsSameBut (R.MEM_SCRUB_FIX_COUNT :: (List.range 16).map R.MEM_STATE) s t ∧ MemorySame s t) ∧
  (∀ (s : State) (raw span : Fin 8193) (time : Nat), Up s → memServes s = true → panicOn s = false →
    getF s F.MEM_PANIC_CFG_ON * 8192 ≤ 64 * raw.val ∨ getF s F.MEM_PANIC_CFG_ON * 4096 ≤ 64 * span.val →
    Completes (.memPanic raw ⟨span, time⟩) s fun t =>
      getF t F.MEM_STATUS_PANIC = 1 ∧
      (rd t R.MEM_PANIC_COUNT).toNat = min ((rd s R.MEM_PANIC_COUNT).toNat + 1) 0xFFFFFFFF ∧
      (∀ u : Fin 16, getF t (F.MEM_STATE_SR u) ≠ 2) ∧ MemorySame s t) ∧
  (∀ (s : State) (raw span : Fin 8193) (time : Nat), Up s → panicOn s = true →
    64 * raw.val ≤ min (getF s F.MEM_PANIC_CFG_OFF) (getF s F.MEM_PANIC_CFG_ON) * 8192 →
    64 * span.val ≤ min (getF s F.MEM_PANIC_CFG_OFF) (getF s F.MEM_PANIC_CFG_ON) * 4096 →
    Completes (.panicEnd raw span time) s fun t =>
      getF t F.MEM_STATUS_PANIC = 0 ∧ MemorySame s t ∧
      (raw.val ≠ 0 ∨ span.val ≠ 0 → RegsSameBut [R.MEM_STATUS, R.MEM_RT_LEVEL, R.MEM_PANIC_TIME] s t) ∧
      (raw.val = 0 → span.val = 0 → memServes s = true →
        ∀ (u : Fin 16) (rank : Fin 2), getF s (F.MEM_STATE_SR u) ≠ 2 → getF t (owedF u rank) = 0))

/-- Refresh, rate, self-refresh, and the start of a commit. On a block whose memory is served: REFRESH_INTERVAL of a rank
outside self-refresh issues what is owed when nothing waits and panic is off, postpones up to POSTPONE_MAX otherwise, and
beyond it forces a refresh with a count; MR4_POLL puts the rank in the rate called for, FORCE_2X holding the doubled one;
SELF_REFRESH_ENTRY enters with nothing owed and a count, or is aborted with a count; SELF_REFRESH_EXIT leaves it;
REQUEST_AGE_PROMOTION puts the requester in class 2 at least until it is served, where the age limit is not 0;
MEM_SWEEP_COMMIT sets BUSY with its selection while not BUSY. DRAM and arrays stay as they were. (R310, R312, R313, R314,
R315, R316, R318) -/
def Obligations.MemoryRefreshComplete : Prop :=
  (∀ (s : State) (u : Fin 16) (rank : Fin 2) (waits : Bool), Up s → memServes s = true → getF s (F.MEM_STATE_SR u) ≠ 2 →
    Completes (.refreshInterval u rank waits) s fun t =>
      MemorySame s t ∧
      if waits = false ∧ panicOn s = false then getF t (owedF u rank) = 0
      else if getF s (owedF u rank) + 1 ≤ postponeMax s then getF t (owedF u rank) = getF s (owedF u rank) + 1
      else getF t (owedF u rank) = postponeMax s ∧
        (rd t R.MEM_FORCED_REF_COUNT).toNat = min ((rd s R.MEM_FORCED_REF_COUNT).toNat + 1) 0xFFFFFFFF) ∧
  (∀ (s : State) (u : Fin 16) (rank : Fin 2) (double : Bool), Up s → memServes s = true → getF s (F.MEM_STATE_SR u) ≠ 2 →
    Completes (.mr4Poll u rank double) s fun t =>
      rate2x t u rank = (double || flag s F.MEM_CTRL_FORCE_2X) ∧ MemorySame s t) ∧
  (∀ (s : State) (u : Fin 16), Up s → memServes s = true → getR s R.MEM_SR_IDLE % 65536 ≠ 0 → panicOn s = false →
    getF s (F.MEM_STATE_SR u) = 0 →
    (Completes (.selfRefreshEntry u none) s fun t =>
      getF t (F.MEM_STATE_SR u) = 2 ∧ getF t (owedF u 0) = 0 ∧ getF t (owedF u 1) = 0 ∧
      (rd t R.MEM_SR_ENTRY_COUNT).toNat = min ((rd s R.MEM_SR_ENTRY_COUNT).toNat + 1) 0xFFFFFFFF ∧ MemorySame s t) ∧
    ∀ issued, Completes (.selfRefreshEntry u (some issued)) s fun t =>
      getF t (F.MEM_STATE_SR u) = 0 ∧
      getF t (owedF u 0) + getF t (owedF u 1) = getF s (owedF u 0) + getF s (owedF u 1) - issued ∧
      (rd t R.MEM_SR_ABORT_COUNT).toNat = min ((rd s R.MEM_SR_ABORT_COUNT).toNat + 1) 0xFFFFFFFF ∧ MemorySame s t) ∧
  (∀ (s : State) (u : Fin 16), Up s → getF s (F.MEM_STATE_SR u) = 2 → Completes (.selfRefreshExit u) s fun t =>
    getF t (F.MEM_STATE_SR u) = 0 ∧ getF t (owedF u 0) = 0 ∧ getF t (owedF u 1) = 0 ∧
    RegsSameBut [R.MEM_STATE u] s t ∧ MemorySame s t) ∧
  (∀ (s : State) (requester : Fin 14), Up s → memServes s = true → Completes (.requestAgePromotion requester) s fun t =>
    RegsSameBut [] s t ∧ MemorySame s t ∧
    if getF s F.MEM_AGE_LIMIT_US = 0 then t = s else reqClass t requester ≤ 2 ∧ requester.val ∈ t.mem.promoted) ∧
  (∀ (s : State) (sel : Fin 16) (trialEn : Bool), Up s → flag s F.MEM_SWEEP_CTRL_BUSY = false →
    Completes (.memSweepCommit sel trialEn) s fun t =>
      getF t F.MEM_SWEEP_CTRL_BUSY = 1 ∧ getF t F.MEM_SWEEP_CTRL_SEL = sel ∧
      getF t F.MEM_SWEEP_CTRL_TRIAL_EN = ofBool trialEn ∧ getF t (F.MEM_STATE_SR sel) ≠ 2 ∧
      RegsSameBut [R.MEM_SWEEP_CTRL, R.MEM_STATE sel] s t ∧ MemorySame s t)

/-- Initialisation of the memory and the DRAM sweep. On a block that is up: MEM_INIT of a served memory sets INIT_BUSY and
clears INIT_DONE; MEM_INIT_DONE leaves every byte of DRAM zero with INIT_DONE set; a host's DRAM_SWEEP of subchannels that
exist, while none runs, is accepted and sweeps them in order; DRAM_SWEEP_COMPLETE outside panic and throttling ends the
sweep of the first, failing where a window is narrower than 16 points, and after the last gives the notice, or at the
start-up of the memory begins the fill (log entry 27). (R316, R317, R318, R319, R358) -/
def Obligations.MemoryStartAndSweepComplete : Prop :=
  (∀ s : State, Up s → memServes s = true → Completes .memInit s fun t =>
    getF t F.MEM_STATUS_INIT_BUSY = 1 ∧ getF t F.MEM_STATUS_INIT_DONE = 0 ∧ RegsSameBut [R.MEM_STATUS] s t ∧
    MemorySame s t) ∧
  (∀ s : State, Up s → flag s F.MEM_STATUS_INIT_BUSY = true → Completes .memInitDone s fun t =>
    getF t F.MEM_STATUS_INIT_BUSY = 0 ∧ getF t F.MEM_STATUS_INIT_DONE = 1 ∧ (∀ a, readByte t.dram a = 0) ∧
    t.badWords = [] ∧ RegsSameBut [R.MEM_STATUS] s t ∧ t.arrays = s.arrays) ∧
  (∀ (s : State) (tag : Word) (mask : BitVec 16), Up s → Served s .host 10 tag.toNat (leBytes 2 mask.toNat) →
    s.mem.sweep = [] → memServes s = true → mask ≠ 0 → (∀ u : Fin 16, mask.getLsbD u = true → u.val < subCount s) →
    Completes (.dramSweep .host tag mask) s fun t =>
      t.mem.sweep = (List.range 16).filter (fun u => mask.getLsbD u) ∧ t.mem.sweepTag = tag.toNat ∧
      Answered t .host 10 tag.toNat stAccepted ∧ MemorySame s t) ∧
  (∀ (s : State) (scans : List SweepScan) (u : Fin 16) (rest : List Nat), Up s → s.mem.sweep = u.val :: rest →
    panicOn s = false → flag s F.PWR_STATUS_THROTTLE = false → Completes (.dramSweepComplete scans) s fun t =>
      t.mem.sweep = rest ∧ t.arrays = s.arrays ∧
      getF t (F.MEM_STATE_SWEEP_FAIL u) =
        (if (narrowest ((List.range 10).map fun n => widestRun (sweepPoints s (·.rd) scans n))).2 < 16 ∨
            (narrowest ((List.range 10).map fun n => widestRun (sweepPoints s (·.wr) scans n))).2 < 16 then 1 else 0) ∧
      (rest = [] → s.mem.starting = false →
        getR t R.MBX_NOTICE_TAG = s.mem.sweepTag % 2 ^ 32 ∧ getF t F.MBX_STATUS_NOTICE = 1) ∧
      (rest = [] → s.mem.starting = true → memServes s = true →
        getF t F.MEM_STATUS_INIT_BUSY = 1 ∧ getF t F.MEM_STATUS_INIT_DONE = 0))

/-- START, STOP, the end of a stop, and the frame tick. On a block that is up: START served answers NOT_READY while the data
path runs and TIMING without valid time or less than 4 frames ahead, with the run as it was, and otherwise OK: the run
starts at F0 with the EN bits set and the fold unit due to begin with the first integration that begins at or after F0;
STOP served answers TIMING for a frame already started, also while the data path is stopped (the model's choice, log entry
55), else OK, and fixes the stop frame of a run that has none, while a later STOP changes nothing (log entry 40);
DATA_PATH_STOP_COMPLETE at its tick, readouts ended, stops the run and clears the EN bits; FRAME_TICK brings the counter
to the next multiple of 2^21, and raises event 0 and notes the frame unless a backward step suppresses it, when it does
nothing more. DRAM and arrays stay as they were under START and STOP. (R24, R25, R26, R27, R217, R356, R358) -/
def Obligations.RunCommandsComplete : Prop :=
  (∀ (s : State) (src : CmdSource) (tag : Word) (f0 : BitVec 48), Up s → Served s src 3 tag.toNat (leBytes 6 f0.toNat) →
    Completes (.start src tag f0) s fun t =>
      Answered t src 3 tag.toNat (startStatus s f0.toNat) ∧ MemorySame s t ∧
      (s.arch.running = true → startStatus s f0.toNat = stNotReady) ∧
      (startStatus s f0.toNat ≠ stOk → t.arch = s.arch ∧ MailOnlyBut [] s t) ∧
      (startStatus s f0.toNat = stOk →
        t.arch.running = true ∧ t.arch.startFrame = f0.toNat ∧ t.arch.stopFrame = none ∧
        getF t F.XR_CTRL_EN = 1 ∧ getF t F.COR_CTRL_EN = 1 ∧ getF t F.INT_CTRL_EN = 1 ∧ getF t F.BFM_CTRL_EN = 1 ∧
        getF t F.TRG_CTRL_EN = 1 ∧
        t.integ.first = some ((f0.toNat + spanLen s * integLen s - 1) / (spanLen s * integLen s)))) ∧
  (∀ (s : State) (src : CmdSource) (tag : Word) (fs : BitVec 48), Up s → Served s src 4 tag.toNat (leBytes 6 fs.toNat) →
    Completes (.stop src tag fs) s fun t =>
      Answered t src 4 tag.toNat (stopStatus s fs.toNat) ∧ MailOnlyBut [] s t ∧
      t.arch = (if stopStatus s fs.toNat = stOk ∧ s.arch.running = true ∧ s.arch.stopFrame = none then
        { s.arch with stopFrame := some (if fs = 0 then nextTick s else fs.toNat) } else s.arch)) ∧
  (∀ (s : State) (fs : Nat), Up s → s.arch.stopFrame = some fs → s.arch.running = true → stopEnd s fs ≤ frameOf s →
    s.integ.readout = none → Completes .dataPathStopComplete s fun t =>
      t.arch.running = false ∧ t.arch.stopFrame = none ∧ getF t F.XR_CTRL_EN = 0 ∧ getF t F.XR_STATUS_RUNNING = 0 ∧
      getF t F.COR_CTRL_EN = 0 ∧ getF t F.INT_CTRL_EN = 0 ∧ getF t F.BFM_CTRL_EN = 0 ∧ getF t F.TRG_CTRL_EN = 0) ∧
  (∀ (s : State) (written : Option (BitVec 64)) (f : Nat), Up s → f < 2 ^ 43 →
    f = (if s.arch.tickDue = true then frameOf s else frameOf s + 1) → Completes (.frameTick written) s fun t =>
      t.counter.toNat = frameStart f ∧ t.arch.tickDue = false ∧
      ((∃ l, s.arch.closedUpTo = some l ∧ f ≤ l) → RegsSameBut [] s t ∧ MemorySame s t ∧ t.pulses = s.pulses) ∧
      ((∀ l, s.arch.closedUpTo = some l → l < f) → t.arch.lastStarted = some f ∧ 0 ∈ t.pulses ∧
        (s.str.events = none → spanLen s ≠ 0 → f % spanLen s = 0 → 1 ∈ t.pulses)))

/-- Undefined commands, STEP_PERMIT, READ_HEALTH, CAPTURE_READ and TWIN_JOIN. On a block that is up and serves the command: an
undefined CMD answers BAD_COMMAND; STEP_PERMIT clears TIME_FAULT and answers OK; READ_HEALTH writes the 4,096-byte record
to the host, or sends it in the response over the relay path, and starts the hottest reading anew; CAPTURE_READ on an
idle, empty ring for a capture that exists and fits the host buffer (log entry 57) is accepted and starts the ring, from
its anchor where it has one, and answers BAD_ARGS without one of these or without power in PD_27 (log entry 57); TWIN_JOIN
with bad arguments answers BAD_ARGS, as STANDBY is accepted and shows COPYING, and as ACTIVE or SOLO is accepted, shows
ALONE with the slice in service, and gives its notice (log entry 50). (R339, R345, R356, R357, R358, R359, R412, R459,
R466) -/
def Obligations.MailboxCommandsComplete : Prop :=
  (∀ (s : State) (tag : Word) (cmd : BitVec 16), Up s → Served s .host cmd.toNat tag.toNat [] → cmd = 0 ∨ 13 < cmd.toNat →
    Completes (.mailboxBadCommand .host tag cmd) s fun t =>
      Answered t .host cmd.toNat tag.toNat stBadCommand ∧ MailOnlyBut [] s t) ∧
  (∀ (s : State) (src : CmdSource) (tag : Word), Up s → Served s src 8 tag.toNat [] →
    Completes (.stepPermit src tag) s fun t =>
      Answered t src 8 tag.toNat stOk ∧ getF t F.CLK_STATUS_TIME_FAULT = 0 ∧ MemorySame s t ∧
      (flag s F.CLK_STATUS_TIME_FAULT = false → MailOnlyBut [] s t ∧ t.counter = s.counter)) ∧
  (∀ (s : State) (src : CmdSource) (tag : Word) (host : DWord), Up s → Served s src 7 tag.toNat (leBytes 8 host.toNat) →
    Completes (.readHealth src tag host) s fun t =>
      Answered t src 7 tag.toNat stOk ∧ MailOnlyBut [] s t ∧ t.pwr.tempMax = none ∧
      (src = .host → domLive s 27 = true → .hostWrite host.toNat (healthRecord s) false ∈ t.out)) ∧
  (∀ (s : State) (tag : Word) (cap : Fin 16) (ring : Fin 4096) (host room : DWord) (compress release : Bool), Up s →
    Served s .host 11 tag.toNat [] → Completes (.captureRead .host tag cap ring ⟨host, room⟩ compress release) s fun t =>
      MemorySame s t ∧
      if ringFree s ring = true ∧ getF s (F.TRG_CAPTURE_STATE cap) ≠ 0 ∧ domOn s 27 = true ∧
          frameBytes * (captureFrames s cap).length ≤ room.toNat then
        Answered t .host 11 tag.toNat stAccepted ∧ (∃ last, (ring.val, last, tag.toNat) ∈ t.mail.captureRead) ∧
        (flag s F.DMA_STATUS_FETCH_STOP = false → if flag s (F.DMA_RING_STATUS_ANCHOR_VALID ring) = true then
          (dmaRing t ring).refetch = 1 else ringState t ring = 2)
      else Answered t .host 11 tag.toNat stBadArgs ∧ MailOnlyBut [] s t) ∧
  (∀ (s : State) (tag : Word) (role pair : Byte) (fj : BitVec 48), Up s →
    Served s .host 9 tag.toNat (leBytes 1 role.toNat ++ leBytes 1 pair.toNat ++ leBytes 6 fj.toNat) →
    Completes (.twinJoin .host tag role pair fj) s fun t =>
      MemorySame s t ∧
      if joinOk s role.toNat pair.toNat fj.toNat = false then
        Answered t .host 9 tag.toNat stBadArgs ∧ t.twin = s.twin ∧ MailOnlyBut [] s t
      else Answered t .host 9 tag.toNat stAccepted ∧ twinRole t = role.toNat ∧ t.twin.joinFrame = fj.toNat ∧
        (role = 2 → twinState t = 2 ∧ t.twin.joinTag = some tag.toNat) ∧
        (role ≠ 2 → twinState t = 6 ∧ getF t F.TWN_STATUS_SLICE_OUT = 0 ∧ Noticed t 9 tag.toNat stOk))

/-- Recording, streaming and replaying. On a block that is up and serves the command: YODEX_RECORD answers BUSY or BAD_ARGS as
the rules say with Yodex as it was, and otherwise is accepted and waits for its first frame; YODEX_RECORD_END after the
last frame gives the notice and, for a recording under way, holds it and leaves Yodex idle or streaming;
YODEX_STREAM_COMPLETE ends the streaming; YODEX_REPLAY answers what keeps it from running with Yodex as it was, and
otherwise is accepted and starts the data path one frame after FP, cut from its start where PD_29 is off (this and the
statuses by log entry 42); YODEX_REPLAY_END after the last frame or a power-off shows that the replay is over and gives
the notice. (R430, R432, R433, R434, R435) -/
def Obligations.YodexCommandsComplete : Prop :=
  (∀ (s : State) (tag : Word) (fs : BitVec 48) (count : Word) (stream : Bool), Up s → Served s .host 12 tag.toNat [] →
    Completes (.yodexRecord .host tag fs count stream) s fun t =>
      Answered t .host 12 tag.toNat (recordStatus s fs.toNat count.toNat) ∧
      if recordStatus s fs.toNat count.toNat = stAccepted then
        ydxState t = 1 ∧ t.ydx.first = fs.toNat ∧ t.ydx.count = count.toNat ∧ t.ydx.stream = stream ∧
        t.ydx.tag = tag.toNat ∧ (12, tag.toNat) ∈ t.mail.running ∧ MailOnlyBut [R.YDX_STATUS] s t
      else t.ydx = s.ydx ∧ MailOnlyBut [] s t) ∧
  (∀ s : State, Up s → (12, s.ydx.tag) ∈ s.mail.running → s.ydx.first + s.ydx.count + 1 ≤ frameOf s →
    Completes .yodexRecordEnd s fun t =>
      Noticed t 12 s.ydx.tag stOk ∧ MailOnlyBut [R.YDX_STATUS, R.YDX_STREAM_FRAME_COUNT] s t ∧
      (ydxState s = 2 → t.ydx.held = true ∧ ydxState t = if s.ydx.stream = true then 3 else 0)) ∧
  (∀ s : State, Up s → ydxState s = 3 → Completes .yodexStreamComplete s fun t =>
    ydxState t = 0 ∧ RegsSameBut [R.YDX_STATUS] s t ∧ MemorySame s t) ∧
  (∀ (s : State) (tag : Word) (fp : BitVec 48) (pace : BitVec 16), Up s → Served s .host 13 tag.toNat [] →
    Completes (.yodexReplay .host tag fp pace) s fun t =>
      (∀ a, readByte t.dram a = readByte s.dram a) ∧
      if replayStatus s fp.toNat pace.toNat = stAccepted then
        t.arch.running = true ∧ t.arch.startFrame = fp.toNat + 1 ∧ t.ydx.replayFirst = fp.toNat ∧
        t.ydx.pace = max 1 pace.toNat ∧ t.ydx.cut = (if domOn s 29 = true then none else some 0) ∧ (13, tag.toNat) ∈ t.mail.running
      else Answered t .host 13 tag.toNat (replayStatus s fp.toNat pace.toNat) ∧ t.ydx = s.ydx ∧ MailOnlyBut [] s t) ∧
  (∀ s : State, Up s → ydxState s = 5 →
    s.ydx.cut.isSome = true ∨ s.ydx.replayFirst + s.ydx.pace * (s.ydx.count - 1) + 1 ≤ frameOf s →
    Completes .yodexReplayEnd s fun t =>
      ydxState t = 6 ∧ Noticed t 13 s.ydx.replayTag stOk ∧ MailOnlyBut [R.YDX_STATUS, R.YDX_REPLAY] s t)

/-- LOAD_STRUCTURE, LOAD_REGION and the end of a load. On a block that is up and serves the command: a load answers BUSY while
another is under way (the model's choice, log entry 48) and BAD_ARGS for an image outside its area or an undefined region;
LOAD_STRUCTURE of a running data path answers NOT_READY with NOT_STOPPED shown; where the image reads well the load is
accepted with LOADING set and the bytes taken, and the memory it reads leaves self-refresh; STRUCTURE_LOAD_COMPLETE of a
load that fails a check shows the code and the section (LAST_SECTION by log entry 48), counts one, gives a REJECTED notice
and changes nothing else, but that under host or relay boot the firmware of a bundle which passes orders 1 to 8 runs, and
of one that passes makes the image's sections those that run and gives an OK notice. (R356, R396, R397, R398, R399, R400,
R454) -/
def Obligations.LoadCommandsComplete : Prop :=
  (∀ (s : State) (tag : Word) (off : DWord) (len : Word), Up s →
    Served s .host 1 tag.toNat (leBytes 8 off.toNat ++ leBytes 4 len.toNat) →
    Completes (.loadStructure .host tag off len) s fun t =>
      (s.str.load.isSome = true → Answered t .host 1 tag.toNat stBusy ∧ t.str = s.str ∧ MailOnlyBut [] s t) ∧
      (s.str.load = none → imageAt s off.toNat len.toNat = false →
        Answered t .host 1 tag.toNat stBadArgs ∧ t.str = s.str ∧ MailOnlyBut [] s t) ∧
      (s.str.load = none → imageAt s off.toNat len.toNat = true → s.arch.running = true →
        Answered t .host 1 tag.toNat stNotReady ∧ getF t F.STR_STATUS_LAST_RESULT = lrNotStopped ∧ t.str = s.str ∧
        MailOnlyBut [R.STR_STATUS] s t) ∧
      ∀ bs, s.str.load = none → imageAt s off.toNat len.toNat = true → s.arch.running = false →
        unitRead s 10 off.toNat len.toNat = some bs →
        Answered t .host 1 tag.toNat stAccepted ∧ getF t F.STR_STATUS_LOADING = 1 ∧
        t.str.load = some ⟨1, tag.toNat, none, bs, none⟩ ∧ MailOnlyBut (R.STR_STATUS :: (List.range 16).map R.MEM_STATE) s t) ∧
  (∀ (s : State) (tag : Word) (off : DWord) (len : Word) (region : Byte), Up s →
    Served s .host 2 tag.toNat (leBytes 8 off.toNat ++ leBytes 4 len.toNat ++ leBytes 1 region.toNat) →
    Completes (.loadRegion .host tag off len region) s fun t =>
      (s.str.load.isSome = true → Answered t .host 2 tag.toNat stBusy ∧ t.str = s.str ∧ MailOnlyBut [] s t) ∧
      (s.str.load = none → imageAt s off.toNat len.toNat = false ∨ 12 < region.toNat →
        Answered t .host 2 tag.toNat stBadArgs ∧ t.str = s.str ∧ MailOnlyBut [] s t) ∧
      ∀ bs, s.str.load = none → imageAt s off.toNat len.toNat = true → region.toNat ≤ 12 →
        unitRead s 10 off.toNat len.toNat = some bs →
        Answered t .host 2 tag.toNat stAccepted ∧ getF t F.STR_STATUS_LOADING = 1 ∧
        t.str.load = some ⟨2, tag.toNat, some region.toNat, bs, none⟩ ∧
        MailOnlyBut (R.STR_STATUS :: (List.range 16).map R.MEM_STATE) s t) ∧
  (∀ (s s' : State) (l : StrLoad), Up s → s.str.load = some l →
    s' = setStr (setF s F.STR_STATUS_LOADING 0) (fun x => { x with load := none }) →
    Completes .structureLoadComplete s fun t =>
      (∀ code sec, loadFails s' l = some (code, sec) →
        getF t F.STR_STATUS_LAST_RESULT = code % 256 ∧ getF t F.STR_STATUS_LAST_SECTION = sec % 256 ∧
        getF t F.STR_STATUS_LOADING = 0 ∧
        (rd t R.STR_REJECT_COUNT).toNat = min ((rd s R.STR_REJECT_COUNT).toNat + 1) 0xFFFFFFFF ∧
        t.str = { s.str with load := none, firmware := s.str.firmware || bootRuns s' l } ∧
        MailOnlyBut [R.STR_STATUS, R.STR_REJECT_COUNT, R.STR_FW_VERSION] s t ∧
        (bootRuns s' l = false → rd t R.STR_FW_VERSION = rd s R.STR_FW_VERSION) ∧
        (l.cmd = 1 ∨ l.cmd = 2 → Noticed t l.cmd l.tag stRejected)) ∧
      (loadFails s' l = none →
        getF t F.STR_STATUS_LAST_RESULT = 0 ∧ getF t F.STR_STATUS_LAST_SECTION = 255 ∧
        t.str.image = (sections (imageOf l.bytes)).map (fun e => (e.type, e.region, e.crc)) ∧
        (l.cmd = 1 ∨ l.cmd = 2 → Noticed t l.cmd l.tag stOk)))

/-- SCHEDULE_UPDATE, programming, activation, the trial and its confirmation. On a block that is up: SCHEDULE_UPDATE answers
BAD_ARGS or BUSY as the rules say with nothing else changed, rejects an image that fails its checks with a notice, a count
and the inactive slot FAILED, and otherwise begins the host's session with the inactive slot PROGRAMMING;
SLOT_PROGRAM_COMPLETE ends the session with the slot VALID and holding the image, or FAILED with FLASH; UPDATE_ACTIVATION
at its frame takes the schedule away, puts the slot on trial and stops a running data path; TRIAL_FIRMWARE_START of
firmware that cannot parse the settings falls back with reason 1, with an image that fails its checks falls back with
reason 2, and otherwise shows TRIAL and gives the notice; CONFIRM_UPDATE with the ID of the trial's image makes the slot
ACTIVE, and any other answers REJECTED; CONFIRM_TIMEOUT, the record's time having passed, falls back with reason 4, the
time counted as log entry 58 says. What the rules leave open of updates follows log entries 49 and 60. (R403, R411, R413,
R414, R415, R416, R417) -/
def Obligations.UpdateCommandsComplete : Prop :=
  (∀ (s : State) (tag : Word) (off : DWord) (len : Word) (fa fr : BitVec 48) (timeout : BitVec 16) (relay force : Bool)
      (sch : StrSchedule), Up s → sch = ⟨fa.toNat, fr.toNat, timeout.toNat, ofBool relay + 2 * ofBool force⟩ →
    Served s .host 5 tag.toNat (leBytes 8 off.toNat ++ leBytes 4 len.toNat ++ scheduleBytes sch) →
    Completes (.scheduleUpdate .host tag off len fa fr timeout relay force) s fun t =>
      (imageAt s off.toNat len.toNat = false ∨ scheduleOk s sch = false →
        Answered t .host 5 tag.toNat stBadArgs ∧ t.str = s.str ∧ MailOnlyBut [] s t) ∧
      (imageAt s off.toNat len.toNat = true → scheduleOk s sch = true →
        (s.str.session.isSome = true ∧ force = false) ∨ sessionState s = 3 ∨ inactiveSlot s = none →
        Answered t .host 5 tag.toNat stBusy ∧ t.str = s.str ∧ MailOnlyBut [] s t) ∧
      ∀ bs, imageAt s off.toNat len.toNat = true → scheduleOk s sch = true → s.str.session = none → sessionState s ≠ 3 →
        (inactiveSlot s).isSome = true → unitRead s 10 off.toNat len.toNat = some bs →
        Answered t .host 5 tag.toNat stAccepted ∧ MemorySame s t ∧
        if (fullCheck (acceptAsync (served s 10 off.toNat len.toNat) .host 5 tag.toNat) bs true).isSome = true then
          Noticed t 5 tag.toNat stRejected ∧ t.str = s.str ∧
          (rd t R.STR_REJECT_COUNT).toNat = min ((rd s R.STR_REJECT_COUNT).toNat + 1) 0xFFFFFFFF ∧
          ∀ k, inactiveSlot s = some k → getF t (F.STR_SLOT_STATE_STATE k) = 4
        else sessionState t = 3 ∧ (t.str.session.any fun x => x.port.isNone && x.tag == tag.toNat) = true ∧
          ∀ k, inactiveSlot s = some k → getF t (F.STR_SLOT_STATE_STATE k) = 5) ∧
  (∀ (s : State) (x : StrSession) (k : Nat), Up s → s.str.session = some x → inactiveSlot s = some k → sessionState s = 3 →
    (Completes (.slotProgramComplete true) s fun t =>
      getF t (F.STR_SLOT_STATE_STATE k) = 1 ∧ t.str.slots.find k = some (sessionImage s x) ∧ t.str.session = none ∧
      sessionState t = 0 ∧ getF t F.STR_STATUS_LAST_RESULT = 0 ∧ MemorySame s t) ∧
    Completes (.slotProgramComplete false) s fun t =>
      getF t (F.STR_SLOT_STATE_STATE k) = 4 ∧ t.str.slots = s.str.slots ∧ t.str.session = none ∧ sessionState t = 0 ∧
      getF t F.STR_STATUS_LAST_RESULT = lrFlash ∧ MemorySame s t) ∧
  (∀ (s : State) (k : Fin 2) (sch : StrSchedule) (tag : Nat) (port : Option Nat), Up s → s.str.load = none →
    s.str.schedule = some (k.val, sch, tag, port) → sch.fa ≤ startedFrame s → Completes .updateActivation s fun t =>
      t.str.schedule = none ∧ getPair t R.STR_ACT_FRAME_LO = 0 ∧ getF t (F.STR_SLOT_STATE_STATE k) = 3 ∧
      (s.arch.running = true → t.arch.stopFrame.isSome = true) ∧ MemorySame s t) ∧
  (∀ (s s' : State) (k : Nat) (parsed : Bool), Up s → s.str.restart = some k → s.arch.running = false →
    s' = settingsRestore { s with
      str := { s.str with
        restart := none, trialAt := s.counter.toNat,
        settings := s.str.settings.put k
          ⟨leAt (s.str.slots.get [] k) 40 4, (s.str.settings.get ⟨0, []⟩ (activeSlot s)).regs⟩ },
      mail := { s.mail with restarting := false } } k →
    Completes (.trialFirmwareStart parsed) s fun t =>
      if parsed = false then getF t F.STR_STATUS_FALLBACK = 1 ∧ getF t F.STR_STATUS_FALLBACK_REASON = 1
      else if (fullCheck s' (s.str.slots.get [] k) true).isSome = true then
        getF t F.STR_STATUS_FALLBACK = 1 ∧ getF t F.STR_STATUS_FALLBACK_REASON = 2
      else getF t F.STR_STATUS_TRIAL = 1 ∧ Noticed t 5 (leAt ((recordNow s).getD []) 12 4) stOk) ∧
  (∀ (s : State) (src : CmdSource) (tag : Word) (id : DWord), Up s → Served s src 6 tag.toNat (leBytes 8 id.toNat) →
    Completes (.confirmUpdate src tag id) s fun t =>
      MemorySame s t ∧
      (∀ k, trialSlot s = some k → flag s F.STR_STATUS_TRIAL = true → id.toNat = imageId (s.str.slots.get [] k) →
        Answered t src 6 tag.toNat stOk ∧ getF t (F.STR_SLOT_STATE_STATE k) = 2 ∧ getF t F.STR_STATUS_TRIAL = 0) ∧
      ((∀ k, trialSlot s = some k → flag s F.STR_STATUS_TRIAL = true → id.toNat ≠ imageId (s.str.slots.get [] k)) →
        Answered t src 6 tag.toNat stRejected ∧ t.str = s.str ∧ MailOnlyBut [] s t)) ∧
  (∀ (s : State) (k : Nat), Up s → trialSlot s = some k → flag s F.STR_STATUS_TRIAL = true →
    s.str.trialAt + leAt ((recordNow s).getD []) 22 2 * 800000000 ≤ s.counter.toNat → Completes .confirmTimeout s fun t =>
      getF t F.STR_STATUS_FALLBACK = 1 ∧ getF t F.STR_STATUS_FALLBACK_REASON = 4 ∧ getB t R.HLT_FAULT 23 = true)

/-- Relay frames of an update session. On a block that is up, for relay frames that pass: a HEADER of a whole image with no
session held begins one that is RECEIVING from that port and one that fails the checks does nothing (log entry 49), a
HEADER of another session without FORCE, or that fails the checks, is refused, with a count unless a slot is being
programmed, and a good one with FORCE over a session that another chip sent takes its place; DATA in order is counted into
the staged bytes and stored where the memory takes it, and nowhere else, and DATA out of order is pulled for with a count;
END of the whole image, which reads well, starts programming where the image passes and shows the code where it fails;
BUSY at the origin with an earlier key ends the session with a BUSY notice; ABORT from either side ends the session held,
at its origin with a FAILED notice (log entry 49); PULL changes no state and ends with the END frame where END was sent; a
relay session that times out is dropped. A frame that fails the CRC changes nothing but its counter. (R405, R406, R407,
R408, R409, R410, R411) -/
def Obligations.RelaySessionCompletes : Prop :=
  (∀ (s : State) (port : Fin 2) (f : RelayFrame), Up s → RelayGood f →
    Completes (.relayHeaderReceived port f) s fun t =>
      MemorySame s t ∧
      (s.str.session = none → tableOk s (f.payload.drop 16) = false → RegsSameBut [] s t ∧ t.str = s.str) ∧
      (s.str.session = none → tableOk s (f.payload.drop 16) = true → sessionState t = 1 ∧ getR t R.STR_SESSION_BYTES = 0 ∧ t.str.schedule = none ∧
        ∃ x, t.str.session = some x ∧ x.port = some port.val ∧ (x.serial, x.time) = RelayFrame.key f) ∧
      ∀ y, s.str.session = some y → RelayFrame.key f ≠ (y.serial, y.time) →
        (y.port = none ∨ sessionState s = 3 ∨ bitOf (leAt f.header 1 1) 0 = false ∨ tableOk s (f.payload.drop 16) = false →
          t.str.session = some y ∧ RegsSameBut [R.STR_RELAY_BUSY_COUNT] s t ∧
          (rd t R.STR_RELAY_BUSY_COUNT).toNat = (if sessionState s = 3 then (rd s R.STR_RELAY_BUSY_COUNT).toNat
            else min ((rd s R.STR_RELAY_BUSY_COUNT).toNat + 1) 0xFFFFFFFF)) ∧
        (y.port.isSome = true → sessionState s ≠ 3 → bitOf (leAt f.header 1 1) 0 = true →
          tableOk s (f.payload.drop 16) = true →
          (rd t R.STR_RELAY_ABORT_COUNT).toNat = min ((rd s R.STR_RELAY_ABORT_COUNT).toNat + 1) 0xFFFFFFFF ∧
          ∃ x, t.str.session = some x ∧ x.port = some port.val ∧ (x.serial, x.time) = RelayFrame.key f)) ∧
  (∀ (s : State) (port : Fin 2) (f : RelayFrame) (x : StrSession) (off n : Nat), Up s → RelayGood f →
    sessionOf s port f = some x → off = getR s R.STR_SESSION_BYTES → n = f.payload.length →
    Completes (.relayDataReceived port f) s fun t =>
      t.arrays = s.arrays ∧
      (RelayFrame.offset f = off → 1 ≤ n → n ≤ 1024 → off + n ≤ imageLen x.head →
        getR t R.STR_SESSION_BYTES = (off + n) % 2 ^ 32 ∧
        (dramUsable s = true → guardOk s 10 (stagingBase s + off) n true = true → s.badWords = [] →
          RegsSameBut (R.STR_SESSION_BYTES :: (List.range 16).map R.MEM_STATE) s t ∧
          (∀ a, a < stagingBase s + off ∨ stagingBase s + off + n ≤ a → readByte t.dram a = readByte s.dram a) ∧
          dramRead t (stagingBase s + off) n = f.payload) ∧
        (dramUsable s = false → RegsSameBut [R.STR_SESSION_BYTES] s t ∧ MemorySame s t)) ∧
      (RelayFrame.offset f ≠ off → getF s F.STR_SESSION_PULLS < 8 →
        getF t F.STR_SESSION_PULLS = getF s F.STR_SESSION_PULLS + 1 ∧ MemorySame s t ∧
        (rd t R.STR_RELAY_PULL_COUNT).toNat = min ((rd s R.STR_RELAY_PULL_COUNT).toNat + 1) 0xFFFFFFFF ∧
        RegsSameBut [R.STR_SESSION, R.STR_RELAY_PULL_COUNT] s t)) ∧
  (∀ (s s' : State) (port : Fin 2) (f : RelayFrame) (x : StrSession) (k : Nat) (img : List Byte),
    Up s → RelayGood f → sessionOf s port f = some x → getR s R.STR_SESSION_BYTES = imageLen x.head → RelayFrame.offset f = imageLen x.head →
    s.str.firmware = true → inactiveSlot s = some k → unitRead s 10 (stagingBase s) (imageLen x.head) = some img →
    s' = setStr (setF (relayForward s port f) F.STR_SESSION_STATE 2)
      (fun z => { z with session := some { x with ended := true } }) →
    Completes (.relayEndReceived port f) s fun t =>
      MemorySame s t ∧
      (∀ code sec, fullCheck (served s' 10 (stagingBase s) (imageLen x.head)) img true = some (code, sec) →
        t.str.session = none ∧ getF t (F.STR_SLOT_STATE_STATE k) = 4 ∧ getF t F.STR_STATUS_LAST_RESULT = code % 256) ∧
      (fullCheck (served s' 10 (stagingBase s) (imageLen x.head)) img true = none → x.same = false →
        sessionState t = 3 ∧ getF t (F.STR_SLOT_STATE_STATE k) = 5)) ∧
  (∀ (s : State) (port : Fin 2) (f : RelayFrame) (x : StrSession), Up s → RelayGood f → s.str.session = some x →
    x.port = none → RelayFrame.key f = (x.serial, x.time) → x.serial = deviceSerial →
    keyEarlier (leAt f.payload 0 8, leAt f.payload 8 8) (x.serial, x.time) = true →
    Completes (.relayBusyReceived port f) s fun t =>
      t.str.session = none ∧ sessionState t = 0 ∧ Noticed t 5 x.tag stBusy ∧ MemorySame s t) ∧
  (∀ (s : State) (port : Fin 2) (f : RelayFrame) (x : StrSession), Up s → RelayGood f → s.str.session = some x →
    RelayFrame.key f = (x.serial, x.time) → Completes (.relayAbortReceived port f) s fun t =>
      t.str.session = none ∧ sessionState t = 0 ∧ t.str.refused = [] ∧ MemorySame s t ∧
      (x.port = none → Noticed t 5 x.tag stFailed)) ∧
  (∀ (s : State) (port : Fin 2) (f : RelayFrame) (x : StrSession), Up s → RelayGood f → s.str.session = some x →
    RelayFrame.key f = (x.serial, x.time) → Completes (.relayPullReceived port f) s fun t =>
      RegsSameBut [] s t ∧ MemorySame s t ∧ t.str = s.str ∧
      (x.ended = true → port.val ∈ s.ptp.up → ∃ p, .relayFrame port 3 p ∈ t.out)) ∧
  (∀ (s : State) (x : StrSession), Up s → s.str.session = some x → x.port.isSome = true → sessionState s = 1 →
    Completes .sessionTimeout s fun t =>
      t.str.session = none ∧ sessionState t = 0 ∧ RegsSameBut [R.STR_SESSION, R.STR_SESSION_BYTES] s t ∧
      MemorySame s t) ∧
  (∀ (s : State) (port : Fin 2) (f : RelayFrame), Up s → ¬ RelayGood f →
    ∀ c ∈ [Instr.relayHeaderReceived port f, .relayDataReceived port f, .relayEndReceived port f,
        .relayBusyReceived port f, .relayAbortReceived port f, .relayPullReceived port f, .relayResultReceived port f,
        .relayFallbackReceived port f, .relayMgmtReqReceived port f, .relayMgmtRspReceived port f],
      Completes c s fun t =>
        (rd t R.STR_RELAY_CRC_ERR_COUNT).toNat = min ((rd s R.STR_RELAY_CRC_ERR_COUNT).toNat + 1) 0xFFFFFFFF ∧
        RegsSameBut [R.STR_RELAY_CRC_ERR_COUNT] s t ∧ MemorySame s t ∧ t.str = s.str ∧ t.out = s.out)

/-- RESULT, FALLBACK and management frames on the relay path. On a block that is up, for relay frames that pass: FALLBACK, and
RESULT, MGMT_REQ and MGMT_RSP of another chip, go on out of the other port, while it is up and HOPS_LEFT is not 0, with
HOPS_LEFT one less and nothing else changed; RESULT for this chip counts as OK or failed; MGMT_REQ for this chip stands
last in the supervisor's queue (log entry 49). (R405, R406, R411, R412) -/
def Obligations.RelayReportsComplete : Prop :=
  (∀ (s : State) (port : Fin 2) (f : RelayFrame), Up s → RelayGood f → leAt f.header 2 1 ≠ 0 → (1 - port.val) ∈ s.ptp.up →
    (Completes (.relayFallbackReceived port f) s fun t =>
      t.out = s.out ++ [.relayFrame (1 - port.val) (leAt f.header 0 1)
        (f.header.take 2 ++ leBytes 1 (leAt f.header 2 1 - 1) ++ f.header.drop 3 ++ f.payload)] ∧
      t.str = s.str ∧ RegsSameBut [] s t ∧ MemorySame s t) ∧
    ((RelayFrame.key f).1 ≠ deviceSerial →
      (Completes (.relayResultReceived port f) s fun t =>
        t.out = s.out ++ [.relayFrame (1 - port.val) (leAt f.header 0 1)
          (f.header.take 2 ++ leBytes 1 (leAt f.header 2 1 - 1) ++ f.header.drop 3 ++ f.payload)] ∧
        t.str = s.str ∧ RegsSameBut [] s t ∧ MemorySame s t) ∧
      Completes (.relayMgmtRspReceived port f) s fun t =>
        t.out = s.out ++ [.relayFrame (1 - port.val) (leAt f.header 0 1)
          (f.header.take 2 ++ leBytes 1 (leAt f.header 2 1 - 1) ++ f.header.drop 3 ++ f.payload)] ∧
        t.str = s.str ∧ RegsSameBut [] s t ∧ MemorySame s t) ∧
    (leAt f.payload 0 8 ≠ deviceSerial → Completes (.relayMgmtReqReceived port f) s fun t =>
      t.out = s.out ++ [.relayFrame (1 - port.val) (leAt f.header 0 1)
        (f.header.take 2 ++ leBytes 1 (leAt f.header 2 1 - 1) ++ f.header.drop 3 ++ f.payload)] ∧
      t.mail = s.mail ∧ RegsSameBut [] s t ∧ MemorySame s t)) ∧
  (∀ (s : State) (port : Fin 2) (f : RelayFrame) (c : Nat), Up s → RelayGood f → (RelayFrame.key f).1 = deviceSerial →
    c = (if leAt f.payload 8 1 = 0 then R.STR_RESULT_OK_COUNT else R.STR_RESULT_FAIL_COUNT) →
    Completes (.relayResultReceived port f) s fun t =>
      (rd t c).toNat = min ((rd s c).toNat + 1) 0xFFFFFFFF ∧ RegsSameBut [c] s t ∧ MemorySame s t ∧ t.out = s.out) ∧
  (∀ (s : State) (port : Fin 2) (f : RelayFrame), Up s → RelayGood f → leAt f.payload 0 8 = deviceSerial →
    24 ≤ f.payload.length → Completes (.relayMgmtReqReceived port f) s fun t =>
      RegsSameBut [] s t ∧ MemorySame s t ∧ t.out = s.out ∧
      ∃ r, t.mail.relay = s.mail.relay ++ [r] ∧ r.cmd = leAt (f.payload.drop 8) 0 2 ∧
        r.tag = leAt (f.payload.drop 8) 4 4 ∧
        r.args = ((f.payload.drop 8).drop 16).take (leAt (f.payload.drop 8) 2 2))

/-- References, selection, switching, holdover. On a block that is up: PRIORITY_EVALUATION notes the output frequency while
LOCKED, as measured, and in STEER, as CLK_STEER_FFO sets it, where the mean of CLK_HOLD_AVG seconds but the last one goes
to HOLD_FFO where it is a whole number and HOLD_FFO stays where there is none of them yet, slews the phase remainder by
its limit outside HOLDOVER, and takes the table as written unless a switch is under way; REF_QUALIFIED does nothing before
CLK_QUAL_TIME, then qualifies a source in window (a PPS input by its last interval), or STEER where its condition holds,
and from FREERUN the only entry of the table, naming that source, is selected with DPLL_STATE ACQUIRE; REF_LOST of the
only source of the table with an entry selected enters HOLDOVER with a count and event 15; BUILD_OUT_COMPLETE counts the
switch and leaves the target, still the only entry and qualified, selected and LOCKED; ACQUIRE_LOCKED goes from ACQUIRE to
LOCKED; HOLDOVER_OOS, the milestone a second short of its limit or past it, sets OOS with the milestone there and raises
event 16. Time towards CLK_QUAL_TIME, what enters the mean, and when the table takes effect follow the model's reading
(log entry 28). DRAM and arrays stay as they were. (R324, R326, R327, R329, R330, R332, R333, R337) -/
def Obligations.ReferenceCommandsComplete : Prop :=
  (∀ (s : State) (meas : List RefMeas) (output : Word) (seconds : Nat) (v m x : Int) (l : List Int), Up s →
    x = (if dpllState s = 5 then toSigned 32 (getR s R.CLK_STEER_FFO) else output.toInt) →
    v = toSigned 32 (getR s R.CLK_PHASE_REMAIN) → m = 10 * (max 1 (getR s R.CLK_SLEW) : Nat) →
    l = ((x :: s.clk.history).drop 100).take (100 * max 1 (getR s R.CLK_HOLD_AVG)) →
    Completes (.priorityEvaluation meas output seconds) s fun t =>
      (dpllState s = 2 ∨ dpllState s = 5 → t.clk.history = x :: s.clk.history ∧
        (l = [] → rd t R.CLK_HOLD_FFO = rd s R.CLK_HOLD_FFO) ∧
        (l ≠ [] → l.sum % (l.length : Int) = 0 → getR t R.CLK_HOLD_FFO = ofSigned 32 (l.sum / (l.length : Int)))) ∧
      (dpllState s ≠ 2 → dpllState s ≠ 5 → t.clk.history = s.clk.history ∧ rd t R.CLK_HOLD_FFO = rd s R.CLK_HOLD_FFO) ∧
      getR t R.CLK_PHASE_REMAIN = (if dpllState s = 4 then getR s R.CLK_PHASE_REMAIN
        else ofSigned 32 (if 0 ≤ v then max 0 (v - m) else min 0 (v + m))) ∧
      (dpllState s ≠ 3 → t.clk.table = (List.range 8).map fun e => rd s (R.CLK_PRIO e)) ∧ MemorySame s t) ∧
  (∀ (s : State) (source : Fin 8) (lane : Fin 16) (ffo : Word) (p : Nat × Nat), Up s →
    p = sourceOf source lane →
    (s.clk.inMs.get 0 (sourceKey p) + 10 < getR s R.CLK_QUAL_TIME →
      Completes (.refQualified source lane ffo) s fun t => t = s) ∧
    (getR s R.CLK_QUAL_TIME ≤ s.clk.inMs.get 0 (sourceKey p) + 10 →
      (p.1 = 6 ∧ slaveGood s = true) ∨ (p.1 ≠ 6 ∧ p.1 ≠ 0 ∧ sourceInWindow s p ffo.toInt = true) →
      Completes (.refQualified source lane ffo) s fun t =>
      p ∈ t.clk.qualified ∧ MemorySame s t ∧
      ∀ e : Fin 8, dpllState s = 0 → flag s F.CLK_STATUS_SEL_VALID = false → p.1 ≠ 6 →
        prioSource (rd s (R.CLK_PRIO e)) = p → prioRank (rd s (R.CLK_PRIO e)) ≠ 0 →
        (∀ x : Fin 8, x ≠ e → prioRank (rd s (R.CLK_PRIO x)) = 0) →
        dpllState t = 1 ∧ selected t = some e.val)) ∧
  (∀ (s : State) (source : Fin 8) (lane : Fin 16) (lost : Bool) (p : Nat × Nat), Up s →
    p = sourceOf source lane → Completes (.refLost source lane lost) s fun t =>
      p ∉ t.clk.qualified ∧ MemorySame s t ∧
      (dpllState s ≠ 3 → (selected s).isSome = true → p.1 ≠ 6 →
        (∀ x : Fin 8, prioRank (rd s (R.CLK_PRIO x)) = 0 ∨ prioSource (rd s (R.CLK_PRIO x)) = p) →
        dpllState t = 4 ∧ selected t = none ∧ 15 ∈ t.pulses ∧ getR t R.CLK_MILESTONE = 0 ∧
        (rd t R.CLK_HOLDOVER_COUNT).toNat = min ((rd s R.CLK_HOLDOVER_COUNT).toNat + 1) 0xFFFFFFFF)) ∧
  (∀ (s : State) (e : Fin 8), Up s → s.clk.target = some e.val → dpllState s = 3 →
    Completes .buildOutComplete s fun t =>
      (rd t R.CLK_SWITCH_COUNT).toNat = min ((rd s R.CLK_SWITCH_COUNT).toNat + 1) 0xFFFFFFFF ∧ MemorySame s t ∧
      (prioEntry s e = rd s (R.CLK_PRIO e) → prioRank (rd s (R.CLK_PRIO e)) ≠ 0 →
        (prioSource (rd s (R.CLK_PRIO e))).1 ≠ 6 → prioSource (rd s (R.CLK_PRIO e)) ∈ s.clk.qualified →
        (∀ x : Fin 8, x ≠ e → prioRank (rd s (R.CLK_PRIO x)) = 0) →
        dpllState t = 2 ∧ selected t = some e.val ∧ t.clk.target = none)) ∧
  (∀ s : State, Up s → dpllState s = 1 → Completes .acquireLocked s fun t =>
    dpllState t = 2 ∧ MemorySame s t ∧
    RegsSameBut [R.CLK_STATUS, R.HLT_FAULT, R.HLT_FIRST, R.HLT_FIRST_TIME_LO, R.HLT_FIRST_TIME_HI] s t) ∧
  (∀ s : State, Up s → dpllState s = 4 → flag s F.CLK_STATUS_OOS = false →
    getR s R.CLK_MILESTONE_LIMIT ≤ getR s R.CLK_MILESTONE + 1 → Completes .holdoverOos s fun t =>
    getF t F.CLK_STATUS_OOS = 1 ∧ getR t R.CLK_MILESTONE = max (getR s R.CLK_MILESTONE) (getR s R.CLK_MILESTONE_LIMIT) ∧ 16 ∈ t.pulses ∧
    dpllState t = 4 ∧ MemorySame s t)

/-- PPS edges, steering, setting the time, and the time outputs. On a block that is up: PPS_EDGE of the other polarity, or
held less than the filter asks, changes nothing, one too soon after the last counts one, and any other is stamped and,
where the time setting is armed and its input is the selected source, sets the counter to the armed time and what has
passed since the edge, while an interval since the edge before it that is out of window disqualifies the source at once
and one in window marks it good (measured as log entry 28 says); STEER_FFO_WRITE by a master that does not own the
register changes nothing, and by its owner is clamped and stored while STEER stays selected or a switch is under way;
PHASE_ADJ_WRITE adds to the phase remainder where it is allowed and changes nothing where not; SET_TIME_ARM is ignored
while PTP is enabled, arms the setting, or with SET_NOW sets the counter at once; PPS_OUT_SECOND raises the pin and event
25; TIME_OUTPUT_PULSE_END lowers the pin once the pulse has lasted its width and leaves it before. DRAM and arrays stay as
they were. A command of the debug master needs TEST_MODE high. (R325, R335, R336, R337, R338, R347, R348, R455) -/
def Obligations.TimeCommandsComplete : Prop :=
  (∀ (s : State) (x : Fin 2) (falling : Bool) (time held : Nat), Up s → time < 2 ^ 64 →
    Completes (.ppsEdge x falling ⟨time, held⟩) s fun t =>
      MemorySame s t ∧
      (flag s (F.CLK_PPS_CFG_FALLING x) ≠ falling ∨ held < max 2 (getF s (F.CLK_PPS_CFG_FILTER x)) → t = s) ∧
      (flag s (F.CLK_PPS_CFG_FALLING x) = falling → max 2 (getF s (F.CLK_PPS_CFG_FILTER x)) ≤ held →
        (∀ p, s.clk.ppsEdge.find x = some p → (time : Int) < p + getF s (F.CLK_PPS_CFG_MIN_PERIOD x) * 16000000 →
          RegsSameBut [R.CLK_PPS_FAST_COUNT x] s t ∧ t.clk = s.clk ∧
          (rd t (R.CLK_PPS_FAST_COUNT x)).toNat = min ((rd s (R.CLK_PPS_FAST_COUNT x)).toNat + 1) 0xFFFFFFFF) ∧
        ((∀ p, s.clk.ppsEdge.find x = some p → p + getF s (F.CLK_PPS_CFG_MIN_PERIOD x) * 16000000 ≤ time) →
          getPair t (R.CLK_PPS_STAMP_LO x) = (time - 16 * getF s (F.CLK_PPS_CFG_DELAY x)) / 16 ∧
          (selectedSource s ≠ 3 + x.val ∨ s.clk.setArmed = false → t.clk.ppsEdge.find x = some time) ∧
          (s.clk.ppsEdge.find x = none → t.clk.ppsGood = s.clk.ppsGood) ∧
          (∀ p, s.clk.ppsEdge.find x = some p →
            (ppsSteady s ((outputFfo s).getD 0) (time - p) = false → x.val ∉ t.clk.ppsGood ∧ (3 + x.val, 0) ∉ t.clk.qualified) ∧
            (ppsSteady s ((outputFfo s).getD 0) (time - p) = true → x.val ∈ t.clk.ppsGood)) ∧
          (selectedSource s = 3 + x.val → s.clk.setArmed = true →
            t.clk.setArmed = false ∧ getF t F.CLK_STATUS_TIME_VALID = 1 ∧ 26 ∈ t.pulses ∧
            t.counter.toNat = (getPair s R.CLK_SET_TIME_LO +
              ((advanceTo s (time / 20)).counter.toNat - time / 20)) % 2 ^ 64 ∧
            (rd t R.CLK_STEP_COUNT).toNat = min ((rd s R.CLK_STEP_COUNT).toNat + 1) 0xFFFFFFFF)))) ∧
  (∀ (s : State) (m : Master) (ffo : Word), Sends s m → Completes (.steerFfoWrite m ffo) s fun t =>
    MemorySame s t ∧
    (m = .supervisor ∨ (m = .timekeeper ∧ flag s F.CLK_CTRL_STEER_OWNER = true) ∨
        (m ≠ .timekeeper ∧ flag s F.CLK_CTRL_STEER_OWNER = false) → RegsSameBut [] s t ∧ t.clk = s.clk) ∧
    ((m = .timekeeper ∧ flag s F.CLK_CTRL_STEER_OWNER = false) ∨
        (m ≠ .supervisor ∧ m ≠ .timekeeper ∧ flag s F.CLK_CTRL_STEER_OWNER = true) →
      t.clk.steerAt = some (s.counter.toNat : Int) ∧
      (dpllState s = 3 ∨ (∃ e : Fin 8, m ≠ .timekeeper ∧ selected s = some e.val ∧ dpllState s = 5 ∧
          prioEntry s e = rd s (R.CLK_PRIO e) ∧ prioRank (rd s (R.CLK_PRIO e)) ≠ 0 ∧
          (prioSource (rd s (R.CLK_PRIO e))).1 = 6 ∧ ∀ x : Fin 8, x ≠ e → prioRank (rd s (R.CLK_PRIO x)) = 0) →
        getR t R.CLK_STEER_FFO = ofSigned 32 (clampSteer ffo.toInt)))) ∧
  (∀ (s : State) (m : Master) (amount : Word), Sends s m → Completes (.phaseAdjWrite m amount) s fun t =>
    MemorySame s t ∧ RegsSameBut [R.CLK_PHASE_REMAIN] s t ∧ t.counter = s.counter ∧
    (m = .timekeeper ∨ (flag s F.CLK_CTRL_STEER_OWNER = true ∧ (dpllState s = 2 ∨ dpllState s = 5)) →
      -(2 ^ 31) ≤ toSigned 32 (getR s R.CLK_PHASE_REMAIN) + amount.toInt →
      toSigned 32 (getR s R.CLK_PHASE_REMAIN) + amount.toInt < 2 ^ 31 →
      getR t R.CLK_PHASE_REMAIN = ofSigned 32 (toSigned 32 (getR s R.CLK_PHASE_REMAIN) + amount.toInt)) ∧
    (m ≠ .timekeeper → flag s F.CLK_CTRL_STEER_OWNER = false ∨ (dpllState s ≠ 2 ∧ dpllState s ≠ 5) →
      RegsSameBut [] s t)) ∧
  (∀ (s : State) (high : Word), Up s → Completes (.setTimeArm high) s fun t =>
    MemorySame s t ∧
    (flag s F.PTP_CTRL_EN = true → RegsSameBut [] s t ∧ t.clk = s.clk ∧ t.counter = s.counter) ∧
    (flag s F.PTP_CTRL_EN = false → flag s F.CLK_CTRL_SET_NOW = false →
      t.clk.setArmed = true ∧ t.counter = s.counter ∧
      getPair t R.CLK_SET_TIME_LO = getR s R.CLK_SET_TIME_LO + high.toNat * 2 ^ 32) ∧
    (flag s F.PTP_CTRL_EN = false → flag s F.CLK_CTRL_SET_NOW = true →
      t.counter.toNat = getR s R.CLK_SET_TIME_LO + high.toNat * 2 ^ 32 ∧ getF t F.CLK_STATUS_TIME_VALID = 1 ∧
      t.clk.setArmed = false ∧ 26 ∈ t.pulses)) ∧
  (∀ (s : State) (time off : Nat), Up s → off = 4 * getF s ⟨R.CLK_PPS_OUT_CFG, 31, 16⟩ →
    flag s F.CLK_CTRL_PPS_OUT_EN = true → outputsLive s = true → (advanceTo s time).counter.toNat = time →
    off ≤ 5 * time → (5 * time - off) % 4000000000 < 5 → Completes (.ppsOutSecond time) s fun t =>
      t.clk.ppsOut = true ∧ .pin "PPS_OUT" true ∈ t.out ∧ 25 ∈ t.pulses ∧ RegsSameBut [] s t ∧ MemorySame s t) ∧
  (∀ (s : State) (time : Nat), Up s →
    (s.clk.ppsOut = true → Completes (.timeOutputPulseEnd ⟨0, time⟩) s fun t =>
      RegsSameBut [] s t ∧ MemorySame s t ∧ t.counter = (advanceTo s time).counter ∧
      if s.clk.ppsRise + pulseWidth s 0 ≤ (t.counter.toNat : Int) then
        t.clk.ppsOut = false ∧ t.out = s.out ++ [.pin "PPS_OUT" false]
      else t.clk.ppsOut = true ∧ t.out = s.out) ∧
    (s.clk.frameOut = true → Completes (.timeOutputPulseEnd ⟨1, time⟩) s fun t =>
      RegsSameBut [] s t ∧ MemorySame s t ∧ t.counter = (advanceTo s time).counter ∧
      if s.clk.frameRise + pulseWidth s 1 ≤ (t.counter.toNat : Int) then
        t.clk.frameOut = false ∧ t.out = s.out ++ [.pin "FRAME_OUT" false]
      else t.clk.frameOut = true ∧ t.out = s.out))

/-- PTP ports: links, latencies, enabling, masters, and clearing a time fault. On a block that is up: PTP_LINK_UP and, on a
link that is up, PTP_MEASURE_WRITE with 64 differences each way measure the latencies of the port, and with fewer leave it
unmeasured; RELAY_PATH_PORT_DOWN takes the link and its latencies away; PTP_ENABLE_WRITE sets EN and the port enables,
with ports that are not enabled DISABLED and newly enabled ones that hear no master LISTENING; PTP_ANNOUNCE_RECEIVED of
another domain or version is counted as discarded, and of the only master heard makes the port follow it; PTP_MASTER_LOSS
forgets the master followed, or every master of a port that follows none, and leaves a port that hears none LISTENING;
FAULT_CLEAR clears TIME_FAULT without a step and adds the offset to the phase remainder (log entry 28). That a master is
kept by its port identity, which ones a loss forgets, and that a repeated measurement leaves the port unmeasured are the
model's choice (log entry 29). DRAM and arrays stay as they were. (R339, R340, R341, R342, R343, R345) -/
def Obligations.PtpPortCommandsComplete : Prop :=
  (∀ (s : State) (n : Fin 2) (rx tx : List Int), Up s → rx.length = 64 → tx.length = 64 →
    (Completes (.ptpLinkUp n rx tx) s fun t =>
      n.val ∈ t.ptp.up ∧ n.val ∈ t.ptp.measured ∧ getR t (R.PTP_PORT_RX_LAT n) = meanLatency (rx.map (2 * ·)) % 2 ^ 32 ∧
      getR t (R.PTP_PORT_TX_LAT n) = meanLatency (tx.map (2 * ·)) % 2 ^ 32 ∧
      RegsSameBut [R.PTP_PORT_RX_LAT n, R.PTP_PORT_TX_LAT n] s t ∧ MemorySame s t) ∧
    (n.val ∈ s.ptp.up → Completes (.ptpMeasureWrite n rx tx) s fun t =>
      t.ptp.up = s.ptp.up ∧ n.val ∈ t.ptp.measured ∧ getR t (R.PTP_PORT_RX_LAT n) = meanLatency (rx.map (2 * ·)) % 2 ^ 32 ∧
      getR t (R.PTP_PORT_TX_LAT n) = meanLatency (tx.map (2 * ·)) % 2 ^ 32 ∧
      RegsSameBut [R.PTP_PORT_RX_LAT n, R.PTP_PORT_TX_LAT n] s t ∧ MemorySame s t)) ∧
  (∀ (s : State) (n : Fin 2) (rx tx : List Int), Up s → rx.length < 64 ∨ tx.length < 64 →
    (Completes (.ptpLinkUp n rx tx) s fun t =>
      n.val ∈ t.ptp.up ∧ n.val ∉ t.ptp.measured ∧ RegsSameBut [] s t ∧ MemorySame s t) ∧
    (n.val ∈ s.ptp.up → Completes (.ptpMeasureWrite n rx tx) s fun t =>
      n.val ∉ t.ptp.measured ∧ RegsSameBut [] s t ∧ MemorySame s t)) ∧
  (∀ (s : State) (n : Fin 2), Up s → Completes (.relayPathPortDown n) s fun t =>
    n.val ∉ t.ptp.up ∧ n.val ∉ t.ptp.measured ∧ RegsSameBut [] s t ∧ MemorySame s t) ∧
  (∀ (s : State) (enable : Bool) (ports : BitVec 2), Up s → Completes (.ptpEnableWrite enable ports) s fun t =>
    getF t F.PTP_CTRL_EN = ofBool enable ∧ getF t F.PTP_CTRL_PORT_EN = ports.toNat ∧ MemorySame s t ∧
    (∀ n : Fin 2, (enable && ports.getLsbD n) = false → portState t n = 0) ∧
    (∀ n : Fin 2, (enable && ports.getLsbD n) = true → flag s F.PTP_CTRL_EN = false → s.ptp.masters = [] →
      portState t n = 1)) ∧
  (∀ (s : State) (n : Fin 2) (msg : PtpMsg) (data : PtpDataset), Up s → n.val ∈ s.ptp.up →
    msg.kind = .own → flag s F.PTP_CTRL_EN = true → portState s n ≠ 0 → Completes (.ptpAnnounceReceived n msg data) s fun t =>
      MemorySame s t ∧
      (msg.version.val ≠ 2 ∨ msg.domain.toNat ≠ getF s F.PTP_CTRL_DOMAIN →
        (rd t (R.PTP_PORT_RX_DISCARD n)).toNat = min ((rd s (R.PTP_PORT_RX_DISCARD n)).toNat + 1) 0xFFFFFFFF ∧
        t.ptp = s.ptp) ∧
      (msg.version.val = 2 → msg.domain.toNat = getF s F.PTP_CTRL_DOMAIN →
        ⟨data, msg.clockId, msg.portNumber⟩ ∈ t.ptp.masters.get [] n ∧
        (bitOf (getF s F.PTP_CTRL_PORT_EN) n = true → s.ptp.masters.get [] n = [] → s.ptp.masters.get [] (1 - n.val) = [] →
          portFollows s n = false → portState t n = 2 ∧ getF t F.PTP_STATUS_SLAVE_PORT = n ∧ getPair t R.PTP_MASTER_ID_LO = msg.clockId.toNat))) ∧
  (∀ (s : State) (n : Fin 2), Up s → portState s n ≠ 0 → Completes (.ptpMasterLoss n) s fun t =>
    MemorySame s t ∧ (t.ptp.masters.get [] n = [] → portState t n = 1) ∧
    (portFollows s n = false → t.ptp.masters.get [] n = []) ∧
    ∀ x ∈ t.ptp.masters.get [] n, getPair s R.PTP_MASTER_ID_LO ≠ x.clockId.toNat ∨
      getR s R.PTP_MASTER_PORT % 2 ^ 16 ≠ x.portNumber.toNat) ∧
  (∀ (s : State) (off : Int), Up s → flag s F.CLK_STATUS_TIME_FAULT = true → s.ptp.offset = some off →
    Completes .faultClear s fun t =>
      getF t F.CLK_STATUS_TIME_FAULT = 0 ∧ t.ptp.far = 0 ∧ t.counter = s.counter ∧ MemorySame s t ∧
      (-(2 ^ 31) ≤ toSigned 32 (getR s R.CLK_PHASE_REMAIN) - unitsToPs off →
        toSigned 32 (getR s R.CLK_PHASE_REMAIN) - unitsToPs off < 2 ^ 31 →
        getR t R.CLK_PHASE_REMAIN = ofSigned 32 (toSigned 32 (getR s R.CLK_PHASE_REMAIN) - unitsToPs off)))

/-- PTP event messages and the servo. On a block that is up: a Sync of the master followed on a measured link counts,
completes when one-step, and waits for its Follow_Up when two-step; a management or peer-delay message counts as
discarded, and a Signaling one or one of a reserved type only where it is of another domain or version; an event message
on a link without latencies is discarded with a count and counts for the measurement; the matching Follow_Up completes the
Sync with a count; PTP_DELAY_REQ_SEND sends the request and keeps its stamp; the matching Delay_Resp counts, ends the
request and, as the first, gives path delay and offset, with time acquired after 16 of each where the servo may correct; a
Delay_Req of the other port's clock goes through the transparent clock with a count, and is discarded with one where that
port's link has no latencies, while one of another domain or version also counts as discarded where it came in. The
reading of the acquisition is log entry 28. DRAM and arrays stay as they were. (R339, R340, R341, R343, R344) -/
def Obligations.PtpMessagesComplete : Prop :=
  (∀ (s : State) (n : Fin 2) (msg : PtpMsg) (origin : Option Nat) (ingress egress : PtpStamp), Up s → n.val ∈ s.ptp.up →
    Completes (.ptpSyncReceived n msg origin ingress egress) s fun t =>
      MemorySame s t ∧
      (msg.kind ≠ .own → t.ptp = s.ptp) ∧
      (msg.kind = .management ∨ msg.kind = .peerDelay → ptpListens s n = true →
        (rd t (R.PTP_PORT_RX_DISCARD n)).toNat = min ((rd s (R.PTP_PORT_RX_DISCARD n)).toNat + 1) 0xFFFFFFFF) ∧
      (msg.kind = .signaling ∨ (∃ i, msg.kind = .reserved i) → ptpListens s n = true →
        (rd t (R.PTP_PORT_RX_DISCARD n)).toNat =
          if msg.version.val ≠ 2 ∨ msg.domain.toNat ≠ getF s F.PTP_CTRL_DOMAIN then
            min ((rd s (R.PTP_PORT_RX_DISCARD n)).toNat + 1) 0xFFFFFFFF
          else (rd s (R.PTP_PORT_RX_DISCARD n)).toNat) ∧
      (msg.kind = .own → n.val ∉ s.ptp.measured →
        RegsSameBut [R.PTP_PORT_RX_DISCARD n, R.PTP_PORT_RX_LAT n, R.PTP_PORT_TX_LAT n] s t ∧
        (rd t (R.PTP_PORT_RX_DISCARD n)).toNat = min ((rd s (R.PTP_PORT_RX_DISCARD n)).toNat + 1) 0xFFFFFFFF ∧
        ((s.ptp.rxDiffs.get [] n).length < 63 →
          t.ptp.rxDiffs.get [] n = s.ptp.rxDiffs.get [] n ++ [125 * (ingress.mac - ingress.boundary)])) ∧
      (msg.kind = .own → n.val ∈ s.ptp.measured → flag s F.PTP_CTRL_EN = true → portState s n ≠ 0 → msg.version.val = 2 →
        msg.domain.toNat = getF s F.PTP_CTRL_DOMAIN → fromMaster s n msg = true →
        (rd t (R.PTP_PORT_RX_SYNC n)).toNat = min ((rd s (R.PTP_PORT_RX_SYNC n)).toNat + 1) 0xFFFFFFFF ∧
        (origin = none → t.ptp.syncs = s.ptp.syncs ∧
          t.ptp.waiting = some (msg.seq.toNat, (mediumTime s n ingress false).2, msg.correction)) ∧
        (origin.isSome = true → t.ptp.waiting = none ∧ t.ptp.syncs = s.ptp.syncs + 1))) ∧
  (∀ (s : State) (n : Fin 2) (msg : PtpMsg) (origin : Nat) (t2 corr : Int), Up s → n.val ∈ s.ptp.up →
    msg.kind = .own → flag s F.PTP_CTRL_EN = true → portState s n ≠ 0 → msg.version.val = 2 →
    msg.domain.toNat = getF s F.PTP_CTRL_DOMAIN → fromMaster s n msg = true →
    s.ptp.waiting = some (msg.seq.toNat, t2, corr) → Completes (.ptpFollowUpReceived n msg origin) s fun t =>
      MemorySame s t ∧ t.ptp.waiting = none ∧ t.ptp.syncs = s.ptp.syncs + 1 ∧
      (rd t (R.PTP_PORT_RX_FOLLOW_UP n)).toNat = min ((rd s (R.PTP_PORT_RX_FOLLOW_UP n)).toNat + 1) 0xFFFFFFFF) ∧
  (∀ (s : State) (n : Fin 2) (stamp : PtpStamp), Up s → portFollows s n = true → n.val ∈ s.ptp.up →
    n.val ∈ s.ptp.measured → Completes (.ptpDelayReqSend n stamp) s fun t =>
      MemorySame s t ∧ t.ptp.req = some (s.ptp.reqSeq % 2 ^ 16, (mediumTime s n stamp true).2) ∧
      .ptpFrame n 1 0 [] ∈ t.out ∧ RegsSameBut [R.PTP_PORT_TX_DELAY_REQ n, R.PTP_PORT_MB_MISS n] s t ∧
      (rd t (R.PTP_PORT_TX_DELAY_REQ n)).toNat = min ((rd s (R.PTP_PORT_TX_DELAY_REQ n)).toNat + 1) 0xFFFFFFFF) ∧
  (∀ (s : State) (n : Fin 2) (msg : PtpMsg) (received : Nat) (requester : DWord) (t3 : Int) (sync : PtpSync)
      (pd off : Int), Up s → n.val ∈ s.ptp.up → msg.kind = .own → flag s F.PTP_CTRL_EN = true → portState s n ≠ 0 →
    msg.version.val = 2 → msg.domain.toNat = getF s F.PTP_CTRL_DOMAIN → fromMaster s n msg = true →
    requester.toNat = getPair s R.PTP_CLOCK_ID_LO → s.ptp.req = some (msg.seq.toNat, t3) → s.ptp.sync = some sync →
    pd = ((sync.t2 - sync.t1 - sync.corr) + (received * 65536 - t3 - msg.correction)) / 2 →
    off = sync.t2 - sync.t1 - pd - sync.corr - toSigned 32 (getR s (R.PTP_PORT_ASYM n)) * 65536 / 1000 →
    Completes (.ptpDelayRespReceived n msg received requester) s fun t =>
      MemorySame s t ∧ t.ptp.req = none ∧ t.ptp.resps = s.ptp.resps + 1 ∧
      (rd t (R.PTP_PORT_RX_DELAY_RESP n)).toNat = min ((rd s (R.PTP_PORT_RX_DELAY_RESP n)).toNat + 1) 0xFFFFFFFF ∧
      (s.ptp.delays = [] → getR t R.PTP_PATH_DELAY = ofSigned 32 (unitsToPs pd) ∧
        getR t R.PTP_OFFSET = ofSigned 32 (sat32s (unitsToPs off))) ∧
      (flag s F.PTP_STATUS_ACQUIRED = false → 16 ≤ s.ptp.syncs → 15 ≤ s.ptp.resps → servoCorrects s = true →
        getF t F.PTP_STATUS_ACQUIRED = 1 ∧ getF t F.CLK_STATUS_TIME_VALID = 1)) ∧
  (∀ (s : State) (n : Fin 2) (msg : PtpMsg) (ingress egress : PtpStamp), Up s → n.val ∈ s.ptp.up → msg.kind = .own →
    Completes (.ptpDelayReqReceived n msg ingress egress) s fun t =>
      MemorySame s t ∧ t.ptp.masters = s.ptp.masters ∧ t.ptp.waiting = s.ptp.waiting ∧ t.ptp.req = s.ptp.req ∧
      (n.val ∉ s.ptp.measured →
        RegsSameBut [R.PTP_PORT_RX_DISCARD n, R.PTP_PORT_RX_LAT n, R.PTP_PORT_TX_LAT n] s t ∧ t.out = s.out ∧
        (rd t (R.PTP_PORT_RX_DISCARD n)).toNat = min ((rd s (R.PTP_PORT_RX_DISCARD n)).toNat + 1) 0xFFFFFFFF) ∧
      (n.val ∈ s.ptp.measured → flag s F.PTP_CTRL_EN = true → portState s n ≠ 0 →
        msg.version.val ≠ 2 ∨ msg.domain.toNat ≠ getF s F.PTP_CTRL_DOMAIN →
        (rd t (R.PTP_PORT_RX_DISCARD n)).toNat = min ((rd s (R.PTP_PORT_RX_DISCARD n)).toNat + 1) 0xFFFFFFFF) ∧
      (n.val ∈ s.ptp.measured → tcOn s = true → (1 - n.val) ∉ s.ptp.measured → t.out = s.out ∧
        (rd t (R.PTP_PORT_RX_DISCARD (1 - n.val))).toNat =
          min ((rd s (R.PTP_PORT_RX_DISCARD (1 - n.val))).toNat + 1) 0xFFFFFFFF) ∧
      (n.val ∈ s.ptp.measured → tcOn s = true → (1 - n.val) ∈ s.ptp.measured →
        (∃ c, .ptpFrame (1 - n.val) 1 c msg.body ∈ t.out) ∧
        (rd t (R.PTP_PORT_TC_FORWARD (1 - n.val))).toNat =
          min ((rd s (R.PTP_PORT_TC_FORWARD (1 - n.val))).toNat + 1) 0xFFFFFFFF))

/-- The snapshot, mirror, digest and heartbeat of a twin, and how being twins ends. On a block that is up, for TWIN frames
that pass: the next bytes of the snapshot count on a copying standby where the arrays they go to are powered, and end its
copy with cause 2 where one is not (the cause is the model's choice, log entry 50); the next MIRROR frame counts on a
joined standby, and one out of order makes a checked one leave; a digest of the checked span that meets its like counts a
match and takes CHECKING to SYNCED, and one that differs counts a mismatch, sets the fault and makes the standby leave; a
heartbeat of a SYNCED peer takes an ALONE active to LEADING, and one of a peer with another image ends a join in COPYING
or CHECKING with cause 5. SNAPSHOT_COMPLETE takes a whole copy to CHECKING; PEER_LOST_TIMEOUT takes a SYNCED standby over
as ALONE and ACTIVE with event 19, a LEADING active to ALONE, and a standby in COPYING or CHECKING to UNSYNCED with cause
1 and SLICE_OUT; TWIN_UNSYNC takes a standby that leaves to UNSYNCED. What R458 to R465 leave open follows log entry 50.
(R93, R458, R460, R461, R462, R463, R464, R465) -/
def Obligations.TwinCommandsComplete : Prop :=
  (∀ (s : State) (lane : Fin 56) (f : RxFrame), Up s → TwinGood s lane f 1 → twinState s = 2 →
    frField f 8 8 = s.twin.snapOffset → Completes (.twinSnapshotReceived lane f) s fun t =>
      t.twin.silent = 0 ∧ (∀ a, readByte t.dram a = readByte s.dram a) ∧
      if ((twinLayout.drop (s.twin.snapOffset / 4)).take ((frData f).length / 4)).all fun e => domOn s (mirrorDomain e) then
        t.twin.snapOffset = s.twin.snapOffset + (frData f).length ∧
        getR t R.TWN_SNAP_DONE = (s.twin.snapOffset + (frData f).length) % 2 ^ 32 ∧ twinState t = 2
      else twinState t = 1 ∧ getF t F.TWN_STATUS_ABANDON = 2) ∧
  (∀ (s : State) (lane : Fin 56) (f : RxFrame), Up s → TwinGood s lane f 4 → 2 ≤ twinState s → twinState s ≤ 4 →
    s.twin.joined = true → Completes (.twinMirrorReceived lane f) s fun t =>
      (frField f 8 8 = s.twin.mirrorCount → t.twin.mirrorCount = s.twin.mirrorCount + 1) ∧
      (frField f 8 8 ≠ s.twin.mirrorCount → twinState s ≠ 2 → t.twin.unsyncDue = some 2 ∧ twinState t = twinState s ∧
        MemorySame s t)) ∧
  (∀ (s : State) (lane : Fin 56) (f : RxFrame) (a d : Digest) (c : Nat), Up s → TwinGood s lane f 2 → twinRole s = 2 →
    spanLen s ≠ 0 → twinState s = 3 ∨ twinState s = 4 →
    d = { span := frField f 8 8 / spanLen s, fields := (List.range 5).map fun i => leAt (frData f) (4 * i) 4,
          visCmp := bitOf (leAt (frData f) 20 1) 0 } →
    s.twin.own = [a] → s.twin.peer = [] → a.span = d.span → s.twin.checkedFrame = some c → c ≤ a.span * spanLen s →
    Completes (.twinDigestReceived lane f) s fun t =>
      t.twin.own = [] ∧ t.twin.peer = [] ∧ MemorySame s t ∧
      (digestDiffers a d = 0 →
        (rd t R.TWN_DIGEST_MATCH_COUNT).toNat = min ((rd s R.TWN_DIGEST_MATCH_COUNT).toNat + 1) 0xFFFFFFFF ∧
        twinState t = (if twinState s = 3 ∧ c = a.span * spanLen s then 4 else twinState s)) ∧
      (digestDiffers a d ≠ 0 → t.twin.unsyncDue = some 0 ∧ getB t R.HLT_FAULT 21 = true ∧ twinState t = twinState s ∧
        (rd t R.TWN_DIGEST_MISMATCH_COUNT).toNat = min ((rd s R.TWN_DIGEST_MISMATCH_COUNT).toNat + 1) 0xFFFFFFFF)) ∧
  (∀ (s : State) (lane : Fin 56) (f : RxFrame), Up s → TwinGood s lane f 3 →
    (twinRole s = 1 → twinState s = 6 → leAt (frData f) 0 1 = 4 → Completes (.twinHeartbeatReceived lane f) s fun t =>
      twinState t = 5 ∧ t.twin.silent = 0 ∧ getF t F.TWN_STATUS_PEER_ALIVE = 1 ∧ MemorySame s t) ∧
    (twinState s = 2 ∨ twinState s = 3 → leAt (frData f) 4 8 ≠ getPair s R.STR_IMAGE_ID_LO →
      Completes (.twinHeartbeatReceived lane f) s fun t =>
        twinState t = 1 ∧ getF t F.TWN_STATUS_ABANDON = 5 ∧ (∀ a, readByte t.dram a = readByte s.dram a) ∧
        (rd t R.TWN_ABANDON_COUNT).toNat = min ((rd s R.TWN_ABANDON_COUNT).toNat + 1) 0xFFFFFFFF)) ∧
  (∀ s : State, Up s → s.twin.joined = true → twinState s = 2 → getR s R.TWN_SNAP_TOTAL ≠ 0 →
    s.twin.snapOffset = getR s R.TWN_SNAP_TOTAL → Completes .snapshotComplete s fun t =>
      twinState t = 3 ∧ t.twin.saved = none ∧ t.twin.checked = s.twin.saved ∧ t.twin.streamEnd = some ((s.counter.toNat + 2 ^ 21 - 1) / 2 ^ 21) ∧
      RegsSameBut [R.TWN_STATUS] s t ∧ MemorySame s t) ∧
  (∀ s : State, Up s → twinRole s ≠ 3 → max 1 (getF s F.TWN_TIMEOUT_VALUE) ≤ s.twin.silent →
    flag s F.TWN_STATUS_PEER_ALIVE = true → twinState s = 4 ∨ twinState s = 5 → Completes .peerLostTimeout s fun t =>
      twinState t = 6 ∧ getF t F.TWN_STATUS_PEER_ALIVE = 0 ∧ getB t R.HLT_FAULT 20 = true ∧ MemorySame s t ∧
      (rd t R.TWN_PEER_LOST_COUNT).toNat = min ((rd s R.TWN_PEER_LOST_COUNT).toNat + 1) 0xFFFFFFFF ∧
      (twinState s = 4 → twinRole t = 1 ∧ 19 ∈ t.pulses ∧
        (rd t R.TWN_TAKEOVER_COUNT).toNat = min ((rd s R.TWN_TAKEOVER_COUNT).toNat + 1) 0xFFFFFFFF)) ∧
  (∀ s : State, Up s → twinRole s ≠ 3 → max 1 (getF s F.TWN_TIMEOUT_VALUE) ≤ s.twin.silent →
    twinState s = 2 ∨ twinState s = 3 → Completes .peerLostTimeout s fun t =>
      twinState t = 1 ∧ getF t F.TWN_STATUS_ABANDON = 1 ∧ getF t F.TWN_STATUS_SLICE_OUT = 1 ∧
      getF t F.TWN_STATUS_PEER_ALIVE = 0 ∧ (∀ a, readByte t.dram a = readByte s.dram a) ∧
      (rd t R.TWN_PEER_LOST_COUNT).toNat = min ((rd s R.TWN_PEER_LOST_COUNT).toNat + 1) 0xFFFFFFFF) ∧
  (∀ (s : State) (c : Nat), Up s → s.twin.unsyncDue = some c → twinState s = 3 ∨ twinState s = 4 →
    Completes .twinUnsync s fun t =>
      twinState t = 1 ∧ t.twin.unsyncDue = none ∧ t.twin.saved = none ∧ MemorySame s t ∧
      getF t F.TWN_STATUS_ABANDON = if c = 0 then getF s F.TWN_STATUS_ABANDON else c % 8)

/-- Integer and logic instructions of a core. Where a core runs the instruction and no write of the registers it names is in
the pipeline: the next instruction sees the result of ADD, ADDC, SUB, SUBC, AND, OR, XOR, NOT, ABS, NEG, MIN, MAX and MOV
in the destination; ADD, ADDC, SUB, SUBC and CMP set N, Z, C and V of the result, a branch one instruction later sees
them, and the logic operations set N and Z and clear V; ABS and NEG saturate and set SV where they did. Nothing else of
the core, no other core, no memory and no other register changes but PC, cycle count and status. (R274, R281, R282, R295) -/
def Obligations.BerylIntegerCompletes : Prop :=
  (∀ (s : State) (k : Fin 4) (rd rs rt : Fin 16) (A B C : Nat), Up s → A = (brlCore s k).slot rs →
    B = (brlCore s k).slot rt → C = ofBool (bitOf (brlCore s k).sr 1) → Landed s k rd → Landed s k 52 → Landed s k 72 →
    (CoreRuns s k (.alu .add rd rs rt 0) → Completes (.add k rd rs rt) s fun t =>
      seenAfter t k 0 rd % 2 ^ 32 = (A + B) % 2 ^ 32 ∧ CoreFrame s t k [] [rd, 52, 72] ∧
      seenAfter t k 0 52 % 16 = nzcv ((A + B) % 2 ^ 32) (2 ^ 32 ≤ A + B)
        (toSigned 32 A + toSigned 32 B != toSigned 32 ((A + B) % 2 ^ 32)) ∧
      seenAfter t k 1 72 % 16 = seenAfter t k 0 52 % 16) ∧
    (CoreRuns s k (.alu .addc rd rs rt 0) → Completes (.addc k rd rs rt) s fun t =>
      seenAfter t k 0 rd % 2 ^ 32 = (A + B + C) % 2 ^ 32 ∧ CoreFrame s t k [] [rd, 52, 72] ∧
      seenAfter t k 0 52 % 16 = nzcv ((A + B + C) % 2 ^ 32) (2 ^ 32 ≤ A + B + C)
        (toSigned 32 A + toSigned 32 B + C != toSigned 32 ((A + B + C) % 2 ^ 32))) ∧
    (CoreRuns s k (.alu .sub rd rs rt 0) → Completes (.sub k rd rs rt) s fun t =>
      seenAfter t k 0 rd % 2 ^ 32 = (A + 2 ^ 33 - B) % 2 ^ 32 ∧ CoreFrame s t k [] [rd, 52, 72] ∧
      seenAfter t k 0 52 % 16 = nzcv ((A + 2 ^ 33 - B) % 2 ^ 32) (B ≤ A)
        (toSigned 32 A - toSigned 32 B != toSigned 32 ((A + 2 ^ 33 - B) % 2 ^ 32))) ∧
    (CoreRuns s k (.alu .subc rd rs rt 0) → C = 1 → Completes (.subc k rd rs rt) s fun t =>
      seenAfter t k 0 rd % 2 ^ 32 = (A + 2 ^ 33 - B) % 2 ^ 32 ∧ CoreFrame s t k [] [rd, 52, 72]) ∧
    (CoreRuns s k (.alu .subc rd rs rt 0) → C = 0 → Completes (.subc k rd rs rt) s fun t =>
      seenAfter t k 0 rd % 2 ^ 32 = (A + 2 ^ 33 - B - 1) % 2 ^ 32 ∧ CoreFrame s t k [] [rd, 52, 72]) ∧
    (CoreRuns s k (.alu .cmp 0 rs rt 0) → Completes (.cmp k rs rt) s fun t =>
      CoreFrame s t k [] [52, 72] ∧
      seenAfter t k 0 52 % 16 = nzcv ((A + 2 ^ 33 - B) % 2 ^ 32) (B ≤ A)
        (toSigned 32 A - toSigned 32 B != toSigned 32 ((A + 2 ^ 33 - B) % 2 ^ 32)) ∧
      seenAfter t k 1 72 % 16 = seenAfter t k 0 52 % 16)) ∧
  (∀ (s : State) (k : Fin 4) (rd rs rt : Fin 16) (A B : Nat), Up s → A = (brlCore s k).slot rs →
    B = (brlCore s k).slot rt → Landed s k rd → Landed s k 52 → Landed s k 72 →
    (CoreRuns s k (.alu .and rd rs rt 0) → Completes (.and k rd rs rt) s fun t =>
      seenAfter t k 0 rd % 2 ^ 32 = Nat.land A B % 2 ^ 32 ∧ CoreFrame s t k [] [rd, 52, 72] ∧
      bitOf (seenAfter t k 0 52) 3 = bitOf (Nat.land A B) 31 ∧ bitOf (seenAfter t k 0 52) 0 = false) ∧
    (CoreRuns s k (.alu .or rd rs rt 0) → Completes (.or k rd rs rt) s fun t =>
      seenAfter t k 0 rd % 2 ^ 32 = Nat.lor A B % 2 ^ 32 ∧ CoreFrame s t k [] [rd, 52, 72] ∧
      bitOf (seenAfter t k 0 52) 3 = bitOf (Nat.lor A B) 31 ∧ bitOf (seenAfter t k 0 52) 0 = false) ∧
    (CoreRuns s k (.alu .xor rd rs rt 0) → Completes (.xor k rd rs rt) s fun t =>
      seenAfter t k 0 rd % 2 ^ 32 = Nat.xor A B % 2 ^ 32 ∧ CoreFrame s t k [] [rd, 52, 72] ∧
      bitOf (seenAfter t k 0 52) 2 = (Nat.xor A B == 0) ∧ bitOf (seenAfter t k 0 52) 0 = false) ∧
    (CoreRuns s k (.alu .not rd rs 0 0) → Completes (.not k rd rs) s fun t =>
      seenAfter t k 0 rd % 2 ^ 32 = 2 ^ 32 - 1 - A ∧ CoreFrame s t k [] [rd, 52, 72] ∧
      bitOf (seenAfter t k 0 52) 2 = (2 ^ 32 - 1 - A == 0) ∧ bitOf (seenAfter t k 0 52) 0 = false) ∧
    (CoreRuns s k (.alu .abs rd rs 0 0) → Completes (.abs k rd rs) s fun t =>
      toSigned 32 (seenAfter t k 0 rd) = min (2 ^ 31 - 1) (toSigned 32 A).natAbs ∧ CoreFrame s t k [] [rd, 52] ∧
      (toSigned 32 A = -(2 ^ 31) → bitOf (seenAfter t k 0 52) 5 = true)) ∧
    (CoreRuns s k (.alu .neg rd rs 0 0) → Completes (.neg k rd rs) s fun t =>
      toSigned 32 (seenAfter t k 0 rd) = min (2 ^ 31 - 1) (-toSigned 32 A) ∧ CoreFrame s t k [] [rd, 52] ∧
      (toSigned 32 A = -(2 ^ 31) → bitOf (seenAfter t k 0 52) 5 = true)) ∧
    (CoreRuns s k (.alu .min rd rs rt 0) → Completes (.min k rd rs rt) s fun t =>
      toSigned 32 (seenAfter t k 0 rd) = min (toSigned 32 A) (toSigned 32 B) ∧ CoreFrame s t k [] [rd]) ∧
    (CoreRuns s k (.alu .max rd rs rt 0) → Completes (.max k rd rs rt) s fun t =>
      toSigned 32 (seenAfter t k 0 rd) = max (toSigned 32 A) (toSigned 32 B) ∧ CoreFrame s t k [] [rd]) ∧
    (CoreRuns s k (.alu .mov rd rs 0 0) → Completes (.mov k rd rs) s fun t =>
      seenAfter t k 0 rd % 2 ^ 32 = A % 2 ^ 32 ∧ CoreFrame s t k [] [rd]))

/-- Shifts, complex words and multiplications of a core. Where a core runs the instruction and no write of its destination or
of SR is in the pipeline: the next instruction sees the result of SHL, SHR, ASR, ASRR, SHLV and ASRV, of CADD, CSUB and
CONJ, each half saturated at 32,767 in magnitude; the one after it sees the result of MPY, MPYH and CMPY. Nothing else of
the core, no other core, no memory and no other register changes but PC, cycle count and status. (R281, R282, R295) -/
def Obligations.BerylShiftAndComplexCompletes : Prop :=
  (∀ (s : State) (k : Fin 4) (rd rs : Fin 16) (n : Fin 32) (A : Nat), Up s → A = (brlCore s k).slot rs →
    Landed s k rd → Landed s k 52 → Landed s k 72 →
    (CoreRuns s k (.alu .shl rd rs 0 n) → Completes (.shl k rd rs n) s fun t =>
      seenAfter t k 0 rd % 2 ^ 32 = A * 2 ^ n.val % 2 ^ 32 ∧ CoreFrame s t k [] [rd, 52, 72]) ∧
    (CoreRuns s k (.alu .shr rd rs 0 n) → Completes (.shr k rd rs n) s fun t =>
      seenAfter t k 0 rd % 2 ^ 32 = A / 2 ^ n.val % 2 ^ 32 ∧ CoreFrame s t k [] [rd, 52, 72]) ∧
    (CoreRuns s k (.alu .asr rd rs 0 n) → Completes (.asr k rd rs n) s fun t =>
      toSigned 32 (seenAfter t k 0 rd) = toSigned 32 A / 2 ^ n.val ∧ CoreFrame s t k [] [rd, 52, 72]) ∧
    (CoreRuns s k (.alu .asrr rd rs 0 n) → Completes (.asrr k rd rs n) s fun t =>
      seenAfter t k 0 rd % 2 ^ 32 = ofSigned 32 (rhu (toSigned 32 A) n) ∧ CoreFrame s t k [] [rd, 52, 72])) ∧
  (∀ (s : State) (k : Fin 4) (rd rs rt : Fin 16) (A B : Nat), Up s → A = (brlCore s k).slot rs →
    B = (brlCore s k).slot rt → Landed s k rd → Landed s k 52 → Landed s k 72 →
    (CoreRuns s k (.alu .shlv rd rs rt 0) → Completes (.shlv k rd rs rt) s fun t =>
      seenAfter t k 0 rd % 2 ^ 32 = A * 2 ^ (B % 32) % 2 ^ 32 ∧ CoreFrame s t k [] [rd, 52, 72]) ∧
    (CoreRuns s k (.alu .asrv rd rs rt 0) → Completes (.asrv k rd rs rt) s fun t =>
      toSigned 32 (seenAfter t k 0 rd) = toSigned 32 A / 2 ^ (B % 32) ∧ CoreFrame s t k [] [rd, 52, 72]) ∧
    (CoreRuns s k (.alu .cadd rd rs rt 0) → Completes (.cadd k rd rs rt) s fun t =>
      hiOf (seenAfter t k 0 rd) = max (-32767) (min 32767 (hiOf A + hiOf B)) ∧
      loOf (seenAfter t k 0 rd) = max (-32767) (min 32767 (loOf A + loOf B)) ∧ CoreFrame s t k [] [rd, 52]) ∧
    (CoreRuns s k (.alu .csub rd rs rt 0) → Completes (.csub k rd rs rt) s fun t =>
      hiOf (seenAfter t k 0 rd) = max (-32767) (min 32767 (hiOf A - hiOf B)) ∧
      loOf (seenAfter t k 0 rd) = max (-32767) (min 32767 (loOf A - loOf B)) ∧ CoreFrame s t k [] [rd, 52]) ∧
    (CoreRuns s k (.alu .conj rd rs 0 0) → Completes (.conj k rd rs) s fun t =>
      hiOf (seenAfter t k 0 rd) = max (-32767) (hiOf A) ∧ loOf (seenAfter t k 0 rd) = min 32767 (-loOf A) ∧
      CoreFrame s t k [] [rd, 52]) ∧
    (CoreRuns s k (.alu .mpy rd rs rt 0) → Completes (.mpy k rd rs rt) s fun t =>
      toSigned 32 (seenAfter t k 1 rd) = loOf A * loOf B ∧ CoreFrame s t k [] [rd]) ∧
    (CoreRuns s k (.alu .mpyh rd rs rt 0) → Completes (.mpyh k rd rs rt) s fun t =>
      toSigned 32 (seenAfter t k 1 rd) = hiOf A * hiOf B ∧ CoreFrame s t k [] [rd]) ∧
    (CoreRuns s k (.alu .cmpy rd rs rt 0) → Completes (.cmpy k rd rs rt) s fun t =>
      hiOf (seenAfter t k 1 rd) = max (-32767) (min 32767 (rhu (hiOf A * hiOf B - loOf A * loOf B) 15)) ∧
      loOf (seenAfter t k 1 rd) = max (-32767) (min 32767 (rhu (hiOf A * loOf B + loOf A * hiOf B) 15)) ∧
      CoreFrame s t k [] [rd, 52]))

/-- Multiply-accumulate, parallel moves and the accumulators of a core. Where a core runs the instruction and no write of its
destinations is in the pipeline: the next MAC operation sees the accumulators with the products of R278 added or
subtracted, CMACZ starting from zero, saturated at 2^39 − 1 in magnitude with AV set; a parallel move loads a word of the
core's own X memory for the instruction after the next and moves its pointer on, or stores one into the Y memory; MOVA and
MOVAC give the rounded, saturated accumulators to the instruction after the next; MOVDA and CLRA set accumulators, as the
next MAC operation sees them (the model's reading of R282, log entry 32). Apart from moves, nothing else changes but PC,
cycle count and status. (R275, R278, R279, R280, R282, R283) -/
def Obligations.BerylMacCompletes : Prop :=
  (∀ (s : State) (k : Fin 4) (acc : Fin 4) (rs rt : Fin 16) (A B : Nat), Up s → A = (brlCore s k).slot rs →
    B = (brlCore s k).slot rt → Landed s k (64 + acc) → Landed s k (68 + acc) → Landed s k 52 →
    (CoreRuns s k (.pm (some .mac) acc rs rt ⟨.none, .none⟩) → Completes (.mac k acc rs rt) s fun t =>
      toSigned 40 (seenAfter t k 0 (64 + acc)) =
        max (-(2 ^ 39 - 1)) (min (2 ^ 39 - 1) ((brlCore s k).acc acc + loOf A * loOf B)) ∧
      seenAfter t k 1 (68 + acc) % 2 ^ 40 = seenAfter t k 0 (64 + acc) % 2 ^ 40 ∧
      (2 ^ 39 - 1 < (brlCore s k).acc acc + loOf A * loOf B → bitOf (seenAfter t k 0 52) 6 = true) ∧
      CoreFrame s t k [] [64 + acc, 68 + acc, 52]) ∧
    (CoreRuns s k (.pm (some .msu) acc rs rt ⟨.none, .none⟩) → Completes (.msu k acc rs rt) s fun t =>
      toSigned 40 (seenAfter t k 0 (64 + acc)) =
        max (-(2 ^ 39 - 1)) (min (2 ^ 39 - 1) ((brlCore s k).acc acc - loOf A * loOf B)) ∧
      CoreFrame s t k [] [64 + acc, 68 + acc, 52])) ∧
  (∀ (s : State) (k : Fin 4) (p : Fin 2) (rs rt : Fin 16) (mv : BrlMoves) (A B e o : Nat), Up s →
    A = (brlCore s k).slot rs → B = (brlCore s k).slot rt → e = 64 + 2 * p.val → o = 65 + 2 * p.val →
    Landed s k e → Landed s k o → Landed s k (e + 4) → Landed s k (o + 4) → Landed s k 52 →
    (CoreRuns s k (.pm (some .mac2) (2 * p.val) rs rt mv) → Completes (.mac2 k p rs rt mv) s fun t =>
      toSigned 40 (seenAfter t k 0 e) =
        max (-(2 ^ 39 - 1)) (min (2 ^ 39 - 1) ((brlCore s k).acc (2 * p.val) + hiOf A * hiOf B)) ∧
      toSigned 40 (seenAfter t k 0 o) =
        max (-(2 ^ 39 - 1)) (min (2 ^ 39 - 1) ((brlCore s k).acc (2 * p.val + 1) + loOf A * loOf B)) ∧
      (mv = ⟨.none, .none⟩ → CoreFrame s t k [] [e, o, e + 4, o + 4, 52])) ∧
    (CoreRuns s k (.pm (some .msu2) (2 * p.val) rs rt mv) → Completes (.msu2 k p rs rt mv) s fun t =>
      toSigned 40 (seenAfter t k 0 e) =
        max (-(2 ^ 39 - 1)) (min (2 ^ 39 - 1) ((brlCore s k).acc (2 * p.val) - hiOf A * hiOf B)) ∧
      toSigned 40 (seenAfter t k 0 o) =
        max (-(2 ^ 39 - 1)) (min (2 ^ 39 - 1) ((brlCore s k).acc (2 * p.val + 1) - loOf A * loOf B)) ∧
      (mv = ⟨.none, .none⟩ → CoreFrame s t k [] [e, o, e + 4, o + 4, 52])) ∧
    (CoreRuns s k (.pm (some .cmac) (2 * p.val) rs rt mv) → Completes (.cmac k p rs rt mv) s fun t =>
      toSigned 40 (seenAfter t k 0 e) = max (-(2 ^ 39 - 1)) (min (2 ^ 39 - 1)
        ((brlCore s k).acc (2 * p.val) + (hiOf A * hiOf B - loOf A * loOf B))) ∧
      toSigned 40 (seenAfter t k 0 o) = max (-(2 ^ 39 - 1)) (min (2 ^ 39 - 1)
        ((brlCore s k).acc (2 * p.val + 1) + (hiOf A * loOf B + loOf A * hiOf B))) ∧
      (mv = ⟨.none, .none⟩ → CoreFrame s t k [] [e, o, e + 4, o + 4, 52])) ∧
    (CoreRuns s k (.pm (some .cmsu) (2 * p.val) rs rt mv) → Completes (.cmsu k p rs rt mv) s fun t =>
      toSigned 40 (seenAfter t k 0 e) = max (-(2 ^ 39 - 1)) (min (2 ^ 39 - 1)
        ((brlCore s k).acc (2 * p.val) - (hiOf A * hiOf B - loOf A * loOf B))) ∧
      toSigned 40 (seenAfter t k 0 o) = max (-(2 ^ 39 - 1)) (min (2 ^ 39 - 1)
        ((brlCore s k).acc (2 * p.val + 1) - (hiOf A * loOf B + loOf A * hiOf B))) ∧
      (mv = ⟨.none, .none⟩ → CoreFrame s t k [] [e, o, e + 4, o + 4, 52])) ∧
    (CoreRuns s k (.pm (some .cmacj) (2 * p.val) rs rt mv) → Completes (.cmacj k p rs rt mv) s fun t =>
      toSigned 40 (seenAfter t k 0 e) = max (-(2 ^ 39 - 1)) (min (2 ^ 39 - 1)
        ((brlCore s k).acc (2 * p.val) + (hiOf A * hiOf B + loOf A * loOf B))) ∧
      toSigned 40 (seenAfter t k 0 o) = max (-(2 ^ 39 - 1)) (min (2 ^ 39 - 1)
        ((brlCore s k).acc (2 * p.val + 1) + (loOf A * hiOf B - hiOf A * loOf B))) ∧
      (mv = ⟨.none, .none⟩ → CoreFrame s t k [] [e, o, e + 4, o + 4, 52])) ∧
    (CoreRuns s k (.pm (some .cmacz) (2 * p.val) rs rt mv) → Completes (.cmacz k p rs rt mv) s fun t =>
      toSigned 40 (seenAfter t k 0 e) = hiOf A * hiOf B - loOf A * loOf B ∧
      toSigned 40 (seenAfter t k 0 o) = hiOf A * loOf B + loOf A * hiOf B ∧
      (mv = ⟨.none, .none⟩ → CoreFrame s t k [] [e, o, e + 4, o + 4, 52]))) ∧
  (∀ (s : State) (k p : Fin 4) (md : Bool) (r : Fin 8) (q : Nat), Up s → q < 0x10000 →
    (q = (brlCore s k).slot (32 + p) → Landed s k r → Landed s k (32 + p) →
      CoreRuns s k (.pm none 0 0 0 ⟨.load p md r, .none⟩) → Completes (.parallelMove k ⟨.load p md r, .none⟩) s fun t =>
        seenAfter t k 1 r % 2 ^ 32 = (arrGet s .brlX (1 + k) (0x10000 * k + q)).toNat % 2 ^ 32 ∧
        (md = true → seenAfter t k 0 (32 + p) % 2 ^ 24 =
          ((q + (brlCore s k).sslot 24 (40 + p)) % 2 ^ 24).toNat) ∧ CoreFrame s t k [] [r, 32 + p]) ∧
    (q = (brlCore s k).slot (36 + p) → CoreRuns s k (.pm none 0 0 0 ⟨.none, .store p md r⟩) →
      Completes (.parallelMove k ⟨.none, .store p md r⟩) s fun t =>
        t.arrays = (arrSet s .brlY (0x10000 * k + q) (BitVec.ofNat 64 ((brlCore s k).slot r % 2 ^ 32))).arrays ∧
        ∀ a, readByte t.dram a = readByte s.dram a)) ∧
  (∀ (s : State) (k acc : Fin 4) (p : Fin 2) (rd : Fin 16) (sc : Nat), Up s → sc = bitsOf (brlCore s k).sr 20 16 →
    Landed s k rd → Landed s k 52 →
    (CoreRuns s k (.mova rd acc) → Completes (.mova k rd acc) s fun t =>
      toSigned 32 (seenAfter t k 1 rd) =
        max (-(2 ^ 31 - 1)) (min (2 ^ 31 - 1) (rhu ((brlCore s k).sslot 40 (68 + acc)) sc)) ∧
      CoreFrame s t k [] [rd, 52]) ∧
    (CoreRuns s k (.movac rd (2 * p.val)) → Completes (.movac k rd p) s fun t =>
      hiOf (seenAfter t k 1 rd) = max (-32767) (min 32767 (rhu ((brlCore s k).sslot 40 (68 + 2 * p.val)) sc)) ∧
      loOf (seenAfter t k 1 rd) = max (-32767) (min 32767 (rhu ((brlCore s k).sslot 40 (69 + 2 * p.val)) sc)) ∧
      CoreFrame s t k [] [rd, 52])) ∧
  (∀ (s : State) (k acc : Fin 4) (rs : Fin 16) (mask : BitVec 4), Up s →
    (∀ a, a < 4 → Landed s k (64 + a) ∧ Landed s k (68 + a)) →
    (CoreRuns s k (.movda acc rs) → Completes (.movda k acc rs) s fun t =>
      toSigned 40 (seenAfter t k 0 (64 + acc)) = (brlCore s k).sslot 32 rs ∧
      seenAfter t k 1 (68 + acc) % 2 ^ 40 = seenAfter t k 0 (64 + acc) % 2 ^ 40 ∧
      CoreFrame s t k [] [64 + acc, 68 + acc]) ∧
    (CoreRuns s k (.clra mask.toNat) → Completes (.clra k mask) s fun t =>
      (∀ a, a < 4 → mask.getLsbD a = true →
        seenAfter t k 0 (64 + a) % 2 ^ 40 = 0 ∧ seenAfter t k 1 (68 + a) % 2 ^ 40 = 0) ∧
      (∀ a, a < 4 → mask.getLsbD a = false → seenAfter t k 2 (64 + a) = (brlCore s k).slot (64 + a)) ∧
      CoreFrame s t k [] [64, 65, 66, 67, 68, 69, 70, 71]))

/-- Immediates, address registers, loads and stores of a core. Where a core runs the instruction and no write of its
destination is in the pipeline: MOVK, MOVKH, ADDK and CMPK act on a D register or the flags with the immediate, which ADDK
and CMPK sign-extend (log entry 32); LA, MOVR_TO_AREG, AADD and AADDK write the bits an address register holds, seen three
instructions later (log entry 32); MOVR_FROM_AREG reads one, modifiers sign-extended; LDC gives a word of C memory, LD of
the core's own memory the addressed word, to the instruction after the next; ST to the core's own memory stores the
register there, and to a window puts it last in the write buffer. An address register number of 24 or more stops the core
with cause 1. (R271, R272, R274, R275, R282, R288, R293, R294) -/
def Obligations.BerylLoadsAndImmediatesComplete : Prop :=
  (∀ (s : State) (k : Fin 4) (rd : Fin 16) (imm : BitVec 16) (A : Nat), Up s → A = (brlCore s k).slot rd →
    Landed s k rd → Landed s k 52 → Landed s k 72 →
    (CoreRuns s k (.movk rd imm.toNat) → Completes (.movk k rd imm) s fun t =>
      toSigned 32 (seenAfter t k 0 rd) = imm.toInt ∧ CoreFrame s t k [] [rd]) ∧
    (CoreRuns s k (.movkh rd imm.toNat) → Completes (.movkh k rd imm) s fun t =>
      seenAfter t k 0 rd % 2 ^ 32 = imm.toNat * 2 ^ 16 + A % 2 ^ 16 ∧ CoreFrame s t k [] [rd]) ∧
    (CoreRuns s k (.addk rd imm.toNat) → Completes (.addk k rd imm) s fun t =>
      seenAfter t k 0 rd % 2 ^ 32 = ofSigned 32 (A + imm.toInt) ∧ CoreFrame s t k [] [rd]) ∧
    (CoreRuns s k (.cmpk rd imm.toNat) → Completes (.cmpk k rd imm) s fun t =>
      bitOf (seenAfter t k 0 52) 2 = ((A + 2 ^ 33 - ofSigned 32 imm.toInt) % 2 ^ 32 == 0) ∧
      bitOf (seenAfter t k 0 52) 1 = decide (ofSigned 32 imm.toInt ≤ A) ∧ CoreFrame s t k [] [52, 72])) ∧
  (∀ (s : State) (k : Fin 4) (a : Fin 32) (rs rd : Fin 16) (imm : BitVec 24) (off : BitVec 15) (P : Nat), Up s →
    P = (brlCore s k).slot (32 + a) → Landed s k (32 + a) → Landed s k 72 → Landed s k rd →
    (CoreRuns s k (.la a imm.toNat) → Completes (.la k a imm) s fun t =>
      Nat.land (seenAfter t k 2 (32 + a)) (aregMask a) = Nat.land imm.toNat (aregMask a) ∧
      CoreFrame s t k [] [32 + a, 72]) ∧
    (CoreRuns s k (.movrTo a rs) → Completes (.movrToAreg k a rs) s fun t =>
      Nat.land (seenAfter t k 2 (32 + a)) (aregMask a) = Nat.land ((brlCore s k).slot rs) (aregMask a) ∧
      CoreFrame s t k [] [32 + a, 72]) ∧
    (CoreRuns s k (.aadd a rs) → Completes (.aadd k a rs) s fun t =>
      Nat.land (seenAfter t k 2 (32 + a)) (aregMask a) = Nat.land (P + (brlCore s k).slot rs) (aregMask a) ∧
      CoreFrame s t k [] [32 + a, 72]) ∧
    (CoreRuns s k (.aaddk a off.toNat) → Completes (.aaddk k a off) s fun t =>
      Nat.land (seenAfter t k 2 (32 + a)) (aregMask a) = Nat.land (P + ofSigned 32 off.toInt) (aregMask a) ∧
      CoreFrame s t k [] [32 + a, 72]) ∧
    (CoreRuns s k (.movrFrom rd a) → Completes (.movrFromAreg k rd a) s fun t =>
      seenAfter t k 0 rd % 2 ^ 32 =
        (if 8 ≤ a.val ∧ a.val < 12 then ofSigned 32 (toSigned 24 P) else P % 2 ^ 32) ∧ CoreFrame s t k [] [rd]) ∧
    (24 ≤ a.val → brlIssues s k = true → Completes (.la k a imm) s fun t => CoreFaulted s t k 1)) ∧
  (∀ (s : State) (k : Fin 4) (rd : Fin 16) (p : Fin 8) (disp : BitVec 12) (a : Nat), Up s →
    a = (((brlCore s k).slot (32 + p) + disp.toInt) % 2 ^ 15).toNat → Landed s k rd →
    CoreRuns s k (.ldc rd p disp.toNat) → Completes (.ldc k rd p disp) s fun t =>
      seenAfter t k 1 rd % 2 ^ 32 = (arrGet s .brlC (1 + k) (0x10000 * k + a)).toNat % 2 ^ 32 ∧
      CoreFrame s t k [R.BRL_STALL_COUNT k] [rd]) ∧
  (∀ (s : State) (k : Fin 4) (x : BrlAccess) (a : Ea) (arr : Arr) (i : Nat), Up s →
    a = brlEa (brlCore s k) x.p x.mode x.disp.toInt → brlPlace s k x.y a.addr = .own arr i → Landed s k x.d →
    Landed s k (32 + x.p) →
    (CoreRuns s k (.load x) → Completes (.ld k x) s fun t =>
      seenAfter t k 1 x.d % 2 ^ 32 = (arrGet s arr (1 + k) i).toNat % 2 ^ 32 ∧
      (∀ v, a.next = some v → seenAfter t k 0 (32 + x.p) % 2 ^ 24 = v % 2 ^ 24) ∧
      CoreFrame s t k [] [x.d, 32 + x.p, 52]) ∧
    (CoreRuns s k (.store x) → Completes (.st k x) s fun t =>
      t.arrays = (arrSet s arr i (BitVec.ofNat 64 ((brlCore s k).slot x.d % 2 ^ 32))).arrays ∧
      (∀ v, a.next = some v → seenAfter t k 0 (32 + x.p) % 2 ^ 24 = v % 2 ^ 24) ∧
      (∀ b, readByte t.dram b = readByte s.dram b) ∧
      RegsSameBut [R.BRL_PC k, R.BRL_CYCLES_LO k, R.BRL_CYCLES_HI k, R.BRL_STATUS k] s t)) ∧
  (∀ (s : State) (k : Fin 4) (x : BrlAccess) (a : Ea) (w : BrlTarget), Up s →
    a = brlEa (brlCore s k) x.p x.mode x.disp.toInt → brlPlace s k x.y a.addr = .window w →
    CoreRuns s k (.store x) → Completes (.st k x) s fun t =>
      (brlCore t k).stores = (brlCore s k).stores ++ [⟨w, x.y, a.addr, BitVec.ofNat 32 ((brlCore s k).slot x.d)⟩] ∧
      CoreFrame s t k [] [32 + x.p, 52])

/-- Branches, repeats, interrupts and halting of a core. Where a core runs the instruction: a BRANCH or CALL whose condition
holds is followed by two delay slots and leads to its target, CALL pushing the address after them, and otherwise leads on;
RET and RETI lead to the address pushed last and take it off, RETI giving SR back, which lands three instructions later
(log entry 32); LOOP adds a level over its body with its count and ITER repeats the next instruction, a register count
being D[15:0] + 1 (log entry 32); NOP and FENCE only go on; HALT clears RUN and with an empty write buffer halts the core;
WAIT with nothing pending waits; SWI pends vector 15; SEI and CLI change IE for the instruction three later (log entry
32); SEV raises its event. A condition above 12 stops the core with cause 1. (R284, R285, R286, R289, R290, R291, R292,
R295) -/
def Obligations.BerylControlCompletes : Prop :=
  (∀ (s : State) (k : Fin 4) (cond : Fin 16) (target : BitVec 15), Up s →
    (CoreRuns s k (.branch cond target.toNat false) → Completes (.branch k cond target) s fun t =>
      (brlCore t k).slots = 2 ∧ (brlCore t k).stack = (brlCore s k).stack ∧
      (brlCore t k).target = (if condHolds cond ((brlCore s k).slot 72) = true then some target.toNat else none) ∧
      brlPc t k = (brlPc s k + 1) % 32768 ∧ MemorySame s t) ∧
    (CoreRuns s k (.branch cond target.toNat true) → Completes (.call k cond target) s fun t =>
      (brlCore t k).slots = 2 ∧ brlPc t k = (brlPc s k + 1) % 32768 ∧ MemorySame s t ∧
      if condHolds cond ((brlCore s k).slot 72) = true then
        (brlCore t k).target = some target.toNat ∧
        (brlCore t k).stack = (brlCore s k).stack ++ [⟨(brlPc s k + 3) % 32768, none, (brlCore s k).base, false⟩]
      else (brlCore t k).target = none ∧ (brlCore t k).stack = (brlCore s k).stack) ∧
    (12 < cond.val → brlIssues s k = true → Completes (.branch k cond target) s fun t => CoreFaulted s t k 1)) ∧
  (∀ (s : State) (k : Fin 4) (e : BrlReturn), Up s → (brlCore s k).stack.getLast? = some e →
    (CoreRuns s k .ret → Completes (.ret k) s fun t =>
      (brlCore t k).slots = 2 ∧ (brlCore t k).target = some e.addr ∧
      (brlCore t k).stack = (brlCore s k).stack.dropLast ∧ MemorySame s t) ∧
    (CoreRuns s k .reti → Landed s k 52 → Completes (.reti k) s fun t =>
      (brlCore t k).slots = 2 ∧ (brlCore t k).target = some e.addr ∧
      (brlCore t k).stack = (brlCore s k).stack.dropLast ∧ MemorySame s t ∧
      (∀ v, e.sr = some v → Nat.land (seenAfter t k 2 52) (aregMask 20) = Nat.land v.toNat (aregMask 20)))) ∧
  (∀ (s : State) (k : Fin 4) (intr : Bool) (count : BrlCount) (len : Fin 1024), Up s →
    CoreRuns s k (.loop intr count len) → Landed s k (53 + (brlCore s k).levels.length) →
    Completes (.loop k intr count len) s fun t =>
      (brlCore t k).levels =
        (brlCore s k).levels ++ [⟨(brlPc s k + 1) % 32768, brlPc s k + 1 + len.val, intr, false⟩] ∧
      seenAfter t k 0 (53 + (brlCore s k).levels.length) % 2 ^ 17 = countOf (brlCore s k) count ∧
      brlPc t k = (brlPc s k + 1) % 32768 ∧ MemorySame s t) ∧
  (∀ (s : State) (k : Fin 4) (count : BrlCount), Up s → CoreRuns s k (.iter count) → Completes (.iter k count) s fun t =>
    (brlCore t k).iter = countOf (brlCore s k) count ∧ brlPc t k = (brlPc s k + 1) % 32768 ∧ MemorySame s t) ∧
  (∀ (s : State) (k : Fin 4), Up s →
    (CoreRuns s k .nop → Completes (.nop k) s fun t => CoreFrame s t k [] []) ∧
    (CoreRuns s k .fence → Completes (.fence k) s fun t => (brlCore s k).stores = [] ∧ CoreFrame s t k [] []) ∧
    (CoreRuns s k .halt → Completes (.halt k) s fun t =>
      getF t (F.BRL_CTRL_RUN k) = 0 ∧ CoreFrame s t k [R.BRL_CTRL k] [] ∧
      ((brlCore s k).stores = [] → brlState t k = 2)) ∧
    (CoreRuns s k .wait → flag s (F.BRL_CTRL_RUN k) = true → rd s (R.BRL_IRQ_EN k) &&& rd s (R.BRL_IRQ_PEND k) = 0 →
      Completes (.wait k) s fun t => brlState t k = 3 ∧ CoreFrame s t k [] []) ∧
    (CoreRuns s k .swi → Completes (.swi k) s fun t =>
      getB t (R.BRL_IRQ_PEND k) 15 = true ∧ CoreFrame s t k [R.BRL_IRQ_PEND k, R.BRL_IRQ_MERGE_COUNT k] []) ∧
    (CoreRuns s k (.setIe true) → Landed s k 52 → Completes (.sei k) s fun t =>
      bitOf (seenAfter t k 2 52) 31 = true ∧ CoreFrame s t k [] [52]) ∧
    (CoreRuns s k (.setIe false) → Landed s k 52 → Completes (.cli k) s fun t =>
      bitOf (seenAfter t k 2 52) 31 = false ∧ CoreFrame s t k [] [52]) ∧
    ∀ e : Fin 4, CoreRuns s k (.sev e) → domOn s (1 + k) = true → Completes (.sev k e) s fun t =>
      (40 + 4 * k.val + e.val) ∈ t.pulses ∧ CoreFrame s t k [] [])

/-- What a core takes from outside: interrupts, window accesses, RUN, reset, step, the mailbox, the timer, C memory. On a
block that is up: INTERRUPT_TAKE at a boundary that allows it goes to the vector with PC and SR pushed and IE clear, and
with a full stack faults with cause 4, a core in WAIT taking it whatever loops are active (log entry 32); a window store
that completes at DRAM leaves the buffer and is written, one that the memory refuses is lost with a window error, with
nothing stored beside the memory error log's entry but in a codeword that is good; a load that got an error response gives
0 with a window error; RUN from RESET starts the core at address 0 (log entry 32), and cleared halts it at a boundary with
an empty buffer; CORE_RESET puts everything back with a count; BRL_STEP over a NOP halts one further, and over an
undefined word faults with cause 1; writes of MBOX_IN and IRQ_PEND and the timer pend their vectors; a host write of C
memory is done while the core stands still and otherwise rejected. (R269, R272, R273, R289, R290, R291, R292, R296) -/
def Obligations.BerylCoreCommandsComplete : Prop :=
  (∀ (s : State) (k : Fin 4) (v : Nat), Up s → brlVector s k = some v → domOn s (1 + k) = true →
    flag s (F.BRL_CTRL_RUN k) = true → (brlCore s k).halt = false → bitOf (brlCore s k).sr 31 = true →
    (brlCore s k).slots = 0 → (brlCore s k).iter = 0 →
    (brlState s k = 1 ∧ loopsAllow (brlCore s k) = true) ∨ brlState s k = 3 → Completes (.interruptTake k) s fun t =>
      MemorySame s t ∧
      if 8 ≤ (brlCore s k).stack.length then CoreFaulted s t k 4
      else brlState t k = 1 ∧ brlPc t k = 4 * v ∧ getB t (R.BRL_IRQ_PEND k) v = false ∧
        bitOf (brlCore t k).sr 31 = false ∧ ∃ e, (brlCore t k).stack = (brlCore s k).stack ++ [e] ∧ e.addr = brlPc s k) ∧
  (∀ (s : State) (k : Fin 4) (x : BrlStore) (rest : List BrlStore), Up s → (brlCore s k).stores = x :: rest →
    (∀ a, x.target = .dram a → matrixDramRefused s (.beryl k) a 4 = none → Completes (.windowWriteComplete k) s fun t =>
      (brlCore t k).stores = rest ∧ t.arrays = s.arrays ∧
      (∀ b, b < a ∨ a + 4 ≤ b → readByte t.dram b = readByte s.dram b) ∧
      (s.badWords = [] → dramRead t a 4 = wordBytes x.data)) ∧
    (∀ a kind, x.target = .dram a → matrixDramRefused s (.beryl k) a 4 = some kind →
      Completes (.windowWriteComplete k) s fun t =>
        (brlCore t k).stores = rest ∧ getB t (R.BRL_IRQ_PEND k) 13 = true ∧ t.arrays = s.arrays ∧
        (dramUsable s = false → MemorySame s t) ∧ MemoryBut a 4 s t ∧
        (guardOk s 10 a 4 true = false → MemoryBut 0 0 s t) ∧
        (rd t (R.BRL_ERR_COUNT k)).toNat = min ((rd s (R.BRL_ERR_COUNT k)).toNat + 1) 0xFFFFFFFF) ∧
    Completes (.windowAccessError k none) s fun t =>
      (brlCore t k).stores = rest ∧ MemorySame s t ∧ getB t (R.BRL_IRQ_PEND k) 13 = true ∧
      (rd t (R.BRL_ERR_COUNT k)).toNat = min ((rd s (R.BRL_ERR_COUNT k)).toNat + 1) 0xFFFFFFFF) ∧
  (∀ (s : State) (k : Fin 4) (x : BrlAccess) (w : BrlTarget), Up s → CoreRuns s k (.load x) →
    brlPlace s k x.y (brlEa (brlCore s k) x.p x.mode x.disp.toInt).addr = .window w → Landed s k x.d →
    Completes (.windowAccessError k (some x)) s fun t =>
      seenAfter t k 1 x.d % 2 ^ 32 = 0 ∧ MemorySame s t ∧ getB t (R.BRL_IRQ_PEND k) 13 = true ∧
      (rd t (R.BRL_ERR_COUNT k)).toNat = min ((rd s (R.BRL_ERR_COUNT k)).toNat + 1) 0xFFFFFFFF) ∧
  (∀ (s : State) (k : Fin 4), Up s → domOn s (1 + k) = true →
    (brlState s k = 0 → Completes (.brlRunWrite k true) s fun t =>
      brlState t k = 1 ∧ brlPc t k = 0 ∧ getF t (F.BRL_CTRL_RUN k) = 1 ∧ MemorySame s t) ∧
    (brlState s k = 1 → (brlCore s k).stores = [] → (brlCore s k).slots = 0 → (brlCore s k).iter = 0 →
      Completes (.brlRunWrite k false) s fun t =>
        brlState t k = 2 ∧ getF t (F.BRL_CTRL_RUN k) = 0 ∧ (brlCore t k).flight = [] ∧ MemorySame s t) ∧
    (brlState s k = 2 → (brlCore s k).slots = 0 → (brlCore s k).iter = 0 → (brlCore s k).levels = [] →
      (brlCore s k).stores = [] → flag s (F.BRL_CTRL_RUN k) = false →
      brlDecode (cWord s k (brlPc s k)) = some .nop → Completes (.brlStep k) s fun t =>
        brlState t k = 2 ∧ brlPc t k = (brlPc s k + 1) % 32768 ∧ MemorySame s t) ∧
    (brlState s k = 2 → brlDecode (cWord s k (brlPc s k)) = none →
      Completes (.brlStep k) s fun t => CoreFaulted s t k 1) ∧
    (getR s (R.BRL_TIMER k) ≠ 0 → Completes (.brlTimerExpiry k) s fun t =>
      getB t (R.BRL_IRQ_PEND k) 12 = true ∧ MemorySame s t) ∧
    (∀ value, Completes (.brlMboxInWrite k value) s fun t =>
      rd t (R.BRL_MBOX_IN k) = value ∧ getB t (R.BRL_IRQ_PEND k) 14 = true ∧ MemorySame s t) ∧
    ∀ (index : Fin 32768) (data : Word), Completes (.hostCMemoryWrite k index data) s fun t =>
      if brlState s k = 0 ∨ brlState s k = 2 ∨ brlState s k = 4 then
        arrGet t .brlC (1 + k) (0x10000 * k + index) = data.setWidth 64 ∧ RegsSameBut [] s t ∧
        ∀ a, readByte t.dram a = readByte s.dram a
      else getF t (F.BRL_STATUS_HOST_REJECT k) = 1 ∧ RegsSameBut [R.BRL_STATUS k] s t ∧ MemorySame s t) ∧
  (∀ (s : State) (k : Fin 4) (vectors : BitVec 16), Up s → Completes (.brlIrqPendWrite k vectors) s fun t =>
    (∀ v, 0 < v → v < 16 → vectors.getLsbD v = true → getB t (R.BRL_IRQ_PEND k) v = true) ∧ MemorySame s t ∧
    RegsSameBut [R.BRL_IRQ_PEND k, R.BRL_IRQ_MERGE_COUNT k, R.BRL_STATUS k] s t) ∧
  (∀ (s : State) (k : Fin 4), Up s → Completes (.coreReset k) s fun t =>
    brlState t k = 0 ∧ brlPc t k = 0 ∧ getF t (F.BRL_CTRL_RUN k) = 0 ∧ getR t (R.BRL_IRQ_PEND k) = 0 ∧
    brlCore t k = {} ∧ (∀ j, j ≠ k.val → brlCore t j = brlCore s j) ∧ MemorySame s t ∧
    (rd t R.MTX_RESET_COUNT).toNat = min ((rd s R.MTX_RESET_COUNT).toNat + 1) 0xFFFFFFFF)

/-- Reads and writes of registers over the bus matrix. On a block that is up: REGISTER_WRITE with fewer than four byte enables
changes nothing; one by a master that does not reach the target changes no memory and is answered with an error response
but to the host; one to a register of the STR_, YDX_, TWN_ and HLT_ blocks that holds no pair acts by the access codes of
its fields and changes nothing else, but that a write of HLT_FAULT_MASK may record the first fault; the low word of a
ring's base does not count until its high word is written. RC_REGISTER_READ gives the addressed bytes and clears the read-
to-clear bits alone; PAIR_LOW_WORD_READ gives the low word and keeps the high word for the requester. MIRRORED_SET_WRITE
on a chip in UNSYNCED to SYNCED counts a rejection and changes nothing else, and on an untwinned chip stores an
unprotected word of the weight store. MATRIX_TIMEOUT after MTX_TIMEOUT cycles counts one, two for firmware, which tries
twice (log entry 58), and MATRIX_LATE_RESPONSE counts one. How a pair's low word waits for its high word is the model's
reading (log entry 17), and so is that a standby's own writes to the mirrored set are rejected from UNSYNCED on (log entry
36). A command of the debug master needs TEST_MODE high; without it a write changes nothing. (R7, R8, R9, R10, R371, R375,
R376, R461, R455) -/
def Obligations.RegisterAccessCompletes : Prop :=
  (∀ (s : State) (m : Master) (addr : BitVec 26) (v : Word) (a : Nat), Sends s m → a = addr.toNat / 4 * 4 →
    (∀ be : BitVec 4, be ≠ 0xF → Completes (.registerWrite m addr v be) s fun t => t = s) ∧
    (∀ kind, writeRefused s m a = some kind → m ≠ .host → Completes (.registerWrite m addr v 0xF) s fun t =>
      .errorResponse m a ∈ t.out ∧ MemorySame s t) ∧
    (0x1700000 ≤ a → a < 0x1A00000 → a ≠ R.HLT_FAULT → a ≠ R.HLT_FAULT_MASK → isPairLow a = false → isPairLow (a - 4) = false →
      writeRefused s m a = none → Completes (.registerWrite m addr v 0xF) s fun t =>
        rd t a = codedWord a (rd s a) v ∧ RegsSameBut [a] s t ∧ MemorySame s t ∧ t.out = s.out) ∧
    (a = R.HLT_FAULT_MASK → writeRefused s m a = none → Completes (.registerWrite m addr v 0xF) s fun t =>
      rd t a = codedWord a (rd s a) v ∧ MemorySame s t ∧
      RegsSameBut [a, R.HLT_FIRST, R.HLT_FIRST_TIME_LO, R.HLT_FIRST_TIME_HI] s t ∧
      (faultDriven s = true → RegsSameBut [a] s t)) ∧
    (∀ n : Fin 4096, writeRefused s m a = none →
      (a = R.DMA_RING_BASE_LO n → Completes (.registerWrite m addr v 0xF) s fun t =>
        getPair t a = getPair s a ∧ rd t a = codedWord a (rd s a) v ∧ RegsSameBut [a] s t ∧ MemorySame s t) ∧
      (a = R.DMA_RING_BASE_LO n + 4 → Completes (.registerWrite m addr v 0xF) s fun t =>
        getPair t (R.DMA_RING_BASE_LO n) = getR s (R.DMA_RING_BASE_LO n) + (codedWord a (rd s a) v).toNat * 2 ^ 32 ∧
        RegsSameBut [a] s t ∧ MemorySame s t))) ∧
  (∀ (s : State) (m : Master) (addr : BitVec 26) (a tgt : Nat), Sends s m → a = addr.toNat / 4 * 4 → targetOf a = some tgt →
    reaches m tgt = true → arrayAt a = none → (arrayDomain a).all (domOn s) = true → a ≠ R.MEM_PANIC_TIME →
    (∀ be : BitVec 4, isPairLow a = false → isPairLow (a - 4) = false → privileged m = true ∨ hiddenBits s a = 0 →
      Completes (.rcRegisterRead m addr be) s fun t =>
        t.out = s.out ++ [.readData m a (shown s a &&& byteMask be)] ∧ rd t a = rd s a &&& ~~~(accMask a .rc) ∧
        RegsSameBut [a] s t ∧ MemorySame s t) ∧
    (isPairLow a = true → Completes (.pairLowWordRead m addr) s fun t =>
      t.out = s.out ++ [.readData m a (shown s a)] ∧
      t.pairLatch.find (16 * a + masterCode m) = some (shown s (a + 4)) ∧ RegsSameBut [] s t ∧ MemorySame s t)) ∧
  (∀ (s : State) (m : Master) (addr : BitVec 26) (v : Word), Sends s m →
    (1 ≤ twinState s → twinState s ≤ 4 → weightRefused s m (addr.toNat / 4 * 4) = none →
      Completes (.mirroredSetWrite m true addr v) s fun t =>
        (rd t R.TWN_MIRROR_REJECT_COUNT).toNat = min ((rd s R.TWN_MIRROR_REJECT_COUNT).toNat + 1) 0xFFFFFFFF ∧
        RegsSameBut [R.TWN_MIRROR_REJECT_COUNT] s t ∧ MemorySame s t) ∧
    (twinState s = 0 → weightRefused s m (addr.toNat / 4 * 4) = none →
      (∀ i, i < 4 → weightProtected s (addr.toNat / 4 * 4 + i) = false) →
      Completes (.mirroredSetWrite m true addr v) s fun t =>
        (∀ i, i < 4 → arrGet t .weight (beamDomain (weightBeam (addr.toNat / 4 * 4))) (addr.toNat / 4 * 4 + i) =
          ((wordBytes v).getD i 0).setWidth 64) ∧ RegsSameBut [] s t ∧ ∀ a, readByte t.dram a = readByte s.dram a)) ∧
  (∀ (s : State) (m : Master) (addr : BitVec 26) (write : Bool) (waited : Nat), Sends s m →
    (targetOf (addr.toNat / 4 * 4)).isSome = true → matrixLimit s ≤ waited →
    Completes (.matrixTimeout m addr ⟨write, waited⟩) s fun t =>
      (rd t R.MTX_TIMEOUT_COUNT).toNat = min ((rd s R.MTX_TIMEOUT_COUNT).toNat +
        if m = .supervisor ∨ m = .timekeeper then 2 else 1) 0xFFFFFFFF ∧
      (∀ b, readByte t.dram b = readByte s.dram b) ∧
      (write = true ∨ (∀ k, m ≠ .beryl k) → MemorySame s t) ∧
      (m = .host → write = false → .readData .host (addr.toNat / 4 * 4) 0xFFFFFFFF ∈ t.out) ∧
      (m ≠ .host → .errorResponse m (addr.toNat / 4 * 4) ∈ t.out)) ∧
  (∀ s : State, Up s → Completes .matrixLateResponse s fun t =>
    (rd t R.MTX_LATE_RESP_COUNT).toNat = min ((rd s R.MTX_LATE_RESP_COUNT).toNat + 1) 0xFFFFFFFF ∧
    RegsSameBut [R.MTX_LATE_RESP_COUNT] s t ∧ MemorySame s t) ∧
  (∀ (s : State) (addr : BitVec 26) (v : Word) (be : BitVec 4), Up s → flag s F.PWR_BOOT_TEST_MODE = false →
    Completes (.registerWrite .debug addr v be) s fun t => t = s)

/-- Sub-word writes of registers are ignored, and sub-word reads give the addressed bytes. On a block that is up a register
write with fewer than four byte enables leaves the state as it was; a read of a register with any byte enables gives those
bytes of the word that a read of the whole register gives, and has the same effect on the registers, which R7 does not say
of a field that a read clears (the model's choice, log entry 17). A command of the debug master needs TEST_MODE high. (R7) -/
def Obligations.SubWordAccess : Prop :=
  ∀ (s : State) (m : Master) (addr : BitVec 26) (v : Word) (be : BitVec 4), Sends s m →
    (be ≠ 0xF → Machine.exec (.registerWrite m addr v be) s = .next s) ∧
    ∀ (t : State) (w : Word), Machine.exec (.rcRegisterRead m addr 0xF) s = .next t →
      t.out.getLast? = some (.readData m (addr.toNat / 4 * 4) w) → Completes (.rcRegisterRead m addr be) s fun t' =>
        t'.out.getLast? = some (.readData m (addr.toNat / 4 * 4) (w &&& byteMask be)) ∧ t'.regs = t.regs

/-- Enabling, stopping, resuming and ringing descriptor rings. On a block that is up with PCIe powered: DMA_RING_ENABLE takes
a DISABLED ring to IDLE with its fields and an empty list, and only what a later barrier has to confirm stays (R366);
DMA_RING_DISABLE takes a RUNNING ring to STOPPED with ABORTED and any other to DISABLED; DMA_RING_RESUME takes a STOPPED
ring to IDLE unless fetching is stopped; DMA_DOORBELL starts an idle ring without anchor with the fetch of the descriptor
at HEAD, notes itself on a running one, and counts on any other; CTRL_REFETCHED with END leaves the ring idle with a count
and without END starts it; FETCH_ERROR stops every running ring and records the address; FETCH_STOP_CLEAR clears
FETCH_STOP and lets a running ring that has nothing to execute fetch (log entry 57); HOST_RESET puts every DMA_ register,
every ring and the configuration space back (log entries 33 and 56) and releases the two ports of the host and DMA masters
with two counts (R377). No memory changes. (R354, R362, R363, R364, R366, R368, R369, R377) -/
def Obligations.DmaRingCommandsComplete : Prop :=
  (∀ (s : State) (n : Fin 4096), Up s → domOn s 27 = true →
    (∀ (engine : Fin 32) (vector : Fin 2048) (sizeLog : Fin 16), flag s (F.DMA_RING_CTRL_EN n) = false → ringState s n = 0 →
      Completes (.dmaRingEnable n engine vector sizeLog) s fun t =>
        ringState t n = 1 ∧ dmaRing t n = { written := (dmaRing s n).written } ∧ getF t (F.DMA_RING_CTRL_EN n) = 1 ∧
        getF t (F.DMA_RING_CTRL_ENGINE n) = engine ∧ getF t (F.DMA_RING_CTRL_VECTOR n) = vector ∧
        getF t (F.DMA_RING_CTRL_SIZE_LOG n) = sizeLog ∧ getR t (R.DMA_RING_DONE n) = 0 ∧
        RegsSameBut [R.DMA_RING_CTRL n, R.DMA_RING_STATUS n, R.DMA_RING_DONE n] s t ∧ MemorySame s t) ∧
    (flag s (F.DMA_RING_CTRL_EN n) = true → Completes (.dmaRingDisable n) s fun t =>
      getF t (F.DMA_RING_CTRL_EN n) = 0 ∧ ringEmpty t n = true ∧ MemorySame s t ∧
      if ringState s n = 2 then ringState t n = 3 ∧ getF t (F.DMA_RING_STATUS_CODE n) = 6 else ringState t n = 0) ∧
    (ringState s n = 3 → Completes (.dmaRingResume n) s fun t =>
      getF t (F.DMA_RING_CTRL_EN n) = 1 ∧ MemorySame s t ∧
      if flag s F.DMA_STATUS_FETCH_STOP = true then ringState t n = 3 else ringState t n = 1 ∧ dmaRing t n = { written := (dmaRing s n).written }) ∧
    (ringState s n = 1 → flag s F.DMA_STATUS_FETCH_STOP = false → flag s (F.DMA_RING_STATUS_ANCHOR_VALID n) = false →
      ringEmpty s n = true → Completes (.dmaDoorbell n) s fun t =>
        ringState t n = 2 ∧ (dmaRing t n).fetching = true ∧
        t.out = s.out ++ [.hostRead (descHostAddr s n (ringHead s n)) 64] ∧
        RegsSameBut [R.DMA_RING_STATUS n] s t ∧ MemorySame s t) ∧
    (ringState s n = 2 → Completes (.dmaDoorbell n) s fun t =>
      (dmaRing t n).pending = true ∧ RegsSameBut [] s t ∧ MemorySame s t ∧ t.out = s.out) ∧
    (ringState s n ≠ 1 → ringState s n ≠ 2 → Completes (.dmaDoorbell n) s fun t =>
      (rd t R.DMA_DOORBELL_NOP_COUNT).toNat = min ((rd s R.DMA_DOORBELL_NOP_COUNT).toNat + 1) 0xFFFFFFFF ∧
      RegsSameBut [R.DMA_DOORBELL_NOP_COUNT] s t ∧ MemorySame s t ∧ t.dma = s.dma) ∧
    (∀ ctrl : Word, (dmaRing s n).refetch ≠ 0 → (dmaRing s n).fetching = false → (dmaRing s n).descs = [] →
      ringState s n = 1 ∨ ringState s n = 2 → Completes (.ctrlRefetched n ctrl) s fun t =>
        MemorySame s t ∧
        if ctrl.getLsbD 0 = true then ringState t n = 1 ∧
          (rd t R.DMA_DOORBELL_NOP_COUNT).toNat = min ((rd s R.DMA_DOORBELL_NOP_COUNT).toNat + 1) 0xFFFFFFFF
        else ringState t n = 2 ∧
          (flag s F.DMA_STATUS_FETCH_STOP = false → (dmaRing t n).fetching = true))) ∧
  (∀ (s : State) (addr : DWord), Up s → domOn s 27 = true → Completes (.fetchError addr) s fun t =>
    getF t F.DMA_STATUS_FETCH_STOP = 1 ∧ getPair t R.DMA_ERR_ADDR_LO = addr.toNat ∧ 29 ∈ t.pulses ∧
    getB t R.HLT_FAULT 15 = true ∧ MemorySame s t ∧
    (rd t R.DMA_FETCH_ERR_COUNT).toNat = min ((rd s R.DMA_FETCH_ERR_COUNT).toNat + 1) 0xFFFFFFFF ∧
    ∀ n : Fin 4096, ringState s n = 2 →
      ringState t n = 3 ∧ getF t (F.DMA_RING_STATUS_CODE n) = 5 ∧ ringEmpty t n = true) ∧
  (∀ s : State, Up s → Completes .fetchStopClear s fun t =>
    getF t F.DMA_STATUS_FETCH_STOP = 0 ∧ RegsSameBut [R.DMA_STATUS] s t ∧ MemorySame s t ∧
    ∀ n : Fin 4096, (ringState s n ≠ 2 → dmaRing t n = dmaRing s n) ∧
      (ringState s n = 2 → domOn s 27 = true → (s.dma.find n).isSome = true → (dmaRing s n).descs = [] →
        (dmaRing t n).fetching = true)) ∧
  (∀ s : State, Up s → Completes .hostReset s fun t =>
    t.dma = [] ∧ t.pcie = {} ∧ t.cmp.current = none ∧ t.cmp.queue = [] ∧ getF t F.CMP_STATUS_BUSY = 0 ∧
    (∀ a, 0x1200000 ≤ a → a < 0x1300000 → rd t a = resetWord a) ∧ MemorySame s t ∧
    (rd t R.MTX_RESET_COUNT).toNat = min ((rd s R.MTX_RESET_COUNT).toNat + 2) 0xFFFFFFFF)

/-- Descriptors and their data, transfer errors, and BAR 2. On a block that is up with PCIe powered: DESCRIPTOR_FETCHED joins
a descriptor to a running ring and moves HEAD on, a good one begins at once where none is in execution, and a bad one
stops the ring with its code; DESCRIPTOR_COMPLETE of a device-to-host descriptor in execution writes its bytes to the host
and counts it done, of a host-to-device one counts it done and, as the last of its ring, stores the bytes at its addresses
and nowhere else; DMA_DATA_ERROR stops the ring with the code of its kind; a BAR 2 read gives the bytes, or all ones with
a count where the memory does not give them and a guard count where the guard refuses, a BAR 2 write stores the enabled
bytes, and a configuration request of the endpoint is answered or sets Relaxed Ordering (log entry 56). (R302, R353, R360,
R361, R363, R365, R366, R368) -/
def Obligations.DmaTransfersComplete : Prop :=
  (∀ (s : State) (n : Fin 4096) (bytes : List Byte) (d : DmaDesc), Up s → domOn s 27 = true → (dmaRing s n).fetching = true →
    ringState s n = 2 → bytes.length = 64 → d = ⟨ringHead s n, bytes⟩ → Completes (.descriptorFetched n bytes) s fun t =>
      ((dmaRing s n).descs ≠ [] →
        (dmaRing t n).descs = (dmaRing s n).descs ++ [d] ∧ ringState t n = 2 ∧
        ringHead t n = (ringHead s n + 1) % ringSize s n ∧ MemorySame s t) ∧
      ((dmaRing s n).descs = [] → d.bad = true →
        MemorySame s t ∧ ringState t n = 3 ∧ getF t (F.DMA_RING_STATUS_CODE n) = 1 ∧ ringHead t n = ringHead s n) ∧
      ((dmaRing s n).descs = [] → d.bad = false → descDomainOff s d = false → descRefused s d = false → d.kind ≠ 3 →
        MemorySame s t ∧ (dmaRing t n).descs = [d] ∧ (dmaRing t n).begun = true ∧ ringState t n = 2 ∧ ringHead t n = (ringHead s n + 1) % ringSize s n ∧
        getF t (F.DMA_ENGINE_BUSY (getF s (F.DMA_RING_CTRL_ENGINE n))) = 1)) ∧
  (∀ (s : State) (n : Fin 4096) (data : List Byte) (d : DmaDesc) (rest : List DmaDesc), Up s → domLive s 27 = true →
    ringState s n = 2 → (dmaRing s n).descs = d :: rest →
    (d.kind = 0 → (dmaRing s n).begun = true → Completes (.descriptorComplete n data) s fun t =>
      .hostWrite d.host (descRead s d.addrs) (descRelaxed s d) ∈ t.out ∧
      getR t (R.DMA_RING_DONE n) = (getR s (R.DMA_RING_DONE n) + 1) % 2 ^ 32 ∧
      (rest = [] → badLines s d.addrs = [] → MemorySame s t)) ∧
    (d.kind = 1 → (dmaRing s n).begun = true → s.badWords = [] → data.length = d.addrs.length → Completes (.descriptorComplete n data) s fun t =>
      getR t (R.DMA_RING_DONE n) = (getR s (R.DMA_RING_DONE n) + 1) % 2 ^ 32 ∧ t.arrays = s.arrays ∧
      (∀ a, rest = [] → a ∉ d.addrs → readByte t.dram a = readByte s.dram a) ∧
      (rest = [] → d.addrs.Nodup → ∀ i, i < data.length → readByte t.dram (d.addrs.getD i 0) = data.getD i 0))) ∧
  (∀ (s : State) (n : Fin 4096) (kind : Fin 7), Up s → ringState s n = 2 → (dmaRing s n).descs ≠ [] → (dmaRing s n).begun = true → kind.val ≠ 0 →
    Completes (.dmaDataError n kind) s fun t =>
      ringState t n = 3 ∧ getF t F.DMA_ERR_INFO_KIND = kind ∧ ringEmpty t n = true ∧ MemorySame s t ∧
      getF t (F.DMA_RING_STATUS_CODE n) = (if kind.val ≤ 4 then 3 else if kind.val = 5 then 2 else 4) ∧
      getB t R.HLT_FAULT 15 = true ∧
      (rd t R.DMA_DATA_ERR_COUNT).toNat = min ((rd s R.DMA_DATA_ERR_COUNT).toNat + 1) 0xFFFFFFFF) ∧
  (∀ (s : State) (x : BitVec 34) (k : Nat), Up s → domOn s 27 = true →
    (∀ bs : List Byte, unitRead s 10 (bar2Addr s x.toNat) k = some bs → Completes (.bar2Access x (.read k)) s fun t =>
      t.out = s.out ++ [.memData x.toNat bs] ∧ RegsSameBut ((List.range 16).map R.MEM_STATE) s t ∧ MemorySame s t) ∧
    (unitRead s 10 (bar2Addr s x.toNat) k = none → Completes (.bar2Access x (.read k)) s fun t =>
      .memData x.toNat (List.replicate k 0xFF) ∈ t.out ∧ MemoryBut 0 0 s t ∧ t.arrays = s.arrays ∧
      (dramUsable s = true → guardOk s 10 (bar2Addr s x.toNat) k false = false →
        (rd t R.MEM_GUARD_COUNT).toNat = min ((rd s R.MEM_GUARD_COUNT).toNat + 1) 0xFFFFFFFF) ∧
      (rd t R.DMA_BAR2_ERR_COUNT).toNat = min ((rd s R.DMA_BAR2_ERR_COUNT).toNat + 1) 0xFFFFFFFF) ∧
    (∀ bs : List (Option Byte), dramUsable s = true → guardOk s 10 (bar2Addr s x.toNat) bs.length true = true → s.badWords = [] →
      Completes (.bar2Access x (.write bs)) s fun t =>
        (∀ i v, bs[i]? = some (some v) → readByte t.dram (bar2Addr s x.toNat + i) = v) ∧
        (∀ a, (∀ i v, bs[i]? = some (some v) → a ≠ bar2Addr s x.toNat + i) → readByte t.dram a = readByte s.dram a) ∧
        t.arrays = s.arrays ∧ RegsSameBut ((List.range 16).map R.MEM_STATE) s t) ∧
    (∀ f : PcieField, Completes (.bar2Access x (.configRead f)) s fun t =>
      t.out = s.out ++ [.configData f (pcieRead s f)] ∧ RegsSameBut [] s t ∧ MemorySame s t) ∧
    ∀ v : Nat, Completes (.bar2Access x (.configWrite .relaxedOrdering v)) s fun t =>
      t.pcie = { s.pcie with relaxedOrdering := v % 2 == 1 } ∧ RegsSameBut [] s t ∧ MemorySame s t)

/-- Routing events, consumers, pins, timers and register slices. On a block that is up: EVENT_ROUTE takes the pulses it names
out of the waiting ones, counts equal ones as merged and fires an enabled channel wired to one of them;
CONSUMER_ACTIVATION of an enabled input whose mask holds a channel fired in the cycle before is noted once, drops where
its domain is off with a count, and otherwise pends a core's vector, enables a group or takes a stamp, as its number says;
EVT_SW_FIRE, and EVT_TIMER_EXPIRY once the period is over, raise their events; EVIO_EDGE that passes the filter is stamped
and raises its event, and one too soon counts one; EVIO_PULSE_END, WIDTH core cycles after the activation, drives the pin
back; MTX_SLICE_WRITE and SLICE_APPLY set the slices and PENDING. The moment of a routing, the times that the rows bring,
and the values beyond a field's range follow log entries 34, 58 and 18. Memory stays as it was. (R374, R378, R379, R380,
R381, R382, R387, R388, R389) -/
def Obligations.EventCommandsComplete : Prop :=
  (∀ (s : State) (n k c : Nat), Up s → Completes (.eventRoute n k) s fun t =>
    t.pulses = s.pulses.drop k ∧ MemorySame s t ∧
    (rd t R.EVT_SRC_MERGE_COUNT).toNat = min ((rd s R.EVT_SRC_MERGE_COUNT).toNat +
      ((s.pulses.take k).length - (s.pulses.take k).eraseDups.length)) 0xFFFFFFFF ∧
    (c < 64 → getF s (F.EVT_CH_CFG_SOURCE c) ∈ s.pulses.take k → flag s F.EVT_CTRL_EN = true →
      flag s (F.EVT_CH_CFG_EN c) = true → groupEnabled s n (c / 8) = true → s.evt.lastFire.find c = none →
      (n, c) ∈ t.evt.fired ∧ getPairB t R.EVT_FLAG_LO c = true ∧
      (rd t (R.EVT_CH_COUNT c)).toNat = min ((rd s (R.EVT_CH_COUNT c)).toNat + 1) 0xFFFFFFFF)) ∧
  (∀ (s : State) (m c : Nat) (i : Fin 96), Up s → c < 64 → getPairB s (R.EVT_CON_MASK_LO i) c = true →
    (m - 1, c) ∈ s.evt.fired → 1 ≤ m → (m, i.val) ∉ s.evt.active → flag s (F.EVT_CON_CFG_EN i) = true →
    Completes (.consumerActivation m i) s fun t =>
      (m, i.val) ∈ t.evt.active ∧
      (domOn s (consumerDomain i) = false → MemorySame s t ∧
        (rd t R.EVT_OFF_DROP_COUNT).toNat = min ((rd s R.EVT_OFF_DROP_COUNT).toNat + 1) 0xFFFFFFFF) ∧
      (i.val < 16 → domOn s (consumerDomain i) = true →
        getB t (R.BRL_IRQ_PEND (i.val / 4)) (8 + i.val % 4) = true ∧ MemorySame s t) ∧
      (48 ≤ i.val → i.val < 56 → (m, i.val + 8) ∉ s.evt.active →
        getB t R.EVT_GROUP_EN (i.val - 48) = true ∧ MemorySame s t) ∧
      (56 ≤ i.val → i.val < 64 → getB t R.EVT_GROUP_EN (i.val - 56) = false ∧ MemorySame s t) ∧
      (72 ≤ i.val → i.val < 80 → getPair t (R.EVT_STAMP_LO (i.val - 72)) = s.counter.toNat ∧ MemorySame s t)) ∧
  (∀ (s : State) (bits : BitVec 16), Up s → Completes (.evtSwFire bits) s fun t =>
    (∀ k, k < 16 → bits.getLsbD k = true → (96 + k) ∈ t.pulses) ∧ RegsSameBut [] s t ∧ MemorySame s t) ∧
  (∀ (s : State) (k : Fin 8) (elapsed : Nat), Up s → getR s (R.EVT_TIMER k) ≠ 0 → getR s (R.EVT_TIMER k) ≤ elapsed →
    Completes (.evtTimerExpiry ⟨k, elapsed⟩) s fun t =>
    t.pulses = s.pulses ++ [112 + k.val] ∧ RegsSameBut [] s t ∧ MemorySame s t) ∧
  (∀ (s : State) (k : Fin 8) (rising : Bool) (time cycle held : Nat), Up s → time < 2 ^ 64 →
    flag s (F.EVT_EVIO_CFG_DIR k) = false → max 2 (getF s (F.EVT_EVIO_CFG_FILTER k)) ≤ held →
    bitOf (getF s (F.EVT_EVIO_CFG_EDGE k)) (if rising = true then 0 else 1) = true →
    Completes (.evioEdge k rising time cycle held) s fun t =>
      MemorySame s t ∧
      (∀ p, s.evt.lastEdge.find k = some p → cycle < p + getF s (F.EVT_EVIO_CFG_MIN_PERIOD k) →
        RegsSameBut [R.EVT_EVIO_FAST_COUNT k] s t ∧ t.pulses = s.pulses ∧
        (rd t (R.EVT_EVIO_FAST_COUNT k)).toNat = min ((rd s (R.EVT_EVIO_FAST_COUNT k)).toNat + 1) 0xFFFFFFFF) ∧
      ((∀ p, s.evt.lastEdge.find k = some p → p + getF s (F.EVT_EVIO_CFG_MIN_PERIOD k) ≤ cycle) →
        getPair t (R.EVT_EVIO_STAMP_LO k) = time ∧ t.pulses = s.pulses ++ [32 + k.val])) ∧
  (∀ (s : State) (k : Fin 8) (cycle m : Nat), Up s → s.evt.pulsing.find k = some m →
    2 * m + max 1 (getR s (R.EVT_EVIO_WIDTH k)) ≤ cycle → Completes (.evioPulseEnd ⟨k, cycle⟩) s fun t =>
    t.evt.pulsing.find k = none ∧ RegsSameBut [] s t ∧ MemorySame s t ∧
    t.out = s.out ++ [.pin ("EVIO_" ++ toString k.val) (flag s (F.EVT_EVIO_CFG_ACTIVE_LOW k))]) ∧
  (∀ (s : State) (pcie dram : Fin 4), Up s → Completes (.mtxSliceWrite pcie dram) s fun t =>
    getF t F.MTX_SLICE_PCIE_OUT = pcie ∧ getF t F.MTX_SLICE_DRAM = dram ∧ t.evt.slices = s.evt.slices ∧
    getF t F.MTX_SLICE_PENDING = ofBool (s.evt.slices != (min 2 pcie.val, min 2 dram.val)) ∧
    RegsSameBut [R.MTX_SLICE] s t ∧ MemorySame s t) ∧
  (∀ s : State, Up s → Completes .sliceApply s fun t =>
    getF t F.MTX_SLICE_PENDING = 0 ∧
    t.evt.slices = (min 2 (getF s F.MTX_SLICE_PCIE_OUT), min 2 (getF s F.MTX_SLICE_DRAM)) ∧
    RegsSameBut [R.MTX_SLICE] s t ∧ MemorySame s t)

/-- A channel admits one firing per RATE cycles, and a pulse that comes sooner sets its bit. On a block that is up, for an
enabled channel whose source pulse is routed in a cycle: within RATE cycles of its last admitted firing the pulse is
dropped, the channel's bit in the rate-limited registers is set and its last firing stays the same; from then on it fires,
and that cycle is its last firing. (R384) -/
def Obligations.RateLimitedChannels : Prop :=
  ∀ (s : State) (n k c p : Nat), Up s → c < 64 → getF s (F.EVT_CH_CFG_SOURCE c) ∈ s.pulses.take k →
    flag s F.EVT_CTRL_EN = true → flag s (F.EVT_CH_CFG_EN c) = true → groupEnabled s n (c / 8) = true →
    s.evt.lastFire.find c = some p → Completes (.eventRoute n k) s fun t =>
      (n < p + max 1 (getF s (F.EVT_CH_CFG_RATE c)) →
        getPairB t R.EVT_RATE_LIMITED_LO c = true ∧ t.evt.lastFire.find c = some p ∧
        ((n, c) ∉ s.evt.fired → (n, c) ∉ t.evt.fired) ∧ rd t (R.EVT_CH_COUNT c) = rd s (R.EVT_CH_COUNT c)) ∧
      (p + max 1 (getF s (F.EVT_CH_CFG_RATE c)) ≤ n →
        t.evt.lastFire.find c = some n ∧ (n, c) ∈ t.evt.fired ∧ getPairB t R.EVT_FLAG_LO c = true)

/-- Every MAC operation saturates each of its accumulators symmetrically and sets AV. Where a core runs a MAC operation and no
write of its accumulators or of SR is in the pipeline, each accumulator it works on is the exact sum limited to 2^39 − 1
in magnitude, each on its own, and AV is set where either was limited. (R279) -/
def Obligations.AccumulatorsSaturate : Prop :=
  (∀ (s : State) (k acc : Fin 4) (rs rt : Fin 16) (c : Instr) (m : BrlMac) (x : Int), Up s →
    (c, m) ∈ [(Instr.mac k acc rs rt, BrlMac.mac), (.msu k acc rs rt, .msu)] →
    x = (brlCore s k).acc acc + (macTerms m ((brlCore s k).slot rs) ((brlCore s k).slot rt)).1 →
    Landed s k (64 + acc) → Landed s k 52 → CoreRuns s k (.pm (some m) acc rs rt ⟨.none, .none⟩) →
    Completes c s fun t =>
      toSigned 40 (seenAfter t k 0 (64 + acc)) = max (-(2 ^ 39 - 1)) (min (2 ^ 39 - 1) x) ∧
      (x < -(2 ^ 39 - 1) ∨ 2 ^ 39 - 1 < x → bitOf (seenAfter t k 0 52) 6 = true)) ∧
  (∀ (s : State) (k : Fin 4) (p : Fin 2) (rs rt : Fin 16) (mv : BrlMoves) (c : Instr) (m : BrlMac) (x y : Int), Up s →
    (c, m) ∈ [(Instr.mac2 k p rs rt mv, BrlMac.mac2), (.msu2 k p rs rt mv, .msu2), (.cmac k p rs rt mv, .cmac),
      (.cmsu k p rs rt mv, .cmsu), (.cmacj k p rs rt mv, .cmacj), (.cmacz k p rs rt mv, .cmacz)] →
    x = (if m = .cmacz then 0 else (brlCore s k).acc (2 * p.val)) +
      (macTerms m ((brlCore s k).slot rs) ((brlCore s k).slot rt)).1 →
    y = (if m = .cmacz then 0 else (brlCore s k).acc (2 * p.val + 1)) +
      (macTerms m ((brlCore s k).slot rs) ((brlCore s k).slot rt)).2 →
    Landed s k (64 + 2 * p.val) → Landed s k (65 + 2 * p.val) → Landed s k 52 →
    CoreRuns s k (.pm (some m) (2 * p.val) rs rt mv) → Completes c s fun t =>
      toSigned 40 (seenAfter t k 0 (64 + 2 * p.val)) = max (-(2 ^ 39 - 1)) (min (2 ^ 39 - 1) x) ∧
      toSigned 40 (seenAfter t k 0 (65 + 2 * p.val)) = max (-(2 ^ 39 - 1)) (min (2 ^ 39 - 1) y) ∧
      (x < -(2 ^ 39 - 1) ∨ 2 ^ 39 - 1 < x ∨ y < -(2 ^ 39 - 1) ∨ 2 ^ 39 - 1 < y →
        bitOf (seenAfter t k 0 52) 6 = true))

/-- The compressor and the decompressor. On a block that is up with compression powered: COMPRESSOR_FREE gives the free
compressor to the ring that waits first, at the level the settings allow; CAPSULE_COMPLETE of a capsule that fits its
chain counts it and completes its descriptor, and of one that does not stops the ring with a count, the chain being what
the table's bytes spell, read entry by entry (log entry 57); DECOMPRESS_GO stores RAW and takes a job, or counts a refusal
while one runs; DECOMPRESS_JOB_END shows the outcome, and for a destination that its regions or the guard do not allow
GUARD with no output written. (R419, R420, R424, R425, R427, R428, R456) -/
def Obligations.CompressionCommandsComplete : Prop :=
  (∀ (s : State) (n : Fin 4096) (rest : List Nat) (level : Nat), Up s → domOn s 28 = true → s.cmp.current = none →
    s.cmp.queue = n.val :: rest →
    level = (if flag s F.PWR_STATUS_THROTTLE = true then min 3 (max 1 (min 9 (getF s F.CMP_CTRL_LEVEL)))
      else max 1 (min 9 (getF s F.CMP_CTRL_LEVEL))) → Completes .compressorFree s fun t =>
      t.cmp.current = some (n.val, level) ∧ t.cmp.queue = s.cmp.queue.filter (· != n.val) ∧
      getF t F.CMP_STATUS_BUSY = 1 ∧ getF t F.CMP_STATUS_RING = n ∧ RegsSameBut [R.CMP_STATUS] s t ∧ MemorySame s t) ∧
  (∀ (s : State) (n : Fin 4096) (table : List Byte) (bufs : List ChainEntry) (level : Nat) (d : DmaDesc) (rest : List DmaDesc)
      (ok flush : Bool) (body trailer : List Byte), Up s → domLive s 28 = true → ringState s n = 2 →
    s.cmp.current = some (n.val, level) → (dmaRing s n).descs = d :: rest → chainBuffers 256 (chainTable table) = (bufs, ok) →
    flush = flag s F.CMP_CTRL_FLUSH_PER_RUN →
    capsule level d.user flush (0 < (badLines s d.addrs).length) (descRead s d.addrs)
      (deflateStream level (max 1 (getF s F.CMP_CTRL_BLOCK_KIB)) (if flush = true then d.runs.map fun _ => d.len0 else [])
        (descRead s d.addrs)) = (body, trailer) →
    Completes (.capsuleComplete n table) s fun t =>
      (∀ i, i < bufs.length → .hostRead (d.host + 16 * i) 16 ∈ t.out) ∧
      (rest = [] → badLines s d.addrs = [] → MemorySame s t) ∧
      if ok = true ∧ body.length + trailer.length ≤ (bufs.map (·.len.toNat)).sum then
        (rd t R.CMP_CAPSULE_COUNT).toNat = min ((rd s R.CMP_CAPSULE_COUNT).toNat + 1) 0xFFFFFFFF ∧
        getR t (R.DMA_RING_DONE n) = (getR s (R.DMA_RING_DONE n) + 1) % 2 ^ 32
      else ringState t n = 3 ∧ getF t (F.DMA_RING_STATUS_CODE n) = 2 ∧
        (rd t R.CMP_CHAIN_FULL_COUNT).toNat = min ((rd s R.CMP_CHAIN_FULL_COUNT).toNat + 1) 0xFFFFFFFF) ∧
  (∀ (s : State) (raw : Bool), Up s → Completes (.decompressGo raw) s fun t =>
    MemorySame s t ∧ getF t F.CMP_DEC_CTRL_RAW = ofBool raw ∧
    if flag s F.CMP_STATUS_DEC_BUSY = true then
      (rd t R.CMP_DEC_REFUSED_COUNT).toNat = min ((rd s R.CMP_DEC_REFUSED_COUNT).toNat + 1) 0xFFFFFFFF ∧
      RegsSameBut [R.CMP_DEC_REFUSED_COUNT, R.CMP_DEC_CTRL] s t ∧ t.cmp = s.cmp
    else if domOn s 28 = false then t.cmp = s.cmp ∧ RegsSameBut [R.CMP_DEC_CTRL] s t
    else getF t F.CMP_STATUS_DEC_BUSY = 1 ∧
      t.cmp.job = some (getPair s R.CMP_DEC_SRC_LO, getR s R.CMP_DEC_SRC_LEN, getPair s R.CMP_DEC_DST_LO,
        getR s R.CMP_DEC_LIMIT, raw) ∧ RegsSameBut [R.CMP_DEC_CTRL, R.CMP_STATUS] s t) ∧
  (∀ (s : State) (a n dst limit : Nat) (raw : Bool), Up s → domLive s 28 = true →
    s.cmp.job = some (a, n, dst, limit, raw) → Completes .decompressJobEnd s fun t =>
      t.cmp.job = none ∧ getF t F.CMP_STATUS_DEC_BUSY = 0 ∧ getF t F.CMP_DEC_RESULT_DONE = 1 ∧ t.arrays = s.arrays ∧
      (decDestOk s dst limit = false → getF t F.CMP_DEC_RESULT_RESULT = 8 ∧ getR t R.CMP_DEC_OUT_LEN = 0 ∧
        (rd t R.CMP_DEC_FAIL_COUNT).toNat = min ((rd s R.CMP_DEC_FAIL_COUNT).toNat + 1) 0xFFFFFFFF ∧
        MemoryBut 0 0 s t ∧ (dramUsable s = false → MemorySame s t)) ∧
      (decDestOk s dst limit = true → raw = true →
        getF t F.CMP_DEC_RESULT_RESULT = (decRaw (decSource s a n) limit).1 % 16 ∧
        getR t R.CMP_DEC_OUT_LEN = (decRaw (decSource s a n) limit).2.length % 2 ^ 32 ∧
        MemoryBut dst (decRaw (decSource s a n) limit).2.length s t) ∧
      (decDestOk s dst limit = true → raw = false →
        getF t F.CMP_DEC_RESULT_RESULT = (decCapsule (decSource s a n) limit).1 % 16 ∧
        getF t F.CMP_DEC_RESULT_POISONED = ofBool (decCapsule (decSource s a n) limit).2.2 ∧
        getR t R.CMP_DEC_OUT_LEN = (decCapsule (decSource s a n) limit).2.1.length % 2 ^ 32 ∧
        MemoryBut dst (decCapsule (decSource s a n) limit).2.1.length s t))

/-- Power requests, transitions and temperature. On a block that is up: PWR_REQ_WRITE takes each changed request the rules
allow and leaves the others, and a domain that is the only one to change begins to power up; QUIESCE_COMPLETE opens the
switches of a domain whose work is done, and its arrays are lost; QUIESCE_TIMEOUT, PWR_QUIESCE_TIMEOUT having passed, does
so by force with a count; POWER_DOWN_COMPLETE and POWER_UP_COMPLETE count the transition, raise event 31 and show the
domain OFF or ON while the request stands, and the power-down of any domain but those of the memory leaves memory as it
was; THERMAL_SAMPLE shows the readings (which come with the row, log entry 46) and the highest since the register was last
read, sets and clears WARN and THROTTLE by their thresholds, and TRIP at 115 °C. A command of the debug master needs
TEST_MODE high. (R443, R445, R446, R447, R448, R455, R456, R457) -/
def Obligations.PowerDomainCommandsComplete : Prop :=
  (∀ (s : State) (m : Master) (v : Word), Sends s m → Completes (.pwrReqWrite m v) s fun t =>
    (∀ d, 1 ≤ d → d ≤ 29 → domWanted t d =
      if requestOk s m v d (v.getLsbD d) = true then v.getLsbD d else domWanted s d) ∧ MemorySame s t ∧
    (∀ d, 1 ≤ d → d ≤ 29 → domState s d = 0 → domWanted t d = true → domBlocked s d = false →
      (∀ x, 1 ≤ x → x ≤ 29 → x ≠ d → domState s x = if domWanted t x = true then 2 else 0) → domState t d = 1)) ∧
  (∀ (s : State) (d : Fin 30), Up s → domState s d = 3 →
    (quiesced s d = true → Completes (.quiesceComplete d) s fun t =>
      domState t d = 5 ∧ t.epochs.get 0 d = s.epochs.get 0 d + 1 ∧ getB t R.PWR_ON d = false) ∧
    ∀ waited : Nat, max 1 (getR s R.PWR_QUIESCE_TIMEOUT % 2 ^ 16) ≤ waited → Completes (.quiesceTimeout ⟨d, waited⟩) s fun t =>
      domState t d = 5 ∧ t.epochs.get 0 d = s.epochs.get 0 d + 1 ∧ getF t F.PWR_STATUS_FORCED = 1 ∧
      (rd t R.PWR_FORCED_COUNT).toNat = min ((rd s R.PWR_FORCED_COUNT).toNat + 1) 0xFFFFFFFF) ∧
  (∀ (s : State) (d : Fin 30), Up s → 1 ≤ d.val →
    (domState s d = 5 → Completes (.powerDownComplete d) s fun t =>
      (domWanted s d = false → domState t d = 0 ∧ getB t R.PWR_ON d = false) ∧ 31 ∈ t.pulses ∧
      (d.val ≠ 25 → d.val ≠ 26 → MemorySame s t) ∧
      (rd t R.PWR_SWITCH_COUNT).toNat = min ((rd s R.PWR_SWITCH_COUNT).toNat + 1) 0xFFFFFFFF) ∧
    (domState s d = 1 → Completes (.powerUpComplete d) s fun t =>
      (domWanted s d = true → domState t d = 2 ∧ getB t R.PWR_ON d = true) ∧ 31 ∈ t.pulses ∧
      (rd t R.PWR_SWITCH_COUNT).toNat = min ((rd s R.PWR_SWITCH_COUNT).toNat + 1) 0xFFFFFFFF)) ∧
  (∀ (s : State) (temps : List (BitVec 16)) (x : Int), Up s → temps.length = 16 → x = hottest (temps.map (·.toInt)) →
    Completes (.thermalSample temps []) s fun t =>
      (∀ i : Fin 16, getR t (R.PWR_TEMP i) = (temps.getD i 0).toNat) ∧
      toSigned 16 (getF t F.PWR_TEMP_MAX_TEMP) =
        (if s.pwr.tempRead = true then max (toSigned 16 (getF s F.PWR_TEMP_MAX_TEMP)) x else x) ∧
      (16 * (getF s F.PWR_THERM_CFG_WARN : Int) ≤ x → getF t F.PWR_STATUS_WARN = 1) ∧
      (x ≤ 16 * (getF s F.PWR_THERM_CFG_WARN : Int) - 80 → getF t F.PWR_STATUS_WARN = 0) ∧
      (16 * (getF s F.PWR_THERM_CFG_THROTTLE : Int) ≤ x → getF t F.PWR_STATUS_THROTTLE = 1) ∧
      (x ≤ 16 * (getF s F.PWR_THERM_CFG_THROTTLE : Int) - 80 → getF t F.PWR_STATUS_THROTTLE = 0) ∧
      (1840 ≤ x → getF t F.PWR_STATUS_TRIP = 1) ∧ (x < 1840 → MemorySame s t))

/-- Rails and resets. VIN_RISE powers the block with every register at reset but the reset cause, and VIN_FALL takes it down
with PWRGOOD low; RAIL_FAULT of VAON or VIO latches and takes it down, and of another rail turns that rail off and shows
it, with PWRGOOD low for VCORE and VSRAM, while a rail that is off has none; PWRGOOD_RELEASED with the rails in regulation
raises the pin; the foldback of VIO_REF is noted and ended; RESET_N_ASSERT takes the block down with cause 1, and
RESET_N_RELEASE samples the straps and requests the domains of PCIe and memory; CHIP_RESET with 0x5253 and WATCHDOG_EXPIRY
reset with causes 2 and 3, and any other value does nothing. A reset keeps the slots of the flash (R451) and the commands
that wait (the model's choice, log entry 11); the three requests of the boot ROM are its reading of R454 (log entry 47),
and that a block without its rails or in reset holds its registers until the next reset is log entry 6. A command of the
debug master needs TEST_MODE high. (R439, R442, R443, R444, R451, R452, R453, R454, R455) -/
def Obligations.RailsAndResetsComplete : Prop :=
  (∀ s : State, s.pwr.vin = false → Completes .vinRise s fun t =>
    t.pwr.vin = true ∧ t.arch.up = (!s.pwr.latched && s.pwr.resetN) ∧ t.arch.running = false ∧
    getF t F.PWR_RESET_CAUSE_CAUSE = (if s.pwr.railCause = true then 4 else 0) ∧ getR t R.HLT_FAULT = 0 ∧
    t.str.slots = s.str.slots ∧ t.pending = s.pending ∧
    (∀ a, a ∉ [R.PWR_RESET_CAUSE, R.PWR_BOOT, R.HLT_FAULT, R.HLT_FIRST, R.HLT_FIRST_TIME_LO, R.HLT_FIRST_TIME_HI] →
      rd t a = resetWord a)) ∧
  (∀ s : State, s.pwr.vin = true → Completes .vinFall s fun t =>
    t.pwr.vin = false ∧ t.arch.up = false ∧ t.pwr.latched = false ∧ t.pwr.pwrgood = false ∧ RegsSameBut [] s t ∧
    t.str.slots = s.str.slots ∧ t.pending = s.pending) ∧
  (∀ (s : State) (rail : Fin 7), Completes (.railFault rail) s fun t =>
    if railOn s rail = false then t = s
    else if 5 ≤ rail.val then
      t.pwr.latched = true ∧ t.pwr.railCause = true ∧ t.arch.up = false ∧ t.pwr.pwrgood = false ∧ RegsSameBut [] s t ∧
      t.str.slots = s.str.slots ∧ t.pending = s.pending
    else rail.val ∈ t.pwr.railOff ∧ getF t F.PWR_STATUS_RAIL_FAULT = 1 ∧ t.arch.up = s.arch.up ∧
      (rail.val < 2 → t.pwr.pwrgood = false)) ∧
  (∀ s : State,
    (railsGood s = true → s.pwr.pwrgood = false → Completes .pwrgoodReleased s fun t =>
      t.pwr.pwrgood = true ∧ t.out = s.out ++ [.pin "PWRGOOD" true] ∧ RegsSameBut [] s t ∧ MemorySame s t) ∧
    (vioRefOn s = true → Completes .vioRefFoldback s fun t =>
      t.pwr = { s.pwr with foldback := true } ∧ RegsSameBut [] s t ∧ MemorySame s t) ∧
    Completes .vioRefLoadFall s fun t =>
      t.pwr = { s.pwr with foldback := false } ∧ RegsSameBut [] s t ∧ MemorySame s t) ∧
  (∀ s : State, s.pwr.resetN = true → Completes .resetNAssert s fun t =>
    t.pwr.resetN = false ∧ t.arch.up = false ∧ t.str.slots = s.str.slots ∧ t.pending = s.pending ∧
    (s.arch.up = true → getF t F.PWR_RESET_CAUSE_CAUSE = 1 ∧ t.arch.running = false ∧ t.brl = [] ∧ t.dma = [])) ∧
  (∀ (s : State) (src : Fin 4) (test : Bool) (dimms : List (List Dimm)), s.pwr.resetN = false → s.pwr.vin = true → s.pwr.latched = false →
    Completes (.resetNRelease src ⟨test, dimms⟩) s fun t =>
      t.pwr.resetN = true ∧ t.arch.up = true ∧ getF t F.PWR_BOOT_BOOT_SRC = src ∧
      getF t F.PWR_BOOT_TEST_MODE = ofBool test ∧ domWanted t 25 = true ∧ domWanted t 26 = true ∧ domWanted t 27 = true ∧
      t.pwr.dimms = some dimms ∧ t.str.slots = s.str.slots ∧ t.pending = s.pending) ∧
  (∀ (s : State) (m : Master) (v : Word), Sends s m → Completes (.chipReset m v) s fun t =>
    (v.toNat % 2 ^ 16 ≠ 0x5253 → t = s) ∧
    (v.toNat % 2 ^ 16 = 0x5253 → getF t F.PWR_RESET_CAUSE_CAUSE = 2 ∧ t.arch.running = false ∧ t.brl = [] ∧ t.dma = [] ∧
      t.arch.up = true ∧ t.str.slots = s.str.slots ∧ t.pending = s.pending)) ∧
  (∀ s : State, Up s → Completes .watchdogExpiry s fun t =>
    getF t F.PWR_RESET_CAUSE_CAUSE = 3 ∧ t.arch.running = false ∧ t.brl = [] ∧ t.dma = [] ∧ t.arch.up = true ∧
    t.str.slots = s.str.slots ∧ t.pending = s.pending)

/-- Each code violation increments the lane's counter. On a block that is up every CODE_VIOLATION counts one on the counter of
its lane, which saturates, and on no other lane's. (R52) -/
def Obligations.CodeViolationsCount : Prop :=
  ∀ (s : State) (n : Fin 56) (symbol : Nat), Up s → Completes (.codeViolation n symbol) s fun t =>
    (rd t (R.LANE_CV_COUNT n)).toNat = min ((rd s (R.LANE_CV_COUNT n)).toNat + 1) 0xFFFFFFFF ∧
    ∀ m : Fin 56, m ≠ n → rd t (R.LANE_CV_COUNT m) = rd s (R.LANE_CV_COUNT m)

/-- A step carries out the command at the front of the queue on the state with the rest of the queue. For every command and
state, the step of the state with the command at the front of its queue is what the command answers on the state with the
queue's rest; with an empty queue the supervisor serves one request that waits in its mailbox, and without one the state
stays as it is, which is the model's choice (log entry 11). (95_what_each_step_holds.md) -/
def Obligations.StepTakesTheFrontCommand : Prop :=
  (∀ (c : Instr) (rest : List Instr) (s : State),
    Machine.step { s with pending := c :: rest } = Machine.exec c { s with pending := rest }) ∧
  ∀ s : State, s.pending = [] → Machine.step s = .next (idle s) ∧
    (s.mail.request = none → s.mail.relay = [] → Machine.step s = .next s)

/-- The state after reset is sound. The block right after reset has its DRAM, registers and arrays in canonical form, is up
with VIN standing and RESET_N released, and has no command waiting. That this moment is State.reset is log entry 6; the
canonical form is that of the model's lists. (R439, R443, R451, R453) -/
def Obligations.ResetIsSound : Prop :=
  State.reset.Sound ∧ Up State.reset ∧ State.reset.pending = []

/-- Every step keeps the state sound. From every sound state, whatever command stands in front, a step that answers a next
state answers a sound one: DRAM, registers and arrays keep their canonical form, and the block counts as up exactly while
VIN stands, no fault is latched and RESET_N is released (log entry 6). The canonical form is that of the model's lists.
(R439, R443, R451, R453) -/
def Obligations.EveryStepKeepsSound : Prop :=
  ∀ s t : State, s.Sound → Machine.step s = .next t → t.Sound

/-- A step takes one command from the queue and adds none. From every state a step answers a next state, and the commands that
then wait are those that waited behind the front one, in the same order: no command is lost, repeated or reordered by what
another does. That commands wait in a queue and act one after the other is the model's form (log entry 11).
(95_what_each_step_holds.md) -/
def Obligations.EveryStepKeepsTheQueue : Prop :=
  ∀ s : State, ∃ t, Machine.step s = .next t ∧ t.pending = s.pending.tail

/-- While the block is down, only rails, reset pins and power change it. With a rail missing or RESET_N low every command but
those of VIN, the rails, PWRGOOD, VIO_REF and RESET_N leaves the state as it was. That a command then does nothing is the
model's reading (log entry 6). (R439, R443, R451, R453) -/
def Obligations.NothingActsWhileDown : Prop :=
  ∀ (c : Instr) (s : State), s.arch.up = false →
    (∀ rail, c ≠ .railFault rail) → (∀ src test dimms, c ≠ .resetNRelease src ⟨test, dimms⟩) →
    c ∉ [Instr.vinRise, .vinFall, .pwrgoodReleased, .vioRefFoldback, .vioRefLoadFall, .resetNAssert] →
    Machine.exec c s = .next s

/-- An edge of the selected PPS input sets the armed time, and a write with SET_NOW sets it at once. On a block that is up:
PPS_EDGE of the configured polarity, held as long as the filter asks, the first on its input, at the moment the counter
stands at, with the setting armed and the input selected, puts the armed time into the counter, shows valid time and
disarms; SET_TIME_ARM with PTP off arms the setting, or with SET_NOW puts the time into the counter at once. DRAM and
arrays stay as they were. (R325, R347) -/
def Obligations.PpsEdgeSetsTheTime : Prop :=
  (∀ (s : State) (x : Fin 2) (falling : Bool) (time held : Nat), Up s → time < 2 ^ 64 →
    flag s (F.CLK_PPS_CFG_FALLING x) = falling → max 2 (getF s (F.CLK_PPS_CFG_FILTER x)) ≤ held →
    s.clk.ppsEdge.find x = none → selectedSource s = 3 + x.val → s.clk.setArmed = true →
    s.counter.toNat = time / 20 → Completes (.ppsEdge x falling ⟨time, held⟩) s fun t =>
      t.counter.toNat = getPair s R.CLK_SET_TIME_LO ∧ t.clk.setArmed = false ∧ getF t F.CLK_STATUS_TIME_VALID = 1 ∧
      getPair t (R.CLK_PPS_STAMP_LO x) = (time - 16 * getF s (F.CLK_PPS_CFG_DELAY x)) / 16 ∧ MemorySame s t) ∧
  (∀ (s : State) (high : Word), Up s → flag s F.PTP_CTRL_EN = false →
    (flag s F.CLK_CTRL_SET_NOW = false → Completes (.setTimeArm high) s fun t =>
      t.clk.setArmed = true ∧ t.counter = s.counter ∧
      getPair t R.CLK_SET_TIME_LO = getR s R.CLK_SET_TIME_LO + high.toNat * 2 ^ 32 ∧ MemorySame s t) ∧
    (flag s F.CLK_CTRL_SET_NOW = true → Completes (.setTimeArm high) s fun t =>
      t.counter.toNat = getR s R.CLK_SET_TIME_LO + high.toNat * 2 ^ 32 ∧ t.clk.setArmed = false ∧
      getF t F.CLK_STATUS_TIME_VALID = 1 ∧ MemorySame s t))

/-- The owner's frequency word is stored clamped, and a phase amount is added. On a block that is up: STEER_FFO_WRITE by the
owner of the register while a switch is under way stores the word limited to ±100 ppm and changes no other register;
PHASE_ADJ_WRITE by the timekeeper, or by any master in LOCKED and STEER where the host owns steering, adds the amount to
what is still to be slewed where the sum fits 32 bits, and changes no other register. A command of the debug master needs
TEST_MODE high. (R335, R336, R337) -/
def Obligations.SteeringWritesTakeEffect : Prop :=
  (∀ (s : State) (m : Master) (ffo : Word), Sends s m → dpllState s = 3 →
    (m = .timekeeper ∧ flag s F.CLK_CTRL_STEER_OWNER = false) ∨
      (m ≠ .supervisor ∧ m ≠ .timekeeper ∧ flag s F.CLK_CTRL_STEER_OWNER = true) →
    Completes (.steerFfoWrite m ffo) s fun t =>
      getR t R.CLK_STEER_FFO = ofSigned 32 (clampSteer ffo.toInt) ∧ t.clk.steerAt = some (s.counter.toNat : Int) ∧
      RegsSameBut [R.CLK_STEER_FFO] s t ∧ MemorySame s t) ∧
  (∀ (s : State) (m : Master) (amount : Word) (v : Int), Sends s m →
    m = .timekeeper ∨ (flag s F.CLK_CTRL_STEER_OWNER = true ∧ (dpllState s = 2 ∨ dpllState s = 5)) →
    v = toSigned 32 (getR s R.CLK_PHASE_REMAIN) + amount.toInt → -(2 ^ 31) ≤ v → v < 2 ^ 31 →
    Completes (.phaseAdjWrite m amount) s fun t =>
      getR t R.CLK_PHASE_REMAIN = ofSigned 32 v ∧ RegsSameBut [R.CLK_PHASE_REMAIN] s t ∧ t.counter = s.counter ∧
      MemorySame s t)

/-- PPS_OUT rises at its second and both time outputs fall after their widths. On a block that is up: PPS_OUT_SECOND at the
first sample at or after a whole second plus OFFSET, the output enabled and live, raises PPS_OUT and raises event 25;
TIME_OUTPUT_PULSE_END lowers PPS_OUT when WIDTH microseconds have passed since its rise, and FRAME_OUT when its spectra
have. No register and no memory changes. (R348, R378) -/
def Obligations.TimeOutputsPulse : Prop :=
  (∀ (s : State) (time off : Nat), Up s → off = 4 * getF s ⟨R.CLK_PPS_OUT_CFG, 31, 16⟩ →
    flag s F.CLK_CTRL_PPS_OUT_EN = true → outputsLive s = true → s.counter.toNat = time →
    off ≤ 5 * time → (5 * time - off) % 4000000000 < 5 → Completes (.ppsOutSecond time) s fun t =>
      t.clk.ppsOut = true ∧ t.out = s.out ++ [.pin "PPS_OUT" true] ∧ t.pulses = s.pulses ++ [25] ∧
      RegsSameBut [] s t ∧ MemorySame s t) ∧
  (∀ (s : State) (time : Nat), Up s → s.counter.toNat = time →
    (s.clk.ppsOut = true → s.clk.ppsRise + pulseWidth s 0 ≤ (time : Int) → Completes (.timeOutputPulseEnd ⟨0, time⟩) s fun t =>
      t.clk.ppsOut = false ∧ t.out = s.out ++ [.pin "PPS_OUT" false] ∧ RegsSameBut [] s t ∧ MemorySame s t) ∧
    (s.clk.frameOut = true → s.clk.frameRise + pulseWidth s 1 ≤ (time : Int) →
      Completes (.timeOutputPulseEnd ⟨1, time⟩) s fun t =>
        t.clk.frameOut = false ∧ t.out = s.out ++ [.pin "FRAME_OUT" false] ∧ RegsSameBut [] s t ∧ MemorySame s t))

/-- A load that may go on is accepted with the image's bytes, and one that passes its checks makes its image the running one.
On a block that is up and serves the command: LOAD_STRUCTURE on a stopped data path and LOAD_REGION, for an image in its
area that reads well with no other load under way, are accepted with the bytes taken and LOADING set;
STRUCTURE_LOAD_COMPLETE of a load that nothing keeps from being applied shows OK, the image's ID and LOADED, and its
sections are those that run. (R396, R398, R399, R400) -/
def Obligations.LoadsAreTakenAndApplied : Prop :=
  (∀ (s : State) (tag : Word) (off : DWord) (len : Word) (bs : List Byte), Up s →
    Served s .host 1 tag.toNat (leBytes 8 off.toNat ++ leBytes 4 len.toNat) → s.str.load = none → s.arch.running = false →
    imageAt s off.toNat len.toNat = true → unitRead s 10 off.toNat len.toNat = some bs →
    Completes (.loadStructure .host tag off len) s fun t =>
      Answered t .host 1 tag.toNat stAccepted ∧ getF t F.STR_STATUS_LOADING = 1 ∧
      t.str.load = some ⟨1, tag.toNat, none, bs, none⟩ ∧ MemorySame s t) ∧
  (∀ (s : State) (tag : Word) (off : DWord) (len : Word) (region : Byte) (bs : List Byte), Up s →
    Served s .host 2 tag.toNat (leBytes 8 off.toNat ++ leBytes 4 len.toNat ++ leBytes 1 region.toNat) →
    s.str.load = none → imageAt s off.toNat len.toNat = true → region.toNat ≤ 12 →
    unitRead s 10 off.toNat len.toNat = some bs → Completes (.loadRegion .host tag off len region) s fun t =>
      Answered t .host 2 tag.toNat stAccepted ∧ getF t F.STR_STATUS_LOADING = 1 ∧
      t.str.load = some ⟨2, tag.toNat, some region.toNat, bs, none⟩ ∧ MemorySame s t) ∧
  (∀ (s : State) (l : StrLoad), Up s → s.str.load = some l →
    loadFails (setStr (setF s F.STR_STATUS_LOADING 0) fun x => { x with load := none }) l = none →
    Completes .structureLoadComplete s fun t =>
      getF t F.STR_STATUS_LAST_RESULT = 0 ∧ getF t F.STR_STATUS_LAST_SECTION = 255 ∧ getF t F.STR_STATUS_LOADED = 1 ∧
      getPair t R.STR_IMAGE_ID_LO = imageId (imageOf l.bytes) ∧ t.str.load = none ∧
      t.str.image = (sections (imageOf l.bytes)).map fun e => (e.type, e.region, e.crc))

/-- SCHEDULE_UPDATE of an image that passes starts programming, and its end makes the slot valid. On a block that is up and
serves the command: SCHEDULE_UPDATE with an allowed schedule, of an image in its area that reads well and passes every
check, with no session held and an inactive slot, is accepted, begins the host's session and shows the inactive slot
PROGRAMMING; SLOT_PROGRAM_COMPLETE of a session that programs, read back right, puts the session's image into the slot,
shows it VALID and ends the session, and read back wrong shows it FAILED with FLASH. (R411, R413) -/
def Obligations.UpdateIsProgrammed : Prop :=
  (∀ (s : State) (tag : Word) (off : DWord) (len : Word) (fa fr : BitVec 48) (timeout : BitVec 16) (relay force : Bool)
      (sch : StrSchedule) (bs : List Byte) (k : Nat), Up s →
    sch = ⟨fa.toNat, fr.toNat, timeout.toNat, ofBool relay + 2 * ofBool force⟩ →
    Served s .host 5 tag.toNat (leBytes 8 off.toNat ++ leBytes 4 len.toNat ++ scheduleBytes sch) →
    imageAt s off.toNat len.toNat = true → scheduleOk s sch = true → s.str.session = none → sessionState s ≠ 3 →
    inactiveSlot s = some k → unitRead s 10 off.toNat len.toNat = some bs →
    fullCheck (acceptAsync (served s 10 off.toNat len.toNat) .host 5 tag.toNat) bs true = none →
    Completes (.scheduleUpdate .host tag off len fa fr timeout relay force) s fun t =>
      Answered t .host 5 tag.toNat stAccepted ∧ sessionState t = 3 ∧ getF t (F.STR_SLOT_STATE_STATE k) = 5 ∧
      (t.str.session.any fun x => x.port.isNone && x.tag == tag.toNat) = true ∧ MemorySame s t) ∧
  (∀ (s : State) (x : StrSession) (k : Nat), Up s → s.str.session = some x → inactiveSlot s = some k →
    sessionState s = 3 →
    (Completes (.slotProgramComplete true) s fun t =>
      getF t (F.STR_SLOT_STATE_STATE k) = 1 ∧ t.str.slots.find k = some (sessionImage s x) ∧ t.str.session = none ∧
      getF t F.STR_STATUS_LAST_RESULT = 0 ∧ MemorySame s t) ∧
    Completes (.slotProgramComplete false) s fun t =>
      getF t (F.STR_SLOT_STATE_STATE k) = 4 ∧ t.str.slots = s.str.slots ∧ t.str.session = none ∧
      getF t F.STR_STATUS_LAST_RESULT = lrFlash ∧ MemorySame s t)

/-- Activation starts a trial, the trial's firmware runs, and a confirm or its timeout decides it. On a block that is up:
UPDATE_ACTIVATION at its frame with no load under way takes the schedule away, boots the slot and shows it on TRIAL;
TRIAL_FIRMWARE_START on a stopped data path, of firmware that parses the settings and an image that passes its checks,
shows TRIAL with an OK result and gives the notice; CONFIRM_UPDATE with the ID of the trial's image makes the slot ACTIVE;
CONFIRM_TIMEOUT once the record's time has passed falls back with reason 4. What stands in the record's time and what the
trial's settings are follows the model's reading (log entries 49, 58 and 60). (R403, R414, R415, R416, R417) -/
def Obligations.TrialRunsAndIsDecided : Prop :=
  (∀ (s : State) (k : Fin 2) (sch : StrSchedule) (tag : Nat) (port : Option Nat), Up s → s.str.load = none →
    s.str.schedule = some (k.val, sch, tag, port) → sch.fa ≤ startedFrame s → Completes .updateActivation s fun t =>
      t.str.schedule = none ∧ getF t (F.STR_SLOT_STATE_STATE k) = 3 ∧ getF t F.STR_STATUS_BOOT_SLOT = k.val ∧
      MemorySame s t) ∧
  (∀ (s s' : State) (k : Nat), Up s → s.str.restart = some k → s.arch.running = false →
    s' = settingsRestore { s with
      str := { s.str with
        restart := none, trialAt := s.counter.toNat,
        settings := s.str.settings.put k
          ⟨leAt (s.str.slots.get [] k) 40 4, (s.str.settings.get ⟨0, []⟩ (activeSlot s)).regs⟩ },
      mail := { s.mail with restarting := false } } k →
    fullCheck s' (s.str.slots.get [] k) true = none → Completes (.trialFirmwareStart true) s fun t =>
      getF t F.STR_STATUS_TRIAL = 1 ∧ getF t F.STR_STATUS_LAST_RESULT = 0 ∧ t.str.restart = none ∧
      Noticed t 5 (leAt ((recordNow s).getD []) 12 4) stOk) ∧
  (∀ (s : State) (src : CmdSource) (tag : Word) (id : DWord) (k : Nat), Up s →
    Served s src 6 tag.toNat (leBytes 8 id.toNat) → trialSlot s = some k → flag s F.STR_STATUS_TRIAL = true →
    id.toNat = imageId (s.str.slots.get [] k) → Completes (.confirmUpdate src tag id) s fun t =>
      Answered t src 6 tag.toNat stOk ∧ getF t (F.STR_SLOT_STATE_STATE k) = 2 ∧ getF t F.STR_STATUS_TRIAL = 0 ∧
      MemorySame s t) ∧
  (∀ (s : State) (k : Nat), Up s → trialSlot s = some k → flag s F.STR_STATUS_TRIAL = true →
    s.str.trialAt + leAt ((recordNow s).getD []) 22 2 * 800000000 ≤ s.counter.toNat → Completes .confirmTimeout s fun t =>
      getF t F.STR_STATUS_FALLBACK = 1 ∧ getF t F.STR_STATUS_FALLBACK_REASON = 4)

/-- The compressor takes the ring that waits first, and a capsule that fits its chain completes. On a block that is up with
compression powered: COMPRESSOR_FREE gives the free compressor to the ring that waits first; CAPSULE_COMPLETE of a capsule
that fits the buffers of its chain counts one capsule, counts its descriptor done and, as the last of its ring with no
poisoned input, changes no memory. (R419, R423, R424, R425) -/
def Obligations.CompressorRuns : Prop :=
  (∀ (s : State) (n : Fin 4096) (rest : List Nat), Up s → domOn s 28 = true → s.cmp.current = none →
    s.cmp.queue = n.val :: rest → Completes .compressorFree s fun t =>
      t.cmp.current.map (·.1) = some n.val ∧ n.val ∉ t.cmp.queue ∧ getF t F.CMP_STATUS_BUSY = 1 ∧
      getF t F.CMP_STATUS_RING = n ∧ RegsSameBut [R.CMP_STATUS] s t ∧ MemorySame s t) ∧
  (∀ (s : State) (n : Fin 4096) (table : List Byte) (bufs : List ChainEntry) (level : Nat) (d : DmaDesc) (rest : List DmaDesc)
      (c : List Byte × List Byte), Up s → domLive s 28 = true → ringState s n = 2 →
    s.cmp.current = some (n.val, level) → (dmaRing s n).descs = d :: rest → chainBuffers 256 (chainTable table) = (bufs, true) →
    c = capsule level d.user (flag s F.CMP_CTRL_FLUSH_PER_RUN) (0 < (badLines s d.addrs).length) (descRead s d.addrs)
      (deflateStream level (max 1 (getF s F.CMP_CTRL_BLOCK_KIB))
        (if flag s F.CMP_CTRL_FLUSH_PER_RUN = true then d.runs.map fun _ => d.len0 else []) (descRead s d.addrs)) →
    c.1.length + c.2.length ≤ (bufs.map (·.len.toNat)).sum → Completes (.capsuleComplete n table) s fun t =>
      (rd t R.CMP_CAPSULE_COUNT).toNat = min ((rd s R.CMP_CAPSULE_COUNT).toNat + 1) 0xFFFFFFFF ∧
      getR t (R.DMA_RING_DONE n) = (getR s (R.DMA_RING_DONE n) + 1) % 2 ^ 32 ∧
      (rest = [] → badLines s d.addrs = [] → MemorySame s t))

/-- A free decompressor takes the job, and a job that ends well has stored its output. On a block that is up with compression
powered: DECOMPRESS_GO with no job running takes the job its registers name and shows DEC_BUSY; DECOMPRESS_JOB_END, also
while the unit finishes its work, of a bare stream with an allowed destination shows its outcome and length, and where the
memory takes the write the destination holds the output and nothing else changes but the memory error log. (R427, R428) -/
def Obligations.DecompressorRuns : Prop :=
  (∀ (s : State) (raw : Bool), Up s → domOn s 28 = true → flag s F.CMP_STATUS_DEC_BUSY = false →
    Completes (.decompressGo raw) s fun t =>
      t.cmp.job = some (getPair s R.CMP_DEC_SRC_LO, getR s R.CMP_DEC_SRC_LEN, getPair s R.CMP_DEC_DST_LO,
        getR s R.CMP_DEC_LIMIT, raw) ∧ getF t F.CMP_STATUS_DEC_BUSY = 1 ∧
      RegsSameBut [R.CMP_DEC_CTRL, R.CMP_STATUS] s t ∧ MemorySame s t) ∧
  (∀ (s : State) (a n dst limit : Nat) (r : Nat × List Byte), Up s → domLive s 28 = true →
    s.cmp.job = some (a, n, dst, limit, true) → decDestOk s dst limit = true → r = decRaw (decSource s a n) limit →
    Completes .decompressJobEnd s fun t =>
      t.cmp.job = none ∧ getF t F.CMP_STATUS_DEC_BUSY = 0 ∧ getF t F.CMP_DEC_RESULT_DONE = 1 ∧
      getF t F.CMP_DEC_RESULT_RESULT = r.1 % 16 ∧ getR t R.CMP_DEC_OUT_LEN = r.2.length % 2 ^ 32 ∧
      t.arrays = s.arrays ∧ MemoryBut dst r.2.length s t ∧
      (dramUsable s = true → guardOk s 11 dst r.2.length true = true → s.badWords = [] →
        dramRead t dst r.2.length = r.2))

/-- The code of the memory corrects every error in one symbol. For each of the twenty symbols of a codeword and every error
value in it, the decoder finds the symbol and the value, and nothing stays wrong in the data. (R304) -/
def Obligations.OneSymbolInErrorIsCorrected : Prop :=
  ∀ (i : Fin 20) (v : Byte) (e : List Byte), v ≠ 0 → e = (List.range 20).map (fun k => if k = i.val then v else 0) →
    rsDecode e = .corrected i v ∧ rsResidue e = List.replicate 16 0
end

