-- ==== Sys2Proof/Laws/Chz.lean ====
section
/-! SUPPORT. What the resampler's ROM keeps, whatever the free ROM holds (R114). -/

namespace Sys2Proof.Machine

theorem resamplerCoef_ok {p : Nat} (h : romPhaseOk p = true) :
    (List.range 16).map (resamplerCoef p) = (List.range 16).map fun j => (Config.resamplerRom p j).toInt :=
  List.map_congr_left fun j _ => by simp [resamplerCoef, h]

theorem resamplerCoef_mean {p : Nat} (h : romPhaseOk p = false) :
    (List.range 16).map (resamplerCoef p) = (List.range 16).map fun j => if j = 7 ∨ j = 8 then 16384 else 0 :=
  List.map_congr_left fun j _ => by simp [resamplerCoef, h]

/-- The coefficients of a phase sum to 32,768. -/
theorem resamplerCoef_sum (p : Nat) : ((List.range 16).map (resamplerCoef p)).sum = 32768 := by
  cases h : romPhaseOk p
  · rw [resamplerCoef_mean h]; decide
  · rw [resamplerCoef_ok h]; simp [romPhaseOk] at h; exact h.1

/-- Their magnitudes sum to at most 65,520. -/
theorem resamplerCoef_abs (p : Nat) : (((List.range 16).map (resamplerCoef p)).map Int.natAbs).sum ≤ 65520 := by
  cases h : romPhaseOk p
  · rw [resamplerCoef_mean h]; decide
  · rw [resamplerCoef_ok h]
    have := h
    rw [romPhaseOk] at this
    simp only [Bool.and_eq_true, decide_eq_true_eq] at this
    exact this.2

end Sys2Proof.Machine
end

