-- ==== Sys2Proof/Laws/Deflate.lean ====
section
/-! SUPPORT. How long a compressed stream and its capsule are, whatever matches and codes the compressor takes (R421, R423). -/

namespace Sys2Proof.Machine

@[simp] theorem length_bitsLsb (n v : Nat) : (bitsLsb n v).length = n := by simp [bitsLsb]

@[simp] theorem length_bitBytes (l : List Bool) : (bitBytes l).length = (l.length + 7) / 8 := by simp [bitBytes]

/-- A block is never longer than its stored form. -/
theorem smallestForm_length_le (stored fixed : List Bool) (dynamic : Option (List Bool)) :
    (smallestForm stored fixed dynamic).length ≤ stored.length := by
  unfold smallestForm
  split
  · exact Nat.le_refl _
  · rename_i h
    cases dynamic with
    | none => simp at h ⊢; omega
    | some d => simp at h ⊢; split <;> omega

/-- The stored form of 1 to 65,535 bytes: 3 bits up to a byte, the length twice, the bytes. -/
theorem storedBits_length (final : Bool) (n p : Nat) (bs : List Byte) (h : bs.length ≤ 65535) :
    (storedBits final (n + 1) p bs).length = 3 + (8 - (p + 3) % 8) % 8 + 32 + 8 * bs.length := by
  have h1 : bs.take 65535 = bs := List.take_of_length_le h
  have h2 : bs.drop 65535 = [] := List.drop_eq_nil_of_le h
  simp [storedBits, h1, h2, List.length_flatMap]
  omega

/-- An input of one block takes at most five bytes more than it has. -/
theorem deflateStream_length_le (level k : Nat) (input : List Byte) (h0 : 0 < input.length)
    (h1 : input.length ≤ 1024 * k) (h2 : input.length ≤ 65535) :
    (deflateStream level k [] input).length ≤ input.length + 5 := by
  have hb : blockCuts (1024 * k) input.length input.length 0 = [(0, input.length)] := by
    obtain ⟨m, hm⟩ : ∃ m, input.length = m + 1 := ⟨_, (Nat.succ_pred_eq_of_pos h0).symm⟩
    rw [hm] at h1 ⊢
    unfold blockCuts
    cases m <;> simp [blockCuts] <;> omega
  have hp : blockPlan (1024 * k) [] input.length = [(0, input.length, false)] := by
    simp [blockPlan, hb]
  simp only [deflateStream, hp, List.zipIdx_cons, List.zipIdx_nil, List.foldl_cons, List.foldl_nil, length_bitBytes]
  have hs := smallestForm_length_le
  simp only [Bool.false_eq_true, if_false, List.nil_append, List.drop_zero, Nat.sub_zero, List.length_nil, List.take_length]
  have hl := storedBits_length (0 + 1 == [(0, input.length, false)].length) input.length 0 input h2
  refine Nat.le_trans (Nat.div_le_div_right (Nat.add_le_add_right (hs _ _ _) 7)) ?_
  rw [hl]
  omega

@[simp] theorem length_leBytes (k n : Nat) : (leBytes k n).length = k := by
  induction k generalizing n with
  | zero => rfl
  | succ k ih => simp [leBytes, ih]

/-- A capsule adds 48 bytes to its stream (R423). -/
theorem capsule_length (level user : Nat) (flush poisoned : Bool) (input stream : List Byte) :
    (capsule level user flush poisoned input stream).1.length + (capsule level user flush poisoned input stream).2.length =
      stream.length + 48 := by
  simp [capsule]
  omega

end Sys2Proof.Machine
end

