-- ==== Sys2Proof/Laws/State.lean ====
section
/-! SUPPORT. What each named update of the state leaves as it was: one lemma per field and update, so that no proof unfolds
a record update. -/

namespace Sys2Proof.Machine

variable (s : State)

/-! ## wr -/

@[simp] theorem wr_pairLow (a : Nat) (v : Word) : (wr s a v).pairLow = s.pairLow := rfl
@[simp] theorem wr_pairLatch (a : Nat) (v : Word) : (wr s a v).pairLatch = s.pairLatch := rfl
@[simp] theorem wr_dram (a : Nat) (v : Word) : (wr s a v).dram = s.dram := rfl
@[simp] theorem wr_arrays (a : Nat) (v : Word) : (wr s a v).arrays = s.arrays := rfl
@[simp] theorem wr_epochs (a : Nat) (v : Word) : (wr s a v).epochs = s.epochs := rfl
@[simp] theorem wr_totals (a : Nat) (v : Word) : (wr s a v).totals = s.totals := rfl
@[simp] theorem wr_counter (a : Nat) (v : Word) : (wr s a v).counter = s.counter := rfl
@[simp] theorem wr_free (a : Nat) (v : Word) : (wr s a v).free = s.free := rfl
@[simp] theorem wr_out (a : Nat) (v : Word) : (wr s a v).out = s.out := rfl
@[simp] theorem wr_pulses (a : Nat) (v : Word) : (wr s a v).pulses = s.pulses := rfl
@[simp] theorem wr_arch (a : Nat) (v : Word) : (wr s a v).arch = s.arch := rfl
@[simp] theorem wr_lanes (a : Nat) (v : Word) : (wr s a v).lanes = s.lanes := rfl
@[simp] theorem wr_calActive (a : Nat) (v : Word) : (wr s a v).calActive = s.calActive := rfl
@[simp] theorem wr_ingest (a : Nat) (v : Word) : (wr s a v).ingest = s.ingest := rfl
@[simp] theorem wr_mail (a : Nat) (v : Word) : (wr s a v).mail = s.mail := rfl
@[simp] theorem wr_twin (a : Nat) (v : Word) : (wr s a v).twin = s.twin := rfl
@[simp] theorem wr_links (a : Nat) (v : Word) : (wr s a v).links = s.links := rfl
@[simp] theorem wr_ingestValid (a : Nat) (v : Word) : (wr s a v).ingestValid = s.ingestValid := rfl
@[simp] theorem wr_chz (a : Nat) (v : Word) : (wr s a v).chz = s.chz := rfl
@[simp] theorem wr_ydx (a : Nat) (v : Word) : (wr s a v).ydx = s.ydx := rfl
@[simp] theorem wr_badWords (a : Nat) (v : Word) : (wr s a v).badWords = s.badWords := rfl
@[simp] theorem wr_ueSynd (a : Nat) (v : Word) : (wr s a v).ueSynd = s.ueSynd := rfl
@[simp] theorem wr_xr (a : Nat) (v : Word) : (wr s a v).xr = s.xr := rfl
@[simp] theorem wr_bfm (a : Nat) (v : Word) : (wr s a v).bfm = s.bfm := rfl
@[simp] theorem wr_integ (a : Nat) (v : Word) : (wr s a v).integ = s.integ := rfl
@[simp] theorem wr_cor (a : Nat) (v : Word) : (wr s a v).cor = s.cor := rfl
@[simp] theorem wr_trg (a : Nat) (v : Word) : (wr s a v).trg = s.trg := rfl
@[simp] theorem wr_mem (a : Nat) (v : Word) : (wr s a v).mem = s.mem := rfl
@[simp] theorem wr_clk (a : Nat) (v : Word) : (wr s a v).clk = s.clk := rfl
@[simp] theorem wr_ptp (a : Nat) (v : Word) : (wr s a v).ptp = s.ptp := rfl
@[simp] theorem wr_brl (a : Nat) (v : Word) : (wr s a v).brl = s.brl := rfl
@[simp] theorem wr_dma (a : Nat) (v : Word) : (wr s a v).dma = s.dma := rfl
@[simp] theorem wr_pcie (a : Nat) (v : Word) : (wr s a v).pcie = s.pcie := rfl
@[simp] theorem wr_cmp (a : Nat) (v : Word) : (wr s a v).cmp = s.cmp := rfl
@[simp] theorem wr_evt (a : Nat) (v : Word) : (wr s a v).evt = s.evt := rfl
@[simp] theorem wr_ydxSeed (a : Nat) (v : Word) : (wr s a v).ydxSeed = s.ydxSeed := rfl
@[simp] theorem wr_str (a : Nat) (v : Word) : (wr s a v).str = s.str := rfl
@[simp] theorem wr_pwr (a : Nat) (v : Word) : (wr s a v).pwr = s.pwr := rfl
@[simp] theorem wr_pending (a : Nat) (v : Word) : (wr s a v).pending = s.pending := rfl

/-! ## setF -/

@[simp] theorem setF_pairLow (f : Fld) (v : Nat) : (setF s f v).pairLow = s.pairLow := rfl
@[simp] theorem setF_pairLatch (f : Fld) (v : Nat) : (setF s f v).pairLatch = s.pairLatch := rfl
@[simp] theorem setF_dram (f : Fld) (v : Nat) : (setF s f v).dram = s.dram := rfl
@[simp] theorem setF_arrays (f : Fld) (v : Nat) : (setF s f v).arrays = s.arrays := rfl
@[simp] theorem setF_epochs (f : Fld) (v : Nat) : (setF s f v).epochs = s.epochs := rfl
@[simp] theorem setF_totals (f : Fld) (v : Nat) : (setF s f v).totals = s.totals := rfl
@[simp] theorem setF_counter (f : Fld) (v : Nat) : (setF s f v).counter = s.counter := rfl
@[simp] theorem setF_free (f : Fld) (v : Nat) : (setF s f v).free = s.free := rfl
@[simp] theorem setF_out (f : Fld) (v : Nat) : (setF s f v).out = s.out := rfl
@[simp] theorem setF_pulses (f : Fld) (v : Nat) : (setF s f v).pulses = s.pulses := rfl
@[simp] theorem setF_arch (f : Fld) (v : Nat) : (setF s f v).arch = s.arch := rfl
@[simp] theorem setF_lanes (f : Fld) (v : Nat) : (setF s f v).lanes = s.lanes := rfl
@[simp] theorem setF_calActive (f : Fld) (v : Nat) : (setF s f v).calActive = s.calActive := rfl
@[simp] theorem setF_ingest (f : Fld) (v : Nat) : (setF s f v).ingest = s.ingest := rfl
@[simp] theorem setF_mail (f : Fld) (v : Nat) : (setF s f v).mail = s.mail := rfl
@[simp] theorem setF_twin (f : Fld) (v : Nat) : (setF s f v).twin = s.twin := rfl
@[simp] theorem setF_links (f : Fld) (v : Nat) : (setF s f v).links = s.links := rfl
@[simp] theorem setF_ingestValid (f : Fld) (v : Nat) : (setF s f v).ingestValid = s.ingestValid := rfl
@[simp] theorem setF_chz (f : Fld) (v : Nat) : (setF s f v).chz = s.chz := rfl
@[simp] theorem setF_ydx (f : Fld) (v : Nat) : (setF s f v).ydx = s.ydx := rfl
@[simp] theorem setF_badWords (f : Fld) (v : Nat) : (setF s f v).badWords = s.badWords := rfl
@[simp] theorem setF_ueSynd (f : Fld) (v : Nat) : (setF s f v).ueSynd = s.ueSynd := rfl
@[simp] theorem setF_xr (f : Fld) (v : Nat) : (setF s f v).xr = s.xr := rfl
@[simp] theorem setF_bfm (f : Fld) (v : Nat) : (setF s f v).bfm = s.bfm := rfl
@[simp] theorem setF_integ (f : Fld) (v : Nat) : (setF s f v).integ = s.integ := rfl
@[simp] theorem setF_cor (f : Fld) (v : Nat) : (setF s f v).cor = s.cor := rfl
@[simp] theorem setF_trg (f : Fld) (v : Nat) : (setF s f v).trg = s.trg := rfl
@[simp] theorem setF_mem (f : Fld) (v : Nat) : (setF s f v).mem = s.mem := rfl
@[simp] theorem setF_clk (f : Fld) (v : Nat) : (setF s f v).clk = s.clk := rfl
@[simp] theorem setF_ptp (f : Fld) (v : Nat) : (setF s f v).ptp = s.ptp := rfl
@[simp] theorem setF_brl (f : Fld) (v : Nat) : (setF s f v).brl = s.brl := rfl
@[simp] theorem setF_dma (f : Fld) (v : Nat) : (setF s f v).dma = s.dma := rfl
@[simp] theorem setF_pcie (f : Fld) (v : Nat) : (setF s f v).pcie = s.pcie := rfl
@[simp] theorem setF_cmp (f : Fld) (v : Nat) : (setF s f v).cmp = s.cmp := rfl
@[simp] theorem setF_evt (f : Fld) (v : Nat) : (setF s f v).evt = s.evt := rfl
@[simp] theorem setF_ydxSeed (f : Fld) (v : Nat) : (setF s f v).ydxSeed = s.ydxSeed := rfl
@[simp] theorem setF_str (f : Fld) (v : Nat) : (setF s f v).str = s.str := rfl
@[simp] theorem setF_pwr (f : Fld) (v : Nat) : (setF s f v).pwr = s.pwr := rfl
@[simp] theorem setF_pending (f : Fld) (v : Nat) : (setF s f v).pending = s.pending := rfl

/-! ## setR -/

@[simp] theorem setR_pairLow (a v : Nat) : (setR s a v).pairLow = s.pairLow := rfl
@[simp] theorem setR_pairLatch (a v : Nat) : (setR s a v).pairLatch = s.pairLatch := rfl
@[simp] theorem setR_dram (a v : Nat) : (setR s a v).dram = s.dram := rfl
@[simp] theorem setR_arrays (a v : Nat) : (setR s a v).arrays = s.arrays := rfl
@[simp] theorem setR_epochs (a v : Nat) : (setR s a v).epochs = s.epochs := rfl
@[simp] theorem setR_totals (a v : Nat) : (setR s a v).totals = s.totals := rfl
@[simp] theorem setR_counter (a v : Nat) : (setR s a v).counter = s.counter := rfl
@[simp] theorem setR_free (a v : Nat) : (setR s a v).free = s.free := rfl
@[simp] theorem setR_out (a v : Nat) : (setR s a v).out = s.out := rfl
@[simp] theorem setR_pulses (a v : Nat) : (setR s a v).pulses = s.pulses := rfl
@[simp] theorem setR_arch (a v : Nat) : (setR s a v).arch = s.arch := rfl
@[simp] theorem setR_lanes (a v : Nat) : (setR s a v).lanes = s.lanes := rfl
@[simp] theorem setR_calActive (a v : Nat) : (setR s a v).calActive = s.calActive := rfl
@[simp] theorem setR_ingest (a v : Nat) : (setR s a v).ingest = s.ingest := rfl
@[simp] theorem setR_mail (a v : Nat) : (setR s a v).mail = s.mail := rfl
@[simp] theorem setR_twin (a v : Nat) : (setR s a v).twin = s.twin := rfl
@[simp] theorem setR_links (a v : Nat) : (setR s a v).links = s.links := rfl
@[simp] theorem setR_ingestValid (a v : Nat) : (setR s a v).ingestValid = s.ingestValid := rfl
@[simp] theorem setR_chz (a v : Nat) : (setR s a v).chz = s.chz := rfl
@[simp] theorem setR_ydx (a v : Nat) : (setR s a v).ydx = s.ydx := rfl
@[simp] theorem setR_badWords (a v : Nat) : (setR s a v).badWords = s.badWords := rfl
@[simp] theorem setR_ueSynd (a v : Nat) : (setR s a v).ueSynd = s.ueSynd := rfl
@[simp] theorem setR_xr (a v : Nat) : (setR s a v).xr = s.xr := rfl
@[simp] theorem setR_bfm (a v : Nat) : (setR s a v).bfm = s.bfm := rfl
@[simp] theorem setR_integ (a v : Nat) : (setR s a v).integ = s.integ := rfl
@[simp] theorem setR_cor (a v : Nat) : (setR s a v).cor = s.cor := rfl
@[simp] theorem setR_trg (a v : Nat) : (setR s a v).trg = s.trg := rfl
@[simp] theorem setR_mem (a v : Nat) : (setR s a v).mem = s.mem := rfl
@[simp] theorem setR_clk (a v : Nat) : (setR s a v).clk = s.clk := rfl
@[simp] theorem setR_ptp (a v : Nat) : (setR s a v).ptp = s.ptp := rfl
@[simp] theorem setR_brl (a v : Nat) : (setR s a v).brl = s.brl := rfl
@[simp] theorem setR_dma (a v : Nat) : (setR s a v).dma = s.dma := rfl
@[simp] theorem setR_pcie (a v : Nat) : (setR s a v).pcie = s.pcie := rfl
@[simp] theorem setR_cmp (a v : Nat) : (setR s a v).cmp = s.cmp := rfl
@[simp] theorem setR_evt (a v : Nat) : (setR s a v).evt = s.evt := rfl
@[simp] theorem setR_ydxSeed (a v : Nat) : (setR s a v).ydxSeed = s.ydxSeed := rfl
@[simp] theorem setR_str (a v : Nat) : (setR s a v).str = s.str := rfl
@[simp] theorem setR_pwr (a v : Nat) : (setR s a v).pwr = s.pwr := rfl
@[simp] theorem setR_pending (a v : Nat) : (setR s a v).pending = s.pending := rfl

/-! ## setB -/

@[simp] theorem setB_pairLow (a i : Nat) (b : Bool) : (setB s a i b).pairLow = s.pairLow := rfl
@[simp] theorem setB_pairLatch (a i : Nat) (b : Bool) : (setB s a i b).pairLatch = s.pairLatch := rfl
@[simp] theorem setB_dram (a i : Nat) (b : Bool) : (setB s a i b).dram = s.dram := rfl
@[simp] theorem setB_arrays (a i : Nat) (b : Bool) : (setB s a i b).arrays = s.arrays := rfl
@[simp] theorem setB_epochs (a i : Nat) (b : Bool) : (setB s a i b).epochs = s.epochs := rfl
@[simp] theorem setB_totals (a i : Nat) (b : Bool) : (setB s a i b).totals = s.totals := rfl
@[simp] theorem setB_counter (a i : Nat) (b : Bool) : (setB s a i b).counter = s.counter := rfl
@[simp] theorem setB_free (a i : Nat) (b : Bool) : (setB s a i b).free = s.free := rfl
@[simp] theorem setB_out (a i : Nat) (b : Bool) : (setB s a i b).out = s.out := rfl
@[simp] theorem setB_pulses (a i : Nat) (b : Bool) : (setB s a i b).pulses = s.pulses := rfl
@[simp] theorem setB_arch (a i : Nat) (b : Bool) : (setB s a i b).arch = s.arch := rfl
@[simp] theorem setB_lanes (a i : Nat) (b : Bool) : (setB s a i b).lanes = s.lanes := rfl
@[simp] theorem setB_calActive (a i : Nat) (b : Bool) : (setB s a i b).calActive = s.calActive := rfl
@[simp] theorem setB_ingest (a i : Nat) (b : Bool) : (setB s a i b).ingest = s.ingest := rfl
@[simp] theorem setB_mail (a i : Nat) (b : Bool) : (setB s a i b).mail = s.mail := rfl
@[simp] theorem setB_twin (a i : Nat) (b : Bool) : (setB s a i b).twin = s.twin := rfl
@[simp] theorem setB_links (a i : Nat) (b : Bool) : (setB s a i b).links = s.links := rfl
@[simp] theorem setB_ingestValid (a i : Nat) (b : Bool) : (setB s a i b).ingestValid = s.ingestValid := rfl
@[simp] theorem setB_chz (a i : Nat) (b : Bool) : (setB s a i b).chz = s.chz := rfl
@[simp] theorem setB_ydx (a i : Nat) (b : Bool) : (setB s a i b).ydx = s.ydx := rfl
@[simp] theorem setB_badWords (a i : Nat) (b : Bool) : (setB s a i b).badWords = s.badWords := rfl
@[simp] theorem setB_ueSynd (a i : Nat) (b : Bool) : (setB s a i b).ueSynd = s.ueSynd := rfl
@[simp] theorem setB_xr (a i : Nat) (b : Bool) : (setB s a i b).xr = s.xr := rfl
@[simp] theorem setB_bfm (a i : Nat) (b : Bool) : (setB s a i b).bfm = s.bfm := rfl
@[simp] theorem setB_integ (a i : Nat) (b : Bool) : (setB s a i b).integ = s.integ := rfl
@[simp] theorem setB_cor (a i : Nat) (b : Bool) : (setB s a i b).cor = s.cor := rfl
@[simp] theorem setB_trg (a i : Nat) (b : Bool) : (setB s a i b).trg = s.trg := rfl
@[simp] theorem setB_mem (a i : Nat) (b : Bool) : (setB s a i b).mem = s.mem := rfl
@[simp] theorem setB_clk (a i : Nat) (b : Bool) : (setB s a i b).clk = s.clk := rfl
@[simp] theorem setB_ptp (a i : Nat) (b : Bool) : (setB s a i b).ptp = s.ptp := rfl
@[simp] theorem setB_brl (a i : Nat) (b : Bool) : (setB s a i b).brl = s.brl := rfl
@[simp] theorem setB_dma (a i : Nat) (b : Bool) : (setB s a i b).dma = s.dma := rfl
@[simp] theorem setB_pcie (a i : Nat) (b : Bool) : (setB s a i b).pcie = s.pcie := rfl
@[simp] theorem setB_cmp (a i : Nat) (b : Bool) : (setB s a i b).cmp = s.cmp := rfl
@[simp] theorem setB_evt (a i : Nat) (b : Bool) : (setB s a i b).evt = s.evt := rfl
@[simp] theorem setB_ydxSeed (a i : Nat) (b : Bool) : (setB s a i b).ydxSeed = s.ydxSeed := rfl
@[simp] theorem setB_str (a i : Nat) (b : Bool) : (setB s a i b).str = s.str := rfl
@[simp] theorem setB_pwr (a i : Nat) (b : Bool) : (setB s a i b).pwr = s.pwr := rfl
@[simp] theorem setB_pending (a i : Nat) (b : Bool) : (setB s a i b).pending = s.pending := rfl

/-! ## setPairB -/

@[simp] theorem setPairB_pairLow (a i : Nat) (b : Bool) : (setPairB s a i b).pairLow = s.pairLow := rfl
@[simp] theorem setPairB_pairLatch (a i : Nat) (b : Bool) : (setPairB s a i b).pairLatch = s.pairLatch := rfl
@[simp] theorem setPairB_dram (a i : Nat) (b : Bool) : (setPairB s a i b).dram = s.dram := rfl
@[simp] theorem setPairB_arrays (a i : Nat) (b : Bool) : (setPairB s a i b).arrays = s.arrays := rfl
@[simp] theorem setPairB_epochs (a i : Nat) (b : Bool) : (setPairB s a i b).epochs = s.epochs := rfl
@[simp] theorem setPairB_totals (a i : Nat) (b : Bool) : (setPairB s a i b).totals = s.totals := rfl
@[simp] theorem setPairB_counter (a i : Nat) (b : Bool) : (setPairB s a i b).counter = s.counter := rfl
@[simp] theorem setPairB_free (a i : Nat) (b : Bool) : (setPairB s a i b).free = s.free := rfl
@[simp] theorem setPairB_out (a i : Nat) (b : Bool) : (setPairB s a i b).out = s.out := rfl
@[simp] theorem setPairB_pulses (a i : Nat) (b : Bool) : (setPairB s a i b).pulses = s.pulses := rfl
@[simp] theorem setPairB_arch (a i : Nat) (b : Bool) : (setPairB s a i b).arch = s.arch := rfl
@[simp] theorem setPairB_lanes (a i : Nat) (b : Bool) : (setPairB s a i b).lanes = s.lanes := rfl
@[simp] theorem setPairB_calActive (a i : Nat) (b : Bool) : (setPairB s a i b).calActive = s.calActive := rfl
@[simp] theorem setPairB_ingest (a i : Nat) (b : Bool) : (setPairB s a i b).ingest = s.ingest := rfl
@[simp] theorem setPairB_mail (a i : Nat) (b : Bool) : (setPairB s a i b).mail = s.mail := rfl
@[simp] theorem setPairB_twin (a i : Nat) (b : Bool) : (setPairB s a i b).twin = s.twin := rfl
@[simp] theorem setPairB_links (a i : Nat) (b : Bool) : (setPairB s a i b).links = s.links := rfl
@[simp] theorem setPairB_ingestValid (a i : Nat) (b : Bool) : (setPairB s a i b).ingestValid = s.ingestValid := rfl
@[simp] theorem setPairB_chz (a i : Nat) (b : Bool) : (setPairB s a i b).chz = s.chz := rfl
@[simp] theorem setPairB_ydx (a i : Nat) (b : Bool) : (setPairB s a i b).ydx = s.ydx := rfl
@[simp] theorem setPairB_badWords (a i : Nat) (b : Bool) : (setPairB s a i b).badWords = s.badWords := rfl
@[simp] theorem setPairB_ueSynd (a i : Nat) (b : Bool) : (setPairB s a i b).ueSynd = s.ueSynd := rfl
@[simp] theorem setPairB_xr (a i : Nat) (b : Bool) : (setPairB s a i b).xr = s.xr := rfl
@[simp] theorem setPairB_bfm (a i : Nat) (b : Bool) : (setPairB s a i b).bfm = s.bfm := rfl
@[simp] theorem setPairB_integ (a i : Nat) (b : Bool) : (setPairB s a i b).integ = s.integ := rfl
@[simp] theorem setPairB_cor (a i : Nat) (b : Bool) : (setPairB s a i b).cor = s.cor := rfl
@[simp] theorem setPairB_trg (a i : Nat) (b : Bool) : (setPairB s a i b).trg = s.trg := rfl
@[simp] theorem setPairB_mem (a i : Nat) (b : Bool) : (setPairB s a i b).mem = s.mem := rfl
@[simp] theorem setPairB_clk (a i : Nat) (b : Bool) : (setPairB s a i b).clk = s.clk := rfl
@[simp] theorem setPairB_ptp (a i : Nat) (b : Bool) : (setPairB s a i b).ptp = s.ptp := rfl
@[simp] theorem setPairB_brl (a i : Nat) (b : Bool) : (setPairB s a i b).brl = s.brl := rfl
@[simp] theorem setPairB_dma (a i : Nat) (b : Bool) : (setPairB s a i b).dma = s.dma := rfl
@[simp] theorem setPairB_pcie (a i : Nat) (b : Bool) : (setPairB s a i b).pcie = s.pcie := rfl
@[simp] theorem setPairB_cmp (a i : Nat) (b : Bool) : (setPairB s a i b).cmp = s.cmp := rfl
@[simp] theorem setPairB_evt (a i : Nat) (b : Bool) : (setPairB s a i b).evt = s.evt := rfl
@[simp] theorem setPairB_ydxSeed (a i : Nat) (b : Bool) : (setPairB s a i b).ydxSeed = s.ydxSeed := rfl
@[simp] theorem setPairB_str (a i : Nat) (b : Bool) : (setPairB s a i b).str = s.str := rfl
@[simp] theorem setPairB_pwr (a i : Nat) (b : Bool) : (setPairB s a i b).pwr = s.pwr := rfl
@[simp] theorem setPairB_pending (a i : Nat) (b : Bool) : (setPairB s a i b).pending = s.pending := rfl

/-! ## bumpF -/

@[simp] theorem bumpF_pairLow (f : Fld) : (bumpF s f).pairLow = s.pairLow := rfl
@[simp] theorem bumpF_pairLatch (f : Fld) : (bumpF s f).pairLatch = s.pairLatch := rfl
@[simp] theorem bumpF_dram (f : Fld) : (bumpF s f).dram = s.dram := rfl
@[simp] theorem bumpF_arrays (f : Fld) : (bumpF s f).arrays = s.arrays := rfl
@[simp] theorem bumpF_epochs (f : Fld) : (bumpF s f).epochs = s.epochs := rfl
@[simp] theorem bumpF_totals (f : Fld) : (bumpF s f).totals = s.totals := rfl
@[simp] theorem bumpF_counter (f : Fld) : (bumpF s f).counter = s.counter := rfl
@[simp] theorem bumpF_free (f : Fld) : (bumpF s f).free = s.free := rfl
@[simp] theorem bumpF_out (f : Fld) : (bumpF s f).out = s.out := rfl
@[simp] theorem bumpF_pulses (f : Fld) : (bumpF s f).pulses = s.pulses := rfl
@[simp] theorem bumpF_arch (f : Fld) : (bumpF s f).arch = s.arch := rfl
@[simp] theorem bumpF_lanes (f : Fld) : (bumpF s f).lanes = s.lanes := rfl
@[simp] theorem bumpF_calActive (f : Fld) : (bumpF s f).calActive = s.calActive := rfl
@[simp] theorem bumpF_ingest (f : Fld) : (bumpF s f).ingest = s.ingest := rfl
@[simp] theorem bumpF_mail (f : Fld) : (bumpF s f).mail = s.mail := rfl
@[simp] theorem bumpF_twin (f : Fld) : (bumpF s f).twin = s.twin := rfl
@[simp] theorem bumpF_links (f : Fld) : (bumpF s f).links = s.links := rfl
@[simp] theorem bumpF_ingestValid (f : Fld) : (bumpF s f).ingestValid = s.ingestValid := rfl
@[simp] theorem bumpF_chz (f : Fld) : (bumpF s f).chz = s.chz := rfl
@[simp] theorem bumpF_ydx (f : Fld) : (bumpF s f).ydx = s.ydx := rfl
@[simp] theorem bumpF_badWords (f : Fld) : (bumpF s f).badWords = s.badWords := rfl
@[simp] theorem bumpF_ueSynd (f : Fld) : (bumpF s f).ueSynd = s.ueSynd := rfl
@[simp] theorem bumpF_xr (f : Fld) : (bumpF s f).xr = s.xr := rfl
@[simp] theorem bumpF_bfm (f : Fld) : (bumpF s f).bfm = s.bfm := rfl
@[simp] theorem bumpF_integ (f : Fld) : (bumpF s f).integ = s.integ := rfl
@[simp] theorem bumpF_cor (f : Fld) : (bumpF s f).cor = s.cor := rfl
@[simp] theorem bumpF_trg (f : Fld) : (bumpF s f).trg = s.trg := rfl
@[simp] theorem bumpF_mem (f : Fld) : (bumpF s f).mem = s.mem := rfl
@[simp] theorem bumpF_clk (f : Fld) : (bumpF s f).clk = s.clk := rfl
@[simp] theorem bumpF_ptp (f : Fld) : (bumpF s f).ptp = s.ptp := rfl
@[simp] theorem bumpF_brl (f : Fld) : (bumpF s f).brl = s.brl := rfl
@[simp] theorem bumpF_dma (f : Fld) : (bumpF s f).dma = s.dma := rfl
@[simp] theorem bumpF_pcie (f : Fld) : (bumpF s f).pcie = s.pcie := rfl
@[simp] theorem bumpF_cmp (f : Fld) : (bumpF s f).cmp = s.cmp := rfl
@[simp] theorem bumpF_evt (f : Fld) : (bumpF s f).evt = s.evt := rfl
@[simp] theorem bumpF_ydxSeed (f : Fld) : (bumpF s f).ydxSeed = s.ydxSeed := rfl
@[simp] theorem bumpF_str (f : Fld) : (bumpF s f).str = s.str := rfl
@[simp] theorem bumpF_pwr (f : Fld) : (bumpF s f).pwr = s.pwr := rfl
@[simp] theorem bumpF_pending (f : Fld) : (bumpF s f).pending = s.pending := rfl

/-! ## setPair -/

@[simp] theorem setPair_pairLatch (a v : Nat) : (setPair s a v).pairLatch = s.pairLatch := rfl
@[simp] theorem setPair_dram (a v : Nat) : (setPair s a v).dram = s.dram := rfl
@[simp] theorem setPair_arrays (a v : Nat) : (setPair s a v).arrays = s.arrays := rfl
@[simp] theorem setPair_epochs (a v : Nat) : (setPair s a v).epochs = s.epochs := rfl
@[simp] theorem setPair_totals (a v : Nat) : (setPair s a v).totals = s.totals := rfl
@[simp] theorem setPair_counter (a v : Nat) : (setPair s a v).counter = s.counter := rfl
@[simp] theorem setPair_free (a v : Nat) : (setPair s a v).free = s.free := rfl
@[simp] theorem setPair_out (a v : Nat) : (setPair s a v).out = s.out := rfl
@[simp] theorem setPair_pulses (a v : Nat) : (setPair s a v).pulses = s.pulses := rfl
@[simp] theorem setPair_arch (a v : Nat) : (setPair s a v).arch = s.arch := rfl
@[simp] theorem setPair_lanes (a v : Nat) : (setPair s a v).lanes = s.lanes := rfl
@[simp] theorem setPair_calActive (a v : Nat) : (setPair s a v).calActive = s.calActive := rfl
@[simp] theorem setPair_ingest (a v : Nat) : (setPair s a v).ingest = s.ingest := rfl
@[simp] theorem setPair_mail (a v : Nat) : (setPair s a v).mail = s.mail := rfl
@[simp] theorem setPair_twin (a v : Nat) : (setPair s a v).twin = s.twin := rfl
@[simp] theorem setPair_links (a v : Nat) : (setPair s a v).links = s.links := rfl
@[simp] theorem setPair_ingestValid (a v : Nat) : (setPair s a v).ingestValid = s.ingestValid := rfl
@[simp] theorem setPair_chz (a v : Nat) : (setPair s a v).chz = s.chz := rfl
@[simp] theorem setPair_ydx (a v : Nat) : (setPair s a v).ydx = s.ydx := rfl
@[simp] theorem setPair_badWords (a v : Nat) : (setPair s a v).badWords = s.badWords := rfl
@[simp] theorem setPair_ueSynd (a v : Nat) : (setPair s a v).ueSynd = s.ueSynd := rfl
@[simp] theorem setPair_xr (a v : Nat) : (setPair s a v).xr = s.xr := rfl
@[simp] theorem setPair_bfm (a v : Nat) : (setPair s a v).bfm = s.bfm := rfl
@[simp] theorem setPair_integ (a v : Nat) : (setPair s a v).integ = s.integ := rfl
@[simp] theorem setPair_cor (a v : Nat) : (setPair s a v).cor = s.cor := rfl
@[simp] theorem setPair_trg (a v : Nat) : (setPair s a v).trg = s.trg := rfl
@[simp] theorem setPair_mem (a v : Nat) : (setPair s a v).mem = s.mem := rfl
@[simp] theorem setPair_clk (a v : Nat) : (setPair s a v).clk = s.clk := rfl
@[simp] theorem setPair_ptp (a v : Nat) : (setPair s a v).ptp = s.ptp := rfl
@[simp] theorem setPair_brl (a v : Nat) : (setPair s a v).brl = s.brl := rfl
@[simp] theorem setPair_dma (a v : Nat) : (setPair s a v).dma = s.dma := rfl
@[simp] theorem setPair_pcie (a v : Nat) : (setPair s a v).pcie = s.pcie := rfl
@[simp] theorem setPair_cmp (a v : Nat) : (setPair s a v).cmp = s.cmp := rfl
@[simp] theorem setPair_evt (a v : Nat) : (setPair s a v).evt = s.evt := rfl
@[simp] theorem setPair_ydxSeed (a v : Nat) : (setPair s a v).ydxSeed = s.ydxSeed := rfl
@[simp] theorem setPair_str (a v : Nat) : (setPair s a v).str = s.str := rfl
@[simp] theorem setPair_pwr (a v : Nat) : (setPair s a v).pwr = s.pwr := rfl
@[simp] theorem setPair_pending (a v : Nat) : (setPair s a v).pending = s.pending := rfl

/-! ## bumpBy -/

@[simp] theorem bumpBy_pairLow (a n : Nat) : (bumpBy s a n).pairLow = s.pairLow := rfl
@[simp] theorem bumpBy_pairLatch (a n : Nat) : (bumpBy s a n).pairLatch = s.pairLatch := rfl
@[simp] theorem bumpBy_dram (a n : Nat) : (bumpBy s a n).dram = s.dram := rfl
@[simp] theorem bumpBy_arrays (a n : Nat) : (bumpBy s a n).arrays = s.arrays := rfl
@[simp] theorem bumpBy_epochs (a n : Nat) : (bumpBy s a n).epochs = s.epochs := rfl
@[simp] theorem bumpBy_counter (a n : Nat) : (bumpBy s a n).counter = s.counter := rfl
@[simp] theorem bumpBy_free (a n : Nat) : (bumpBy s a n).free = s.free := rfl
@[simp] theorem bumpBy_out (a n : Nat) : (bumpBy s a n).out = s.out := rfl
@[simp] theorem bumpBy_pulses (a n : Nat) : (bumpBy s a n).pulses = s.pulses := rfl
@[simp] theorem bumpBy_arch (a n : Nat) : (bumpBy s a n).arch = s.arch := rfl
@[simp] theorem bumpBy_lanes (a n : Nat) : (bumpBy s a n).lanes = s.lanes := rfl
@[simp] theorem bumpBy_calActive (a n : Nat) : (bumpBy s a n).calActive = s.calActive := rfl
@[simp] theorem bumpBy_ingest (a n : Nat) : (bumpBy s a n).ingest = s.ingest := rfl
@[simp] theorem bumpBy_mail (a n : Nat) : (bumpBy s a n).mail = s.mail := rfl
@[simp] theorem bumpBy_twin (a n : Nat) : (bumpBy s a n).twin = s.twin := rfl
@[simp] theorem bumpBy_links (a n : Nat) : (bumpBy s a n).links = s.links := rfl
@[simp] theorem bumpBy_ingestValid (a n : Nat) : (bumpBy s a n).ingestValid = s.ingestValid := rfl
@[simp] theorem bumpBy_chz (a n : Nat) : (bumpBy s a n).chz = s.chz := rfl
@[simp] theorem bumpBy_ydx (a n : Nat) : (bumpBy s a n).ydx = s.ydx := rfl
@[simp] theorem bumpBy_badWords (a n : Nat) : (bumpBy s a n).badWords = s.badWords := rfl
@[simp] theorem bumpBy_ueSynd (a n : Nat) : (bumpBy s a n).ueSynd = s.ueSynd := rfl
@[simp] theorem bumpBy_xr (a n : Nat) : (bumpBy s a n).xr = s.xr := rfl
@[simp] theorem bumpBy_bfm (a n : Nat) : (bumpBy s a n).bfm = s.bfm := rfl
@[simp] theorem bumpBy_integ (a n : Nat) : (bumpBy s a n).integ = s.integ := rfl
@[simp] theorem bumpBy_cor (a n : Nat) : (bumpBy s a n).cor = s.cor := rfl
@[simp] theorem bumpBy_trg (a n : Nat) : (bumpBy s a n).trg = s.trg := rfl
@[simp] theorem bumpBy_mem (a n : Nat) : (bumpBy s a n).mem = s.mem := rfl
@[simp] theorem bumpBy_clk (a n : Nat) : (bumpBy s a n).clk = s.clk := rfl
@[simp] theorem bumpBy_ptp (a n : Nat) : (bumpBy s a n).ptp = s.ptp := rfl
@[simp] theorem bumpBy_brl (a n : Nat) : (bumpBy s a n).brl = s.brl := rfl
@[simp] theorem bumpBy_dma (a n : Nat) : (bumpBy s a n).dma = s.dma := rfl
@[simp] theorem bumpBy_pcie (a n : Nat) : (bumpBy s a n).pcie = s.pcie := rfl
@[simp] theorem bumpBy_cmp (a n : Nat) : (bumpBy s a n).cmp = s.cmp := rfl
@[simp] theorem bumpBy_evt (a n : Nat) : (bumpBy s a n).evt = s.evt := rfl
@[simp] theorem bumpBy_ydxSeed (a n : Nat) : (bumpBy s a n).ydxSeed = s.ydxSeed := rfl
@[simp] theorem bumpBy_str (a n : Nat) : (bumpBy s a n).str = s.str := rfl
@[simp] theorem bumpBy_pwr (a n : Nat) : (bumpBy s a n).pwr = s.pwr := rfl
@[simp] theorem bumpBy_pending (a n : Nat) : (bumpBy s a n).pending = s.pending := rfl

/-! ## bump -/

@[simp] theorem bump_pairLow (a : Nat) : (bump s a).pairLow = s.pairLow := rfl
@[simp] theorem bump_pairLatch (a : Nat) : (bump s a).pairLatch = s.pairLatch := rfl
@[simp] theorem bump_dram (a : Nat) : (bump s a).dram = s.dram := rfl
@[simp] theorem bump_arrays (a : Nat) : (bump s a).arrays = s.arrays := rfl
@[simp] theorem bump_epochs (a : Nat) : (bump s a).epochs = s.epochs := rfl
@[simp] theorem bump_counter (a : Nat) : (bump s a).counter = s.counter := rfl
@[simp] theorem bump_free (a : Nat) : (bump s a).free = s.free := rfl
@[simp] theorem bump_out (a : Nat) : (bump s a).out = s.out := rfl
@[simp] theorem bump_pulses (a : Nat) : (bump s a).pulses = s.pulses := rfl
@[simp] theorem bump_arch (a : Nat) : (bump s a).arch = s.arch := rfl
@[simp] theorem bump_lanes (a : Nat) : (bump s a).lanes = s.lanes := rfl
@[simp] theorem bump_calActive (a : Nat) : (bump s a).calActive = s.calActive := rfl
@[simp] theorem bump_ingest (a : Nat) : (bump s a).ingest = s.ingest := rfl
@[simp] theorem bump_mail (a : Nat) : (bump s a).mail = s.mail := rfl
@[simp] theorem bump_twin (a : Nat) : (bump s a).twin = s.twin := rfl
@[simp] theorem bump_links (a : Nat) : (bump s a).links = s.links := rfl
@[simp] theorem bump_ingestValid (a : Nat) : (bump s a).ingestValid = s.ingestValid := rfl
@[simp] theorem bump_chz (a : Nat) : (bump s a).chz = s.chz := rfl
@[simp] theorem bump_ydx (a : Nat) : (bump s a).ydx = s.ydx := rfl
@[simp] theorem bump_badWords (a : Nat) : (bump s a).badWords = s.badWords := rfl
@[simp] theorem bump_ueSynd (a : Nat) : (bump s a).ueSynd = s.ueSynd := rfl
@[simp] theorem bump_xr (a : Nat) : (bump s a).xr = s.xr := rfl
@[simp] theorem bump_bfm (a : Nat) : (bump s a).bfm = s.bfm := rfl
@[simp] theorem bump_integ (a : Nat) : (bump s a).integ = s.integ := rfl
@[simp] theorem bump_cor (a : Nat) : (bump s a).cor = s.cor := rfl
@[simp] theorem bump_trg (a : Nat) : (bump s a).trg = s.trg := rfl
@[simp] theorem bump_mem (a : Nat) : (bump s a).mem = s.mem := rfl
@[simp] theorem bump_clk (a : Nat) : (bump s a).clk = s.clk := rfl
@[simp] theorem bump_ptp (a : Nat) : (bump s a).ptp = s.ptp := rfl
@[simp] theorem bump_brl (a : Nat) : (bump s a).brl = s.brl := rfl
@[simp] theorem bump_dma (a : Nat) : (bump s a).dma = s.dma := rfl
@[simp] theorem bump_pcie (a : Nat) : (bump s a).pcie = s.pcie := rfl
@[simp] theorem bump_cmp (a : Nat) : (bump s a).cmp = s.cmp := rfl
@[simp] theorem bump_evt (a : Nat) : (bump s a).evt = s.evt := rfl
@[simp] theorem bump_ydxSeed (a : Nat) : (bump s a).ydxSeed = s.ydxSeed := rfl
@[simp] theorem bump_str (a : Nat) : (bump s a).str = s.str := rfl
@[simp] theorem bump_pwr (a : Nat) : (bump s a).pwr = s.pwr := rfl
@[simp] theorem bump_pending (a : Nat) : (bump s a).pending = s.pending := rfl

/-! ## arrSet -/

@[simp] theorem arrSet_regs (x : Arr) (i : Nat) (v : DWord) : (arrSet s x i v).regs = s.regs := rfl
@[simp] theorem arrSet_pairLow (x : Arr) (i : Nat) (v : DWord) : (arrSet s x i v).pairLow = s.pairLow := rfl
@[simp] theorem arrSet_pairLatch (x : Arr) (i : Nat) (v : DWord) : (arrSet s x i v).pairLatch = s.pairLatch := rfl
@[simp] theorem arrSet_dram (x : Arr) (i : Nat) (v : DWord) : (arrSet s x i v).dram = s.dram := rfl
@[simp] theorem arrSet_epochs (x : Arr) (i : Nat) (v : DWord) : (arrSet s x i v).epochs = s.epochs := rfl
@[simp] theorem arrSet_totals (x : Arr) (i : Nat) (v : DWord) : (arrSet s x i v).totals = s.totals := rfl
@[simp] theorem arrSet_counter (x : Arr) (i : Nat) (v : DWord) : (arrSet s x i v).counter = s.counter := rfl
@[simp] theorem arrSet_free (x : Arr) (i : Nat) (v : DWord) : (arrSet s x i v).free = s.free := rfl
@[simp] theorem arrSet_out (x : Arr) (i : Nat) (v : DWord) : (arrSet s x i v).out = s.out := rfl
@[simp] theorem arrSet_pulses (x : Arr) (i : Nat) (v : DWord) : (arrSet s x i v).pulses = s.pulses := rfl
@[simp] theorem arrSet_arch (x : Arr) (i : Nat) (v : DWord) : (arrSet s x i v).arch = s.arch := rfl
@[simp] theorem arrSet_lanes (x : Arr) (i : Nat) (v : DWord) : (arrSet s x i v).lanes = s.lanes := rfl
@[simp] theorem arrSet_calActive (x : Arr) (i : Nat) (v : DWord) : (arrSet s x i v).calActive = s.calActive := rfl
@[simp] theorem arrSet_ingest (x : Arr) (i : Nat) (v : DWord) : (arrSet s x i v).ingest = s.ingest := rfl
@[simp] theorem arrSet_mail (x : Arr) (i : Nat) (v : DWord) : (arrSet s x i v).mail = s.mail := rfl
@[simp] theorem arrSet_twin (x : Arr) (i : Nat) (v : DWord) : (arrSet s x i v).twin = s.twin := rfl
@[simp] theorem arrSet_links (x : Arr) (i : Nat) (v : DWord) : (arrSet s x i v).links = s.links := rfl
@[simp] theorem arrSet_ingestValid (x : Arr) (i : Nat) (v : DWord) : (arrSet s x i v).ingestValid = s.ingestValid := rfl
@[simp] theorem arrSet_chz (x : Arr) (i : Nat) (v : DWord) : (arrSet s x i v).chz = s.chz := rfl
@[simp] theorem arrSet_ydx (x : Arr) (i : Nat) (v : DWord) : (arrSet s x i v).ydx = s.ydx := rfl
@[simp] theorem arrSet_badWords (x : Arr) (i : Nat) (v : DWord) : (arrSet s x i v).badWords = s.badWords := rfl
@[simp] theorem arrSet_ueSynd (x : Arr) (i : Nat) (v : DWord) : (arrSet s x i v).ueSynd = s.ueSynd := rfl
@[simp] theorem arrSet_xr (x : Arr) (i : Nat) (v : DWord) : (arrSet s x i v).xr = s.xr := rfl
@[simp] theorem arrSet_bfm (x : Arr) (i : Nat) (v : DWord) : (arrSet s x i v).bfm = s.bfm := rfl
@[simp] theorem arrSet_integ (x : Arr) (i : Nat) (v : DWord) : (arrSet s x i v).integ = s.integ := rfl
@[simp] theorem arrSet_cor (x : Arr) (i : Nat) (v : DWord) : (arrSet s x i v).cor = s.cor := rfl
@[simp] theorem arrSet_trg (x : Arr) (i : Nat) (v : DWord) : (arrSet s x i v).trg = s.trg := rfl
@[simp] theorem arrSet_mem (x : Arr) (i : Nat) (v : DWord) : (arrSet s x i v).mem = s.mem := rfl
@[simp] theorem arrSet_clk (x : Arr) (i : Nat) (v : DWord) : (arrSet s x i v).clk = s.clk := rfl
@[simp] theorem arrSet_ptp (x : Arr) (i : Nat) (v : DWord) : (arrSet s x i v).ptp = s.ptp := rfl
@[simp] theorem arrSet_brl (x : Arr) (i : Nat) (v : DWord) : (arrSet s x i v).brl = s.brl := rfl
@[simp] theorem arrSet_dma (x : Arr) (i : Nat) (v : DWord) : (arrSet s x i v).dma = s.dma := rfl
@[simp] theorem arrSet_pcie (x : Arr) (i : Nat) (v : DWord) : (arrSet s x i v).pcie = s.pcie := rfl
@[simp] theorem arrSet_cmp (x : Arr) (i : Nat) (v : DWord) : (arrSet s x i v).cmp = s.cmp := rfl
@[simp] theorem arrSet_evt (x : Arr) (i : Nat) (v : DWord) : (arrSet s x i v).evt = s.evt := rfl
@[simp] theorem arrSet_ydxSeed (x : Arr) (i : Nat) (v : DWord) : (arrSet s x i v).ydxSeed = s.ydxSeed := rfl
@[simp] theorem arrSet_str (x : Arr) (i : Nat) (v : DWord) : (arrSet s x i v).str = s.str := rfl
@[simp] theorem arrSet_pwr (x : Arr) (i : Nat) (v : DWord) : (arrSet s x i v).pwr = s.pwr := rfl
@[simp] theorem arrSet_pending (x : Arr) (i : Nat) (v : DWord) : (arrSet s x i v).pending = s.pending := rfl

/-! ## emit -/

@[simp] theorem emit_regs (o : Out) : (emit s o).regs = s.regs := rfl
@[simp] theorem emit_pairLow (o : Out) : (emit s o).pairLow = s.pairLow := rfl
@[simp] theorem emit_pairLatch (o : Out) : (emit s o).pairLatch = s.pairLatch := rfl
@[simp] theorem emit_dram (o : Out) : (emit s o).dram = s.dram := rfl
@[simp] theorem emit_arrays (o : Out) : (emit s o).arrays = s.arrays := rfl
@[simp] theorem emit_epochs (o : Out) : (emit s o).epochs = s.epochs := rfl
@[simp] theorem emit_totals (o : Out) : (emit s o).totals = s.totals := rfl
@[simp] theorem emit_counter (o : Out) : (emit s o).counter = s.counter := rfl
@[simp] theorem emit_free (o : Out) : (emit s o).free = s.free := rfl
@[simp] theorem emit_pulses (o : Out) : (emit s o).pulses = s.pulses := rfl
@[simp] theorem emit_arch (o : Out) : (emit s o).arch = s.arch := rfl
@[simp] theorem emit_lanes (o : Out) : (emit s o).lanes = s.lanes := rfl
@[simp] theorem emit_calActive (o : Out) : (emit s o).calActive = s.calActive := rfl
@[simp] theorem emit_ingest (o : Out) : (emit s o).ingest = s.ingest := rfl
@[simp] theorem emit_mail (o : Out) : (emit s o).mail = s.mail := rfl
@[simp] theorem emit_twin (o : Out) : (emit s o).twin = s.twin := rfl
@[simp] theorem emit_links (o : Out) : (emit s o).links = s.links := rfl
@[simp] theorem emit_ingestValid (o : Out) : (emit s o).ingestValid = s.ingestValid := rfl
@[simp] theorem emit_chz (o : Out) : (emit s o).chz = s.chz := rfl
@[simp] theorem emit_ydx (o : Out) : (emit s o).ydx = s.ydx := rfl
@[simp] theorem emit_badWords (o : Out) : (emit s o).badWords = s.badWords := rfl
@[simp] theorem emit_ueSynd (o : Out) : (emit s o).ueSynd = s.ueSynd := rfl
@[simp] theorem emit_xr (o : Out) : (emit s o).xr = s.xr := rfl
@[simp] theorem emit_bfm (o : Out) : (emit s o).bfm = s.bfm := rfl
@[simp] theorem emit_integ (o : Out) : (emit s o).integ = s.integ := rfl
@[simp] theorem emit_cor (o : Out) : (emit s o).cor = s.cor := rfl
@[simp] theorem emit_trg (o : Out) : (emit s o).trg = s.trg := rfl
@[simp] theorem emit_mem (o : Out) : (emit s o).mem = s.mem := rfl
@[simp] theorem emit_clk (o : Out) : (emit s o).clk = s.clk := rfl
@[simp] theorem emit_ptp (o : Out) : (emit s o).ptp = s.ptp := rfl
@[simp] theorem emit_brl (o : Out) : (emit s o).brl = s.brl := rfl
@[simp] theorem emit_dma (o : Out) : (emit s o).dma = s.dma := rfl
@[simp] theorem emit_pcie (o : Out) : (emit s o).pcie = s.pcie := rfl
@[simp] theorem emit_cmp (o : Out) : (emit s o).cmp = s.cmp := rfl
@[simp] theorem emit_evt (o : Out) : (emit s o).evt = s.evt := rfl
@[simp] theorem emit_ydxSeed (o : Out) : (emit s o).ydxSeed = s.ydxSeed := rfl
@[simp] theorem emit_str (o : Out) : (emit s o).str = s.str := rfl
@[simp] theorem emit_pwr (o : Out) : (emit s o).pwr = s.pwr := rfl
@[simp] theorem emit_pending (o : Out) : (emit s o).pending = s.pending := rfl

/-! ## freeTaken -/

@[simp] theorem freeTaken_regs : (freeTaken s).regs = s.regs := rfl
@[simp] theorem freeTaken_pairLow : (freeTaken s).pairLow = s.pairLow := rfl
@[simp] theorem freeTaken_pairLatch : (freeTaken s).pairLatch = s.pairLatch := rfl
@[simp] theorem freeTaken_dram : (freeTaken s).dram = s.dram := rfl
@[simp] theorem freeTaken_arrays : (freeTaken s).arrays = s.arrays := rfl
@[simp] theorem freeTaken_epochs : (freeTaken s).epochs = s.epochs := rfl
@[simp] theorem freeTaken_totals : (freeTaken s).totals = s.totals := rfl
@[simp] theorem freeTaken_counter : (freeTaken s).counter = s.counter := rfl
@[simp] theorem freeTaken_out : (freeTaken s).out = s.out := rfl
@[simp] theorem freeTaken_pulses : (freeTaken s).pulses = s.pulses := rfl
@[simp] theorem freeTaken_arch : (freeTaken s).arch = s.arch := rfl
@[simp] theorem freeTaken_lanes : (freeTaken s).lanes = s.lanes := rfl
@[simp] theorem freeTaken_calActive : (freeTaken s).calActive = s.calActive := rfl
@[simp] theorem freeTaken_ingest : (freeTaken s).ingest = s.ingest := rfl
@[simp] theorem freeTaken_mail : (freeTaken s).mail = s.mail := rfl
@[simp] theorem freeTaken_twin : (freeTaken s).twin = s.twin := rfl
@[simp] theorem freeTaken_links : (freeTaken s).links = s.links := rfl
@[simp] theorem freeTaken_ingestValid : (freeTaken s).ingestValid = s.ingestValid := rfl
@[simp] theorem freeTaken_chz : (freeTaken s).chz = s.chz := rfl
@[simp] theorem freeTaken_ydx : (freeTaken s).ydx = s.ydx := rfl
@[simp] theorem freeTaken_badWords : (freeTaken s).badWords = s.badWords := rfl
@[simp] theorem freeTaken_ueSynd : (freeTaken s).ueSynd = s.ueSynd := rfl
@[simp] theorem freeTaken_xr : (freeTaken s).xr = s.xr := rfl
@[simp] theorem freeTaken_bfm : (freeTaken s).bfm = s.bfm := rfl
@[simp] theorem freeTaken_integ : (freeTaken s).integ = s.integ := rfl
@[simp] theorem freeTaken_cor : (freeTaken s).cor = s.cor := rfl
@[simp] theorem freeTaken_trg : (freeTaken s).trg = s.trg := rfl
@[simp] theorem freeTaken_mem : (freeTaken s).mem = s.mem := rfl
@[simp] theorem freeTaken_clk : (freeTaken s).clk = s.clk := rfl
@[simp] theorem freeTaken_ptp : (freeTaken s).ptp = s.ptp := rfl
@[simp] theorem freeTaken_brl : (freeTaken s).brl = s.brl := rfl
@[simp] theorem freeTaken_dma : (freeTaken s).dma = s.dma := rfl
@[simp] theorem freeTaken_pcie : (freeTaken s).pcie = s.pcie := rfl
@[simp] theorem freeTaken_cmp : (freeTaken s).cmp = s.cmp := rfl
@[simp] theorem freeTaken_evt : (freeTaken s).evt = s.evt := rfl
@[simp] theorem freeTaken_ydxSeed : (freeTaken s).ydxSeed = s.ydxSeed := rfl
@[simp] theorem freeTaken_str : (freeTaken s).str = s.str := rfl
@[simp] theorem freeTaken_pwr : (freeTaken s).pwr = s.pwr := rfl
@[simp] theorem freeTaken_pending : (freeTaken s).pending = s.pending := rfl

/-! ## setArch -/

@[simp] theorem setArch_regs (f : Arch → Arch) : (setArch s f).regs = s.regs := rfl
@[simp] theorem setArch_pairLow (f : Arch → Arch) : (setArch s f).pairLow = s.pairLow := rfl
@[simp] theorem setArch_pairLatch (f : Arch → Arch) : (setArch s f).pairLatch = s.pairLatch := rfl
@[simp] theorem setArch_dram (f : Arch → Arch) : (setArch s f).dram = s.dram := rfl
@[simp] theorem setArch_arrays (f : Arch → Arch) : (setArch s f).arrays = s.arrays := rfl
@[simp] theorem setArch_epochs (f : Arch → Arch) : (setArch s f).epochs = s.epochs := rfl
@[simp] theorem setArch_totals (f : Arch → Arch) : (setArch s f).totals = s.totals := rfl
@[simp] theorem setArch_counter (f : Arch → Arch) : (setArch s f).counter = s.counter := rfl
@[simp] theorem setArch_free (f : Arch → Arch) : (setArch s f).free = s.free := rfl
@[simp] theorem setArch_out (f : Arch → Arch) : (setArch s f).out = s.out := rfl
@[simp] theorem setArch_pulses (f : Arch → Arch) : (setArch s f).pulses = s.pulses := rfl
@[simp] theorem setArch_lanes (f : Arch → Arch) : (setArch s f).lanes = s.lanes := rfl
@[simp] theorem setArch_calActive (f : Arch → Arch) : (setArch s f).calActive = s.calActive := rfl
@[simp] theorem setArch_ingest (f : Arch → Arch) : (setArch s f).ingest = s.ingest := rfl
@[simp] theorem setArch_mail (f : Arch → Arch) : (setArch s f).mail = s.mail := rfl
@[simp] theorem setArch_twin (f : Arch → Arch) : (setArch s f).twin = s.twin := rfl
@[simp] theorem setArch_links (f : Arch → Arch) : (setArch s f).links = s.links := rfl
@[simp] theorem setArch_ingestValid (f : Arch → Arch) : (setArch s f).ingestValid = s.ingestValid := rfl
@[simp] theorem setArch_chz (f : Arch → Arch) : (setArch s f).chz = s.chz := rfl
@[simp] theorem setArch_ydx (f : Arch → Arch) : (setArch s f).ydx = s.ydx := rfl
@[simp] theorem setArch_badWords (f : Arch → Arch) : (setArch s f).badWords = s.badWords := rfl
@[simp] theorem setArch_ueSynd (f : Arch → Arch) : (setArch s f).ueSynd = s.ueSynd := rfl
@[simp] theorem setArch_xr (f : Arch → Arch) : (setArch s f).xr = s.xr := rfl
@[simp] theorem setArch_bfm (f : Arch → Arch) : (setArch s f).bfm = s.bfm := rfl
@[simp] theorem setArch_integ (f : Arch → Arch) : (setArch s f).integ = s.integ := rfl
@[simp] theorem setArch_cor (f : Arch → Arch) : (setArch s f).cor = s.cor := rfl
@[simp] theorem setArch_trg (f : Arch → Arch) : (setArch s f).trg = s.trg := rfl
@[simp] theorem setArch_mem (f : Arch → Arch) : (setArch s f).mem = s.mem := rfl
@[simp] theorem setArch_clk (f : Arch → Arch) : (setArch s f).clk = s.clk := rfl
@[simp] theorem setArch_ptp (f : Arch → Arch) : (setArch s f).ptp = s.ptp := rfl
@[simp] theorem setArch_brl (f : Arch → Arch) : (setArch s f).brl = s.brl := rfl
@[simp] theorem setArch_dma (f : Arch → Arch) : (setArch s f).dma = s.dma := rfl
@[simp] theorem setArch_pcie (f : Arch → Arch) : (setArch s f).pcie = s.pcie := rfl
@[simp] theorem setArch_cmp (f : Arch → Arch) : (setArch s f).cmp = s.cmp := rfl
@[simp] theorem setArch_evt (f : Arch → Arch) : (setArch s f).evt = s.evt := rfl
@[simp] theorem setArch_ydxSeed (f : Arch → Arch) : (setArch s f).ydxSeed = s.ydxSeed := rfl
@[simp] theorem setArch_str (f : Arch → Arch) : (setArch s f).str = s.str := rfl
@[simp] theorem setArch_pwr (f : Arch → Arch) : (setArch s f).pwr = s.pwr := rfl
@[simp] theorem setArch_pending (f : Arch → Arch) : (setArch s f).pending = s.pending := rfl

/-! ## setStr -/

@[simp] theorem setStr_regs (f : Str → Str) : (setStr s f).regs = s.regs := rfl
@[simp] theorem setStr_pairLow (f : Str → Str) : (setStr s f).pairLow = s.pairLow := rfl
@[simp] theorem setStr_pairLatch (f : Str → Str) : (setStr s f).pairLatch = s.pairLatch := rfl
@[simp] theorem setStr_dram (f : Str → Str) : (setStr s f).dram = s.dram := rfl
@[simp] theorem setStr_arrays (f : Str → Str) : (setStr s f).arrays = s.arrays := rfl
@[simp] theorem setStr_epochs (f : Str → Str) : (setStr s f).epochs = s.epochs := rfl
@[simp] theorem setStr_totals (f : Str → Str) : (setStr s f).totals = s.totals := rfl
@[simp] theorem setStr_counter (f : Str → Str) : (setStr s f).counter = s.counter := rfl
@[simp] theorem setStr_free (f : Str → Str) : (setStr s f).free = s.free := rfl
@[simp] theorem setStr_out (f : Str → Str) : (setStr s f).out = s.out := rfl
@[simp] theorem setStr_pulses (f : Str → Str) : (setStr s f).pulses = s.pulses := rfl
@[simp] theorem setStr_arch (f : Str → Str) : (setStr s f).arch = s.arch := rfl
@[simp] theorem setStr_lanes (f : Str → Str) : (setStr s f).lanes = s.lanes := rfl
@[simp] theorem setStr_calActive (f : Str → Str) : (setStr s f).calActive = s.calActive := rfl
@[simp] theorem setStr_ingest (f : Str → Str) : (setStr s f).ingest = s.ingest := rfl
@[simp] theorem setStr_mail (f : Str → Str) : (setStr s f).mail = s.mail := rfl
@[simp] theorem setStr_twin (f : Str → Str) : (setStr s f).twin = s.twin := rfl
@[simp] theorem setStr_links (f : Str → Str) : (setStr s f).links = s.links := rfl
@[simp] theorem setStr_ingestValid (f : Str → Str) : (setStr s f).ingestValid = s.ingestValid := rfl
@[simp] theorem setStr_chz (f : Str → Str) : (setStr s f).chz = s.chz := rfl
@[simp] theorem setStr_ydx (f : Str → Str) : (setStr s f).ydx = s.ydx := rfl
@[simp] theorem setStr_badWords (f : Str → Str) : (setStr s f).badWords = s.badWords := rfl
@[simp] theorem setStr_ueSynd (f : Str → Str) : (setStr s f).ueSynd = s.ueSynd := rfl
@[simp] theorem setStr_xr (f : Str → Str) : (setStr s f).xr = s.xr := rfl
@[simp] theorem setStr_bfm (f : Str → Str) : (setStr s f).bfm = s.bfm := rfl
@[simp] theorem setStr_integ (f : Str → Str) : (setStr s f).integ = s.integ := rfl
@[simp] theorem setStr_cor (f : Str → Str) : (setStr s f).cor = s.cor := rfl
@[simp] theorem setStr_trg (f : Str → Str) : (setStr s f).trg = s.trg := rfl
@[simp] theorem setStr_mem (f : Str → Str) : (setStr s f).mem = s.mem := rfl
@[simp] theorem setStr_clk (f : Str → Str) : (setStr s f).clk = s.clk := rfl
@[simp] theorem setStr_ptp (f : Str → Str) : (setStr s f).ptp = s.ptp := rfl
@[simp] theorem setStr_brl (f : Str → Str) : (setStr s f).brl = s.brl := rfl
@[simp] theorem setStr_dma (f : Str → Str) : (setStr s f).dma = s.dma := rfl
@[simp] theorem setStr_pcie (f : Str → Str) : (setStr s f).pcie = s.pcie := rfl
@[simp] theorem setStr_cmp (f : Str → Str) : (setStr s f).cmp = s.cmp := rfl
@[simp] theorem setStr_evt (f : Str → Str) : (setStr s f).evt = s.evt := rfl
@[simp] theorem setStr_ydxSeed (f : Str → Str) : (setStr s f).ydxSeed = s.ydxSeed := rfl
@[simp] theorem setStr_pwr (f : Str → Str) : (setStr s f).pwr = s.pwr := rfl
@[simp] theorem setStr_pending (f : Str → Str) : (setStr s f).pending = s.pending := rfl

/-! ## setPwr -/

@[simp] theorem setPwr_regs (f : Pwr → Pwr) : (setPwr s f).regs = s.regs := rfl
@[simp] theorem setPwr_pairLow (f : Pwr → Pwr) : (setPwr s f).pairLow = s.pairLow := rfl
@[simp] theorem setPwr_pairLatch (f : Pwr → Pwr) : (setPwr s f).pairLatch = s.pairLatch := rfl
@[simp] theorem setPwr_dram (f : Pwr → Pwr) : (setPwr s f).dram = s.dram := rfl
@[simp] theorem setPwr_arrays (f : Pwr → Pwr) : (setPwr s f).arrays = s.arrays := rfl
@[simp] theorem setPwr_epochs (f : Pwr → Pwr) : (setPwr s f).epochs = s.epochs := rfl
@[simp] theorem setPwr_totals (f : Pwr → Pwr) : (setPwr s f).totals = s.totals := rfl
@[simp] theorem setPwr_counter (f : Pwr → Pwr) : (setPwr s f).counter = s.counter := rfl
@[simp] theorem setPwr_free (f : Pwr → Pwr) : (setPwr s f).free = s.free := rfl
@[simp] theorem setPwr_out (f : Pwr → Pwr) : (setPwr s f).out = s.out := rfl
@[simp] theorem setPwr_pulses (f : Pwr → Pwr) : (setPwr s f).pulses = s.pulses := rfl
@[simp] theorem setPwr_arch (f : Pwr → Pwr) : (setPwr s f).arch = s.arch := rfl
@[simp] theorem setPwr_lanes (f : Pwr → Pwr) : (setPwr s f).lanes = s.lanes := rfl
@[simp] theorem setPwr_calActive (f : Pwr → Pwr) : (setPwr s f).calActive = s.calActive := rfl
@[simp] theorem setPwr_ingest (f : Pwr → Pwr) : (setPwr s f).ingest = s.ingest := rfl
@[simp] theorem setPwr_mail (f : Pwr → Pwr) : (setPwr s f).mail = s.mail := rfl
@[simp] theorem setPwr_twin (f : Pwr → Pwr) : (setPwr s f).twin = s.twin := rfl
@[simp] theorem setPwr_links (f : Pwr → Pwr) : (setPwr s f).links = s.links := rfl
@[simp] theorem setPwr_ingestValid (f : Pwr → Pwr) : (setPwr s f).ingestValid = s.ingestValid := rfl
@[simp] theorem setPwr_chz (f : Pwr → Pwr) : (setPwr s f).chz = s.chz := rfl
@[simp] theorem setPwr_ydx (f : Pwr → Pwr) : (setPwr s f).ydx = s.ydx := rfl
@[simp] theorem setPwr_badWords (f : Pwr → Pwr) : (setPwr s f).badWords = s.badWords := rfl
@[simp] theorem setPwr_ueSynd (f : Pwr → Pwr) : (setPwr s f).ueSynd = s.ueSynd := rfl
@[simp] theorem setPwr_xr (f : Pwr → Pwr) : (setPwr s f).xr = s.xr := rfl
@[simp] theorem setPwr_bfm (f : Pwr → Pwr) : (setPwr s f).bfm = s.bfm := rfl
@[simp] theorem setPwr_integ (f : Pwr → Pwr) : (setPwr s f).integ = s.integ := rfl
@[simp] theorem setPwr_cor (f : Pwr → Pwr) : (setPwr s f).cor = s.cor := rfl
@[simp] theorem setPwr_trg (f : Pwr → Pwr) : (setPwr s f).trg = s.trg := rfl
@[simp] theorem setPwr_mem (f : Pwr → Pwr) : (setPwr s f).mem = s.mem := rfl
@[simp] theorem setPwr_clk (f : Pwr → Pwr) : (setPwr s f).clk = s.clk := rfl
@[simp] theorem setPwr_ptp (f : Pwr → Pwr) : (setPwr s f).ptp = s.ptp := rfl
@[simp] theorem setPwr_brl (f : Pwr → Pwr) : (setPwr s f).brl = s.brl := rfl
@[simp] theorem setPwr_dma (f : Pwr → Pwr) : (setPwr s f).dma = s.dma := rfl
@[simp] theorem setPwr_pcie (f : Pwr → Pwr) : (setPwr s f).pcie = s.pcie := rfl
@[simp] theorem setPwr_cmp (f : Pwr → Pwr) : (setPwr s f).cmp = s.cmp := rfl
@[simp] theorem setPwr_evt (f : Pwr → Pwr) : (setPwr s f).evt = s.evt := rfl
@[simp] theorem setPwr_ydxSeed (f : Pwr → Pwr) : (setPwr s f).ydxSeed = s.ydxSeed := rfl
@[simp] theorem setPwr_str (f : Pwr → Pwr) : (setPwr s f).str = s.str := rfl
@[simp] theorem setPwr_pending (f : Pwr → Pwr) : (setPwr s f).pending = s.pending := rfl

/-! ## setTwin -/

@[simp] theorem setTwin_regs (f : Twin → Twin) : (setTwin s f).regs = s.regs := rfl
@[simp] theorem setTwin_pairLow (f : Twin → Twin) : (setTwin s f).pairLow = s.pairLow := rfl
@[simp] theorem setTwin_pairLatch (f : Twin → Twin) : (setTwin s f).pairLatch = s.pairLatch := rfl
@[simp] theorem setTwin_dram (f : Twin → Twin) : (setTwin s f).dram = s.dram := rfl
@[simp] theorem setTwin_arrays (f : Twin → Twin) : (setTwin s f).arrays = s.arrays := rfl
@[simp] theorem setTwin_epochs (f : Twin → Twin) : (setTwin s f).epochs = s.epochs := rfl
@[simp] theorem setTwin_totals (f : Twin → Twin) : (setTwin s f).totals = s.totals := rfl
@[simp] theorem setTwin_counter (f : Twin → Twin) : (setTwin s f).counter = s.counter := rfl
@[simp] theorem setTwin_free (f : Twin → Twin) : (setTwin s f).free = s.free := rfl
@[simp] theorem setTwin_out (f : Twin → Twin) : (setTwin s f).out = s.out := rfl
@[simp] theorem setTwin_pulses (f : Twin → Twin) : (setTwin s f).pulses = s.pulses := rfl
@[simp] theorem setTwin_arch (f : Twin → Twin) : (setTwin s f).arch = s.arch := rfl
@[simp] theorem setTwin_lanes (f : Twin → Twin) : (setTwin s f).lanes = s.lanes := rfl
@[simp] theorem setTwin_calActive (f : Twin → Twin) : (setTwin s f).calActive = s.calActive := rfl
@[simp] theorem setTwin_ingest (f : Twin → Twin) : (setTwin s f).ingest = s.ingest := rfl
@[simp] theorem setTwin_mail (f : Twin → Twin) : (setTwin s f).mail = s.mail := rfl
@[simp] theorem setTwin_links (f : Twin → Twin) : (setTwin s f).links = s.links := rfl
@[simp] theorem setTwin_ingestValid (f : Twin → Twin) : (setTwin s f).ingestValid = s.ingestValid := rfl
@[simp] theorem setTwin_chz (f : Twin → Twin) : (setTwin s f).chz = s.chz := rfl
@[simp] theorem setTwin_ydx (f : Twin → Twin) : (setTwin s f).ydx = s.ydx := rfl
@[simp] theorem setTwin_badWords (f : Twin → Twin) : (setTwin s f).badWords = s.badWords := rfl
@[simp] theorem setTwin_ueSynd (f : Twin → Twin) : (setTwin s f).ueSynd = s.ueSynd := rfl
@[simp] theorem setTwin_xr (f : Twin → Twin) : (setTwin s f).xr = s.xr := rfl
@[simp] theorem setTwin_bfm (f : Twin → Twin) : (setTwin s f).bfm = s.bfm := rfl
@[simp] theorem setTwin_integ (f : Twin → Twin) : (setTwin s f).integ = s.integ := rfl
@[simp] theorem setTwin_cor (f : Twin → Twin) : (setTwin s f).cor = s.cor := rfl
@[simp] theorem setTwin_trg (f : Twin → Twin) : (setTwin s f).trg = s.trg := rfl
@[simp] theorem setTwin_mem (f : Twin → Twin) : (setTwin s f).mem = s.mem := rfl
@[simp] theorem setTwin_clk (f : Twin → Twin) : (setTwin s f).clk = s.clk := rfl
@[simp] theorem setTwin_ptp (f : Twin → Twin) : (setTwin s f).ptp = s.ptp := rfl
@[simp] theorem setTwin_brl (f : Twin → Twin) : (setTwin s f).brl = s.brl := rfl
@[simp] theorem setTwin_dma (f : Twin → Twin) : (setTwin s f).dma = s.dma := rfl
@[simp] theorem setTwin_pcie (f : Twin → Twin) : (setTwin s f).pcie = s.pcie := rfl
@[simp] theorem setTwin_cmp (f : Twin → Twin) : (setTwin s f).cmp = s.cmp := rfl
@[simp] theorem setTwin_evt (f : Twin → Twin) : (setTwin s f).evt = s.evt := rfl
@[simp] theorem setTwin_ydxSeed (f : Twin → Twin) : (setTwin s f).ydxSeed = s.ydxSeed := rfl
@[simp] theorem setTwin_str (f : Twin → Twin) : (setTwin s f).str = s.str := rfl
@[simp] theorem setTwin_pwr (f : Twin → Twin) : (setTwin s f).pwr = s.pwr := rfl
@[simp] theorem setTwin_pending (f : Twin → Twin) : (setTwin s f).pending = s.pending := rfl

/-! ## setChz -/

@[simp] theorem setChz_regs (f : Chz → Chz) : (setChz s f).regs = s.regs := rfl
@[simp] theorem setChz_pairLow (f : Chz → Chz) : (setChz s f).pairLow = s.pairLow := rfl
@[simp] theorem setChz_pairLatch (f : Chz → Chz) : (setChz s f).pairLatch = s.pairLatch := rfl
@[simp] theorem setChz_dram (f : Chz → Chz) : (setChz s f).dram = s.dram := rfl
@[simp] theorem setChz_arrays (f : Chz → Chz) : (setChz s f).arrays = s.arrays := rfl
@[simp] theorem setChz_epochs (f : Chz → Chz) : (setChz s f).epochs = s.epochs := rfl
@[simp] theorem setChz_totals (f : Chz → Chz) : (setChz s f).totals = s.totals := rfl
@[simp] theorem setChz_counter (f : Chz → Chz) : (setChz s f).counter = s.counter := rfl
@[simp] theorem setChz_free (f : Chz → Chz) : (setChz s f).free = s.free := rfl
@[simp] theorem setChz_out (f : Chz → Chz) : (setChz s f).out = s.out := rfl
@[simp] theorem setChz_pulses (f : Chz → Chz) : (setChz s f).pulses = s.pulses := rfl
@[simp] theorem setChz_arch (f : Chz → Chz) : (setChz s f).arch = s.arch := rfl
@[simp] theorem setChz_lanes (f : Chz → Chz) : (setChz s f).lanes = s.lanes := rfl
@[simp] theorem setChz_calActive (f : Chz → Chz) : (setChz s f).calActive = s.calActive := rfl
@[simp] theorem setChz_ingest (f : Chz → Chz) : (setChz s f).ingest = s.ingest := rfl
@[simp] theorem setChz_mail (f : Chz → Chz) : (setChz s f).mail = s.mail := rfl
@[simp] theorem setChz_twin (f : Chz → Chz) : (setChz s f).twin = s.twin := rfl
@[simp] theorem setChz_links (f : Chz → Chz) : (setChz s f).links = s.links := rfl
@[simp] theorem setChz_ingestValid (f : Chz → Chz) : (setChz s f).ingestValid = s.ingestValid := rfl
@[simp] theorem setChz_ydx (f : Chz → Chz) : (setChz s f).ydx = s.ydx := rfl
@[simp] theorem setChz_badWords (f : Chz → Chz) : (setChz s f).badWords = s.badWords := rfl
@[simp] theorem setChz_ueSynd (f : Chz → Chz) : (setChz s f).ueSynd = s.ueSynd := rfl
@[simp] theorem setChz_xr (f : Chz → Chz) : (setChz s f).xr = s.xr := rfl
@[simp] theorem setChz_bfm (f : Chz → Chz) : (setChz s f).bfm = s.bfm := rfl
@[simp] theorem setChz_integ (f : Chz → Chz) : (setChz s f).integ = s.integ := rfl
@[simp] theorem setChz_cor (f : Chz → Chz) : (setChz s f).cor = s.cor := rfl
@[simp] theorem setChz_trg (f : Chz → Chz) : (setChz s f).trg = s.trg := rfl
@[simp] theorem setChz_mem (f : Chz → Chz) : (setChz s f).mem = s.mem := rfl
@[simp] theorem setChz_clk (f : Chz → Chz) : (setChz s f).clk = s.clk := rfl
@[simp] theorem setChz_ptp (f : Chz → Chz) : (setChz s f).ptp = s.ptp := rfl
@[simp] theorem setChz_brl (f : Chz → Chz) : (setChz s f).brl = s.brl := rfl
@[simp] theorem setChz_dma (f : Chz → Chz) : (setChz s f).dma = s.dma := rfl
@[simp] theorem setChz_pcie (f : Chz → Chz) : (setChz s f).pcie = s.pcie := rfl
@[simp] theorem setChz_cmp (f : Chz → Chz) : (setChz s f).cmp = s.cmp := rfl
@[simp] theorem setChz_evt (f : Chz → Chz) : (setChz s f).evt = s.evt := rfl
@[simp] theorem setChz_ydxSeed (f : Chz → Chz) : (setChz s f).ydxSeed = s.ydxSeed := rfl
@[simp] theorem setChz_str (f : Chz → Chz) : (setChz s f).str = s.str := rfl
@[simp] theorem setChz_pwr (f : Chz → Chz) : (setChz s f).pwr = s.pwr := rfl
@[simp] theorem setChz_pending (f : Chz → Chz) : (setChz s f).pending = s.pending := rfl

/-! ## setXr -/

@[simp] theorem setXr_regs (f : Xr → Xr) : (setXr s f).regs = s.regs := rfl
@[simp] theorem setXr_pairLow (f : Xr → Xr) : (setXr s f).pairLow = s.pairLow := rfl
@[simp] theorem setXr_pairLatch (f : Xr → Xr) : (setXr s f).pairLatch = s.pairLatch := rfl
@[simp] theorem setXr_dram (f : Xr → Xr) : (setXr s f).dram = s.dram := rfl
@[simp] theorem setXr_arrays (f : Xr → Xr) : (setXr s f).arrays = s.arrays := rfl
@[simp] theorem setXr_epochs (f : Xr → Xr) : (setXr s f).epochs = s.epochs := rfl
@[simp] theorem setXr_totals (f : Xr → Xr) : (setXr s f).totals = s.totals := rfl
@[simp] theorem setXr_counter (f : Xr → Xr) : (setXr s f).counter = s.counter := rfl
@[simp] theorem setXr_free (f : Xr → Xr) : (setXr s f).free = s.free := rfl
@[simp] theorem setXr_out (f : Xr → Xr) : (setXr s f).out = s.out := rfl
@[simp] theorem setXr_pulses (f : Xr → Xr) : (setXr s f).pulses = s.pulses := rfl
@[simp] theorem setXr_arch (f : Xr → Xr) : (setXr s f).arch = s.arch := rfl
@[simp] theorem setXr_lanes (f : Xr → Xr) : (setXr s f).lanes = s.lanes := rfl
@[simp] theorem setXr_calActive (f : Xr → Xr) : (setXr s f).calActive = s.calActive := rfl
@[simp] theorem setXr_ingest (f : Xr → Xr) : (setXr s f).ingest = s.ingest := rfl
@[simp] theorem setXr_mail (f : Xr → Xr) : (setXr s f).mail = s.mail := rfl
@[simp] theorem setXr_twin (f : Xr → Xr) : (setXr s f).twin = s.twin := rfl
@[simp] theorem setXr_links (f : Xr → Xr) : (setXr s f).links = s.links := rfl
@[simp] theorem setXr_ingestValid (f : Xr → Xr) : (setXr s f).ingestValid = s.ingestValid := rfl
@[simp] theorem setXr_chz (f : Xr → Xr) : (setXr s f).chz = s.chz := rfl
@[simp] theorem setXr_ydx (f : Xr → Xr) : (setXr s f).ydx = s.ydx := rfl
@[simp] theorem setXr_badWords (f : Xr → Xr) : (setXr s f).badWords = s.badWords := rfl
@[simp] theorem setXr_ueSynd (f : Xr → Xr) : (setXr s f).ueSynd = s.ueSynd := rfl
@[simp] theorem setXr_bfm (f : Xr → Xr) : (setXr s f).bfm = s.bfm := rfl
@[simp] theorem setXr_integ (f : Xr → Xr) : (setXr s f).integ = s.integ := rfl
@[simp] theorem setXr_cor (f : Xr → Xr) : (setXr s f).cor = s.cor := rfl
@[simp] theorem setXr_trg (f : Xr → Xr) : (setXr s f).trg = s.trg := rfl
@[simp] theorem setXr_mem (f : Xr → Xr) : (setXr s f).mem = s.mem := rfl
@[simp] theorem setXr_clk (f : Xr → Xr) : (setXr s f).clk = s.clk := rfl
@[simp] theorem setXr_ptp (f : Xr → Xr) : (setXr s f).ptp = s.ptp := rfl
@[simp] theorem setXr_brl (f : Xr → Xr) : (setXr s f).brl = s.brl := rfl
@[simp] theorem setXr_dma (f : Xr → Xr) : (setXr s f).dma = s.dma := rfl
@[simp] theorem setXr_pcie (f : Xr → Xr) : (setXr s f).pcie = s.pcie := rfl
@[simp] theorem setXr_cmp (f : Xr → Xr) : (setXr s f).cmp = s.cmp := rfl
@[simp] theorem setXr_evt (f : Xr → Xr) : (setXr s f).evt = s.evt := rfl
@[simp] theorem setXr_ydxSeed (f : Xr → Xr) : (setXr s f).ydxSeed = s.ydxSeed := rfl
@[simp] theorem setXr_str (f : Xr → Xr) : (setXr s f).str = s.str := rfl
@[simp] theorem setXr_pwr (f : Xr → Xr) : (setXr s f).pwr = s.pwr := rfl
@[simp] theorem setXr_pending (f : Xr → Xr) : (setXr s f).pending = s.pending := rfl

/-! ## setBfm -/

@[simp] theorem setBfm_regs (f : Bfm → Bfm) : (setBfm s f).regs = s.regs := rfl
@[simp] theorem setBfm_pairLow (f : Bfm → Bfm) : (setBfm s f).pairLow = s.pairLow := rfl
@[simp] theorem setBfm_pairLatch (f : Bfm → Bfm) : (setBfm s f).pairLatch = s.pairLatch := rfl
@[simp] theorem setBfm_dram (f : Bfm → Bfm) : (setBfm s f).dram = s.dram := rfl
@[simp] theorem setBfm_arrays (f : Bfm → Bfm) : (setBfm s f).arrays = s.arrays := rfl
@[simp] theorem setBfm_epochs (f : Bfm → Bfm) : (setBfm s f).epochs = s.epochs := rfl
@[simp] theorem setBfm_totals (f : Bfm → Bfm) : (setBfm s f).totals = s.totals := rfl
@[simp] theorem setBfm_counter (f : Bfm → Bfm) : (setBfm s f).counter = s.counter := rfl
@[simp] theorem setBfm_free (f : Bfm → Bfm) : (setBfm s f).free = s.free := rfl
@[simp] theorem setBfm_out (f : Bfm → Bfm) : (setBfm s f).out = s.out := rfl
@[simp] theorem setBfm_pulses (f : Bfm → Bfm) : (setBfm s f).pulses = s.pulses := rfl
@[simp] theorem setBfm_arch (f : Bfm → Bfm) : (setBfm s f).arch = s.arch := rfl
@[simp] theorem setBfm_lanes (f : Bfm → Bfm) : (setBfm s f).lanes = s.lanes := rfl
@[simp] theorem setBfm_calActive (f : Bfm → Bfm) : (setBfm s f).calActive = s.calActive := rfl
@[simp] theorem setBfm_ingest (f : Bfm → Bfm) : (setBfm s f).ingest = s.ingest := rfl
@[simp] theorem setBfm_mail (f : Bfm → Bfm) : (setBfm s f).mail = s.mail := rfl
@[simp] theorem setBfm_twin (f : Bfm → Bfm) : (setBfm s f).twin = s.twin := rfl
@[simp] theorem setBfm_links (f : Bfm → Bfm) : (setBfm s f).links = s.links := rfl
@[simp] theorem setBfm_ingestValid (f : Bfm → Bfm) : (setBfm s f).ingestValid = s.ingestValid := rfl
@[simp] theorem setBfm_chz (f : Bfm → Bfm) : (setBfm s f).chz = s.chz := rfl
@[simp] theorem setBfm_ydx (f : Bfm → Bfm) : (setBfm s f).ydx = s.ydx := rfl
@[simp] theorem setBfm_badWords (f : Bfm → Bfm) : (setBfm s f).badWords = s.badWords := rfl
@[simp] theorem setBfm_ueSynd (f : Bfm → Bfm) : (setBfm s f).ueSynd = s.ueSynd := rfl
@[simp] theorem setBfm_xr (f : Bfm → Bfm) : (setBfm s f).xr = s.xr := rfl
@[simp] theorem setBfm_integ (f : Bfm → Bfm) : (setBfm s f).integ = s.integ := rfl
@[simp] theorem setBfm_cor (f : Bfm → Bfm) : (setBfm s f).cor = s.cor := rfl
@[simp] theorem setBfm_trg (f : Bfm → Bfm) : (setBfm s f).trg = s.trg := rfl
@[simp] theorem setBfm_mem (f : Bfm → Bfm) : (setBfm s f).mem = s.mem := rfl
@[simp] theorem setBfm_clk (f : Bfm → Bfm) : (setBfm s f).clk = s.clk := rfl
@[simp] theorem setBfm_ptp (f : Bfm → Bfm) : (setBfm s f).ptp = s.ptp := rfl
@[simp] theorem setBfm_brl (f : Bfm → Bfm) : (setBfm s f).brl = s.brl := rfl
@[simp] theorem setBfm_dma (f : Bfm → Bfm) : (setBfm s f).dma = s.dma := rfl
@[simp] theorem setBfm_pcie (f : Bfm → Bfm) : (setBfm s f).pcie = s.pcie := rfl
@[simp] theorem setBfm_cmp (f : Bfm → Bfm) : (setBfm s f).cmp = s.cmp := rfl
@[simp] theorem setBfm_evt (f : Bfm → Bfm) : (setBfm s f).evt = s.evt := rfl
@[simp] theorem setBfm_ydxSeed (f : Bfm → Bfm) : (setBfm s f).ydxSeed = s.ydxSeed := rfl
@[simp] theorem setBfm_str (f : Bfm → Bfm) : (setBfm s f).str = s.str := rfl
@[simp] theorem setBfm_pwr (f : Bfm → Bfm) : (setBfm s f).pwr = s.pwr := rfl
@[simp] theorem setBfm_pending (f : Bfm → Bfm) : (setBfm s f).pending = s.pending := rfl

/-! ## setCor -/

@[simp] theorem setCor_regs (f : Cor → Cor) : (setCor s f).regs = s.regs := rfl
@[simp] theorem setCor_pairLow (f : Cor → Cor) : (setCor s f).pairLow = s.pairLow := rfl
@[simp] theorem setCor_pairLatch (f : Cor → Cor) : (setCor s f).pairLatch = s.pairLatch := rfl
@[simp] theorem setCor_dram (f : Cor → Cor) : (setCor s f).dram = s.dram := rfl
@[simp] theorem setCor_arrays (f : Cor → Cor) : (setCor s f).arrays = s.arrays := rfl
@[simp] theorem setCor_epochs (f : Cor → Cor) : (setCor s f).epochs = s.epochs := rfl
@[simp] theorem setCor_totals (f : Cor → Cor) : (setCor s f).totals = s.totals := rfl
@[simp] theorem setCor_counter (f : Cor → Cor) : (setCor s f).counter = s.counter := rfl
@[simp] theorem setCor_free (f : Cor → Cor) : (setCor s f).free = s.free := rfl
@[simp] theorem setCor_out (f : Cor → Cor) : (setCor s f).out = s.out := rfl
@[simp] theorem setCor_pulses (f : Cor → Cor) : (setCor s f).pulses = s.pulses := rfl
@[simp] theorem setCor_arch (f : Cor → Cor) : (setCor s f).arch = s.arch := rfl
@[simp] theorem setCor_lanes (f : Cor → Cor) : (setCor s f).lanes = s.lanes := rfl
@[simp] theorem setCor_calActive (f : Cor → Cor) : (setCor s f).calActive = s.calActive := rfl
@[simp] theorem setCor_ingest (f : Cor → Cor) : (setCor s f).ingest = s.ingest := rfl
@[simp] theorem setCor_mail (f : Cor → Cor) : (setCor s f).mail = s.mail := rfl
@[simp] theorem setCor_twin (f : Cor → Cor) : (setCor s f).twin = s.twin := rfl
@[simp] theorem setCor_links (f : Cor → Cor) : (setCor s f).links = s.links := rfl
@[simp] theorem setCor_ingestValid (f : Cor → Cor) : (setCor s f).ingestValid = s.ingestValid := rfl
@[simp] theorem setCor_chz (f : Cor → Cor) : (setCor s f).chz = s.chz := rfl
@[simp] theorem setCor_ydx (f : Cor → Cor) : (setCor s f).ydx = s.ydx := rfl
@[simp] theorem setCor_badWords (f : Cor → Cor) : (setCor s f).badWords = s.badWords := rfl
@[simp] theorem setCor_ueSynd (f : Cor → Cor) : (setCor s f).ueSynd = s.ueSynd := rfl
@[simp] theorem setCor_xr (f : Cor → Cor) : (setCor s f).xr = s.xr := rfl
@[simp] theorem setCor_bfm (f : Cor → Cor) : (setCor s f).bfm = s.bfm := rfl
@[simp] theorem setCor_integ (f : Cor → Cor) : (setCor s f).integ = s.integ := rfl
@[simp] theorem setCor_trg (f : Cor → Cor) : (setCor s f).trg = s.trg := rfl
@[simp] theorem setCor_mem (f : Cor → Cor) : (setCor s f).mem = s.mem := rfl
@[simp] theorem setCor_clk (f : Cor → Cor) : (setCor s f).clk = s.clk := rfl
@[simp] theorem setCor_ptp (f : Cor → Cor) : (setCor s f).ptp = s.ptp := rfl
@[simp] theorem setCor_brl (f : Cor → Cor) : (setCor s f).brl = s.brl := rfl
@[simp] theorem setCor_dma (f : Cor → Cor) : (setCor s f).dma = s.dma := rfl
@[simp] theorem setCor_pcie (f : Cor → Cor) : (setCor s f).pcie = s.pcie := rfl
@[simp] theorem setCor_cmp (f : Cor → Cor) : (setCor s f).cmp = s.cmp := rfl
@[simp] theorem setCor_evt (f : Cor → Cor) : (setCor s f).evt = s.evt := rfl
@[simp] theorem setCor_ydxSeed (f : Cor → Cor) : (setCor s f).ydxSeed = s.ydxSeed := rfl
@[simp] theorem setCor_str (f : Cor → Cor) : (setCor s f).str = s.str := rfl
@[simp] theorem setCor_pwr (f : Cor → Cor) : (setCor s f).pwr = s.pwr := rfl
@[simp] theorem setCor_pending (f : Cor → Cor) : (setCor s f).pending = s.pending := rfl

/-! ## setInteg -/

@[simp] theorem setInteg_regs (f : Integ → Integ) : (setInteg s f).regs = s.regs := rfl
@[simp] theorem setInteg_pairLow (f : Integ → Integ) : (setInteg s f).pairLow = s.pairLow := rfl
@[simp] theorem setInteg_pairLatch (f : Integ → Integ) : (setInteg s f).pairLatch = s.pairLatch := rfl
@[simp] theorem setInteg_dram (f : Integ → Integ) : (setInteg s f).dram = s.dram := rfl
@[simp] theorem setInteg_arrays (f : Integ → Integ) : (setInteg s f).arrays = s.arrays := rfl
@[simp] theorem setInteg_epochs (f : Integ → Integ) : (setInteg s f).epochs = s.epochs := rfl
@[simp] theorem setInteg_totals (f : Integ → Integ) : (setInteg s f).totals = s.totals := rfl
@[simp] theorem setInteg_counter (f : Integ → Integ) : (setInteg s f).counter = s.counter := rfl
@[simp] theorem setInteg_free (f : Integ → Integ) : (setInteg s f).free = s.free := rfl
@[simp] theorem setInteg_out (f : Integ → Integ) : (setInteg s f).out = s.out := rfl
@[simp] theorem setInteg_pulses (f : Integ → Integ) : (setInteg s f).pulses = s.pulses := rfl
@[simp] theorem setInteg_arch (f : Integ → Integ) : (setInteg s f).arch = s.arch := rfl
@[simp] theorem setInteg_lanes (f : Integ → Integ) : (setInteg s f).lanes = s.lanes := rfl
@[simp] theorem setInteg_calActive (f : Integ → Integ) : (setInteg s f).calActive = s.calActive := rfl
@[simp] theorem setInteg_ingest (f : Integ → Integ) : (setInteg s f).ingest = s.ingest := rfl
@[simp] theorem setInteg_mail (f : Integ → Integ) : (setInteg s f).mail = s.mail := rfl
@[simp] theorem setInteg_twin (f : Integ → Integ) : (setInteg s f).twin = s.twin := rfl
@[simp] theorem setInteg_links (f : Integ → Integ) : (setInteg s f).links = s.links := rfl
@[simp] theorem setInteg_ingestValid (f : Integ → Integ) : (setInteg s f).ingestValid = s.ingestValid := rfl
@[simp] theorem setInteg_chz (f : Integ → Integ) : (setInteg s f).chz = s.chz := rfl
@[simp] theorem setInteg_ydx (f : Integ → Integ) : (setInteg s f).ydx = s.ydx := rfl
@[simp] theorem setInteg_badWords (f : Integ → Integ) : (setInteg s f).badWords = s.badWords := rfl
@[simp] theorem setInteg_ueSynd (f : Integ → Integ) : (setInteg s f).ueSynd = s.ueSynd := rfl
@[simp] theorem setInteg_xr (f : Integ → Integ) : (setInteg s f).xr = s.xr := rfl
@[simp] theorem setInteg_bfm (f : Integ → Integ) : (setInteg s f).bfm = s.bfm := rfl
@[simp] theorem setInteg_cor (f : Integ → Integ) : (setInteg s f).cor = s.cor := rfl
@[simp] theorem setInteg_trg (f : Integ → Integ) : (setInteg s f).trg = s.trg := rfl
@[simp] theorem setInteg_mem (f : Integ → Integ) : (setInteg s f).mem = s.mem := rfl
@[simp] theorem setInteg_clk (f : Integ → Integ) : (setInteg s f).clk = s.clk := rfl
@[simp] theorem setInteg_ptp (f : Integ → Integ) : (setInteg s f).ptp = s.ptp := rfl
@[simp] theorem setInteg_brl (f : Integ → Integ) : (setInteg s f).brl = s.brl := rfl
@[simp] theorem setInteg_dma (f : Integ → Integ) : (setInteg s f).dma = s.dma := rfl
@[simp] theorem setInteg_pcie (f : Integ → Integ) : (setInteg s f).pcie = s.pcie := rfl
@[simp] theorem setInteg_cmp (f : Integ → Integ) : (setInteg s f).cmp = s.cmp := rfl
@[simp] theorem setInteg_evt (f : Integ → Integ) : (setInteg s f).evt = s.evt := rfl
@[simp] theorem setInteg_ydxSeed (f : Integ → Integ) : (setInteg s f).ydxSeed = s.ydxSeed := rfl
@[simp] theorem setInteg_str (f : Integ → Integ) : (setInteg s f).str = s.str := rfl
@[simp] theorem setInteg_pwr (f : Integ → Integ) : (setInteg s f).pwr = s.pwr := rfl
@[simp] theorem setInteg_pending (f : Integ → Integ) : (setInteg s f).pending = s.pending := rfl

/-! ## setTrg -/

@[simp] theorem setTrg_regs (f : Trg → Trg) : (setTrg s f).regs = s.regs := rfl
@[simp] theorem setTrg_pairLow (f : Trg → Trg) : (setTrg s f).pairLow = s.pairLow := rfl
@[simp] theorem setTrg_pairLatch (f : Trg → Trg) : (setTrg s f).pairLatch = s.pairLatch := rfl
@[simp] theorem setTrg_dram (f : Trg → Trg) : (setTrg s f).dram = s.dram := rfl
@[simp] theorem setTrg_arrays (f : Trg → Trg) : (setTrg s f).arrays = s.arrays := rfl
@[simp] theorem setTrg_epochs (f : Trg → Trg) : (setTrg s f).epochs = s.epochs := rfl
@[simp] theorem setTrg_totals (f : Trg → Trg) : (setTrg s f).totals = s.totals := rfl
@[simp] theorem setTrg_counter (f : Trg → Trg) : (setTrg s f).counter = s.counter := rfl
@[simp] theorem setTrg_free (f : Trg → Trg) : (setTrg s f).free = s.free := rfl
@[simp] theorem setTrg_out (f : Trg → Trg) : (setTrg s f).out = s.out := rfl
@[simp] theorem setTrg_pulses (f : Trg → Trg) : (setTrg s f).pulses = s.pulses := rfl
@[simp] theorem setTrg_arch (f : Trg → Trg) : (setTrg s f).arch = s.arch := rfl
@[simp] theorem setTrg_lanes (f : Trg → Trg) : (setTrg s f).lanes = s.lanes := rfl
@[simp] theorem setTrg_calActive (f : Trg → Trg) : (setTrg s f).calActive = s.calActive := rfl
@[simp] theorem setTrg_ingest (f : Trg → Trg) : (setTrg s f).ingest = s.ingest := rfl
@[simp] theorem setTrg_mail (f : Trg → Trg) : (setTrg s f).mail = s.mail := rfl
@[simp] theorem setTrg_twin (f : Trg → Trg) : (setTrg s f).twin = s.twin := rfl
@[simp] theorem setTrg_links (f : Trg → Trg) : (setTrg s f).links = s.links := rfl
@[simp] theorem setTrg_ingestValid (f : Trg → Trg) : (setTrg s f).ingestValid = s.ingestValid := rfl
@[simp] theorem setTrg_chz (f : Trg → Trg) : (setTrg s f).chz = s.chz := rfl
@[simp] theorem setTrg_ydx (f : Trg → Trg) : (setTrg s f).ydx = s.ydx := rfl
@[simp] theorem setTrg_badWords (f : Trg → Trg) : (setTrg s f).badWords = s.badWords := rfl
@[simp] theorem setTrg_ueSynd (f : Trg → Trg) : (setTrg s f).ueSynd = s.ueSynd := rfl
@[simp] theorem setTrg_xr (f : Trg → Trg) : (setTrg s f).xr = s.xr := rfl
@[simp] theorem setTrg_bfm (f : Trg → Trg) : (setTrg s f).bfm = s.bfm := rfl
@[simp] theorem setTrg_integ (f : Trg → Trg) : (setTrg s f).integ = s.integ := rfl
@[simp] theorem setTrg_cor (f : Trg → Trg) : (setTrg s f).cor = s.cor := rfl
@[simp] theorem setTrg_mem (f : Trg → Trg) : (setTrg s f).mem = s.mem := rfl
@[simp] theorem setTrg_clk (f : Trg → Trg) : (setTrg s f).clk = s.clk := rfl
@[simp] theorem setTrg_ptp (f : Trg → Trg) : (setTrg s f).ptp = s.ptp := rfl
@[simp] theorem setTrg_brl (f : Trg → Trg) : (setTrg s f).brl = s.brl := rfl
@[simp] theorem setTrg_dma (f : Trg → Trg) : (setTrg s f).dma = s.dma := rfl
@[simp] theorem setTrg_pcie (f : Trg → Trg) : (setTrg s f).pcie = s.pcie := rfl
@[simp] theorem setTrg_cmp (f : Trg → Trg) : (setTrg s f).cmp = s.cmp := rfl
@[simp] theorem setTrg_evt (f : Trg → Trg) : (setTrg s f).evt = s.evt := rfl
@[simp] theorem setTrg_ydxSeed (f : Trg → Trg) : (setTrg s f).ydxSeed = s.ydxSeed := rfl
@[simp] theorem setTrg_str (f : Trg → Trg) : (setTrg s f).str = s.str := rfl
@[simp] theorem setTrg_pwr (f : Trg → Trg) : (setTrg s f).pwr = s.pwr := rfl
@[simp] theorem setTrg_pending (f : Trg → Trg) : (setTrg s f).pending = s.pending := rfl

/-! ## setYdx -/

@[simp] theorem setYdx_regs (f : Ydx → Ydx) : (setYdx s f).regs = s.regs := rfl
@[simp] theorem setYdx_pairLow (f : Ydx → Ydx) : (setYdx s f).pairLow = s.pairLow := rfl
@[simp] theorem setYdx_pairLatch (f : Ydx → Ydx) : (setYdx s f).pairLatch = s.pairLatch := rfl
@[simp] theorem setYdx_dram (f : Ydx → Ydx) : (setYdx s f).dram = s.dram := rfl
@[simp] theorem setYdx_arrays (f : Ydx → Ydx) : (setYdx s f).arrays = s.arrays := rfl
@[simp] theorem setYdx_epochs (f : Ydx → Ydx) : (setYdx s f).epochs = s.epochs := rfl
@[simp] theorem setYdx_totals (f : Ydx → Ydx) : (setYdx s f).totals = s.totals := rfl
@[simp] theorem setYdx_counter (f : Ydx → Ydx) : (setYdx s f).counter = s.counter := rfl
@[simp] theorem setYdx_free (f : Ydx → Ydx) : (setYdx s f).free = s.free := rfl
@[simp] theorem setYdx_out (f : Ydx → Ydx) : (setYdx s f).out = s.out := rfl
@[simp] theorem setYdx_pulses (f : Ydx → Ydx) : (setYdx s f).pulses = s.pulses := rfl
@[simp] theorem setYdx_arch (f : Ydx → Ydx) : (setYdx s f).arch = s.arch := rfl
@[simp] theorem setYdx_lanes (f : Ydx → Ydx) : (setYdx s f).lanes = s.lanes := rfl
@[simp] theorem setYdx_calActive (f : Ydx → Ydx) : (setYdx s f).calActive = s.calActive := rfl
@[simp] theorem setYdx_ingest (f : Ydx → Ydx) : (setYdx s f).ingest = s.ingest := rfl
@[simp] theorem setYdx_mail (f : Ydx → Ydx) : (setYdx s f).mail = s.mail := rfl
@[simp] theorem setYdx_twin (f : Ydx → Ydx) : (setYdx s f).twin = s.twin := rfl
@[simp] theorem setYdx_links (f : Ydx → Ydx) : (setYdx s f).links = s.links := rfl
@[simp] theorem setYdx_ingestValid (f : Ydx → Ydx) : (setYdx s f).ingestValid = s.ingestValid := rfl
@[simp] theorem setYdx_chz (f : Ydx → Ydx) : (setYdx s f).chz = s.chz := rfl
@[simp] theorem setYdx_badWords (f : Ydx → Ydx) : (setYdx s f).badWords = s.badWords := rfl
@[simp] theorem setYdx_ueSynd (f : Ydx → Ydx) : (setYdx s f).ueSynd = s.ueSynd := rfl
@[simp] theorem setYdx_xr (f : Ydx → Ydx) : (setYdx s f).xr = s.xr := rfl
@[simp] theorem setYdx_bfm (f : Ydx → Ydx) : (setYdx s f).bfm = s.bfm := rfl
@[simp] theorem setYdx_integ (f : Ydx → Ydx) : (setYdx s f).integ = s.integ := rfl
@[simp] theorem setYdx_cor (f : Ydx → Ydx) : (setYdx s f).cor = s.cor := rfl
@[simp] theorem setYdx_trg (f : Ydx → Ydx) : (setYdx s f).trg = s.trg := rfl
@[simp] theorem setYdx_mem (f : Ydx → Ydx) : (setYdx s f).mem = s.mem := rfl
@[simp] theorem setYdx_clk (f : Ydx → Ydx) : (setYdx s f).clk = s.clk := rfl
@[simp] theorem setYdx_ptp (f : Ydx → Ydx) : (setYdx s f).ptp = s.ptp := rfl
@[simp] theorem setYdx_brl (f : Ydx → Ydx) : (setYdx s f).brl = s.brl := rfl
@[simp] theorem setYdx_dma (f : Ydx → Ydx) : (setYdx s f).dma = s.dma := rfl
@[simp] theorem setYdx_pcie (f : Ydx → Ydx) : (setYdx s f).pcie = s.pcie := rfl
@[simp] theorem setYdx_cmp (f : Ydx → Ydx) : (setYdx s f).cmp = s.cmp := rfl
@[simp] theorem setYdx_evt (f : Ydx → Ydx) : (setYdx s f).evt = s.evt := rfl
@[simp] theorem setYdx_ydxSeed (f : Ydx → Ydx) : (setYdx s f).ydxSeed = s.ydxSeed := rfl
@[simp] theorem setYdx_str (f : Ydx → Ydx) : (setYdx s f).str = s.str := rfl
@[simp] theorem setYdx_pwr (f : Ydx → Ydx) : (setYdx s f).pwr = s.pwr := rfl
@[simp] theorem setYdx_pending (f : Ydx → Ydx) : (setYdx s f).pending = s.pending := rfl

/-! ## setMem -/

@[simp] theorem setMem_regs (f : MemCtl → MemCtl) : (setMem s f).regs = s.regs := rfl
@[simp] theorem setMem_pairLow (f : MemCtl → MemCtl) : (setMem s f).pairLow = s.pairLow := rfl
@[simp] theorem setMem_pairLatch (f : MemCtl → MemCtl) : (setMem s f).pairLatch = s.pairLatch := rfl
@[simp] theorem setMem_dram (f : MemCtl → MemCtl) : (setMem s f).dram = s.dram := rfl
@[simp] theorem setMem_arrays (f : MemCtl → MemCtl) : (setMem s f).arrays = s.arrays := rfl
@[simp] theorem setMem_epochs (f : MemCtl → MemCtl) : (setMem s f).epochs = s.epochs := rfl
@[simp] theorem setMem_totals (f : MemCtl → MemCtl) : (setMem s f).totals = s.totals := rfl
@[simp] theorem setMem_counter (f : MemCtl → MemCtl) : (setMem s f).counter = s.counter := rfl
@[simp] theorem setMem_free (f : MemCtl → MemCtl) : (setMem s f).free = s.free := rfl
@[simp] theorem setMem_out (f : MemCtl → MemCtl) : (setMem s f).out = s.out := rfl
@[simp] theorem setMem_pulses (f : MemCtl → MemCtl) : (setMem s f).pulses = s.pulses := rfl
@[simp] theorem setMem_arch (f : MemCtl → MemCtl) : (setMem s f).arch = s.arch := rfl
@[simp] theorem setMem_lanes (f : MemCtl → MemCtl) : (setMem s f).lanes = s.lanes := rfl
@[simp] theorem setMem_calActive (f : MemCtl → MemCtl) : (setMem s f).calActive = s.calActive := rfl
@[simp] theorem setMem_ingest (f : MemCtl → MemCtl) : (setMem s f).ingest = s.ingest := rfl
@[simp] theorem setMem_mail (f : MemCtl → MemCtl) : (setMem s f).mail = s.mail := rfl
@[simp] theorem setMem_twin (f : MemCtl → MemCtl) : (setMem s f).twin = s.twin := rfl
@[simp] theorem setMem_links (f : MemCtl → MemCtl) : (setMem s f).links = s.links := rfl
@[simp] theorem setMem_ingestValid (f : MemCtl → MemCtl) : (setMem s f).ingestValid = s.ingestValid := rfl
@[simp] theorem setMem_chz (f : MemCtl → MemCtl) : (setMem s f).chz = s.chz := rfl
@[simp] theorem setMem_ydx (f : MemCtl → MemCtl) : (setMem s f).ydx = s.ydx := rfl
@[simp] theorem setMem_badWords (f : MemCtl → MemCtl) : (setMem s f).badWords = s.badWords := rfl
@[simp] theorem setMem_ueSynd (f : MemCtl → MemCtl) : (setMem s f).ueSynd = s.ueSynd := rfl
@[simp] theorem setMem_xr (f : MemCtl → MemCtl) : (setMem s f).xr = s.xr := rfl
@[simp] theorem setMem_bfm (f : MemCtl → MemCtl) : (setMem s f).bfm = s.bfm := rfl
@[simp] theorem setMem_integ (f : MemCtl → MemCtl) : (setMem s f).integ = s.integ := rfl
@[simp] theorem setMem_cor (f : MemCtl → MemCtl) : (setMem s f).cor = s.cor := rfl
@[simp] theorem setMem_trg (f : MemCtl → MemCtl) : (setMem s f).trg = s.trg := rfl
@[simp] theorem setMem_clk (f : MemCtl → MemCtl) : (setMem s f).clk = s.clk := rfl
@[simp] theorem setMem_ptp (f : MemCtl → MemCtl) : (setMem s f).ptp = s.ptp := rfl
@[simp] theorem setMem_brl (f : MemCtl → MemCtl) : (setMem s f).brl = s.brl := rfl
@[simp] theorem setMem_dma (f : MemCtl → MemCtl) : (setMem s f).dma = s.dma := rfl
@[simp] theorem setMem_pcie (f : MemCtl → MemCtl) : (setMem s f).pcie = s.pcie := rfl
@[simp] theorem setMem_cmp (f : MemCtl → MemCtl) : (setMem s f).cmp = s.cmp := rfl
@[simp] theorem setMem_evt (f : MemCtl → MemCtl) : (setMem s f).evt = s.evt := rfl
@[simp] theorem setMem_ydxSeed (f : MemCtl → MemCtl) : (setMem s f).ydxSeed = s.ydxSeed := rfl
@[simp] theorem setMem_str (f : MemCtl → MemCtl) : (setMem s f).str = s.str := rfl
@[simp] theorem setMem_pwr (f : MemCtl → MemCtl) : (setMem s f).pwr = s.pwr := rfl
@[simp] theorem setMem_pending (f : MemCtl → MemCtl) : (setMem s f).pending = s.pending := rfl

/-! ## setClk -/

@[simp] theorem setClk_regs (f : Clk → Clk) : (setClk s f).regs = s.regs := rfl
@[simp] theorem setClk_pairLow (f : Clk → Clk) : (setClk s f).pairLow = s.pairLow := rfl
@[simp] theorem setClk_pairLatch (f : Clk → Clk) : (setClk s f).pairLatch = s.pairLatch := rfl
@[simp] theorem setClk_dram (f : Clk → Clk) : (setClk s f).dram = s.dram := rfl
@[simp] theorem setClk_arrays (f : Clk → Clk) : (setClk s f).arrays = s.arrays := rfl
@[simp] theorem setClk_epochs (f : Clk → Clk) : (setClk s f).epochs = s.epochs := rfl
@[simp] theorem setClk_totals (f : Clk → Clk) : (setClk s f).totals = s.totals := rfl
@[simp] theorem setClk_counter (f : Clk → Clk) : (setClk s f).counter = s.counter := rfl
@[simp] theorem setClk_free (f : Clk → Clk) : (setClk s f).free = s.free := rfl
@[simp] theorem setClk_out (f : Clk → Clk) : (setClk s f).out = s.out := rfl
@[simp] theorem setClk_pulses (f : Clk → Clk) : (setClk s f).pulses = s.pulses := rfl
@[simp] theorem setClk_arch (f : Clk → Clk) : (setClk s f).arch = s.arch := rfl
@[simp] theorem setClk_lanes (f : Clk → Clk) : (setClk s f).lanes = s.lanes := rfl
@[simp] theorem setClk_calActive (f : Clk → Clk) : (setClk s f).calActive = s.calActive := rfl
@[simp] theorem setClk_ingest (f : Clk → Clk) : (setClk s f).ingest = s.ingest := rfl
@[simp] theorem setClk_mail (f : Clk → Clk) : (setClk s f).mail = s.mail := rfl
@[simp] theorem setClk_twin (f : Clk → Clk) : (setClk s f).twin = s.twin := rfl
@[simp] theorem setClk_links (f : Clk → Clk) : (setClk s f).links = s.links := rfl
@[simp] theorem setClk_ingestValid (f : Clk → Clk) : (setClk s f).ingestValid = s.ingestValid := rfl
@[simp] theorem setClk_chz (f : Clk → Clk) : (setClk s f).chz = s.chz := rfl
@[simp] theorem setClk_ydx (f : Clk → Clk) : (setClk s f).ydx = s.ydx := rfl
@[simp] theorem setClk_badWords (f : Clk → Clk) : (setClk s f).badWords = s.badWords := rfl
@[simp] theorem setClk_ueSynd (f : Clk → Clk) : (setClk s f).ueSynd = s.ueSynd := rfl
@[simp] theorem setClk_xr (f : Clk → Clk) : (setClk s f).xr = s.xr := rfl
@[simp] theorem setClk_bfm (f : Clk → Clk) : (setClk s f).bfm = s.bfm := rfl
@[simp] theorem setClk_integ (f : Clk → Clk) : (setClk s f).integ = s.integ := rfl
@[simp] theorem setClk_cor (f : Clk → Clk) : (setClk s f).cor = s.cor := rfl
@[simp] theorem setClk_trg (f : Clk → Clk) : (setClk s f).trg = s.trg := rfl
@[simp] theorem setClk_mem (f : Clk → Clk) : (setClk s f).mem = s.mem := rfl
@[simp] theorem setClk_ptp (f : Clk → Clk) : (setClk s f).ptp = s.ptp := rfl
@[simp] theorem setClk_brl (f : Clk → Clk) : (setClk s f).brl = s.brl := rfl
@[simp] theorem setClk_dma (f : Clk → Clk) : (setClk s f).dma = s.dma := rfl
@[simp] theorem setClk_pcie (f : Clk → Clk) : (setClk s f).pcie = s.pcie := rfl
@[simp] theorem setClk_cmp (f : Clk → Clk) : (setClk s f).cmp = s.cmp := rfl
@[simp] theorem setClk_evt (f : Clk → Clk) : (setClk s f).evt = s.evt := rfl
@[simp] theorem setClk_ydxSeed (f : Clk → Clk) : (setClk s f).ydxSeed = s.ydxSeed := rfl
@[simp] theorem setClk_str (f : Clk → Clk) : (setClk s f).str = s.str := rfl
@[simp] theorem setClk_pwr (f : Clk → Clk) : (setClk s f).pwr = s.pwr := rfl
@[simp] theorem setClk_pending (f : Clk → Clk) : (setClk s f).pending = s.pending := rfl

/-! ## setPtp -/

@[simp] theorem setPtp_regs (f : Ptp → Ptp) : (setPtp s f).regs = s.regs := rfl
@[simp] theorem setPtp_pairLow (f : Ptp → Ptp) : (setPtp s f).pairLow = s.pairLow := rfl
@[simp] theorem setPtp_pairLatch (f : Ptp → Ptp) : (setPtp s f).pairLatch = s.pairLatch := rfl
@[simp] theorem setPtp_dram (f : Ptp → Ptp) : (setPtp s f).dram = s.dram := rfl
@[simp] theorem setPtp_arrays (f : Ptp → Ptp) : (setPtp s f).arrays = s.arrays := rfl
@[simp] theorem setPtp_epochs (f : Ptp → Ptp) : (setPtp s f).epochs = s.epochs := rfl
@[simp] theorem setPtp_totals (f : Ptp → Ptp) : (setPtp s f).totals = s.totals := rfl
@[simp] theorem setPtp_counter (f : Ptp → Ptp) : (setPtp s f).counter = s.counter := rfl
@[simp] theorem setPtp_free (f : Ptp → Ptp) : (setPtp s f).free = s.free := rfl
@[simp] theorem setPtp_out (f : Ptp → Ptp) : (setPtp s f).out = s.out := rfl
@[simp] theorem setPtp_pulses (f : Ptp → Ptp) : (setPtp s f).pulses = s.pulses := rfl
@[simp] theorem setPtp_arch (f : Ptp → Ptp) : (setPtp s f).arch = s.arch := rfl
@[simp] theorem setPtp_lanes (f : Ptp → Ptp) : (setPtp s f).lanes = s.lanes := rfl
@[simp] theorem setPtp_calActive (f : Ptp → Ptp) : (setPtp s f).calActive = s.calActive := rfl
@[simp] theorem setPtp_ingest (f : Ptp → Ptp) : (setPtp s f).ingest = s.ingest := rfl
@[simp] theorem setPtp_mail (f : Ptp → Ptp) : (setPtp s f).mail = s.mail := rfl
@[simp] theorem setPtp_twin (f : Ptp → Ptp) : (setPtp s f).twin = s.twin := rfl
@[simp] theorem setPtp_links (f : Ptp → Ptp) : (setPtp s f).links = s.links := rfl
@[simp] theorem setPtp_ingestValid (f : Ptp → Ptp) : (setPtp s f).ingestValid = s.ingestValid := rfl
@[simp] theorem setPtp_chz (f : Ptp → Ptp) : (setPtp s f).chz = s.chz := rfl
@[simp] theorem setPtp_ydx (f : Ptp → Ptp) : (setPtp s f).ydx = s.ydx := rfl
@[simp] theorem setPtp_badWords (f : Ptp → Ptp) : (setPtp s f).badWords = s.badWords := rfl
@[simp] theorem setPtp_ueSynd (f : Ptp → Ptp) : (setPtp s f).ueSynd = s.ueSynd := rfl
@[simp] theorem setPtp_xr (f : Ptp → Ptp) : (setPtp s f).xr = s.xr := rfl
@[simp] theorem setPtp_bfm (f : Ptp → Ptp) : (setPtp s f).bfm = s.bfm := rfl
@[simp] theorem setPtp_integ (f : Ptp → Ptp) : (setPtp s f).integ = s.integ := rfl
@[simp] theorem setPtp_cor (f : Ptp → Ptp) : (setPtp s f).cor = s.cor := rfl
@[simp] theorem setPtp_trg (f : Ptp → Ptp) : (setPtp s f).trg = s.trg := rfl
@[simp] theorem setPtp_mem (f : Ptp → Ptp) : (setPtp s f).mem = s.mem := rfl
@[simp] theorem setPtp_clk (f : Ptp → Ptp) : (setPtp s f).clk = s.clk := rfl
@[simp] theorem setPtp_brl (f : Ptp → Ptp) : (setPtp s f).brl = s.brl := rfl
@[simp] theorem setPtp_dma (f : Ptp → Ptp) : (setPtp s f).dma = s.dma := rfl
@[simp] theorem setPtp_pcie (f : Ptp → Ptp) : (setPtp s f).pcie = s.pcie := rfl
@[simp] theorem setPtp_cmp (f : Ptp → Ptp) : (setPtp s f).cmp = s.cmp := rfl
@[simp] theorem setPtp_evt (f : Ptp → Ptp) : (setPtp s f).evt = s.evt := rfl
@[simp] theorem setPtp_ydxSeed (f : Ptp → Ptp) : (setPtp s f).ydxSeed = s.ydxSeed := rfl
@[simp] theorem setPtp_str (f : Ptp → Ptp) : (setPtp s f).str = s.str := rfl
@[simp] theorem setPtp_pwr (f : Ptp → Ptp) : (setPtp s f).pwr = s.pwr := rfl
@[simp] theorem setPtp_pending (f : Ptp → Ptp) : (setPtp s f).pending = s.pending := rfl

/-! ## setEvt -/

@[simp] theorem setEvt_regs (f : Evt → Evt) : (setEvt s f).regs = s.regs := rfl
@[simp] theorem setEvt_pairLow (f : Evt → Evt) : (setEvt s f).pairLow = s.pairLow := rfl
@[simp] theorem setEvt_pairLatch (f : Evt → Evt) : (setEvt s f).pairLatch = s.pairLatch := rfl
@[simp] theorem setEvt_dram (f : Evt → Evt) : (setEvt s f).dram = s.dram := rfl
@[simp] theorem setEvt_arrays (f : Evt → Evt) : (setEvt s f).arrays = s.arrays := rfl
@[simp] theorem setEvt_epochs (f : Evt → Evt) : (setEvt s f).epochs = s.epochs := rfl
@[simp] theorem setEvt_totals (f : Evt → Evt) : (setEvt s f).totals = s.totals := rfl
@[simp] theorem setEvt_counter (f : Evt → Evt) : (setEvt s f).counter = s.counter := rfl
@[simp] theorem setEvt_free (f : Evt → Evt) : (setEvt s f).free = s.free := rfl
@[simp] theorem setEvt_out (f : Evt → Evt) : (setEvt s f).out = s.out := rfl
@[simp] theorem setEvt_pulses (f : Evt → Evt) : (setEvt s f).pulses = s.pulses := rfl
@[simp] theorem setEvt_arch (f : Evt → Evt) : (setEvt s f).arch = s.arch := rfl
@[simp] theorem setEvt_lanes (f : Evt → Evt) : (setEvt s f).lanes = s.lanes := rfl
@[simp] theorem setEvt_calActive (f : Evt → Evt) : (setEvt s f).calActive = s.calActive := rfl
@[simp] theorem setEvt_ingest (f : Evt → Evt) : (setEvt s f).ingest = s.ingest := rfl
@[simp] theorem setEvt_mail (f : Evt → Evt) : (setEvt s f).mail = s.mail := rfl
@[simp] theorem setEvt_twin (f : Evt → Evt) : (setEvt s f).twin = s.twin := rfl
@[simp] theorem setEvt_links (f : Evt → Evt) : (setEvt s f).links = s.links := rfl
@[simp] theorem setEvt_ingestValid (f : Evt → Evt) : (setEvt s f).ingestValid = s.ingestValid := rfl
@[simp] theorem setEvt_chz (f : Evt → Evt) : (setEvt s f).chz = s.chz := rfl
@[simp] theorem setEvt_ydx (f : Evt → Evt) : (setEvt s f).ydx = s.ydx := rfl
@[simp] theorem setEvt_badWords (f : Evt → Evt) : (setEvt s f).badWords = s.badWords := rfl
@[simp] theorem setEvt_ueSynd (f : Evt → Evt) : (setEvt s f).ueSynd = s.ueSynd := rfl
@[simp] theorem setEvt_xr (f : Evt → Evt) : (setEvt s f).xr = s.xr := rfl
@[simp] theorem setEvt_bfm (f : Evt → Evt) : (setEvt s f).bfm = s.bfm := rfl
@[simp] theorem setEvt_integ (f : Evt → Evt) : (setEvt s f).integ = s.integ := rfl
@[simp] theorem setEvt_cor (f : Evt → Evt) : (setEvt s f).cor = s.cor := rfl
@[simp] theorem setEvt_trg (f : Evt → Evt) : (setEvt s f).trg = s.trg := rfl
@[simp] theorem setEvt_mem (f : Evt → Evt) : (setEvt s f).mem = s.mem := rfl
@[simp] theorem setEvt_clk (f : Evt → Evt) : (setEvt s f).clk = s.clk := rfl
@[simp] theorem setEvt_ptp (f : Evt → Evt) : (setEvt s f).ptp = s.ptp := rfl
@[simp] theorem setEvt_brl (f : Evt → Evt) : (setEvt s f).brl = s.brl := rfl
@[simp] theorem setEvt_dma (f : Evt → Evt) : (setEvt s f).dma = s.dma := rfl
@[simp] theorem setEvt_pcie (f : Evt → Evt) : (setEvt s f).pcie = s.pcie := rfl
@[simp] theorem setEvt_cmp (f : Evt → Evt) : (setEvt s f).cmp = s.cmp := rfl
@[simp] theorem setEvt_ydxSeed (f : Evt → Evt) : (setEvt s f).ydxSeed = s.ydxSeed := rfl
@[simp] theorem setEvt_str (f : Evt → Evt) : (setEvt s f).str = s.str := rfl
@[simp] theorem setEvt_pwr (f : Evt → Evt) : (setEvt s f).pwr = s.pwr := rfl
@[simp] theorem setEvt_pending (f : Evt → Evt) : (setEvt s f).pending = s.pending := rfl

/-! ## setBrl -/

@[simp] theorem setBrl_regs (k : Nat) (f : BrlCore → BrlCore) : (setBrl s k f).regs = s.regs := rfl
@[simp] theorem setBrl_pairLow (k : Nat) (f : BrlCore → BrlCore) : (setBrl s k f).pairLow = s.pairLow := rfl
@[simp] theorem setBrl_pairLatch (k : Nat) (f : BrlCore → BrlCore) : (setBrl s k f).pairLatch = s.pairLatch := rfl
@[simp] theorem setBrl_dram (k : Nat) (f : BrlCore → BrlCore) : (setBrl s k f).dram = s.dram := rfl
@[simp] theorem setBrl_arrays (k : Nat) (f : BrlCore → BrlCore) : (setBrl s k f).arrays = s.arrays := rfl
@[simp] theorem setBrl_epochs (k : Nat) (f : BrlCore → BrlCore) : (setBrl s k f).epochs = s.epochs := rfl
@[simp] theorem setBrl_totals (k : Nat) (f : BrlCore → BrlCore) : (setBrl s k f).totals = s.totals := rfl
@[simp] theorem setBrl_counter (k : Nat) (f : BrlCore → BrlCore) : (setBrl s k f).counter = s.counter := rfl
@[simp] theorem setBrl_free (k : Nat) (f : BrlCore → BrlCore) : (setBrl s k f).free = s.free := rfl
@[simp] theorem setBrl_out (k : Nat) (f : BrlCore → BrlCore) : (setBrl s k f).out = s.out := rfl
@[simp] theorem setBrl_pulses (k : Nat) (f : BrlCore → BrlCore) : (setBrl s k f).pulses = s.pulses := rfl
@[simp] theorem setBrl_arch (k : Nat) (f : BrlCore → BrlCore) : (setBrl s k f).arch = s.arch := rfl
@[simp] theorem setBrl_lanes (k : Nat) (f : BrlCore → BrlCore) : (setBrl s k f).lanes = s.lanes := rfl
@[simp] theorem setBrl_calActive (k : Nat) (f : BrlCore → BrlCore) : (setBrl s k f).calActive = s.calActive := rfl
@[simp] theorem setBrl_ingest (k : Nat) (f : BrlCore → BrlCore) : (setBrl s k f).ingest = s.ingest := rfl
@[simp] theorem setBrl_mail (k : Nat) (f : BrlCore → BrlCore) : (setBrl s k f).mail = s.mail := rfl
@[simp] theorem setBrl_twin (k : Nat) (f : BrlCore → BrlCore) : (setBrl s k f).twin = s.twin := rfl
@[simp] theorem setBrl_links (k : Nat) (f : BrlCore → BrlCore) : (setBrl s k f).links = s.links := rfl
@[simp] theorem setBrl_ingestValid (k : Nat) (f : BrlCore → BrlCore) : (setBrl s k f).ingestValid = s.ingestValid := rfl
@[simp] theorem setBrl_chz (k : Nat) (f : BrlCore → BrlCore) : (setBrl s k f).chz = s.chz := rfl
@[simp] theorem setBrl_ydx (k : Nat) (f : BrlCore → BrlCore) : (setBrl s k f).ydx = s.ydx := rfl
@[simp] theorem setBrl_badWords (k : Nat) (f : BrlCore → BrlCore) : (setBrl s k f).badWords = s.badWords := rfl
@[simp] theorem setBrl_ueSynd (k : Nat) (f : BrlCore → BrlCore) : (setBrl s k f).ueSynd = s.ueSynd := rfl
@[simp] theorem setBrl_xr (k : Nat) (f : BrlCore → BrlCore) : (setBrl s k f).xr = s.xr := rfl
@[simp] theorem setBrl_bfm (k : Nat) (f : BrlCore → BrlCore) : (setBrl s k f).bfm = s.bfm := rfl
@[simp] theorem setBrl_integ (k : Nat) (f : BrlCore → BrlCore) : (setBrl s k f).integ = s.integ := rfl
@[simp] theorem setBrl_cor (k : Nat) (f : BrlCore → BrlCore) : (setBrl s k f).cor = s.cor := rfl
@[simp] theorem setBrl_trg (k : Nat) (f : BrlCore → BrlCore) : (setBrl s k f).trg = s.trg := rfl
@[simp] theorem setBrl_mem (k : Nat) (f : BrlCore → BrlCore) : (setBrl s k f).mem = s.mem := rfl
@[simp] theorem setBrl_clk (k : Nat) (f : BrlCore → BrlCore) : (setBrl s k f).clk = s.clk := rfl
@[simp] theorem setBrl_ptp (k : Nat) (f : BrlCore → BrlCore) : (setBrl s k f).ptp = s.ptp := rfl
@[simp] theorem setBrl_dma (k : Nat) (f : BrlCore → BrlCore) : (setBrl s k f).dma = s.dma := rfl
@[simp] theorem setBrl_pcie (k : Nat) (f : BrlCore → BrlCore) : (setBrl s k f).pcie = s.pcie := rfl
@[simp] theorem setBrl_cmp (k : Nat) (f : BrlCore → BrlCore) : (setBrl s k f).cmp = s.cmp := rfl
@[simp] theorem setBrl_evt (k : Nat) (f : BrlCore → BrlCore) : (setBrl s k f).evt = s.evt := rfl
@[simp] theorem setBrl_ydxSeed (k : Nat) (f : BrlCore → BrlCore) : (setBrl s k f).ydxSeed = s.ydxSeed := rfl
@[simp] theorem setBrl_str (k : Nat) (f : BrlCore → BrlCore) : (setBrl s k f).str = s.str := rfl
@[simp] theorem setBrl_pwr (k : Nat) (f : BrlCore → BrlCore) : (setBrl s k f).pwr = s.pwr := rfl
@[simp] theorem setBrl_pending (k : Nat) (f : BrlCore → BrlCore) : (setBrl s k f).pending = s.pending := rfl

/-! ## setRing -/

@[simp] theorem setRing_regs (n : Nat) (f : DmaRing → DmaRing) : (setRing s n f).regs = s.regs := rfl
@[simp] theorem setRing_pairLow (n : Nat) (f : DmaRing → DmaRing) : (setRing s n f).pairLow = s.pairLow := rfl
@[simp] theorem setRing_pairLatch (n : Nat) (f : DmaRing → DmaRing) : (setRing s n f).pairLatch = s.pairLatch := rfl
@[simp] theorem setRing_dram (n : Nat) (f : DmaRing → DmaRing) : (setRing s n f).dram = s.dram := rfl
@[simp] theorem setRing_arrays (n : Nat) (f : DmaRing → DmaRing) : (setRing s n f).arrays = s.arrays := rfl
@[simp] theorem setRing_epochs (n : Nat) (f : DmaRing → DmaRing) : (setRing s n f).epochs = s.epochs := rfl
@[simp] theorem setRing_totals (n : Nat) (f : DmaRing → DmaRing) : (setRing s n f).totals = s.totals := rfl
@[simp] theorem setRing_counter (n : Nat) (f : DmaRing → DmaRing) : (setRing s n f).counter = s.counter := rfl
@[simp] theorem setRing_free (n : Nat) (f : DmaRing → DmaRing) : (setRing s n f).free = s.free := rfl
@[simp] theorem setRing_out (n : Nat) (f : DmaRing → DmaRing) : (setRing s n f).out = s.out := rfl
@[simp] theorem setRing_pulses (n : Nat) (f : DmaRing → DmaRing) : (setRing s n f).pulses = s.pulses := rfl
@[simp] theorem setRing_arch (n : Nat) (f : DmaRing → DmaRing) : (setRing s n f).arch = s.arch := rfl
@[simp] theorem setRing_lanes (n : Nat) (f : DmaRing → DmaRing) : (setRing s n f).lanes = s.lanes := rfl
@[simp] theorem setRing_calActive (n : Nat) (f : DmaRing → DmaRing) : (setRing s n f).calActive = s.calActive := rfl
@[simp] theorem setRing_ingest (n : Nat) (f : DmaRing → DmaRing) : (setRing s n f).ingest = s.ingest := rfl
@[simp] theorem setRing_mail (n : Nat) (f : DmaRing → DmaRing) : (setRing s n f).mail = s.mail := rfl
@[simp] theorem setRing_twin (n : Nat) (f : DmaRing → DmaRing) : (setRing s n f).twin = s.twin := rfl
@[simp] theorem setRing_links (n : Nat) (f : DmaRing → DmaRing) : (setRing s n f).links = s.links := rfl
@[simp] theorem setRing_ingestValid (n : Nat) (f : DmaRing → DmaRing) : (setRing s n f).ingestValid = s.ingestValid := rfl
@[simp] theorem setRing_chz (n : Nat) (f : DmaRing → DmaRing) : (setRing s n f).chz = s.chz := rfl
@[simp] theorem setRing_ydx (n : Nat) (f : DmaRing → DmaRing) : (setRing s n f).ydx = s.ydx := rfl
@[simp] theorem setRing_badWords (n : Nat) (f : DmaRing → DmaRing) : (setRing s n f).badWords = s.badWords := rfl
@[simp] theorem setRing_ueSynd (n : Nat) (f : DmaRing → DmaRing) : (setRing s n f).ueSynd = s.ueSynd := rfl
@[simp] theorem setRing_xr (n : Nat) (f : DmaRing → DmaRing) : (setRing s n f).xr = s.xr := rfl
@[simp] theorem setRing_bfm (n : Nat) (f : DmaRing → DmaRing) : (setRing s n f).bfm = s.bfm := rfl
@[simp] theorem setRing_integ (n : Nat) (f : DmaRing → DmaRing) : (setRing s n f).integ = s.integ := rfl
@[simp] theorem setRing_cor (n : Nat) (f : DmaRing → DmaRing) : (setRing s n f).cor = s.cor := rfl
@[simp] theorem setRing_trg (n : Nat) (f : DmaRing → DmaRing) : (setRing s n f).trg = s.trg := rfl
@[simp] theorem setRing_mem (n : Nat) (f : DmaRing → DmaRing) : (setRing s n f).mem = s.mem := rfl
@[simp] theorem setRing_clk (n : Nat) (f : DmaRing → DmaRing) : (setRing s n f).clk = s.clk := rfl
@[simp] theorem setRing_ptp (n : Nat) (f : DmaRing → DmaRing) : (setRing s n f).ptp = s.ptp := rfl
@[simp] theorem setRing_brl (n : Nat) (f : DmaRing → DmaRing) : (setRing s n f).brl = s.brl := rfl
@[simp] theorem setRing_pcie (n : Nat) (f : DmaRing → DmaRing) : (setRing s n f).pcie = s.pcie := rfl
@[simp] theorem setRing_cmp (n : Nat) (f : DmaRing → DmaRing) : (setRing s n f).cmp = s.cmp := rfl
@[simp] theorem setRing_evt (n : Nat) (f : DmaRing → DmaRing) : (setRing s n f).evt = s.evt := rfl
@[simp] theorem setRing_ydxSeed (n : Nat) (f : DmaRing → DmaRing) : (setRing s n f).ydxSeed = s.ydxSeed := rfl
@[simp] theorem setRing_str (n : Nat) (f : DmaRing → DmaRing) : (setRing s n f).str = s.str := rfl
@[simp] theorem setRing_pwr (n : Nat) (f : DmaRing → DmaRing) : (setRing s n f).pwr = s.pwr := rfl
@[simp] theorem setRing_pending (n : Nat) (f : DmaRing → DmaRing) : (setRing s n f).pending = s.pending := rfl

/-! ## setLane -/

@[simp] theorem setLane_regs (n : Nat) (f : Lane → Lane) : (setLane s n f).regs = s.regs := rfl
@[simp] theorem setLane_pairLow (n : Nat) (f : Lane → Lane) : (setLane s n f).pairLow = s.pairLow := rfl
@[simp] theorem setLane_pairLatch (n : Nat) (f : Lane → Lane) : (setLane s n f).pairLatch = s.pairLatch := rfl
@[simp] theorem setLane_dram (n : Nat) (f : Lane → Lane) : (setLane s n f).dram = s.dram := rfl
@[simp] theorem setLane_arrays (n : Nat) (f : Lane → Lane) : (setLane s n f).arrays = s.arrays := rfl
@[simp] theorem setLane_epochs (n : Nat) (f : Lane → Lane) : (setLane s n f).epochs = s.epochs := rfl
@[simp] theorem setLane_totals (n : Nat) (f : Lane → Lane) : (setLane s n f).totals = s.totals := rfl
@[simp] theorem setLane_counter (n : Nat) (f : Lane → Lane) : (setLane s n f).counter = s.counter := rfl
@[simp] theorem setLane_free (n : Nat) (f : Lane → Lane) : (setLane s n f).free = s.free := rfl
@[simp] theorem setLane_out (n : Nat) (f : Lane → Lane) : (setLane s n f).out = s.out := rfl
@[simp] theorem setLane_pulses (n : Nat) (f : Lane → Lane) : (setLane s n f).pulses = s.pulses := rfl
@[simp] theorem setLane_arch (n : Nat) (f : Lane → Lane) : (setLane s n f).arch = s.arch := rfl
@[simp] theorem setLane_calActive (n : Nat) (f : Lane → Lane) : (setLane s n f).calActive = s.calActive := rfl
@[simp] theorem setLane_ingest (n : Nat) (f : Lane → Lane) : (setLane s n f).ingest = s.ingest := rfl
@[simp] theorem setLane_mail (n : Nat) (f : Lane → Lane) : (setLane s n f).mail = s.mail := rfl
@[simp] theorem setLane_twin (n : Nat) (f : Lane → Lane) : (setLane s n f).twin = s.twin := rfl
@[simp] theorem setLane_links (n : Nat) (f : Lane → Lane) : (setLane s n f).links = s.links := rfl
@[simp] theorem setLane_ingestValid (n : Nat) (f : Lane → Lane) : (setLane s n f).ingestValid = s.ingestValid := rfl
@[simp] theorem setLane_chz (n : Nat) (f : Lane → Lane) : (setLane s n f).chz = s.chz := rfl
@[simp] theorem setLane_ydx (n : Nat) (f : Lane → Lane) : (setLane s n f).ydx = s.ydx := rfl
@[simp] theorem setLane_badWords (n : Nat) (f : Lane → Lane) : (setLane s n f).badWords = s.badWords := rfl
@[simp] theorem setLane_ueSynd (n : Nat) (f : Lane → Lane) : (setLane s n f).ueSynd = s.ueSynd := rfl
@[simp] theorem setLane_xr (n : Nat) (f : Lane → Lane) : (setLane s n f).xr = s.xr := rfl
@[simp] theorem setLane_bfm (n : Nat) (f : Lane → Lane) : (setLane s n f).bfm = s.bfm := rfl
@[simp] theorem setLane_integ (n : Nat) (f : Lane → Lane) : (setLane s n f).integ = s.integ := rfl
@[simp] theorem setLane_cor (n : Nat) (f : Lane → Lane) : (setLane s n f).cor = s.cor := rfl
@[simp] theorem setLane_trg (n : Nat) (f : Lane → Lane) : (setLane s n f).trg = s.trg := rfl
@[simp] theorem setLane_mem (n : Nat) (f : Lane → Lane) : (setLane s n f).mem = s.mem := rfl
@[simp] theorem setLane_clk (n : Nat) (f : Lane → Lane) : (setLane s n f).clk = s.clk := rfl
@[simp] theorem setLane_ptp (n : Nat) (f : Lane → Lane) : (setLane s n f).ptp = s.ptp := rfl
@[simp] theorem setLane_brl (n : Nat) (f : Lane → Lane) : (setLane s n f).brl = s.brl := rfl
@[simp] theorem setLane_dma (n : Nat) (f : Lane → Lane) : (setLane s n f).dma = s.dma := rfl
@[simp] theorem setLane_pcie (n : Nat) (f : Lane → Lane) : (setLane s n f).pcie = s.pcie := rfl
@[simp] theorem setLane_cmp (n : Nat) (f : Lane → Lane) : (setLane s n f).cmp = s.cmp := rfl
@[simp] theorem setLane_evt (n : Nat) (f : Lane → Lane) : (setLane s n f).evt = s.evt := rfl
@[simp] theorem setLane_ydxSeed (n : Nat) (f : Lane → Lane) : (setLane s n f).ydxSeed = s.ydxSeed := rfl
@[simp] theorem setLane_str (n : Nat) (f : Lane → Lane) : (setLane s n f).str = s.str := rfl
@[simp] theorem setLane_pwr (n : Nat) (f : Lane → Lane) : (setLane s n f).pwr = s.pwr := rfl
@[simp] theorem setLane_pending (n : Nat) (f : Lane → Lane) : (setLane s n f).pending = s.pending := rfl

/-! ## setXlink -/

@[simp] theorem setXlink_regs (k : Nat) (f : Link → Link) : (setXlink s k f).regs = s.regs := rfl
@[simp] theorem setXlink_pairLow (k : Nat) (f : Link → Link) : (setXlink s k f).pairLow = s.pairLow := rfl
@[simp] theorem setXlink_pairLatch (k : Nat) (f : Link → Link) : (setXlink s k f).pairLatch = s.pairLatch := rfl
@[simp] theorem setXlink_dram (k : Nat) (f : Link → Link) : (setXlink s k f).dram = s.dram := rfl
@[simp] theorem setXlink_arrays (k : Nat) (f : Link → Link) : (setXlink s k f).arrays = s.arrays := rfl
@[simp] theorem setXlink_epochs (k : Nat) (f : Link → Link) : (setXlink s k f).epochs = s.epochs := rfl
@[simp] theorem setXlink_totals (k : Nat) (f : Link → Link) : (setXlink s k f).totals = s.totals := rfl
@[simp] theorem setXlink_counter (k : Nat) (f : Link → Link) : (setXlink s k f).counter = s.counter := rfl
@[simp] theorem setXlink_free (k : Nat) (f : Link → Link) : (setXlink s k f).free = s.free := rfl
@[simp] theorem setXlink_out (k : Nat) (f : Link → Link) : (setXlink s k f).out = s.out := rfl
@[simp] theorem setXlink_pulses (k : Nat) (f : Link → Link) : (setXlink s k f).pulses = s.pulses := rfl
@[simp] theorem setXlink_arch (k : Nat) (f : Link → Link) : (setXlink s k f).arch = s.arch := rfl
@[simp] theorem setXlink_lanes (k : Nat) (f : Link → Link) : (setXlink s k f).lanes = s.lanes := rfl
@[simp] theorem setXlink_calActive (k : Nat) (f : Link → Link) : (setXlink s k f).calActive = s.calActive := rfl
@[simp] theorem setXlink_ingest (k : Nat) (f : Link → Link) : (setXlink s k f).ingest = s.ingest := rfl
@[simp] theorem setXlink_mail (k : Nat) (f : Link → Link) : (setXlink s k f).mail = s.mail := rfl
@[simp] theorem setXlink_twin (k : Nat) (f : Link → Link) : (setXlink s k f).twin = s.twin := rfl
@[simp] theorem setXlink_ingestValid (k : Nat) (f : Link → Link) : (setXlink s k f).ingestValid = s.ingestValid := rfl
@[simp] theorem setXlink_chz (k : Nat) (f : Link → Link) : (setXlink s k f).chz = s.chz := rfl
@[simp] theorem setXlink_ydx (k : Nat) (f : Link → Link) : (setXlink s k f).ydx = s.ydx := rfl
@[simp] theorem setXlink_badWords (k : Nat) (f : Link → Link) : (setXlink s k f).badWords = s.badWords := rfl
@[simp] theorem setXlink_ueSynd (k : Nat) (f : Link → Link) : (setXlink s k f).ueSynd = s.ueSynd := rfl
@[simp] theorem setXlink_xr (k : Nat) (f : Link → Link) : (setXlink s k f).xr = s.xr := rfl
@[simp] theorem setXlink_bfm (k : Nat) (f : Link → Link) : (setXlink s k f).bfm = s.bfm := rfl
@[simp] theorem setXlink_integ (k : Nat) (f : Link → Link) : (setXlink s k f).integ = s.integ := rfl
@[simp] theorem setXlink_cor (k : Nat) (f : Link → Link) : (setXlink s k f).cor = s.cor := rfl
@[simp] theorem setXlink_trg (k : Nat) (f : Link → Link) : (setXlink s k f).trg = s.trg := rfl
@[simp] theorem setXlink_mem (k : Nat) (f : Link → Link) : (setXlink s k f).mem = s.mem := rfl
@[simp] theorem setXlink_clk (k : Nat) (f : Link → Link) : (setXlink s k f).clk = s.clk := rfl
@[simp] theorem setXlink_ptp (k : Nat) (f : Link → Link) : (setXlink s k f).ptp = s.ptp := rfl
@[simp] theorem setXlink_brl (k : Nat) (f : Link → Link) : (setXlink s k f).brl = s.brl := rfl
@[simp] theorem setXlink_dma (k : Nat) (f : Link → Link) : (setXlink s k f).dma = s.dma := rfl
@[simp] theorem setXlink_pcie (k : Nat) (f : Link → Link) : (setXlink s k f).pcie = s.pcie := rfl
@[simp] theorem setXlink_cmp (k : Nat) (f : Link → Link) : (setXlink s k f).cmp = s.cmp := rfl
@[simp] theorem setXlink_evt (k : Nat) (f : Link → Link) : (setXlink s k f).evt = s.evt := rfl
@[simp] theorem setXlink_ydxSeed (k : Nat) (f : Link → Link) : (setXlink s k f).ydxSeed = s.ydxSeed := rfl
@[simp] theorem setXlink_str (k : Nat) (f : Link → Link) : (setXlink s k f).str = s.str := rfl
@[simp] theorem setXlink_pwr (k : Nat) (f : Link → Link) : (setXlink s k f).pwr = s.pwr := rfl
@[simp] theorem setXlink_pending (k : Nat) (f : Link → Link) : (setXlink s k f).pending = s.pending := rfl

/-! ## setIngestLane -/

@[simp] theorem setIngestLane_regs (n : Nat) (f : IngestLane → IngestLane) : (setIngestLane s n f).regs = s.regs := rfl
@[simp] theorem setIngestLane_pairLow (n : Nat) (f : IngestLane → IngestLane) : (setIngestLane s n f).pairLow = s.pairLow := rfl
@[simp] theorem setIngestLane_pairLatch (n : Nat) (f : IngestLane → IngestLane) : (setIngestLane s n f).pairLatch = s.pairLatch := rfl
@[simp] theorem setIngestLane_dram (n : Nat) (f : IngestLane → IngestLane) : (setIngestLane s n f).dram = s.dram := rfl
@[simp] theorem setIngestLane_arrays (n : Nat) (f : IngestLane → IngestLane) : (setIngestLane s n f).arrays = s.arrays := rfl
@[simp] theorem setIngestLane_epochs (n : Nat) (f : IngestLane → IngestLane) : (setIngestLane s n f).epochs = s.epochs := rfl
@[simp] theorem setIngestLane_totals (n : Nat) (f : IngestLane → IngestLane) : (setIngestLane s n f).totals = s.totals := rfl
@[simp] theorem setIngestLane_counter (n : Nat) (f : IngestLane → IngestLane) : (setIngestLane s n f).counter = s.counter := rfl
@[simp] theorem setIngestLane_free (n : Nat) (f : IngestLane → IngestLane) : (setIngestLane s n f).free = s.free := rfl
@[simp] theorem setIngestLane_out (n : Nat) (f : IngestLane → IngestLane) : (setIngestLane s n f).out = s.out := rfl
@[simp] theorem setIngestLane_pulses (n : Nat) (f : IngestLane → IngestLane) : (setIngestLane s n f).pulses = s.pulses := rfl
@[simp] theorem setIngestLane_arch (n : Nat) (f : IngestLane → IngestLane) : (setIngestLane s n f).arch = s.arch := rfl
@[simp] theorem setIngestLane_lanes (n : Nat) (f : IngestLane → IngestLane) : (setIngestLane s n f).lanes = s.lanes := rfl
@[simp] theorem setIngestLane_calActive (n : Nat) (f : IngestLane → IngestLane) : (setIngestLane s n f).calActive = s.calActive := rfl
@[simp] theorem setIngestLane_mail (n : Nat) (f : IngestLane → IngestLane) : (setIngestLane s n f).mail = s.mail := rfl
@[simp] theorem setIngestLane_twin (n : Nat) (f : IngestLane → IngestLane) : (setIngestLane s n f).twin = s.twin := rfl
@[simp] theorem setIngestLane_links (n : Nat) (f : IngestLane → IngestLane) : (setIngestLane s n f).links = s.links := rfl
@[simp] theorem setIngestLane_ingestValid (n : Nat) (f : IngestLane → IngestLane) : (setIngestLane s n f).ingestValid = s.ingestValid := rfl
@[simp] theorem setIngestLane_chz (n : Nat) (f : IngestLane → IngestLane) : (setIngestLane s n f).chz = s.chz := rfl
@[simp] theorem setIngestLane_ydx (n : Nat) (f : IngestLane → IngestLane) : (setIngestLane s n f).ydx = s.ydx := rfl
@[simp] theorem setIngestLane_badWords (n : Nat) (f : IngestLane → IngestLane) : (setIngestLane s n f).badWords = s.badWords := rfl
@[simp] theorem setIngestLane_ueSynd (n : Nat) (f : IngestLane → IngestLane) : (setIngestLane s n f).ueSynd = s.ueSynd := rfl
@[simp] theorem setIngestLane_xr (n : Nat) (f : IngestLane → IngestLane) : (setIngestLane s n f).xr = s.xr := rfl
@[simp] theorem setIngestLane_bfm (n : Nat) (f : IngestLane → IngestLane) : (setIngestLane s n f).bfm = s.bfm := rfl
@[simp] theorem setIngestLane_integ (n : Nat) (f : IngestLane → IngestLane) : (setIngestLane s n f).integ = s.integ := rfl
@[simp] theorem setIngestLane_cor (n : Nat) (f : IngestLane → IngestLane) : (setIngestLane s n f).cor = s.cor := rfl
@[simp] theorem setIngestLane_trg (n : Nat) (f : IngestLane → IngestLane) : (setIngestLane s n f).trg = s.trg := rfl
@[simp] theorem setIngestLane_mem (n : Nat) (f : IngestLane → IngestLane) : (setIngestLane s n f).mem = s.mem := rfl
@[simp] theorem setIngestLane_clk (n : Nat) (f : IngestLane → IngestLane) : (setIngestLane s n f).clk = s.clk := rfl
@[simp] theorem setIngestLane_ptp (n : Nat) (f : IngestLane → IngestLane) : (setIngestLane s n f).ptp = s.ptp := rfl
@[simp] theorem setIngestLane_brl (n : Nat) (f : IngestLane → IngestLane) : (setIngestLane s n f).brl = s.brl := rfl
@[simp] theorem setIngestLane_dma (n : Nat) (f : IngestLane → IngestLane) : (setIngestLane s n f).dma = s.dma := rfl
@[simp] theorem setIngestLane_pcie (n : Nat) (f : IngestLane → IngestLane) : (setIngestLane s n f).pcie = s.pcie := rfl
@[simp] theorem setIngestLane_cmp (n : Nat) (f : IngestLane → IngestLane) : (setIngestLane s n f).cmp = s.cmp := rfl
@[simp] theorem setIngestLane_evt (n : Nat) (f : IngestLane → IngestLane) : (setIngestLane s n f).evt = s.evt := rfl
@[simp] theorem setIngestLane_ydxSeed (n : Nat) (f : IngestLane → IngestLane) : (setIngestLane s n f).ydxSeed = s.ydxSeed := rfl
@[simp] theorem setIngestLane_str (n : Nat) (f : IngestLane → IngestLane) : (setIngestLane s n f).str = s.str := rfl
@[simp] theorem setIngestLane_pwr (n : Nat) (f : IngestLane → IngestLane) : (setIngestLane s n f).pwr = s.pwr := rfl
@[simp] theorem setIngestLane_pending (n : Nat) (f : IngestLane → IngestLane) : (setIngestLane s n f).pending = s.pending := rfl

@[simp] theorem setArch_self (f : Arch → Arch) : (setArch s f).arch = f s.arch := rfl
@[simp] theorem setStr_self (f : Str → Str) : (setStr s f).str = f s.str := rfl
@[simp] theorem setPwr_self (f : Pwr → Pwr) : (setPwr s f).pwr = f s.pwr := rfl
@[simp] theorem setTwin_self (f : Twin → Twin) : (setTwin s f).twin = f s.twin := rfl
@[simp] theorem setChz_self (f : Chz → Chz) : (setChz s f).chz = f s.chz := rfl
@[simp] theorem setXr_self (f : Xr → Xr) : (setXr s f).xr = f s.xr := rfl
@[simp] theorem setBfm_self (f : Bfm → Bfm) : (setBfm s f).bfm = f s.bfm := rfl
@[simp] theorem setCor_self (f : Cor → Cor) : (setCor s f).cor = f s.cor := rfl
@[simp] theorem setInteg_self (f : Integ → Integ) : (setInteg s f).integ = f s.integ := rfl
@[simp] theorem setTrg_self (f : Trg → Trg) : (setTrg s f).trg = f s.trg := rfl
@[simp] theorem setYdx_self (f : Ydx → Ydx) : (setYdx s f).ydx = f s.ydx := rfl
@[simp] theorem setMem_self (f : MemCtl → MemCtl) : (setMem s f).mem = f s.mem := rfl
@[simp] theorem setClk_self (f : Clk → Clk) : (setClk s f).clk = f s.clk := rfl
@[simp] theorem setPtp_self (f : Ptp → Ptp) : (setPtp s f).ptp = f s.ptp := rfl
@[simp] theorem setEvt_self (f : Evt → Evt) : (setEvt s f).evt = f s.evt := rfl

end Sys2Proof.Machine
end

