-- ==== Sys2Proof/Laws/Ops.lean ====
section
/-! SUPPORT. What the shared operations over sparse maps, registers and DRAM do, said once each: read after write, what a
write leaves alone, and the canonical forms they keep. -/

namespace Sys2Proof.Machine

/-! ## Sparse maps -/

namespace SMap

variable {α : Type}

theorem find_put_same (m : SMap α) (k : Nat) (v : α) : (m.put k v).find k = some v := by
  induction m with
  | nil => simp [put, find]
  | cons c m ih =>
    obtain ⟨k', v'⟩ := c
    unfold put
    split
    · simp [find]
    · split
      · simp [find]
      · simp [find, *]

theorem find_put_ne (m : SMap α) {k j : Nat} (v : α) (h : j ≠ k) : (m.put k v).find j = m.find j := by
  induction m with
  | nil => simp [put, find, h.symm]
  | cons c m ih =>
    obtain ⟨k', v'⟩ := c
    unfold put
    split
    · simp [find, h.symm]
    · split
      · rename_i _ e; subst e; simp [find, h.symm]
      · simp [find, ih]

theorem find_put (m : SMap α) (k j : Nat) (v : α) : (m.put k v).find j = if j = k then some v else m.find j := by
  split
  · subst_vars; exact find_put_same m _ v
  · exact find_put_ne m v ‹_›

@[simp] theorem get_put_same (m : SMap α) (d : α) (k : Nat) (v : α) : (m.put k v).get d k = v := by
  simp [get, find_put_same]

theorem get_put_ne (m : SMap α) (d : α) {k j : Nat} (v : α) (h : j ≠ k) : (m.put k v).get d j = m.get d j := by
  simp [get, find_put_ne m v h]

theorem get_put (m : SMap α) (d : α) (k j : Nat) (v : α) : (m.put k v).get d j = if j = k then v else m.get d j := by
  split
  · subst_vars; simp
  · exact get_put_ne m d v ‹_›

theorem mem_put (m : SMap α) (k : Nat) (v : α) (c : Nat × α) : c ∈ m.put k v → c = (k, v) ∨ c ∈ m := by
  induction m with
  | nil => simp [put]
  | cons d m ih =>
    obtain ⟨k', v'⟩ := d
    unfold put
    split
    · simp
    · split
      · simp only [List.mem_cons]; rintro (h | h) <;> simp [h]
      · simp only [List.mem_cons]
        rintro (h | h)
        · simp [h]
        · rcases ih h with h | h <;> simp [h]

theorem put_sorted {m : SMap α} (h : m.Sorted) (k : Nat) (v : α) : (m.put k v).Sorted := by
  induction m with
  | nil => simp [put, Sorted]
  | cons d m ih =>
    obtain ⟨k', v'⟩ := d
    simp only [Sorted, List.pairwise_cons] at h ih ⊢
    unfold put
    split
    · rename_i lt
      refine List.pairwise_cons.2 ⟨?_, List.pairwise_cons.2 h⟩
      intro c hc
      rcases List.mem_cons.1 hc with rfl | hc
      · exact lt
      · exact lt.trans (h.1 c hc)
    · split
      · rename_i _ e; subst e; exact List.pairwise_cons.2 h
      · rename_i n1 n2
        refine List.pairwise_cons.2 ⟨?_, ih h.2⟩
        intro c hc
        rcases mem_put m k v c hc with rfl | hc
        · show k' < k; omega
        · exact h.1 c hc

theorem drop_sorted {m : SMap α} (h : m.Sorted) (p : Nat → Bool) : (m.drop p).Sorted := List.Pairwise.filter _ h

theorem upd_sorted {m : SMap α} (h : m.Sorted) (d : α) (k : Nat) (f : α → α) : (m.upd d k f).Sorted := put_sorted h _ _

theorem nil_sorted : Sorted ([] : SMap α) := List.Pairwise.nil

theorem find_filter {m : SMap α} (q : Nat → Bool) (k : Nat) :
    SMap.find (m.filter fun c => q c.1) k = if q k then m.find k else none := by
  induction m with
  | nil => simp [find]
  | cons d m ih =>
    obtain ⟨k', v'⟩ := d
    simp only [List.filter_cons]
    by_cases e : k' = k
    · subst e
      cases hq : q k'
      · rw [if_neg (by simp), ih]; simp [hq]
      · rw [if_pos rfl]; simp [find]
    · split
      · simp [find, e, ih]
      · rw [ih]; simp [find, e]

theorem find_drop (m : SMap α) (p : Nat → Bool) (k : Nat) : (m.drop p).find k = if p k then none else m.find k := by
  rw [drop, find_filter (fun j => !p j)]
  cases p k <;> simp

end SMap

/-! ## Registers -/

variable (s : State)

@[simp] theorem rd_wr_same (a : Nat) (v : Word) : rd (wr s a v) a = v := by simp [rd, wr, SMap.find_put_same]

theorem rd_wr_ne {a b : Nat} (v : Word) (h : b ≠ a) : rd (wr s a v) b = rd s b := by
  simp [rd, wr, SMap.find_put_ne _ _ h]

theorem rd_wr (a b : Nat) (v : Word) : rd (wr s a v) b = if b = a then v else rd s b := by
  split
  · subst_vars; simp
  · exact rd_wr_ne s v ‹_›

theorem rd_setF (f : Fld) (v b : Nat) : rd (setF s f v) b = if b = f.addr then f.insert (rd s f.addr) v else rd s b :=
  rd_wr s _ _ _

theorem rd_setF_ne (f : Fld) (v : Nat) {b : Nat} (h : b ≠ f.addr) : rd (setF s f v) b = rd s b := rd_wr_ne s _ h

theorem rd_setR (a v b : Nat) : rd (setR s a v) b = if b = a then BitVec.ofNat 32 v else rd s b := rd_wr s _ _ _

theorem rd_bumpBy (a n b : Nat) :
    rd (bumpBy s a n) b = if b = a then BitVec.ofNat 32 (min (getR s a + n) 0xFFFFFFFF) else rd s b := rd_setR s _ _ _

theorem rd_setPair (a v b : Nat) : rd (setPair s a v) b =
    if b = a + 4 then BitVec.ofNat 32 (v / 2 ^ 32) else if b = a then BitVec.ofNat 32 (v % 2 ^ 32) else rd s b := by
  rw [show rd (setPair s a v) b = rd (setR (setR s a (v % 2 ^ 32)) (a + 4) (v / 2 ^ 32)) b from rfl, rd_setR, rd_setR]

/-- A state with the same registers reads the same. -/
theorem rd_congr {s t : State} (h : t.regs = s.regs) (a : Nat) : rd t a = rd s a := by simp [rd, h]

theorem getLsbD_mask (f : Fld) (h : f.hi < 32) (hl : f.lo ≤ f.hi) (i : Nat) :
    f.mask.getLsbD i = decide (f.lo ≤ i ∧ i ≤ f.hi) := by
  have hm : f.mask = BitVec.ofNat 32 ((2 ^ (f.hi + 1 - f.lo) - 1) <<< f.lo) := by
    simp [Fld.mask, Nat.shiftLeft_eq]
  rw [hm, BitVec.getLsbD_ofNat, Nat.testBit_shiftLeft, Nat.testBit_two_pow_sub_one]
  by_cases h1 : f.lo ≤ i <;> by_cases h2 : i ≤ f.hi <;> simp [h1, h2] <;> omega

theorem getLsbD_insert (f : Fld) (h : f.hi < 32) (hl : f.lo ≤ f.hi) (w : Word) (v i : Nat) :
    (f.insert w v).getLsbD i = if f.lo ≤ i ∧ i ≤ f.hi then v.testBit (i - f.lo) else w.getLsbD i := by
  by_cases hi : i < 32
  · simp only [Fld.insert, BitVec.getLsbD_or, BitVec.getLsbD_and, BitVec.getLsbD_not, getLsbD_mask f h hl,
      BitVec.getLsbD_ofNat, hi, decide_true, Bool.true_and]
    rw [← Nat.shiftLeft_eq, Nat.testBit_shiftLeft]
    split
    · rename_i g; simp [g]
    · rename_i g; simp [g]
  · rw [BitVec.getLsbD_of_ge _ _ (by omega), BitVec.getLsbD_of_ge _ _ (by omega), if_neg (by omega)]

theorem testBit_bitsOf (n hi lo i : Nat) (h : lo ≤ hi) :
    (bitsOf n hi lo).testBit i = (decide (i ≤ hi - lo) && n.testBit (i + lo)) := by
  simp only [bitsOf, Nat.testBit_mod_two_pow, Nat.testBit_div_two_pow]
  congr 1
  simp only [decide_eq_decide]; omega

/-- A field reads as what was set, within its width. -/
theorem getF_setF_same (f : Fld) (h : f.hi < 32) (hl : f.lo ≤ f.hi) (v : Nat) :
    getF (setF s f v) f = v % 2 ^ (f.hi + 1 - f.lo) := by
  apply Nat.eq_of_testBit_eq
  intro i
  simp only [getF, setF, rd_wr_same, testBit_bitsOf _ _ _ _ hl, BitVec.testBit_toNat, getLsbD_insert f h hl,
    Nat.testBit_mod_two_pow]
  by_cases g : i ≤ f.hi - f.lo
  · rw [if_pos (by omega)]; simp [g]; omega
  · simp [g]; omega

/-- Setting a field leaves every field of another register, and every field with other bits, as it was. -/
theorem getF_setF_other (f g : Fld) (h : f.hi < 32) (hl : f.lo ≤ f.hi) (hg : g.lo ≤ g.hi) (v : Nat)
    (ne : g.addr ≠ f.addr ∨ g.hi < f.lo ∨ f.hi < g.lo) : getF (setF s f v) g = getF s g := by
  by_cases e : g.addr = f.addr
  · apply Nat.eq_of_testBit_eq
    intro i
    simp only [getF, setF, e, rd_wr_same, testBit_bitsOf _ _ _ _ hg, BitVec.testBit_toNat, getLsbD_insert f h hl]
    by_cases g' : i ≤ g.hi - g.lo
    · rw [if_neg (by omega)]
    · simp [g']
  · simp [getF, setF, rd_wr_ne _ _ e]

theorem getB_setB_same (a i : Nat) (h : i < 32) (b : Bool) : getB (setB s a i b) a i = b := by
  simp only [getB, setB, setF, rd_wr_same]
  rw [getLsbD_insert _ h (le_refl i)]
  cases b <;> simp [ofBool]

theorem getB_setB_other (a i a' i' : Nat) (h : i < 32) (b : Bool) (ne : a' ≠ a ∨ i' ≠ i) :
    getB (setB s a i b) a' i' = getB s a' i' := by
  by_cases e : a' = a
  · subst e
    simp only [getB, setB, setF, rd_wr_same]
    rw [getLsbD_insert _ h (le_refl i), if_neg (by simp only; omega)]
  · simp [getB, setB, setF, rd_wr_ne _ _ e]

/-! ## DRAM -/

theorem readByte_writeByte (m : List Host.Cell) (a b : Nat) (v : Byte) :
    readByte (writeByte m a v) b = if b = a then v else readByte m b := by
  unfold readByte writeByte
  split
  · subst_vars
    simp only [SMap.get, SMap.find_drop, beq_iff_eq]
    by_cases e : b = a <;> simp [e]
  · exact SMap.get_put m 0 a b v

theorem writeByte_wf {m : List Host.Cell} (h : Memory.wf m) (a : Nat) (v : Byte) : Memory.wf (writeByte m a v) := by
  unfold writeByte
  split
  · exact ⟨SMap.drop_sorted h.1 _, fun c hc => h.2 c (List.mem_of_mem_filter hc)⟩
  · refine ⟨SMap.put_sorted h.1 _ _, fun c hc => ?_⟩
    rcases SMap.mem_put m a v c hc with rfl | hc
    · assumption
    · exact h.2 c hc

theorem writeBytes_wf (bs : List Byte) {m : List Host.Cell} (h : Memory.wf m) (a : Nat) :
    Memory.wf (writeBytes m a bs) := by
  induction bs generalizing m a with
  | nil => exact h
  | cons b bs ih => exact ih (writeByte_wf h a b) _

theorem writeAround_wf (holes : List Nat) (bs : List Byte) {m : List Host.Cell} (h : Memory.wf m) (a : Nat) :
    Memory.wf (writeAround holes m a bs) := by
  induction bs generalizing m a with
  | nil => exact h
  | cons b bs ih =>
    apply ih
    split
    · exact h
    · exact writeByte_wf h a b

theorem nil_wf : Memory.wf [] := ⟨SMap.nil_sorted, by simp⟩

/-- A byte outside the range written reads as before. -/
theorem readByte_writeBytes_outside (bs : List Byte) (m : List Host.Cell) (a b : Nat) (h : b < a ∨ a + bs.length ≤ b) :
    readByte (writeBytes m a bs) b = readByte m b := by
  induction bs generalizing m a with
  | nil => rfl
  | cons c bs ih =>
    simp only [List.length_cons] at h
    rw [writeBytes, ih _ _ (by omega), readByte_writeByte, if_neg (by omega)]

/-- A byte inside the range written reads as the byte written there. -/
theorem readByte_writeBytes_inside (bs : List Byte) (m : List Host.Cell) (a i : Nat) (h : i < bs.length) :
    readByte (writeBytes m a bs) (a + i) = bs[i] := by
  induction bs generalizing m a i with
  | nil => simp at h
  | cons c bs ih =>
    cases i with
    | zero => rw [writeBytes, readByte_writeBytes_outside _ _ _ _ (by omega), readByte_writeByte]; simp
    | succ i =>
      rw [writeBytes, show a + (i + 1) = (a + 1) + i by omega, ih _ _ _ (by simpa using h)]
      simp

theorem readByte_writeAround_outside (holes : List Nat) (bs : List Byte) (m : List Host.Cell) (a b : Nat)
    (h : b < a ∨ a + bs.length ≤ b) : readByte (writeAround holes m a bs) b = readByte m b := by
  induction bs generalizing m a with
  | nil => rfl
  | cons c bs ih =>
    simp only [List.length_cons] at h
    rw [writeAround, ih _ _ (by omega)]
    split
    · rfl
    · rw [readByte_writeByte, if_neg (by omega)]

/-- A write to DRAM changes no byte outside its range. -/
theorem dramWrite_outside (a : Nat) (bs : List Byte) (b : Nat) (h : b < a ∨ a + bs.length ≤ b) :
    readByte (dramWrite s a bs).dram b = readByte s.dram b := by
  simp only [dramWrite]
  split
  · exact readByte_writeBytes_outside bs s.dram a b h
  · exact readByte_writeAround_outside _ bs s.dram a b h

/-- With no codeword in error, a write to DRAM puts its bytes there. -/
theorem dramWrite_inside (a : Nat) (bs : List Byte) (hb : s.badWords = []) (i : Nat) (h : i < bs.length) :
    readByte (dramWrite s a bs).dram (a + i) = bs[i] := by
  simp only [dramWrite, hb, if_true]
  exact readByte_writeBytes_inside bs s.dram a i h

theorem dramWrite_wf (h : Memory.wf s.dram) (a : Nat) (bs : List Byte) : Memory.wf (dramWrite s a bs).dram := by
  simp only [dramWrite]
  split
  · exact writeBytes_wf bs h a
  · exact writeAround_wf _ bs h a

/-! ## Accesses of the units (R302, R306, R307) -/

@[simp] theorem faultRecord_dram (t : State) : (faultRecord s t).dram = t.dram := by
  unfold faultRecord; dsimp only
  split <;> rfl

@[simp] theorem setFaults_dram (w : Word) : (setFaults s w).dram = s.dram := faultRecord_dram s _

@[simp] theorem fault_dram (n : Nat) : (fault s n).dram = s.dram := setFaults_dram s _

@[simp] theorem raise_dram (n : Nat) : (raise s n).dram = s.dram := by
  unfold raise raiseIn
  split <;> rfl

theorem memLog_wf (h : Memory.wf s.dram) (kind req symbol a synd : Nat) : Memory.wf (memLog s kind req symbol a synd).dram := by
  unfold memLog; dsimp only
  split
  · exact h
  · exact dramWrite_wf s h _ _

theorem ueReport_wf (h : Memory.wf s.dram) (req line : Nat) (rmw : Bool) (ws : List Nat) :
    Memory.wf (ueReport s req line rmw ws).dram := by
  unfold ueReport
  simp only [fault_dram, raise_dram, setF_dram, bump_dram, setMem_dram]
  induction ws generalizing s with
  | nil => exact h
  | cons w ws ih => exact ih _ (memLog_wf s h _ _ _ _ _)

theorem served_dram (req a n : Nat) : (served s req a n).dram = s.dram := by
  have f (l : List Nat) : ∀ s : State, (l.foldl leaveSelfRefresh s).dram = s.dram := by
    induction l with
    | nil => intro s; rfl
    | cons u l ih => intro s; rw [List.foldl_cons, ih]; unfold leaveSelfRefresh; split <;> rfl
  unfold served; dsimp only
  split
  · rw [f]; rfl
  · rfl

/-- A write that memory, guard and codewords admit is a write to DRAM after its subchannels have left self-refresh. -/
theorem unitWrite_ok (req a : Nat) (bs : List Byte) (hd : dramUsable s = true)
    (hg : guardOk s req a bs.length true = true) (hh : holesOf s a bs.length = []) :
    unitWrite s req a bs = dramWrite (served s req a bs.length) a bs := by
  simp [unitWrite, hd, hg, hh]

/-- A write that meets no usable memory does nothing. -/
theorem unitWrite_off (req a : Nat) (bs : List Byte) (hd : dramUsable s = false) : unitWrite s req a bs = s := by
  simp [unitWrite, hd]

/-- A write that the guard refuses is only reported. -/
theorem unitWrite_refused (req a : Nat) (bs : List Byte) (hd : dramUsable s = true)
    (hg : guardOk s req a bs.length true = false) : unitWrite s req a bs = guardReport s req a := by
  simp [unitWrite, hd, hg]

theorem unitWrite_wf (h : Memory.wf s.dram) (req a : Nat) (bs : List Byte) : Memory.wf (unitWrite s req a bs).dram := by
  have f (l : List Nat) : ∀ s : State, Memory.wf s.dram →
      Memory.wf (l.foldl (fun s w => ueReport s req (w / 4) true [w % 4]) s).dram := by
    induction l with
    | nil => exact fun s h => h
    | cons w l ih => exact fun s h => ih _ (ueReport_wf s h _ _ _ _)
  unfold unitWrite
  split
  · exact h
  · split
    · exact memLog_wf (setF (bump s R.MEM_GUARD_COUNT) F.MEM_STATUS_GUARD 1) h _ _ _ _ _
    · exact f _ _ (dramWrite_wf _ (by rw [served_dram]; exact h) _ _)

/-- A unit's write that is performed whole changes no byte outside its range. -/
theorem unitWrite_outside (req a : Nat) (bs : List Byte) (b : Nat) (h : b < a ∨ a + bs.length ≤ b)
    (hd : dramUsable s = true) (hg : guardOk s req a bs.length true = true) (hh : holesOf s a bs.length = []) :
    readByte (unitWrite s req a bs).dram b = readByte s.dram b := by
  rw [unitWrite_ok s req a bs hd hg hh, dramWrite_outside _ a bs b h, served_dram]

/-- A read that a unit gets is served, and answers what `unitRead` does. -/
theorem unitFetch_ok (req a n : Nat) (bs : List Byte) (h : unitRead s req a n = some bs) :
    unitFetch s req a n = (served s req a n, some bs) := by
  simp [unitFetch, h]

/-- A read that a unit does not get answers none. -/
theorem unitFetch_none (req a n : Nat) (h : unitRead s req a n = none) : (unitFetch s req a n).2 = none := by
  simp [unitFetch, h]

/-! ## Arrays -/

theorem arrGet_arrSet_same (x : Arr) (d i : Nat) (v : DWord) : arrGet (arrSet s x i v) x d i = v := by
  simp [arrGet, arrSet]

end Sys2Proof.Machine
end

