-- ==== Sys2Proof/Laws/Sound.lean ====
section
/-! SUPPORT. Every function that answers a state keeps soundness: one lemma per function. -/

namespace Sys2Proof.Machine

set_option linter.unusedTactic false
set_option linter.unreachableTactic false
variable {s t : State}

/-- A record update of fields that soundness does not speak of. -/
theorem Sound.mk (h : s.Sound) {pl pc ep tt co fr ou pu la ca ig ma tw li iv ch yd bw us xr bf it cr tg me ck pt br dm pi cm ev ys sr pe} :
    State.Sound { regs := s.regs, pairLow := pl, pairLatch := pc, dram := s.dram, arrays := s.arrays, epochs := ep, totals := tt, counter := co, free := fr, out := ou, pulses := pu, arch := s.arch, lanes := la, calActive := ca, ingest := ig, mail := ma, twin := tw, links := li, ingestValid := iv, chz := ch, ydx := yd, badWords := bw, ueSynd := us, xr := xr, bfm := bf, integ := it, cor := cr, trg := tg, mem := me, clk := ck, ptp := pt, brl := br, dma := dm, pcie := pi, cmp := cm, evt := ev, ydxSeed := ys, str := sr, pwr := s.pwr, pending := pe } := h

theorem Sound.ite {c : Prop} [Decidable c] (hs : s.Sound) (ht : t.Sound) : State.Sound (if c then s else t) := by
  split
  · exact hs
  · exact ht

theorem Sound.foldl {α : Type} {f : State → α → State} (hf : ∀ s x, s.Sound → (f s x).Sound) {l : List α} (h : s.Sound) :
    State.Sound (l.foldl f s) := by
  induction l generalizing s with
  | nil => exact h
  | cons x l ih => exact ih (hf s x h)

theorem Sound.ite_fst {α : Type} {p q : State × α} {c : Prop} [Decidable c] (hs : p.1.Sound) (ht : q.1.Sound) :
    State.Sound (if c then p else q).1 := by
  split
  · exact hs
  · exact ht

theorem Sound.foldl_fst {α β : Type} {f : State × β → α → State × β} (hf : ∀ p x, p.1.Sound → (f p x).1.Sound) {l : List α}
    {p : State × β} (h : p.1.Sound) : State.Sound (l.foldl f p).1 := by
  induction l generalizing p with
  | nil => exact h
  | cons x l ih => exact ih (hf p x h)

theorem Sound.of_fst {β : Type} {p : State × β} {x : β} (e : p = (s, x)) (h : p.1.Sound) : s.Sound := by
  subst e; exact h

theorem SMap.foldl_put_sorted {α : Type} {l : List (Nat × α)} {m : SMap α} (h : m.Sorted) :
    SMap.Sorted (l.foldl (fun m e => m.put e.1 e.2) m) := by
  induction l generalizing m with
  | nil => exact h
  | cons e l ih => exact ih (SMap.put_sorted h _ _)

theorem Sound.dropRegs (h : s.Sound) (hd : t.dram = s.dram) (hr : ∃ p, t.regs = SMap.drop s.regs p)
    (ha : t.arrays = s.arrays) (hu : t.arch = s.arch) (hp : t.pwr = s.pwr) : t.Sound :=
  ⟨hd ▸ h.1, hr.elim fun _ e => e ▸ SMap.drop_sorted h.2.1 _, ha ▸ h.2.2.1, by rw [hu, hp]; exact h.2.2.2⟩

theorem Sound.dropArrays (h : s.Sound) (hd : t.dram = s.dram) (hr : t.regs = s.regs)
    (ha : ∃ p, t.arrays = SMap.drop s.arrays p) (hu : t.arch = s.arch) (hp : t.pwr = s.pwr) : t.Sound :=
  ⟨hd ▸ h.1, hr ▸ h.2.1, ha.elim fun _ e => e ▸ SMap.drop_sorted h.2.2.1 _, by rw [hu, hp]; exact h.2.2.2⟩

theorem wr_sound {a v} (h : s.Sound) : State.Sound (wr s a v) :=
  ⟨h.1, SMap.put_sorted h.2.1 _ _, h.2.2⟩

theorem setF_sound {b c} (h : s.Sound) : State.Sound (setF s b c) := by
  unfold setF; try dsimp only
  repeat' first
    | with_reducible assumption | with_reducible apply wr_sound

theorem setR_sound {b c} (h : s.Sound) : State.Sound (setR s b c) := by
  unfold setR; try dsimp only
  repeat' first
    | with_reducible assumption | with_reducible apply wr_sound

theorem setB_sound {b c d} (h : s.Sound) : State.Sound (setB s b c d) := by
  unfold setB; try dsimp only
  repeat' first
    | with_reducible assumption | with_reducible apply setF_sound

theorem setPairB_sound {b c d} (h : s.Sound) : State.Sound (setPairB s b c d) := by
  unfold setPairB; try dsimp only
  repeat' first
    | with_reducible assumption | with_reducible apply setB_sound

theorem setPair_sound {a v} (h : s.Sound) : State.Sound (setPair s a v) :=
  Sound.mk (setR_sound (setR_sound h))

theorem writePairLow_sound {b c} (h : s.Sound) : State.Sound (writePairLow s b c) := by
  unfold writePairLow; dsimp only
  apply wr_sound
  cases SMap.find s.pairLow b
  · exact Sound.mk h
  · exact h

theorem writePairHigh_sound {b c} (h : s.Sound) : State.Sound (writePairHigh s b c) := by
  unfold writePairHigh; try dsimp only
  repeat' first
    | with_reducible assumption | with_reducible apply wr_sound
    | fail_if_no_progress with_reducible apply Sound.mk

theorem bumpBy_sound {b c} (h : s.Sound) : State.Sound (bumpBy s b c) := by
  unfold bumpBy; try dsimp only
  repeat' first
    | with_reducible assumption | with_reducible apply setR_sound
    | fail_if_no_progress with_reducible apply Sound.mk

theorem bump_sound {b} (h : s.Sound) : State.Sound (bump s b) := by
  unfold bump; try dsimp only
  repeat' first
    | with_reducible assumption | with_reducible apply bumpBy_sound

theorem bumpF_sound {b} (h : s.Sound) : State.Sound (bumpF s b) := by
  unfold bumpF; try dsimp only
  repeat' first
    | with_reducible assumption | with_reducible apply setF_sound

theorem dramWrite_sound {a bs} (h : s.Sound) : State.Sound (dramWrite s a bs) :=
  ⟨dramWrite_wf s h.1 a bs, h.2⟩

theorem freeTaken_sound  (h : s.Sound) : State.Sound (freeTaken s) := by
  unfold freeTaken; try dsimp only
  repeat' first
    | with_reducible assumption | fail_if_no_progress with_reducible apply Sound.mk

theorem arrSet_sound {x i v} (h : s.Sound) : State.Sound (arrSet s x i v) :=
  ⟨h.1, h.2.1, SMap.put_sorted h.2.2.1 _ _, h.2.2.2⟩

theorem emit_sound {b} (h : s.Sound) : State.Sound (emit s b) := by
  unfold emit; try dsimp only
  repeat' first
    | with_reducible assumption | fail_if_no_progress with_reducible apply Sound.mk

theorem msixSend_sound {b} (h : s.Sound) : State.Sound (msixSend s b) := by
  unfold msixSend; try dsimp only
  repeat' first
    | with_reducible assumption | with_reducible apply emit_sound

theorem msix_sound {b} (h : s.Sound) : State.Sound (msix s b) := by
  unfold msix; try dsimp only
  repeat' first
    | with_reducible assumption | with_reducible apply setB_sound | with_reducible apply msixSend_sound
    | with_reducible apply Sound.ite

theorem advanceTo_sound {b} (h : s.Sound) : State.Sound (advanceTo s b) := by
  unfold advanceTo; try dsimp only
  repeat' first
    | with_reducible assumption | with_reducible apply Sound.ite
    | fail_if_no_progress with_reducible apply Sound.mk

theorem faultRecord_sound {a} (h : s.Sound) : State.Sound (faultRecord a s) := by
  unfold faultRecord; dsimp only
  repeat' first
    | with_reducible assumption | with_reducible apply setPair_sound | with_reducible apply setF_sound
    | with_reducible apply Sound.ite

theorem setFaults_sound {b} (h : s.Sound) : State.Sound (setFaults s b) := by
  unfold setFaults; try dsimp only
  repeat' first
    | with_reducible assumption | with_reducible apply faultRecord_sound | with_reducible apply wr_sound

theorem fault_sound {b} (h : s.Sound) : State.Sound (fault s b) := by
  unfold fault; try dsimp only
  repeat' first
    | with_reducible assumption | with_reducible apply setFaults_sound

theorem refreshLevels_sound  (h : s.Sound) : State.Sound (refreshLevels s) := by
  unfold refreshLevels; try dsimp only
  repeat' first
    | with_reducible assumption | with_reducible apply setFaults_sound

theorem raiseIn_sound {b c} (h : s.Sound) : State.Sound (raiseIn s b c) := by
  unfold raiseIn; try dsimp only
  repeat' first
    | with_reducible assumption | with_reducible apply Sound.ite
    | fail_if_no_progress with_reducible apply Sound.mk

theorem raise_sound {b} (h : s.Sound) : State.Sound (raise s b) := by
  unfold raise; try dsimp only
  repeat' first
    | with_reducible assumption | with_reducible apply raiseIn_sound

theorem brlWake_sound {b} (h : s.Sound) : State.Sound (brlWake s b) := by
  unfold brlWake; try dsimp only
  repeat' first
    | with_reducible assumption | with_reducible apply setF_sound | with_reducible apply Sound.ite
    | fail_if_no_progress with_reducible apply Sound.mk

theorem brlPend_sound {b c} (h : s.Sound) : State.Sound (brlPend s b c) := by
  unfold brlPend; try dsimp only
  repeat' first
    | with_reducible assumption | with_reducible apply bump_sound | with_reducible apply brlWake_sound
    | with_reducible apply setB_sound | with_reducible apply Sound.ite

theorem brlPendAll_sound {b} (h : s.Sound) : State.Sound (brlPendAll s b) := by
  unfold brlPendAll; try dsimp only
  repeat' first
    | with_reducible assumption | with_reducible apply brlPend_sound | with_reducible apply Sound.ite
    | with_reducible refine Sound.foldl (fun _ _ _ => ?_) ?_

theorem wrBytes_sound {b c d} (h : s.Sound) : State.Sound (wrBytes s b c d) := by
  induction d generalizing s b c with
  | zero => exact h
  | succ d ih => exact ih (setR_sound h)

theorem sendMgmtRsp_sound {b c d e f g} (h : s.Sound) : State.Sound (sendMgmtRsp s b c d e f g) := by
  induction g generalizing s b c d e f with
  | zero => exact h
  | succ g ih =>
    unfold sendMgmtRsp; dsimp only
    apply Sound.ite
    · exact emit_sound h
    · exact ih (emit_sound h)

theorem respond_sound {b c d e f g} (h : s.Sound) : State.Sound (respond s b c d e f g) := by
  unfold respond; try dsimp only
  repeat' first
    | with_reducible assumption | with_reducible apply wrBytes_sound | with_reducible apply msix_sound
    | with_reducible apply setF_sound | with_reducible apply sendMgmtRsp_sound | split

theorem requestFails_sound  (h : s.Sound) : State.Sound (requestFails s) := by
  unfold requestFails; try dsimp only
  repeat' first
    | with_reducible assumption | with_reducible apply respond_sound
    | fail_if_no_progress with_reducible apply Sound.mk | split

theorem notice_sound {b c d} (h : s.Sound) : State.Sound (notice s b c d) := by
  unfold notice; try dsimp only
  repeat' first
    | with_reducible assumption | with_reducible apply setR_sound | with_reducible apply raise_sound
    | with_reducible apply msix_sound | with_reducible apply setF_sound
    | with_reducible refine Sound.of_fst ‹_ = (_, _)› ?_ | fail_if_no_progress with_reducible apply Sound.mk

theorem serve_sound {b c d e} {f : State → State} (h : s.Sound) (hf : ∀ s : State, s.Sound → (f s).Sound) :
    State.Sound (serve s b c d e f) := by
  unfold serve; dsimp only
  repeat' first | with_reducible assumption | with_reducible apply setF_sound | with_reducible apply respond_sound | with_reducible apply hf | with_reducible apply Sound.ite | fail_if_no_progress with_reducible apply Sound.mk | split

theorem acceptAsync_sound {b c d} (h : s.Sound) : State.Sound (acceptAsync s b c d) := by
  unfold acceptAsync; try dsimp only
  repeat' first
    | with_reducible assumption | with_reducible apply respond_sound
    | with_reducible refine Sound.of_fst ‹_ = (_, _)› ?_ | fail_if_no_progress with_reducible apply Sound.mk

theorem setMem_sound {b} (h : s.Sound) : State.Sound (setMem s b) := by
  unfold setMem; try dsimp only
  repeat' first
    | with_reducible assumption | fail_if_no_progress with_reducible apply Sound.mk

theorem memLog_sound {b c d e f} (h : s.Sound) : State.Sound (memLog s b c d e f) := by
  unfold memLog; try dsimp only
  repeat' first
    | with_reducible assumption | with_reducible apply setF_sound | with_reducible apply bump_sound
    | with_reducible apply dramWrite_sound | with_reducible apply Sound.ite

theorem panicTally_sound  (h : s.Sound) : State.Sound (panicTally s) := by
  unfold panicTally; try dsimp only
  repeat' first
    | with_reducible assumption | with_reducible apply setMem_sound | with_reducible apply bumpBy_sound
    | with_reducible apply Sound.ite

theorem guardReport_sound {b c} (h : s.Sound) : State.Sound (guardReport s b c) := by
  unfold guardReport; try dsimp only
  repeat' first
    | with_reducible assumption | with_reducible apply memLog_sound | with_reducible apply setF_sound
    | with_reducible apply bump_sound

theorem ueReport_sound {b c d e} (h : s.Sound) : State.Sound (ueReport s b c d e) := by
  unfold ueReport; try dsimp only
  repeat' first
    | with_reducible assumption | with_reducible apply memLog_sound | with_reducible apply setMem_sound
    | with_reducible apply fault_sound | with_reducible apply raise_sound | with_reducible apply setF_sound
    | with_reducible apply bump_sound | with_reducible apply Sound.ite
    | with_reducible refine Sound.foldl (fun _ _ _ => ?_) ?_

theorem lineReport_sound {b c} (h : s.Sound) : State.Sound (lineReport s b c) := by
  unfold lineReport; try dsimp only
  repeat' first
    | with_reducible assumption | with_reducible apply ueReport_sound

theorem leaveSelfRefresh_sound {b} (h : s.Sound) : State.Sound (leaveSelfRefresh s b) := by
  unfold leaveSelfRefresh; try dsimp only
  repeat' first
    | with_reducible assumption | with_reducible apply setF_sound | with_reducible apply Sound.ite

theorem served_sound {b c d} (h : s.Sound) : State.Sound (served s b c d) := by
  unfold served; try dsimp only
  repeat' first
    | with_reducible assumption | with_reducible apply setMem_sound
    | with_reducible apply leaveSelfRefresh_sound | with_reducible apply Sound.ite
    | with_reducible refine Sound.foldl (fun _ _ _ => ?_) ?_

theorem unitWrite_sound {b c d} (h : s.Sound) : State.Sound (unitWrite s b c d) := by
  unfold unitWrite; try dsimp only
  repeat' first
    | with_reducible assumption | with_reducible apply guardReport_sound | with_reducible apply ueReport_sound
    | with_reducible apply dramWrite_sound | with_reducible apply served_sound | with_reducible apply Sound.ite
    | with_reducible refine Sound.foldl (fun _ _ _ => ?_) ?_

theorem unitFetch_sound {b c d} (h : s.Sound) : State.Sound (unitFetch s b c d).1 := by
  unfold unitFetch; try dsimp only
  repeat' first
    | with_reducible assumption | with_reducible apply served_sound | with_reducible apply guardReport_sound
    | with_reducible apply lineReport_sound | with_reducible apply Sound.ite
    | with_reducible refine Sound.foldl (fun _ _ _ => ?_) ?_ | with_reducible apply Sound.ite_fst
    | with_reducible refine Sound.foldl_fst (fun _ _ _ => ?_) ?_
    | with_reducible refine Sound.of_fst ‹_ = (_, _)› ?_ | split

theorem scatterWrite_sound {b c d} (h : s.Sound) : State.Sound (scatterWrite s b c d) := by
  unfold scatterWrite; try dsimp only
  repeat' first
    | with_reducible assumption | with_reducible apply dramWrite_sound | with_reducible apply ueReport_sound
    | with_reducible apply Sound.ite | with_reducible refine Sound.foldl (fun _ _ _ => ?_) ?_
    | with_reducible apply Sound.ite_fst | with_reducible refine Sound.foldl_fst (fun _ _ _ => ?_) ?_
    | with_reducible refine Sound.of_fst ‹_ = (_, _)› ?_ | fail_if_no_progress with_reducible apply Sound.mk

theorem sendOn_sound {b c d} (h : s.Sound) : State.Sound (sendOn s b c d) := by
  unfold sendOn; try dsimp only
  repeat' first
    | with_reducible assumption | with_reducible apply emit_sound | with_reducible apply Sound.ite

theorem sendTwin_sound {b c d} (h : s.Sound) : State.Sound (sendTwin s b c d) := by
  unfold sendTwin; try dsimp only
  repeat' first
    | with_reducible assumption | with_reducible apply sendOn_sound | with_reducible apply Sound.ite
    | fail_if_no_progress with_reducible apply Sound.mk

theorem mirroredWrite_sound {b c d e} {f : State → State} (h : s.Sound) (hf : ∀ s, State.Sound s → State.Sound (f s)) : State.Sound (mirroredWrite s b c d e f) := by
  unfold mirroredWrite; try dsimp only
  repeat' first
    | with_reducible assumption | with_reducible apply bump_sound | with_reducible apply sendTwin_sound
    | with_reducible apply hf | with_reducible apply Sound.ite | with_reducible apply Sound.ite_fst
    | with_reducible refine Sound.of_fst ‹_ = (_, _)› ?_ | fail_if_no_progress with_reducible apply Sound.mk

theorem mirrored_sound {b c d} {e : State → State} (h : s.Sound) (he : ∀ s, State.Sound s → State.Sound (e s)) : State.Sound (mirrored s b c d e) := by
  unfold mirrored; try dsimp only
  repeat' first
    | with_reducible assumption | with_reducible refine mirroredWrite_sound ?_ (fun _ _ => ?_)
    | with_reducible apply he

theorem digestAdd_sound {b c d} (h : s.Sound) : State.Sound (digestAdd s b c d) := by
  unfold digestAdd; try dsimp only
  repeat' first
    | with_reducible assumption | with_reducible apply Sound.ite
    | fail_if_no_progress with_reducible apply Sound.mk

theorem digestCrc_sound {b c d} (h : s.Sound) : State.Sound (digestCrc s b c d) := by
  unfold digestCrc; try dsimp only
  repeat' first
    | with_reducible assumption | with_reducible apply digestAdd_sound
    | with_reducible refine Sound.foldl (fun _ _ _ => ?_) ?_

theorem digestSum_sound {b c d} (h : s.Sound) : State.Sound (digestSum s b c d) := by
  unfold digestSum; try dsimp only
  repeat' first
    | with_reducible assumption | with_reducible apply digestAdd_sound

theorem twinJoinEnd_sound {b c} (h : s.Sound) : State.Sound (twinJoinEnd s b c) := by
  unfold twinJoinEnd; try dsimp only
  repeat' first
    | with_reducible assumption | with_reducible apply notice_sound
    | fail_if_no_progress with_reducible apply Sound.mk | split

theorem twinRestore_sound {b} (h : s.Sound) : State.Sound (twinRestore s b) := by
  have k : State.Sound { s with
      arrays := b.arrays.foldl (fun m e => m.put e.1 e.2) (s.arrays.drop mirroredKey), regs := s.regs.drop mirroredReg } :=
    ⟨h.1, SMap.drop_sorted h.2.1 _, SMap.foldl_put_sorted (SMap.drop_sorted h.2.2.1 _), h.2.2.2⟩
  exact Sound.mk (Sound.foldl (fun _ _ h => wr_sound h) k)

theorem twinDiscard_sound  (h : s.Sound) : State.Sound (twinDiscard s) := by
  unfold twinDiscard; try dsimp only
  repeat' first
    | with_reducible assumption | with_reducible apply twinRestore_sound | with_reducible apply Sound.ite
    | split

theorem twinUnsync_sound {b c} (h : s.Sound) : State.Sound (twinUnsync s b c) := by
  unfold twinUnsync; try dsimp only
  repeat' first
    | with_reducible assumption | with_reducible apply setF_sound | with_reducible apply twinJoinEnd_sound
    | fail_if_no_progress with_reducible apply Sound.mk

theorem twinAbandon_sound {b} (h : s.Sound) : State.Sound (twinAbandon s b) := by
  unfold twinAbandon; try dsimp only
  repeat' first
    | with_reducible assumption | with_reducible apply bump_sound | with_reducible apply twinUnsync_sound
    | with_reducible apply twinDiscard_sound | with_reducible apply Sound.ite

theorem setLane_sound {b c} (h : s.Sound) : State.Sound (setLane s b c) := by
  unfold setLane; try dsimp only
  repeat' first
    | with_reducible assumption | fail_if_no_progress with_reducible apply Sound.mk

theorem setXlink_sound {b c} (h : s.Sound) : State.Sound (setXlink s b c) := by
  unfold setXlink; try dsimp only
  repeat' first
    | with_reducible assumption | fail_if_no_progress with_reducible apply Sound.mk

theorem statusFollow_sound {b c} (h : s.Sound) : State.Sound (statusFollow s b c) := by
  unfold statusFollow; try dsimp only
  repeat' first
    | with_reducible assumption | with_reducible apply emit_sound | with_reducible apply Sound.ite | split

theorem announce_sound {b} (h : s.Sound) : State.Sound (announce s b) := by
  unfold announce; try dsimp only
  repeat' first
    | with_reducible assumption | with_reducible apply emit_sound | with_reducible apply Sound.ite

theorem linkUpdate_sound {b} (h : s.Sound) : State.Sound (linkUpdate s b) := by
  unfold linkUpdate; try dsimp only
  repeat' first
    | with_reducible assumption | with_reducible apply setF_sound | with_reducible apply fault_sound
    | with_reducible apply setXlink_sound | with_reducible apply Sound.ite

theorem enter_sound {b c} (h : s.Sound) : State.Sound (enter s b c) := by
  unfold enter; try dsimp only
  repeat' first
    | with_reducible assumption | with_reducible apply setF_sound | with_reducible apply statusFollow_sound
    | with_reducible apply setPairB_sound | with_reducible apply linkUpdate_sound
    | with_reducible apply Sound.ite

theorem calNext_sound {b} (h : s.Sound) : State.Sound (calNext s b) := by
  unfold calNext; try dsimp only
  repeat' first
    | with_reducible assumption | with_reducible apply setLane_sound
    | fail_if_no_progress with_reducible apply Sound.mk | split

theorem calEnd_sound {b c} (h : s.Sound) : State.Sound (calEnd s b c) := by
  unfold calEnd; try dsimp only
  repeat' first
    | with_reducible assumption | with_reducible apply setF_sound | with_reducible apply freeTaken_sound
    | with_reducible apply fault_sound | with_reducible apply setLane_sound
    | with_reducible apply calNext_sound | with_reducible apply Sound.ite | split

theorem calAbort_sound {b} (h : s.Sound) : State.Sound (calAbort s b) := by
  unfold calAbort; try dsimp only
  repeat' first
    | with_reducible assumption | with_reducible apply calEnd_sound | with_reducible apply Sound.ite

theorem leave_sound {b c d} (h : s.Sound) : State.Sound (leave s b c d) := by
  unfold leave; try dsimp only
  repeat' first
    | with_reducible assumption | with_reducible apply calAbort_sound | with_reducible apply enter_sound
    | with_reducible apply setLane_sound | with_reducible apply raiseIn_sound
    | with_reducible apply setPairB_sound | with_reducible apply bump_sound | with_reducible apply fault_sound
    | with_reducible apply twinAbandon_sound | with_reducible apply Sound.ite
    | with_reducible refine Sound.foldl (fun _ _ _ => ?_) ?_

theorem bringUp_sound {b} (h : s.Sound) : State.Sound (bringUp s b) := by
  unfold bringUp; try dsimp only
  repeat' first
    | with_reducible assumption | with_reducible apply setLane_sound | with_reducible apply leave_sound
    | with_reducible apply Sound.ite

theorem lanePowered_sound {b} (h : s.Sound) : State.Sound (lanePowered s b) := by
  unfold lanePowered; try dsimp only
  repeat' first
    | with_reducible assumption | with_reducible apply bringUp_sound | with_reducible apply enter_sound
    | with_reducible apply Sound.ite

theorem laneOff_sound {b} (h : s.Sound) : State.Sound (laneOff s b) := by
  unfold laneOff; try dsimp only
  repeat' first
    | with_reducible assumption | with_reducible apply calAbort_sound | with_reducible apply leave_sound

theorem linksRefresh_sound  (h : s.Sound) : State.Sound (linksRefresh s) := by
  unfold linksRefresh; try dsimp only
  repeat' first
    | with_reducible assumption | with_reducible apply linkUpdate_sound
    | with_reducible refine Sound.foldl (fun _ _ _ => ?_) ?_

theorem linkFresh_sound {b} (h : s.Sound) : State.Sound (linkFresh s b) := by
  unfold linkFresh; try dsimp only
  repeat' first
    | with_reducible assumption | with_reducible apply setXlink_sound | with_reducible apply bringUp_sound
    | with_reducible apply Sound.ite | with_reducible refine Sound.foldl (fun _ _ _ => ?_) ?_

theorem linkFreshOf_sound {b} (h : s.Sound) : State.Sound (linkFreshOf s b) := by
  unfold linkFreshOf; try dsimp only
  repeat' first
    | with_reducible assumption | with_reducible apply linkFresh_sound | with_reducible apply Sound.ite

theorem setUse_sound {b c} (h : s.Sound) : State.Sound (setUse s b c) := by
  unfold setUse; try dsimp only
  repeat' first
    | with_reducible assumption | with_reducible apply wr_sound | with_reducible apply linkFreshOf_sound
    | with_reducible apply leave_sound | with_reducible apply linksRefresh_sound
    | with_reducible apply bringUp_sound | with_reducible apply Sound.ite

theorem splitFollow_sound {b} (h : s.Sound) : State.Sound (splitFollow s b) := by
  unfold splitFollow; try dsimp only
  repeat' first
    | with_reducible assumption | with_reducible apply linkFresh_sound
    | with_reducible apply linksRefresh_sound | with_reducible apply setF_sound
    | with_reducible apply leave_sound | with_reducible apply Sound.ite
    | with_reducible refine Sound.foldl (fun _ _ _ => ?_) ?_

theorem narrowOnto_sound {b c} (h : s.Sound) : State.Sound (narrowOnto s b c) := by
  unfold narrowOnto; try dsimp only
  repeat' first
    | with_reducible assumption | with_reducible apply setXlink_sound | with_reducible apply setF_sound
    | with_reducible apply setLane_sound | with_reducible apply linkUpdate_sound
    | with_reducible apply bump_sound | with_reducible apply Sound.ite
    | with_reducible refine Sound.foldl (fun _ _ _ => ?_) ?_

theorem setEnables_sound {b c d} (h : s.Sound) : State.Sound (setEnables s b c d) := by
  unfold setEnables; try dsimp only
  repeat' first
    | with_reducible assumption | with_reducible apply setF_sound | with_reducible apply bringUp_sound
    | with_reducible apply laneOff_sound | with_reducible apply Sound.ite

theorem setLoopback_sound {b c} (h : s.Sound) : State.Sound (setLoopback s b c) := by
  unfold setLoopback; try dsimp only
  repeat' first
    | with_reducible assumption | with_reducible apply calAbort_sound | with_reducible apply setF_sound
    | with_reducible apply leave_sound | with_reducible apply announce_sound | with_reducible apply enter_sound
    | with_reducible apply Sound.ite

theorem setPrbs_sound {b c d e} (h : s.Sound) : State.Sound (setPrbs s b c d e) := by
  unfold setPrbs; try dsimp only
  repeat' first
    | with_reducible assumption | with_reducible apply bumpBy_sound | with_reducible apply setF_sound
    | with_reducible apply leave_sound | with_reducible apply announce_sound
    | with_reducible apply statusFollow_sound | with_reducible apply Sound.ite

theorem setPstate_sound {b c} (h : s.Sound) : State.Sound (setPstate s b c) := by
  unfold setPstate; try dsimp only
  repeat' first
    | with_reducible assumption | with_reducible apply calAbort_sound | with_reducible apply setF_sound
    | with_reducible apply statusFollow_sound | with_reducible apply enter_sound
    | with_reducible apply announce_sound | with_reducible apply leave_sound | with_reducible apply Sound.ite

theorem calQueue_sound {b} (h : s.Sound) : State.Sound (calQueue s b) := by
  unfold calQueue; try dsimp only
  repeat' first
    | with_reducible assumption | with_reducible apply setF_sound | with_reducible apply calNext_sound | split

theorem calStart_sound {b} (h : s.Sound) : State.Sound (calStart s b) := by
  unfold calStart; try dsimp only
  repeat' first
    | with_reducible assumption | with_reducible apply calQueue_sound | with_reducible apply setF_sound
    | with_reducible apply wr_sound | with_reducible apply Sound.ite

theorem calRun_sound {b c} (h : s.Sound) : State.Sound (calRun s b c) := by
  unfold calRun; try dsimp only
  repeat' first
    | with_reducible assumption | with_reducible apply setLane_sound | with_reducible apply calEnd_sound
    | with_reducible apply Sound.ite | with_reducible apply Sound.ite_fst
    | with_reducible refine Sound.of_fst ‹_ = (_, _)› ?_ | split

theorem calSwap_sound {b} (h : s.Sound) : State.Sound (calSwap s b) := by
  unfold calSwap; try dsimp only
  repeat' first
    | with_reducible assumption | with_reducible apply setF_sound | with_reducible apply raiseIn_sound
    | with_reducible apply calEnd_sound | split

theorem setRxeq_sound {b c d} (h : s.Sound) : State.Sound (setRxeq s b c d) := by
  unfold setRxeq; try dsimp only
  repeat' first
    | with_reducible assumption | with_reducible apply calQueue_sound | with_reducible apply setLane_sound
    | with_reducible apply setF_sound | with_reducible apply Sound.ite

theorem setTxeq_sound {b c d e} (h : s.Sound) : State.Sound (setTxeq s b c d e) := by
  unfold setTxeq; try dsimp only
  repeat' first
    | with_reducible assumption | with_reducible apply setLane_sound | with_reducible apply setF_sound

theorem commaAligned_sound {b} (h : s.Sound) : State.Sound (commaAligned s b) := by
  unfold commaAligned; try dsimp only
  repeat' first
    | with_reducible assumption | with_reducible apply setF_sound | with_reducible apply narrowOnto_sound
    | with_reducible apply enter_sound | with_reducible apply Sound.ite

theorem setSkews_sound {b c} (h : s.Sound) : State.Sound (setSkews s b c) := by
  unfold setSkews; try dsimp only
  repeat' first
    | with_reducible assumption | with_reducible apply setF_sound | with_reducible apply Sound.ite
    | with_reducible refine Sound.foldl (fun _ _ _ => ?_) ?_ | with_reducible apply Sound.ite_fst
    | with_reducible refine Sound.foldl_fst (fun _ _ _ => ?_) ?_
    | with_reducible refine Sound.of_fst ‹_ = (_, _)› ?_ | split

theorem codeViolation_sound {b c} (h : s.Sound) : State.Sound (codeViolation s b c) := by
  unfold codeViolation; try dsimp only
  repeat' first
    | with_reducible assumption | with_reducible apply bump_sound | with_reducible apply leave_sound
    | with_reducible apply setLane_sound | with_reducible apply Sound.ite

theorem receive_sound {b c d} {e : State → State} (h : s.Sound) (he : ∀ s, State.Sound s → State.Sound (e s)) : State.Sound (receive s b c d e) := by
  unfold receive; try dsimp only
  repeat' first
    | with_reducible assumption | with_reducible apply advanceTo_sound | with_reducible apply bump_sound
    | with_reducible apply he | with_reducible apply Sound.ite

theorem countPayloadCv_sound {b c} (h : s.Sound) : State.Sound (countPayloadCv s b c) := by
  unfold countPayloadCv; try dsimp only
  repeat' first
    | with_reducible assumption | with_reducible apply bumpBy_sound

theorem setIngestLane_sound {b c} (h : s.Sound) : State.Sound (setIngestLane s b c) := by
  unfold setIngestLane; try dsimp only
  repeat' first
    | with_reducible assumption | with_reducible refine Sound.of_fst ‹_ = (_, _)› ?_
    | fail_if_no_progress with_reducible apply Sound.mk

theorem noiseRestart_sound {b} (h : s.Sound) : State.Sound (noiseRestart s b) := by
  unfold noiseRestart; try dsimp only
  repeat' first
    | with_reducible assumption | with_reducible apply setF_sound
    | with_reducible refine Sound.of_fst ‹_ = (_, _)› ?_ | fail_if_no_progress with_reducible apply Sound.mk

theorem setSigState_sound {b c} (h : s.Sound) : State.Sound (setSigState s b c) := by
  unfold setSigState; try dsimp only
  repeat' first
    | with_reducible assumption | with_reducible apply setPairB_sound | with_reducible apply setF_sound
    | with_reducible apply setIngestLane_sound | with_reducible apply noiseRestart_sound
    | with_reducible apply refreshLevels_sound | with_reducible apply Sound.ite
    | with_reducible refine Sound.foldl (fun _ _ _ => ?_) ?_

theorem badFrame_sound {b c d} (h : s.Sound) : State.Sound (badFrame s b c d) := by
  unfold badFrame; try dsimp only
  repeat' first
    | with_reducible assumption | with_reducible apply setIngestLane_sound | with_reducible apply bump_sound
    | with_reducible apply setSigState_sound | with_reducible apply Sound.ite

theorem arrival_sound {b c} (h : s.Sound) : State.Sound (arrival s b c) := by
  unfold arrival; try dsimp only
  repeat' first
    | with_reducible assumption | with_reducible apply setIngestLane_sound
    | with_reducible apply setSigState_sound | with_reducible apply Sound.ite

theorem acceptIngest_sound {b c} (h : s.Sound) : State.Sound (acceptIngest s b c) := by
  unfold acceptIngest; try dsimp only
  repeat' first
    | with_reducible assumption | with_reducible apply setIngestLane_sound | with_reducible apply setPair_sound
    | with_reducible refine Sound.of_fst ‹_ = (_, _)› ?_

theorem ingestFrame_sound {b c} {d : State → State} (h : s.Sound) (hd : ∀ s, State.Sound s → State.Sound (d s)) : State.Sound (ingestFrame s b c d) := by
  unfold ingestFrame; try dsimp only
  repeat' first
    | with_reducible assumption | with_reducible apply countPayloadCv_sound | with_reducible apply wr_sound
    | with_reducible apply bump_sound | with_reducible apply badFrame_sound
    | with_reducible apply arrival_sound | with_reducible apply acceptIngest_sound | with_reducible apply hd
    | with_reducible apply Sound.ite | split

theorem closeLane_sound {b c} (h : s.Sound) : State.Sound (closeLane s b c) := by
  unfold closeLane; try dsimp only
  repeat' first
    | with_reducible assumption | with_reducible apply setIngestLane_sound
    | with_reducible apply setSigState_sound | with_reducible apply Sound.ite
    | with_reducible apply Sound.ite_fst | with_reducible refine Sound.of_fst ‹_ = (_, _)› ?_
    | fail_if_no_progress with_reducible apply Sound.mk

theorem ingestClose_sound {b} (h : s.Sound) : State.Sound (ingestClose s b) := by
  unfold ingestClose; try dsimp only
  repeat' first
    | with_reducible assumption | with_reducible apply advanceTo_sound | with_reducible apply closeLane_sound
    | with_reducible apply setPair_sound | with_reducible apply Sound.ite
    | with_reducible refine Sound.foldl (fun _ _ _ => ?_) ?_
    | fail_if_no_progress with_reducible apply Sound.mk

theorem setIngestEnable_sound {b} (h : s.Sound) : State.Sound (setIngestEnable s b) := by
  unfold setIngestEnable; try dsimp only
  repeat' first
    | with_reducible assumption | with_reducible apply setR_sound | with_reducible apply setSigState_sound
    | with_reducible apply Sound.ite | with_reducible refine Sound.foldl (fun _ _ _ => ?_) ?_

theorem modelWrite_sound {b c d e} (h : s.Sound) : State.Sound (modelWrite s b c d e) := by
  unfold modelWrite; try dsimp only
  repeat' first
    | with_reducible assumption | with_reducible apply arrSet_sound | with_reducible apply Sound.ite
    | fail_if_no_progress with_reducible apply Sound.mk

theorem setChz_sound {b} (h : s.Sound) : State.Sound (setChz s b) := by
  unfold setChz; try dsimp only
  repeat' first
    | with_reducible assumption | fail_if_no_progress with_reducible apply Sound.mk

theorem latchModel_sound {b c} (h : s.Sound) : State.Sound (latchModel s b c) := by
  unfold latchModel; try dsimp only
  repeat' first
    | with_reducible assumption | with_reducible apply setChz_sound | with_reducible apply setPairB_sound
    | with_reducible apply bump_sound | with_reducible apply Sound.ite | with_reducible apply Sound.ite_fst
    | with_reducible refine Sound.of_fst ‹_ = (_, _)› ?_ | split

theorem switchArm_sound {b} (h : s.Sound) : State.Sound (switchArm s b) := by
  unfold switchArm; try dsimp only
  repeat' first
    | with_reducible assumption | with_reducible apply writePairHigh_sound | with_reducible apply setF_sound
    | with_reducible apply setChz_sound | with_reducible apply Sound.ite | with_reducible apply Sound.ite_fst
    | with_reducible refine Sound.of_fst ‹_ = (_, _)› ?_

theorem modeArm_sound {b} (h : s.Sound) : State.Sound (modeArm s b) := by
  unfold modeArm; try dsimp only
  repeat' first
    | with_reducible assumption | with_reducible apply writePairHigh_sound | with_reducible apply setF_sound
    | with_reducible apply setChz_sound | with_reducible apply Sound.ite | with_reducible apply Sound.ite_fst
    | with_reducible refine Sound.of_fst ‹_ = (_, _)› ?_

theorem modeApply_sound {b} (h : s.Sound) : State.Sound (modeApply s b) := by
  unfold modeApply; try dsimp only
  repeat' first
    | with_reducible assumption | with_reducible apply setChz_sound | with_reducible apply setF_sound
    | with_reducible apply Sound.ite | with_reducible apply Sound.ite_fst
    | with_reducible refine Sound.of_fst ‹_ = (_, _)› ?_ | split

theorem switchApply_sound {b} (h : s.Sound) : State.Sound (switchApply s b) := by
  unfold switchApply; try dsimp only
  repeat' first
    | with_reducible assumption | with_reducible apply setF_sound | with_reducible apply setChz_sound
    | with_reducible apply setPair_sound | with_reducible apply Sound.ite | with_reducible apply Sound.ite_fst
    | with_reducible refine Sound.of_fst ‹_ = (_, _)› ?_ | split

theorem bankStore_sound {b c} (h : s.Sound) : State.Sound (bankStore s b c) := by
  unfold bankStore; try dsimp only
  repeat' first
    | with_reducible assumption | with_reducible apply arrSet_sound | with_reducible apply setR_sound
    | with_reducible apply wr_sound | with_reducible apply Sound.ite

theorem bankWrite_sound {b c} (h : s.Sound) : State.Sound (bankWrite s b c) := by
  unfold bankWrite; try dsimp only
  repeat' first
    | with_reducible assumption | with_reducible apply bump_sound | with_reducible apply bankStore_sound
    | with_reducible apply Sound.ite

theorem bankMirrored_sound {b c} (h : s.Sound) : State.Sound (bankMirrored s b c) := by
  unfold bankMirrored; try dsimp only
  repeat' first
    | with_reducible assumption | with_reducible refine mirroredWrite_sound ?_ (fun _ _ => ?_)
    | with_reducible apply bankWrite_sound

theorem quadStartAt_sound {b c} (h : s.Sound) : State.Sound (quadStartAt s b c) := by
  unfold quadStartAt; try dsimp only
  repeat' first
    | with_reducible assumption | with_reducible apply setChz_sound
    | with_reducible refine Sound.of_fst ‹_ = (_, _)› ?_

theorem quadLatch_sound {b c} (h : s.Sound) : State.Sound (quadLatch s b c) := by
  unfold quadLatch; try dsimp only
  repeat' first
    | with_reducible assumption | with_reducible apply quadStartAt_sound | with_reducible apply setChz_sound
    | with_reducible apply Sound.ite

theorem runFollow_sound {b} (h : s.Sound) : State.Sound (runFollow s b) := by
  unfold runFollow; try dsimp only
  repeat' first
    | with_reducible assumption | with_reducible apply setChz_sound | with_reducible apply setF_sound
    | with_reducible apply Sound.ite | split

theorem reloadWrite_sound  (h : s.Sound) : State.Sound (reloadWrite s) := by
  unfold reloadWrite; try dsimp only
  repeat' first
    | with_reducible assumption | with_reducible refine mirrored_sound ?_ (fun _ _ => ?_)
    | with_reducible apply bankStore_sound | with_reducible apply wr_sound | with_reducible apply setChz_sound
    | with_reducible apply Sound.ite | with_reducible refine Sound.foldl (fun _ _ _ => ?_) ?_
    | with_reducible apply Sound.ite_fst | with_reducible refine Sound.foldl_fst (fun _ _ _ => ?_) ?_
    | with_reducible refine Sound.of_fst ‹_ = (_, _)› ?_ | split

theorem reloadApply_sound {b} (h : s.Sound) : State.Sound (reloadApply s b) := by
  unfold reloadApply; try dsimp only
  repeat' first
    | with_reducible assumption | with_reducible apply setChz_sound | with_reducible apply reloadWrite_sound
    | with_reducible apply quadStartAt_sound | with_reducible apply Sound.ite
    | with_reducible refine Sound.foldl (fun _ _ _ => ?_) ?_ | with_reducible apply Sound.ite_fst
    | with_reducible refine Sound.foldl_fst (fun _ _ _ => ?_) ?_
    | with_reducible refine Sound.of_fst ‹_ = (_, _)› ?_ | split

theorem ydxLatch_sound {b} (h : s.Sound) : State.Sound (ydxLatch s b) := by
  unfold ydxLatch; try dsimp only
  repeat' first
    | with_reducible assumption | with_reducible apply Sound.ite | with_reducible apply Sound.ite_fst
    | with_reducible refine Sound.of_fst ‹_ = (_, _)› ?_ | fail_if_no_progress with_reducible apply Sound.mk

theorem modelLatch_sound {b} (h : s.Sound) : State.Sound (modelLatch s b) := by
  unfold modelLatch; try dsimp only
  repeat' first
    | with_reducible assumption | with_reducible apply advanceTo_sound | with_reducible apply reloadApply_sound
    | with_reducible apply runFollow_sound | with_reducible apply switchApply_sound
    | with_reducible apply modeApply_sound | with_reducible apply quadLatch_sound
    | with_reducible apply latchModel_sound | with_reducible apply setF_sound
    | with_reducible apply setChz_sound | with_reducible apply ydxLatch_sound | with_reducible apply Sound.ite
    | with_reducible refine Sound.foldl (fun _ _ _ => ?_) ?_ | with_reducible apply Sound.ite_fst
    | with_reducible refine Sound.foldl_fst (fun _ _ _ => ?_) ?_
    | with_reducible refine Sound.of_fst ‹_ = (_, _)› ?_

theorem clampFlag_sound {b c d} (h : s.Sound) : State.Sound (clampFlag s b c d) := by
  unfold clampFlag; try dsimp only
  repeat' first
    | with_reducible assumption | with_reducible apply setPairB_sound | with_reducible apply setChz_sound
    | with_reducible apply Sound.ite

theorem signalSpectrum_sound {b c d e f} (h : s.Sound) : State.Sound (signalSpectrum s b c d e f).1 := by
  unfold signalSpectrum; try dsimp only
  repeat' first
    | with_reducible assumption | with_reducible apply clampFlag_sound | with_reducible apply setChz_sound
    | with_reducible apply setPairB_sound | with_reducible apply Sound.ite | with_reducible apply Sound.ite_fst
    | with_reducible refine Sound.of_fst ‹_ = (_, _)› ?_ | split

theorem frameDone_sound {b c} (h : s.Sound) : State.Sound (frameDone s b c) := by
  unfold frameDone; try dsimp only
  repeat' first
    | with_reducible assumption | with_reducible apply setChz_sound | with_reducible apply setPair_sound
    | with_reducible apply setF_sound | with_reducible refine Sound.foldl (fun _ _ _ => ?_) ?_
    | with_reducible refine Sound.foldl_fst (fun _ _ _ => ?_) ?_
    | with_reducible refine Sound.of_fst ‹_ = (_, _)› ?_

theorem chzSpectrum_sound {b c d} (h : s.Sound) : State.Sound (chzSpectrum s b c d) := by
  unfold chzSpectrum; try dsimp only
  repeat' first
    | with_reducible assumption | with_reducible apply setB_sound | with_reducible apply setChz_sound
    | with_reducible apply bump_sound | with_reducible apply signalSpectrum_sound
    | with_reducible apply frameDone_sound | with_reducible apply Sound.ite
    | with_reducible refine Sound.foldl (fun _ _ _ => ?_) ?_ | with_reducible apply Sound.ite_fst
    | with_reducible refine Sound.foldl_fst (fun _ _ _ => ?_) ?_
    | with_reducible refine Sound.of_fst ‹_ = (_, _)› ?_ | split

theorem busErrorOnce_sound {b c d e f} (h : s.Sound) : State.Sound (busErrorOnce s b c d e f) := by
  unfold busErrorOnce; try dsimp only
  repeat' first
    | with_reducible assumption | with_reducible apply wr_sound | with_reducible apply bump_sound
    | with_reducible apply setPair_sound

theorem busError_sound {b c d e f} (h : s.Sound) : State.Sound (busError s b c d e f) := by
  unfold busError; try dsimp only
  repeat' first
    | with_reducible assumption | with_reducible apply busErrorOnce_sound
    | with_reducible apply requestFails_sound | with_reducible apply fault_sound
    | with_reducible apply Sound.ite | fail_if_no_progress with_reducible apply Sound.mk

theorem writeError_sound {b c d e} (h : s.Sound) : State.Sound (writeError s b c d e) := by
  unfold writeError; try dsimp only
  repeat' first
    | with_reducible assumption | with_reducible apply busError_sound | with_reducible apply emit_sound
    | with_reducible apply Sound.ite

theorem arrayAccess_sound {b c d e} {f : State → State} (h : s.Sound) (hf : ∀ s, State.Sound s → State.Sound (f s)) : State.Sound (arrayAccess s b c d e f) := by
  unfold arrayAccess; try dsimp only
  repeat' first
    | with_reducible assumption | with_reducible apply writeError_sound | with_reducible apply hf
    | with_reducible apply Sound.ite

theorem setXr_sound {b} (h : s.Sound) : State.Sound (setXr s b) := by
  unfold setXr; try dsimp only
  repeat' first
    | with_reducible assumption | fail_if_no_progress with_reducible apply Sound.mk

theorem spanWrite_sound {b c d e f g} (h : s.Sound) : State.Sound (spanWrite s b c d e f g) := by
  unfold spanWrite; try dsimp only
  repeat' first
    | with_reducible assumption | with_reducible apply unitWrite_sound | with_reducible apply Sound.ite
    | with_reducible refine Sound.foldl (fun _ _ _ => ?_) ?_ | split

theorem setSlotState_sound {b c} (h : s.Sound) : State.Sound (setSlotState s b c) := by
  unfold setSlotState; try dsimp only
  repeat' first
    | with_reducible assumption | with_reducible apply setF_sound

theorem slotLeave_sound {b} (h : s.Sound) : State.Sound (slotLeave s b) := by
  unfold slotLeave; try dsimp only
  repeat' first
    | with_reducible assumption | with_reducible apply setXr_sound
    | with_reducible refine Sound.of_fst ‹_ = (_, _)› ?_ | split

theorem chooseSlot_sound {b} (h : s.Sound) : State.Sound (chooseSlot s b) := by
  unfold chooseSlot; try dsimp only
  repeat' first
    | with_reducible assumption | with_reducible apply setXr_sound | with_reducible apply slotLeave_sound
    | with_reducible apply setF_sound | with_reducible apply setSlotState_sound
    | with_reducible apply bump_sound | split

theorem freeSlots_sound  (h : s.Sound) : State.Sound (freeSlots s) := by
  unfold freeSlots; try dsimp only
  repeat' first
    | with_reducible assumption | with_reducible apply setR_sound | with_reducible apply setXr_sound
    | with_reducible refine Sound.foldl (fun _ _ _ => ?_) ?_
    | with_reducible refine Sound.foldl_fst (fun _ _ _ => ?_) ?_
    | with_reducible refine Sound.of_fst ‹_ = (_, _)› ?_

theorem recordLoss_sound {b} (h : s.Sound) : State.Sound (recordLoss s b) := by
  unfold recordLoss; try dsimp only
  repeat' first
    | with_reducible assumption | with_reducible apply setF_sound | with_reducible apply setR_sound
    | with_reducible apply setXr_sound | with_reducible apply setPair_sound | with_reducible apply Sound.ite
    | with_reducible apply Sound.ite_fst | with_reducible refine Sound.of_fst ‹_ = (_, _)› ?_ | split

theorem dropPacket_sound {b c} (h : s.Sound) : State.Sound (dropPacket s b c) := by
  unfold dropPacket; try dsimp only
  repeat' first
    | with_reducible assumption | with_reducible apply setXr_sound | with_reducible apply recordLoss_sound
    | with_reducible apply Sound.ite

theorem enqueue_sound {b c} (h : s.Sound) : State.Sound (enqueue s b c) := by
  unfold enqueue; try dsimp only
  repeat' first
    | with_reducible assumption | with_reducible apply setXr_sound

theorem xchReceive_sound {b c d} {e : State → Nat → Nat → Nat → Nat → Nat → List Byte → State} (h : s.Sound) (he : ∀ s x0 x1 x2 x3 x4 x5, State.Sound s → State.Sound (e s x0 x1 x2 x3 x4 x5)) : State.Sound (xchReceive s b c d e) := by
  unfold xchReceive; try dsimp only
  repeat' first
    | with_reducible assumption | with_reducible apply dropPacket_sound | with_reducible apply bump_sound
    | with_reducible apply setXr_sound | with_reducible apply digestSum_sound
    | with_reducible apply spanWrite_sound | with_reducible apply enqueue_sound | with_reducible apply he
    | with_reducible apply Sound.ite | with_reducible apply Sound.ite_fst
    | with_reducible refine Sound.of_fst ‹_ = (_, _)› ?_ | split

theorem packetsReady_sound {b c d} {e : State → Nat → Nat → Nat → Nat → Nat → List Byte → State} (h : s.Sound) (he : ∀ s x0 x1 x2 x3 x4 x5, State.Sound s → State.Sound (e s x0 x1 x2 x3 x4 x5)) : State.Sound (packetsReady s b c d e) := by
  unfold packetsReady; try dsimp only
  repeat' first
    | with_reducible assumption | with_reducible apply spanWrite_sound | with_reducible apply enqueue_sound
    | with_reducible apply setChz_sound | with_reducible apply he | with_reducible apply Sound.ite
    | with_reducible refine Sound.foldl (fun _ _ _ => ?_) ?_ | with_reducible apply Sound.ite_fst
    | with_reducible refine Sound.foldl_fst (fun _ _ _ => ?_) ?_
    | with_reducible refine Sound.of_fst ‹_ = (_, _)› ?_ | split

theorem sendOnLink_sound {b c d} (h : s.Sound) : State.Sound (sendOnLink s b c d) := by
  unfold sendOnLink; try dsimp only
  repeat' first
    | with_reducible assumption | with_reducible apply sendOn_sound
    | with_reducible refine Sound.foldl (fun _ _ _ => ?_) ?_

theorem queueHead_sound {b} (h : s.Sound) : State.Sound (queueHead s b) := by
  unfold queueHead; try dsimp only
  repeat' first
    | with_reducible assumption | with_reducible apply setXr_sound | with_reducible apply bump_sound
    | with_reducible apply sendOnLink_sound | with_reducible apply Sound.ite | split

theorem exchangeFix_sound {b} (h : s.Sound) : State.Sound (exchangeFix s b) := by
  unfold exchangeFix; try dsimp only
  repeat' first
    | with_reducible assumption | with_reducible apply recordLoss_sound | with_reducible apply bumpBy_sound
    | with_reducible apply fault_sound | with_reducible apply raise_sound | with_reducible apply setR_sound
    | with_reducible apply setPair_sound | with_reducible apply setXr_sound | with_reducible apply Sound.ite
    | with_reducible refine Sound.foldl (fun _ _ _ => ?_) ?_ | with_reducible apply Sound.ite_fst
    | with_reducible refine Sound.foldl_fst (fun _ _ _ => ?_) ?_
    | with_reducible refine Sound.of_fst ‹_ = (_, _)› ?_ | split

theorem setWiden_sound {b} (h : s.Sound) : State.Sound (setWiden s b) := by
  unfold setWiden; try dsimp only
  repeat' first
    | with_reducible assumption | with_reducible apply setXlink_sound | with_reducible apply Sound.ite
    | with_reducible refine Sound.foldl (fun _ _ _ => ?_) ?_

theorem setXrEnable_sound {b} (h : s.Sound) : State.Sound (setXrEnable s b) := by
  unfold setXrEnable; try dsimp only
  repeat' first
    | with_reducible assumption | with_reducible apply setF_sound | with_reducible apply setXr_sound
    | with_reducible apply Sound.ite

theorem setBfm_sound {b} (h : s.Sound) : State.Sound (setBfm s b) := by
  unfold setBfm; try dsimp only
  repeat' first
    | with_reducible assumption | fail_if_no_progress with_reducible apply Sound.mk

theorem setBits256_sound {b c} (h : s.Sound) : State.Sound (setBits256 s b c) := by
  unfold setBits256; try dsimp only
  repeat' first
    | with_reducible assumption | with_reducible apply setR_sound
    | with_reducible refine Sound.foldl (fun _ _ _ => ?_) ?_

theorem weightStore_sound {b c} (h : s.Sound) : State.Sound (weightStore s b c) := by
  unfold weightStore; try dsimp only
  repeat' first
    | with_reducible assumption | with_reducible apply arrSet_sound
    | with_reducible refine Sound.foldl (fun _ _ _ => ?_) ?_
    | with_reducible refine Sound.foldl_fst (fun _ _ _ => ?_) ?_
    | with_reducible refine Sound.of_fst ‹_ = (_, _)› ?_ | split

theorem weightWrite_sound {b c} (h : s.Sound) : State.Sound (weightWrite s b c) := by
  unfold weightWrite; try dsimp only
  repeat' first
    | with_reducible assumption | with_reducible apply bump_sound | with_reducible apply weightStore_sound
    | with_reducible apply Sound.ite

theorem flipArm_sound {b} (h : s.Sound) : State.Sound (flipArm s b) := by
  unfold flipArm; try dsimp only
  repeat' first
    | with_reducible assumption | with_reducible apply writePairHigh_sound | with_reducible apply setF_sound
    | with_reducible apply setBfm_sound | with_reducible apply Sound.ite | with_reducible apply Sound.ite_fst
    | with_reducible refine Sound.of_fst ‹_ = (_, _)› ?_

theorem weightFlip_sound {b} (h : s.Sound) : State.Sound (weightFlip s b) := by
  unfold weightFlip; try dsimp only
  repeat' first
    | with_reducible assumption | with_reducible apply setBits256_sound | with_reducible apply setPair_sound
    | with_reducible apply setF_sound | with_reducible apply setBfm_sound | with_reducible apply Sound.ite
    | with_reducible apply Sound.ite_fst | with_reducible refine Sound.of_fst ‹_ = (_, _)› ?_ | split

theorem beamEnter_sound {b c d e f g} (h : s.Sound) : State.Sound (beamEnter s b c d e f g) := by
  unfold beamEnter; try dsimp only
  repeat' first
    | with_reducible assumption | with_reducible apply bump_sound | with_reducible apply setBfm_sound
    | with_reducible apply Sound.ite | with_reducible refine Sound.foldl (fun _ _ _ => ?_) ?_

theorem beamFlag_sound {b c} (h : s.Sound) : State.Sound (beamFlag s b c) := by
  unfold beamFlag; try dsimp only
  repeat' first
    | with_reducible assumption | with_reducible apply setBfm_sound

theorem beamPointAct_sound {b c} (h : s.Sound) : State.Sound (beamPointAct s b c) := by
  unfold beamPointAct; try dsimp only
  repeat' first
    | with_reducible assumption | with_reducible apply beamFlag_sound | with_reducible apply setBfm_sound
    | with_reducible apply Sound.ite | with_reducible refine Sound.foldl (fun _ _ _ => ?_) ?_
    | with_reducible apply Sound.ite_fst | with_reducible refine Sound.foldl_fst (fun _ _ _ => ?_) ?_
    | with_reducible refine Sound.of_fst ‹_ = (_, _)› ?_

theorem relayReceive_sound {b} (h : s.Sound) : State.Sound (relayReceive s b) := by
  unfold relayReceive; try dsimp only
  repeat' first
    | with_reducible assumption | with_reducible apply bump_sound | with_reducible apply setBfm_sound
    | with_reducible apply Sound.ite | with_reducible apply Sound.ite_fst
    | with_reducible refine Sound.of_fst ‹_ = (_, _)› ?_

theorem relaySend_sound {b c d e} (h : s.Sound) : State.Sound (relaySend s b c d e) := by
  unfold relaySend; try dsimp only
  repeat' first
    | with_reducible assumption | with_reducible apply sendOn_sound | with_reducible apply bump_sound
    | with_reducible apply Sound.ite | with_reducible apply Sound.ite_fst
    | with_reducible refine Sound.of_fst ‹_ = (_, _)› ?_

theorem voltageSend_sound {b c d} (h : s.Sound) : State.Sound (voltageSend s b c d) := by
  unfold voltageSend; try dsimp only
  repeat' first
    | with_reducible assumption | with_reducible apply sendOn_sound | with_reducible apply Sound.ite
    | with_reducible refine Sound.foldl (fun _ _ _ => ?_) ?_ | with_reducible apply Sound.ite_fst
    | with_reducible refine Sound.foldl_fst (fun _ _ _ => ?_) ?_
    | with_reducible refine Sound.of_fst ‹_ = (_, _)› ?_

theorem sendPointAct_sound {b c} (h : s.Sound) : State.Sound (sendPointAct s b c) := by
  unfold sendPointAct; try dsimp only
  repeat' first
    | with_reducible assumption | with_reducible apply beamFlag_sound | with_reducible apply setF_sound
    | with_reducible apply bump_sound | with_reducible apply bumpBy_sound | with_reducible apply setBfm_sound
    | with_reducible apply relaySend_sound | with_reducible apply digestCrc_sound
    | with_reducible apply voltageSend_sound | with_reducible apply Sound.ite
    | with_reducible refine Sound.foldl (fun _ _ _ => ?_) ?_ | with_reducible apply Sound.ite_fst
    | with_reducible refine Sound.foldl_fst (fun _ _ _ => ?_) ?_
    | with_reducible refine Sound.of_fst ‹_ = (_, _)› ?_ | split

theorem stageBeam_sound {b c d} (h : s.Sound) : State.Sound (stageBeam s b c d) := by
  unfold stageBeam; try dsimp only
  repeat' first
    | with_reducible assumption | with_reducible apply fault_sound | with_reducible apply setF_sound
    | with_reducible apply bump_sound | with_reducible apply setR_sound | with_reducible apply unitWrite_sound
    | with_reducible apply brlPendAll_sound | with_reducible apply raise_sound | with_reducible apply Sound.ite

theorem beamComplete_sound {b} (h : s.Sound) : State.Sound (beamComplete s b) := by
  unfold beamComplete; try dsimp only
  repeat' first
    | with_reducible assumption | with_reducible apply bumpBy_sound | with_reducible apply setBfm_sound
    | with_reducible apply beamFlag_sound | with_reducible apply stageBeam_sound
    | with_reducible apply Sound.ite | with_reducible apply Sound.ite_fst
    | with_reducible refine Sound.of_fst ‹_ = (_, _)› ?_ | split

theorem weightAccess_sound {b c d} (h : s.Sound) : State.Sound (weightAccess s b c d) := by
  unfold weightAccess; try dsimp only
  repeat' first
    | with_reducible assumption | with_reducible refine arrayAccess_sound ?_ (fun _ _ => ?_)
    | with_reducible refine mirroredWrite_sound ?_ (fun _ _ => ?_) | with_reducible apply weightWrite_sound

theorem readError_sound {b c d e} (h : s.Sound) : State.Sound (readError s b c d e).1 := by
  unfold readError; try dsimp only
  repeat' first
    | with_reducible assumption | with_reducible apply busError_sound
    | with_reducible refine Sound.of_fst ‹_ = (_, _)› ?_

theorem clearRc_sound {b c} (h : s.Sound) : State.Sound (clearRc s b c) := by
  have k : State.Sound { s with pwr := { s.pwr with tempRead := false } } := ⟨h.1, h.2.1, h.2.2.1, h.2.2.2⟩
  unfold clearRc; dsimp only
  split
  · exact Sound.ite (Sound.ite k h) (wr_sound (Sound.ite k h))
  · exact h

theorem wordRead_sound {b c} (h : s.Sound) : State.Sound (wordRead s b c).1 := by
  unfold wordRead; try dsimp only
  repeat' first
    | with_reducible assumption | with_reducible apply clearRc_sound | with_reducible apply Sound.ite
    | with_reducible apply Sound.ite_fst | with_reducible refine Sound.of_fst ‹_ = (_, _)› ?_
    | fail_if_no_progress with_reducible apply Sound.mk

theorem regRead_sound {b c} (h : s.Sound) : State.Sound (regRead s b c).1 := by
  unfold regRead; try dsimp only
  repeat' first
    | with_reducible assumption | with_reducible apply readError_sound | with_reducible apply wordRead_sound
    | with_reducible apply panicTally_sound | with_reducible apply Sound.ite
    | with_reducible apply Sound.ite_fst | with_reducible refine Sound.of_fst ‹_ = (_, _)› ?_ | split

theorem weightRead_sound {b c} (h : s.Sound) : State.Sound (weightRead s b c).1 := by
  unfold weightRead; try dsimp only
  repeat' first
    | with_reducible assumption | with_reducible apply readError_sound | with_reducible apply Sound.ite
    | with_reducible apply Sound.ite_fst | with_reducible refine Sound.of_fst ‹_ = (_, _)› ?_

theorem weightFetch_sound {b c d} (h : s.Sound) : State.Sound (weightFetch s b c d) := by
  unfold weightFetch; try dsimp only
  repeat' first
    | with_reducible assumption | with_reducible apply emit_sound | with_reducible apply busError_sound
    | with_reducible apply Sound.ite | with_reducible apply Sound.ite_fst
    | with_reducible refine Sound.of_fst ‹_ = (_, _)› ?_ | split

theorem matrixDramRead_sound {b c d} (h : s.Sound) : State.Sound (matrixDramRead s b c d).1 := by
  unfold matrixDramRead; try dsimp only
  repeat' first
    | with_reducible assumption | with_reducible apply busError_sound | with_reducible apply unitFetch_sound
    | with_reducible apply Sound.ite | with_reducible apply Sound.ite_fst
    | with_reducible refine Sound.of_fst ‹_ = (_, _)› ?_ | split

theorem busRead_sound {b c d} (h : s.Sound) : State.Sound (busRead s b c d) := by
  unfold busRead; try dsimp only
  repeat' first
    | with_reducible assumption | with_reducible apply regRead_sound | with_reducible apply emit_sound
    | with_reducible apply Sound.ite | with_reducible apply Sound.ite_fst
    | with_reducible refine Sound.of_fst ‹_ = (_, _)› ?_ | split

theorem setBrl_sound {b c} (h : s.Sound) : State.Sound (setBrl s b c) := by
  unfold setBrl; try dsimp only
  repeat' first
    | with_reducible assumption | fail_if_no_progress with_reducible apply Sound.mk

theorem windowError_sound {b c d} (h : s.Sound) : State.Sound (windowError s b c d) := by
  unfold windowError; try dsimp only
  repeat' first
    | with_reducible assumption | with_reducible apply setF_sound | with_reducible apply setPair_sound
    | with_reducible apply brlPend_sound | with_reducible apply bump_sound

theorem windowRefused_sound {b c d} (h : s.Sound) : State.Sound (windowRefused s b c d) := by
  unfold windowRefused; try dsimp only
  repeat' first
    | with_reducible assumption | with_reducible apply busError_sound | split

theorem windowRead_sound {b c} (h : s.Sound) : State.Sound (windowRead s b c).1 := by
  unfold windowRead; try dsimp only
  repeat' first
    | with_reducible assumption | with_reducible apply regRead_sound | with_reducible apply weightRead_sound
    | with_reducible apply matrixDramRead_sound | with_reducible refine Sound.of_fst ‹_ = (_, _)› ?_ | split

theorem brlAccess_sound {b c d e} (h : s.Sound) : State.Sound (brlAccess s b c d e) := by
  unfold brlAccess; try dsimp only
  repeat' first
    | with_reducible assumption | with_reducible apply setBrl_sound | with_reducible apply arrSet_sound
    | with_reducible apply windowError_sound | with_reducible apply windowRefused_sound
    | with_reducible apply windowRead_sound | with_reducible apply Sound.ite
    | with_reducible apply Sound.ite_fst | with_reducible refine Sound.of_fst ‹_ = (_, _)› ?_ | split

theorem brlFault_sound {b c} (h : s.Sound) : State.Sound (brlFault s b c) := by
  unfold brlFault; try dsimp only
  repeat' first
    | with_reducible assumption | with_reducible apply setF_sound | with_reducible apply setBrl_sound
    | with_reducible apply fault_sound | with_reducible apply raise_sound

theorem brlEffect_sound {b c d} (h : s.Sound) : State.Sound (brlEffect s b c d).1 := by
  unfold brlEffect; try dsimp only
  repeat' first
    | with_reducible assumption | with_reducible apply setBrl_sound | with_reducible apply brlAccess_sound
    | with_reducible apply freeTaken_sound | with_reducible apply setF_sound
    | with_reducible apply brlPend_sound | with_reducible apply raise_sound | with_reducible apply Sound.ite
    | with_reducible refine Sound.foldl (fun _ _ _ => ?_) ?_ | with_reducible apply Sound.ite_fst
    | with_reducible refine Sound.foldl_fst (fun _ _ _ => ?_) ?_
    | with_reducible refine Sound.of_fst ‹_ = (_, _)› ?_ | split

theorem setBrlPc_sound {b c} (h : s.Sound) : State.Sound (setBrlPc s b c) := by
  unfold setBrlPc; try dsimp only
  repeat' first
    | with_reducible assumption | with_reducible apply setF_sound

theorem brlSeq_sound {b} (h : s.Sound) : State.Sound (brlSeq s b) := by
  unfold brlSeq; try dsimp only
  repeat' first
    | with_reducible assumption | with_reducible apply setBrlPc_sound | with_reducible apply setBrl_sound
    | with_reducible apply Sound.ite | split

theorem brlJump_sound {b c} (h : s.Sound) : State.Sound (brlJump s b c) := by
  unfold brlJump; try dsimp only
  repeat' first
    | with_reducible assumption | with_reducible apply setBrlPc_sound | with_reducible apply setBrl_sound

theorem brlSettle_sound {b} (h : s.Sound) : State.Sound (brlSettle s b) := by
  unfold brlSettle; try dsimp only
  repeat' first
    | with_reducible assumption | with_reducible apply setBrl_sound | with_reducible apply setF_sound
    | with_reducible apply Sound.ite

theorem brlWaitCheck_sound {b} (h : s.Sound) : State.Sound (brlWaitCheck s b) := by
  unfold brlWaitCheck; try dsimp only
  repeat' first
    | with_reducible assumption | with_reducible apply brlWake_sound | with_reducible apply setBrl_sound
    | with_reducible apply setF_sound | with_reducible apply Sound.ite

theorem brlCycles_sound {b c} (h : s.Sound) : State.Sound (brlCycles s b c) := by
  unfold brlCycles; try dsimp only
  repeat' first
    | with_reducible assumption | with_reducible apply setPair_sound

theorem brlAdvance_sound {b c} (h : s.Sound) : State.Sound (brlAdvance s b c) := by
  unfold brlAdvance; try dsimp only
  repeat' first
    | with_reducible assumption | with_reducible apply setBrl_sound | with_reducible apply brlCycles_sound
    | with_reducible apply setBrlPc_sound | with_reducible apply brlJump_sound
    | with_reducible apply brlSeq_sound | with_reducible apply brlSettle_sound
    | with_reducible apply brlWaitCheck_sound | with_reducible apply Sound.ite | split

theorem ldcStall_sound {b c} (h : s.Sound) : State.Sound (ldcStall s b c) := by
  unfold ldcStall; try dsimp only
  repeat' first
    | with_reducible assumption | with_reducible apply brlCycles_sound | with_reducible apply bump_sound
    | with_reducible apply Sound.ite | split

theorem brlExecute_sound {b c d} (h : s.Sound) : State.Sound (brlExecute s b c d) := by
  unfold brlExecute; try dsimp only
  repeat' first
    | with_reducible assumption | with_reducible apply brlFault_sound | with_reducible apply brlCycles_sound
    | with_reducible apply bump_sound | with_reducible apply brlEffect_sound
    | with_reducible apply ldcStall_sound | with_reducible apply brlAdvance_sound
    | with_reducible apply Sound.ite | with_reducible apply Sound.ite_fst
    | with_reducible refine Sound.of_fst ‹_ = (_, _)› ?_ | split

theorem brlIssue_sound {b c} (h : s.Sound) : State.Sound (brlIssue s b c) := by
  unfold brlIssue; try dsimp only
  repeat' first
    | with_reducible assumption | with_reducible apply brlExecute_sound | with_reducible apply Sound.ite

theorem interruptTake_sound {b} (h : s.Sound) : State.Sound (interruptTake s b) := by
  unfold interruptTake; try dsimp only
  repeat' first
    | with_reducible assumption | with_reducible apply brlFault_sound | with_reducible apply setBrl_sound
    | with_reducible apply setB_sound | with_reducible apply setBrlPc_sound | with_reducible apply setF_sound
    | with_reducible apply Sound.ite | split

theorem brlRun_sound {b c} (h : s.Sound) : State.Sound (brlRun s b c) := by
  unfold brlRun; try dsimp only
  repeat' first
    | with_reducible assumption | with_reducible apply setF_sound | with_reducible apply setBrlPc_sound
    | with_reducible apply brlWaitCheck_sound | with_reducible apply brlSettle_sound
    | with_reducible apply Sound.ite

theorem coreReset_sound {b} (h : s.Sound) : State.Sound (coreReset s b) := by
  unfold coreReset; try dsimp only
  repeat' first
    | with_reducible assumption | with_reducible apply setR_sound | with_reducible apply setF_sound
    | with_reducible apply bump_sound | with_reducible apply setPair_sound
    | with_reducible refine Sound.of_fst ‹_ = (_, _)› ?_ | fail_if_no_progress with_reducible apply Sound.mk

theorem stepOn_sound {a c} (h : s.Sound) : State.Sound (stepOn a s c) := by
  induction a generalizing s with
  | zero => exact h
  | succ a ih =>
    unfold stepOn; dsimp only
    split
    · split
      · exact brlFault_sound h
      · split
        · exact brlExecute_sound h
        · exact ih (brlExecute_sound h)
    · exact h

theorem brlStep_sound {b} (h : s.Sound) : State.Sound (brlStep s b) := by
  unfold brlStep; try dsimp only
  repeat' first
    | with_reducible assumption | with_reducible apply setBrl_sound | with_reducible apply setF_sound
    | with_reducible apply brlFault_sound | with_reducible apply stepOn_sound
    | with_reducible apply brlExecute_sound | with_reducible apply Sound.ite | split

theorem mboxInWrite_sound {b c} (h : s.Sound) : State.Sound (mboxInWrite s b c) := by
  unfold mboxInWrite; try dsimp only
  repeat' first
    | with_reducible assumption | with_reducible apply wr_sound | with_reducible apply brlPend_sound
    | with_reducible apply Sound.ite

theorem irqPendWrite_sound {b c} (h : s.Sound) : State.Sound (irqPendWrite s b c) := by
  unfold irqPendWrite; try dsimp only
  repeat' first
    | with_reducible assumption | with_reducible apply brlPend_sound
    | with_reducible refine Sound.foldl (fun _ _ _ => ?_) ?_

theorem cMemWrite_sound {b c d e} (h : s.Sound) : State.Sound (cMemWrite s b c d e) := by
  unfold cMemWrite; try dsimp only
  repeat' first
    | with_reducible assumption | with_reducible refine arrayAccess_sound ?_ (fun _ _ => ?_)
    | with_reducible apply arrSet_sound | with_reducible apply setF_sound | with_reducible apply Sound.ite

theorem setTrg_sound {b} (h : s.Sound) : State.Sound (setTrg s b) := by
  unfold setTrg; try dsimp only
  repeat' first
    | with_reducible assumption | fail_if_no_progress with_reducible apply Sound.mk

theorem trgWrite_sound {b c} (h : s.Sound) : State.Sound (trgWrite s b c) := by
  unfold trgWrite; try dsimp only
  repeat' first
    | with_reducible assumption | with_reducible apply setTrg_sound | with_reducible apply wr_sound
    | with_reducible apply Sound.ite

theorem rawShow_sound  (h : s.Sound) : State.Sound (rawShow s) := by
  unfold rawShow; try dsimp only
  repeat' first
    | with_reducible assumption | with_reducible apply setF_sound
    | with_reducible refine Sound.foldl (fun _ _ _ => ?_) ?_

theorem claimBlock_sound {b c} (h : s.Sound) : ∀ t, claimBlock s b c = .done t → t.Sound := by
  unfold claimBlock; dsimp only
  intro t
  repeat' split
  all_goals intro e
  all_goals first
    | contradiction
    | (injection e with e; subst e; repeat' first | with_reducible assumption | with_reducible apply setF_sound | with_reducible apply setTrg_sound | with_reducible apply Sound.ite)

theorem claimBlocks_sound {b c} (h : s.Sound) : State.Sound (claimBlocks s b c) := by
  induction c generalizing s with
  | nil => exact h
  | cons c l ih =>
    unfold claimBlocks
    split
    · rename_i e; exact ih (claimBlock_sound h _ e)
    · exact ih (setF_sound h)
    · exact setF_sound h

theorem captureCheck_sound {b} (h : s.Sound) : State.Sound (captureCheck s b) := by
  unfold captureCheck; try dsimp only
  repeat' first
    | with_reducible assumption | with_reducible apply brlPendAll_sound | with_reducible apply raise_sound
    | with_reducible apply setF_sound | with_reducible apply Sound.ite

theorem captureChecks_sound  (h : s.Sound) : State.Sound (captureChecks s) := by
  unfold captureChecks; try dsimp only
  repeat' first
    | with_reducible assumption | with_reducible apply captureCheck_sound | with_reducible apply rawShow_sound
    | with_reducible refine Sound.foldl (fun _ _ _ => ?_) ?_

theorem setCaptureRange_sound {b c} (h : s.Sound) : State.Sound (setCaptureRange s b c) := by
  unfold setCaptureRange; try dsimp only
  repeat' first
    | with_reducible assumption | with_reducible apply setR_sound
    | with_reducible refine Sound.of_fst ‹_ = (_, _)› ?_

theorem freeze_sound {b} (h : s.Sound) : State.Sound (freeze s b).1 := by
  unfold freeze
  extract_lets lo hi a b refused
  split
  · exact setF_sound (bump_sound h)
  · split
    · exact captureChecks_sound (claimBlocks_sound (bumpF_sound (setCaptureRange_sound h)))
    · split
      · exact captureChecks_sound (claimBlocks_sound (setCaptureRange_sound (setTrg_sound (setF_sound (setF_sound (setR_sound h))))))
      · exact setF_sound (bump_sound h)

theorem holdEnd_sound {b} (h : s.Sound) : State.Sound (holdEnd s b) := by
  unfold holdEnd; try dsimp only
  repeat' first
    | with_reducible assumption | with_reducible apply setTrg_sound | with_reducible apply setF_sound

theorem segRelease_sound {b} (h : s.Sound) : State.Sound (segRelease s b) := by
  unfold segRelease; try dsimp only
  repeat' first
    | with_reducible assumption | with_reducible apply setF_sound | with_reducible apply setTrg_sound
    | with_reducible apply Sound.ite

theorem captureRelease_sound {b} (h : s.Sound) : State.Sound (captureRelease s b) := by
  unfold captureRelease; try dsimp only
  repeat' first
    | with_reducible assumption | with_reducible apply segRelease_sound | with_reducible apply setF_sound
    | with_reducible apply setTrg_sound | with_reducible apply holdEnd_sound | with_reducible apply raise_sound
    | with_reducible apply rawShow_sound | with_reducible apply Sound.ite
    | with_reducible refine Sound.foldl (fun _ _ _ => ?_) ?_ | with_reducible apply Sound.ite_fst
    | with_reducible refine Sound.foldl_fst (fun _ _ _ => ?_) ?_
    | with_reducible refine Sound.of_fst ‹_ = (_, _)› ?_

theorem holdSlot_sound {b c} (h : s.Sound) : State.Sound (holdSlot s b c).1 := by
  unfold holdSlot; try dsimp only
  repeat' first
    | with_reducible assumption | with_reducible apply setF_sound | with_reducible apply bump_sound
    | with_reducible apply setTrg_sound | with_reducible apply Sound.ite | with_reducible apply Sound.ite_fst
    | with_reducible refine Sound.of_fst ‹_ = (_, _)› ?_ | split

theorem signpostSend_sound {b} (h : s.Sound) : State.Sound (signpostSend s b).1 := by
  unfold signpostSend; try dsimp only
  repeat' first
    | with_reducible assumption | with_reducible apply setF_sound | with_reducible apply bump_sound
    | with_reducible apply sendOnLink_sound | with_reducible apply setTrg_sound
    | with_reducible apply Sound.ite | with_reducible refine Sound.foldl (fun _ _ _ => ?_) ?_
    | with_reducible apply Sound.ite_fst | with_reducible refine Sound.foldl_fst (fun _ _ _ => ?_) ?_
    | with_reducible refine Sound.of_fst ‹_ = (_, _)› ?_

theorem recordWrite_sound {b c d e} (h : s.Sound) : State.Sound (recordWrite s b c d e) := by
  unfold recordWrite; try dsimp only
  repeat' first
    | with_reducible assumption | with_reducible apply setTrg_sound | with_reducible apply digestSum_sound
    | with_reducible apply fault_sound | with_reducible apply setF_sound | with_reducible apply bump_sound
    | with_reducible apply unitWrite_sound | with_reducible apply brlPendAll_sound
    | with_reducible apply setR_sound | with_reducible apply Sound.ite

theorem fireTrigger_sound {b} (h : s.Sound) : State.Sound (fireTrigger s b) := by
  unfold fireTrigger; try dsimp only
  repeat' first
    | with_reducible assumption | with_reducible apply freeze_sound | with_reducible apply holdSlot_sound
    | with_reducible apply signpostSend_sound | with_reducible apply recordWrite_sound
    | with_reducible apply raise_sound | with_reducible apply Sound.ite | with_reducible apply Sound.ite_fst
    | with_reducible refine Sound.of_fst ‹_ = (_, _)› ?_ | split

theorem signpostReceive_sound {b c} (h : s.Sound) : State.Sound (signpostReceive s b c) := by
  unfold signpostReceive; try dsimp only
  repeat' first
    | with_reducible assumption | with_reducible apply bump_sound | with_reducible apply setTrg_sound
    | with_reducible apply sendOnLink_sound | with_reducible apply fireTrigger_sound
    | with_reducible apply Sound.ite | with_reducible refine Sound.foldl (fun _ _ _ => ?_) ?_
    | with_reducible apply Sound.ite_fst | with_reducible refine Sound.foldl_fst (fun _ _ _ => ?_) ?_
    | with_reducible refine Sound.of_fst ‹_ = (_, _)› ?_

theorem retractRecord_sound {b c} (h : s.Sound) : State.Sound (retractRecord s b c) := by
  unfold retractRecord; try dsimp only
  repeat' first
    | with_reducible assumption | with_reducible apply recordWrite_sound | with_reducible apply bump_sound

theorem groupFire_sound {b c d e} (h : s.Sound) : State.Sound (groupFire s b c d e) := by
  unfold groupFire; try dsimp only
  repeat' first
    | with_reducible assumption | with_reducible apply freeTaken_sound | with_reducible apply setTrg_sound
    | with_reducible apply raise_sound | with_reducible apply bump_sound
    | with_reducible apply fireTrigger_sound | with_reducible apply retractRecord_sound
    | with_reducible apply Sound.ite | with_reducible refine Sound.foldl (fun _ _ _ => ?_) ?_
    | with_reducible apply Sound.ite_fst | with_reducible refine Sound.foldl_fst (fun _ _ _ => ?_) ?_
    | with_reducible refine Sound.of_fst ‹_ = (_, _)› ?_ | split

theorem groupAt_sound {b c} (h : s.Sound) : State.Sound (groupAt s b c) := by
  unfold groupAt; try dsimp only
  repeat' first
    | with_reducible assumption | with_reducible apply setTrg_sound | with_reducible apply groupFire_sound
    | with_reducible apply Sound.ite

theorem horizonAdvance_sound {b} (h : s.Sound) : State.Sound (horizonAdvance s b) := by
  unfold horizonAdvance; try dsimp only
  repeat' first
    | with_reducible assumption | with_reducible apply setTrg_sound | with_reducible apply groupAt_sound
    | with_reducible refine Sound.foldl (fun _ _ _ => ?_) ?_

theorem hitToGroups_sound {b} (h : s.Sound) : State.Sound (hitToGroups s b) := by
  unfold hitToGroups; try dsimp only
  repeat' first
    | with_reducible assumption | with_reducible apply bump_sound | with_reducible apply setTrg_sound
    | with_reducible apply Sound.ite | with_reducible refine Sound.foldl (fun _ _ _ => ?_) ?_

theorem seedImpulse_sound {b c} (h : s.Sound) : State.Sound (seedImpulse s b c) := by
  unfold seedImpulse; try dsimp only
  repeat' first
    | with_reducible assumption | with_reducible apply Sound.ite | with_reducible apply Sound.ite_fst
    | with_reducible refine Sound.of_fst ‹_ = (_, _)› ?_ | fail_if_no_progress with_reducible apply Sound.mk

theorem seedBeams_sound {b} (h : s.Sound) : State.Sound (seedBeams s b) := by
  unfold seedBeams; try dsimp only
  repeat' first
    | with_reducible assumption | with_reducible apply Sound.ite
    | fail_if_no_progress with_reducible apply Sound.mk

theorem tapSignal_sound {b c d} (h : s.Sound) : State.Sound (tapSignal s b c d) := by
  unfold tapSignal; try dsimp only
  repeat' first
    | with_reducible assumption | with_reducible apply seedImpulse_sound | with_reducible apply setTrg_sound
    | with_reducible apply setF_sound | with_reducible apply setR_sound
    | with_reducible apply hitToGroups_sound | with_reducible apply bump_sound | with_reducible apply Sound.ite
    | with_reducible refine Sound.foldl (fun _ _ _ => ?_) ?_ | with_reducible apply Sound.ite_fst
    | with_reducible refine Sound.foldl_fst (fun _ _ _ => ?_) ?_
    | with_reducible refine Sound.of_fst ‹_ = (_, _)› ?_ | split

theorem impulseTap_sound {b c} (h : s.Sound) : State.Sound (impulseTap s b c) := by
  unfold impulseTap; try dsimp only
  repeat' first
    | with_reducible assumption | with_reducible apply horizonAdvance_sound
    | with_reducible apply tapSignal_sound | with_reducible apply Sound.ite
    | with_reducible refine Sound.foldl (fun _ _ _ => ?_) ?_

theorem retract_sound {b c} (h : s.Sound) : State.Sound (retract s b c) := by
  unfold retract; try dsimp only
  repeat' first
    | with_reducible assumption | with_reducible apply retractRecord_sound | with_reducible apply setTrg_sound
    | with_reducible refine Sound.foldl (fun _ _ _ => ?_) ?_
    | with_reducible refine Sound.foldl_fst (fun _ _ _ => ?_) ?_
    | with_reducible refine Sound.of_fst ‹_ = (_, _)› ?_

theorem beamFire_sound {b c d} (h : s.Sound) : State.Sound (beamFire s b c d) := by
  unfold beamFire; try dsimp only
  repeat' first
    | with_reducible assumption | with_reducible apply fireTrigger_sound | with_reducible apply bump_sound

theorem beamSearchAt_sound {b c d} (h : s.Sound) : State.Sound (beamSearchAt s b c d) := by
  unfold beamSearchAt; try dsimp only
  repeat' first
    | with_reducible assumption | with_reducible apply seedBeams_sound | with_reducible apply setTrg_sound
    | with_reducible apply beamFire_sound | with_reducible apply Sound.ite
    | with_reducible refine Sound.foldl (fun _ _ _ => ?_) ?_ | with_reducible apply Sound.ite_fst
    | with_reducible refine Sound.foldl_fst (fun _ _ _ => ?_) ?_
    | with_reducible refine Sound.of_fst ‹_ = (_, _)› ?_ | fail_if_no_progress with_reducible apply Sound.mk
    | split

theorem segmentStart_sound {b} (h : s.Sound) : State.Sound (segmentStart s b) := by
  unfold segmentStart; try dsimp only
  repeat' first
    | with_reducible assumption | with_reducible apply setTrg_sound | with_reducible apply setR_sound
    | with_reducible apply setF_sound | with_reducible apply Sound.ite | split

theorem segmentDone_sound {b} (h : s.Sound) : State.Sound (segmentDone s b) := by
  unfold segmentDone; try dsimp only
  repeat' first
    | with_reducible assumption | with_reducible apply setF_sound | with_reducible apply captureChecks_sound
    | with_reducible apply Sound.ite

theorem rawGap_sound {b c} (h : s.Sound) : State.Sound (rawGap s b c) := by
  unfold rawGap; try dsimp only
  repeat' first
    | with_reducible assumption | with_reducible apply setF_sound | with_reducible apply bump_sound
    | with_reducible apply rawShow_sound

theorem rawStore_sound {b c d} (h : s.Sound) : State.Sound (rawStore s b c d) := by
  unfold rawStore; try dsimp only
  repeat' first
    | with_reducible assumption | with_reducible apply unitWrite_sound | with_reducible apply Sound.ite
    | with_reducible refine Sound.foldl (fun _ _ _ => ?_) ?_

theorem rawWrite_sound {b} (h : s.Sound) : State.Sound (rawWrite s b) := by
  unfold rawWrite; try dsimp only
  repeat' first
    | with_reducible assumption | with_reducible apply rawStore_sound | with_reducible apply rawGap_sound
    | with_reducible apply guardReport_sound | with_reducible apply Sound.ite | split

theorem rawEnd_sound {b} (h : s.Sound) : State.Sound (rawEnd s b) := by
  unfold rawEnd; try dsimp only
  repeat' first
    | with_reducible assumption | with_reducible apply setTrg_sound | with_reducible apply segmentDone_sound
    | with_reducible apply Sound.ite | split

theorem rawCommit_sound {b} (h : s.Sound) : State.Sound (rawCommit s b) := by
  unfold rawCommit; try dsimp only
  repeat' first
    | with_reducible assumption | with_reducible apply rawEnd_sound | with_reducible apply rawWrite_sound
    | with_reducible refine Sound.foldl (fun _ _ _ => ?_) ?_

theorem rawQueue_sound {b c} (h : s.Sound) : State.Sound (rawQueue s b c) := by
  unfold rawQueue; try dsimp only
  repeat' first
    | with_reducible assumption | with_reducible apply setTrg_sound | with_reducible apply setPair_sound
    | split

theorem clearStatistics_sound  (h : s.Sound) : State.Sound (clearStatistics s) := by
  unfold clearStatistics; try dsimp only
  repeat' first
    | with_reducible assumption | with_reducible apply setF_sound | with_reducible apply setR_sound
    | with_reducible apply setTrg_sound | with_reducible refine Sound.foldl (fun _ _ _ => ?_) ?_
    | with_reducible refine Sound.foldl_fst (fun _ _ _ => ?_) ?_
    | with_reducible refine Sound.of_fst ‹_ = (_, _)› ?_

theorem setTrgEnable_sound {b} (h : s.Sound) : State.Sound (setTrgEnable s b) := by
  unfold setTrgEnable; try dsimp only
  repeat' first
    | with_reducible assumption | with_reducible apply setF_sound | with_reducible apply clearStatistics_sound
    | with_reducible apply setR_sound | with_reducible apply setTrg_sound | with_reducible apply Sound.ite
    | with_reducible refine Sound.foldl (fun _ _ _ => ?_) ?_ | with_reducible apply Sound.ite_fst
    | with_reducible refine Sound.foldl_fst (fun _ _ _ => ?_) ?_
    | with_reducible refine Sound.of_fst ‹_ = (_, _)› ?_

theorem unclaimFrom_sound {b} (h : s.Sound) : State.Sound (unclaimFrom s b) := by
  unfold unclaimFrom; try dsimp only
  repeat' first
    | with_reducible assumption | with_reducible apply setF_sound | with_reducible apply setTrg_sound
    | with_reducible apply captureChecks_sound | with_reducible apply Sound.ite
    | with_reducible refine Sound.foldl (fun _ _ _ => ?_) ?_ | with_reducible apply Sound.ite_fst
    | with_reducible refine Sound.foldl_fst (fun _ _ _ => ?_) ?_
    | with_reducible refine Sound.of_fst ‹_ = (_, _)› ?_

theorem trgLost_sound (h : s.Sound) : State.Sound (trgLost s) := by
  unfold trgLost
  extract_lets s1 s2 s3
  have h1 : s1.Sound := Sound.foldl (fun _ _ h => Sound.ite (holdEnd_sound h) h) h
  have h2 : s2.Sound := Sound.foldl (fun _ _ h => setR_sound h) h1
  clear_value s2
  have h3 : s3.Sound := Sound.dropRegs h2 rfl ⟨_, by with_reducible rfl⟩ rfl rfl rfl
  clear_value s3
  with_reducible refine rawShow_sound ?_
  exact h3

theorem injectWrite_sound {b} (h : s.Sound) : State.Sound (injectWrite s b) := by
  unfold injectWrite; try dsimp only
  repeat' first
    | with_reducible assumption | with_reducible apply fireTrigger_sound | with_reducible apply Sound.ite

theorem captureReleases_sound {b} (h : s.Sound) : State.Sound (captureReleases s b) := by
  unfold captureReleases; try dsimp only
  repeat' first
    | with_reducible assumption | with_reducible apply captureRelease_sound | with_reducible apply Sound.ite
    | with_reducible refine Sound.foldl (fun _ _ _ => ?_) ?_

theorem holdReleases_sound {b} (h : s.Sound) : State.Sound (holdReleases s b) := by
  unfold holdReleases; try dsimp only
  repeat' first
    | with_reducible assumption | with_reducible apply holdEnd_sound | with_reducible apply Sound.ite
    | with_reducible refine Sound.foldl (fun _ _ _ => ?_) ?_

theorem setRing_sound {b c} (h : s.Sound) : State.Sound (setRing s b c) := by
  unfold setRing; try dsimp only
  repeat' first
    | with_reducible assumption | fail_if_no_progress with_reducible apply Sound.mk

theorem setRingState_sound {b c} (h : s.Sound) : State.Sound (setRingState s b c) := by
  unfold setRingState; try dsimp only
  repeat' first
    | with_reducible assumption | with_reducible apply setF_sound

theorem descGuard_sound {b} (h : s.Sound) : State.Sound (descGuard s b) := by
  unfold descGuard; try dsimp only
  repeat' first
    | with_reducible assumption | with_reducible apply guardReport_sound | with_reducible apply Sound.ite
    | split

theorem setEngine_sound {b} (h : s.Sound) : State.Sound (setEngine s b) := by
  unfold setEngine; try dsimp only
  repeat' first
    | with_reducible assumption | with_reducible apply setF_sound | with_reducible apply Sound.ite
    | with_reducible apply Sound.ite_fst | with_reducible refine Sound.of_fst ‹_ = (_, _)› ?_ | split

theorem compressorIdle_sound  (h : s.Sound) : State.Sound (compressorIdle s) := by
  unfold compressorIdle; try dsimp only
  repeat' first
    | with_reducible assumption | with_reducible apply setF_sound | with_reducible apply Sound.ite
    | with_reducible apply Sound.ite_fst | with_reducible refine Sound.of_fst ‹_ = (_, _)› ?_
    | fail_if_no_progress with_reducible apply Sound.mk

theorem flushPerRun_sound  (h : s.Sound) : State.Sound (flushPerRun s) := by
  unfold flushPerRun; try dsimp only
  repeat' first
    | with_reducible assumption | with_reducible apply setF_sound | with_reducible apply Sound.ite
    | fail_if_no_progress with_reducible apply Sound.mk

theorem captureReadEnd_sound {b c d} (h : s.Sound) : State.Sound (captureReadEnd s b c d) := by
  unfold captureReadEnd; try dsimp only
  repeat' first
    | with_reducible assumption | with_reducible apply notice_sound
    | with_reducible refine Sound.of_fst ‹_ = (_, _)› ?_ | fail_if_no_progress with_reducible apply Sound.mk
    | split

theorem ringHalt_sound {b c} (h : s.Sound) : State.Sound (ringHalt s b c) := by
  unfold ringHalt; try dsimp only
  repeat' first
    | with_reducible assumption | with_reducible apply setR_sound | with_reducible apply setEngine_sound
    | with_reducible apply setRing_sound | with_reducible apply compressorIdle_sound
    | with_reducible apply bump_sound | with_reducible apply setF_sound
    | with_reducible apply setRingState_sound | with_reducible apply captureReadEnd_sound
    | with_reducible apply Sound.ite | with_reducible apply Sound.ite_fst
    | with_reducible refine Sound.of_fst ‹_ = (_, _)› ?_ | fail_if_no_progress with_reducible apply Sound.mk
    | split

theorem dmaStopReport_sound  (h : s.Sound) : State.Sound (dmaStopReport s) := by
  unfold dmaStopReport; try dsimp only
  repeat' first
    | with_reducible assumption | with_reducible apply fault_sound | with_reducible apply raise_sound
    | with_reducible apply msix_sound

theorem ringStop_sound {b c d} (h : s.Sound) : State.Sound (ringStop s b c d) := by
  unfold ringStop; try dsimp only
  repeat' first
    | with_reducible assumption | with_reducible apply ringHalt_sound | with_reducible apply setF_sound
    | with_reducible apply dmaStopReport_sound | split

theorem fetchNext_sound {b} (h : s.Sound) : State.Sound (fetchNext s b) := by
  unfold fetchNext; try dsimp only
  repeat' first
    | with_reducible assumption | with_reducible apply emit_sound | with_reducible apply setRing_sound
    | with_reducible apply Sound.ite

theorem startFetch_sound {b} (h : s.Sound) : State.Sound (startFetch s b) := by
  unfold startFetch; try dsimp only
  repeat' first
    | with_reducible assumption | with_reducible apply fetchNext_sound
    | with_reducible apply setRingState_sound

theorem refetchCtrl_sound {b} (h : s.Sound) : State.Sound (refetchCtrl s b) := by
  unfold refetchCtrl; try dsimp only
  repeat' first
    | with_reducible assumption | with_reducible apply emit_sound | with_reducible apply setRing_sound

theorem doorbell_sound {b} (h : s.Sound) : State.Sound (doorbell s b) := by
  unfold doorbell; try dsimp only
  repeat' first
    | with_reducible assumption | with_reducible apply refetchCtrl_sound
    | with_reducible apply startFetch_sound | with_reducible apply setRing_sound
    | with_reducible apply bump_sound | with_reducible apply Sound.ite

theorem compressorTake_sound {b} (h : s.Sound) : State.Sound (compressorTake s b) := by
  unfold compressorTake; try dsimp only
  repeat' first
    | with_reducible assumption | with_reducible apply setF_sound | with_reducible apply Sound.ite
    | with_reducible apply Sound.ite_fst | with_reducible refine Sound.of_fst ‹_ = (_, _)› ?_
    | fail_if_no_progress with_reducible apply Sound.mk

theorem descBegin_sound {b} (h : s.Sound) : State.Sound (descBegin s b) := by
  unfold descBegin; try dsimp only
  repeat' first
    | with_reducible assumption | with_reducible apply ringStop_sound | with_reducible apply descGuard_sound
    | with_reducible apply setEngine_sound | with_reducible apply setRing_sound
    | with_reducible apply served_sound | with_reducible apply compressorTake_sound
    | with_reducible apply Sound.ite | with_reducible refine Sound.foldl (fun _ _ _ => ?_) ?_
    | with_reducible apply Sound.ite_fst | with_reducible refine Sound.foldl_fst (fun _ _ _ => ?_) ?_
    | with_reducible refine Sound.of_fst ‹_ = (_, _)› ?_ | fail_if_no_progress with_reducible apply Sound.mk
    | split

theorem descFetched_sound {b c} (h : s.Sound) : State.Sound (descFetched s b c) := by
  unfold descFetched; try dsimp only
  repeat' first
    | with_reducible assumption | with_reducible apply setR_sound | with_reducible apply setRing_sound
    | with_reducible apply descBegin_sound | with_reducible apply fetchNext_sound
    | with_reducible apply Sound.ite

theorem ringWrote_sound {b c} (h : s.Sound) : State.Sound (ringWrote s b c) := by
  unfold ringWrote; try dsimp only
  repeat' first
    | with_reducible assumption | with_reducible apply setRing_sound

theorem barrierRead_sound {b} (h : s.Sound) : State.Sound (barrierRead s b) := by
  unfold barrierRead; try dsimp only
  repeat' first
    | with_reducible assumption | with_reducible apply emit_sound | with_reducible apply setRing_sound | split

theorem descPoison_sound {b c} (h : s.Sound) : State.Sound (descPoison s b c) := by
  unfold descPoison; try dsimp only
  repeat' first
    | with_reducible assumption | with_reducible apply bumpBy_sound | with_reducible apply setF_sound
    | with_reducible apply Sound.ite

theorem tailOpened_sound {b} (h : s.Sound) : State.Sound (tailOpened s b) := by
  unfold tailOpened; try dsimp only
  repeat' first
    | with_reducible assumption | with_reducible apply emit_sound | with_reducible apply Sound.ite
    | with_reducible apply Sound.ite_fst | with_reducible refine Sound.of_fst ‹_ = (_, _)› ?_

theorem captureAppend_sound {b c} (h : s.Sound) : State.Sound (captureAppend s b c) := by
  unfold captureAppend; try dsimp only
  repeat' first
    | with_reducible assumption | with_reducible apply emit_sound | with_reducible apply doorbell_sound
    | with_reducible apply tailOpened_sound | with_reducible apply Sound.ite
    | with_reducible refine Sound.foldl (fun _ _ _ => ?_) ?_ | with_reducible apply Sound.ite_fst
    | with_reducible refine Sound.foldl_fst (fun _ _ _ => ?_) ?_
    | with_reducible refine Sound.of_fst ‹_ = (_, _)› ?_ | fail_if_no_progress with_reducible apply Sound.mk
    | split

theorem captureMore_sound {b} (h : s.Sound) : State.Sound (captureMore s b) := by
  unfold captureMore; try dsimp only
  repeat' first
    | with_reducible assumption | with_reducible apply captureAppend_sound | with_reducible apply Sound.ite
    | with_reducible apply Sound.ite_fst | with_reducible refine Sound.of_fst ‹_ = (_, _)› ?_
    | fail_if_no_progress with_reducible apply Sound.mk | split

theorem descDone_sound {b c d e} (h : s.Sound) : State.Sound (descDone s b c d e) := by
  unfold descDone; try dsimp only
  repeat' first
    | with_reducible assumption | with_reducible apply barrierRead_sound
    | with_reducible apply descPoison_sound | with_reducible apply emit_sound
    | with_reducible apply ringWrote_sound | with_reducible apply raise_sound | with_reducible apply msix_sound
    | with_reducible apply setR_sound | with_reducible apply setEngine_sound
    | with_reducible apply setRing_sound | with_reducible apply captureReadEnd_sound
    | with_reducible apply setF_sound | with_reducible apply captureMore_sound
    | with_reducible apply refetchCtrl_sound | with_reducible apply setRingState_sound
    | with_reducible apply descBegin_sound | with_reducible apply fetchNext_sound
    | with_reducible apply Sound.ite | with_reducible apply Sound.ite_fst
    | with_reducible refine Sound.of_fst ‹_ = (_, _)› ?_

theorem ctrlRefetched_sound {b c} (h : s.Sound) : State.Sound (ctrlRefetched s b c) := by
  unfold ctrlRefetched; try dsimp only
  repeat' first
    | with_reducible assumption | with_reducible apply setRing_sound | with_reducible apply bump_sound
    | with_reducible apply setRingState_sound | with_reducible apply startFetch_sound
    | with_reducible apply Sound.ite

theorem fetchError_sound {b} (h : s.Sound) : State.Sound (fetchError s b) := by
  unfold fetchError; try dsimp only
  repeat' first
    | with_reducible assumption | with_reducible apply ringHalt_sound | with_reducible apply setPair_sound
    | with_reducible apply bump_sound | with_reducible apply dmaStopReport_sound
    | with_reducible apply setF_sound | with_reducible apply Sound.ite
    | with_reducible refine Sound.foldl (fun _ _ _ => ?_) ?_

theorem fetchResume_sound  (h : s.Sound) : State.Sound (fetchResume s) := by
  unfold fetchResume; try dsimp only
  repeat' first
    | with_reducible assumption | with_reducible apply fetchNext_sound | with_reducible apply Sound.ite
    | with_reducible refine Sound.foldl (fun _ _ _ => ?_) ?_ | with_reducible apply Sound.ite_fst
    | with_reducible refine Sound.foldl_fst (fun _ _ _ => ?_) ?_
    | with_reducible refine Sound.of_fst ‹_ = (_, _)› ?_

theorem ringCtrlWrite_sound {b c} (h : s.Sound) : State.Sound (ringCtrlWrite s b c) := by
  unfold ringCtrlWrite; try dsimp only
  repeat' first
    | with_reducible assumption | with_reducible apply wr_sound | with_reducible apply setF_sound
    | with_reducible apply setRing_sound | with_reducible apply setRingState_sound
    | with_reducible apply setR_sound | with_reducible apply ringStop_sound | with_reducible apply Sound.ite
    | with_reducible apply Sound.ite_fst | with_reducible refine Sound.of_fst ‹_ = (_, _)› ?_

theorem hostReset_sound (h : s.Sound) : State.Sound (hostReset s) := by
  unfold hostReset; dsimp only
  apply bumpBy_sound; apply compressorIdle_sound
  exact Sound.foldl (fun _ _ h => captureReadEnd_sound h) (Sound.dropRegs h rfl ⟨_, by with_reducible rfl⟩ rfl rfl rfl)

theorem captureRead_sound {b c d e f g i j} (h : s.Sound) : State.Sound (captureRead s b c d e f g i j) := by
  unfold captureRead; try dsimp only
  repeat' first
    | with_reducible assumption | with_reducible apply respond_sound | with_reducible apply acceptAsync_sound
    | with_reducible apply flushPerRun_sound | with_reducible apply captureAppend_sound
    | with_reducible apply Sound.ite | with_reducible apply Sound.ite_fst
    | with_reducible refine Sound.of_fst ‹_ = (_, _)› ?_ | fail_if_no_progress with_reducible apply Sound.mk

theorem msixRelease_sound  (h : s.Sound) : State.Sound (msixRelease s) := by
  unfold msixRelease; try dsimp only
  repeat' first
    | with_reducible assumption | with_reducible apply msixSend_sound | with_reducible apply setB_sound
    | with_reducible apply Sound.ite | with_reducible refine Sound.foldl (fun _ _ _ => ?_) ?_

theorem pcieWrite_sound {b c} (h : s.Sound) : State.Sound (pcieWrite s b c) := by
  unfold pcieWrite; try dsimp only
  repeat' first
    | with_reducible assumption | with_reducible apply msixRelease_sound | with_reducible apply Sound.ite
    | with_reducible apply Sound.ite_fst | with_reducible refine Sound.of_fst ‹_ = (_, _)› ?_
    | fail_if_no_progress with_reducible apply Sound.mk | split

theorem bar2Fail_sound  (h : s.Sound) : State.Sound (bar2Fail s) := by
  unfold bar2Fail; try dsimp only
  repeat' first
    | with_reducible assumption | with_reducible apply bump_sound

theorem bar2Read_sound {b c} (h : s.Sound) : State.Sound (bar2Read s b c) := by
  unfold bar2Read; try dsimp only
  repeat' first
    | with_reducible assumption | with_reducible apply unitFetch_sound | with_reducible apply emit_sound
    | with_reducible apply bar2Fail_sound | with_reducible apply busError_sound
    | with_reducible refine Sound.of_fst ‹_ = (_, _)› ?_ | split

theorem bar2Write_sound {b c} (h : s.Sound) : State.Sound (bar2Write s b c) := by
  unfold bar2Write; try dsimp only
  repeat' first
    | with_reducible assumption | with_reducible apply bar2Fail_sound | with_reducible apply busError_sound
    | with_reducible apply guardReport_sound | with_reducible apply scatterWrite_sound
    | with_reducible apply served_sound | with_reducible apply Sound.ite | with_reducible apply Sound.ite_fst
    | with_reducible refine Sound.of_fst ‹_ = (_, _)› ?_ | split

theorem chainWrite_sound {a b c} (h : s.Sound) : State.Sound (chainWrite a s b c).1 := by
  induction b generalizing s c with
  | nil => cases c <;> exact h
  | cons e b ih =>
    cases c with
    | nil => exact h
    | cons x c =>
      unfold chainWrite; dsimp only
      split
      · rename_i g; exact Sound.of_fst g (ih (Sound.ite h (emit_sound h)))
      · rename_i g; exact Sound.of_fst g (ih (Sound.ite h (emit_sound h)))

theorem capsuleComplete_sound {b c} (h : s.Sound) : State.Sound (capsuleComplete s b c) := by
  unfold capsuleComplete; try dsimp only
  repeat' first
    | with_reducible assumption | with_reducible apply lineReport_sound | with_reducible apply emit_sound
    | with_reducible apply compressorIdle_sound | with_reducible apply chainWrite_sound
    | with_reducible apply ringWrote_sound | with_reducible apply descDone_sound
    | with_reducible apply bump_sound | with_reducible apply ringStop_sound
    | with_reducible apply descPoison_sound | with_reducible apply Sound.ite
    | with_reducible refine Sound.foldl (fun _ _ _ => ?_) ?_ | with_reducible apply Sound.ite_fst
    | with_reducible refine Sound.foldl_fst (fun _ _ _ => ?_) ?_
    | with_reducible refine Sound.of_fst ‹_ = (_, _)› ?_ | fail_if_no_progress with_reducible apply Sound.mk
    | split

theorem decompressGo_sound {b} (h : s.Sound) : State.Sound (decompressGo s b) := by
  unfold decompressGo; try dsimp only
  repeat' first
    | with_reducible assumption | with_reducible apply setF_sound | with_reducible apply bump_sound
    | with_reducible apply Sound.ite | with_reducible apply Sound.ite_fst
    | with_reducible refine Sound.of_fst ‹_ = (_, _)› ?_ | fail_if_no_progress with_reducible apply Sound.mk

theorem decReport_sound {b c} (h : s.Sound) : State.Sound (decReport s b c) := by
  unfold decReport; try dsimp only
  repeat' first
    | with_reducible assumption | with_reducible apply lineReport_sound
    | with_reducible apply guardReport_sound | with_reducible apply Sound.ite

theorem decompressEnd_sound  (h : s.Sound) : State.Sound (decompressEnd s) := by
  unfold decompressEnd; try dsimp only
  repeat' first
    | with_reducible assumption | with_reducible apply served_sound | with_reducible apply decReport_sound
    | with_reducible apply guardReport_sound | with_reducible apply unitWrite_sound
    | with_reducible apply setF_sound | with_reducible apply setR_sound | with_reducible apply bump_sound
    | with_reducible apply Sound.ite | with_reducible apply Sound.ite_fst
    | with_reducible refine Sound.of_fst ‹_ = (_, _)› ?_ | fail_if_no_progress with_reducible apply Sound.mk
    | split

theorem setChanState_sound {b c d} (h : s.Sound) : State.Sound (setChanState s b c d) := by
  unfold setChanState; try dsimp only
  repeat' first
    | with_reducible assumption | with_reducible apply setF_sound

theorem setInteg_sound {b} (h : s.Sound) : State.Sound (setInteg s b) := by
  unfold setInteg; try dsimp only
  repeat' first
    | with_reducible assumption | fail_if_no_progress with_reducible apply Sound.mk

theorem setChanRec_sound {b c d} (h : s.Sound) : State.Sound (setChanRec s b c d) := by
  unfold setChanRec; try dsimp only
  repeat' first
    | with_reducible assumption | with_reducible apply setInteg_sound
    | with_reducible refine Sound.of_fst ‹_ = (_, _)› ?_

theorem foldLine_sound {b c d} (h : s.Sound) : State.Sound (foldLine s b c d).1 := by
  unfold foldLine; try dsimp only
  repeat' first
    | with_reducible assumption | with_reducible apply unitWrite_sound | with_reducible apply unitFetch_sound
    | with_reducible apply Sound.ite | with_reducible apply Sound.ite_fst
    | with_reducible refine Sound.of_fst ‹_ = (_, _)› ?_ | split

theorem foldBlock_sound {b c d e f g} (h : s.Sound) : State.Sound (foldBlock s b c d e f g).1 := by
  unfold foldBlock; try dsimp only
  repeat' first
    | with_reducible assumption | with_reducible apply foldLine_sound | with_reducible apply setF_sound
    | with_reducible apply bumpBy_sound | with_reducible apply bump_sound
    | with_reducible apply unitWrite_sound | with_reducible apply Sound.ite
    | with_reducible refine Sound.foldl (fun _ _ _ => ?_) ?_ | with_reducible apply Sound.ite_fst
    | with_reducible refine Sound.foldl_fst (fun _ _ _ => ?_) ?_
    | with_reducible refine Sound.of_fst ‹_ = (_, _)› ?_ | split

theorem foldChannel_sound {b c d} (h : s.Sound) : State.Sound (foldChannel s b c d) := by
  unfold foldChannel; try dsimp only
  repeat' first
    | with_reducible assumption | with_reducible apply foldBlock_sound
    | with_reducible apply setChanState_sound | with_reducible apply setChanRec_sound
    | with_reducible apply Sound.ite | with_reducible refine Sound.foldl (fun _ _ _ => ?_) ?_
    | with_reducible apply Sound.ite_fst | with_reducible refine Sound.foldl_fst (fun _ _ _ => ?_) ?_
    | with_reducible refine Sound.of_fst ‹_ = (_, _)› ?_ | split

theorem abandonInteg_sound {b} (h : s.Sound) : State.Sound (abandonInteg s b) := by
  unfold abandonInteg; try dsimp only
  repeat' first
    | with_reducible assumption | with_reducible apply setChanState_sound | with_reducible apply setInteg_sound
    | with_reducible apply setF_sound | with_reducible apply bump_sound | with_reducible apply Sound.ite
    | with_reducible refine Sound.foldl (fun _ _ _ => ?_) ?_ | with_reducible apply Sound.ite_fst
    | with_reducible refine Sound.foldl_fst (fun _ _ _ => ?_) ?_
    | with_reducible refine Sound.of_fst ‹_ = (_, _)› ?_

theorem dropProduct_sound  (h : s.Sound) : State.Sound (dropProduct s) := by
  unfold dropProduct; try dsimp only
  repeat' first
    | with_reducible assumption | with_reducible apply fault_sound | with_reducible apply setF_sound
    | with_reducible apply bump_sound

theorem stageProduct_sound {b c d} (h : s.Sound) : State.Sound (stageProduct s b c d) := by
  unfold stageProduct; try dsimp only
  repeat' first
    | with_reducible assumption | with_reducible apply digestAdd_sound | with_reducible apply digestCrc_sound
    | with_reducible apply setPairB_sound | with_reducible apply unitWrite_sound
    | with_reducible apply brlPendAll_sound | with_reducible apply raise_sound
    | with_reducible apply bump_sound | with_reducible apply dropProduct_sound | with_reducible apply Sound.ite

theorem readoutDone_sound {b} (h : s.Sound) : State.Sound (readoutDone s b) := by
  unfold readoutDone; try dsimp only
  repeat' first
    | with_reducible assumption | with_reducible apply setF_sound | with_reducible apply setInteg_sound
    | with_reducible apply raise_sound | with_reducible apply setPair_sound | with_reducible apply Sound.ite
    | with_reducible apply Sound.ite_fst | with_reducible refine Sound.of_fst ‹_ = (_, _)› ?_

theorem sumReports_sound {b c d} (h : s.Sound) : State.Sound (sumReports s b c d) := by
  unfold sumReports; try dsimp only
  repeat' first
    | with_reducible assumption | with_reducible apply unitFetch_sound | with_reducible apply Sound.ite
    | with_reducible refine Sound.foldl (fun _ _ _ => ?_) ?_ | with_reducible apply Sound.ite_fst
    | with_reducible refine Sound.foldl_fst (fun _ _ _ => ?_) ?_
    | with_reducible refine Sound.of_fst ‹_ = (_, _)› ?_

theorem clearChannel_sound {b c} (h : s.Sound) : State.Sound (clearChannel s b c) := by
  unfold clearChannel; try dsimp only
  repeat' first
    | with_reducible assumption | with_reducible apply unitWrite_sound
    | with_reducible apply setChanState_sound | with_reducible refine Sound.foldl (fun _ _ _ => ?_) ?_

theorem readoutChannel_sound {b c} (h : s.Sound) : State.Sound (readoutChannel s b c) := by
  unfold readoutChannel; try dsimp only
  repeat' first
    | with_reducible assumption | with_reducible apply stageProduct_sound
    | with_reducible apply sumReports_sound | with_reducible apply setF_sound
    | with_reducible apply bumpBy_sound | with_reducible apply setChanRec_sound
    | with_reducible apply clearChannel_sound | with_reducible apply dropProduct_sound
    | with_reducible apply readoutDone_sound | with_reducible apply Sound.ite
    | with_reducible refine Sound.foldl (fun _ _ _ => ?_) ?_

theorem readoutMiss_sound {b c} (h : s.Sound) : State.Sound (readoutMiss s b c) := by
  unfold readoutMiss; try dsimp only
  repeat' first
    | with_reducible assumption | with_reducible apply setF_sound | with_reducible apply bump_sound
    | with_reducible apply setChanState_sound | with_reducible apply readoutDone_sound
    | with_reducible apply stageProduct_sound | with_reducible apply fault_sound

theorem readoutOpen_sound {b} (h : s.Sound) : State.Sound (readoutOpen s b) := by
  unfold readoutOpen; try dsimp only
  repeat' first
    | with_reducible assumption | with_reducible apply setF_sound | with_reducible apply setInteg_sound
    | with_reducible refine Sound.of_fst ‹_ = (_, _)› ?_

theorem setIntEnable_sound {b} (h : s.Sound) : State.Sound (setIntEnable s b) := by
  unfold setIntEnable; try dsimp only
  repeat' first
    | with_reducible assumption | with_reducible apply setF_sound | with_reducible apply setChanState_sound
    | with_reducible apply setInteg_sound | with_reducible apply abandonInteg_sound
    | with_reducible apply Sound.ite | with_reducible refine Sound.foldl (fun _ _ _ => ?_) ?_
    | with_reducible apply Sound.ite_fst | with_reducible refine Sound.foldl_fst (fun _ _ _ => ?_) ?_
    | with_reducible refine Sound.of_fst ‹_ = (_, _)› ?_ | split

theorem setCor_sound {b} (h : s.Sound) : State.Sound (setCor s b) := by
  unfold setCor; try dsimp only
  repeat' first
    | with_reducible assumption | fail_if_no_progress with_reducible apply Sound.mk

theorem causewayCut_sound {b c d e} (h : s.Sound) : State.Sound (causewayCut s b c d e) := by
  unfold causewayCut; try dsimp only
  repeat' first
    | with_reducible assumption | with_reducible apply setCor_sound | with_reducible apply bump_sound
    | with_reducible apply setXr_sound

theorem causewayRead_sound {b c d e f} (h : s.Sound) : State.Sound (causewayRead s b c d e f) := by
  unfold causewayRead; try dsimp only
  repeat' first
    | with_reducible assumption | with_reducible apply unitFetch_sound | with_reducible apply causewayCut_sound
    | with_reducible apply Sound.ite | with_reducible apply Sound.ite_fst
    | with_reducible refine Sound.of_fst ‹_ = (_, _)› ?_ | split

theorem causewayReads_sound {b c} (h : s.Sound) : State.Sound (causewayReads s b c) := by
  unfold causewayReads; try dsimp only
  repeat' first
    | with_reducible assumption | with_reducible apply causewayRead_sound | with_reducible apply served_sound
    | with_reducible apply Sound.ite | with_reducible refine Sound.foldl (fun _ _ _ => ?_) ?_
    | with_reducible apply Sound.ite_fst | with_reducible refine Sound.foldl_fst (fun _ _ _ => ?_) ?_
    | with_reducible refine Sound.of_fst ‹_ = (_, _)› ?_

theorem setTile_sound {b c d} (h : s.Sound) : State.Sound (setTile s b c d) := by
  unfold setTile; try dsimp only
  repeat' first
    | with_reducible assumption | with_reducible apply setF_sound

theorem setPool_sound {b} (h : s.Sound) : State.Sound (setPool s b) := by
  unfold setPool; try dsimp only
  repeat' first
    | with_reducible assumption | with_reducible apply setF_sound | with_reducible apply setCor_sound

theorem haltShow_sound  (h : s.Sound) : State.Sound (haltShow s) := by
  unfold haltShow; try dsimp only
  repeat' first
    | with_reducible assumption | with_reducible apply refreshLevels_sound | with_reducible apply setF_sound

theorem giveUnit_sound {b c d e} (h : s.Sound) : State.Sound (giveUnit s b c d e) := by
  unfold giveUnit; try dsimp only
  repeat' first
    | with_reducible assumption | with_reducible apply setTile_sound | with_reducible apply setR_sound

theorem buildMap_sound {b c} (h : s.Sound) : State.Sound (buildMap s b c) := by
  unfold buildMap; try dsimp only
  repeat' first
    | with_reducible assumption | with_reducible apply setF_sound | with_reducible apply setR_sound
    | with_reducible apply setTile_sound | with_reducible apply giveUnit_sound
    | with_reducible apply setPool_sound | with_reducible apply setCor_sound
    | with_reducible apply haltShow_sound | with_reducible apply fault_sound | with_reducible apply Sound.ite
    | with_reducible refine Sound.foldl (fun _ _ _ => ?_) ?_ | with_reducible apply Sound.ite_fst
    | with_reducible refine Sound.foldl_fst (fun _ _ _ => ?_) ?_
    | with_reducible refine Sound.of_fst ‹_ = (_, _)› ?_ | split

theorem skipChannel_sound {b c d} (h : s.Sound) : State.Sound (skipChannel s b c d) := by
  unfold skipChannel; try dsimp only
  repeat' first
    | with_reducible assumption | with_reducible apply bumpBy_sound | with_reducible apply foldChannel_sound
    | with_reducible apply Sound.ite | with_reducible apply Sound.ite_fst
    | with_reducible refine Sound.of_fst ‹_ = (_, _)› ?_

theorem skipFrom_sound {b c d} (h : s.Sound) : State.Sound (skipFrom s b c d) := by
  unfold skipFrom; try dsimp only
  repeat' first
    | with_reducible assumption | with_reducible apply skipChannel_sound
    | with_reducible refine Sound.foldl (fun _ _ _ => ?_) ?_

theorem corIdle_sound  (h : s.Sound) : State.Sound (corIdle s) := by
  unfold corIdle; try dsimp only
  repeat' first
    | with_reducible assumption | with_reducible apply setCor_sound | with_reducible apply setF_sound
    | with_reducible refine Sound.of_fst ‹_ = (_, _)› ?_

theorem corCompute_sound {b} (h : s.Sound) : State.Sound (corCompute s b) := by
  unfold corCompute; try dsimp only
  repeat' first
    | with_reducible assumption | with_reducible apply setCor_sound | with_reducible apply setF_sound
    | with_reducible refine Sound.of_fst ‹_ = (_, _)› ?_

theorem beginFolding_sound {b} (h : s.Sound) : State.Sound (beginFolding s b) := by
  unfold beginFolding; try dsimp only
  repeat' first
    | with_reducible assumption | with_reducible apply setF_sound | with_reducible apply setPair_sound
    | with_reducible apply setInteg_sound | with_reducible apply Sound.ite

theorem foldingEnd_sound {b} (h : s.Sound) : State.Sound (foldingEnd s b) := by
  unfold foldingEnd; try dsimp only
  repeat' first
    | with_reducible assumption | with_reducible apply setInteg_sound | with_reducible apply beginFolding_sound
    | with_reducible apply Sound.ite

theorem corPass_sound {b c} (h : s.Sound) : State.Sound (corPass s b c) := by
  unfold corPass; try dsimp only
  repeat' first
    | with_reducible assumption | with_reducible apply foldingEnd_sound | with_reducible apply skipFrom_sound
    | with_reducible apply setCor_sound

theorem corStart_sound {b} (h : s.Sound) : State.Sound (corStart s b) := by
  unfold corStart; try dsimp only
  repeat' first
    | with_reducible assumption | with_reducible apply setPair_sound | with_reducible apply setCor_sound
    | with_reducible apply setF_sound | with_reducible apply buildMap_sound
    | with_reducible apply corCompute_sound | with_reducible apply Sound.ite

theorem corNext_sound  (h : s.Sound) : State.Sound (corNext s) := by
  unfold corNext; try dsimp only
  repeat' first
    | with_reducible assumption | with_reducible apply corStart_sound | with_reducible apply Sound.ite | split

theorem corOverrun_sound {b c} (h : s.Sound) : State.Sound (corOverrun s b c) := by
  unfold corOverrun; try dsimp only
  repeat' first
    | with_reducible assumption | with_reducible apply skipFrom_sound | with_reducible apply bumpBy_sound
    | with_reducible apply setF_sound | with_reducible apply bump_sound | with_reducible apply fault_sound
    | with_reducible apply raise_sound

theorem corAbortFrom_sound {b c} (h : s.Sound) : State.Sound (corAbortFrom s b c) := by
  unfold corAbortFrom; try dsimp only
  repeat' first
    | with_reducible assumption | with_reducible apply foldingEnd_sound | with_reducible apply skipFrom_sound
    | with_reducible apply bumpBy_sound | with_reducible apply corIdle_sound
    | with_reducible apply setCor_sound

theorem corAbort_sound  (h : s.Sound) : State.Sound (corAbort s) := by
  unfold corAbort; try dsimp only
  repeat' first
    | with_reducible assumption | with_reducible apply setF_sound | with_reducible apply setCor_sound
    | with_reducible apply corAbortFrom_sound | with_reducible apply Sound.ite | split

theorem testNext_sound  (h : s.Sound) : State.Sound (testNext s) := by
  unfold testNext; try dsimp only
  repeat' first
    | with_reducible assumption | with_reducible apply setCor_sound | with_reducible apply setF_sound
    | with_reducible apply setTile_sound | with_reducible apply Sound.ite | split

theorem patrolMove_sound {b c} (h : s.Sound) : State.Sound (patrolMove s b c) := by
  unfold patrolMove; try dsimp only
  repeat' first
    | with_reducible assumption | with_reducible apply setCor_sound | with_reducible apply testNext_sound
    | with_reducible apply bump_sound | with_reducible apply setPool_sound
    | with_reducible apply giveUnit_sound | with_reducible apply setTile_sound
    | with_reducible apply setF_sound | with_reducible apply haltShow_sound | with_reducible apply Sound.ite
    | with_reducible apply Sound.ite_fst | with_reducible refine Sound.of_fst ‹_ = (_, _)› ?_ | split

theorem startupDone_sound  (h : s.Sound) : State.Sound (startupDone s) := by
  unfold startupDone; try dsimp only
  repeat' first
    | with_reducible assumption | with_reducible apply corNext_sound | with_reducible apply buildMap_sound
    | with_reducible apply Sound.ite | split

theorem markSuspect_sound {b c d} (h : s.Sound) : State.Sound (markSuspect s b c d) := by
  unfold markSuspect; try dsimp only
  repeat' first
    | with_reducible assumption | with_reducible apply setInteg_sound | with_reducible apply Sound.ite
    | with_reducible apply Sound.ite_fst | with_reducible refine Sound.of_fst ‹_ = (_, _)› ?_ | split

theorem retireTile_sound {b} (h : s.Sound) : State.Sound (retireTile s b) := by
  unfold retireTile; try dsimp only
  repeat' first
    | with_reducible assumption | with_reducible apply setB_sound | with_reducible apply setTile_sound
    | with_reducible apply fault_sound | with_reducible apply raise_sound | with_reducible apply bumpF_sound
    | with_reducible apply setCor_sound | with_reducible apply setR_sound | with_reducible apply setPair_sound
    | with_reducible apply markSuspect_sound | with_reducible apply Sound.ite
    | with_reducible apply Sound.ite_fst | with_reducible refine Sound.of_fst ‹_ = (_, _)› ?_ | split

theorem startupGo_sound  (h : s.Sound) : State.Sound (startupGo s) := by
  unfold startupGo; try dsimp only
  repeat' first
    | with_reducible assumption | with_reducible apply haltShow_sound | with_reducible apply testNext_sound
    | with_reducible apply startupDone_sound | with_reducible apply setF_sound | with_reducible apply Sound.ite
    | split

theorem testEnd_sound {b c} (h : s.Sound) : State.Sound (testEnd s b c) := by
  unfold testEnd; try dsimp only
  repeat' first
    | with_reducible assumption | with_reducible apply setCor_sound | with_reducible apply setTile_sound
    | with_reducible apply setPool_sound | with_reducible apply retireTile_sound
    | with_reducible apply setF_sound | with_reducible apply startupGo_sound
    | with_reducible apply haltShow_sound | with_reducible apply testNext_sound
    | with_reducible apply Sound.ite | with_reducible apply Sound.ite_fst
    | with_reducible refine Sound.of_fst ‹_ = (_, _)› ?_

theorem patrolPass_sound {b c} (h : s.Sound) : State.Sound (patrolPass s b c) := by
  unfold patrolPass; try dsimp only
  repeat' first
    | with_reducible assumption | with_reducible apply bump_sound | with_reducible apply wr_sound
    | with_reducible apply setF_sound | with_reducible apply testEnd_sound | with_reducible apply setCor_sound
    | with_reducible apply Sound.ite

theorem corEnable_sound  (h : s.Sound) : State.Sound (corEnable s) := by
  unfold corEnable; try dsimp only
  repeat' first
    | with_reducible assumption | with_reducible apply setF_sound | with_reducible apply haltShow_sound
    | with_reducible apply setPool_sound | with_reducible apply setCor_sound
    | with_reducible apply setTile_sound | with_reducible apply startupDone_sound
    | with_reducible apply Sound.ite | with_reducible refine Sound.foldl (fun _ _ _ => ?_) ?_ | split

theorem releaseTiles_sound {b c} (h : s.Sound) : State.Sound (releaseTiles s b c) := by
  unfold releaseTiles; try dsimp only
  repeat' first
    | with_reducible assumption | with_reducible apply setCor_sound | with_reducible apply Sound.ite
    | with_reducible refine Sound.foldl (fun _ _ _ => ?_) ?_ | with_reducible apply Sound.ite_fst
    | with_reducible refine Sound.foldl_fst (fun _ _ _ => ?_) ?_
    | with_reducible refine Sound.of_fst ‹_ = (_, _)› ?_ | split

theorem releaseAll_sound  (h : s.Sound) : State.Sound (releaseAll s) := by
  unfold releaseAll; try dsimp only
  repeat' first
    | with_reducible assumption | with_reducible apply releaseTiles_sound

theorem corDisable_sound  (h : s.Sound) : State.Sound (corDisable s) := by
  unfold corDisable; try dsimp only
  repeat' first
    | with_reducible assumption | with_reducible apply corAbort_sound | with_reducible apply releaseAll_sound
    | with_reducible apply setF_sound | with_reducible apply setTile_sound | with_reducible apply setCor_sound
    | with_reducible apply Sound.ite | with_reducible refine Sound.foldl (fun _ _ _ => ?_) ?_

theorem sectorOff_sound {b} (h : s.Sound) : State.Sound (sectorOff s b) := by
  unfold sectorOff; try dsimp only
  repeat' first
    | with_reducible assumption | with_reducible apply releaseTiles_sound | with_reducible apply setF_sound
    | with_reducible apply fault_sound | with_reducible apply setTile_sound | with_reducible apply setCor_sound
    | with_reducible apply setPool_sound | with_reducible apply testNext_sound
    | with_reducible apply startupGo_sound | with_reducible apply haltShow_sound
    | with_reducible apply Sound.ite | with_reducible refine Sound.foldl (fun _ _ _ => ?_) ?_

theorem sectorOn_sound {b} (h : s.Sound) : State.Sound (sectorOn s b) := by
  unfold sectorOn; try dsimp only
  repeat' first
    | with_reducible assumption | with_reducible apply setTile_sound | with_reducible apply testNext_sound
    | with_reducible apply setCor_sound | with_reducible apply Sound.ite
    | with_reducible refine Sound.foldl (fun _ _ _ => ?_) ?_

theorem drainEnd_sound {b} (h : s.Sound) : State.Sound (drainEnd s b) := by
  unfold drainEnd; try dsimp only
  repeat' first
    | with_reducible assumption | with_reducible apply bumpBy_sound | with_reducible apply setF_sound
    | with_reducible apply foldChannel_sound | with_reducible apply patrolMove_sound
    | with_reducible apply Sound.ite

theorem corWindowClose_sound {b} (h : s.Sound) : State.Sound (corWindowClose s b) := by
  unfold corWindowClose; try dsimp only
  repeat' first
    | with_reducible assumption | with_reducible apply setCor_sound | with_reducible apply corOverrun_sound
    | with_reducible apply corIdle_sound | with_reducible apply foldChannel_sound
    | with_reducible apply foldingEnd_sound | with_reducible apply corNext_sound
    | with_reducible apply setSlotState_sound | with_reducible apply Sound.ite
    | with_reducible refine Sound.foldl (fun _ _ _ => ?_) ?_ | with_reducible apply Sound.ite_fst
    | with_reducible refine Sound.foldl_fst (fun _ _ _ => ?_) ?_
    | with_reducible refine Sound.of_fst ‹_ = (_, _)› ?_

theorem corCloseDue_sound {b} (h : s.Sound) : State.Sound (corCloseDue s b) := by
  unfold corCloseDue; try dsimp only
  repeat' first
    | with_reducible assumption | with_reducible apply corWindowClose_sound | with_reducible apply setCor_sound
    | with_reducible apply Sound.ite | split

theorem lateHook_sound {b c} (h : s.Sound) : State.Sound (lateHook s b c) := by
  unfold lateHook; try dsimp only
  repeat' first
    | with_reducible assumption | with_reducible apply setChz_sound | with_reducible apply bump_sound
    | with_reducible apply Sound.ite | with_reducible apply Sound.ite_fst
    | with_reducible refine Sound.of_fst ‹_ = (_, _)› ?_

theorem tapFirst_sound {b c} (h : s.Sound) : State.Sound (tapFirst s b c).1 := by
  unfold tapFirst; try dsimp only
  repeat' first
    | with_reducible assumption | with_reducible apply impulseTap_sound | with_reducible apply advanceTo_sound
    | with_reducible apply Sound.ite | with_reducible apply Sound.ite_fst
    | with_reducible refine Sound.of_fst ‹_ = (_, _)› ?_

theorem retractIf_sound {a c d} (h : s.Sound) : State.Sound (retractIf a s c d) := by
  unfold retractIf; try dsimp only
  repeat' first
    | with_reducible assumption | with_reducible apply retract_sound | with_reducible apply Sound.ite

theorem ingestReceived_sound {b c} (h : s.Sound) : State.Sound (ingestReceived s b c) := by
  unfold ingestReceived
  split
  rename_i g
  have k := Sound.of_fst g (tapFirst_sound h)
  split
  · exact retract_sound (receive_sound k fun _ h => h)
  · refine receive_sound k fun _ h => Sound.ite (ingestFrame_sound h ?_) h
    exact fun _ h => lateHook_sound h

theorem sofInside_sound {b c} (h : s.Sound) : State.Sound (sofInside s b c) := by
  unfold sofInside; try dsimp only
  repeat' first
    | with_reducible assumption | with_reducible apply tapFirst_sound | with_reducible apply advanceTo_sound
    | with_reducible apply bump_sound | with_reducible apply retractIf_sound | with_reducible apply Sound.ite
    | with_reducible apply Sound.ite_fst | with_reducible refine Sound.of_fst ‹_ = (_, _)› ?_ | split

theorem ingestCloseAll_sound {b} (h : s.Sound) : State.Sound (ingestCloseAll s b) := by
  unfold ingestCloseAll; try dsimp only
  repeat' first
    | with_reducible assumption | with_reducible apply ingestClose_sound | with_reducible apply rawQueue_sound
    | with_reducible apply Sound.ite

theorem spectrumDone_sound {b c d} (h : s.Sound) : State.Sound (spectrumDone s b c d) := by
  unfold spectrumDone; try dsimp only
  repeat' first
    | with_reducible assumption | with_reducible apply advanceTo_sound | with_reducible apply chzSpectrum_sound
    | with_reducible apply digestCrc_sound | with_reducible apply setChz_sound
    | with_reducible refine packetsReady_sound ?_ (fun _ _ _ _ _ _ _ _ => ?_)
    | with_reducible apply beamEnter_sound | with_reducible apply Sound.ite

theorem exchangeFixAll_sound {b} (h : s.Sound) : State.Sound (exchangeFixAll s b) := by
  unfold exchangeFixAll; try dsimp only
  repeat' first
    | with_reducible assumption | with_reducible apply exchangeFix_sound | with_reducible apply setBfm_sound
    | with_reducible apply beamComplete_sound | with_reducible apply Sound.ite

theorem sendPointAll_sound {b c} (h : s.Sound) : State.Sound (sendPointAll s b c) := by
  unfold sendPointAll; try dsimp only
  repeat' first
    | with_reducible assumption | with_reducible apply advanceTo_sound
    | with_reducible apply beamSearchAt_sound | with_reducible apply setBfm_sound
    | with_reducible apply sendPointAct_sound | with_reducible apply Sound.ite
    | with_reducible apply Sound.ite_fst | with_reducible refine Sound.of_fst ‹_ = (_, _)› ?_

theorem setArch_sound {f : Arch → Arch} (hf : (f s.arch).up = s.arch.up) (h : s.Sound) : State.Sound (setArch s f) :=
  ⟨h.1, h.2.1, h.2.2.1, hf.trans h.2.2.2⟩

theorem setBfmEnable_sound {b} (h : s.Sound) : State.Sound (setBfmEnable s b) := by
  unfold setBfmEnable; try dsimp only
  repeat' first
    | with_reducible assumption | with_reducible apply setF_sound

theorem startRun_sound {b} (h : s.Sound) : State.Sound (startRun s b) := by
  unfold startRun; try dsimp only
  repeat' first
    | with_reducible assumption | with_reducible refine setArch_sound rfl ?_
    | with_reducible apply setChz_sound | with_reducible apply setXr_sound
    | with_reducible apply setXrEnable_sound | with_reducible apply setCor_sound
    | with_reducible apply corEnable_sound | with_reducible apply setInteg_sound
    | with_reducible apply setIntEnable_sound | with_reducible apply setBfm_sound
    | with_reducible apply setBfmEnable_sound | with_reducible apply setTrgEnable_sound
    | with_reducible refine Sound.of_fst ‹_ = (_, _)› ?_

theorem start_sound {b c d} (h : s.Sound) : State.Sound (start s b c d) := by
  unfold start; try dsimp only
  repeat' first
    | with_reducible assumption | with_reducible refine serve_sound ?_ (fun _ _ => ?_)
    | with_reducible apply respond_sound | with_reducible apply startRun_sound | with_reducible apply Sound.ite
    | with_reducible apply Sound.ite_fst | with_reducible refine Sound.of_fst ‹_ = (_, _)› ?_

theorem stop_sound {b c d} (h : s.Sound) : State.Sound (stop s b c d) := by
  unfold stop; try dsimp only
  repeat' first
    | with_reducible assumption | with_reducible refine serve_sound ?_ (fun _ _ => ?_)
    | with_reducible refine setArch_sound rfl ?_ | with_reducible apply respond_sound
    | with_reducible apply Sound.ite | with_reducible apply Sound.ite_fst
    | with_reducible refine Sound.of_fst ‹_ = (_, _)› ?_

theorem stopInteg_sound {b} (h : s.Sound) : State.Sound (stopInteg s b) := by
  unfold stopInteg; try dsimp only
  repeat' first
    | with_reducible assumption | with_reducible apply abandonInteg_sound | with_reducible apply setInteg_sound
    | with_reducible apply Sound.ite

theorem stopTick_sound {b} (h : s.Sound) : State.Sound (stopTick s b) := by
  unfold stopTick; try dsimp only
  repeat' first
    | with_reducible assumption | with_reducible apply unclaimFrom_sound | with_reducible apply stopInteg_sound
    | with_reducible apply Sound.ite | split

theorem replayStop_sound  (h : s.Sound) : State.Sound (replayStop s) := by
  unfold replayStop; try dsimp only
  repeat' first
    | with_reducible assumption | with_reducible apply setF_sound | with_reducible apply notice_sound
    | with_reducible apply Sound.ite | with_reducible apply Sound.ite_fst
    | with_reducible refine Sound.of_fst ‹_ = (_, _)› ?_

theorem stopRun_sound  (h : s.Sound) : State.Sound (stopRun s) := by
  unfold stopRun; try dsimp only
  repeat' first
    | with_reducible assumption | with_reducible apply reloadWrite_sound | with_reducible apply setChz_sound
    | with_reducible apply setXr_sound | with_reducible apply setF_sound
    | with_reducible apply setTrgEnable_sound | with_reducible apply setBfmEnable_sound
    | with_reducible apply setIntEnable_sound | with_reducible apply corDisable_sound
    | with_reducible apply replayStop_sound | with_reducible refine setArch_sound rfl ?_

theorem setYdx_sound {b} (h : s.Sound) : State.Sound (setYdx s b) := by
  unfold setYdx; try dsimp only
  repeat' first
    | with_reducible assumption | fail_if_no_progress with_reducible apply Sound.mk

theorem ydxLogWrite_sound  (h : s.Sound) : State.Sound (ydxLogWrite s) := by
  unfold ydxLogWrite; try dsimp only
  repeat' first
    | with_reducible assumption | with_reducible apply unitWrite_sound | with_reducible apply freeTaken_sound

theorem yodexRecord_sound {b c d e f} (h : s.Sound) : State.Sound (yodexRecord s b c d e f) := by
  unfold yodexRecord; try dsimp only
  repeat' first
    | with_reducible assumption | with_reducible refine serve_sound ?_ (fun _ _ => ?_)
    | with_reducible apply respond_sound | with_reducible apply acceptAsync_sound
    | with_reducible apply setF_sound | with_reducible apply Sound.ite | with_reducible apply Sound.ite_fst
    | with_reducible refine Sound.of_fst ‹_ = (_, _)› ?_ | fail_if_no_progress with_reducible apply Sound.mk

theorem ydxCommit_sound {b c} (h : s.Sound) : State.Sound (ydxCommit s b c) := by
  unfold ydxCommit; try dsimp only
  repeat' first
    | with_reducible assumption | with_reducible apply unitWrite_sound | with_reducible apply guardReport_sound
    | with_reducible apply ydxLogWrite_sound | with_reducible apply setF_sound
    | with_reducible apply bump_sound | with_reducible apply setYdx_sound | with_reducible apply Sound.ite
    | with_reducible refine Sound.foldl (fun _ _ _ => ?_) ?_

theorem recordBegin_sound  (h : s.Sound) : State.Sound (recordBegin s) := by
  unfold recordBegin; try dsimp only
  repeat' first
    | with_reducible assumption | with_reducible apply setF_sound | with_reducible apply setPair_sound
    | with_reducible refine Sound.of_fst ‹_ = (_, _)› ?_ | fail_if_no_progress with_reducible apply Sound.mk

theorem recordTick_sound {b c} (h : s.Sound) : State.Sound (recordTick s b c) := by
  unfold recordTick; try dsimp only
  repeat' first
    | with_reducible assumption | with_reducible apply recordBegin_sound | with_reducible apply ydxCommit_sound
    | with_reducible apply Sound.ite | with_reducible refine Sound.foldl (fun _ _ _ => ?_) ?_

theorem recordCut_sound  (h : s.Sound) : State.Sound (recordCut s) := by
  unfold recordCut; try dsimp only
  repeat' first
    | with_reducible assumption | with_reducible apply setF_sound | with_reducible apply bump_sound
    | with_reducible apply setYdx_sound | with_reducible refine Sound.foldl (fun _ _ _ => ?_) ?_

theorem ydxSend_sound {b c d e f g} (h : s.Sound) : State.Sound (ydxSend s b c d e f g) := by
  unfold ydxSend; try dsimp only
  repeat' first
    | with_reducible assumption | with_reducible apply sendOn_sound | with_reducible apply freeTaken_sound
    | with_reducible apply bump_sound | with_reducible apply Sound.ite

theorem ydxStream_sound  (h : s.Sound) : State.Sound (ydxStream s) := by
  unfold ydxStream; try dsimp only
  repeat' first
    | with_reducible assumption | with_reducible apply ydxSend_sound | with_reducible apply Sound.ite
    | with_reducible refine Sound.foldl (fun _ _ _ => ?_) ?_ | split

theorem seedLoad_sound (h : s.Sound) : State.Sound (seedLoad s) :=
  ⟨h.1, SMap.foldl_put_sorted (SMap.drop_sorted h.2.1 _), SMap.foldl_put_sorted (SMap.drop_sorted h.2.2.1 _), h.2.2.2⟩

theorem seedSearch_sound {b} (h : s.Sound) : State.Sound (seedSearch s b) := by
  unfold seedSearch; try dsimp only
  repeat' first
    | with_reducible assumption | with_reducible apply setF_sound | with_reducible apply wr_sound
    | with_reducible apply setTrg_sound | with_reducible refine Sound.foldl (fun _ _ _ => ?_) ?_
    | with_reducible refine Sound.foldl_fst (fun _ _ _ => ?_) ?_
    | with_reducible refine Sound.of_fst ‹_ = (_, _)› ?_ | split

theorem yodexReplay_sound {b c d e} (h : s.Sound) : State.Sound (yodexReplay s b c d e) := by
  unfold yodexReplay; try dsimp only
  repeat' first
    | with_reducible assumption | with_reducible refine serve_sound ?_ (fun _ _ => ?_)
    | with_reducible apply respond_sound | with_reducible apply acceptAsync_sound
    | with_reducible apply setYdx_sound | with_reducible apply setF_sound
    | with_reducible apply seedSearch_sound | with_reducible apply startRun_sound
    | with_reducible apply seedLoad_sound | with_reducible apply Sound.ite | with_reducible apply Sound.ite_fst
    | with_reducible refine Sound.of_fst ‹_ = (_, _)› ?_

theorem replayUe_sound {b} (h : s.Sound) : State.Sound (replayUe s b) := by
  unfold replayUe; try dsimp only
  repeat' first
    | with_reducible assumption | with_reducible apply lineReport_sound | with_reducible apply setYdx_sound
    | with_reducible apply setF_sound | with_reducible apply bumpBy_sound | with_reducible apply Sound.ite
    | with_reducible refine Sound.foldl (fun _ _ _ => ?_) ?_ | with_reducible apply Sound.ite_fst
    | with_reducible refine Sound.foldl_fst (fun _ _ _ => ?_) ?_
    | with_reducible refine Sound.of_fst ‹_ = (_, _)› ?_

theorem walkOn_sound  (h : s.Sound) : State.Sound (walkOn s) := by
  unfold walkOn; try dsimp only
  repeat' first
    | with_reducible assumption | with_reducible apply setTrg_sound
    | with_reducible refine Sound.of_fst ‹_ = (_, _)› ?_ | split

theorem replayTap_sound {b c} (h : s.Sound) : State.Sound (replayTap s b c) := by
  unfold replayTap; try dsimp only
  repeat' first
    | with_reducible assumption | with_reducible apply tapSignal_sound
    | with_reducible apply horizonAdvance_sound | with_reducible apply Sound.ite
    | with_reducible refine Sound.foldl (fun _ _ _ => ?_) ?_ | with_reducible apply Sound.ite_fst
    | with_reducible refine Sound.foldl_fst (fun _ _ _ => ?_) ?_
    | with_reducible refine Sound.of_fst ‹_ = (_, _)› ?_ | split

theorem replayTick_sound {b} (h : s.Sound) : State.Sound (replayTick s b) := by
  unfold replayTick; try dsimp only
  repeat' first
    | with_reducible assumption | with_reducible apply setF_sound | with_reducible apply replayUe_sound
    | with_reducible apply walkOn_sound | with_reducible apply replayTap_sound | with_reducible apply Sound.ite
    | split

theorem ydxTick_sound {b c} (h : s.Sound) : State.Sound (ydxTick s b c) := by
  unfold ydxTick; try dsimp only
  repeat' first
    | with_reducible assumption | with_reducible apply replayTick_sound | with_reducible apply recordTick_sound

theorem ydxOff_sound  (h : s.Sound) : State.Sound (ydxOff s) := by
  unfold ydxOff; try dsimp only
  repeat' first
    | with_reducible assumption | with_reducible apply recordCut_sound | with_reducible apply recordBegin_sound
    | with_reducible apply setF_sound | with_reducible apply setYdx_sound | with_reducible apply Sound.ite

theorem wordSpoilt_sound {b c} (h : s.Sound) : State.Sound (wordSpoilt s b c) := by
  unfold wordSpoilt
  split
  · exact h
  · exact ⟨writeBytes_wf _ h.1 _, h.2⟩

theorem memCe_sound {b c d e} (h : s.Sound) : State.Sound (memCe s b c d e) := by
  unfold memCe; try dsimp only
  repeat' first
    | with_reducible assumption | with_reducible apply setF_sound | with_reducible apply bump_sound
    | with_reducible apply setMem_sound | with_reducible apply memLog_sound | with_reducible apply Sound.ite
    | with_reducible apply Sound.ite_fst | with_reducible refine Sound.of_fst ‹_ = (_, _)› ?_

theorem wordBad_sound {b c} (h : s.Sound) : State.Sound (wordBad s b c) := by
  unfold wordBad; try dsimp only
  repeat' first
    | with_reducible assumption | fail_if_no_progress with_reducible apply Sound.mk

theorem memUe_sound {b c d e} (h : s.Sound) : State.Sound (memUe s b c d e) := by
  unfold memUe; try dsimp only
  repeat' first
    | with_reducible assumption | with_reducible apply ueReport_sound | with_reducible apply wordBad_sound
    | with_reducible apply Sound.ite | with_reducible refine Sound.foldl (fun _ _ _ => ?_) ?_
    | with_reducible apply Sound.ite_fst | with_reducible refine Sound.foldl_fst (fun _ _ _ => ?_) ?_
    | with_reducible refine Sound.of_fst ‹_ = (_, _)› ?_

theorem refreshIssued_sound {b} (h : s.Sound) : State.Sound (refreshIssued s b) := by
  unfold refreshIssued; try dsimp only
  repeat' first
    | with_reducible assumption | with_reducible apply wr_sound | with_reducible apply setF_sound
    | with_reducible apply Sound.ite | with_reducible refine Sound.foldl (fun _ _ _ => ?_) ?_

theorem refreshInterval_sound {b c d} (h : s.Sound) : State.Sound (refreshInterval s b c d) := by
  unfold refreshInterval; try dsimp only
  repeat' first
    | with_reducible assumption | with_reducible apply refreshIssued_sound | with_reducible apply setF_sound
    | with_reducible apply bump_sound | with_reducible apply Sound.ite

theorem rankMode_sound {b c d} (h : s.Sound) : State.Sound (rankMode s b c d) := by
  unfold rankMode; try dsimp only
  repeat' first
    | with_reducible assumption | with_reducible apply setF_sound | with_reducible apply bump_sound
    | with_reducible apply refreshIssued_sound | with_reducible apply Sound.ite

theorem forceDouble_sound  (h : s.Sound) : State.Sound (forceDouble s) := by
  unfold forceDouble; try dsimp only
  repeat' first
    | with_reducible assumption | with_reducible apply rankMode_sound
    | with_reducible refine Sound.foldl (fun _ _ _ => ?_) ?_

theorem setLevels_sound {b c} (h : s.Sound) : State.Sound (setLevels s b c) := by
  unfold setLevels; try dsimp only
  repeat' first
    | with_reducible assumption | with_reducible apply setF_sound

theorem issueOwed_sound  (h : s.Sound) : State.Sound (issueOwed s) := by
  unfold issueOwed; try dsimp only
  repeat' first
    | with_reducible assumption | with_reducible apply refreshIssued_sound | with_reducible apply setF_sound
    | with_reducible apply Sound.ite | with_reducible refine Sound.foldl (fun _ _ _ => ?_) ?_

theorem memFound_sound {b} (h : s.Sound) : State.Sound (memFound s b) := by
  unfold memFound; try dsimp only
  repeat' first
    | with_reducible assumption | with_reducible apply wordSpoilt_sound | with_reducible apply memCe_sound
    | with_reducible apply Sound.ite | split

theorem memFoundUe_sound {b c} (h : s.Sound) : State.Sound (memFoundUe s b c) := by
  unfold memFoundUe; try dsimp only
  repeat' first
    | with_reducible assumption | with_reducible apply wordBad_sound | with_reducible apply memUe_sound
    | with_reducible apply Sound.ite | with_reducible refine Sound.foldl (fun _ _ _ => ?_) ?_
    | with_reducible apply Sound.ite_fst | with_reducible refine Sound.foldl_fst (fun _ _ _ => ?_) ?_
    | with_reducible refine Sound.of_fst ‹_ = (_, _)› ?_

theorem sweepCtrlWrite_sound {b c d} (h : s.Sound) : State.Sound (sweepCtrlWrite s b c d) := by
  unfold sweepCtrlWrite; try dsimp only
  repeat' first
    | with_reducible assumption | with_reducible apply setF_sound | with_reducible apply leaveSelfRefresh_sound
    | with_reducible apply Sound.ite

theorem dramSweep_sound {b c d} (h : s.Sound) : State.Sound (dramSweep s b c d) := by
  unfold dramSweep; try dsimp only
  repeat' first
    | with_reducible assumption | with_reducible apply respond_sound | with_reducible apply acceptAsync_sound
    | with_reducible apply notice_sound | with_reducible apply setMem_sound | with_reducible apply Sound.ite

theorem trainingFilled_sound {b} (h : s.Sound) : State.Sound (trainingFilled s b) := by
  unfold trainingFilled; try dsimp only
  repeat' first
    | with_reducible assumption | with_reducible apply freeTaken_sound | with_reducible apply dramWrite_sound
    | with_reducible apply Sound.ite | with_reducible refine Sound.foldl (fun _ _ _ => ?_) ?_

theorem sweepEnd_sound {b c} (h : s.Sound) : State.Sound (sweepEnd s b c) := by
  unfold sweepEnd; try dsimp only
  repeat' first
    | with_reducible assumption | with_reducible apply trainingFilled_sound | with_reducible apply setF_sound
    | with_reducible apply fault_sound | with_reducible apply wr_sound
    | with_reducible apply leaveSelfRefresh_sound | with_reducible apply Sound.ite
    | with_reducible refine Sound.foldl (fun _ _ _ => ?_) ?_ | with_reducible apply Sound.ite_fst
    | with_reducible refine Sound.foldl_fst (fun _ _ _ => ?_) ?_
    | with_reducible refine Sound.of_fst ‹_ = (_, _)› ?_ | fail_if_no_progress with_reducible apply Sound.mk

theorem memInit_sound  (h : s.Sound) : State.Sound (memInit s) := by
  unfold memInit; try dsimp only
  repeat' first
    | with_reducible assumption | with_reducible apply setF_sound | with_reducible apply Sound.ite

theorem memStart_sound  (h : s.Sound) : State.Sound (memStart s) := by
  unfold memStart; try dsimp only
  repeat' first
    | with_reducible assumption | with_reducible apply wr_sound | with_reducible apply freeTaken_sound
    | with_reducible apply setMem_sound | with_reducible apply setF_sound
    | with_reducible refine Sound.foldl (fun _ _ _ => ?_) ?_

theorem spdRead_sound (h : s.Sound) : State.Sound (spdRead s) := by
  unfold spdRead
  split
  · exact h
  · have k {p : List Nat} {q : Bool} : State.Sound { s with arch := { s.arch with dimmRefused := q, refusedChannels := p } } :=
      ⟨h.1, h.2.1, h.2.2.1, h.2.2.2⟩
    exact Sound.ite (memStart_sound (refreshLevels_sound (setR_sound k))) (refreshLevels_sound (setR_sound k))

theorem setPwr_sound {f : Pwr → Pwr} (hf : ((f s.pwr).vin && !(f s.pwr).latched && (f s.pwr).resetN) =
    (s.pwr.vin && !s.pwr.latched && s.pwr.resetN)) (h : s.Sound) : State.Sound (setPwr s f) :=
  ⟨h.1, h.2.1, h.2.2.1, h.2.2.2.trans hf.symm⟩

theorem setDomState_sound {b c} (h : s.Sound) : State.Sound (setDomState s b c) := by
  unfold setDomState; try dsimp only
  repeat' first
    | with_reducible assumption | with_reducible apply setB_sound | with_reducible apply setF_sound

theorem powerShow_sound  (h : s.Sound) : State.Sound (powerShow s) := by
  unfold powerShow; try dsimp only
  repeat' first
    | with_reducible assumption | with_reducible apply setF_sound

theorem arraysLost_sound {b} (h : s.Sound) : State.Sound (arraysLost s b) :=
  Sound.dropArrays h rfl rfl ⟨_, by unfold arraysLost; with_reducible rfl⟩ rfl rfl

theorem quadOff_sound {b} (h : s.Sound) : State.Sound (quadOff s b) := by
  unfold quadOff; try dsimp only
  repeat' first
    | with_reducible assumption | with_reducible apply setChz_sound | with_reducible apply setF_sound
    | with_reducible refine Sound.of_fst ‹_ = (_, _)› ?_ | split

theorem exchangeOff_sound  (h : s.Sound) : State.Sound (exchangeOff s) := by
  unfold exchangeOff; try dsimp only
  repeat' first
    | with_reducible assumption | with_reducible apply setF_sound | with_reducible apply bumpBy_sound
    | with_reducible apply holdEnd_sound | with_reducible apply setR_sound | with_reducible apply setXr_sound
    | with_reducible apply abandonInteg_sound | with_reducible apply setChanState_sound
    | with_reducible apply setInteg_sound | with_reducible apply setCor_sound
    | with_reducible apply setBfm_sound | with_reducible apply Sound.ite
    | with_reducible refine Sound.foldl (fun _ _ _ => ?_) ?_ | with_reducible apply Sound.ite_fst
    | with_reducible refine Sound.foldl_fst (fun _ _ _ => ?_) ?_
    | with_reducible refine Sound.of_fst ‹_ = (_, _)› ?_

theorem memoryOff_sound {b} (h : s.Sound) : State.Sound (memoryOff s b) := by
  unfold memoryOff; try dsimp only
  repeat' first
    | with_reducible assumption | with_reducible apply refreshIssued_sound | with_reducible apply setF_sound
    | with_reducible apply bump_sound | with_reducible apply notice_sound | with_reducible apply setMem_sound
    | with_reducible apply panicTally_sound | with_reducible apply Sound.ite
    | with_reducible refine Sound.foldl (fun _ _ _ => ?_) ?_

theorem hostOff_sound  (h : s.Sound) : State.Sound (hostOff s) := by
  unfold hostOff; try dsimp only
  repeat' first
    | with_reducible assumption | with_reducible apply setF_sound | with_reducible apply ringHalt_sound
    | with_reducible apply Sound.ite | with_reducible refine Sound.foldl (fun _ _ _ => ?_) ?_
    | with_reducible apply Sound.ite_fst | with_reducible refine Sound.foldl_fst (fun _ _ _ => ?_) ?_
    | with_reducible refine Sound.of_fst ‹_ = (_, _)› ?_

theorem ringsOff_sound  (h : s.Sound) : State.Sound (ringsOff s) := by
  unfold ringsOff; try dsimp only
  repeat' first
    | with_reducible assumption | with_reducible apply ringStop_sound | with_reducible apply Sound.ite
    | with_reducible refine Sound.foldl (fun _ _ _ => ?_) ?_ | with_reducible apply Sound.ite_fst
    | with_reducible refine Sound.foldl_fst (fun _ _ _ => ?_) ?_
    | with_reducible refine Sound.of_fst ‹_ = (_, _)› ?_ | split

theorem compressionOff_sound  (h : s.Sound) : State.Sound (compressionOff s) := by
  unfold compressionOff; try dsimp only
  repeat' first
    | with_reducible assumption | with_reducible apply setF_sound
    | with_reducible refine Sound.of_fst ‹_ = (_, _)› ?_ | fail_if_no_progress with_reducible apply Sound.mk

theorem domainOff_sound {b} (h : s.Sound) : State.Sound (domainOff s b) := by
  unfold domainOff; try dsimp only
  repeat' first
    | with_reducible assumption | with_reducible apply arraysLost_sound | with_reducible apply coreReset_sound
    | with_reducible apply quadOff_sound | with_reducible apply laneOff_sound
    | with_reducible apply sectorOff_sound | with_reducible apply exchangeOff_sound
    | with_reducible apply trgLost_sound | with_reducible apply memoryOff_sound
    | with_reducible apply hostOff_sound | with_reducible apply compressionOff_sound
    | with_reducible apply ydxOff_sound | with_reducible apply ringsOff_sound | with_reducible apply Sound.ite
    | with_reducible refine Sound.foldl (fun _ _ _ => ?_) ?_

theorem exchangeOn_sound  (h : s.Sound) : State.Sound (exchangeOn s) := by
  unfold exchangeOn; try dsimp only
  repeat' first
    | with_reducible assumption | with_reducible apply corEnable_sound | with_reducible apply setF_sound
    | with_reducible apply Sound.ite

theorem triggerOn_sound  (h : s.Sound) : State.Sound (triggerOn s) := by
  unfold triggerOn; try dsimp only
  repeat' first
    | with_reducible assumption | with_reducible apply setTrgEnable_sound | with_reducible apply setF_sound
    | with_reducible apply Sound.ite

theorem coreOn_sound {b} (h : s.Sound) : State.Sound (coreOn s b) := by
  unfold coreOn; try dsimp only
  repeat' first
    | with_reducible assumption | with_reducible apply brlRun_sound | with_reducible apply Sound.ite
    | fail_if_no_progress with_reducible apply Sound.mk

theorem domainOn_sound {b} (h : s.Sound) : State.Sound (domainOn s b) := by
  unfold domainOn; try dsimp only
  repeat' first
    | with_reducible assumption | with_reducible apply coreOn_sound | with_reducible apply lanePowered_sound
    | with_reducible apply sectorOn_sound | with_reducible apply exchangeOn_sound
    | with_reducible apply triggerOn_sound | with_reducible apply spdRead_sound
    | with_reducible apply Sound.ite | with_reducible refine Sound.foldl (fun _ _ _ => ?_) ?_

theorem openSwitches_sound {b} (h : s.Sound) : State.Sound (openSwitches s b) := by
  unfold openSwitches; try dsimp only
  repeat' first
    | with_reducible assumption | with_reducible apply domainOff_sound | with_reducible apply setDomState_sound

theorem forceIsolate_sound {b} (h : s.Sound) : State.Sound (forceIsolate s b) := by
  unfold forceIsolate; try dsimp only
  repeat' first
    | with_reducible assumption | with_reducible apply openSwitches_sound | with_reducible apply setF_sound
    | with_reducible apply bump_sound | with_reducible apply Sound.ite

theorem forceIsolateAll_sound {b} (h : s.Sound) : State.Sound (forceIsolateAll s b) := by
  unfold forceIsolateAll; try dsimp only
  repeat' first
    | with_reducible assumption | with_reducible apply powerShow_sound
    | with_reducible apply forceIsolate_sound | with_reducible apply Sound.ite
    | with_reducible refine Sound.foldl (fun _ _ _ => ?_) ?_

theorem beginDown_sound {b} (h : s.Sound) : State.Sound (beginDown s b) := by
  unfold beginDown; try dsimp only
  repeat' first
    | with_reducible assumption | with_reducible apply brlRun_sound | with_reducible apply setDomState_sound
    | with_reducible apply Sound.ite

theorem powerNext_sound  (h : s.Sound) : State.Sound (powerNext s) := by
  unfold powerNext; try dsimp only
  repeat' first
    | with_reducible assumption | with_reducible apply powerShow_sound | with_reducible apply setDomState_sound
    | with_reducible apply beginDown_sound | with_reducible apply Sound.ite | split

theorem powerDone_sound {b c} (h : s.Sound) : State.Sound (powerDone s b c) := by
  unfold powerDone; try dsimp only
  repeat' first
    | with_reducible assumption | with_reducible apply raise_sound | with_reducible apply bump_sound
    | with_reducible apply setDomState_sound | with_reducible apply powerNext_sound
    | with_reducible apply domainOn_sound | with_reducible apply Sound.ite

theorem pwrReqWrite_sound {b c} (h : s.Sound) : State.Sound (pwrReqWrite s b c) := by
  unfold pwrReqWrite; try dsimp only
  repeat' first
    | with_reducible assumption | with_reducible apply setB_sound | with_reducible apply setF_sound
    | with_reducible apply bump_sound | with_reducible apply powerNext_sound | with_reducible apply Sound.ite
    | with_reducible refine Sound.foldl (fun _ _ _ => ?_) ?_

theorem pwrgoodLow_sound  (h : s.Sound) : State.Sound (pwrgoodLow s) := by
  unfold pwrgoodLow; try dsimp only
  repeat' first
    | with_reducible assumption | with_reducible apply emit_sound | with_reducible refine setPwr_sound rfl ?_
    | with_reducible apply Sound.ite

theorem thermalTrip_sound  (h : s.Sound) : State.Sound (thermalTrip s) := by
  unfold thermalTrip; try dsimp only
  repeat' first
    | with_reducible assumption | with_reducible apply forceIsolateAll_sound | with_reducible apply setF_sound
    | with_reducible apply pwrgoodLow_sound | with_reducible refine setPwr_sound rfl ?_

theorem thermalAct_sound {b} (h : s.Sound) : State.Sound (thermalAct s b) := by
  unfold thermalAct; try dsimp only
  repeat' first
    | with_reducible assumption | with_reducible apply raise_sound | with_reducible apply setF_sound
    | with_reducible apply bump_sound | with_reducible apply thermalTrip_sound
    | with_reducible apply refreshLevels_sound | with_reducible apply Sound.ite

theorem thermalSample_sound {b c} (h : s.Sound) : State.Sound (thermalSample s b c) := by
  unfold thermalSample; try dsimp only
  repeat' first
    | with_reducible assumption | with_reducible apply setR_sound | with_reducible apply wr_sound
    | with_reducible apply thermalAct_sound | with_reducible refine setPwr_sound rfl ?_
    | with_reducible apply Sound.ite | with_reducible refine Sound.foldl (fun _ _ _ => ?_) ?_
    | with_reducible apply Sound.ite_fst | with_reducible refine Sound.foldl_fst (fun _ _ _ => ?_) ?_
    | with_reducible refine Sound.of_fst ‹_ = (_, _)› ?_ | split

theorem setClk_sound {b} (h : s.Sound) : State.Sound (setClk s b) := by
  unfold setClk; try dsimp only
  repeat' first
    | with_reducible assumption | fail_if_no_progress with_reducible apply Sound.mk

theorem stepCounter_sound {b} (h : s.Sound) : State.Sound (stepCounter s b) := by
  have k : State.Sound (raise (bump s R.CLK_STEP_COUNT) 26) := raise_sound (bump_sound h)
  unfold stepCounter; dsimp only
  refine ⟨k.1, k.2.1, k.2.2.1, ?_⟩
  have e := k.2.2.2
  dsimp only
  split <;> [split; skip] <;> exact e

theorem sourceOut_sound {b} (h : s.Sound) : State.Sound (sourceOut s b) := by
  unfold sourceOut; try dsimp only
  repeat' first
    | with_reducible assumption | with_reducible apply setClk_sound
    | with_reducible refine Sound.of_fst ‹_ = (_, _)› ?_

theorem refShow_sound  (h : s.Sound) : State.Sound (refShow s) := by
  unfold refShow; try dsimp only
  repeat' first
    | with_reducible assumption | with_reducible apply setF_sound | with_reducible apply setR_sound
    | with_reducible refine Sound.foldl (fun _ _ _ => ?_) ?_
    | with_reducible refine Sound.foldl_fst (fun _ _ _ => ?_) ?_
    | with_reducible refine Sound.of_fst ‹_ = (_, _)› ?_

theorem setDpll_sound {b} (h : s.Sound) : State.Sound (setDpll s b) := by
  unfold setDpll; try dsimp only
  repeat' first
    | with_reducible assumption | with_reducible apply setF_sound | with_reducible apply refreshLevels_sound
    | with_reducible apply Sound.ite

theorem enterHoldover_sound  (h : s.Sound) : State.Sound (enterHoldover s) := by
  unfold enterHoldover; try dsimp only
  repeat' first
    | with_reducible assumption | with_reducible apply raise_sound | with_reducible apply bump_sound
    | with_reducible apply setR_sound | with_reducible apply setDpll_sound | with_reducible apply setF_sound

theorem setSelected_sound {b} (h : s.Sound) : State.Sound (setSelected s b) := by
  unfold setSelected; try dsimp only
  repeat' first
    | with_reducible assumption | with_reducible apply setF_sound

theorem startSwitch_sound {b c} (h : s.Sound) : State.Sound (startSwitch s b c) := by
  unfold startSwitch; try dsimp only
  repeat' first
    | with_reducible assumption | with_reducible apply setR_sound | with_reducible apply freeTaken_sound
    | with_reducible apply setClk_sound | with_reducible apply setDpll_sound | with_reducible apply Sound.ite
    | with_reducible apply Sound.ite_fst | with_reducible refine Sound.of_fst ‹_ = (_, _)› ?_ | split

theorem startAcquire_sound {b} (h : s.Sound) : State.Sound (startAcquire s b) := by
  unfold startAcquire; try dsimp only
  repeat' first
    | with_reducible assumption | with_reducible apply setDpll_sound | with_reducible apply setSelected_sound
    | with_reducible apply Sound.ite | with_reducible apply Sound.ite_fst
    | with_reducible refine Sound.of_fst ‹_ = (_, _)› ?_

theorem disagree_sound  (h : s.Sound) : State.Sound (disagree s) := by
  unfold disagree; try dsimp only
  repeat' first
    | with_reducible assumption | with_reducible apply setF_sound | with_reducible apply Sound.ite
    | with_reducible refine Sound.foldl (fun _ _ _ => ?_) ?_ | with_reducible apply Sound.ite_fst
    | with_reducible refine Sound.foldl_fst (fun _ _ _ => ?_) ?_
    | with_reducible refine Sound.of_fst ‹_ = (_, _)› ?_

theorem evaluate_sound  (h : s.Sound) : State.Sound (evaluate s) := by
  unfold evaluate; try dsimp only
  repeat' first
    | with_reducible assumption | with_reducible apply refShow_sound | with_reducible apply setClk_sound
    | with_reducible apply enterHoldover_sound | with_reducible apply startAcquire_sound
    | with_reducible apply startSwitch_sound | with_reducible apply disagree_sound
    | with_reducible apply Sound.ite | with_reducible refine Sound.foldl (fun _ _ _ => ?_) ?_ | split

theorem qualChange_sound  (h : s.Sound) : State.Sound (qualChange s) := by
  unfold qualChange; try dsimp only
  repeat' first
    | with_reducible assumption | with_reducible apply sourceOut_sound | with_reducible apply evaluate_sound
    | with_reducible apply Sound.ite | with_reducible apply Sound.ite_fst
    | with_reducible refine Sound.of_fst ‹_ = (_, _)› ?_

theorem addRemain_sound {b} (h : s.Sound) : State.Sound (addRemain s b) := by
  unfold addRemain; try dsimp only
  repeat' first
    | with_reducible assumption | with_reducible apply setR_sound | with_reducible apply freeTaken_sound
    | with_reducible apply Sound.ite

theorem slew_sound  (h : s.Sound) : State.Sound (slew s) := by
  unfold slew; try dsimp only
  repeat' first
    | with_reducible assumption | with_reducible apply setR_sound | with_reducible apply Sound.ite

theorem sourceMeasured_sound {b} (h : s.Sound) : State.Sound (sourceMeasured s b) := by
  unfold sourceMeasured; try dsimp only
  repeat' first
    | with_reducible assumption | with_reducible apply setClk_sound | with_reducible apply sourceOut_sound
    | with_reducible apply Sound.ite | with_reducible apply Sound.ite_fst
    | with_reducible refine Sound.of_fst ‹_ = (_, _)› ?_

theorem sourceLost_sound {b} (h : s.Sound) : State.Sound (sourceLost s b) := by
  unfold sourceLost; try dsimp only
  repeat' first
    | with_reducible assumption | with_reducible apply setClk_sound | with_reducible apply bump_sound
    | with_reducible apply setF_sound | with_reducible apply sourceOut_sound | with_reducible apply Sound.ite
    | with_reducible refine Sound.foldl (fun _ _ _ => ?_) ?_ | with_reducible apply Sound.ite_fst
    | with_reducible refine Sound.foldl_fst (fun _ _ _ => ?_) ?_
    | with_reducible refine Sound.of_fst ‹_ = (_, _)› ?_

theorem lanesLost_sound  (h : s.Sound) : State.Sound (lanesLost s) := by
  unfold lanesLost; try dsimp only
  repeat' first
    | with_reducible assumption | with_reducible apply sourceLost_sound | with_reducible apply Sound.ite
    | with_reducible refine Sound.foldl (fun _ _ _ => ?_) ?_ | with_reducible apply Sound.ite_fst
    | with_reducible refine Sound.foldl_fst (fun _ _ _ => ?_) ?_
    | with_reducible refine Sound.of_fst ‹_ = (_, _)› ?_

theorem holdAverage_sound  (h : s.Sound) : State.Sound (holdAverage s) := by
  unfold holdAverage; try dsimp only
  repeat' first
    | with_reducible assumption | with_reducible apply setR_sound | with_reducible apply freeTaken_sound
    | with_reducible apply Sound.ite

theorem holdUpdate_sound {b} (h : s.Sound) : State.Sound (holdUpdate s b) := by
  unfold holdUpdate; try dsimp only
  repeat' first
    | with_reducible assumption | with_reducible apply holdAverage_sound | with_reducible apply setClk_sound
    | with_reducible apply Sound.ite

theorem milestone_sound {b} (h : s.Sound) : State.Sound (milestone s b) := by
  unfold milestone; try dsimp only
  repeat' first
    | with_reducible assumption | with_reducible apply setR_sound | with_reducible apply refreshLevels_sound
    | with_reducible apply raise_sound | with_reducible apply setF_sound | with_reducible apply Sound.ite

theorem refLost_sound {b c} (h : s.Sound) : State.Sound (refLost s b c) := by
  unfold refLost; try dsimp only
  repeat' first
    | with_reducible assumption | with_reducible apply evaluate_sound | with_reducible apply sourceLost_sound
    | with_reducible apply sourceOut_sound | with_reducible apply Sound.ite
    | with_reducible apply Sound.ite_fst | with_reducible refine Sound.of_fst ‹_ = (_, _)› ?_

theorem ppsInterval_sound {b c d} (h : s.Sound) : State.Sound (ppsInterval s b c d) := by
  unfold ppsInterval; try dsimp only
  repeat' first
    | with_reducible assumption | with_reducible apply setClk_sound | with_reducible apply evaluate_sound
    | with_reducible apply sourceOut_sound | with_reducible apply Sound.ite
    | with_reducible apply Sound.ite_fst | with_reducible refine Sound.of_fst ‹_ = (_, _)› ?_

theorem ppsAccept_sound {b c} (h : s.Sound) : State.Sound (ppsAccept s b c) := by
  unfold ppsAccept; try dsimp only
  repeat' first
    | with_reducible assumption | with_reducible apply advanceTo_sound | with_reducible apply setClk_sound
    | with_reducible apply setPair_sound | with_reducible apply stepCounter_sound
    | with_reducible apply setF_sound | with_reducible apply setR_sound | with_reducible apply freeTaken_sound
    | with_reducible apply Sound.ite | with_reducible apply Sound.ite_fst
    | with_reducible refine Sound.of_fst ‹_ = (_, _)› ?_

theorem ppsEdge_sound {b c d e} (h : s.Sound) : State.Sound (ppsEdge s b c d e) := by
  unfold ppsEdge; try dsimp only
  repeat' first
    | with_reducible assumption | with_reducible apply bump_sound | with_reducible apply ppsAccept_sound
    | with_reducible apply ppsInterval_sound | with_reducible apply Sound.ite | split

theorem steerWrite_sound {b c} (h : s.Sound) : State.Sound (steerWrite s b c) := by
  unfold steerWrite; try dsimp only
  repeat' first
    | with_reducible assumption | with_reducible apply evaluate_sound | with_reducible apply setClk_sound
    | with_reducible apply setR_sound | with_reducible apply Sound.ite | split

theorem phaseAdjWrite_sound {b c} (h : s.Sound) : State.Sound (phaseAdjWrite s b c) := by
  unfold phaseAdjWrite; try dsimp only
  repeat' first
    | with_reducible assumption | with_reducible apply addRemain_sound | with_reducible apply Sound.ite

theorem setTimeArm_sound {b} (h : s.Sound) : State.Sound (setTimeArm s b) := by
  unfold setTimeArm; try dsimp only
  repeat' first
    | with_reducible assumption | with_reducible apply writePairHigh_sound | with_reducible apply setF_sound
    | with_reducible apply setClk_sound | with_reducible apply stepCounter_sound
    | with_reducible apply Sound.ite

theorem frameOutRise_sound  (h : s.Sound) : State.Sound (frameOutRise s) := by
  unfold frameOutRise; try dsimp only
  repeat' first
    | with_reducible assumption | with_reducible apply emit_sound | with_reducible apply setClk_sound
    | with_reducible apply Sound.ite

theorem outputsCheck_sound  (h : s.Sound) : State.Sound (outputsCheck s) := by
  unfold outputsCheck; try dsimp only
  repeat' first
    | with_reducible assumption | with_reducible apply emit_sound | with_reducible apply setClk_sound
    | with_reducible apply Sound.ite

theorem setPtp_sound {b} (h : s.Sound) : State.Sound (setPtp s b) := by
  unfold setPtp; try dsimp only
  repeat' first
    | with_reducible assumption | fail_if_no_progress with_reducible apply Sound.mk

theorem setPort_sound {b c} (h : s.Sound) : State.Sound (setPort s b c) := by
  unfold setPort; try dsimp only
  repeat' first
    | with_reducible assumption | with_reducible apply setF_sound | with_reducible apply Sound.ite

theorem measureLatency_sound {b c d} (h : s.Sound) : State.Sound (measureLatency s b c d) := by
  unfold measureLatency; try dsimp only
  repeat' first
    | with_reducible assumption | with_reducible apply setR_sound | with_reducible apply setPtp_sound
    | with_reducible apply Sound.ite

theorem measureFrame_sound {b c d} (h : s.Sound) : State.Sound (measureFrame s b c d) := by
  unfold measureFrame; try dsimp only
  repeat' first
    | with_reducible assumption | with_reducible apply measureLatency_sound | with_reducible apply Sound.ite

theorem mediumTime_sound {b c d} (h : s.Sound) : State.Sound (mediumTime s b c d).1 := by
  unfold mediumTime; try dsimp only
  repeat' first
    | with_reducible assumption | with_reducible apply bump_sound | with_reducible apply setPtp_sound
    | with_reducible apply Sound.ite | with_reducible apply Sound.ite_fst
    | with_reducible refine Sound.of_fst ‹_ = (_, _)› ?_

theorem tcForward_sound {b c d} (h : s.Sound) : State.Sound (tcForward s b c d) := by
  unfold tcForward; try dsimp only
  repeat' first
    | with_reducible assumption | with_reducible apply emit_sound | with_reducible apply bump_sound
    | with_reducible apply Sound.ite

theorem tcForwardEvent_sound {b c d e f} (h : s.Sound) : State.Sound (tcForwardEvent s b c d e f) := by
  unfold tcForwardEvent; try dsimp only
  repeat' first
    | with_reducible assumption | with_reducible apply mediumTime_sound | with_reducible apply emit_sound
    | with_reducible apply bump_sound | with_reducible apply measureFrame_sound
    | with_reducible apply Sound.ite | with_reducible apply Sound.ite_fst
    | with_reducible refine Sound.of_fst ‹_ = (_, _)› ?_ | split

theorem choosePorts_sound  (h : s.Sound) : State.Sound (choosePorts s) := by
  unfold choosePorts; try dsimp only
  repeat' first
    | with_reducible assumption | with_reducible apply qualChange_sound | with_reducible apply setPort_sound
    | with_reducible apply setR_sound | with_reducible apply setPair_sound | with_reducible apply setPtp_sound
    | with_reducible apply Sound.ite | with_reducible refine Sound.foldl (fun _ _ _ => ?_) ?_
    | with_reducible apply Sound.ite_fst | with_reducible refine Sound.foldl_fst (fun _ _ _ => ?_) ?_
    | with_reducible refine Sound.of_fst ‹_ = (_, _)› ?_ | split

theorem ptpReceive_sound {b c} {d : State → State} (h : s.Sound) (hd : ∀ s, State.Sound s → State.Sound (d s)) : State.Sound (ptpReceive s b c d) := by
  unfold ptpReceive; try dsimp only
  repeat' first
    | with_reducible assumption | with_reducible apply bump_sound | with_reducible apply hd
    | with_reducible apply Sound.ite

theorem ptpArrives_sound {b c} {d : State → State} (h : s.Sound) (hd : ∀ s, State.Sound s → State.Sound (d s)) : State.Sound (ptpArrives s b c d) := by
  unfold ptpArrives; try dsimp only
  repeat' first
    | with_reducible assumption | with_reducible apply bump_sound | with_reducible apply tcForward_sound
    | with_reducible refine ptpReceive_sound ?_ (fun _ _ => ?_) | with_reducible apply hd
    | with_reducible apply Sound.ite | split

theorem stepByOffset_sound {b} (h : s.Sound) : State.Sound (stepByOffset s b) := by
  unfold stepByOffset; try dsimp only
  repeat' first
    | with_reducible assumption | with_reducible apply stepCounter_sound | with_reducible apply addRemain_sound
    | with_reducible apply setPtp_sound | with_reducible refine Sound.of_fst ‹_ = (_, _)› ?_

theorem servoCorrect_sound  (h : s.Sound) : State.Sound (servoCorrect s) := by
  unfold servoCorrect; try dsimp only
  repeat' first
    | with_reducible assumption | with_reducible apply freeTaken_sound | with_reducible apply setR_sound
    | with_reducible apply Sound.ite

theorem setTimeFault_sound {b} (h : s.Sound) : State.Sound (setTimeFault s b) := by
  unfold setTimeFault; try dsimp only
  repeat' first
    | with_reducible assumption | with_reducible apply refreshLevels_sound | with_reducible apply setF_sound
    | with_reducible apply raise_sound | with_reducible apply setPtp_sound | with_reducible apply Sound.ite

theorem newOffset_sound {b c d} (h : s.Sound) : State.Sound (newOffset s b c d) := by
  unfold newOffset; try dsimp only
  repeat' first
    | with_reducible assumption | with_reducible apply setR_sound | with_reducible apply setPtp_sound
    | with_reducible apply setF_sound | with_reducible apply stepByOffset_sound
    | with_reducible apply setPort_sound | with_reducible apply setTimeFault_sound
    | with_reducible apply qualChange_sound | with_reducible apply servoCorrect_sound
    | with_reducible apply Sound.ite | with_reducible refine Sound.foldl (fun _ _ _ => ?_) ?_ | split

theorem syncDone_sound {b c} (h : s.Sound) : State.Sound (syncDone s b c) := by
  unfold syncDone; try dsimp only
  repeat' first
    | with_reducible assumption | with_reducible apply setPtp_sound | with_reducible apply newOffset_sound
    | with_reducible refine Sound.of_fst ‹_ = (_, _)› ?_

theorem measureBegin_sound {b c d} (h : s.Sound) : State.Sound (measureBegin s b c d) := by
  unfold measureBegin; try dsimp only
  repeat' first
    | with_reducible assumption | with_reducible apply measureLatency_sound

theorem measureWrite_sound {b c d} (h : s.Sound) : State.Sound (measureWrite s b c d) := by
  unfold measureWrite; try dsimp only
  repeat' first
    | with_reducible assumption | with_reducible apply measureBegin_sound | with_reducible apply Sound.ite

theorem setPtpEnable_sound {b c} (h : s.Sound) : State.Sound (setPtpEnable s b c) := by
  unfold setPtpEnable; try dsimp only
  repeat' first
    | with_reducible assumption | with_reducible apply setF_sound | with_reducible apply setPort_sound
    | with_reducible apply setPtp_sound | with_reducible apply choosePorts_sound
    | with_reducible apply Sound.ite | with_reducible refine Sound.foldl (fun _ _ _ => ?_) ?_

theorem faultClear_sound  (h : s.Sound) : State.Sound (faultClear s) := by
  unfold faultClear; try dsimp only
  repeat' first
    | with_reducible assumption | with_reducible apply setTimeFault_sound
    | with_reducible apply addRemain_sound | with_reducible apply Sound.ite | split

theorem stepPermit_sound {b c} (h : s.Sound) : State.Sound (stepPermit s b c) := by
  unfold stepPermit; try dsimp only
  repeat' first
    | with_reducible assumption | with_reducible apply stepByOffset_sound
    | with_reducible apply setTimeFault_sound | with_reducible apply respond_sound
    | with_reducible apply Sound.ite | split

theorem plainWrite_sound {b c} (h : s.Sound) : State.Sound (plainWrite s b c) := by
  unfold plainWrite; try dsimp only
  repeat' first
    | with_reducible assumption | with_reducible apply writePairLow_sound
    | with_reducible apply writePairHigh_sound | with_reducible apply wr_sound | with_reducible apply Sound.ite

theorem clkWrite_sound {b c d} (h : s.Sound) : State.Sound (clkWrite s b c d) := by
  unfold clkWrite; try dsimp only
  repeat' first
    | with_reducible assumption | with_reducible apply steerWrite_sound
    | with_reducible apply phaseAdjWrite_sound | with_reducible apply setTimeArm_sound
    | with_reducible apply plainWrite_sound | with_reducible apply qualChange_sound
    | with_reducible apply outputsCheck_sound | with_reducible apply setF_sound
    | with_reducible apply setPtpEnable_sound | with_reducible apply faultClear_sound
    | with_reducible apply measureWrite_sound | with_reducible apply Sound.ite

theorem settingsSave_sound  (h : s.Sound) : State.Sound (settingsSave s) := by
  unfold settingsSave; try dsimp only
  repeat' first
    | with_reducible assumption | with_reducible apply Sound.ite
    | fail_if_no_progress with_reducible apply Sound.mk

theorem settingsRestore_sound {b} (h : s.Sound) : State.Sound (settingsRestore s b) := by
  unfold settingsRestore; try dsimp only
  repeat' first
    | with_reducible assumption | with_reducible apply clkWrite_sound | with_reducible apply Sound.ite
    | with_reducible refine Sound.foldl (fun _ _ _ => ?_) ?_ | with_reducible apply Sound.ite_fst
    | with_reducible refine Sound.foldl_fst (fun _ _ _ => ?_) ?_
    | with_reducible refine Sound.of_fst ‹_ = (_, _)› ?_

theorem setStr_sound {b} (h : s.Sound) : State.Sound (setStr s b) := by
  unfold setStr; try dsimp only
  repeat' first
    | with_reducible assumption | fail_if_no_progress with_reducible apply Sound.mk

theorem recordWriteFlash_sound {b c d e f g} (h : s.Sound) : State.Sound (recordWriteFlash s b c d e f g) := by
  unfold recordWriteFlash; try dsimp only
  repeat' first
    | with_reducible assumption | with_reducible apply setStr_sound

theorem relaySendFrame_sound {b c d e f g i} (h : s.Sound) : State.Sound (relaySendFrame s b c d e f g i) := by
  unfold relaySendFrame; try dsimp only
  repeat' first
    | with_reducible assumption | with_reducible apply emit_sound | with_reducible apply Sound.ite

theorem slotShow_sound {b c d} (h : s.Sound) : State.Sound (slotShow s b c d) := by
  unfold slotShow; try dsimp only
  repeat' first
    | with_reducible assumption | with_reducible apply setPair_sound | with_reducible apply setF_sound

theorem slotsShow_sound  (h : s.Sound) : State.Sound (slotsShow s) := by
  unfold slotsShow; try dsimp only
  repeat' first
    | with_reducible assumption | with_reducible apply slotShow_sound | with_reducible apply Sound.ite
    | with_reducible refine Sound.foldl (fun _ _ _ => ?_) ?_ | split

theorem firmwareRuns_sound {b} (h : s.Sound) : State.Sound (firmwareRuns s b) := by
  unfold firmwareRuns; try dsimp only
  repeat' first
    | with_reducible assumption | with_reducible apply setStr_sound | with_reducible apply setR_sound

theorem fallbackReport_sound {b c d} (h : s.Sound) : State.Sound (fallbackReport s b c d) := by
  unfold fallbackReport; try dsimp only
  repeat' first
    | with_reducible assumption | with_reducible apply setF_sound | with_reducible apply notice_sound
    | with_reducible apply fault_sound | with_reducible apply bump_sound
    | with_reducible apply relaySendFrame_sound | with_reducible refine Sound.foldl (fun _ _ _ => ?_) ?_

theorem trialFailed_sound {b} (h : s.Sound) : State.Sound (trialFailed s b) := by
  unfold trialFailed; try dsimp only
  repeat' first
    | with_reducible assumption | with_reducible apply setF_sound | with_reducible apply recordWriteFlash_sound

theorem bootSlot_sound {b} (h : s.Sound) : State.Sound (bootSlot s b) := by
  unfold bootSlot; try dsimp only
  repeat' first
    | with_reducible assumption | with_reducible apply setF_sound | with_reducible apply firmwareRuns_sound
    | with_reducible apply settingsSave_sound | with_reducible apply setStr_sound
    | with_reducible apply settingsRestore_sound | with_reducible apply Sound.ite
    | fail_if_no_progress with_reducible apply Sound.mk

theorem slotRejected_sound {b c d} (h : s.Sound) : State.Sound (slotRejected s b c d) := by
  unfold slotRejected; try dsimp only
  repeat' first
    | with_reducible assumption | with_reducible apply setF_sound | with_reducible apply bump_sound
    | with_reducible apply Sound.ite

theorem flashBoot_sound  (h : s.Sound) : State.Sound (flashBoot s) := by
  unfold flashBoot; try dsimp only
  repeat' first
    | with_reducible assumption | with_reducible apply recordWriteFlash_sound
    | with_reducible apply trialFailed_sound | with_reducible apply fallbackReport_sound
    | with_reducible apply bootSlot_sound | with_reducible apply slotRejected_sound
    | with_reducible apply setF_sound | with_reducible apply Sound.ite | with_reducible apply Sound.ite_fst
    | with_reducible refine Sound.of_fst ‹_ = (_, _)› ?_ | split

theorem boot_sound  (h : s.Sound) : State.Sound (boot s) := by
  unfold boot; try dsimp only
  repeat' first
    | with_reducible assumption | with_reducible apply setF_sound | with_reducible apply slotsShow_sound
    | with_reducible apply flashBoot_sound | with_reducible apply powerNext_sound
    | with_reducible apply setB_sound | with_reducible apply Sound.ite
    | with_reducible refine Sound.foldl (fun _ _ _ => ?_) ?_

theorem resetChip_sound {b} (h : s.Sound) : State.Sound (resetChip s b) := by
  unfold resetChip; dsimp only
  refine Sound.ite (fault_sound (setF_sound (wr_sound ?_))) (setF_sound (wr_sound ?_)) <;>
    exact ⟨h.1, SMap.nil_sorted, SMap.nil_sorted, h.2.2.2⟩

/-- What is left of soundness while `up` does not show the pins. -/
theorem upShow_sound (h1 : Memory.wf s.dram) (h2 : SMap.Sorted s.regs) (h3 : SMap.Sorted s.arrays) :
    State.Sound (upShow s) := ⟨h1, h2, h3, rfl⟩

theorem railFault_sound {b} (h : s.Sound) : State.Sound (railFault s b) := by
  unfold railFault; dsimp only
  refine Sound.ite h (Sound.ite (pwrgoodLow_sound (upShow_sound h.1 h.2.1 h.2.2.1)) ?_)
  apply refreshLevels_sound; apply setF_sound; apply forceIsolateAll_sound
  exact Sound.ite (pwrgoodLow_sound (setPwr_sound rfl h)) (setPwr_sound rfl h)

theorem chipResetWrite_sound {b} (h : s.Sound) : State.Sound (chipResetWrite s b) := by
  unfold chipResetWrite; try dsimp only
  repeat' first
    | with_reducible assumption | with_reducible apply boot_sound | with_reducible apply resetChip_sound
    | with_reducible apply Sound.ite

theorem setEvt_sound {b} (h : s.Sound) : State.Sound (setEvt s b) := by
  unfold setEvt; try dsimp only
  repeat' first
    | with_reducible assumption | fail_if_no_progress with_reducible apply Sound.mk

theorem groupSwitch_sound {b c d} (h : s.Sound) : State.Sound (groupSwitch s b c d) := by
  unfold groupSwitch; try dsimp only
  repeat' first
    | with_reducible assumption | with_reducible apply setEvt_sound | with_reducible apply setB_sound
    | with_reducible apply Sound.ite | with_reducible apply Sound.ite_fst
    | with_reducible refine Sound.of_fst ‹_ = (_, _)› ?_

theorem channelPulse_sound {b c} (h : s.Sound) : State.Sound (channelPulse s b c) := by
  unfold channelPulse; try dsimp only
  repeat' first
    | with_reducible assumption | with_reducible apply setPairB_sound | with_reducible apply bump_sound
    | with_reducible apply setEvt_sound | with_reducible apply Sound.ite | with_reducible apply Sound.ite_fst
    | with_reducible refine Sound.of_fst ‹_ = (_, _)› ?_

theorem eventRoute_sound {b c} (h : s.Sound) : State.Sound (eventRoute s b c) := by
  unfold eventRoute; try dsimp only
  repeat' first
    | with_reducible assumption | with_reducible apply bumpBy_sound | with_reducible apply setEvt_sound
    | with_reducible apply channelPulse_sound | with_reducible apply Sound.ite
    | with_reducible refine Sound.foldl (fun _ _ _ => ?_) ?_ | with_reducible apply Sound.ite_fst
    | with_reducible refine Sound.foldl_fst (fun _ _ _ => ?_) ?_
    | with_reducible refine Sound.of_fst ‹_ = (_, _)› ?_ | fail_if_no_progress with_reducible apply Sound.mk
    | split

theorem evioDrive_sound {b c} (h : s.Sound) : State.Sound (evioDrive s b c) := by
  unfold evioDrive; try dsimp only
  repeat' first
    | with_reducible assumption | with_reducible apply emit_sound

theorem consumerAct_sound {b c d} (h : s.Sound) : State.Sound (consumerAct s b c d) := by
  unfold consumerAct; try dsimp only
  repeat' first
    | with_reducible assumption | with_reducible apply brlPend_sound | with_reducible apply msix_sound
    | with_reducible apply setEvt_sound | with_reducible apply evioDrive_sound
    | with_reducible apply fireTrigger_sound | with_reducible apply groupSwitch_sound
    | with_reducible apply doorbell_sound | with_reducible apply setPair_sound
    | with_reducible apply raise_sound | with_reducible apply setR_sound | with_reducible apply Sound.ite
    | with_reducible apply Sound.ite_fst | with_reducible refine Sound.of_fst ‹_ = (_, _)› ?_

theorem consumerActivation_sound {b c} (h : s.Sound) : State.Sound (consumerActivation s b c) := by
  unfold consumerActivation; try dsimp only
  repeat' first
    | with_reducible assumption | with_reducible apply setEvt_sound | with_reducible apply bumpF_sound
    | with_reducible apply consumerAct_sound | with_reducible apply bump_sound | with_reducible apply Sound.ite
    | with_reducible apply Sound.ite_fst | with_reducible refine Sound.of_fst ‹_ = (_, _)› ?_ | split

theorem swFire_sound {b} (h : s.Sound) : State.Sound (swFire s b) := by
  unfold swFire; try dsimp only
  repeat' first
    | with_reducible assumption | with_reducible apply raise_sound
    | with_reducible refine Sound.foldl (fun _ _ _ => ?_) ?_

theorem evioEdge_sound {b c d e f} (h : s.Sound) : State.Sound (evioEdge s b c d e f) := by
  unfold evioEdge; try dsimp only
  repeat' first
    | with_reducible assumption | with_reducible apply bump_sound | with_reducible apply setEvt_sound
    | with_reducible apply raise_sound | with_reducible apply setPair_sound | with_reducible apply Sound.ite

theorem evioCfgWrite_sound {b c} (h : s.Sound) : State.Sound (evioCfgWrite s b c) := by
  unfold evioCfgWrite; try dsimp only
  repeat' first
    | with_reducible assumption | with_reducible apply wr_sound | with_reducible apply setEvt_sound
    | with_reducible apply evioDrive_sound | with_reducible apply Sound.ite

theorem channelCfgWrite_sound {b c d} (h : s.Sound) : State.Sound (channelCfgWrite s b c d) := by
  unfold channelCfgWrite; try dsimp only
  repeat' first
    | with_reducible assumption | with_reducible apply setF_sound | with_reducible apply bump_sound
    | with_reducible apply Sound.ite

theorem channelBitsWrite_sound {b c d e} (h : s.Sound) : State.Sound (channelBitsWrite s b c d e) := by
  unfold channelBitsWrite; try dsimp only
  repeat' first
    | with_reducible assumption | with_reducible apply setB_sound | with_reducible apply bump_sound
    | with_reducible apply Sound.ite | with_reducible refine Sound.foldl (fun _ _ _ => ?_) ?_

theorem sliceWrite_sound {b c} (h : s.Sound) : State.Sound (sliceWrite s b c) := by
  unfold sliceWrite; try dsimp only
  repeat' first
    | with_reducible assumption | with_reducible apply setF_sound
    | with_reducible refine Sound.of_fst ‹_ = (_, _)› ?_

theorem laneWrite_sound {b c} (h : s.Sound) : State.Sound (laneWrite s b c) := by
  unfold laneWrite; try dsimp only
  repeat' first
    | with_reducible assumption | with_reducible apply plainWrite_sound | with_reducible apply setEnables_sound
    | with_reducible apply setLoopback_sound | with_reducible apply setPstate_sound
    | with_reducible apply setTxeq_sound | with_reducible apply setRxeq_sound
    | with_reducible apply calStart_sound | with_reducible apply setPrbs_sound | with_reducible apply Sound.ite

theorem chzWrite_sound {b c} (h : s.Sound) : State.Sound (chzWrite s b c) := by
  unfold chzWrite; try dsimp only
  repeat' first
    | with_reducible assumption | with_reducible apply bankMirrored_sound
    | with_reducible refine mirrored_sound ?_ (fun _ _ => ?_) | with_reducible apply switchArm_sound
    | with_reducible apply modeArm_sound | with_reducible apply plainWrite_sound
    | with_reducible apply Sound.ite

theorem xrWrite_sound {b c} (h : s.Sound) : State.Sound (xrWrite s b c) := by
  unfold xrWrite; try dsimp only
  repeat' first
    | with_reducible assumption | with_reducible apply linksRefresh_sound
    | with_reducible apply splitFollow_sound | with_reducible apply plainWrite_sound
    | with_reducible apply setXrEnable_sound | with_reducible apply setWiden_sound
    | with_reducible apply Sound.ite

theorem corWrite_sound {b c} (h : s.Sound) : State.Sound (corWrite s b c) := by
  unfold corWrite; try dsimp only
  repeat' first
    | with_reducible assumption | with_reducible apply setF_sound | with_reducible apply corAbort_sound
    | with_reducible apply corEnable_sound | with_reducible apply corDisable_sound
    | with_reducible apply plainWrite_sound | with_reducible apply Sound.ite

theorem intWrite_sound {b c} (h : s.Sound) : State.Sound (intWrite s b c) := by
  unfold intWrite; try dsimp only
  repeat' first
    | with_reducible assumption | with_reducible apply setIntEnable_sound
    | with_reducible apply plainWrite_sound | with_reducible apply Sound.ite

theorem bfmWrite_sound {b c} (h : s.Sound) : State.Sound (bfmWrite s b c) := by
  unfold bfmWrite; try dsimp only
  repeat' first
    | with_reducible assumption | with_reducible apply plainWrite_sound
    | with_reducible apply setBfmEnable_sound | with_reducible refine mirrored_sound ?_ (fun _ _ => ?_)
    | with_reducible apply flipArm_sound | with_reducible apply Sound.ite

theorem trgRegWrite_sound {b c} (h : s.Sound) : State.Sound (trgRegWrite s b c) := by
  unfold trgRegWrite; try dsimp only
  repeat' first
    | with_reducible assumption | with_reducible apply trgWrite_sound | with_reducible apply setTrgEnable_sound
    | with_reducible apply plainWrite_sound | with_reducible apply holdReleases_sound
    | with_reducible apply captureReleases_sound | with_reducible refine mirrored_sound ?_ (fun _ _ => ?_)
    | with_reducible apply injectWrite_sound | with_reducible apply Sound.ite

theorem brlCtrlWrite_sound {b c} (h : s.Sound) : State.Sound (brlCtrlWrite s b c) := by
  unfold brlCtrlWrite; try dsimp only
  repeat' first
    | with_reducible assumption | with_reducible apply coreReset_sound | with_reducible apply brlRun_sound
    | with_reducible apply brlStep_sound | with_reducible apply Sound.ite

theorem brlDebugWrite_sound {b c d} (h : s.Sound) : State.Sound (brlDebugWrite s b c d) := by
  unfold brlDebugWrite; try dsimp only
  repeat' first
    | with_reducible assumption | with_reducible apply setBrl_sound | with_reducible apply Sound.ite

theorem brlRegWrite_sound {b c d e} (h : s.Sound) : State.Sound (brlRegWrite s b c d e) := by
  unfold brlRegWrite; try dsimp only
  repeat' first
    | with_reducible assumption | with_reducible apply brlCtrlWrite_sound | with_reducible apply setBrl_sound
    | with_reducible apply plainWrite_sound | with_reducible apply brlWake_sound
    | with_reducible apply irqPendWrite_sound | with_reducible apply mboxInWrite_sound
    | with_reducible apply wr_sound | with_reducible apply raise_sound
    | with_reducible apply brlDebugWrite_sound | with_reducible apply Sound.ite | split

theorem memWrite_sound {b c d} (h : s.Sound) : State.Sound (memWrite s b c d) := by
  unfold memWrite; try dsimp only
  repeat' first
    | with_reducible assumption | with_reducible apply plainWrite_sound
    | with_reducible apply forceDouble_sound | with_reducible apply memInit_sound
    | with_reducible apply refreshLevels_sound | with_reducible refine setArch_sound rfl ?_
    | with_reducible apply wr_sound | with_reducible apply sweepCtrlWrite_sound
    | with_reducible apply Sound.ite

theorem dmaWrite_sound {b c} (h : s.Sound) : State.Sound (dmaWrite s b c) := by
  unfold dmaWrite; try dsimp only
  repeat' first
    | with_reducible assumption | with_reducible apply doorbell_sound
    | with_reducible apply ringCtrlWrite_sound | with_reducible apply plainWrite_sound
    | with_reducible apply Sound.ite

theorem evtWrite_sound {b c d} (h : s.Sound) : State.Sound (evtWrite s b c d) := by
  unfold evtWrite; try dsimp only
  repeat' first
    | with_reducible assumption | with_reducible apply swFire_sound
    | with_reducible apply channelBitsWrite_sound | with_reducible apply channelCfgWrite_sound
    | with_reducible apply plainWrite_sound | with_reducible apply bump_sound
    | with_reducible apply evioCfgWrite_sound | with_reducible apply Sound.ite

theorem msixWrite_sound {b c} (h : s.Sound) : State.Sound (msixWrite s b c) := by
  unfold msixWrite; try dsimp only
  repeat' first
    | with_reducible assumption | with_reducible apply wr_sound | with_reducible apply msixSend_sound
    | with_reducible apply setB_sound | with_reducible apply Sound.ite

theorem regWrite_sound {b c d} (h : s.Sound) : State.Sound (regWrite s b c d) := by
  unfold regWrite; try dsimp only
  repeat' first
    | with_reducible assumption | with_reducible apply msixWrite_sound | with_reducible apply wr_sound
    | with_reducible apply plainWrite_sound | with_reducible apply clkWrite_sound
    | with_reducible apply laneWrite_sound | with_reducible apply setIngestEnable_sound
    | with_reducible refine mirrored_sound ?_ (fun _ _ => ?_) | with_reducible apply modelWrite_sound
    | with_reducible apply chzWrite_sound | with_reducible apply xrWrite_sound
    | with_reducible apply corWrite_sound | with_reducible apply intWrite_sound
    | with_reducible apply bfmWrite_sound | with_reducible apply trgRegWrite_sound
    | with_reducible apply cMemWrite_sound | with_reducible apply arrSet_sound
    | with_reducible apply brlRegWrite_sound | with_reducible apply memWrite_sound
    | with_reducible apply dmaWrite_sound | with_reducible apply evtWrite_sound
    | with_reducible apply sliceWrite_sound | with_reducible apply pwrReqWrite_sound
    | with_reducible apply chipResetWrite_sound | with_reducible apply fetchResume_sound
    | with_reducible apply decompressGo_sound | with_reducible apply refreshLevels_sound
    | with_reducible apply faultRecord_sound | with_reducible apply Sound.ite
    | with_reducible apply Sound.ite_fst | with_reducible refine Sound.of_fst ‹_ = (_, _)› ?_ | split

theorem configReset_sound (h : s.Sound) : State.Sound (configReset s) := by
  refine ⟨h.1, ?_, h.2.2⟩
  unfold configReset SMap.Sorted
  rw [List.pairwise_map]
  refine (List.Pairwise.filter _ h.2.1).imp ?_
  intro a b hab
  split <;> split <;> exact hab

theorem rawRecord_sound {b} (h : s.Sound) : State.Sound (rawRecord s b) := by
  unfold rawRecord; try dsimp only
  repeat' first
    | with_reducible assumption | with_reducible apply wr_sound | with_reducible apply Sound.ite
    | with_reducible apply Sound.ite_fst | with_reducible refine Sound.of_fst ‹_ = (_, _)› ?_

theorem shadowState_sound {b} (h : s.Sound) : State.Sound (shadowState s b) := by
  unfold shadowState; try dsimp only
  repeat' first
    | with_reducible assumption | with_reducible apply rawRecord_sound | with_reducible apply configReset_sound
    | with_reducible refine Sound.foldl (fun _ _ _ => ?_) ?_
    | with_reducible refine Sound.foldl_fst (fun _ _ _ => ?_) ?_
    | with_reducible refine Sound.of_fst ‹_ = (_, _)› ?_

theorem supervisorWrite_sound {b} (h : s.Sound) : State.Sound (supervisorWrite s b) := by
  unfold supervisorWrite; try dsimp only
  repeat' first
    | with_reducible assumption | with_reducible apply wr_sound
    | with_reducible refine mirrored_sound ?_ (fun _ _ => ?_) | with_reducible apply bankStore_sound
    | with_reducible apply setUse_sound | with_reducible apply regWrite_sound | with_reducible apply Sound.ite
    | with_reducible apply Sound.ite_fst | with_reducible refine Sound.of_fst ‹_ = (_, _)› ?_

theorem unitsClear_sound  (h : s.Sound) : State.Sound (unitsClear s) := by
  unfold unitsClear; try dsimp only
  repeat' first
    | with_reducible assumption | with_reducible apply trgLost_sound
    | with_reducible refine Sound.of_fst ‹_ = (_, _)› ?_ | fail_if_no_progress with_reducible apply Sound.mk

theorem configClear_sound  (h : s.Sound) : State.Sound (configClear s) := by
  unfold configClear; try dsimp only
  repeat' first
    | with_reducible assumption | with_reducible apply laneWrite_sound
    | with_reducible apply setIngestEnable_sound | with_reducible apply evioCfgWrite_sound
    | with_reducible apply setXrEnable_sound | with_reducible apply setTrgEnable_sound
    | with_reducible apply setBfmEnable_sound | with_reducible apply setIntEnable_sound
    | with_reducible apply corDisable_sound | with_reducible apply wr_sound
    | with_reducible apply configReset_sound | with_reducible apply unitsClear_sound
    | with_reducible apply Sound.ite | with_reducible refine Sound.foldl (fun _ _ _ => ?_) ?_

theorem powerMap_sound {b} (h : s.Sound) : State.Sound (powerMap s b) := by
  unfold powerMap; try dsimp only
  repeat' first
    | with_reducible assumption | with_reducible apply pwrReqWrite_sound
    | with_reducible refine Sound.of_fst ‹_ = (_, _)› ?_ | split

theorem applyType_sound {a c} (h : s.Sound) : State.Sound (applyType a s c) := by
  unfold applyType; try dsimp only
  repeat' first
    | with_reducible assumption | with_reducible apply supervisorWrite_sound
    | with_reducible apply powerMap_sound | with_reducible apply linksRefresh_sound
    | with_reducible apply setF_sound | with_reducible apply Sound.ite
    | with_reducible refine Sound.foldl (fun _ _ _ => ?_) ?_ | with_reducible apply Sound.ite_fst
    | with_reducible refine Sound.foldl_fst (fun _ _ _ => ?_) ?_
    | with_reducible refine Sound.of_fst ‹_ = (_, _)› ?_

theorem coreStore_sound {b c d} (h : s.Sound) : State.Sound (coreStore s b c d) := by
  unfold coreStore; try dsimp only
  repeat' first
    | with_reducible assumption | with_reducible apply arrSet_sound
    | with_reducible refine Sound.foldl (fun _ _ _ => ?_) ?_
    | with_reducible refine Sound.foldl_fst (fun _ _ _ => ?_) ?_
    | with_reducible refine Sound.of_fst ‹_ = (_, _)› ?_ | split

theorem coreLoad_sound {b c} (h : s.Sound) : State.Sound (coreLoad s b c) := by
  unfold coreLoad; try dsimp only
  repeat' first
    | with_reducible assumption | with_reducible apply setStr_sound | with_reducible apply coreReset_sound
    | with_reducible apply coreStore_sound | with_reducible apply brlRun_sound | with_reducible apply Sound.ite
    | split

theorem imageRuns_sound {b} (h : s.Sound) : State.Sound (imageRuns s b) := by
  unfold imageRuns; try dsimp only
  repeat' first
    | with_reducible assumption | with_reducible apply setPair_sound | with_reducible apply setF_sound
    | with_reducible apply setStr_sound | with_reducible refine Sound.of_fst ‹_ = (_, _)› ?_

theorem twinLeave_sound  (h : s.Sound) : State.Sound (twinLeave s) := by
  unfold twinLeave; try dsimp only
  repeat' first
    | with_reducible assumption | with_reducible apply twinJoinEnd_sound | with_reducible apply setF_sound
    | with_reducible refine Sound.foldl (fun _ _ _ => ?_) ?_
    | with_reducible refine Sound.foldl_fst (fun _ _ _ => ?_) ?_
    | with_reducible refine Sound.of_fst ‹_ = (_, _)› ?_ | fail_if_no_progress with_reducible apply Sound.mk

theorem twinImage_sound  (h : s.Sound) : State.Sound (twinImage s) := by
  unfold twinImage; try dsimp only
  repeat' first
    | with_reducible assumption | with_reducible apply twinLeave_sound | with_reducible apply setF_sound

theorem applyImage_sound {b} (h : s.Sound) : State.Sound (applyImage s b) := by
  unfold applyImage; try dsimp only
  repeat' first
    | with_reducible assumption | with_reducible apply freeSlots_sound | with_reducible apply configClear_sound
    | with_reducible apply twinLeave_sound | with_reducible apply applyType_sound
    | with_reducible apply coreLoad_sound | with_reducible apply refreshLevels_sound
    | with_reducible apply twinImage_sound | with_reducible apply imageRuns_sound
    | with_reducible refine Sound.foldl (fun _ _ _ => ?_) ?_

theorem applyRegion_twinIf_sound {b} (h : s.Sound) : State.Sound (applyRegion.twinIf b s) := by
  unfold applyRegion.twinIf
  exact Sound.ite (twinImage_sound h) h

theorem applyRegion_sound {b c} (h : s.Sound) : State.Sound (applyRegion s b c) := by
  unfold applyRegion; dsimp only
  repeat' first | with_reducible assumption | with_reducible apply coreLoad_sound | with_reducible apply applyRegion_twinIf_sound | with_reducible apply applyType_sound | with_reducible apply setChz_sound | with_reducible apply setStr_sound | with_reducible apply corEnable_sound | with_reducible apply corDisable_sound | with_reducible apply supervisorWrite_sound | with_reducible apply Sound.ite | with_reducible refine Sound.foldl (fun _ _ _ => ?_) ?_


theorem readFailed_sound {b c d e f} (h : s.Sound) : State.Sound (readFailed s b c d e f) := by
  unfold readFailed; try dsimp only
  repeat' first
    | with_reducible assumption | with_reducible apply unitFetch_sound | with_reducible apply respond_sound
    | with_reducible apply busError_sound | with_reducible refine Sound.of_fst ‹_ = (_, _)› ?_

theorem loadAccept_sound {b c d e f g} (h : s.Sound) : State.Sound (loadAccept s b c d e f g) := by
  unfold loadAccept; try dsimp only
  repeat' first
    | with_reducible assumption | with_reducible apply acceptAsync_sound | with_reducible apply setStr_sound
    | with_reducible apply setF_sound | with_reducible apply served_sound
    | with_reducible apply readFailed_sound | split

theorem loadStructure_sound {b c d e} (h : s.Sound) : State.Sound (loadStructure s b c d e) := by
  unfold loadStructure; try dsimp only
  repeat' first
    | with_reducible assumption | with_reducible refine serve_sound ?_ (fun _ _ => ?_)
    | with_reducible apply respond_sound | with_reducible apply setF_sound
    | with_reducible apply loadAccept_sound | with_reducible apply Sound.ite
    | with_reducible apply Sound.ite_fst | with_reducible refine Sound.of_fst ‹_ = (_, _)› ?_

theorem loadRegion_sound {b c d e f} (h : s.Sound) : State.Sound (loadRegion s b c d e f) := by
  unfold loadRegion; try dsimp only
  repeat' first
    | with_reducible assumption | with_reducible refine serve_sound ?_ (fun _ _ => ?_)
    | with_reducible apply respond_sound | with_reducible apply loadAccept_sound
    | with_reducible apply Sound.ite | with_reducible apply Sound.ite_fst
    | with_reducible refine Sound.of_fst ‹_ = (_, _)› ?_

theorem loadEnd_sound {b c} (h : s.Sound) : State.Sound (loadEnd s b c) := by
  unfold loadEnd; try dsimp only
  repeat' first
    | with_reducible assumption | with_reducible apply setF_sound | with_reducible apply bump_sound
    | with_reducible apply notice_sound | with_reducible apply Sound.ite | with_reducible apply Sound.ite_fst
    | with_reducible refine Sound.of_fst ‹_ = (_, _)› ?_ | split

theorem loadComplete_sound  (h : s.Sound) : State.Sound (loadComplete s) := by
  unfold loadComplete; try dsimp only
  repeat' first
    | with_reducible assumption | with_reducible apply setStr_sound | with_reducible apply setF_sound
    | with_reducible apply firmwareRuns_sound | with_reducible apply loadEnd_sound
    | with_reducible apply applyImage_sound | with_reducible apply imageRuns_sound
    | with_reducible apply applyRegion_sound | with_reducible apply bump_sound | with_reducible apply Sound.ite
    | with_reducible apply Sound.ite_fst | with_reducible refine Sound.of_fst ‹_ = (_, _)› ?_ | split

theorem sessionBegin_sound {b c d} (h : s.Sound) : State.Sound (sessionBegin s b c d) := by
  unfold sessionBegin; try dsimp only
  repeat' first
    | with_reducible assumption | with_reducible apply setF_sound | with_reducible apply setPair_sound
    | with_reducible apply setR_sound | with_reducible apply setStr_sound
    | with_reducible refine Sound.foldl (fun _ _ _ => ?_) ?_
    | with_reducible refine Sound.foldl_fst (fun _ _ _ => ?_) ?_
    | with_reducible refine Sound.of_fst ‹_ = (_, _)› ?_

theorem sessionEnd_sound  (h : s.Sound) : State.Sound (sessionEnd s) := by
  unfold sessionEnd; try dsimp only
  repeat' first
    | with_reducible assumption | with_reducible apply setStr_sound | with_reducible apply setR_sound

theorem pullRefused_sound  (h : s.Sound) : State.Sound (pullRefused s) := by
  unfold pullRefused; try dsimp only
  repeat' first
    | with_reducible assumption | with_reducible apply relaySendFrame_sound | with_reducible apply bump_sound
    | with_reducible apply setStr_sound | with_reducible refine Sound.foldl (fun _ _ _ => ?_) ?_
    | with_reducible refine Sound.foldl_fst (fun _ _ _ => ?_) ?_
    | with_reducible refine Sound.of_fst ‹_ = (_, _)› ?_ | split

theorem programStop_sound  (h : s.Sound) : State.Sound (programStop s) := by
  unfold programStop; try dsimp only
  repeat' first
    | with_reducible assumption | with_reducible apply setF_sound | with_reducible apply Sound.ite
    | with_reducible refine Sound.foldl (fun _ _ _ => ?_) ?_

theorem sendResult_sound {b c d e} (h : s.Sound) : State.Sound (sendResult s b c d e) := by
  unfold sendResult; try dsimp only
  repeat' first
    | with_reducible assumption | with_reducible apply relaySendFrame_sound
    | with_reducible refine Sound.of_fst ‹_ = (_, _)› ?_ | split

theorem sendHeader_sound {b c} (h : s.Sound) : State.Sound (sendHeader s b c) := by
  unfold sendHeader; try dsimp only
  repeat' first
    | with_reducible assumption | with_reducible apply relaySendFrame_sound | split

theorem sendData_sound {a b c e f} (h : s.Sound) : State.Sound (sendData a b c s e f) := by
  induction c generalizing s e f with
  | zero => exact h
  | succ c ih => exact Sound.ite h (ih (relaySendFrame_sound h))

theorem sendEnd_sound {b c d} (h : s.Sound) : State.Sound (sendEnd s b c d) := by
  unfold sendEnd; try dsimp only
  repeat' first
    | with_reducible assumption | with_reducible apply relaySendFrame_sound

theorem sendImage_sound {b c d e f} (h : s.Sound) : State.Sound (sendImage s b c d e f) := by
  unfold sendImage; try dsimp only
  repeat' first
    | with_reducible assumption | with_reducible apply sendData_sound | with_reducible apply sendEnd_sound
    | with_reducible apply Sound.ite

theorem sessionForcedOut_sound  (h : s.Sound) : State.Sound (sessionForcedOut s) := by
  unfold sessionForcedOut; try dsimp only
  repeat' first
    | with_reducible assumption | with_reducible apply relaySendFrame_sound
    | with_reducible apply sessionEnd_sound | with_reducible apply programStop_sound
    | with_reducible apply bump_sound | with_reducible refine Sound.foldl (fun _ _ _ => ?_) ?_ | split

theorem programBegin_sound  (h : s.Sound) : State.Sound (programBegin s) := by
  unfold programBegin; try dsimp only
  repeat' first
    | with_reducible assumption | with_reducible apply setF_sound | with_reducible apply setStr_sound | split

theorem slotFailed_sound  (h : s.Sound) : State.Sound (slotFailed s) := by
  unfold slotFailed; try dsimp only
  repeat' first
    | with_reducible assumption | with_reducible apply setF_sound | split

theorem ownSession_sound {b c d} (h : s.Sound) : State.Sound (ownSession s b c d) := by
  unfold ownSession; try dsimp only
  repeat' first
    | with_reducible assumption | with_reducible apply programBegin_sound
    | with_reducible apply sessionBegin_sound | with_reducible apply sendImage_sound
    | with_reducible apply sendHeader_sound | with_reducible apply Sound.ite
    | with_reducible refine Sound.foldl (fun _ _ _ => ?_) ?_

theorem scheduleUpdate_sound {b c d e f} (h : s.Sound) : State.Sound (scheduleUpdate s b c d e f) := by
  unfold scheduleUpdate; try dsimp only
  repeat' first
    | with_reducible assumption | with_reducible refine serve_sound ?_ (fun _ _ => ?_)
    | with_reducible apply respond_sound | with_reducible apply readFailed_sound
    | with_reducible apply acceptAsync_sound | with_reducible apply served_sound
    | with_reducible apply setF_sound | with_reducible apply slotFailed_sound
    | with_reducible apply notice_sound | with_reducible apply bump_sound
    | with_reducible apply ownSession_sound | with_reducible apply sessionForcedOut_sound
    | with_reducible apply Sound.ite | with_reducible apply Sound.ite_fst
    | with_reducible refine Sound.of_fst ‹_ = (_, _)› ?_ | split

theorem slotValid_sound {b c d} (h : s.Sound) : State.Sound (slotValid s b c d) := by
  unfold slotValid; try dsimp only
  repeat' first
    | with_reducible assumption | with_reducible apply setStr_sound | with_reducible apply slotShow_sound
    | with_reducible apply setPair_sound | with_reducible apply setF_sound
    | with_reducible refine Sound.of_fst ‹_ = (_, _)› ?_ | split

theorem updateEnd_sound {b c d e f} (h : s.Sound) : State.Sound (updateEnd s b c d e f) := by
  unfold updateEnd; try dsimp only
  repeat' first
    | with_reducible assumption | with_reducible apply setF_sound | with_reducible apply sessionEnd_sound
    | with_reducible apply notice_sound | with_reducible apply sendResult_sound
    | with_reducible apply Sound.ite | with_reducible apply Sound.ite_fst
    | with_reducible refine Sound.of_fst ‹_ = (_, _)› ?_

theorem slotProgramComplete_sound {b} (h : s.Sound) : State.Sound (slotProgramComplete s b) := by
  unfold slotProgramComplete; try dsimp only
  repeat' first
    | with_reducible assumption | with_reducible apply updateEnd_sound | with_reducible apply slotValid_sound
    | with_reducible apply setF_sound | with_reducible apply Sound.ite | split

theorem scheduleLate_sound  (h : s.Sound) : State.Sound (scheduleLate s) := by
  unfold scheduleLate; try dsimp only
  repeat' first
    | with_reducible assumption | with_reducible apply setF_sound | with_reducible apply setStr_sound
    | with_reducible apply sendResult_sound | with_reducible apply Sound.ite
    | with_reducible apply Sound.ite_fst | with_reducible refine Sound.of_fst ‹_ = (_, _)› ?_ | split

theorem updateActivation_sound  (h : s.Sound) : State.Sound (updateActivation s) := by
  unfold updateActivation; try dsimp only
  repeat' first
    | with_reducible assumption | with_reducible apply stopTick_sound
    | with_reducible refine setArch_sound rfl ?_ | with_reducible apply recordWriteFlash_sound
    | with_reducible apply setF_sound | with_reducible apply bootSlot_sound | with_reducible apply setStr_sound
    | with_reducible apply setPair_sound | with_reducible apply scheduleLate_sound
    | with_reducible apply Sound.ite | with_reducible apply Sound.ite_fst
    | with_reducible refine Sound.of_fst ‹_ = (_, _)› ?_ | split

theorem fallback_sound {b c} (h : s.Sound) : State.Sound (fallback s b c) := by
  unfold fallback; try dsimp only
  repeat' first
    | with_reducible assumption | with_reducible apply setF_sound | with_reducible apply trialFailed_sound
    | with_reducible apply settingsSave_sound | with_reducible apply stopRun_sound
    | with_reducible apply setStr_sound | with_reducible apply settingsRestore_sound
    | with_reducible apply firmwareRuns_sound | with_reducible apply applyImage_sound
    | with_reducible apply slotRejected_sound | with_reducible apply fallbackReport_sound
    | with_reducible apply Sound.ite | with_reducible apply Sound.ite_fst
    | with_reducible refine Sound.of_fst ‹_ = (_, _)› ?_ | fail_if_no_progress with_reducible apply Sound.mk
    | split

theorem trialStart_sound {b} (h : s.Sound) : State.Sound (trialStart s b) := by
  unfold trialStart; try dsimp only
  repeat' first
    | with_reducible assumption | with_reducible apply setStr_sound | with_reducible apply fallback_sound
    | with_reducible apply settingsRestore_sound | with_reducible apply slotRejected_sound
    | with_reducible apply applyImage_sound | with_reducible apply setF_sound
    | with_reducible apply startRun_sound | with_reducible apply notice_sound | with_reducible apply Sound.ite
    | with_reducible apply Sound.ite_fst | with_reducible refine Sound.of_fst ‹_ = (_, _)› ?_
    | fail_if_no_progress with_reducible apply Sound.mk | split

theorem confirmUpdate_sound {b c d} (h : s.Sound) : State.Sound (confirmUpdate s b c d) := by
  unfold confirmUpdate; try dsimp only
  repeat' first
    | with_reducible assumption | with_reducible refine serve_sound ?_ (fun _ _ => ?_)
    | with_reducible apply recordWriteFlash_sound | with_reducible apply setF_sound
    | with_reducible apply respond_sound | with_reducible apply Sound.ite | with_reducible apply Sound.ite_fst
    | with_reducible refine Sound.of_fst ‹_ = (_, _)› ?_ | split

theorem confirmTimeout_sound  (h : s.Sound) : State.Sound (confirmTimeout s) := by
  unfold confirmTimeout; try dsimp only
  repeat' first
    | with_reducible assumption | with_reducible apply fallback_sound | with_reducible apply Sound.ite | split

theorem relayIn_sound {b} {c : State → State} (h : s.Sound) (hc : ∀ s, State.Sound s → State.Sound (c s)) : State.Sound (relayIn s b c) := by
  unfold relayIn; try dsimp only
  repeat' first
    | with_reducible assumption | with_reducible apply bump_sound | with_reducible apply hc
    | with_reducible apply Sound.ite

theorem relayForward_sound {b c} (h : s.Sound) : State.Sound (relayForward s b c) := by
  unfold relayForward; try dsimp only
  repeat' first
    | with_reducible assumption | with_reducible apply emit_sound | with_reducible apply Sound.ite

theorem refuseHeader_sound {b c d} (h : s.Sound) : State.Sound (refuseHeader s b c d) := by
  unfold refuseHeader; try dsimp only
  repeat' first
    | with_reducible assumption | with_reducible apply bump_sound | with_reducible apply setStr_sound
    | with_reducible apply relaySendFrame_sound | with_reducible apply Sound.ite
    | with_reducible apply Sound.ite_fst | with_reducible refine Sound.of_fst ‹_ = (_, _)› ?_ | split

theorem acceptHeader_sound {b c} (h : s.Sound) : State.Sound (acceptHeader s b c) := by
  unfold acceptHeader; try dsimp only
  repeat' first
    | with_reducible assumption | with_reducible apply relayForward_sound
    | with_reducible apply sessionBegin_sound | with_reducible refine Sound.of_fst ‹_ = (_, _)› ?_ | split

theorem headerReceived_sound {b c} (h : s.Sound) : State.Sound (headerReceived s b c) := by
  unfold headerReceived; try dsimp only
  repeat' first
    | with_reducible assumption | with_reducible apply acceptHeader_sound
    | with_reducible apply sessionForcedOut_sound | with_reducible apply refuseHeader_sound
    | with_reducible apply Sound.ite | with_reducible apply Sound.ite_fst
    | with_reducible refine Sound.of_fst ‹_ = (_, _)› ?_ | split

theorem sessionLost_sound {b} (h : s.Sound) : State.Sound (sessionLost s b) := by
  unfold sessionLost; try dsimp only
  repeat' first
    | with_reducible assumption | with_reducible apply sessionEnd_sound | with_reducible apply sendResult_sound
    | with_reducible apply freeTaken_sound | with_reducible refine Sound.of_fst ‹_ = (_, _)› ?_

theorem pullNext_sound {b c} (h : s.Sound) : State.Sound (pullNext s b c) := by
  unfold pullNext; try dsimp only
  repeat' first
    | with_reducible assumption | with_reducible apply sessionLost_sound | with_reducible apply setF_sound
    | with_reducible apply relaySendFrame_sound | with_reducible apply bump_sound
    | with_reducible apply Sound.ite

theorem dataReceived_sound {b c} (h : s.Sound) : State.Sound (dataReceived s b c) := by
  unfold dataReceived; try dsimp only
  repeat' first
    | with_reducible assumption | with_reducible apply pullNext_sound | with_reducible apply unitWrite_sound
    | with_reducible apply relayForward_sound | with_reducible apply setR_sound
    | with_reducible apply Sound.ite | split

theorem stagedLost_sound {b} (h : s.Sound) : State.Sound (stagedLost s b) := by
  unfold stagedLost; try dsimp only
  repeat' first
    | with_reducible assumption | with_reducible apply unitFetch_sound | with_reducible apply busError_sound
    | with_reducible apply updateEnd_sound | with_reducible apply slotFailed_sound
    | with_reducible refine Sound.of_fst ‹_ = (_, _)› ?_

theorem stagedCheck_sound {b c} (h : s.Sound) : State.Sound (stagedCheck s b c) := by
  unfold stagedCheck; try dsimp only
  repeat' first
    | with_reducible assumption | with_reducible apply bump_sound | with_reducible apply updateEnd_sound
    | with_reducible apply firmwareRuns_sound | with_reducible apply setStr_sound
    | with_reducible apply setF_sound | with_reducible apply slotFailed_sound
    | with_reducible apply slotValid_sound | with_reducible apply programBegin_sound
    | with_reducible apply Sound.ite | with_reducible apply Sound.ite_fst
    | with_reducible refine Sound.of_fst ‹_ = (_, _)› ?_ | split

theorem sessionCheck_sound {b} (h : s.Sound) : State.Sound (sessionCheck s b) := by
  unfold sessionCheck; try dsimp only
  repeat' first
    | with_reducible assumption | with_reducible apply stagedLost_sound
    | with_reducible apply stagedCheck_sound | with_reducible apply served_sound | split

theorem endReceived_sound {b c} (h : s.Sound) : State.Sound (endReceived s b c) := by
  unfold endReceived; try dsimp only
  repeat' first
    | with_reducible assumption | with_reducible apply pullNext_sound | with_reducible apply setStr_sound
    | with_reducible apply setF_sound | with_reducible apply relayForward_sound
    | with_reducible apply sessionCheck_sound | with_reducible apply Sound.ite | split

theorem busyReceived_sound {b c} (h : s.Sound) : State.Sound (busyReceived s b c) := by
  unfold busyReceived; try dsimp only
  repeat' first
    | with_reducible assumption | with_reducible apply relayForward_sound
    | with_reducible apply relaySendFrame_sound | with_reducible apply pullRefused_sound
    | with_reducible apply notice_sound | with_reducible apply sessionEnd_sound
    | with_reducible apply programStop_sound | with_reducible apply Sound.ite
    | with_reducible refine Sound.foldl (fun _ _ _ => ?_) ?_ | with_reducible apply Sound.ite_fst
    | with_reducible refine Sound.foldl_fst (fun _ _ _ => ?_) ?_
    | with_reducible refine Sound.of_fst ‹_ = (_, _)› ?_ | split

theorem abortReceived_sound {b c} (h : s.Sound) : State.Sound (abortReceived s b c) := by
  unfold abortReceived; try dsimp only
  repeat' first
    | with_reducible assumption | with_reducible apply sessionEnd_sound
    | with_reducible apply programStop_sound | with_reducible apply notice_sound
    | with_reducible apply pullRefused_sound | with_reducible apply relayForward_sound
    | with_reducible apply Sound.ite | with_reducible apply Sound.ite_fst
    | with_reducible refine Sound.of_fst ‹_ = (_, _)› ?_ | split

theorem pullReceived_sound {b c} (h : s.Sound) : State.Sound (pullReceived s b c) := by
  unfold pullReceived; try dsimp only
  repeat' first
    | with_reducible assumption | with_reducible apply sendHeader_sound | with_reducible apply sendImage_sound
    | with_reducible apply Sound.ite | with_reducible apply Sound.ite_fst
    | with_reducible refine Sound.of_fst ‹_ = (_, _)› ?_ | split

theorem resultReceived_sound {b c} (h : s.Sound) : State.Sound (resultReceived s b c) := by
  unfold resultReceived; try dsimp only
  repeat' first
    | with_reducible assumption | with_reducible apply relayForward_sound | with_reducible apply bump_sound
    | with_reducible apply Sound.ite | with_reducible apply Sound.ite_fst
    | with_reducible refine Sound.of_fst ‹_ = (_, _)› ?_

theorem mgmtReqReceived_sound {b c} (h : s.Sound) : State.Sound (mgmtReqReceived s b c) := by
  unfold mgmtReqReceived; try dsimp only
  repeat' first
    | with_reducible assumption | with_reducible apply relayForward_sound | with_reducible apply Sound.ite
    | with_reducible apply Sound.ite_fst | with_reducible refine Sound.of_fst ‹_ = (_, _)› ?_
    | fail_if_no_progress with_reducible apply Sound.mk | split

theorem mgmtRspReceived_sound {b c} (h : s.Sound) : State.Sound (mgmtRspReceived s b c) := by
  unfold mgmtRspReceived; try dsimp only
  repeat' first
    | with_reducible assumption | with_reducible apply relayForward_sound | with_reducible apply Sound.ite
    | with_reducible apply Sound.ite_fst | with_reducible refine Sound.of_fst ‹_ = (_, _)› ?_

theorem setTwin_sound {b} (h : s.Sound) : State.Sound (setTwin s b) := by
  unfold setTwin; try dsimp only
  repeat' first
    | with_reducible assumption | fail_if_no_progress with_reducible apply Sound.mk

theorem sliceIn_sound  (h : s.Sound) : State.Sound (sliceIn s) := by
  unfold sliceIn; try dsimp only
  repeat' first
    | with_reducible assumption | with_reducible apply refreshLevels_sound | with_reducible apply setF_sound

theorem joinNote_sound {b c d} (h : s.Sound) : State.Sound (joinNote s b c d) := by
  unfold joinNote; try dsimp only
  repeat' first
    | with_reducible assumption | with_reducible apply setF_sound | with_reducible apply twinJoinEnd_sound
    | with_reducible apply setTwin_sound

theorem joinActive_sound {b c d} (h : s.Sound) : State.Sound (joinActive s b c d) := by
  unfold joinActive; try dsimp only
  repeat' first
    | with_reducible assumption | with_reducible apply setF_sound | with_reducible apply joinNote_sound
    | with_reducible apply sliceIn_sound | with_reducible apply setTwin_sound | with_reducible apply Sound.ite

theorem joinStandby_sound {b c d} (h : s.Sound) : State.Sound (joinStandby s b c d) := by
  unfold joinStandby; try dsimp only
  repeat' first
    | with_reducible assumption | with_reducible apply setF_sound | with_reducible apply joinNote_sound
    | with_reducible apply setTwin_sound | with_reducible apply setR_sound

theorem twinJoin_sound {b c d e f} (h : s.Sound) : State.Sound (twinJoin s b c d e f) := by
  unfold twinJoin; try dsimp only
  repeat' first
    | with_reducible assumption | with_reducible refine serve_sound ?_ (fun _ _ => ?_)
    | with_reducible apply respond_sound | with_reducible apply acceptAsync_sound
    | with_reducible apply joinStandby_sound | with_reducible apply notice_sound
    | with_reducible apply joinActive_sound | with_reducible apply Sound.ite
    | with_reducible apply Sound.ite_fst | with_reducible refine Sound.of_fst ‹_ = (_, _)› ?_

theorem armsFollow_sound  (h : s.Sound) : State.Sound (armsFollow s) := by
  unfold armsFollow; try dsimp only
  repeat' first
    | with_reducible assumption | with_reducible apply setChz_sound | with_reducible apply setBfm_sound
    | with_reducible apply Sound.ite | with_reducible apply Sound.ite_fst
    | with_reducible refine Sound.of_fst ‹_ = (_, _)› ?_

theorem mirrorStore_sound {b c} (h : s.Sound) : State.Sound (mirrorStore s b c) := by
  unfold mirrorStore; try dsimp only
  repeat' first
    | with_reducible assumption | with_reducible apply weightStore_sound
    | with_reducible apply modelWrite_sound | with_reducible apply arrSet_sound
    | with_reducible apply armsFollow_sound | with_reducible apply wr_sound | with_reducible apply Sound.ite
    | with_reducible apply Sound.ite_fst | with_reducible refine Sound.of_fst ‹_ = (_, _)› ?_ | split

theorem snapFrames_sound {a b d} (h : s.Sound) : State.Sound (snapFrames a b s d) := by
  induction b generalizing s d with
  | zero => exact h
  | succ b ih => exact ih (sendTwin_sound h)

theorem snapError_sound {b c} (h : s.Sound) : State.Sound (snapError s b c) := by
  unfold snapError; try dsimp only
  repeat' first
    | with_reducible assumption | with_reducible apply busError_sound | with_reducible apply Sound.ite
    | with_reducible apply Sound.ite_fst | with_reducible refine Sound.of_fst ‹_ = (_, _)› ?_

theorem snapOver_sound {a} (h : s.Sound) : State.Sound (snapOver a s) := by
  unfold snapOver; try dsimp only
  repeat' first
    | with_reducible assumption | with_reducible apply snapError_sound | with_reducible apply setR_sound
    | with_reducible apply snapFrames_sound | with_reducible refine Sound.of_fst ‹_ = (_, _)› ?_ | split

theorem snapSend_sound  (h : s.Sound) : State.Sound (snapSend s) := by
  unfold snapSend; try dsimp only
  repeat' first
    | with_reducible assumption | with_reducible apply snapOver_sound

theorem snapshotComplete_sound  (h : s.Sound) : State.Sound (snapshotComplete s) := by
  unfold snapshotComplete; try dsimp only
  repeat' first
    | with_reducible assumption | with_reducible apply setTwin_sound | with_reducible apply setF_sound
    | with_reducible apply Sound.ite

theorem heartbeat_sound {b} (h : s.Sound) : State.Sound (heartbeat s b) := by
  unfold heartbeat; try dsimp only
  repeat' first
    | with_reducible assumption | with_reducible apply sendTwin_sound

theorem digestCompare_sound {b c} (h : s.Sound) : State.Sound (digestCompare s b c) := by
  unfold digestCompare; try dsimp only
  repeat' first
    | with_reducible assumption | with_reducible apply bump_sound | with_reducible apply setPair_sound
    | with_reducible apply setF_sound | with_reducible apply setTwin_sound
    | with_reducible apply twinJoinEnd_sound | with_reducible apply sliceIn_sound
    | with_reducible apply fault_sound | with_reducible apply setR_sound | with_reducible apply Sound.ite

theorem digestMeet_sound  (h : s.Sound) : State.Sound (digestMeet s) := by
  unfold digestMeet; try dsimp only
  repeat' first
    | with_reducible assumption | with_reducible apply setTwin_sound | with_reducible apply digestCompare_sound
    | with_reducible apply Sound.ite | with_reducible refine Sound.foldl (fun _ _ _ => ?_) ?_
    | with_reducible apply Sound.ite_fst | with_reducible refine Sound.foldl_fst (fun _ _ _ => ?_) ?_
    | with_reducible refine Sound.of_fst ‹_ = (_, _)› ?_

theorem digestTick_sound {b} (h : s.Sound) : State.Sound (digestTick s b) := by
  unfold digestTick; try dsimp only
  repeat' first
    | with_reducible assumption | with_reducible apply sendTwin_sound | with_reducible apply digestMeet_sound
    | with_reducible apply setTwin_sound | with_reducible apply Sound.ite

theorem joinTick_sound {b} (h : s.Sound) : State.Sound (joinTick s b) := by
  unfold joinTick; try dsimp only
  repeat' first
    | with_reducible assumption | with_reducible apply setTwin_sound
    | with_reducible apply clearStatistics_sound | with_reducible apply snapSend_sound
    | with_reducible apply twinAbandon_sound | with_reducible apply Sound.ite

theorem twinTick_sound {b} (h : s.Sound) : State.Sound (twinTick s b) := by
  unfold twinTick; try dsimp only
  repeat' first
    | with_reducible assumption | with_reducible apply joinTick_sound | with_reducible apply setTwin_sound
    | with_reducible apply twinAbandon_sound | with_reducible apply setF_sound
    | with_reducible apply digestTick_sound | with_reducible apply heartbeat_sound
    | with_reducible apply Sound.ite

theorem streamError_sound {b} (h : s.Sound) : State.Sound (streamError s b) := by
  unfold streamError; try dsimp only
  repeat' first
    | with_reducible assumption | with_reducible apply twinAbandon_sound | with_reducible apply setTwin_sound
    | with_reducible apply Sound.ite

theorem twinReceive_sound {b c d} {e : State → State} (h : s.Sound) (he : ∀ s, State.Sound s → State.Sound (e s)) :
    State.Sound (twinReceive s b c d e) := by
  unfold twinReceive; dsimp only
  refine Sound.ite (receive_sound h fun _ h => h) ?_
  have k := setF_sound (b := F.TWN_STATUS_PEER_ALIVE) (c := ofBool (twinState s != 0)) (setTwin_sound (b := fun t => { t with silent := 0 }) h)
  exact Sound.ite (streamError_sound (receive_sound k fun _ h => h)) (receive_sound k fun _ h => Sound.ite (he _ h) h)

theorem snapStore_sound {b c} (h : s.Sound) : State.Sound (snapStore s b c) := by
  unfold snapStore; try dsimp only
  repeat' first
    | with_reducible assumption | with_reducible apply twinAbandon_sound | with_reducible apply snapError_sound
    | with_reducible apply mirrorStore_sound | with_reducible apply setTwin_sound
    | with_reducible apply setR_sound | with_reducible refine Sound.foldl (fun _ _ _ => ?_) ?_
    | with_reducible refine Sound.foldl_fst (fun _ _ _ => ?_) ?_
    | with_reducible refine Sound.of_fst ‹_ = (_, _)› ?_ | split

theorem snapshotReceived_sound {b} (h : s.Sound) : State.Sound (snapshotReceived s b) := by
  unfold snapshotReceived; try dsimp only
  repeat' first
    | with_reducible assumption | with_reducible apply twinAbandon_sound | with_reducible apply snapStore_sound
    | with_reducible apply Sound.ite | with_reducible apply Sound.ite_fst
    | with_reducible refine Sound.of_fst ‹_ = (_, _)› ?_

theorem mirrorApply_sound {b c d} (h : s.Sound) : State.Sound (mirrorApply s b c d) := by
  unfold mirrorApply; try dsimp only
  repeat' first
    | with_reducible assumption | with_reducible apply weightStore_sound
    | with_reducible apply modelWrite_sound | with_reducible apply bankStore_sound
    | with_reducible apply switchArm_sound | with_reducible apply modeArm_sound
    | with_reducible apply flipArm_sound | with_reducible apply injectWrite_sound
    | with_reducible apply plainWrite_sound | with_reducible apply Sound.ite
    | with_reducible refine Sound.foldl (fun _ _ _ => ?_) ?_ | with_reducible apply Sound.ite_fst
    | with_reducible refine Sound.foldl_fst (fun _ _ _ => ?_) ?_
    | with_reducible refine Sound.of_fst ‹_ = (_, _)› ?_ | split

theorem mirrorRecords_sound {a c} (h : s.Sound) : State.Sound (mirrorRecords a s c) := by
  induction a generalizing s c with
  | zero => exact h
  | succ a ih => exact Sound.ite h (ih (mirrorApply_sound h))

theorem mirrorReceived_sound {b} (h : s.Sound) : State.Sound (mirrorReceived s b) := by
  unfold mirrorReceived; try dsimp only
  repeat' first
    | with_reducible assumption | with_reducible apply streamError_sound
    | with_reducible apply mirrorRecords_sound | with_reducible apply setTwin_sound
    | with_reducible apply Sound.ite

theorem digestReceived_sound {b} (h : s.Sound) : State.Sound (digestReceived s b) := by
  unfold digestReceived; try dsimp only
  repeat' first
    | with_reducible assumption | with_reducible apply digestMeet_sound | with_reducible apply setTwin_sound
    | with_reducible apply Sound.ite

theorem heartbeatReceived_sound {b} (h : s.Sound) : State.Sound (heartbeatReceived s b) := by
  unfold heartbeatReceived; try dsimp only
  repeat' first
    | with_reducible assumption | with_reducible apply setTwin_sound | with_reducible apply twinAbandon_sound
    | with_reducible apply setF_sound | with_reducible apply Sound.ite

theorem unsync_sound  (h : s.Sound) : State.Sound (unsync s) := by
  unfold unsync; try dsimp only
  repeat' first
    | with_reducible assumption | with_reducible apply setTwin_sound | with_reducible apply twinUnsync_sound
    | with_reducible apply freeTaken_sound | with_reducible apply bump_sound | with_reducible apply Sound.ite
    | split

theorem peerLost_sound  (h : s.Sound) : State.Sound (peerLost s) := by
  unfold peerLost; try dsimp only
  repeat' first
    | with_reducible assumption | with_reducible apply setTwin_sound | with_reducible apply fault_sound
    | with_reducible apply bump_sound | with_reducible apply setF_sound
    | with_reducible apply refreshLevels_sound | with_reducible apply sliceIn_sound
    | with_reducible apply raise_sound | with_reducible apply twinAbandon_sound
    | with_reducible apply Sound.ite

theorem eventsApply_sound  (h : s.Sound) : State.Sound (eventsApply s) := by
  unfold eventsApply; try dsimp only
  repeat' first
    | with_reducible assumption | with_reducible apply setStr_sound | with_reducible apply evioCfgWrite_sound
    | with_reducible apply sliceWrite_sound | with_reducible apply wr_sound | with_reducible apply setR_sound
    | with_reducible apply setF_sound | with_reducible apply evioDrive_sound
    | with_reducible apply setEvt_sound | with_reducible apply Sound.ite
    | with_reducible refine Sound.foldl (fun _ _ _ => ?_) ?_ | with_reducible apply Sound.ite_fst
    | with_reducible refine Sound.foldl_fst (fun _ _ _ => ?_) ?_
    | with_reducible refine Sound.of_fst ‹_ = (_, _)› ?_ | split

theorem settingsTick_sound {b} (h : s.Sound) : State.Sound (settingsTick s b) := by
  unfold settingsTick; try dsimp only
  repeat' first
    | with_reducible assumption | with_reducible apply setTrg_sound | with_reducible apply setF_sound
    | with_reducible apply weightFlip_sound | with_reducible apply Sound.ite
    | with_reducible apply Sound.ite_fst | with_reducible refine Sound.of_fst ‹_ = (_, _)› ?_

theorem tickEvents_sound {b} (h : s.Sound) : State.Sound (tickEvents s b) := by
  unfold tickEvents; try dsimp only
  repeat' first
    | with_reducible assumption | with_reducible apply setPair_sound | with_reducible apply brlPendAll_sound
    | with_reducible apply raise_sound | with_reducible apply frameOutRise_sound
    | with_reducible apply Sound.ite | with_reducible refine Sound.foldl (fun _ _ _ => ?_) ?_

theorem tickStatus_sound {b} (h : s.Sound) : State.Sound (tickStatus s b) := by
  unfold tickStatus; try dsimp only
  repeat' first
    | with_reducible assumption | with_reducible apply setF_sound | with_reducible apply refreshLevels_sound

theorem tickWork_sound {b c} (h : s.Sound) : State.Sound (tickWork s b c) := by
  unfold tickWork; try dsimp only
  repeat' first
    | with_reducible assumption | with_reducible refine setArch_sound rfl ?_
    | with_reducible apply eventsApply_sound | with_reducible apply settingsTick_sound
    | with_reducible apply tickEvents_sound | with_reducible apply stopTick_sound
    | with_reducible apply rawCommit_sound | with_reducible apply tickStatus_sound
    | with_reducible apply twinTick_sound | with_reducible apply ydxTick_sound | with_reducible apply Sound.ite

theorem frameTick_sound {b} (h : s.Sound) : State.Sound (frameTick s b) := by
  unfold frameTick; try dsimp only
  repeat' first
    | with_reducible assumption | with_reducible refine setArch_sound rfl ?_
    | with_reducible apply tickWork_sound | with_reducible apply Sound.ite
    | fail_if_no_progress with_reducible apply Sound.mk

theorem readHealth_sound {b c d} (h : s.Sound) : State.Sound (readHealth s b c d) := by
  unfold readHealth; try dsimp only
  repeat' first
    | with_reducible assumption | with_reducible refine serve_sound ?_ (fun _ _ => ?_)
    | with_reducible refine setPwr_sound rfl ?_ | with_reducible apply respond_sound
    | with_reducible apply emit_sound | with_reducible apply Sound.ite | with_reducible apply Sound.ite_fst
    | with_reducible refine Sound.of_fst ‹_ = (_, _)› ?_ | split

theorem mailboxBad_sound {b c d} (h : s.Sound) : State.Sound (mailboxBad s b c d) := by
  unfold mailboxBad; try dsimp only
  repeat' first
    | with_reducible assumption | with_reducible refine serve_sound ?_ (fun _ _ => ?_)
    | with_reducible apply respond_sound | with_reducible refine Sound.of_fst ‹_ = (_, _)› ?_

theorem mailboxGo_sound  (h : s.Sound) : State.Sound (mailboxGo s) := by
  unfold mailboxGo; try dsimp only
  repeat' first
    | with_reducible assumption | with_reducible apply setF_sound | with_reducible apply Sound.ite
    | with_reducible apply Sound.ite_fst | with_reducible refine Sound.of_fst ‹_ = (_, _)› ?_
    | fail_if_no_progress with_reducible apply Sound.mk

theorem requestServe_sound {b} (h : s.Sound) : State.Sound (requestServe s b) := by
  unfold requestServe; try dsimp only
  repeat' first
    | with_reducible assumption | with_reducible apply loadStructure_sound
    | with_reducible apply loadRegion_sound | with_reducible apply start_sound
    | with_reducible apply stop_sound | with_reducible apply scheduleUpdate_sound
    | with_reducible apply confirmUpdate_sound | with_reducible apply readHealth_sound
    | with_reducible refine serve_sound ?_ (fun _ _ => ?_) | with_reducible apply stepPermit_sound
    | with_reducible apply twinJoin_sound | with_reducible apply dramSweep_sound
    | with_reducible apply captureRead_sound | with_reducible apply yodexRecord_sound
    | with_reducible apply yodexReplay_sound | with_reducible apply mailboxBad_sound
    | with_reducible refine Sound.of_fst ‹_ = (_, _)› ?_ | split

theorem mailboxServe_sound  (h : s.Sound) : State.Sound (mailboxServe s) := by
  unfold mailboxServe; try dsimp only
  repeat' first
    | with_reducible assumption | with_reducible apply requestServe_sound | with_reducible apply setF_sound
    | fail_if_no_progress with_reducible apply Sound.mk | split

theorem idle_sound  (h : s.Sound) : State.Sound (idle s) := by
  unfold idle; try dsimp only
  repeat' first
    | with_reducible assumption | with_reducible apply mailboxServe_sound | with_reducible apply Sound.ite

theorem busWrite_sound {b c d e} (h : s.Sound) : State.Sound (busWrite s b c d e) := by
  unfold busWrite; try dsimp only
  repeat' first
    | with_reducible assumption | with_reducible apply writeError_sound | with_reducible apply mailboxGo_sound
    | with_reducible apply regWrite_sound | with_reducible apply Sound.ite | split

theorem mirroredSetWrite_sound {b c d e} (h : s.Sound) : State.Sound (mirroredSetWrite s b c d e) := by
  unfold mirroredSetWrite; try dsimp only
  repeat' first
    | with_reducible assumption | with_reducible apply writeError_sound
    | with_reducible apply weightAccess_sound | with_reducible apply busWrite_sound
    | with_reducible apply Sound.ite | split

theorem dropStore_sound {b} (h : s.Sound) : State.Sound (dropStore s b) := by
  unfold dropStore; try dsimp only
  repeat' first
    | with_reducible assumption | with_reducible apply setBrl_sound

theorem storeComplete_sound {b} (h : s.Sound) : State.Sound (storeComplete s b) := by
  unfold storeComplete; try dsimp only
  repeat' first
    | with_reducible assumption | with_reducible apply windowError_sound
    | with_reducible apply writeError_sound | with_reducible apply dropStore_sound
    | with_reducible apply busWrite_sound | with_reducible apply weightAccess_sound
    | with_reducible apply unitWrite_sound | with_reducible apply brlSettle_sound
    | with_reducible apply Sound.ite | split

theorem storeLost_sound {b c} (h : s.Sound) : State.Sound (storeLost s b c) := by
  unfold storeLost; try dsimp only
  repeat' first
    | with_reducible assumption | with_reducible apply brlSettle_sound | with_reducible apply windowError_sound
    | with_reducible apply dropStore_sound

theorem windowAccessError_sound {b c} (h : s.Sound) : State.Sound (windowAccessError s b c) := by
  unfold windowAccessError; try dsimp only
  repeat' first
    | with_reducible assumption | with_reducible apply brlExecute_sound | with_reducible apply storeLost_sound
    | with_reducible apply windowRefused_sound | with_reducible apply Sound.ite | split

theorem descriptorComplete_sound {b c} (h : s.Sound) : State.Sound (descriptorComplete s b c) := by
  unfold descriptorComplete; try dsimp only
  repeat' first
    | with_reducible assumption | with_reducible apply emit_sound | with_reducible apply descDone_sound
    | with_reducible apply lineReport_sound | with_reducible apply ringWrote_sound
    | with_reducible apply scatterWrite_sound | with_reducible apply ringStop_sound
    | with_reducible apply busError_sound | with_reducible apply busWrite_sound
    | with_reducible apply Sound.ite | with_reducible refine Sound.foldl (fun _ _ _ => ?_) ?_ | split

theorem matrixTimeout_sound {b c d e} (h : s.Sound) : State.Sound (matrixTimeout s b c d e) := by
  unfold matrixTimeout; try dsimp only
  repeat' first
    | with_reducible assumption | with_reducible apply bumpBy_sound | with_reducible apply busError_sound
    | with_reducible apply emit_sound | with_reducible apply setF_sound | with_reducible apply brlExecute_sound
    | with_reducible apply storeLost_sound | with_reducible apply ringStop_sound
    | with_reducible apply Sound.ite | split

/-- VIN or RESET_N changes, or a fault is latched: `up` is shown anew. -/
theorem upShow_setPwr_sound {f : Pwr → Pwr} (h : s.Sound) : State.Sound (upShow (setPwr s f)) :=
  upShow_sound h.1 h.2.1 h.2.2.1

/-- A command whose action keeps soundness keeps it. -/
theorem run_sound {f : State → State} (hf : ∀ s, State.Sound s → State.Sound (f s)) (h : s.Sound)
    (e : run f s = .next t) : t.Sound := by
  injection e with e
  subst e
  exact Sound.ite (hf s h) h

/-- A master's command whose action keeps soundness keeps it. -/
theorem runBy_sound {m : Master} {f : State → State} (hf : ∀ s, State.Sound s → State.Sound (f s)) (h : s.Sound)
    (e : runBy m f s = .next t) : t.Sound :=
  run_sound (f := actBy m f) (fun s hs => Sound.ite hs (hf s hs)) h e

end Sys2Proof.Machine
end

