-- ==== Sys2Proof/WellFormed.lean ====
section
/-! DEFINITION. Well-formed commands: operands of the size the spec gives them. Every operand of a fixed width has its width
in its type; what is left is the alignment of register addresses, and the lengths of frames, scans and lists. -/

namespace Sys2Proof

/-- A received lane frame: 32 header bytes, four CRC bytes or none, SOF before EOF (R78, R80). -/
def RxFrame.wf (f : RxFrame) : Bool :=
  f.header.length == 32 && (f.crc.length == 0 || f.crc.length == 4) && f.sofAt ≤ f.eofAt

/-- A relay frame: 32 header bytes, at most 1,296 bytes of payload, four CRC bytes (R405). -/
def RelayFrame.wf (f : RelayFrame) : Bool :=
  f.header.length == 32 && f.payload.length ≤ 1296 && f.crc.length == 4

/-- One peaking setting's scan: 64 phase points and 64 threshold points (R61). -/
def EyeScan.wf (e : EyeScan) : Bool := e.phase.length == 64 && e.threshold.length == 64

/-- One nibble's sweep: 64 points each (R318). -/
def SweepScan.wf (e : SweepScan) : Bool := e.rd.length == 64 && e.wr.length == 64

/-- A request to BAR 2 names at least one byte (R353); a configuration request is of one field. -/
def Bar2Req.wf : Bar2Req → Bool
  | .read n => 1 ≤ n
  | .write bytes => 1 ≤ bytes.length
  | .configRead _ => true
  | .configWrite _ _ => true

/-- The command's operands are well formed. -/
def Instr.wf (i : Instr) : Bool :=
  match i with
  | .registerWrite _ addr _ _ => addr.toNat % 4 == 0
  | .rcRegisterRead _ addr _ => addr.toNat % 4 == 0
  | .pairLowWordRead _ addr => addr.toNat % 4 == 0
  | .start _ _ _ => true
  | .stop _ _ _ => true
  | .dataPathStopComplete => true
  | .frameTick _ => true
  | .correlationWindowOpen _ => true
  | .correlationWindowClose _ => true
  | .readoutWindowOpen _ => true
  | .readoutWindowClose _ => true
  | .ingestClose _ => true
  | .signalLostTimeout _ => true
  | .laneEnableWrite _ _ _ => true
  | .txPllLocked _ => true
  | .cdrLocked _ => true
  | .commaAligned _ => true
  | .bondDeskewed _ arrival => arrival.length == 2 || arrival.length == 4
  | .statusOrderedSetReceived _ _ _ => true
  | .idleOrderedSetReceived _ _ => true
  | .undefinedOrderedSetReceived _ => true
  | .codeViolation _ _ => true
  | .commaMisaligned _ => true
  | .cdrLockLost _ => true
  | .bondSkewExceeded _ arrival => arrival.length == 2 || arrival.length == 4
  | .lanePstateRequest _ _ => true
  | .lanePowerStateEntered _ => true
  | .laneWakeComplete _ => true
  | .announcedIdleDetected _ => true
  | .laneLoopbackWrite _ _ => true
  | .lanePrbsModeWrite _ _ => true
  | .laneCalStart _ => true
  | .calRunComplete _ scan => scan.length == 16 && scan.all EyeScan.wf
  | .laybySwap _ => true
  | .laneRxeqWrite _ _ _ => true
  | .laneTxeqWrite _ swing _ pre => swing.val < 16 && pre.val < 16
  | .txeqApply _ => true
  | .calPeriodExpiry => true
  | .ingestFrameReceived _ frame => frame.wf
  | .sofInsideFrame _ frame => frame.wf
  | .ingestEnableWrite _ => true
  | .xchFrameReceived _ frame _ => frame.wf
  | .ctlFrameReceived _ frame => frame.wf
  | .signpostFrameReceived _ frame => frame.wf
  | .relayFrameReceived _ frame => frame.wf
  | .twinSnapshotReceived _ frame => frame.wf
  | .twinMirrorReceived _ frame => frame.wf
  | .twinDigestReceived _ frame => frame.wf
  | .twinHeartbeatReceived _ frame => frame.wf
  | .modelLatch _ => true
  | .modelTableWrite _ _ _ _ _ => true
  | .chzSwitchArm _ _ => true
  | .chzModeArm _ _ => true
  | .gainBankWrite _ addr _ => addr.toNat % 4 == 0
  | .chzRunWrite _ => true
  | .spectrumComplete _ _ _ => true
  | .xchQueueHead _ _ => true
  | .postExchangeFix _ => true
  | .linkNarrowDelayExpiry _ => true
  | .xrWidenWrite _ => true
  | .linkWiden _ => true
  | .spanSlotChoose => true
  | .xrEnableWrite _ => true
  | .corEnable => true
  | .corDisable => true
  | .corAbort => true
  | .abortDrainComplete => true
  | .computeComplete => true
  | .flushComplete _ => true
  | .drainComplete _ => true
  | .patrolPassComplete _ _ => true
  | .causewayReadUe _ _ _ => true
  | .intEnable => true
  | .intDisable => true
  | .readoutChannel => true
  | .beamPoint _ _ => true
  | .relaySendPoint _ _ => true
  | .bfmFlipArm _ _ => true
  | .weightStoreWrite _ _ access => 1 ≤ access.data.length && access.data.length ≤ 64
  | .impulseHorizonAdvance _ _ => true
  | .triggerInject _ _ => true
  | .rawSegmentStart => true
  | .rawWriteDeadline _ _ => true
  | .segmentWriteComplete _ => true
  | .captureReleaseWrite _ => true
  | .captureTimeout _ => true
  | .holdReleaseWrite _ => true
  | .holdTimeout _ => true
  | .parallelMove _ _ => true
  | .mac _ _ _ _ => true
  | .msu _ _ _ _ => true
  | .mac2 _ _ _ _ _ => true
  | .msu2 _ _ _ _ _ => true
  | .cmac _ _ _ _ _ => true
  | .cmsu _ _ _ _ _ => true
  | .cmacj _ _ _ _ _ => true
  | .cmacz _ _ _ _ _ => true
  | .la _ _ _ => true
  | .loop _ _ _ _ => true
  | .branch _ _ _ => true
  | .call _ _ _ => true
  | .movk _ _ _ => true
  | .movkh _ _ _ => true
  | .addk _ _ _ => true
  | .cmpk _ _ _ => true
  | .ld _ _ => true
  | .st _ _ => true
  | .ldc _ _ _ _ => true
  | .add _ _ _ _ => true
  | .addc _ _ _ _ => true
  | .sub _ _ _ _ => true
  | .subc _ _ _ _ => true
  | .and _ _ _ _ => true
  | .or _ _ _ _ => true
  | .xor _ _ _ _ => true
  | .not _ _ _ => true
  | .shl _ _ _ _ => true
  | .shr _ _ _ _ => true
  | .asr _ _ _ _ => true
  | .asrr _ _ _ _ => true
  | .shlv _ _ _ _ => true
  | .asrv _ _ _ _ => true
  | .abs _ _ _ => true
  | .neg _ _ _ => true
  | .min _ _ _ _ => true
  | .max _ _ _ _ => true
  | .cmp _ _ _ => true
  | .mov _ _ _ => true
  | .cadd _ _ _ _ => true
  | .csub _ _ _ _ => true
  | .conj _ _ _ => true
  | .mpy _ _ _ _ => true
  | .mpyh _ _ _ _ => true
  | .cmpy _ _ _ _ => true
  | .mova _ _ _ => true
  | .movac _ _ _ => true
  | .movda _ _ _ => true
  | .clra _ _ => true
  | .movrToAreg _ _ _ => true
  | .movrFromAreg _ _ _ => true
  | .aadd _ _ _ => true
  | .aaddk _ _ _ => true
  | .nop _ => true
  | .ret _ => true
  | .reti _ => true
  | .halt _ => true
  | .wait _ => true
  | .swi _ => true
  | .fence _ => true
  | .sei _ => true
  | .cli _ => true
  | .sev _ _ => true
  | .iter _ _ => true
  | .interruptTake _ => true
  | .windowWriteComplete _ => true
  | .windowAccessError _ _ => true
  | .brlRunWrite _ _ => true
  | .coreReset _ => true
  | .brlStep _ => true
  | .brlMboxInWrite _ _ => true
  | .brlIrqPendWrite _ _ => true
  | .brlTimerExpiry _ => true
  | .hostCMemoryWrite _ _ _ => true
  | .refreshInterval _ _ _ => true
  | .mr4Poll _ _ _ => true
  | .memPanic _ _ => true
  | .panicEnd _ _ _ => true
  | .scrubRead found => found.all fun e => e.error.length == 20
  | .scrubWriteBack => true
  | .memUe _ _ words _ => 1 ≤ words.length && words.length ≤ 4 && words.all fun w => w.2.length == 20
  | .memGuardRefusal _ _ _ _ => true
  | .selfRefreshEntry _ _ => true
  | .selfRefreshExit _ => true
  | .requestAgePromotion _ => true
  | .memSweepCommit _ _ => true
  | .memInit => true
  | .memInitDone => true
  | .priorityEvaluation _ _ _ => true
  | .refQualified _ _ _ => true
  | .refLost _ _ _ => true
  | .buildOutComplete => true
  | .acquireLocked => true
  | .holdoverOos => true
  | .ppsEdge _ _ _ => true
  | .steerFfoWrite _ _ => true
  | .phaseAdjWrite _ _ => true
  | .ptpSyncReceived _ _ _ _ _ => true
  | .ptpFollowUpReceived _ _ _ => true
  | .ptpDelayRespReceived _ _ _ _ => true
  | .ptpAnnounceReceived _ _ _ => true
  | .ptpDelayReqSend _ _ => true
  | .ptpLinkUp _ rx tx => rx.length ≤ 64 && tx.length ≤ 64
  | .ptpMeasureWrite _ rx tx => rx.length ≤ 64 && tx.length ≤ 64
  | .ptpEnableWrite _ _ => true
  | .faultClear => true
  | .setTimeArm _ => true
  | .ppsOutSecond _ => true
  | .loadStructure _ _ _ _ => true
  | .loadRegion _ _ _ _ _ => true
  | .scheduleUpdate _ _ _ _ _ _ _ _ _ => true
  | .confirmUpdate _ _ _ => true
  | .readHealth _ _ _ => true
  | .stepPermit _ _ => true
  | .twinJoin _ _ _ _ _ => true
  | .dramSweep _ _ _ => true
  | .captureRead _ _ _ _ _ _ _ => true
  | .yodexRecord _ _ _ _ _ => true
  | .yodexReplay _ _ _ _ => true
  | .dmaDoorbell _ => true
  | .descriptorFetched _ bytes => bytes.length == 64
  | .descriptorComplete _ _ => true
  | .ctrlRefetched _ _ => true
  | .fetchError _ => true
  | .dmaDataError _ _ => true
  | .dmaRingEnable _ _ _ _ => true
  | .dmaRingDisable _ => true
  | .dmaRingResume _ => true
  | .fetchStopClear => true
  | .bar2Access _ acc => acc.wf
  | .hostReset => true
  | .eventRoute _ _ => true
  | .consumerActivation _ _ => true
  | .evtSwFire _ => true
  | .evtTimerExpiry _ => true
  | .evioEdge _ _ _ _ _ => true
  | .evioPulseEnd _ => true
  | .matrixTimeout _ _ _ => true
  | .mtxSliceWrite _ _ => true
  | .sliceApply => true
  | .relayHeaderReceived _ f => f.wf
  | .relayDataReceived _ f => f.wf
  | .relayEndReceived _ f => f.wf
  | .relayBusyReceived _ f => f.wf
  | .relayAbortReceived _ f => f.wf
  | .relayPullReceived _ f => f.wf
  | .relayResultReceived _ f => f.wf
  | .relayFallbackReceived _ f => f.wf
  | .relayMgmtReqReceived _ f => f.wf
  | .relayMgmtRspReceived _ f => f.wf
  | .sessionTimeout => true
  | .slotProgramComplete _ => true
  | .updateActivation => true
  | .trialFirmwareStart _ => true
  | .confirmTimeout => true
  | .compressorFree => true
  | .capsuleComplete _ table => table.length ≤ 16 * 256
  | .decompressGo _ => true
  | .decompressJobEnd => true
  | .yodexRecordEnd => true
  | .yodexReplayEnd => true
  | .vinRise => true
  | .vinFall => true
  | .railFault _ => true
  | .pwrReqWrite _ _ => true
  | .quiesceComplete _ => true
  | .quiesceTimeout _ => true
  | .powerDownComplete _ => true
  | .powerUpComplete _ => true
  | .resetNAssert => true
  | .resetNRelease _ board => board.dimms.length == 8
  | .chipReset _ _ => true
  | .watchdogExpiry => true
  | .thermalSample temps power => temps.length == 16 && (power.length == 0 || power.length == 8)
  | .snapshotComplete => true
  | .mirroredSetWrite _ _ addr _ => addr.toNat % 4 == 0
  | .peerLostTimeout => true
  | .twinUnsync => true
  | .ptpMasterLoss _ => true
  | .relayPathPortDown _ => true
  | .ptpDelayReqReceived _ _ _ _ => true
  | .dramSweepComplete scans => scans.length == 10 && scans.all SweepScan.wf
  | .structureLoadComplete => true
  | .yodexStreamComplete => true
  | .matrixLateResponse => true
  | .pwrgoodReleased => true
  | .timeOutputPulseEnd _ => true
  | .vioRefFoldback => true
  | .vioRefLoadFall => true
  | .mailboxBadCommand _ _ _ => true

end Sys2Proof
end

