-- ==== Sys2Proof/Tests/Slice0.lean ====
section
/-! SUPPORT. Tests: ill-formed terms, words and rules of the spec on small states, and states and operands that meet the
hypotheses of every statement. -/

namespace Sys2Proof.Tests

set_option Elab.async false

open Sys2Proof Sys2Proof.Machine

/-- The reset state with some fields set. -/
def set (l : List (Fld × Nat)) : State := l.foldl (fun s x => setF s x.1 x.2) State.reset

/-- Power domain `d` is in the state with code `st`. -/
def dom (d st : Nat) : Fld × Nat := (⟨R.PWR_STATE (d / 10), 3 * (d % 10) + 2, 3 * (d % 10)⟩, st)

/-- A whole register. -/
def reg (a v : Nat) : Fld × Nat := (⟨a, 31, 0⟩, v)

/-- Lane `n`'s domain on and its link in state `st`. -/
def laneIn (n st : Nat) : State := set [dom (9 + n / 14) 2, (F.LANE_CTRL_EN_TX n, 1), (F.LANE_CTRL_EN_RX n, 1), (F.LANE_STATUS_LINK_STATE n, st)]
/-- A frame whose header is the 30 bytes `h` with their check, all of one payload byte value, from `at'` on. -/
def frame (h : List Byte) (payload : List Byte) (at' : Nat) : RxFrame :=
   { header := h ++ leBytes 2 (crc16 h).toNat, headerCv := false, payload := payload.map some,
     crc := (leBytes 4 (crc32c (payload ++ List.replicate ((4 - payload.length % 4) % 4) 0)).toNat).map some, eofInPlace := true,
     sofAt := at', eofAt := at' + 2000, acrossStep := false }
/-- Header bytes: type, length, bytes 4 to 7, and the rest of 30. -/
def header (type len : Nat) (b : List Byte) (rest : List Byte) : List Byte :=
   ([BitVec.ofNat 8 type, 0x10] ++ leBytes 2 len ++ b ++ rest ++ List.replicate 30 0).take 30
/-- The state runs from frame 0 on and stands in frame `f`, `x` samples after its start. -/
def running (s : State) (f x : Nat) : State :=
   { s with arch := { s.arch with running := true }, counter := BitVec.ofNat 64 (frameStart f + x) }
/-- An INGEST frame of lane 15 that is on time in frame 5. -/
def ingestFrame5 : RxFrame :=
   { frame (header 1 16384 [0, 0, 60, 0] (leBytes 8 (5 * 2 ^ 21 + 8192))) [] (5 * 2 ^ 21 + 20000) with
     payload := List.replicate 16384 (some 0) }
/-- All filter codes defined, lengths of one span of 4 frames, channelizer domains on. -/
def chzOn : State := set [dom 5 2, dom 6 2, dom 7 2, dom 8 2, (F.INT_CONFIG_SPAN_FRAMES, 32), (F.INT_CONFIG_SPANS, 1)]
/-- A packet of spectrum 254 of frame 5 from chip 1 to chip 0 of a row of two. -/
def xchFrame : RxFrame :=
   { frame (header 2 8200 [1, 0, 1, 0] (leBytes 6 5 ++ [254, 1] ++ leBytes 2 64 ++ leBytes 2 64 ++ leBytes 2 0 ++
       leBytes 2 64 ++ leBytes 4 (5 * 256 + 254) ++ leBytes 2 2)) [] (frameStart 5 + 3000) with
     payload := List.replicate 8200 (some 0) }
/-- Chip 0 of a row of two, with its link to chip 1 up. -/
def rowOfTwo : State :=
   setR (set [dom 10 2, dom 23 2, (F.LANE_STATUS_LINK_STATE 16, 5), (F.XR_GEOMETRY_ROWS, 1), (F.XR_GEOMETRY_COLS, 2)])
     R.XR_ROW_LINK_0 0x0F
/-- Beamformer, correlator, integration and trigger engine enabled and powered, spans of 32 frames, one span an integration,
in frame `f`. -/
def units (f x : Nat) (l : List (Fld × Nat)) : State :=
   running (set ([dom 9 2, dom 10 2, dom 11 2, dom 12 2, dom 21 2, dom 22 2, dom 23 2, dom 24 2, dom 25 2, dom 26 2,
     (F.INT_CONFIG_SPAN_FRAMES, 32), (F.INT_CONFIG_SPANS, 1), (F.BFM_CTRL_EN, 1), (F.TRG_CTRL_EN, 1)] ++ l)) f x
/-- A RELAY frame of octet 7 of spectrum 255 of frame 5 from the position before. -/
def relayFrame : RxFrame :=
   { frame (header 5 12288 [0, 0, 0, 255] (leBytes 6 5 ++ [255, 0] ++ leBytes 2 56 ++ [8])) [] (frameStart 6) with
     payload := List.replicate 12288 (some 0) }
/-- A block whose 64 GiB of memory are served and initialised. -/
def memOn (l : List (Fld × Nat)) : State :=
   set ([dom 25 2, dom 26 2, (F.MEM_CTRL_EN, 1), (F.MEM_STATUS_INIT_DONE, 1), (F.MEM_CONFIG_GIB, 64), (F.MEM_CONFIG_CHANNELS, 8)] ++ l)
/-- The data path stands still in frame 8, spans of 32 frames, one span an integration. -/
def idle (l : List (Fld × Nat)) : State :=
   { set ([dom 23 2, dom 24 2, dom 25 2, dom 26 2, dom 27 2, (F.INT_CONFIG_SPAN_FRAMES, 32), (F.INT_CONFIG_SPANS, 1)] ++ l) with
     counter := BitVec.ofNat 64 (frameStart 8) }
/-- A relay command of the first port waits for the supervisor. -/
def asked (s : State) (cmd tag : Nat) (args : List Byte) : State :=
   { s with mail := { s.mail with relay := [⟨cmd, tag, args, .relay 0 5 6, none⟩] } }
/-- A relay frame that passes. -/
def relay (kind flags hops serial time offset : Nat) (payload : List Byte) : RelayFrame :=
   let h := relayHeader kind flags hops payload.length serial time offset
   { header := h, payload := payload, crc := leBytes 4 (crc32c (h ++ payload)).toNat }
/-- Header and table of a bundle of ten sections of 64 bytes. -/
def imageHead : List Byte :=
   let h := leBytes 4 0x4C4E5853 ++ leBytes 2 0x100 ++ leBytes 1 (memberCode State.reset) ++ [1] ++ leBytes 8 77 ++ leBytes 4 10 ++
     leBytes 4 256 ++ leBytes 4 1216 ++ leBytes 4 1472 ++ List.replicate 220 0
   h ++ leBytes 4 (crc32c h).toNat ++ ((List.range 10).flatMap fun k =>
     [BitVec.ofNat 8 (if k < 8 then k + 1 else k + 2), BitVec.ofNat 8 (if k < 8 then k + 1 else 0), 0, 0] ++
       leBytes 4 (576 + 64 * k) ++ leBytes 4 64 ++ List.replicate 20 0)
/-- A relay session of serial 5 and time 6 from port `p`, or of this chip's host. -/
def sess (p : Option Nat) (serial : Nat) (ended : Bool) : StrSession :=
   { serial := serial, time := 6, port := p, force := false, relay := true, tag := 9, schedule := none, head := imageHead,
     image := [], ended := ended, same := false }
/-- Such a session is in state `st`. -/
def inSession (x : StrSession) (st : Nat) : State :=
   { memOn [dom 27 2, (F.STR_SESSION_STATE, st)] with str := { session := some x, firmware := true }, ptp := { up := [0, 1] } }
/-- Slot 1 is on trial. -/
def onTrial : State :=
   { memOn [(F.STR_STATUS_TRIAL, 1)] with
     str := { slots := [(1, leBytes 8 0 ++ leBytes 8 77)], record := [(0, bootRecord 1 0 1 0 9 0 5)], restart := some 1 } }
/-- That state with the settings read. -/
def onTrialParsed : State := settingsRestore { onTrial with
   str := { onTrial.str with
     restart := none, trialAt := onTrial.counter.toNat
     settings := onTrial.str.settings.put 1
       ⟨leAt (onTrial.str.slots.get [] 1) 40 4, (onTrial.str.settings.get ⟨0, []⟩ (activeSlot onTrial)).regs⟩ }
   mail := { onTrial.mail with restarting := false } } 1
set_option maxRecDepth 100000
theorem leNat_leBytes (k n : Nat) : leNat (leBytes k n) = n % 256 ^ k := by
   induction k generalizing n with
   | zero => simp [leBytes, leNat, Nat.mod_one]
   | succ k ih =>
     simp only [leBytes, leNat, ih, BitVec.toNat_ofNat]
     rw [show 256 ^ (k + 1) = 256 * 256 ^ k by rw [Nat.pow_succ, Nat.mul_comm], Nat.mod_mul]
theorem deviceSerial_lt : deviceSerial < 2 ^ 64 := (Config.fuse 0).isLt
theorem relay_key (kind flags hops serial time offset : Nat) (payload : List Byte) :
     RelayFrame.key (relay kind flags hops serial time offset payload) = (serial % 2 ^ 64, time % 2 ^ 64) := by
   show (leNat (leBytes 8 serial), leNat (leBytes 8 time)) = _
   rw [leNat_leBytes, leNat_leBytes]
   rfl
theorem relay_good (kind flags hops serial time offset : Nat) (payload : List Byte) (h : payload.length < 65536) :
     RelayGood (relay kind flags hops serial time offset payload) := by
   refine ⟨rfl, ?_, rfl⟩
   show _ = leNat (leBytes 2 payload.length)
   rw [leNat_leBytes, show 256 ^ 2 = 65536 from rfl, Nat.mod_eq_of_lt h]
   rfl
/-- A serial number that is not this chip's. -/
def otherSerial : Nat := (deviceSerial + 1) % 2 ^ 64
theorem otherSerial_ne : otherSerial % 2 ^ 64 ≠ deviceSerial := by
   have := deviceSerial_lt
   unfold otherSerial
   omega
/-- Only entry `e` of the priority table holds a source, `w`; the DPLL is in state `st`. -/
def clock (e w st : Nat) (l : List (Fld × Nat)) : State :=
   set ((List.range 8).map (fun x => reg (R.CLK_PRIO x) (if x = e then w else 0)) ++ [(F.CLK_STATUS_DPLL_STATE, st)] ++ l)
/-- The table in force is the written one. -/
def inForce (s : State) : State := { s with clk := { s.clk with table := (List.range 8).map fun x => rd s (R.CLK_PRIO x) } }
/-- PTP is enabled on port `n`, whose link is up and measured, and which is in state `st` with the master 7, 1. -/
def ptpOn (n st : Nat) (p : Ptp) : State :=
   { set [(F.PTP_CTRL_EN, 1), (F.PTP_CTRL_PORT_EN, 3), (if n = 0 then F.PTP_STATUS_PORT_0_STATE else F.PTP_STATUS_PORT_1_STATE, st),
       reg R.PTP_MASTER_ID_LO 7, reg R.PTP_MASTER_PORT 1] with ptp := { p with up := [0, 1], measured := [0, 1] } }
/-- A message of that master. -/
def ptpMsg : PtpMsg := ⟨.own, 2, BitVec.ofNat 8 (getF State.reset F.PTP_CTRL_DOMAIN), 7, 1, 5, 65536, [1]⟩
/-- A TWIN frame of a kind and offset, and a chip in twin state `st` and role `r` on whose lane 49 it comes. -/
def twinFrame (kind offset : Nat) (payload : List Byte) : RxFrame :=
   frame (header 6 payload.length ([0, 0] ++ leBytes 2 kind) (leBytes 8 offset)) payload 0
def twinChip (st r : Nat) (t : Twin) : State :=
   { set [dom 12 2, (F.LANE_STATUS_LINK_STATE 49, 5), (F.TWN_STATUS_STATE, st), (F.TWN_STATUS_ROLE, r),
       (F.INT_CONFIG_SPAN_FRAMES, 32), (F.INT_CONFIG_SPANS, 1), (F.TWN_STATUS_PEER_ALIVE, 1), (F.TWN_TIMEOUT_VALUE, 9)] with twin := t }
/-- A digest of span 1, and its payload. -/
def digest1 : Digest := ⟨1, [1, 2, 3, 4, 5], true⟩
def digestBytes : List Byte := ([1, 2, 3, 4, 5].flatMap fun n => leBytes 4 n) ++ leBytes 4 1
/-- Beryl core `k` in RUNNING with the slots `l` set, otherwise holding `c`, and some fields set. -/
def core (k : Nat) (l : SMap DWord) (c : BrlCore := {}) (f : List (Fld × Nat) := []) : State :=
   { set ([dom (1 + k) 2, (F.BRL_STATUS_STATE k, 1), (F.BRL_CTRL_RUN k, 1)] ++ f) with brl := [(k, { c with file := l })] }
/-- The same with the words `w` of its C memory written. -/
def withC (k : Nat) (w : List (Nat × Nat)) (s : State) : State :=
   w.foldl (fun s x => arrSet s .brlC (0x10000 * k + x.1) (BitVec.ofNat 64 x.2)) s
/-- Every power domain ON, and some fields set. -/
def allOn (l : List (Fld × Nat)) : State := set (((List.range 29).map fun d => dom (d + 1) 2) ++ l)
/-- A descriptor of the kind `k` of `n` bytes from device address `d` to host address `h`. -/
def descOf (k h d n : Nat) : List Byte :=
   leBytes 8 h ++ leBytes 8 d ++ leBytes 4 n ++ List.replicate 18 0 ++ [0, BitVec.ofNat 8 k] ++ List.replicate 24 0
/-- Ring `n` RUNNING with what it holds, DRAM on, and some fields set. -/
def ringOn (n : Nat) (r : DmaRing) (l : List (Fld × Nat) := []) : State :=
   { memOn ([dom 27 2, dom 28 2, (F.DMA_RING_CTRL_EN n, 1), (F.DMA_RING_STATUS_STATE n, 2), (F.DMA_RING_CTRL_SIZE_LOG n, 4)] ++ l) with dma := [(n, r)] }
/-- The state a command answers; the reset state where it answers none. -/
def after (r : Host.Outcome State Fault Refusal) : State := match r with
   | .next t => t
   | _ => State.reset
/-- A ring with a KIND 3 descriptor whose capsule is in progress. -/
def packing : State := { ringOn 0 { descs := [⟨0, descOf 3 4096 0 4⟩] } with cmp := { current := some (0, 6) } }
/-- The capsule of `packing`. -/
def packed : List Byte × List Byte :=
   capsule 6 (DmaDesc.mk 0 (descOf 3 4096 0 4)).user (flag packing F.CMP_CTRL_FLUSH_PER_RUN)
     (0 < (badLines packing (DmaDesc.mk 0 (descOf 3 4096 0 4)).addrs).length)
     (descRead packing (DmaDesc.mk 0 (descOf 3 4096 0 4)).addrs)
     (deflateStream 6 (max 1 (getF packing F.CMP_CTRL_BLOCK_KIB))
       (if flag packing F.CMP_CTRL_FLUSH_PER_RUN = true then (DmaDesc.mk 0 (descOf 3 4096 0 4)).runs.map fun _ => (DmaDesc.mk 0 (descOf 3 4096 0 4)).len0 else [])
       (descRead packing (DmaDesc.mk 0 (descOf 3 4096 0 4)).addrs))
/-- Event channel `c` enabled with source 32, some fields set. -/
def channel (c : Nat) (l : List (Fld × Nat)) : State :=
   allOn ([(F.EVT_CTRL_EN, 1), (F.EVT_CH_CFG_SOURCE c, 32), (F.EVT_CH_CFG_EN c, 1), (reg R.EVT_GROUP_EN 0xFF)] ++ l)
/-- Consumer input `i` enabled for channel 3, which fired in cycle 4. -/
def consumer (i : Nat) (l : List (Fld × Nat)) : State :=
   { channel 3 ([(F.EVT_CON_CFG_EN i, 1), (reg (R.EVT_CON_MASK_LO i) 8)] ++ l) with evt := { fired := [(4, 3)] } }
/-- VIN has fallen, and RESET_N is `r`. -/
def powerless (v r : Bool) : State :=
   { State.reset with pwr := { vin := v, resetN := r, pwrgood := false }, arch := { up := v && r } }
/-- Words as bytes. -/
def words (l : List Nat) : List Byte := l.flatMap (leBytes 4)
/-- The sections of `bundle`: TYPE, REGION, place and length, and CRC-32C. -/
def bundleTable : List (Nat × Nat × Nat × Nat × Nat) :=
  [(1, 1, 576, 8, 0x3E8DCEA9), (2, 2, 640, 8, 0xA7716FF2), (3, 3, 704, 8, 0x677D5FCC), (4, 4, 768, 8, 0xB57D83CF),
    (5, 5, 832, 8, 0xAD293E41), (6, 6, 896, 8, 0xC690913B), (7, 7, 960, 8, 0x4D60DC5D), (8, 8, 1024, 92, 0xC6E1F005),
    (10, 0, 1152, 1, 0xA016D052), (11, 0, 1216, 1, 0xB34623A6)]
/-- A bundle of the smallest sections that pass every check: spans of 16 frames, integrations of one, a partition of
64 GiB. Its signature verifies under the key in it. -/
@[irreducible] def bundle : List Byte :=
  words [0x4C4E5853, 0x10C0100] ++ leBytes 8 0xC42C938BFB56E498 ++ words [10, 256, 1280, 1536, 3, 1, 1] ++
    List.replicate 208 0 ++ words [0x460112F7] ++
    (bundleTable.flatMap fun (t, r, o, n, c) => words [t + 256 * r, o, n, c] ++ List.replicate 16 0) ++
    ([0x200000, 0x800000, 0x900000, 0x400000].flatMap fun a => words [2 ^ 30 + a, 0] ++ List.replicate 56 0) ++
    words [0xA00008, 0x10010] ++ List.replicate 56 0 ++
    ([0x1300000, 0x1500000].flatMap fun a => words [2 ^ 30 + a, 0] ++ List.replicate 56 0) ++
    words [0x41100060, 12, 0, 0, 0, 0, 0, 0x2100, 0x2100, 0x80, 0, 0, 0xF000, 0x1000, 0x800058, 1024, 0x40A00018, 3,
      0x10000000, 2, 1, 0xB00208, 1] ++ List.replicate 36 0 ++
    1 :: List.replicate 63 0 ++ 2 :: List.replicate 63 0 ++
    words [0x4C4E5347, 0] ++
    leBytes 48 0x98c6997c90b33e65ab933ea2f453ad5ca3ebf8fe688df4b1986471417035e8ce1e341e84d6e74b973146a43e54d9293a ++
    leBytes 48 0x39abcbcd5d03a66f34c4adf6ea97d0db900e0448a0b02bd6791540623872c1b860950a4bf5d74af4dcdbb4f1367dc51c ++
    leBytes 48 0xe5e71a2ec04a4f2f62945dda3d7017f08940742fd15318090384ce3cbc48e8ee70ac296b9f9f2662e43d6057686b44dd ++
    leBytes 48 0xe5e71a2ec04a4f2f62945dda3d7017f08940742fd15318090384ce3cbc48e8ee70ac296b9f9f2662e43d6057686b44dd ++
    List.replicate 56 0
theorem bundle_head : headCheck 12 (imageOf bundle) = none := by decide +kernel
theorem bundle_sections : badSection bundle [] (sections bundle) = none := by decide +kernel
theorem bundle_layout : layoutOk bundle = true := by decide +kernel
theorem bundle_crcs : ((sections bundle).find? fun x => (crc32c (sectionBytes bundle x)).toNat != x.crc) = none := by decide +kernel
/-- R395: IMAGE_ID as Python's hashlib gives it for the same bytes. -/
theorem test_bundle_id : contentId bundle = imageId bundle := by decide +kernel
/-- R395: a signature made outside the model, from the curve's addition law, verifies. -/
theorem test_bundle_signature : signatureOk bundle = true := by decide +kernel
theorem bundle_whole : imageOf bundle = bundle := by decide +kernel
/-- Where the fuses hold no key hash, the bundle passes the checks of orders 1 to 8. -/
theorem bundle_passes (hk : keyBlank = true) (b : Bool) : imageCheck 12 bundle b = none := by
  have h : ¬ (62914560 < imageLen bundle ∨ bundle.length < imageLen bundle) := by decide +kernel
  have h10 : hasSection bundle 10 = true := by decide +kernel
  have h11 : hasSection bundle 11 = true := by decide +kernel
  have hb : isBundle bundle = true := by decide +kernel
  have hA := bundle_head
  rw [bundle_whole] at hA
  have hk' : keyOk bundle = true := by unfold keyOk; rw [hk]; rfl
  simp only [imageCheck, bundle_whole, h, hA, bundle_sections, bundle_layout, bundle_crcs, test_bundle_id,
    test_bundle_signature, h10, h11, hb, hk', if_false, not_true_eq_false, and_false, ne_eq, or_self, and_self]
theorem defaultOrder_nodup : ((List.range 544).map Machine.defaultOrder).Nodup := by
  refine List.Nodup.map_on ?_ List.nodup_range
  intro a ha b hb h
  simp only [List.mem_range] at ha hb
  simp only [Machine.defaultOrder] at h
  split at h <;> split at h <;> omega
theorem defaultOrder_lt (e : Nat) (h : e < 544) : Machine.defaultOrder e < 544 := by
  unfold Machine.defaultOrder
  split <;> omega
theorem content_passes (s : State) (img : List Byte)
    (ho : (List.range 544).map (orderEntry (shadowState s img)) = (List.range 544).map Machine.defaultOrder)
    (h : (contentRules.all fun e => e.1 == 3 || e.2 (shadowState s img)) = true) : contentCheck s img = none := by
  have h3 : orderRule (shadowState s img) = true := by
    simp only [orderRule, ho]
    simp only [defaultOrder_nodup, decide_true, Bool.and_true, List.all_eq_true, decide_eq_true_eq]
    simp only [List.mem_map, List.mem_range]
    rintro x ⟨e, he, rfl⟩
    exact defaultOrder_lt e he
  have hn : contentRules.find? (fun e => !e.2 (shadowState s img)) = none := by
    simp [contentRules] at h ⊢
    simp [h3, h]
  simp [contentCheck, hn]
/-- In state `s` the bundle's order list is the default one. -/
def ordered (s : State) : Bool :=
  (List.range 544).map (orderEntry (shadowState s bundle)) == (List.range 544).map Machine.defaultOrder
/-- In state `s` the bundle is for this member and keeps every other content rule. -/
def ruled (s : State) : Bool := memberCode s == 12 && contentRules.all fun e => e.1 == 3 || e.2 (shadowState s bundle)
/-- Where the fuses hold no key hash, the bundle passes every check in such a state. -/
theorem bundle_full (hk : keyBlank = true) (s : State) (b : Bool) (ho : ordered s = true) (h : ruled s = true) :
    fullCheck s bundle b = none := by
  simp only [ruled, Bool.and_eq_true, beq_iff_eq] at h
  simp only [fullCheck, h.1, bundle_passes hk, bundle_whole]
  exact content_passes s bundle (by simpa [ordered] using ho) h.2
/-- Slot 1 holds the bundle, and its trial is about to start. -/
def bundleTrial : State :=
  { memOn [(F.STR_STATUS_TRIAL, 1)] with str := { slots := [(1, bundle)], record := [(0, bootRecord 1 0 1 0 9 0 5)], restart := some 1 } }
/-- That state with the settings read. -/
def bundleParsed : State := settingsRestore { bundleTrial with
  str := { bundleTrial.str with
    restart := none, trialAt := bundleTrial.counter.toNat
    settings := bundleTrial.str.settings.put 1
      ⟨leAt (bundleTrial.str.slots.get [] 1) 40 4, (bundleTrial.str.settings.get ⟨0, []⟩ (activeSlot bundleTrial)).regs⟩ }
  mail := { bundleTrial.mail with restarting := false } } 1
/-- A load of the bundle is under way. -/
def bundleLoad : State := { memOn [] with str := { load := some ⟨1, 9, none, bundle, none⟩ } }
/-- The state in which it is checked. -/
def bundleLoaded : State := setStr (setF bundleLoad F.STR_STATUS_LOADING 0) fun x => { x with load := none }
theorem bundleLoaded_ordered : ordered bundleLoaded = true := by decide +kernel
theorem bundleLoaded_ruled : ruled bundleLoaded = true := by decide +kernel
theorem loadFails_none (s : State) (l : StrLoad) (h : fullCheck s l.bytes (!s.str.firmware) = none) (hr : l.region = none)
    (ha : s.arch.running = false) : loadFails s l = none := by
  simp [loadFails, h, hr, ha]
theorem bundleLoaded_passes (hk : keyBlank = true) : loadFails bundleLoaded ⟨1, 9, none, bundle, none⟩ = none :=
  loadFails_none _ _ (bundle_full hk _ _ bundleLoaded_ordered bundleLoaded_ruled) rfl (by decide +kernel)
/-- The bundle is staged for an update. -/
def bundleStaged : State := { memOn [dom 27 2] with dram := writeBytes [] 0xF00100000 bundle }
/-- The state in which the update is checked. -/
def bundleTaken : State := acceptAsync (served bundleStaged 10 0xF00100000 1536) .host 5 1
theorem bundleTaken_ordered : ordered bundleTaken = true := by decide +kernel
theorem bundleTaken_ruled : ruled bundleTaken = true := by decide +kernel
theorem bundleStaged_read : unitRead bundleStaged 10 0xF00100000 1536 = some bundle := by
  have h : (dramUsable bundleStaged && guardOk bundleStaged 10 0xF00100000 1536 false &&
    !dramBad bundleStaged 0xF00100000 1536) = true := by decide +kernel
  have hl : bundle.length = 1536 := by decide +kernel
  rw [unitRead, if_pos h]
  congr 1
  refine List.ext_getElem (by simp [dramRead, readBytes, hl]) fun i h1 h2 => ?_
  simp only [dramRead, readBytes, List.getElem_map, List.getElem_range]
  rw [show bundleStaged.dram = writeBytes [] 0xF00100000 bundle from rfl]
  exact readByte_writeBytes_inside bundle [] 0xF00100000 i h2
theorem bundleParsed_ordered : ordered bundleParsed = true := by decide +kernel
theorem bundleParsed_ruled : ruled bundleParsed = true := by decide +kernel
theorem packed_fits : packed.1.length + packed.2.length ≤ ([(⟨8192, 4096, true⟩ : ChainEntry)].map (·.len.toNat)).sum := by
  have hf : flag packing F.CMP_CTRL_FLUSH_PER_RUN = false := by decide +kernel
  have hl : (descRead packing (DmaDesc.mk 0 (descOf 3 4096 0 4)).addrs).length = 4 := by decide +kernel
  have hb : max 1 (getF packing F.CMP_CTRL_BLOCK_KIB) = 64 := by decide +kernel
  unfold packed
  rw [capsule_length, hf, hb]
  have := deflateStream_length_le 6 64 (descRead packing (DmaDesc.mk 0 (descOf 3 4096 0 4)).addrs) (by omega) (by omega) (by omega)
  simp only [Bool.false_eq_true, if_false]
  refine Nat.le_trans (Nat.add_le_add_right this 48) ?_
  rw [hl]
  decide

/-! ## Ill-formed terms, which the check refuses -/

/-- A received frame with everything it should have but the payload. -/
def aFrame : RxFrame := ⟨List.replicate 32 0, false, [], [], true, 0, 0, false⟩

/-- A relay frame without a payload. -/
def aRelay : RelayFrame := ⟨List.replicate 32 0, [], List.replicate 4 0⟩

theorem test_wf_accepts : Instr.wf (.registerWrite .host 4 5 0xF) = true ∧ Instr.wf (.ingestFrameReceived 0 aFrame) = true ∧
    Instr.wf (.relayHeaderReceived 0 aRelay) = true ∧ Instr.wf (.bondDeskewed 0 [1, 2]) = true ∧
    Instr.wf (.descriptorFetched 0 (List.replicate 64 0)) = true ∧ Instr.wf .sliceApply = true := by decide

theorem test_wf_unaligned_addresses : Instr.wf (.registerWrite .host 2 5 0xF) = false ∧
    Instr.wf (.rcRegisterRead .host 1 0xF) = false ∧ Instr.wf (.pairLowWordRead .host 3) = false ∧
    Instr.wf (.gainBankWrite .host 0x600002 5) = false ∧ Instr.wf (.mirroredSetWrite .host true 1 5) = false := by decide

theorem test_wf_short_header : Instr.wf (.ingestFrameReceived 0 { aFrame with header := [] }) = false ∧
    Instr.wf (.relayHeaderReceived 0 { aRelay with header := [] }) = false := by decide

theorem test_wf_frame_crc : Instr.wf (.ctlFrameReceived 0 { aFrame with crc := [none] }) = false ∧
    Instr.wf (.relayDataReceived 0 { aRelay with crc := [] }) = false := by decide

theorem test_wf_frame_times : Instr.wf (.sofInsideFrame 0 { aFrame with sofAt := 2, eofAt := 1 }) = false := by decide

theorem test_wf_relay_payload : Instr.wf (.relayDataReceived 0 { aRelay with payload := List.replicate 1297 0 }) = false := by
  decide +kernel

theorem test_wf_arrivals : Instr.wf (.bondDeskewed 0 [1, 2, 3]) = false ∧ Instr.wf (.bondSkewExceeded 0 []) = false := by
  decide

theorem test_wf_scans : Instr.wf (.calRunComplete 0 []) = false ∧ Instr.wf (.dramSweepComplete []) = false ∧
    Instr.wf (.calRunComplete 0 (List.replicate 16 ⟨[], []⟩)) = false ∧
    Instr.wf (.dramSweepComplete (List.replicate 10 ⟨[], []⟩)) = false := by decide

theorem test_wf_txeq : Instr.wf (.laneTxeqWrite 0 16 0 0) = false ∧ Instr.wf (.laneTxeqWrite 0 0 0 16) = false := by decide

theorem test_wf_counts : Instr.wf (.weightStoreWrite .host 0 ⟨false, []⟩) = false ∧
    Instr.wf (.weightStoreWrite .host 0 ⟨true, List.replicate 65 none⟩) = false ∧ Instr.wf (.memUe 0 0 [] false) = false ∧
    Instr.wf (.memUe 0 0 (List.replicate 5 (0, List.replicate 20 0)) false) = false ∧
    Instr.wf (.memUe 0 0 [(0, [1])] false) = false ∧ Instr.wf (.resetNRelease 0 ⟨false, []⟩) = false := by decide

theorem test_wf_ptp : Instr.wf (.ptpLinkUp 0 (List.replicate 65 0) []) = false ∧
    Instr.wf (.ptpMeasureWrite 0 [] (List.replicate 65 0)) = false := by decide

theorem test_wf_dma : Instr.wf (.descriptorFetched 0 []) = false ∧ Instr.wf (.bar2Access 0 (.read 0)) = false ∧
    Instr.wf (.bar2Access 0 (.write [])) = false := by decide

theorem test_wf_chain : Instr.wf (.capsuleComplete 0 (List.replicate 4097 0)) = false := by decide +kernel

theorem test_wf_thermal : Instr.wf (.thermalSample [] []) = false ∧
    Instr.wf (.thermalSample (List.replicate 16 0) [1]) = false := by decide

/-! ## Numbers that the spec works out -/

/-- The ASCII bytes "123456789" (R80). -/
def digits : List Byte := [0x31, 0x32, 0x33, 0x34, 0x35, 0x36, 0x37, 0x38, 0x39]

/-- R80: HCRC over "123456789". -/
theorem test_hcrc : crc16 digits = 0x29B1 := by decide +kernel

/-- R80: CRC-32C over "123456789". -/
theorem test_crc32c : crc32c digits = 0xE3069283 := by decide +kernel

/-- 04, worked example: integer delay and phase at four output samples. -/
theorem test_delay :
    let m : ModelEntry := ⟨0x04D2800000000000, 0x0000002000000000, 0, 0x40000000, 0, 0, 0x00100000, 0⟩
    delayAt m 0 = (1234, 128, false) ∧ delayAt m 262143 = (1234, 128, false) ∧
      delayAt m 262144 = (1234, 129, false) ∧ delayAt m 2097151 = (1234, 132, false) := by decide +kernel

/-- 04, worked example: rotation index 2,024 and its rotor. -/
theorem test_rotor :
    rotIndex ⟨0, 0, 0, 0x40000000, 0, 0, 0x00100000, 0⟩ 0 1000 = 2024 ∧ rotor 2024 = (-32746, 1206) := by
  decide +kernel

/-- 04, worked example: 10 clips to 7 and counts, and −6.03 rounds to −6; 4+4 byte 0x7A. -/
theorem test_requantize : requantize false 1200 (-350) 24 ⟨151337, -40212⟩ = ([0x7A], 1) := by decide +kernel

/-- 06, worked example: block 285 pairs groups 23 and 9; 0x3E is 3 − 2j and 0xF5 is −1 + 5j, whose product with the
conjugate is −13 − 13j (16 times in a batch here). -/
theorem test_baseline : blockPair 285 = (23, 9) ∧ sampleOf false [0x3E] = ⟨3, -2⟩ ∧ sampleOf false [0xF5] = ⟨-1, 5⟩ ∧
    flopSum (fun _ => ⟨3, -2⟩) (fun _ => ⟨-1, 5⟩) 0 = (-208, -208) := by decide +kernel

/-- 07, worked example: word 7,250 of block 285 of channel 17 in set 1, with the sum store at 96 GiB, and slot 17 of
buffer 1 with staging at 105 GiB and slots of 65 MiB. -/
theorem test_sum_store :
    sumAddr (set [(reg (R.INT_SUM_BASE_LO + 4) 0x18)]) 1 17 285 7250 = 0x19505AE290 ∧
      stageAddr (set [(reg R.INT_STAGE_BASE_LO 0x40000000), (reg (R.INT_STAGE_BASE_LO + 4) 0x1A),
        (F.INT_PRODUCT_SLOT_MIB, 65)]) 1 17 = 0x1B89100000 := by decide +kernel

/-- 08, worked example: beam and send points of spectrum 100 relative to the frame, the sums and the output. -/
theorem test_beam_value : beamPoint 0 100 = 1236991 ∧ sendPoint State.reset 0 100 = 1245183 ∧
    rhu 1201 1 = 601 ∧ rhu (-75) 1 = -37 ∧ rhu 2348 1 = 1174 ∧ rhu (-654) 1 = -327 ∧
    beamQuant 4 1775 = (111, 0) ∧ beamQuant 4 (-364) = (-23, 0) := by decide +kernel

/-- 12, worked example: an ingress stamp of 7,000 ns with a receive latency of 84.375 ns gives 6,915.625 ns. -/
theorem test_medium_time :
    (mediumTime (set [reg (R.PTP_PORT_RX_LAT 0) 1350]) 0 ⟨112000, 112000⟩ false).2 = 453222400 := by decide +kernel

/-- 10, worked example: P4 = 0x1005 with CB0 = 0x1000 and CL0 = 6 wraps to 0x1000, and circ(0x1000, −2) is 0x1004. -/
theorem test_circular : circ 0x1005 1 0x1000 6 = (0x1000, false) ∧ circ 0x1000 (-2) 0x1000 6 = (0x1004, false) := by
  decide +kernel

/-- R295: NOP, and the worked example of a complex product with two loads. -/
theorem test_beryl_words : brlDecode 0x20000000 = some .nop ∧
    brlDecode 0xD0092124 = some (.pm (some .cmac) 0 0 1 ⟨.load 0 true 0, .load 0 true 1⟩) ∧
    brlDecode 0xD0092125 = none ∧ brlDecode 0x00000000 = none := by decide +kernel

/-- R294: one word of each other format: LA P1 = 8; LOOP I, 2 instructions, count 64; B NE to 5; CALL to 5;
MOVKH D2 = 0xFFFF; ST X D3, P1, mode 1, −1; ASR D1 = D2 >> 31; MOVR areg 20 ← D4; ITER D7. -/
theorem test_beryl_formats : brlDecode 0xA1000008 = some (.la 1 8) ∧
    brlDecode 0x9001003F = some (.loop true (.imm 63) 1) ∧ brlDecode 0x72000005 = some (.branch 2 5 false) ∧
    brlDecode 0x70800005 = some (.branch 0 5 true) ∧ brlDecode 0x6480FFFF = some (.movkh 2 0xFFFF) ∧
    brlDecode 0x58650FFF = some (.store ⟨false, 3, 1, 1, 0xFFF⟩) ∧ brlDecode 0x428483E0 = some (.alu .asr 1 2 0 31) ∧
    brlDecode 0x30A20000 = some (.movrTo 20 4) ∧ brlDecode 0x2A800007 = some (.iter (.reg 7)) := by decide +kernel

/-- 11, worked example: the sum-store word at 0x19_505A_E290 in the 128 GiB system. -/
theorem test_memory_place :
    let s := set [(F.MEM_CONFIG_GIB, 128), (F.MEM_CONFIG_CHANNELS, 8), (F.MEM_CONFIG_RANKS, 1), (F.MEM_CONFIG_WIDTH, 8)]
    let l := memLine s 0x19505AE290
    memSub s 0x19505AE290 = 6 ∧ l = 0x065416B8 ∧ memColumn l = 56 ∧ memBankGroup l = 2 ∧ memBank l = 3 ∧
      memRow s l = 51842 := by decide +kernel

/-- R304: check bytes leave no syndrome, and two symbols in error are not decoded. -/
theorem test_rs_code : rsDecode ([1, 2, 3, 4, 5, 6, 7, 8, 9, 10, 11, 12, 13, 14, 15, 0xFF] ++
      rsCheck [1, 2, 3, 4, 5, 6, 7, 8, 9, 10, 11, 12, 13, 14, 15, 0xFF]) = .clean ∧
    rsDecode (1 :: 1 :: List.replicate 18 0) = .failed := by decide +kernel

/-- R481: version 0x1, part 0x4096 and manufacturer code 0x5D3. -/
theorem test_jtag : jtagIdcode = 0x14096BA7 := by decide

/-! ## Commands on small states -/

/-- R52: the counter of lane 55 saturates. -/
theorem test_code_violation : (rd (after (exec (.codeViolation 55 0) (setR State.reset (R.LANE_CV_COUNT 55) 0xFFFFFFFF)))
    (R.LANE_CV_COUNT 55)) = 0xFFFFFFFF := by decide +kernel

/-- R453: the value 0x5253 resets the chip with cause CHIP_RESET, and 0x5254 does not. -/
theorem test_chip_reset : getF (after (exec (.chipReset .host 0x5253) State.reset)) F.PWR_RESET_CAUSE_CAUSE = 2 ∧
    getF (after (exec (.chipReset .host 0x5254) State.reset)) F.PWR_RESET_CAUSE_CAUSE =
      getF State.reset F.PWR_RESET_CAUSE_CAUSE := by decide +kernel

/-- R279: an accumulator at 2^39 − 2 plus 32,767² stops at 2^39 − 1 and sets AV. -/
theorem test_mac_saturates :
    let t := after (execMac 0 3 1 2 (core 0 [(1, 0x7FFF), (2, 0x7FFF), (67, 0x7FFFFFFFFE)]))
    seenAfter t 0 0 67 = 0x7FFFFFFFFF ∧ bitOf (seenAfter t 0 0 52) 6 = true := by decide +kernel

/-- R384: a pulse within RATE cycles of the last firing is dropped and sets the rate-limited bit. -/
theorem test_rate_limit :
    let t := after (execEventRoute 14 1
      { channel 3 [(F.EVT_CH_CFG_RATE 3, 5)] with pulses := [32], evt := { lastFire := [(3, 10)] } })
    getPairB t R.EVT_RATE_LIMITED_LO 3 = true ∧ t.evt.fired = [] := by decide +kernel

/-- R363: a doorbell on an IDLE ring without anchor asks the host for the descriptor at HEAD. -/
theorem test_doorbell : (after (execDmaDoorbell 4095
    (allOn [(F.DMA_RING_CTRL_EN 4095, 1), (F.DMA_RING_STATUS_STATE 4095, 1)]))).out = [.hostRead 0 64] := by decide +kernel

/-- The front command is taken off the queue, and an empty queue leaves the state as it is. -/
theorem test_step : (after (step { State.reset with pending := [.fetchStopClear, .sliceApply] })).pending = [.sliceApply] ∧
    step State.reset = .next State.reset := by exact ⟨by decide +kernel, rfl⟩

/-! ## States and operands that meet the hypotheses of the statements -/

/-- States and operands that meet the hypotheses of `LaneBringUpCompletes`. -/
theorem witness_LaneBringUpCompletes :
    (∃ (s : State) (n : Fin 56), Up s ∧ (laneEnabled s n = false ∧ domOn s (laneDomain n) = true ∧ loopback s n = 0 ∧ getF s (F.LANE_STATUS_PSTATE n) = 0)) ∧
    (∃ (s : State) (tx : Bool) (rx : Bool), Up s ∧ ((tx && rx) = false)) ∧
    (∃ (s : State) (n : Fin 56), Up s ∧ (laneEnabled s n = false ∧ domOn s (laneDomain n) = true ∧ loopback s n = 0 ∧ getF s (F.LANE_STATUS_PSTATE n) ≠ 0)) ∧
    (∃ (s : State) (n : Fin 56), Up s ∧ linkState s n = 1) ∧
    (∃ (s : State) (n : Fin 56), Up s ∧ linkState s n = 1) ∧
    (∃ (s : State) (n : Fin 56), Up s ∧ linkState s n = 2) ∧
    (∃ (s : State) (n : Fin 56), Up s ∧ linkState s n = 2) ∧
    (∃ (s : State) (n : Fin 56), Up s ∧ linkState s n = 3 ∧ prbsMode s n = 0 ∧ (lane s n).txOff = false ∧ getF s (F.LANE_STATUS_PSTATE n) = 0 ∧ getF s (F.LANE_CTRL_PSTATE_REQ n) = 0 ∧ (bondOf s n = [n.val])) ∧
    (∃ (s : State) (n : Fin 56), Up s ∧ linkState s n = 3 ∧ prbsMode s n = 0 ∧ (lane s n).txOff = false ∧ getF s (F.LANE_STATUS_PSTATE n) = 0 ∧ getF s (F.LANE_CTRL_PSTATE_REQ n) = 0 ∧ (bondOf s n ≠ [n.val])) ∧
    (∃ (s : State) (n : Fin 56) (arrival : List Nat), Up s ∧ 1 < (bondOf s n).length ∧ arrival.length = (bondOf s n).length ∧ (∀ m ∈ bondOf s n, linkState s m = 4) ∧ skewSpread arrival ≤ 64) ∧
    (∃ (s : State) (n : Fin 56), Up s ∧ getF s (F.LANE_STATUS_PSTATE n) ≠ 0 ∧ getF s (F.LANE_CTRL_PSTATE_REQ n) = 0 ∧ linkState s n = 6 ∧ domOn s (laneDomain n) = true ∧ (getF s (F.LANE_STATUS_PSTATE n) = 1 → flag s (F.LANE_STATUS_TX_PLL_LOCK n) = true)) :=
  ⟨⟨set [dom 9 2], 0, by unfold Up; decide +kernel⟩,
    ⟨laneIn 55 5, true, false, by unfold Up; decide +kernel⟩,
    ⟨set [dom 9 2, (F.LANE_STATUS_PSTATE 0, 2)], 0, by unfold Up; decide +kernel⟩,
    ⟨laneIn 0 1, 0, by unfold Up; decide +kernel⟩,
    ⟨laneIn 55 1, 55, by unfold Up; decide +kernel⟩,
    ⟨laneIn 0 2, 0, by unfold Up; decide +kernel⟩,
    ⟨laneIn 55 2, 55, by unfold Up; decide +kernel⟩,
    ⟨laneIn 0 3, 0, by unfold Up; decide +kernel⟩,
    ⟨laneIn 16 3, 16, by unfold Up; decide +kernel⟩,
    ⟨set [dom 10 2, (F.LANE_STATUS_LINK_STATE 16, 4), (F.LANE_STATUS_LINK_STATE 17, 4)], 17, [100, 164], by unfold Up; decide +kernel⟩,
    ⟨setF (laneIn 55 6) (F.LANE_STATUS_PSTATE 55) 2, 55, by unfold Up; decide +kernel⟩⟩

/-- States and operands that meet the hypotheses of `LaneLossAndParking`. -/
theorem witness_LaneLossAndParking :
    (∃ (s : State) (n : Fin 56), Up s ∧ (linkState s n = 5 ∧ (lane s n).cvAt.length < 7)) ∧
    (∃ (s : State) (n : Fin 56) (symbol : Nat), Up s ∧ (linkState s n = 5 ∧ 7 ≤ (lane s n).cvAt.length ∧ symbol - (lane s n).cvAt.getD 6 0 < 1024)) ∧
    (∃ (s : State) (n : Fin 56), Up s ∧ linkState s n = 5) ∧
    (∃ (s : State) (n : Fin 56), Up s ∧ 3 ≤ linkState s n ∧ linkState s n ≤ 5) ∧
    (∃ (s : State) (n : Fin 56), Up s ∧ 3 ≤ linkState s n ∧ linkState s n ≤ 5) ∧
    (∃ (s : State) (n : Fin 56) (arrival : List Nat), Up s ∧ 1 < (bondOf s n).length ∧ arrival.length = (bondOf s n).length ∧ (∀ m ∈ bondOf s n, linkState s m = 5) ∧ 64 < skewSpread arrival) ∧
    (∃ (s : State) (n : Fin 56), Up s ∧ (getF s (F.LANE_STATUS_REMOTE_STATE n) = 3 ∨ getF s (F.LANE_STATUS_REMOTE_STATE n) = 4) ∧ 3 ≤ linkState s n ∧ linkState s n ≤ 5) ∧
    (∃ (s : State) (n : Fin 56), Up s ∧ (getF s (F.LANE_STATUS_REMOTE_STATE n) = 3 ∨ getF s (F.LANE_STATUS_REMOTE_STATE n) = 4) ∧ 3 ≤ linkState s n ∧ linkState s n ≤ 5) ∧
    (∃ (s : State) (n : Fin 56) (req : Fin 4), Up s ∧ (req = 1 ∨ req = 2) ∧ 2 ≤ linkState s n ∧ linkState s n ≤ 6 ∧ getF s (F.LANE_STATUS_PSTATE n) ≠ req) ∧
    (∃ (s : State) (n : Fin 56) (req : Fin 4), Up s ∧ (req = 1 ∨ req = 2) ∧ 2 ≤ linkState s n ∧ linkState s n ≤ 6 ∧ getF s (F.LANE_STATUS_PSTATE n) ≠ req) ∧
    (∃ (s : State) (n : Fin 56) (req : Fin 4), Up s ∧ (req = 1 ∨ req = 2) ∧ 2 ≤ linkState s n ∧ linkState s n ≤ 6 ∧ getF s (F.LANE_STATUS_PSTATE n) ≠ req ∧ ((statusByte s n).isSome = true)) ∧
    (∃ (s : State) (n : Fin 56), Up s ∧ (getF s (F.LANE_CTRL_PSTATE_REQ n) = 1 ∨ getF s (F.LANE_CTRL_PSTATE_REQ n) = 2) ∧ linkState s n = 6 ∧ getF s (F.LANE_STATUS_PSTATE n) ≠ getF s (F.LANE_CTRL_PSTATE_REQ n)) ∧
    (∃ (s : State) (n : Fin 56), Up s ∧ (getF s (F.LANE_CTRL_PSTATE_REQ n) = 1 ∨ getF s (F.LANE_CTRL_PSTATE_REQ n) = 2) ∧ linkState s n = 6 ∧ getF s (F.LANE_STATUS_PSTATE n) ≠ getF s (F.LANE_CTRL_PSTATE_REQ n)) :=
  ⟨⟨laneIn 0 5, 0, by unfold Up; decide +kernel⟩,
    ⟨{ laneIn 55 5 with lanes := [(55, { cvAt := [7, 6, 5, 4, 3, 2, 1] })] }, 55, 1024, by unfold Up; decide +kernel⟩,
    ⟨laneIn 55 5, 55, by unfold Up; decide +kernel⟩,
    ⟨laneIn 0 3, 0, by unfold Up; decide +kernel⟩,
    ⟨laneIn 55 5, 55, by unfold Up; decide +kernel⟩,
    ⟨set [dom 10 2, (F.LANE_STATUS_LINK_STATE 16, 5), (F.LANE_STATUS_LINK_STATE 17, 5)], 16, [0, 65], by unfold Up; decide +kernel⟩,
    ⟨setF (laneIn 0 3) (F.LANE_STATUS_REMOTE_STATE 0) 3, 0, by unfold Up; decide +kernel⟩,
    ⟨setF (laneIn 55 5) (F.LANE_STATUS_REMOTE_STATE 55) 4, 55, by unfold Up; decide +kernel⟩,
    ⟨laneIn 0 2, 0, 1, by unfold Up; decide +kernel⟩,
    ⟨laneIn 55 6, 55, 2, by unfold Up; decide +kernel⟩,
    ⟨setF (laneIn 55 5) (F.LANE_STATUS_TX_PLL_LOCK 55) 1, 55, 2, by unfold Up; decide +kernel⟩,
    ⟨setF (laneIn 55 6) (F.LANE_CTRL_PSTATE_REQ 55) 2, 55, by unfold Up; decide +kernel⟩,
    ⟨setF (laneIn 0 6) (F.LANE_CTRL_PSTATE_REQ 0) 1, 0, by unfold Up; decide +kernel⟩⟩

/-- States and operands that meet the hypotheses of `OrderedSetsReceived`. -/
theorem witness_OrderedSetsReceived :
    (∃ (s : State) (n : Fin 56) (state : Byte), Up s ∧ 1 ≤ state.toNat ∧ state.toNat ≤ 4 ∧ 3 ≤ linkState s n ∧ linkState s n ≠ 7) ∧
    (∃ (s : State) (n : Fin 56) (state : Byte), Up s ∧ 1 ≤ state.toNat ∧ state.toNat ≤ 4 ∧ 3 ≤ linkState s n ∧ linkState s n ≠ 7) ∧
    (∃ (s : State) (state : Byte) (check : Byte), Up s ∧ check ≠ state ^^^ 0xFF) ∧
    (∃ (s : State) (state : Byte), Up s ∧ (state.toNat = 0 ∨ 4 < state.toNat)) ∧
    (∃ (s : State) (state : Byte), Up s ∧ (state.toNat = 0 ∨ 4 < state.toNat)) ∧
    (∃ (s : State), Up s) ∧
    (∃ (s : State), Up s) :=
  ⟨⟨laneIn 0 3, 0, 1, by unfold Up; decide +kernel⟩,
    ⟨laneIn 55 6, 55, 4, by unfold Up; decide +kernel⟩,
    ⟨laneIn 55 5, 1, 1, by unfold Up; decide +kernel⟩,
    ⟨laneIn 0 5, 0, by unfold Up; decide +kernel⟩,
    ⟨laneIn 55 5, 5, by unfold Up; decide +kernel⟩,
    ⟨State.reset, by unfold Up; decide +kernel⟩,
    ⟨laneIn 55 5, by unfold Up; decide +kernel⟩⟩

/-- States and operands that meet the hypotheses of `LaneTestAndEqualizer`. -/
theorem witness_LaneTestAndEqualizer :
    (∃ (s : State) (n : Fin 56) (mode : Fin 4), Up s ∧ ((mode = 1 ∨ mode = 2) ∧ domOn s (laneDomain n) = true)) ∧
    (∃ (s : State) (n : Fin 56) (mode : Fin 4), Up s ∧ ((mode = 1 ∨ mode = 2) ∧ (linkState s n = 4 ∨ linkState s n = 5))) ∧
    (∃ (s : State) (n : Fin 56), Up s ∧ linkState s n ≠ 5) ∧
    (∃ (s : State) (n : Fin 56), Up s ∧ linkState s n = 5 ∧ flag s (F.LANE_STATUS_CAL_BUSY n) = false) ∧
    (∃ (s : State) (swing : Fin 32) (pre : Fin 32), Up s ∧ swing.val ≤ 15 ∧ pre.val ≤ 15) ∧
    (∃ (s : State), Up s) :=
  ⟨⟨laneIn 55 5, 55, 2, by unfold Up; decide +kernel⟩,
    ⟨laneIn 0 4, 0, 1, by unfold Up; decide +kernel⟩,
    ⟨laneIn 55 4, 55, by unfold Up; decide +kernel⟩,
    ⟨laneIn 55 5, 55, by unfold Up; decide +kernel⟩,
    ⟨laneIn 55 5, 15, 15, by unfold Up; decide +kernel⟩,
    ⟨setR (laneIn 55 5) (R.LANE_TXEQ 55) 0xFFFFFFFF, by unfold Up; decide +kernel⟩⟩

/-- States and operands that meet the hypotheses of `LaneCalibration`. -/
theorem witness_LaneCalibration :
    (∃ (s : State) (n : Fin 56), Up s ∧ linkState s n = 5 ∧ flag s (F.LANE_STATUS_CAL_BUSY n) = false) ∧
    (∃ (s : State) (n : Fin 56), Up s ∧ linkState s n ≠ 5 ∧ flag s (F.LANE_STATUS_CAL_BUSY n) = false) ∧
    (∃ (s : State) (n : Fin 56), Up s ∧ flag s (F.LANE_STATUS_CAL_BUSY n) = true) ∧
    (∃ (s : State) (n : Fin 56) (scan : List EyeScan) (prev : CalRun), Up s ∧ s.calActive.find (n.val / 14) = some n.val ∧ (lane s n).swap = none ∧ (lane s n).pinned = none ∧ (lane s n).lastRun = some prev ∧ runsAgree prev (bestRun scan) = true ∧ getF s (F.LANE_CAL_CTRL_MIN_WIDTH n) ≤ (bestRun scan).width ∧ getF s (F.LANE_CAL_CTRL_MIN_HEIGHT n) ≤ (bestRun scan).height) ∧
    (∃ (s : State) (n : Fin 56) (q : Fin 64), Up s ∧ (lane s n).swap = some q.val) ∧
    (∃ (s : State), Up s ∧ getF s F.LANE_CAL_PERIOD_SECONDS = 0) ∧
    (∃ (s : State), Up s ∧ getF s F.LANE_CAL_PERIOD_SECONDS ≠ 0) :=
  ⟨⟨laneIn 55 5, 55, by unfold Up; decide +kernel⟩,
    ⟨laneIn 55 4, 55, by unfold Up; decide +kernel⟩,
    ⟨setF (laneIn 55 5) (F.LANE_STATUS_CAL_BUSY 55) 1, 55, by unfold Up; decide +kernel⟩,
    ⟨{ setF (setF (laneIn 55 5) (F.LANE_CAL_CTRL_MIN_WIDTH 55) 0) (F.LANE_CAL_CTRL_MIN_HEIGHT 55) 0 with calActive := [(3, 55)], lanes := [(55, { lastRun := some (bestRun []) })] }, 55, [], bestRun [], by unfold Up; decide +kernel⟩,
    ⟨{ laneIn 55 5 with lanes := [(55, { swap := some 63 })] }, 55, 63, by unfold Up; decide +kernel⟩,
    ⟨set [(F.LANE_CAL_PERIOD_SECONDS, 0)], by unfold Up; decide +kernel⟩,
    ⟨setF (laneIn 55 5) F.LANE_CAL_PERIOD_SECONDS 1, by unfold Up; decide +kernel⟩⟩

/-- States and operands that meet the hypotheses of `IngestCommandsComplete`. -/
theorem witness_IngestCommandsComplete :
    (∃ (s : State) (n : Fin 16) (f : RxFrame), Up s ∧ linkState s n = 5 ∧ headerOk f = true ∧ frByte f 0 = 1 ∧ lengthOk f = true ∧ f.eofInPlace = true ∧ typeAllowed s n 1 = true ∧ getB s R.LNK_ING_EN n = true ∧ frField f 8 8 % 4096 = 0 ∧ frField f 6 2 = getR s R.LNK_SIGNAL_BASE + 4 * n.val ∧ frField f 8 8 ∉ (ingestLane s n).accepted ∧ ingestClass s f = .onTime) ∧
    (∃ (s : State) (n : Fin 56) (f : RxFrame), Up s ∧ linkState s n = 5 ∧ (¬ (32 ≤ f.header.length ∧ headerOk f = false))) ∧
    (∃ (s : State) (n : Fin 56) (f : RxFrame), Up s ∧ linkState s n = 5 ∧ (32 ≤ f.header.length ∧ headerOk f = false)) ∧
    (∃ (s : State) (enable : BitVec 16), Up s ∧ (enable.getLsbD 0 = false ∧ enable.getLsbD 15 = true)) ∧
    (∃ (s : State) (f : Nat), Up s ∧ frameOf s = f + 1 ∧ s.counter.toNat ≤ ingestCloseAt f ∧ s.ingestValid.find f = none ∧ ((getB s R.LNK_ING_EN 0 = false))) ∧
    (∃ (s : State) (n : Fin 16), Up s ∧ 2 ≤ sigState s n ∧ (∀ l, (ingestLane s n).lastArrival = some l → l + 2 < frameOf s)) ∧
    (∃ (s : State) (n : Fin 16), Up s ∧ 2 ≤ sigState s n ∧ (∀ l, (ingestLane s n).lastArrival = some l → l + 2 < frameOf s)) ∧
    (∃ (s : State) (n : Fin 56) (f : RxFrame), Up s ∧ linkState s n = 5 ∧ headerOk f = true ∧ frByte f 0 = 3 ∧ lengthOk f = true ∧ f.eofInPlace = true ∧ typeAllowed s n 3 = true ∧ payloadCrcOk f = true) ∧
    (∃ (s : State) (n : Fin 56) (f : RxFrame), Up s ∧ linkState s n = 5 ∧ headerOk f = true ∧ frByte f 0 = 3 ∧ lengthOk f = true ∧ f.eofInPlace = true ∧ typeAllowed s n 3 = true ∧ payloadCrcOk f = true) :=
  ⟨⟨setR (running (laneIn 15 5) 5 20000) R.LNK_ING_EN 0x8000, 15, ingestFrame5, by unfold Up; decide +kernel⟩,
    ⟨laneIn 55 5, 55, frame [] [] 0, by unfold Up; decide +kernel⟩,
    ⟨laneIn 0 5, 0, frame (List.replicate 30 0) [] 0, by unfold Up; decide +kernel⟩,
    ⟨State.reset, 0x8000, by unfold Up; decide +kernel⟩,
    ⟨running State.reset 6 131072, 5, by unfold Up; decide +kernel⟩,
    ⟨running (set [(⟨R.LNK_SIG_STATE 3, 25, 24⟩, 3)]) 6 0, 15, by unfold Up; decide +kernel⟩,
    ⟨{ running (set [(⟨R.LNK_SIG_STATE 0, 1, 0⟩, 2)]) 8 0 with ingest := [(0, { lastArrival := some 5 })] }, 0, by unfold Up; decide +kernel⟩,
    ⟨laneIn 16 5, 16, frame (header 3 4 [0, 0, 0, 0] []) [1, 2, 3, 4] 0, by unfold Up; decide +kernel⟩,
    ⟨laneIn 49 5, 49, frame (header 3 0 [0, 0, 0, 0] []) [] 0, by unfold Up; decide +kernel⟩⟩

/-- States and operands that meet the hypotheses of `FrameWithBadHeaderCountsOnce`. -/
theorem witness_FrameWithBadHeaderCountsOnce :
    (∃ (s : State) (n : Fin 56) (f : RxFrame) (full : Bool) (c : Instr), Up s ∧ linkState s n = 5 ∧ headerOk f = false ∧ c ∈ [Instr.ingestFrameReceived n f, .xchFrameReceived n f full, .ctlFrameReceived n f, .signpostFrameReceived n f, .relayFrameReceived n f, .twinSnapshotReceived n f, .twinMirrorReceived n f, .twinDigestReceived n f, .twinHeartbeatReceived n f]) ∧
    (∃ (s : State) (n : Fin 56) (f : RxFrame) (full : Bool) (c : Instr), Up s ∧ linkState s n = 5 ∧ headerOk f = false ∧ c ∈ [Instr.ingestFrameReceived n f, .xchFrameReceived n f full, .ctlFrameReceived n f, .signpostFrameReceived n f, .relayFrameReceived n f, .twinSnapshotReceived n f, .twinMirrorReceived n f, .twinDigestReceived n f, .twinHeartbeatReceived n f]) :=
  ⟨⟨laneIn 55 5, 55, frame (List.replicate 30 0) [] 0, true, .twinDigestReceived 55 (frame (List.replicate 30 0) [] 0), by unfold Up; decide +kernel⟩,
    ⟨laneIn 0 5, 0, { frame (header 1 0 [0, 0, 0, 0] []) [] 0 with headerCv := true }, true, .ingestFrameReceived 0 { frame (header 1 0 [0, 0, 0, 0] []) [] 0 with headerCv := true }, by unfold Up; decide +kernel⟩⟩

/-- States and operands that meet the hypotheses of `ChannelizerCommandsComplete`. -/
theorem witness_ChannelizerCommandsComplete :
    (∃ (s : State) (m : Master) (i : Fin 64), Sends s m ∧ domOn s (quadDomain i) = true ∧ (twinState s = 0 ∨ 5 ≤ twinState s)) ∧
    (∃ (s : State) (m : Master) (i : Fin 64), Sends s m ∧ domOn s (quadDomain i) = true ∧ (twinState s = 0 ∨ 5 ≤ twinState s)) ∧
    (∃ (s : State) (m : Master) (i : Fin 64), Sends s m ∧ domOn s (quadDomain i) = true ∧ (twinState s = 0 ∨ 5 ≤ twinState s)) ∧
    (∃ (s : State) (m : Master) (i : Fin 64), Sends s m ∧ domOn s (quadDomain i) = true ∧ (twinState s = 0 ∨ 5 ≤ twinState s)) ∧
    (∃ (s : State) (m : Master), Sends s m ∧ (twinState s = 0 ∨ 5 ≤ twinState s) ∧ (∀ q : Fin 4, bitsOf (getF s F.CHZ_SWITCH_CTRL_FILTER) (4 * q.val + 3) (4 * q.val) < 9)) ∧
    (∃ (s : State) (m : Master) (high : BitVec 16) (f : Nat), Sends s m ∧ (twinState s = 0 ∨ 5 ≤ twinState s) ∧ f = getR s R.CHZ_MODE_FRAME_LO + high.toNat * 2 ^ 32 ∧ (f % (spanLen s * integLen s) = 0 ∧ s.counter.toNat < latchPoint f ∧ (flag s F.CHZ_MODE_NEXT_CAL8 = true → spanLen s * integLen s * 256 ≤ 65536))) ∧
    (∃ (s : State) (m : Master) (high : BitVec 16) (f : Nat), Sends s m ∧ (twinState s = 0 ∨ 5 ≤ twinState s) ∧ f = getR s R.CHZ_MODE_FRAME_LO + high.toNat * 2 ^ 32 ∧ (¬ s.counter.toNat < latchPoint f)) ∧
    (∃ (s : State) (m : Master) (b : Fin 2) (e : Fin 262144), Sends s m ∧ (twinState s = 0 ∨ 5 ≤ twinState s) ∧ domOn s (5 + e.val / 65536) = true ∧ (gainBankInUse s b = false)) ∧
    (∃ (s : State) (m : Master) (b : Fin 2) (e : Fin 262144), Sends s m ∧ (twinState s = 0 ∨ 5 ≤ twinState s) ∧ domOn s (5 + e.val / 65536) = true ∧ (gainBankInUse s b = true)) ∧
    (∃ (s : State), Up s) ∧
    (∃ (s : State) (f : Nat), Up s ∧ frameOf s = f ∧ s.counter.toNat ≤ latchPoint f ∧ jumpedOver s f = false ∧ ((s.chz.modes.any fun m => f ≤ m.1) = false) ∧ (s.chz.reload = none ∧ replaying s = false ∧ matchingSlot s 63 f = some 3)) ∧
    (∃ (s : State) (f : Nat) (k : Fin 256), Up s ∧ spectrumOutAt f k ≤ (advanceTo s (spectrumOutAt f k)).counter.toNat ∧ (s.chz.confs.find f).isSome = true ∧ s.chz.output.find (256 * f + k.val) = none ∧ (xrRuns s f = false)) ∧
    (∃ (s : State) (f : Nat) (k : Fin 256), Up s ∧ spectrumOutAt f k ≤ (advanceTo s (spectrumOutAt f k)).counter.toNat ∧ (s.chz.confs.find f).isSome = true ∧ s.chz.output.find (256 * f + k.val) = none ∧ (k.val % 2 = 0 ∧ cal8Of s f = false ∧ xrRuns s f = true)) :=
  ⟨⟨chzOn, .host, 63, by unfold Sends Up; decide +kernel⟩,
    ⟨chzOn, .host, 0, by unfold Sends Up; decide +kernel⟩,
    ⟨chzOn, .host, 0, by unfold Sends Up; decide +kernel⟩,
    ⟨setF chzOn F.TWN_STATUS_STATE 5, .host, 63, by unfold Sends Up; decide +kernel⟩,
    ⟨setF (setR State.reset R.CHZ_SWITCH_FRAME_LO 9) F.CHZ_SWITCH_CTRL_FILTER 0x8888, .host, by unfold Sends Up; decide +kernel⟩,
    ⟨running (setR chzOn R.CHZ_MODE_FRAME_LO 64) 64 65535, .host, 0, 64, by unfold Sends Up; decide +kernel⟩,
    ⟨running (setR chzOn R.CHZ_MODE_FRAME_LO 64) 64 65536, .host, 0, 64, by unfold Sends Up; decide +kernel⟩,
    ⟨chzOn, .host, 1, 262143, by unfold Sends Up; decide +kernel⟩,
    ⟨chzOn, .host, 0, 0, by unfold Sends Up; decide +kernel⟩,
    ⟨State.reset, by unfold Up; decide +kernel⟩,
    ⟨running { chzOn with chz := { slotFrame := [(4 * 63 + 3, some 5)], quadStart := [(3, 0)] } } 5 65536, 5, by unfold Up; decide +kernel⟩,
    ⟨{ running chzOn 6 0 with chz := { confs := [(5, { models := [], filters := [], gainBank := 0, cal8 := false, fftMask := 0, sigEn := 0, fringeEn := 0, running := 0, starts := [], cut := 0 })] } }, 5, 255, by unfold Up; decide +kernel⟩,
    ⟨{ running (set [dom 23 2]) 5 160000 with chz := { confs := [(5, { models := [], filters := [], gainBank := 0, cal8 := false, fftMask := 0, sigEn := 0, fringeEn := 0, running := 0, starts := [], cut := 0 })] } }, 5, 0, by unfold Up; decide +kernel⟩⟩

/-- States and operands that meet the hypotheses of `ExchangeCommandsComplete`. -/
theorem witness_ExchangeCommandsComplete :
    (∃ (s : State) (k : Fin 14) (p : Packet) (rest : List Packet), Up s ∧ s.xr.queues.get [] k = p :: rest) ∧
    (∃ (s : State) (k : Fin 14) (p : Packet) (rest : List Packet), Up s ∧ s.xr.queues.get [] k = p :: rest) ∧
    (∃ (s : State) (k : Fin 14) (p : Packet) (rest : List Packet), Up s ∧ s.xr.queues.get [] k = p :: rest ∧ (emitsFrame s (leAt p.header 8 6) = false)) ∧
    (∃ (s : State) (n : Fin 56) (f : RxFrame) (now : Nat), Up s ∧ linkState s n = 5 ∧ headerOk f = true ∧ frByte f 0 = 2 ∧ lengthOk f = true ∧ f.eofInPlace = true ∧ typeAllowed s n 2 = true ∧ xrRuns s (frField f 8 6) = true ∧ xchHeaderOk s (getF s (F.LANE_USE_LINK n)) f = true ∧ frByte f 5 = chipNo s ∧ (frField f 8 6, frByte f 14, frByte f 4, frByte f 5) ∉ s.xr.accepted ∧ now = (advanceTo s f.eofAt).counter.toNat ∧ frameStart (frField f 8 6) ≤ now ∧ now < frameStart (frField f 8 6 + 3)) ∧
    (∃ (s : State) (f : Nat), Up s ∧ fixDue s f = true) ∧
    (∃ (s : State) (f : Nat), Up s ∧ fixDue s f = true) ∧
    (∃ (s : State) (k : Fin 14) (time : Nat) (n : Nat), Up s ∧ (xlink s k).delay = true ∧ max 1 (getF s F.XR_NARROW_DELAY_MICROSECONDS) ≤ time ∧ flag s F.XR_CTRL_NARROW_EN = true ∧ twinSplit s = false ∧ overLoad (linkLoad s (flag s F.CHZ_MODE_CAL8) k) laneSlots = false ∧ ((lanesOf s 3 k).find? (fun n => flag s (F.LANE_STATUS_ALIGNED n)) = some n)) ∧
    (∃ (s : State) (bits : BitVec 14), Up s ∧ (bits.getLsbD 13 = true ∧ (xlink s 13).keep.isSome = true ∧ bits.getLsbD 0 = false)) ∧
    (∃ (s : State) (k : Fin 14), Up s ∧ (xlink s k).widen = true) ∧
    (∃ (s : State), Up s ∧ inRun s (frameOf s) = true ∧ domOn s 23 = true ∧ s.xr.lastSpan ≠ some (frameOf s / spanLen s)) ∧
    (∃ (s : State), Up s ∧ inRun s (frameOf s) = true ∧ domOn s 23 = true ∧ s.xr.lastSpan ≠ some (frameOf s / spanLen s)) ∧
    (∃ (s : State), Up s) ∧
    (∃ (s : State), Up s ∧ (flag s F.XR_CTRL_EN = true)) :=
  ⟨⟨{ set [(⟨R.XR_LINK_STATE, 27, 26⟩, 1)] with xr := { queues := [(13, [⟨leBytes 30 0x0200, []⟩])] } }, 13, ⟨leBytes 30 0x0200, []⟩, [], by unfold Up; decide +kernel⟩,
    ⟨{ set [] with xr := { queues := [(0, [⟨leBytes 30 0x0200, []⟩])] } }, 0, ⟨leBytes 30 0x0200, []⟩, [], by unfold Up; decide +kernel⟩,
    ⟨{ set [(F.TWN_STATUS_STATE, 1)] with xr := { queues := [(0, [⟨leBytes 30 0x0200, []⟩])] } }, 0, ⟨leBytes 30 0x0200, []⟩, [], by unfold Up; decide +kernel⟩,
    ⟨running rowOfTwo 5 3000, 16, xchFrame, frameStart 5 + 5000, by unfold Up; decide +kernel⟩,
    ⟨running (set [dom 23 2]) 8 0, 5, by unfold Up; decide +kernel⟩,
    ⟨{ running (set [dom 23 2]) 9 0 with xr := { lastFixed := some 5 } }, 6, by unfold Up; decide +kernel⟩,
    ⟨{ set [(F.XR_CTRL_NARROW_EN, 1), (F.LANE_STATUS_ALIGNED 42, 1)] with links := [(13, { delay := true })] }, 13, 1000, 42, by unfold Up; decide +kernel⟩,
    ⟨{ State.reset with links := [(13, { keep := some 42 })] }, 0x2000, by unfold Up; decide +kernel⟩,
    ⟨{ State.reset with links := [(13, { keep := some 42, widen := true })] }, 13, by unfold Up; decide +kernel⟩,
    ⟨running (set [dom 23 2]) 5 0, by unfold Up; decide +kernel⟩,
    ⟨running (set [dom 23 2, (F.XR_SLOT_STATE 0, 1), (F.XR_SLOT_STATE 1, 2), (F.XR_SLOT_HELD 2, 1), (F.XR_SLOT_STATE 3, 1)]) 5 0, by unfold Up; decide +kernel⟩,
    ⟨State.reset, by unfold Up; decide +kernel⟩,
    ⟨setF State.reset F.XR_CTRL_EN 1, by unfold Up; decide +kernel⟩⟩

/-- States and operands that meet the hypotheses of `BeamCommandsComplete`. -/
theorem witness_BeamCommandsComplete :
    (∃ (s : State) (f : Nat) (n : Fin 256), Up s ∧ bfmRuns s f = true ∧ cal8Of s f = false ∧ beamPoint f n ≤ (advanceTo s (beamPoint f n)).counter.toNat ∧ (∀ x, s.bfm.lastPoint = some x → x < 256 * f + n.val) ∧ (halvesOn s = 3)) ∧
    (∃ (s : State) (f : Nat) (n : Fin 256), Up s ∧ bfmRuns s f = true ∧ cal8Of s f = false ∧ beamPoint f n ≤ (advanceTo s (beamPoint f n)).counter.toNat ∧ (∀ x, s.bfm.lastPoint = some x → x < 256 * f + n.val)) ∧
    (∃ (s : State) (f : Nat) (n : Fin 256), Up s ∧ bfmRuns s f = true ∧ cal8Of s f = false ∧ sendPoint s f n ≤ (advanceTo s (sendPoint s f n)).counter.toNat ∧ (∀ x, s.bfm.lastSend = some x → x < 256 * f + n.val) ∧ (s.bfm.sums.find (256 * f + n.val) = none)) ∧
    (∃ (s : State) (f : Nat) (n : Fin 256), Up s ∧ bfmRuns s f = true ∧ cal8Of s f = false ∧ sendPoint s f n ≤ (advanceTo s (sendPoint s f n)).counter.toNat ∧ (∀ x, s.bfm.lastSend = some x → x < 256 * f + n.val)) ∧
    (∃ (s : State) (m : Master) (high : BitVec 16) (f : Nat), Sends s m ∧ (twinState s = 0 ∨ 5 ≤ twinState s) ∧ f = getR s R.BFM_FLIP_FRAME_LO + high.toNat * 2 ^ 32 ∧ (f ≤ nextTick s)) ∧
    (∃ (s : State) (m : Master) (high : BitVec 16) (f : Nat), Sends s m ∧ (twinState s = 0 ∨ 5 ≤ twinState s) ∧ f = getR s R.BFM_FLIP_FRAME_LO + high.toNat * 2 ^ 32 ∧ (¬ f ≤ nextTick s)) ∧
    (∃ (s : State) (m : Master) (off : BitVec 26) (bs : List (Option Byte)), Sends s m ∧ (twinState s = 0 ∨ 5 ≤ twinState s) ∧ domOn s (beamDomain (weightBeam off.toNat)) = true ∧ (∀ (i : Nat) (v : Byte), i < 64 → bs[i]? = some (some v) → weightProtected s (off.toNat + i) = false)) ∧
    (∃ (s : State) (m : Master) (off : BitVec 26) (bs : List (Option Byte)) (i : Nat) (v : Byte), Sends s m ∧ (twinState s = 0 ∨ 5 ≤ twinState s) ∧ domOn s (beamDomain (weightBeam off.toNat)) = true ∧ i < 64 ∧ bs[i]? = some (some v) ∧ weightProtected s (off.toNat + i) = true) ∧
    (∃ (s : State) (m : Master) (off : BitVec 26), Sends s m ∧ reaches m 4 = true ∧ domOn s (beamDomain (weightBeam off.toNat)) = true) ∧
    (∃ (s : State) (n : Fin 56) (f : RxFrame) (o : Fin 8), Up s ∧ linkState s n = 5 ∧ headerOk f = true ∧ frByte f 0 = 5 ∧ lengthOk f = true ∧ f.eofInPlace = true ∧ typeAllowed s n 5 = true ∧ (chainPos s).1 ≠ 0 ∧ frByte f 5 + 1 = (chainPos s).1 ∧ frByte f 6 = 0 ∧ frByte f 7 = 255 ∧ frByte f 15 = 0 ∧ frByte f 18 = 8 ∧ frField f 16 2 = 64 * sliceOf s (chipNo s) + 8 * o.val ∧ bfmRuns s (frField f 8 6) = true ∧ cal8Of s (frField f 8 6) = false ∧ domOn s 23 = true ∧ (advanceTo s f.eofAt).counter.toNat < sendPoint s (frField f 8 6) (frByte f 14) ∧ (((s.bfm.relay.map fun e => e.1 / 8).eraseDups).length < 8)) :=
  ⟨⟨units 5 3000000 [], 5, 255, by unfold Up; decide +kernel⟩,
    ⟨{ units 7 0 [] with bfm := { lastPoint := some 1534 } }, 5, 255, by unfold Up; decide +kernel⟩,
    ⟨units 6 500000 [], 5, 255, by unfold Up; decide +kernel⟩,
    ⟨{ units 7 0 [] with bfm := { lastSend := some 1534, sums := [(1535, [])] } }, 5, 255, by unfold Up; decide +kernel⟩,
    ⟨setR (running State.reset 5 0) R.BFM_FLIP_FRAME_LO 6, .host, 0, 6, by unfold Sends Up; decide +kernel⟩,
    ⟨setR (running State.reset 5 0) R.BFM_FLIP_FRAME_LO 7, .host, 0, 7, by unfold Sends Up; decide +kernel⟩,
    ⟨units 5 0 [], .host, 0x3FFFFC0, [none, some 7], by exact ⟨⟨rfl, nofun⟩, by decide +kernel, by decide +kernel, fun i _ hi _ => (by decide +kernel : ∀ j, j < 64 → weightProtected (units 5 0 []) (0x3FFFFC0 + j) = false) i hi⟩⟩,
    ⟨units 5 0 [], .host, 0, [none, some 7], 1, 7, by unfold Sends Up; decide +kernel⟩,
    ⟨units 5 0 [], .host, 0x3FFFFFF, by unfold Sends Up; decide +kernel⟩,
    ⟨setF (units 6 2000 [(F.LANE_STATUS_LINK_STATE 44, 5), (F.BFM_CTRL_RELAY_EN, 1), (F.BFM_CTRL_CHAIN_POS, 1), (F.BFM_CTRL_CHAIN_LAST, 1)]) (⟨R.XR_SLICE 0, 5, 0⟩) 0, 44, relayFrame, 7, by unfold Up; decide +kernel⟩⟩

/-- States and operands that meet the hypotheses of `CorrelatorWindowsComplete`. -/
theorem witness_CorrelatorWindowsComplete :
    (∃ (s : State) (n : Nat), Up s ∧ spanStart s n + spanLen s + 2 ≤ frameOf s ∧ frameOf s < corCloseTick s n ∧ (slotOf s n = some 3 ∧ getF s (F.XR_SLOT_STATE 3) = 1)) ∧
    (∃ (s : State) (n : Nat), Up s ∧ spanStart s n + spanLen s + 2 ≤ frameOf s ∧ frameOf s < corCloseTick s n ∧ (correlates s n = true ∧ s.cor.waiting = none ∧ corIdles s n = none ∧ corReady s = true)) ∧
    (∃ (s : State) (n : Nat), Up s ∧ spanStart s n + spanLen s + 2 ≤ frameOf s ∧ frameOf s < corCloseTick s n ∧ (correlates s n = true ∧ s.cor.waiting = none ∧ corIdles s n = none ∧ corReady s = false)) ∧
    (∃ (s : State) (span : Nat), Up s ∧ s.cor.span = some span ∧ corPhase s = 1 ∧ (1 < unitsOf s ∧ (tileOf s 1).isSome = true)) ∧
    (∃ (s : State) (span : Nat), Up s ∧ s.cor.span = some span ∧ corPhase s = 1 ∧ (s.badWords = [] ∧ dramUsable s = true ∧ (∀ u : Fin 16, getF s (F.MEM_STATE_SR u) ≠ 2) ∧ guardOk s 3 (causewayLine s ((slotOf s span).getD 0) span 0 0 0) (spanLen s * 256 * 4096) false = true)) ∧
    (∃ (s : State), Up s ∧ corPhase s = 2) ∧
    (∃ (s : State) (span : Nat), Up s ∧ s.cor.span = some span ∧ corPhase s = 3 ∧ s.cor.closed = false ∧ s.cor.abortDue = false) ∧
    (∃ (s : State) (span : Nat), Up s ∧ s.cor.span = some span ∧ corPhase s = 3 ∧ s.cor.closed = false ∧ s.cor.abortDue = false) ∧
    (∃ (s : State) (fr : Nat) (span : Nat), Up s ∧ s.cor.span = some span ∧ corPhase s = 1 ∧ fr < spanLen s ∧ flag s F.COR_STATUS_MODE8 = false) ∧
    (∃ (s : State) (n : Nat), Up s ∧ corCloseTick s n ≤ frameOf s ∧ (∀ l, s.cor.lastClosed = some l → l < n) ∧ (slotOf s n = some 3)) :=
  ⟨⟨{ units 66 0 [(F.XR_SLOT_STATE 3, 1)] with xr := { slotSpan := [(3, 1)] } }, 1, by unfold Up; decide +kernel⟩,
    ⟨{ units 97 0 [(F.XR_SLOT_STATE 3, 1), (F.COR_CTRL_EN, 1)] with xr := { slotSpan := [(3, 1)] }, integ := { first := some 0 }, cor := { built := some false, last := some 0 } }, 1, by unfold Up; decide +kernel⟩,
    ⟨{ units 66 0 [(F.XR_SLOT_STATE 3, 1), (F.COR_CTRL_EN, 1)] with xr := { slotSpan := [(3, 1)] }, integ := { first := some 0 } }, 1, by unfold Up; decide +kernel⟩,
    ⟨{ units 66 0 [(F.COR_STATUS_PHASE, 1), (F.COR_USE_UNITS, 2), (F.COR_MAP_IN_USE 1, 1), (F.COR_MAP_TILE 1, 543)] with cor := { span := some 1 } }, 1, by unfold Up; decide +kernel⟩,
    ⟨{ units 66 0 [(F.COR_STATUS_PHASE, 1), (F.MEM_CTRL_EN, 1), (F.MEM_STATUS_INIT_DONE, 1), (F.MEM_CONFIG_GIB, 64), (F.MEM_CONFIG_CHANNELS, 8), (F.XR_SLOT_STATE 3, 2), reg (R.MEM_REGION_BASE 1 + 4) 1024] with cor := { span := some 1 }, xr := { slotSpan := [(3, 1)] } }, 1, by unfold Up; decide +kernel⟩,
    ⟨units 66 0 [(F.COR_STATUS_PHASE, 2)], by unfold Up; decide +kernel⟩,
    ⟨{ units 66 0 [(F.COR_STATUS_PHASE, 3), (F.COR_STATUS_CHANNEL, 62)] with cor := { span := some 1 } }, 1, by unfold Up; decide +kernel⟩,
    ⟨{ units 66 0 [(F.COR_STATUS_PHASE, 3), (F.COR_STATUS_CHANNEL, 63)] with cor := { span := some 1 } }, 1, by unfold Up; decide +kernel⟩,
    ⟨{ units 66 0 [(F.COR_STATUS_PHASE, 1)] with cor := { span := some 1 }, xr := { valid := [(63, 2 ^ 4096 - 1)] } }, 31, 1, by unfold Up; decide +kernel⟩,
    ⟨{ units 98 0 [(F.XR_SLOT_STATE 3, 2)] with xr := { slotSpan := [(3, 1)] }, cor := { lastClosed := some 0 } }, 1, by unfold Up; decide +kernel⟩⟩

/-- States and operands that meet the hypotheses of `CorrelatorControlCompletes`. -/
theorem witness_CorrelatorControlCompletes :
    (∃ (s : State), Up s ∧ flag s F.COR_CTRL_EN = false ∧ (∃ t : Fin 544, tileState s t = 1 ∨ tileState s t = 2)) ∧
    (∃ (s : State), Up s ∧ flag s F.COR_CTRL_EN = true) ∧
    (∃ (s : State), Up s ∧ (s.cor.span.isSome = true ∧ corPhase s ≠ 3)) ∧
    (∃ (s : State), Up s ∧ (s.cor.span.isSome = true ∧ corPhase s = 3)) ∧
    (∃ (s : State), Up s ∧ flag s F.COR_STATUS_ABORT_BUSY = true ∧ s.cor.abortDue = false) ∧
    (∃ (s : State) (k : Fin 544) (sig : Word), Up s ∧ tileState s k = 3 ∧ k.val ∉ s.cor.waitTest ∧ flag s F.PWR_STATUS_THROTTLE = false ∧ (sig ≠ rd s R.COR_GOLD_SIG ∧ k.val ∈ s.cor.second)) :=
  ⟨⟨units 5 0 [(F.COR_TILE_STATE_STATE 543, 2), (F.COR_TILE_STATE_STATE 0, 1)], by unfold Up; decide +kernel⟩,
    ⟨units 5 0 [(F.COR_CTRL_EN, 1)], by unfold Up; decide +kernel⟩,
    ⟨{ units 5 0 [(F.COR_STATUS_PHASE, 1)] with cor := { span := some 1 } }, by unfold Up; decide +kernel⟩,
    ⟨{ units 5 0 [(F.COR_STATUS_PHASE, 3)] with cor := { span := some 1 } }, by unfold Up; decide +kernel⟩,
    ⟨units 5 0 [(F.COR_STATUS_ABORT_BUSY, 1)], by unfold Up; decide +kernel⟩,
    ⟨{ units 5 0 [(F.COR_TILE_STATE_STATE 543, 3)] with cor := { second := [543] } }, 543, 1, by unfold Up; decide +kernel⟩⟩

/-- States and operands that meet the hypotheses of `IntegrationCommandsComplete`. -/
theorem witness_IntegrationCommandsComplete :
    (∃ (s : State), Up s ∧ flag s F.INT_CTRL_EN = false ∧ s.integ.readout = none) ∧
    (∃ (s : State), Up s ∧ flag s F.INT_CTRL_EN = true ∧ (s.integ.folding = some 1)) ∧
    (∃ (s : State) (n : Nat), Up s ∧ owedReadout s n = true ∧ integStart s (n + 1) + spanLen s + 2 ≤ frameOf s ∧ frameOf s < integStart s (n + 1) + 2 * spanLen s + 2 ∧ s.integ.readout = none) ∧
    (∃ (s : State) (n : Nat), Up s ∧ owedReadout s n = true ∧ integStart s (n + 1) + spanLen s + 2 ≤ frameOf s ∧ frameOf s < integStart s (n + 1) + 2 * spanLen s + 2 ∧ s.integ.readout = none) ∧
    (∃ (s : State) (n : Nat) (c : Fin 64), Up s ∧ s.integ.readout = some (n, c.val) ∧ getF s F.INT_READOUT_DONE = c ∧ foldedLast s n c = true ∧ domOn s 23 = true) ∧
    (∃ (s : State) (n : Nat) (c : Fin 64), Up s ∧ s.integ.readout = some (n, c.val) ∧ getF s F.INT_READOUT_DONE = c ∧ foldedLast s n c = true ∧ domOn s 23 = true) ∧
    (∃ (s : State) (n : Nat), Up s ∧ owedReadout s n = true ∧ integStart s (n + 1) + 2 * spanLen s + 2 ≤ frameOf s ∧ (∀ c, s.integ.readout = some (n, c) → c < 64 ∧ getF s F.INT_READOUT_DONE = c)) ∧
    (∃ (s : State) (n : Nat), Up s ∧ owedReadout s n = true ∧ integStart s (n + 1) + 2 * spanLen s + 2 ≤ frameOf s ∧ (∀ c, s.integ.readout = some (n, c) → c < 64 ∧ getF s F.INT_READOUT_DONE = c)) :=
  ⟨⟨units 5 0 [], by unfold Up; decide +kernel⟩,
    ⟨{ units 5 0 [(F.INT_CTRL_EN, 1)] with integ := { folding := some 1 } }, by unfold Up; decide +kernel⟩,
    ⟨{ units 98 0 [] with integ := { first := some 1, recs := [(64 * 1, { entries := [(0, 1)] })] } }, 1, by unfold Up; decide +kernel⟩,
    ⟨{ units 129 0 [] with integ := { first := some 1, recs := [(64 * 1 + 63, { entries := [(0, 1)] })] } }, 1, by unfold Up; decide +kernel⟩,
    ⟨{ units 98 0 [] with integ := { readout := some (1, 0), recs := [(64, { entries := [(0, 1)] })] } }, 1, 0, by unfold Up; decide +kernel⟩,
    ⟨{ units 98 0 [(F.INT_READOUT_DONE, 63)] with integ := { readout := some (1, 63), recs := [(127, { entries := [(0, 1)] })] } }, 1, 63, by unfold Up; decide +kernel⟩,
    ⟨{ units 130 0 [(F.INT_READOUT_DONE, 63)] with integ := { first := some 1, readout := some (1, 63), recs := [(127, { entries := [(0, 1)] })] } }, 1, by exact ⟨rfl, by decide +kernel, by decide +kernel, fun c h => by cases h; decide +kernel⟩⟩,
    ⟨{ units 130 0 [] with integ := { first := some 1, recs := [(127, { entries := [(0, 1)] })] } }, 1, by exact ⟨rfl, by decide +kernel, by decide +kernel, fun c h => by cases h⟩⟩⟩

/-- States and operands that meet the hypotheses of `TriggerCommandsComplete`. -/
theorem witness_TriggerCommandsComplete :
    (∃ (s : State), Up s ∧ (twinState s = 0 ∨ 5 ≤ twinState s) ∧ trgOn s = true) ∧
    (∃ (s : State), Up s ∧ (twinState s = 0 ∨ 5 ≤ twinState s) ∧ trgOn s = true) ∧
    (∃ (s : State), Up s ∧ (twinState s = 0 ∨ 5 ≤ twinState s) ∧ trgOn s = true) ∧
    (∃ (s : State), Up s ∧ 1 ≤ twinState s ∧ twinState s ≤ 4) ∧
    (∃ (s : State), Up s ∧ 1 ≤ twinState s ∧ twinState s ≤ 4) ∧
    (∃ (s : State), Up s ∧ trgOn s = true ∧ trgF s F.TRG_CTRL_IMP_EN = 1) ∧
    (∃ (s : State) (k : Fin 96), Up s ∧ rawOn s (frameOf s) = true ∧ frameOf s % 6 = 0 ∧ (∀ j, s.trg.current = some j → s.trg.segFirst.get 0 j < frameOf s) ∧ trgF s F.TRG_CTRL_RAW_EN = 1 ∧ (∀ j : Fin 96, s.trg.claimed.find j ≠ some (frameOf s)) ∧ (rotation s).head? = some k.val) ∧
    (∃ (s : State) (f : Nat) (k : Nat), Up s ∧ f ∈ s.trg.rawDue ∧ segOfFrame s f = some k) ∧
    (∃ (s : State) (k : Fin 96) (b : Nat), Up s ∧ s.trg.segFirst.find k = some b ∧ b % 6 = 0 ∧ b + 5 ∈ s.trg.rawDue ∧ segOfFrame s (b + 5) = some k.val ∧ (flag s (F.TRG_SEG_PENDING k) = false)) ∧
    (∃ (s : State) (bits : BitVec 16), Up s ∧ domOn s 24 = true ∧ (bits.getLsbD 15 = true ∧ bits.getLsbD 0 = false)) ∧
    (∃ (s : State) (c : Fin 16), Up s ∧ getF s (F.TRG_CAPTURE_STATE c) = 2 ∧ trgF s F.TRG_TIMEOUT_SECONDS ≠ 0 ∧ domOn s 24 = true) ∧
    (∃ (s : State) (slots : BitVec 4), Up s ∧ domOn s 24 = true ∧ (slots.getLsbD 3 = true ∧ holdAlone s 3 = true ∧ slots.getLsbD 0 = false)) ∧
    (∃ (s : State) (k : Fin 4), Up s ∧ holdAlone s k = true ∧ trgF s F.TRG_TIMEOUT_SECONDS ≠ 0 ∧ domOn s 24 = true) ∧
    (∃ (s : State) (n : Fin 56) (f : RxFrame), Up s ∧ linkState s n = 5 ∧ headerOk f = true ∧ frByte f 0 = 4 ∧ lengthOk f = true ∧ f.eofInPlace = true ∧ typeAllowed s n 4 = true ∧ trgOn s = true ∧ frByte f 4 ≠ chipNo s ∧ (frByte f 4, frField f 6 2, frField f 8 8) ∉ s.trg.keys) :=
  ⟨⟨units 5 0 [], by unfold Up; decide +kernel⟩,
    ⟨units 5 0 [], by unfold Up; decide +kernel⟩,
    ⟨units 5 0 [(F.TWN_STATUS_STATE, 5)], by unfold Up; decide +kernel⟩,
    ⟨units 5 0 [(F.TWN_STATUS_STATE, 4)], by unfold Up; decide +kernel⟩,
    ⟨units 5 0 [(F.TWN_STATUS_STATE, 1)], by unfold Up; decide +kernel⟩,
    ⟨units 5 0 [(F.TRG_CTRL_IMP_EN, 1)], by unfold Up; decide +kernel⟩,
    ⟨setR (units 6 0 [(F.TRG_CTRL_RAW_EN, 1)]) (memRegionKey 0 + 4) 1, 0, by unfold Up; decide +kernel⟩,
    ⟨{ units 6 0 [(F.TRG_SEG_STATE 95, 1)] with trg := { rawDue := [5], segFirst := [(95, 0)] } }, 5, 95, by unfold Up; decide +kernel⟩,
    ⟨{ units 6 0 [(F.TRG_SEG_STATE 95, 1)] with trg := { rawDue := [5], segFirst := [(95, 0)] } }, 95, 0, by unfold Up; decide +kernel⟩,
    ⟨units 6 0 [(F.TRG_CAPTURE_STATE 15, 2), (F.TRG_CAPTURE_STATE 0, 2)], 0x8000, by unfold Up; decide +kernel⟩,
    ⟨units 6 0 [(F.TRG_CAPTURE_STATE 15, 2), reg R.TRG_TIMEOUT 1], 15, by unfold Up; decide +kernel⟩,
    ⟨units 6 0 [(F.XR_SLOT_HELD 3, 1), (F.XR_SLOT_HELD 0, 1)], 8, by unfold Up; decide +kernel⟩,
    ⟨units 6 0 [(F.XR_SLOT_HELD 3, 1), reg R.TRG_TIMEOUT 1], 3, by unfold Up; decide +kernel⟩,
    ⟨units 6 0 [(F.LANE_STATUS_LINK_STATE 16, 5)], 16, frame (header 4 0 [1, 0, 5, 0] (leBytes 8 9)) [] (frameStart 6), by unfold Up; decide +kernel⟩⟩

/-- States and operands that meet the hypotheses of `MemoryReportsComplete`. -/
theorem witness_MemoryReportsComplete :
    (∃ (s : State) (line : Nat) (words : List (Fin 4 × List Byte)), Up s ∧ memServes s = true ∧ (∃ w ∈ words, rsDecode w.2 = .failed) ∧ 64 * line < capacity s) ∧
    (∃ (s : State) (words : List (Fin 4 × List Byte)), Up s ∧ (∀ w ∈ words, rsDecode w.2 ≠ .failed)) ∧
    (∃ (s : State) (req : Fin 14) (addr : Nat) (len : Nat) (write : Bool), Up s ∧ memServes s = true ∧ guardOk s req addr len write = false) ∧
    (∃ (s : State) (req : Fin 14) (addr : Nat) (len : Nat) (write : Bool), Up s ∧ memServes s = true ∧ guardOk s req addr len write = false) ∧
    (∃ (s : State) (found : List CorrErr), Up s ∧ memServes s = true ∧ (found.all (fun e => rsDecode e.error != .clean && rsDecode e.error != .failed) = true)) ∧
    (∃ (s : State), Up s ∧ memServes s = true ∧ (flag s F.MEM_CTRL_SCRUB_EN = true ∧ flag s F.MEM_STATUS_INIT_DONE = true ∧ panicOn s = false ∧ flag s F.PWR_STATUS_THROTTLE = false ∧ ¬ 64 * (s.mem.scrubNext + 1) < capacity s)) ∧
    (∃ (s : State), Up s ∧ memServes s = true ∧ (64 * (s.mem.scrubNext + 1) < capacity s)) ∧
    (∃ (s : State) (l : Nat) (rest : List Nat), Up s ∧ memServes s = true ∧ panicOn s = false ∧ flag s F.MEM_CTRL_SCRUB_EN = true ∧ flag s F.PWR_STATUS_THROTTLE = false ∧ s.mem.scrubQueue = l :: rest) ∧
    (∃ (s : State) (raw : Fin 8193) (span : Fin 8193), Up s ∧ memServes s = true ∧ panicOn s = false ∧ (getF s F.MEM_PANIC_CFG_ON * 8192 ≤ 64 * raw.val ∨ getF s F.MEM_PANIC_CFG_ON * 4096 ≤ 64 * span.val)) ∧
    (∃ (s : State) (raw : Fin 8193) (span : Fin 8193), Up s ∧ memServes s = true ∧ panicOn s = false ∧ (getF s F.MEM_PANIC_CFG_ON * 8192 ≤ 64 * raw.val ∨ getF s F.MEM_PANIC_CFG_ON * 4096 ≤ 64 * span.val)) ∧
    (∃ (s : State) (raw : Fin 8193) (span : Fin 8193), Up s ∧ panicOn s = true ∧ 64 * raw.val ≤ min (getF s F.MEM_PANIC_CFG_OFF) (getF s F.MEM_PANIC_CFG_ON) * 8192 ∧ 64 * span.val ≤ min (getF s F.MEM_PANIC_CFG_OFF) (getF s F.MEM_PANIC_CFG_ON) * 4096 ∧ (raw.val ≠ 0)) ∧
    (∃ (s : State) (raw : Fin 8193) (span : Fin 8193), Up s ∧ panicOn s = true ∧ 64 * raw.val ≤ min (getF s F.MEM_PANIC_CFG_OFF) (getF s F.MEM_PANIC_CFG_ON) * 8192 ∧ 64 * span.val ≤ min (getF s F.MEM_PANIC_CFG_OFF) (getF s F.MEM_PANIC_CFG_ON) * 4096 ∧ (getF s (F.MEM_STATE_SR 15) ≠ 2)) :=
  ⟨⟨memOn [], 2 ^ 30 - 1, [(3, [1, 2] ++ List.replicate 18 0)], by unfold Up; decide +kernel⟩,
    ⟨memOn [], [(3, [1] ++ List.replicate 19 0)], by unfold Up; decide +kernel⟩,
    ⟨memOn [], 0, 0, 64, true, by unfold Up; decide +kernel⟩,
    ⟨memOn [(F.MEM_LOG_HEAD_SLOT, 5)], 11, 2 ^ 36 - 1, 2, false, by unfold Up; decide +kernel⟩,
    ⟨memOn [], [⟨12, 2 ^ 32 - 1, [1] ++ List.replicate 19 0⟩], by unfold Up; decide +kernel⟩,
    ⟨{ memOn [(F.MEM_CTRL_SCRUB_EN, 1)] with mem := { scrubNext := 2 ^ 30 - 1 } }, by unfold Up; decide +kernel⟩,
    ⟨memOn [(F.MEM_CTRL_SCRUB_EN, 1)], by unfold Up; decide +kernel⟩,
    ⟨{ memOn [(F.MEM_CTRL_SCRUB_EN, 1)] with mem := { scrubQueue := [2 ^ 30 - 1] } }, 2 ^ 30 - 1, [], by unfold Up; decide +kernel⟩,
    ⟨memOn [(F.MEM_PANIC_CFG_ON, 48), (F.MEM_STATE_SR 15, 2)], 6144, 0, by unfold Up; decide +kernel⟩,
    ⟨memOn [(F.MEM_PANIC_CFG_ON, 48), (F.MEM_STATE_SR 0, 2)], 0, 3072, by unfold Up; decide +kernel⟩,
    ⟨memOn [(F.MEM_STATUS_PANIC, 1), (F.MEM_PANIC_CFG_ON, 48), (F.MEM_PANIC_CFG_OFF, 16)], 2048, 1024, by unfold Up; decide +kernel⟩,
    ⟨memOn [(F.MEM_STATUS_PANIC, 1), (owedF 15 1, 3)], 0, 0, by unfold Up; decide +kernel⟩⟩

/-- States and operands that meet the hypotheses of `MemoryRefreshComplete`. -/
theorem witness_MemoryRefreshComplete :
    (∃ (s : State) (u : Fin 16), Up s ∧ memServes s = true ∧ getF s (F.MEM_STATE_SR u) ≠ 2 ∧ (true = true ∧ panicOn s = false)) ∧
    (∃ (s : State) (u : Fin 16) (rank : Fin 2), Up s ∧ memServes s = true ∧ getF s (F.MEM_STATE_SR u) ≠ 2 ∧ (getF s (owedF u rank) + 1 ≤ postponeMax s)) ∧
    (∃ (s : State) (u : Fin 16) (rank : Fin 2), Up s ∧ memServes s = true ∧ getF s (F.MEM_STATE_SR u) ≠ 2 ∧ (¬ getF s (owedF u rank) + 1 ≤ postponeMax s)) ∧
    (∃ (s : State) (u : Fin 16) (rank : Fin 2), Up s ∧ memServes s = true ∧ getF s (F.MEM_STATE_SR u) ≠ 2 ∧ (¬ getF s (owedF u rank) + 1 ≤ postponeMax s)) ∧
    (∃ (s : State) (u : Fin 16), Up s ∧ memServes s = true ∧ getF s (F.MEM_STATE_SR u) ≠ 2) ∧
    (∃ (s : State) (u : Fin 16), Up s ∧ memServes s = true ∧ getF s (F.MEM_STATE_SR u) ≠ 2) ∧
    (∃ (s : State) (u : Fin 16), Up s ∧ memServes s = true ∧ getR s R.MEM_SR_IDLE % 65536 ≠ 0 ∧ panicOn s = false ∧ getF s (F.MEM_STATE_SR u) = 0) ∧
    (∃ (s : State) (u : Fin 16), Up s ∧ memServes s = true ∧ getR s R.MEM_SR_IDLE % 65536 ≠ 0 ∧ panicOn s = false ∧ getF s (F.MEM_STATE_SR u) = 0) ∧
    (∃ (s : State) (u : Fin 16), Up s ∧ getF s (F.MEM_STATE_SR u) = 2) ∧
    (∃ (s : State), Up s ∧ memServes s = true ∧ (getF s F.MEM_AGE_LIMIT_US ≠ 0)) ∧
    (∃ (s : State), Up s ∧ memServes s = true ∧ (getF s F.MEM_AGE_LIMIT_US = 0)) ∧
    (∃ (s : State), Up s ∧ flag s F.MEM_SWEEP_CTRL_BUSY = false) :=
  ⟨⟨memOn [(owedF 15 1, 3)], 15, by unfold Up; decide +kernel⟩,
    ⟨memOn [], 0, 0, by unfold Up; decide +kernel⟩,
    ⟨memOn [(owedF 15 1, 4)], 15, 1, by unfold Up; decide +kernel⟩,
    ⟨memOn [(owedF 15 1, 7)], 15, 1, by unfold Up; decide +kernel⟩,
    ⟨memOn [(F.MEM_CTRL_FORCE_2X, 1)], 15, by unfold Up; decide +kernel⟩,
    ⟨memOn [], 0, by unfold Up; decide +kernel⟩,
    ⟨memOn [reg R.MEM_SR_IDLE 1, (owedF 15 0, 2)], 15, by unfold Up; decide +kernel⟩,
    ⟨memOn [reg R.MEM_SR_IDLE 1, (owedF 15 0, 2)], 15, by unfold Up; decide +kernel⟩,
    ⟨memOn [(F.MEM_STATE_SR 15, 2)], 15, by unfold Up; decide +kernel⟩,
    ⟨memOn [(F.MEM_AGE_LIMIT_US, 5)], by unfold Up; decide +kernel⟩,
    ⟨memOn [(F.MEM_AGE_LIMIT_US, 0)], by unfold Up; decide +kernel⟩,
    ⟨memOn [(F.MEM_STATE_SR 15, 2)], by unfold Up; decide +kernel⟩⟩

/-- States and operands that meet the hypotheses of `MemoryStartAndSweepComplete`. -/
theorem witness_MemoryStartAndSweepComplete :
    (∃ (s : State), Up s ∧ memServes s = true) ∧
    (∃ (s : State), Up s ∧ flag s F.MEM_STATUS_INIT_BUSY = true) ∧
    (∃ (s : State) (tag : Word) (mask : BitVec 16), Up s ∧ Served s .host 10 tag.toNat (leBytes 2 mask.toNat) ∧ s.mem.sweep = [] ∧ memServes s = true ∧ mask ≠ 0 ∧ (∀ u : Fin 16, mask.getLsbD u = true → u.val < subCount s)) ∧
    (∃ (s : State) (u : Fin 16) (rest : List Nat), Up s ∧ s.mem.sweep = u.val :: rest ∧ panicOn s = false ∧ flag s F.PWR_STATUS_THROTTLE = false ∧ ([] = ([] : List Nat))) ∧
    (∃ (s : State) (u : Fin 16) (rest : List Nat), Up s ∧ s.mem.sweep = u.val :: rest ∧ panicOn s = false ∧ flag s F.PWR_STATUS_THROTTLE = false ∧ (s.mem.starting = true ∧ memServes s = true)) ∧
    (∃ (s : State) (u : Fin 16) (rest : List Nat), Up s ∧ s.mem.sweep = u.val :: rest ∧ panicOn s = false ∧ flag s F.PWR_STATUS_THROTTLE = false) :=
  ⟨⟨memOn [], by unfold Up; decide +kernel⟩,
    ⟨{ memOn [(F.MEM_STATUS_INIT_BUSY, 1)] with dram := [(5, 1)], badWords := [3] }, by unfold Up; decide +kernel⟩,
    ⟨memOn [], 0xFFFFFFFF, 0x8001, by unfold Up Served; decide +kernel⟩,
    ⟨{ memOn [] with mem := { sweep := [15], sweepTag := 7 } }, 15, [], by unfold Up; decide +kernel⟩,
    ⟨{ memOn [] with mem := { sweep := [15], starting := true } }, 15, [], by unfold Up; decide +kernel⟩,
    ⟨{ memOn [] with mem := { sweep := [0, 15], sweepTag := 7 } }, 0, [15], by unfold Up; decide +kernel⟩⟩

/-- States and operands that meet the hypotheses of `RunCommandsComplete`. -/
theorem witness_RunCommandsComplete :
    (∃ (s : State) (src : CmdSource) (tag : Word) (f0 : BitVec 48), Up s ∧ Served s src 3 tag.toNat (leBytes 6 f0.toNat) ∧ (startStatus s f0.toNat = stOk)) ∧
    (∃ (s : State) (src : CmdSource) (tag : Word) (f0 : BitVec 48), Up s ∧ Served s src 3 tag.toNat (leBytes 6 f0.toNat) ∧ (startStatus s f0.toNat ≠ stOk)) ∧
    (∃ (s : State) (src : CmdSource) (tag : Word) (f0 : BitVec 48), Up s ∧ Served s src 3 tag.toNat (leBytes 6 f0.toNat) ∧ (s.arch.running = true)) ∧
    (∃ (s : State) (src : CmdSource) (tag : Word) (f0 : BitVec 48), Up s ∧ Served s src 3 tag.toNat (leBytes 6 f0.toNat)) ∧
    (∃ (s : State) (src : CmdSource) (tag : Word) (fs : BitVec 48), Up s ∧ Served s src 4 tag.toNat (leBytes 6 fs.toNat) ∧ (stopStatus s fs.toNat = stOk ∧ s.arch.running = true ∧ s.arch.stopFrame = none)) ∧
    (∃ (s : State) (src : CmdSource) (tag : Word) (fs : BitVec 48), Up s ∧ Served s src 4 tag.toNat (leBytes 6 fs.toNat) ∧ (¬ stopStatus s fs.toNat = stOk)) ∧
    (∃ (s : State) (fs : Nat), Up s ∧ s.arch.stopFrame = some fs ∧ s.arch.running = true ∧ stopEnd s fs ≤ frameOf s ∧ s.integ.readout = none) ∧
    (∃ (s : State) (f : Nat), Up s ∧ f < 2 ^ 43 ∧ f = (if s.arch.tickDue = true then frameOf s else frameOf s + 1) ∧ (s.arch.closedUpTo = none)) ∧
    (∃ (s : State) (f : Nat), Up s ∧ f < 2 ^ 43 ∧ f = (if s.arch.tickDue = true then frameOf s else frameOf s + 1) ∧ (spanLen s ≠ 0 ∧ f % spanLen s = 0)) ∧
    (∃ (s : State) (f : Nat), Up s ∧ f < 2 ^ 43 ∧ f = (if s.arch.tickDue = true then frameOf s else frameOf s + 1) ∧ (s.arch.closedUpTo = some 64)) :=
  ⟨⟨idle [(F.CLK_STATUS_TIME_VALID, 1)], .host, 0xFFFFFFFF, 12, by unfold Up Served; decide +kernel⟩,
    ⟨idle [(F.CLK_STATUS_TIME_VALID, 1)], .host, 1, 11, by unfold Up Served; decide +kernel⟩,
    ⟨running (idle []) 8 0, .host, 1, 12, by unfold Up Served; decide +kernel⟩,
    ⟨asked (idle [(F.CLK_STATUS_TIME_VALID, 1)]) 3 1 (leBytes 6 33), .relay 0 5 6, 1, 33, by exact ⟨rfl, by decide +kernel, by decide, [], rfl⟩⟩,
    ⟨running (idle []) 8 0, .host, 7, 0, by unfold Up Served; decide +kernel⟩,
    ⟨running (idle []) 8 0, .host, 7, 8, by unfold Up Served; decide +kernel⟩,
    ⟨{ running (idle [(F.XR_CTRL_EN, 1), (F.COR_CTRL_EN, 1), (F.INT_CTRL_EN, 1)]) 8 0 with arch := { running := true, stopFrame := some 4 } }, 4, by unfold Up; decide +kernel⟩,
    ⟨running (idle []) 7 5, 8, by unfold Up; decide +kernel⟩,
    ⟨running (idle []) 63 5, 64, by unfold Up; decide +kernel⟩,
    ⟨{ running (idle []) 64 5 with arch := { running := true, tickDue := true, closedUpTo := some 64 } }, 64, by unfold Up; decide +kernel⟩⟩

/-- States and operands that meet the hypotheses of `MailboxCommandsComplete`. -/
theorem witness_MailboxCommandsComplete :
    (∃ (s : State) (tag : Word) (cmd : BitVec 16), Up s ∧ Served s .host cmd.toNat tag.toNat [] ∧ (cmd = 0 ∨ 13 < cmd.toNat)) ∧
    (∃ (s : State) (tag : Word) (cmd : BitVec 16), Up s ∧ Served s .host cmd.toNat tag.toNat [] ∧ (cmd = 0 ∨ 13 < cmd.toNat)) ∧
    (∃ (s : State) (src : CmdSource) (tag : Word), Up s ∧ Served s src 8 tag.toNat []) ∧
    (∃ (s : State) (src : CmdSource) (tag : Word), Up s ∧ Served s src 8 tag.toNat [] ∧ (flag s F.CLK_STATUS_TIME_FAULT = false)) ∧
    (∃ (s : State) (src : CmdSource) (tag : Word) (host : DWord), Up s ∧ Served s src 7 tag.toNat (leBytes 8 host.toNat) ∧ (src = .host ∧ domLive s 27 = true)) ∧
    (∃ (s : State) (tag : Word) (cap : Fin 16) (ring : Fin 4096) (room : DWord), Up s ∧ Served s .host 11 tag.toNat [] ∧ (ringFree s ring = true ∧ getF s (F.TRG_CAPTURE_STATE cap) ≠ 0 ∧ domOn s 27 = true ∧ frameBytes * (captureFrames s cap).length ≤ room.toNat)) ∧
    (∃ (s : State) (tag : Word), Up s ∧ Served s .host 11 tag.toNat []) ∧
    (∃ (s : State) (tag : Word) (role : Byte) (pair : Byte) (fj : BitVec 48), Up s ∧ Served s .host 9 tag.toNat (leBytes 1 role.toNat ++ leBytes 1 pair.toNat ++ leBytes 6 fj.toNat) ∧ (joinOk s role.toNat pair.toNat fj.toNat = true)) ∧
    (∃ (s : State) (tag : Word) (role : Byte) (pair : Byte) (fj : BitVec 48), Up s ∧ Served s .host 9 tag.toNat (leBytes 1 role.toNat ++ leBytes 1 pair.toNat ++ leBytes 6 fj.toNat) ∧ (joinOk s role.toNat pair.toNat fj.toNat = true)) ∧
    (∃ (s : State) (tag : Word) (role : Byte) (pair : Byte) (fj : BitVec 48), Up s ∧ Served s .host 9 tag.toNat (leBytes 1 role.toNat ++ leBytes 1 pair.toNat ++ leBytes 6 fj.toNat) ∧ (joinOk s role.toNat pair.toNat fj.toNat = false)) :=
  ⟨⟨idle [], 1, 14, by unfold Up Served; decide +kernel⟩,
    ⟨idle [], 1, 0, by unfold Up Served; decide +kernel⟩,
    ⟨idle [(F.CLK_STATUS_TIME_FAULT, 1)], .host, 1, by unfold Up Served; decide +kernel⟩,
    ⟨idle [], .host, 1, by unfold Up Served; decide +kernel⟩,
    ⟨idle [], .host, 1, 0x1000, by unfold Up Served; decide +kernel⟩,
    ⟨idle [(F.TRG_CAPTURE_STATE 15, 2), (F.DMA_RING_STATUS_STATE 4095, 1)], 1, 15, 4095, 0xFFFFFFFFFF, by unfold Up Served; decide +kernel⟩,
    ⟨idle [(F.DMA_RING_STATUS_STATE 0, 1)], 1, by unfold Up Served; decide +kernel⟩,
    ⟨running (idle [(F.TWN_STATUS_STATE, 1), (F.XR_CTRL_TWIN_PAIR, 9)]) 8 0, 1, 2, 9, 12, by unfold Up Served; decide +kernel⟩,
    ⟨running (idle [(F.TWN_STATUS_STATE, 1), (F.XR_CTRL_TWIN_PAIR, 9)]) 8 0, 1, 3, 9, 12, by unfold Up Served; decide +kernel⟩,
    ⟨running (idle [(F.TWN_STATUS_STATE, 1), (F.XR_CTRL_TWIN_PAIR, 9)]) 8 0, 1, 1, 9, 11, by unfold Up Served; decide +kernel⟩⟩

/-- States and operands that meet the hypotheses of `YodexCommandsComplete`. -/
theorem witness_YodexCommandsComplete :
    (∃ (s : State) (tag : Word) (fs : BitVec 48) (count : Word), Up s ∧ Served s .host 12 tag.toNat [] ∧ (recordStatus s fs.toNat count.toNat = stAccepted)) ∧
    (∃ (s : State) (tag : Word) (fs : BitVec 48) (count : Word), Up s ∧ Served s .host 12 tag.toNat [] ∧ (recordStatus s fs.toNat count.toNat ≠ stAccepted)) ∧
    (∃ (s : State), Up s ∧ (12, s.ydx.tag) ∈ s.mail.running ∧ s.ydx.first + s.ydx.count + 1 ≤ frameOf s ∧ (ydxState s = 2)) ∧
    (∃ (s : State), Up s ∧ (12, s.ydx.tag) ∈ s.mail.running ∧ s.ydx.first + s.ydx.count + 1 ≤ frameOf s ∧ (ydxState s = 2)) ∧
    (∃ (s : State), Up s ∧ ydxState s = 3) ∧
    (∃ (s : State) (tag : Word) (fp : BitVec 48) (pace : BitVec 16), Up s ∧ Served s .host 13 tag.toNat [] ∧ (replayStatus s fp.toNat pace.toNat = stAccepted)) ∧
    (∃ (s : State) (tag : Word) (fp : BitVec 48) (pace : BitVec 16), Up s ∧ Served s .host 13 tag.toNat [] ∧ (replayStatus s fp.toNat pace.toNat ≠ stAccepted)) ∧
    (∃ (s : State), Up s ∧ ydxState s = 5 ∧ (s.ydx.cut.isSome = true ∨ s.ydx.replayFirst + s.ydx.pace * (s.ydx.count - 1) + 1 ≤ frameOf s)) ∧
    (∃ (s : State), Up s ∧ ydxState s = 5 ∧ (s.ydx.cut.isSome = true ∨ s.ydx.replayFirst + s.ydx.pace * (s.ydx.count - 1) + 1 ≤ frameOf s)) :=
  ⟨⟨setR (idle []) (memRegionKey 4 + 4) 0xFFFFF, 1, 12, 1, by unfold Up Served; decide +kernel⟩,
    ⟨idle [], 1, 11, 1, by unfold Up Served; decide +kernel⟩,
    ⟨{ idle [(F.YDX_STATUS_STATE, 2)] with ydx := { tag := 5, first := 4, count := 3 }, mail := { running := [(12, 5)] } }, by unfold Up; decide +kernel⟩,
    ⟨{ idle [(F.YDX_STATUS_STATE, 2)] with ydx := { tag := 5, first := 4, count := 3, stream := true }, mail := { running := [(12, 5)] } }, by unfold Up; decide +kernel⟩,
    ⟨idle [(F.YDX_STATUS_STATE, 3)], by unfold Up; decide +kernel⟩,
    ⟨{ idle [(F.CLK_STATUS_TIME_VALID, 1)] with ydx := { held := true, first := 31, count := 2 } }, 1, 63, 16, by unfold Up Served; decide +kernel⟩,
    ⟨{ idle [(F.CLK_STATUS_TIME_VALID, 1)] with ydx := { held := true, first := 31, count := 2 } }, 1, 63, 17, by unfold Up Served; decide +kernel⟩,
    ⟨{ idle [(F.YDX_STATUS_STATE, 5)] with ydx := { replayFirst := 3, pace := 2, count := 3 } }, by unfold Up; decide +kernel⟩,
    ⟨{ idle [(F.YDX_STATUS_STATE, 5)] with ydx := { replayFirst := 300, pace := 2, count := 3, cut := some 0 } }, by unfold Up; decide +kernel⟩⟩

/-- States and operands that meet the hypotheses of `LoadCommandsComplete`. -/
theorem witness_LoadCommandsComplete :
    (∃ (s : State) (tag : Word) (off : DWord) (len : Word), Up s ∧ Served s .host 1 tag.toNat (leBytes 8 off.toNat ++ leBytes 4 len.toNat) ∧ (s.str.load.isSome = true)) ∧
    (∃ (s : State) (tag : Word) (off : DWord) (len : Word), Up s ∧ Served s .host 1 tag.toNat (leBytes 8 off.toNat ++ leBytes 4 len.toNat) ∧ (s.str.load = none ∧ imageAt s off.toNat len.toNat = false)) ∧
    (∃ (s : State) (tag : Word) (off : DWord) (len : Word), Up s ∧ Served s .host 1 tag.toNat (leBytes 8 off.toNat ++ leBytes 4 len.toNat) ∧ (s.str.load = none ∧ imageAt s off.toNat len.toNat = true ∧ s.arch.running = true)) ∧
    (∃ (s : State) (tag : Word) (off : DWord) (len : Word), Up s ∧ Served s .host 1 tag.toNat (leBytes 8 off.toNat ++ leBytes 4 len.toNat) ∧ (s.str.load = none ∧ imageAt s off.toNat len.toNat = true ∧ s.arch.running = false ∧ unitRead s 10 off.toNat len.toNat = some [0, 0, 0, 0])) ∧
    (∃ (s : State) (tag : Word) (off : DWord) (len : Word) (region : Byte), Up s ∧ Served s .host 2 tag.toNat (leBytes 8 off.toNat ++ leBytes 4 len.toNat ++ leBytes 1 region.toNat) ∧ (s.str.load.isSome = true)) ∧
    (∃ (s : State) (tag : Word) (off : DWord) (len : Word) (region : Byte), Up s ∧ Served s .host 2 tag.toNat (leBytes 8 off.toNat ++ leBytes 4 len.toNat ++ leBytes 1 region.toNat) ∧ (s.str.load = none ∧ 12 < region.toNat)) ∧
    (∃ (s : State) (tag : Word) (off : DWord) (len : Word) (region : Byte), Up s ∧ Served s .host 2 tag.toNat (leBytes 8 off.toNat ++ leBytes 4 len.toNat ++ leBytes 1 region.toNat) ∧ (s.str.load = none ∧ imageAt s off.toNat len.toNat = true ∧ unitRead s 10 off.toNat len.toNat = some [0, 0, 0, 0])) ∧
    (∃ (s : State) (s' : State) (l : StrLoad), Up s ∧ s.str.load = some l ∧ (s' = setStr (setF s F.STR_STATUS_LOADING 0) (fun x => { x with load := none })) ∧ ((loadFails s' l).isSome = true)) :=
  ⟨⟨{ idle [] with str := { load := some ⟨1, 0, none, [], none⟩ } }, 1, 0, 0, by unfold Up Served; decide +kernel⟩,
    ⟨idle [], 1, 0, 0, by unfold Up Served; decide +kernel⟩,
    ⟨running (idle [(F.MEM_CONFIG_GIB, 64), (F.MEM_CONFIG_CHANNELS, 8), (F.MEM_STATUS_INIT_DONE, 1)]) 8 0, 1, 0xF00100000, 4, by unfold Up Served; decide +kernel⟩,
    ⟨idle [(F.MEM_CONFIG_GIB, 64), (F.MEM_CONFIG_CHANNELS, 8), (F.MEM_STATUS_INIT_DONE, 1)], 1, 0xFFFEFFFFC, 4, by unfold Up Served; decide +kernel⟩,
    ⟨{ idle [] with str := { load := some ⟨1, 0, none, [], none⟩ } }, 1, 0, 0, 12, by unfold Up Served; decide +kernel⟩,
    ⟨idle [(F.MEM_CONFIG_GIB, 64)], 1, 0xF00100000, 4, 13, by unfold Up Served; decide +kernel⟩,
    ⟨idle [(F.MEM_CONFIG_GIB, 64), (F.MEM_CONFIG_CHANNELS, 8), (F.MEM_STATUS_INIT_DONE, 1)], 1, 0xF00100000, 4, 12, by unfold Up Served; decide +kernel⟩,
    ⟨{ idle [] with str := { load := some ⟨1, 9, none, [], none⟩ } }, setStr (setF (idle []) F.STR_STATUS_LOADING 0) (fun x => { x with load := none }), ⟨1, 9, none, [], none⟩, by unfold Up; decide +kernel⟩⟩

/-- States and operands that meet the hypotheses of `UpdateCommandsComplete`. -/
theorem witness_UpdateCommandsComplete :
    (∃ (s : State) (tag : Word) (off : DWord) (len : Word) (fa : BitVec 48) (fr : BitVec 48) (timeout : BitVec 16) (relay : Bool) (force : Bool) (sch : StrSchedule), Up s ∧ sch = ⟨fa.toNat, fr.toNat, timeout.toNat, ofBool relay + 2 * ofBool force⟩ ∧ Served s .host 5 tag.toNat (leBytes 8 off.toNat ++ leBytes 4 len.toNat ++ scheduleBytes sch) ∧ (imageAt s off.toNat len.toNat = true ∧ scheduleOk s sch = true ∧ s.str.session = none ∧ sessionState s ≠ 3 ∧ (inactiveSlot s).isSome = true ∧ unitRead s 10 off.toNat len.toNat = some [0, 0, 0, 0])) ∧
    (∃ (s : State) (tag : Word) (off : DWord) (len : Word) (fa : BitVec 48) (fr : BitVec 48) (timeout : BitVec 16) (relay : Bool) (force : Bool) (sch : StrSchedule), Up s ∧ sch = ⟨fa.toNat, fr.toNat, timeout.toNat, ofBool relay + 2 * ofBool force⟩ ∧ Served s .host 5 tag.toNat (leBytes 8 off.toNat ++ leBytes 4 len.toNat ++ scheduleBytes sch) ∧ (imageAt s off.toNat len.toNat = false ∨ scheduleOk s sch = false)) ∧
    (∃ (s : State) (tag : Word) (off : DWord) (len : Word) (fa : BitVec 48) (fr : BitVec 48) (timeout : BitVec 16) (relay : Bool) (force : Bool) (sch : StrSchedule), Up s ∧ sch = ⟨fa.toNat, fr.toNat, timeout.toNat, ofBool relay + 2 * ofBool force⟩ ∧ Served s .host 5 tag.toNat (leBytes 8 off.toNat ++ leBytes 4 len.toNat ++ scheduleBytes sch) ∧ (imageAt s off.toNat len.toNat = true ∧ scheduleOk s sch = true ∧ s.str.session.isSome = true)) ∧
    (∃ (s : State) (x : StrSession) (k : Nat), Up s ∧ s.str.session = some x ∧ inactiveSlot s = some k ∧ sessionState s = 3) ∧
    (∃ (s : State) (x : StrSession) (k : Nat), Up s ∧ s.str.session = some x ∧ inactiveSlot s = some k ∧ sessionState s = 3) ∧
    (∃ (s : State) (k : Fin 2) (sch : StrSchedule) (tag : Nat) (port : Option Nat), Up s ∧ s.str.load = none ∧ s.str.schedule = some (k.val, sch, tag, port) ∧ sch.fa ≤ startedFrame s ∧ (s.arch.running = true)) ∧
    (∃ (s : State) (s' : State) (k : Nat), Up s ∧ s.str.restart = some k ∧ s.arch.running = false ∧ s' = settingsRestore { s with str := { s.str with restart := none, trialAt := s.counter.toNat, settings := s.str.settings.put k ⟨leAt (s.str.slots.get [] k) 40 4, (s.str.settings.get ⟨0, []⟩ (activeSlot s)).regs⟩ }, mail := { s.mail with restarting := false } } k) ∧
    (∃ (s : State) (s' : State) (k : Nat), Up s ∧ s.str.restart = some k ∧ s.arch.running = false ∧ s' = settingsRestore { s with str := { s.str with restart := none, trialAt := s.counter.toNat, settings := s.str.settings.put k ⟨leAt (s.str.slots.get [] k) 40 4, (s.str.settings.get ⟨0, []⟩ (activeSlot s)).regs⟩ }, mail := { s.mail with restarting := false } } k ∧ ((fullCheck s' (s.str.slots.get [] k) true).isSome = true)) ∧
    (∃ (s : State) (src : CmdSource) (tag : Word) (id : DWord), Up s ∧ Served s src 6 tag.toNat (leBytes 8 id.toNat) ∧ (trialSlot s = some 1 ∧ flag s F.STR_STATUS_TRIAL = true ∧ id.toNat = imageId (s.str.slots.get [] 1))) ∧
    (∃ (s : State) (src : CmdSource) (tag : Word) (id : DWord), Up s ∧ Served s src 6 tag.toNat (leBytes 8 id.toNat) ∧ (trialSlot s = some 1 ∧ id.toNat ≠ imageId (s.str.slots.get [] 1))) ∧
    (∃ (s : State) (k : Nat), Up s ∧ trialSlot s = some k ∧ flag s F.STR_STATUS_TRIAL = true ∧ s.str.trialAt + leAt ((recordNow s).getD []) 22 2 * 800000000 ≤ s.counter.toNat) :=
  ⟨⟨memOn [dom 27 2], 1, 0xFFFEFFFFC, 4, 4, 2052, 1, false, false, ⟨4, 2052, 1, 0⟩, by unfold Up Served; decide +kernel⟩,
    ⟨memOn [dom 27 2], 1, 0xFFFEFFFFC, 4, 3, 0, 1, true, true, ⟨3, 0, 1, 3⟩, by unfold Up Served; decide +kernel⟩,
    ⟨inSession (sess (some 0) 5 false) 1, 1, 0xFFFEFFFFC, 4, 4, 0, 1, true, false, ⟨4, 0, 1, 1⟩, by unfold Up Served; decide +kernel⟩,
    ⟨inSession (sess none 5 false) 3, sess none 5 false, 1, by unfold Up; decide +kernel⟩,
    ⟨inSession (sess (some 1) 5 true) 3, sess (some 1) 5 true, 1, by unfold Up; decide +kernel⟩,
    ⟨{ running (set []) 6 0 with str := { schedule := some (1, ⟨6, 0, 5, 0⟩, 9, none) } }, 1, ⟨6, 0, 5, 0⟩, 9, none, by unfold Up; decide +kernel⟩,
    ⟨onTrial, onTrialParsed, 1, by unfold Up; decide +kernel⟩,
    ⟨onTrial, onTrialParsed, 1, by unfold Up; decide +kernel⟩,
    ⟨onTrial, .host, 1, 77, by unfold Up Served; decide +kernel⟩,
    ⟨onTrial, .host, 1, 78, by unfold Up Served; decide +kernel⟩,
    ⟨{ onTrial with counter := 4000000000 }, 1, by unfold Up; decide +kernel⟩⟩

/-- States and operands that meet the hypotheses of `RelaySessionCompletes`. -/
theorem witness_RelaySessionCompletes :
    (∃ (s : State) (f : RelayFrame), Up s ∧ RelayGood f ∧ (s.str.session = none ∧ tableOk s (f.payload.drop 16) = true)) ∧
    (∃ (s : State) (f : RelayFrame), Up s ∧ RelayGood f ∧ (s.str.session = none ∧ tableOk s (f.payload.drop 16) = false)) ∧
    (∃ (s : State) (f : RelayFrame), Up s ∧ RelayGood f ∧ (RelayFrame.key f ≠ (4, 6) ∧ bitOf (leAt f.header 1 1) 0 = false)) ∧
    (∃ (s : State) (f : RelayFrame), Up s ∧ RelayGood f ∧ (RelayFrame.key f ≠ (4, 6) ∧ bitOf (leAt f.header 1 1) 0 = true ∧ sessionState s ≠ 3 ∧ tableOk s (f.payload.drop 16) = true)) ∧
    (∃ (s : State) (f : RelayFrame), Up s ∧ RelayGood f ∧ (RelayFrame.key f ≠ (4, 6) ∧ tableOk s (f.payload.drop 16) = false)) ∧
    (∃ (s : State) (port : Fin 2) (f : RelayFrame) (x : StrSession) (off : Nat) (n : Nat), Up s ∧ RelayGood f ∧ sessionOf s port f = some x ∧ off = getR s R.STR_SESSION_BYTES ∧ n = f.payload.length ∧ (RelayFrame.offset f = off ∧ off + n ≤ imageLen x.head ∧ dramUsable s = true ∧ guardOk s 10 (stagingBase s + off) n true = true ∧ s.badWords = [])) ∧
    (∃ (s : State) (port : Fin 2) (f : RelayFrame) (x : StrSession) (off : Nat) (n : Nat), Up s ∧ RelayGood f ∧ sessionOf s port f = some x ∧ off = getR s R.STR_SESSION_BYTES ∧ n = f.payload.length ∧ (RelayFrame.offset f ≠ off ∧ getF s F.STR_SESSION_PULLS < 8)) ∧
    (∃ (s : State) (s' : State) (port : Fin 2) (f : RelayFrame) (x : StrSession) (k : Nat) (img : List Byte), Up s ∧ RelayGood f ∧ sessionOf s port f = some x ∧ getR s R.STR_SESSION_BYTES = imageLen x.head ∧ RelayFrame.offset f = imageLen x.head ∧ s.str.firmware = true ∧ inactiveSlot s = some k ∧ unitRead s 10 (stagingBase s) (imageLen x.head) = some img ∧ (s' = setStr (setF (relayForward s port f) F.STR_SESSION_STATE 2) (fun z => { z with session := some { x with ended := true } }))) ∧
    (∃ (s : State) (f : RelayFrame) (x : StrSession), Up s ∧ RelayGood f ∧ s.str.session = some x ∧ x.port = none ∧ RelayFrame.key f = (x.serial, x.time) ∧ x.serial = deviceSerial ∧ keyEarlier (leAt f.payload 0 8, leAt f.payload 8 8) (x.serial, x.time) = true) ∧
    (∃ (s : State) (f : RelayFrame) (x : StrSession), Up s ∧ RelayGood f ∧ s.str.session = some x ∧ RelayFrame.key f = (x.serial, x.time) ∧ (x.port = some 1)) ∧
    (∃ (s : State) (f : RelayFrame) (x : StrSession), Up s ∧ RelayGood f ∧ s.str.session = some x ∧ RelayFrame.key f = (x.serial, x.time) ∧ (x.port = none)) ∧
    (∃ (s : State) (port : Fin 2) (f : RelayFrame) (x : StrSession), Up s ∧ RelayGood f ∧ s.str.session = some x ∧ RelayFrame.key f = (x.serial, x.time) ∧ (x.ended = true ∧ port.val ∈ s.ptp.up)) ∧
    (∃ (s : State) (x : StrSession), Up s ∧ s.str.session = some x ∧ x.port.isSome = true ∧ sessionState s = 1) ∧
    (∃ (s : State) (port : Fin 2) (f : RelayFrame) (c : Instr), Up s ∧ ¬ RelayGood f ∧ (c ∈ [Instr.relayHeaderReceived port f, .relayDataReceived port f, .relayEndReceived port f, .relayBusyReceived port f, .relayAbortReceived port f, .relayPullReceived port f, .relayResultReceived port f, .relayFallbackReceived port f, .relayMgmtReqReceived port f, .relayMgmtRspReceived port f])) :=
  ⟨⟨{ memOn [] with ptp := { up := [0, 1] } }, relay 1 0 3 5 6 0 (List.replicate 16 0 ++ imageHead), by unfold Up RelayGood; decide +kernel⟩,
    ⟨{ memOn [] with ptp := { up := [0, 1] } }, relay 1 0 3 5 6 0 (List.replicate 16 0), by unfold Up RelayGood; decide +kernel⟩,
    ⟨inSession (sess (some 0) 4 false) 1, relay 1 0 3 5 6 0 (List.replicate 16 0 ++ imageHead), by unfold Up RelayGood; decide +kernel⟩,
    ⟨inSession (sess (some 0) 4 false) 1, relay 1 1 3 5 6 0 (List.replicate 16 0 ++ imageHead), by unfold Up RelayGood; decide +kernel⟩,
    ⟨inSession (sess (some 0) 4 false) 1, relay 1 1 3 5 6 0 (List.replicate 16 0), by unfold Up RelayGood; decide +kernel⟩,
    ⟨inSession (sess (some 1) 5 false) 1, 1, relay 2 0 3 5 6 0 [1, 2], sess (some 1) 5 false, 0, 2, by unfold Up RelayGood; decide +kernel⟩,
    ⟨setF (inSession (sess (some 0) 5 false) 1) F.STR_SESSION_PULLS 7, 0, relay 2 0 3 5 6 1 [1, 2], sess (some 0) 5 false, 0, 2, by unfold Up RelayGood; decide +kernel⟩,
    ⟨setR (inSession (sess (some 1) 5 false) 1) R.STR_SESSION_BYTES 1472, setStr (setF (relayForward (setR (inSession (sess (some 1) 5 false) 1) R.STR_SESSION_BYTES 1472) 1 (relay 3 0 3 5 6 1472 [])) F.STR_SESSION_STATE 2) (fun z => { z with session := some { sess (some 1) 5 false with ended := true } }), 1, relay 3 0 3 5 6 1472 [], sess (some 1) 5 false, 1, List.replicate 1472 0, by refine ⟨rfl, relay_good _ _ _ _ _ _ _ (by decide), ?_, ?_, ?_, ?_, ?_, ?_, rfl⟩ <;> decide +kernel⟩,
    ⟨inSession (sess none deviceSerial true) 2, relay 4 0 3 deviceSerial 6 0 (leBytes 8 5 ++ leBytes 8 4), sess none deviceSerial true, by exact ⟨rfl, relay_good _ _ _ _ _ _ _ (by decide), rfl, rfl, by rw [relay_key, Nat.mod_eq_of_lt deviceSerial_lt]; rfl, rfl, rfl⟩⟩,
    ⟨inSession (sess (some 1) 5 false) 1, relay 5 0 3 5 6 0 [], sess (some 1) 5 false, by unfold Up RelayGood; decide +kernel⟩,
    ⟨inSession (sess none 5 true) 2, relay 5 0 3 5 6 0 [], sess none 5 true, by unfold Up RelayGood; decide +kernel⟩,
    ⟨inSession (sess (some 1) 5 true) 2, 1, relay 6 0 3 5 6 0 [], sess (some 1) 5 true, by unfold Up RelayGood; decide +kernel⟩,
    ⟨inSession (sess (some 1) 5 false) 1, sess (some 1) 5 false, by unfold Up; decide +kernel⟩,
    ⟨set [], 1, ⟨[], [], []⟩, .relayFallbackReceived 1 ⟨[], [], []⟩, by unfold Up RelayGood; decide +kernel⟩⟩

/-- States and operands that meet the hypotheses of `RelayReportsComplete`. -/
theorem witness_RelayReportsComplete :
    (∃ (s : State) (port : Fin 2) (f : RelayFrame), Up s ∧ RelayGood f ∧ leAt f.header 2 1 ≠ 0 ∧ (1 - port.val) ∈ s.ptp.up) ∧
    (∃ (s : State) (port : Fin 2) (f : RelayFrame), Up s ∧ RelayGood f ∧ leAt f.header 2 1 ≠ 0 ∧ (1 - port.val) ∈ s.ptp.up ∧ (RelayFrame.key f).1 ≠ deviceSerial) ∧
    (∃ (s : State) (port : Fin 2) (f : RelayFrame), Up s ∧ RelayGood f ∧ leAt f.header 2 1 ≠ 0 ∧ (1 - port.val) ∈ s.ptp.up ∧ (RelayFrame.key f).1 ≠ deviceSerial) ∧
    (∃ (s : State) (port : Fin 2) (f : RelayFrame), Up s ∧ RelayGood f ∧ leAt f.header 2 1 ≠ 0 ∧ (1 - port.val) ∈ s.ptp.up ∧ leAt f.payload 0 8 ≠ deviceSerial) ∧
    (∃ (s : State) (f : RelayFrame) (c : Nat), Up s ∧ RelayGood f ∧ (RelayFrame.key f).1 = deviceSerial ∧ c = (if leAt f.payload 8 1 = 0 then R.STR_RESULT_OK_COUNT else R.STR_RESULT_FAIL_COUNT)) ∧
    (∃ (s : State) (f : RelayFrame), Up s ∧ RelayGood f ∧ leAt f.payload 0 8 = deviceSerial ∧ 24 ≤ f.payload.length) :=
  ⟨⟨inSession (sess none 5 false) 1, 0, relay 8 0 1 5 6 0 [1], by unfold Up RelayGood; decide +kernel⟩,
    ⟨inSession (sess none 5 false) 1, 1, relay 7 0 255 otherSerial 6 0 (List.replicate 17 0), by exact ⟨rfl, relay_good _ _ _ _ _ _ _ (by decide), by decide, by decide, by rw [relay_key]; exact otherSerial_ne⟩⟩,
    ⟨inSession (sess none 5 false) 1, 1, relay 10 0 255 otherSerial 6 0 (List.replicate 17 0), by exact ⟨rfl, relay_good _ _ _ _ _ _ _ (by decide), by decide, by decide, by rw [relay_key]; exact otherSerial_ne⟩⟩,
    ⟨inSession (sess none 5 false) 1, 0, relay 9 0 2 5 6 0 (leBytes 8 otherSerial), by exact ⟨rfl, relay_good _ _ _ _ _ _ _ (by decide), by decide, by decide, by show leNat (leBytes 8 otherSerial) ≠ _; rw [leNat_leBytes]; exact otherSerial_ne⟩⟩,
    ⟨set [], relay 7 0 3 deviceSerial 6 0 (List.replicate 17 0), R.STR_RESULT_OK_COUNT, by exact ⟨rfl, relay_good _ _ _ _ _ _ _ (by decide), by rw [relay_key, Nat.mod_eq_of_lt deviceSerial_lt], by decide⟩⟩,
    ⟨set [], relay 9 0 3 5 6 0 (leBytes 8 deviceSerial ++ leBytes 16 8), by exact ⟨rfl, relay_good _ _ _ _ _ _ _ (by decide), by show leNat (leBytes 8 deviceSerial) = _; rw [leNat_leBytes]; exact Nat.mod_eq_of_lt deviceSerial_lt, by decide⟩⟩⟩

/-- States and operands that meet the hypotheses of `ReferenceCommandsComplete`. -/
theorem witness_ReferenceCommandsComplete :
    (∃ (s : State) (output : Word) (v : Int) (m : Int) (x : Int) (l : List Int), Up s ∧ x = (if dpllState s = 5 then toSigned 32 (getR s R.CLK_STEER_FFO) else output.toInt) ∧ v = toSigned 32 (getR s R.CLK_PHASE_REMAIN) ∧ m = 10 * (max 1 (getR s R.CLK_SLEW) : Nat) ∧ l = ((x :: s.clk.history).drop 100).take (100 * max 1 (getR s R.CLK_HOLD_AVG)) ∧ (dpllState s = 2)) ∧
    (∃ (s : State) (output : Word) (v : Int) (m : Int) (x : Int) (l : List Int), Up s ∧ x = (if dpllState s = 5 then toSigned 32 (getR s R.CLK_STEER_FFO) else output.toInt) ∧ v = toSigned 32 (getR s R.CLK_PHASE_REMAIN) ∧ m = 10 * (max 1 (getR s R.CLK_SLEW) : Nat) ∧ l = ((x :: s.clk.history).drop 100).take (100 * max 1 (getR s R.CLK_HOLD_AVG)) ∧ (dpllState s = 5 ∧ l ≠ [] ∧ l.sum % (l.length : Int) = 0)) ∧
    (∃ (s : State) (output : Word) (v : Int) (m : Int) (x : Int) (l : List Int), Up s ∧ x = (if dpllState s = 5 then toSigned 32 (getR s R.CLK_STEER_FFO) else output.toInt) ∧ v = toSigned 32 (getR s R.CLK_PHASE_REMAIN) ∧ m = 10 * (max 1 (getR s R.CLK_SLEW) : Nat) ∧ l = ((x :: s.clk.history).drop 100).take (100 * max 1 (getR s R.CLK_HOLD_AVG)) ∧ (dpllState s = 4)) ∧
    (∃ (s : State) (source : Fin 8) (lane : Fin 16) (p : Nat × Nat), Up s ∧ p = sourceOf source lane ∧ s.clk.inMs.get 0 (sourceKey p) + 10 < getR s R.CLK_QUAL_TIME) ∧
    (∃ (s : State) (source : Fin 8) (lane : Fin 16) (ffo : Word) (p : Nat × Nat), Up s ∧ p = sourceOf source lane ∧ getR s R.CLK_QUAL_TIME ≤ s.clk.inMs.get 0 (sourceKey p) + 10 ∧ (p.1 = 6 ∧ slaveGood s = true) ∨ (p.1 ≠ 6 ∧ p.1 ≠ 0 ∧ sourceInWindow s p ffo.toInt = true) ∧ (prioSource (rd s (R.CLK_PRIO 7)) = p ∧ prioRank (rd s (R.CLK_PRIO 7)) ≠ 0 ∧ dpllState s = 0 ∧ flag s F.CLK_STATUS_SEL_VALID = false ∧ p.1 ≠ 6)) ∧
    (∃ (s : State) (source : Fin 8) (lane : Fin 16) (ffo : Word) (p : Nat × Nat), Up s ∧ p = sourceOf source lane ∧ getR s R.CLK_QUAL_TIME ≤ s.clk.inMs.get 0 (sourceKey p) + 10 ∧ (p.1 = 6 ∧ slaveGood s = true) ∨ (p.1 ≠ 6 ∧ p.1 ≠ 0 ∧ sourceInWindow s p ffo.toInt = true) ∧ (prioSource (rd s (R.CLK_PRIO 0)) = p ∧ prioRank (rd s (R.CLK_PRIO 0)) ≠ 0)) ∧
    (∃ (s : State) (source : Fin 8) (lane : Fin 16) (ffo : Word) (p : Nat × Nat), Up s ∧ p = sourceOf source lane ∧ getR s R.CLK_QUAL_TIME ≤ s.clk.inMs.get 0 (sourceKey p) + 10 ∧ (p.1 = 6 ∧ slaveGood s = true) ∨ (p.1 ≠ 6 ∧ p.1 ≠ 0 ∧ sourceInWindow s p ffo.toInt = true) ∧ (p.1 = 6 ∧ slaveGood s = true)) ∧
    (∃ (s : State) (source : Fin 8) (lane : Fin 16) (p : Nat × Nat), Up s ∧ p = sourceOf source lane ∧ (dpllState s ≠ 3 ∧ (selected s).isSome = true ∧ ∀ x : Fin 8, prioRank (rd s (R.CLK_PRIO x)) = 0 ∨ prioSource (rd s (R.CLK_PRIO x)) = p)) ∧
    (∃ (s : State) (e : Fin 8), Up s ∧ s.clk.target = some e.val ∧ dpllState s = 3 ∧ (prioEntry s e = rd s (R.CLK_PRIO e) ∧ prioSource (rd s (R.CLK_PRIO e)) ∈ s.clk.qualified)) ∧
    (∃ (s : State), Up s ∧ dpllState s = 1) ∧
    (∃ (s : State), Up s ∧ dpllState s = 4 ∧ flag s F.CLK_STATUS_OOS = false ∧ getR s R.CLK_MILESTONE_LIMIT ≤ getR s R.CLK_MILESTONE + 1) ∧
    (∃ (s : State), Up s ∧ dpllState s = 4 ∧ flag s F.CLK_STATUS_OOS = false ∧ getR s R.CLK_MILESTONE_LIMIT ≤ getR s R.CLK_MILESTONE + 1) :=
  ⟨⟨clock 7 0x10001 2 [reg R.CLK_PHASE_REMAIN 0xFFFFFFFF, reg R.CLK_SLEW 3], 9, -1, 30, 9, [], by unfold Up; decide +kernel⟩,
    ⟨{ clock 7 0x10006 5 [reg R.CLK_HOLD_AVG 0, reg R.CLK_SLEW 0] with clk := { history := List.replicate 101 (-7) } }, 9, 0, 10, 0, [-7, -7], by unfold Up; decide +kernel⟩,
    ⟨clock 7 0x10001 4 [reg R.CLK_PHASE_REMAIN 100, reg R.CLK_SLEW 0], 9, 100, 10, 9, [], by unfold Up; decide +kernel⟩,
    ⟨{ clock 7 0x10003 0 [] with clk := { inMs := [(48, 1989)] } }, 3, 15, (3, 0), by unfold Up; decide +kernel⟩,
    ⟨{ clock 7 0x10003 0 [] with clk := { inMs := [(48, 1990)], ppsGood := [0] } }, 3, 15, 20000000, (3, 0), by unfold Up; decide +kernel⟩,
    ⟨{ clock 0 0xF0F05 0 [] with clk := { inMs := [(95, 5000)] } }, 5, 15, 4, (5, 15), by unfold Up; decide +kernel⟩,
    ⟨{ clock 0 0x10006 0 [(F.PTP_CTRL_EN, 1), (F.PTP_STATUS_PORT_1_STATE, 3)] with clk := { inMs := [(96, 1990)] } }, 6, 0, 0, (6, 0), by unfold Up; decide +kernel⟩,
    ⟨{ inForce (clock 7 0x10003 2 [(F.CLK_STATUS_SEL_VALID, 1), (F.CLK_STATUS_SELECTED, 7)]) with clk := { qualified := [(3, 0)] } }, 3, 0, (3, 0), by unfold Up; decide +kernel⟩,
    ⟨{ clock 7 0x10003 3 [] with clk := { target := some 7, qualified := [(3, 0)], table := [0, 0, 0, 0, 0, 0, 0, 0x10003] } }, 7, by unfold Up; decide +kernel⟩,
    ⟨clock 7 0x10003 1 [], by unfold Up; decide +kernel⟩,
    ⟨clock 7 0x10003 4 [reg R.CLK_MILESTONE 599], by unfold Up; decide +kernel⟩,
    ⟨clock 7 0x10003 4 [reg R.CLK_MILESTONE 700], by unfold Up; decide +kernel⟩⟩

/-- States and operands that meet the hypotheses of `TimeCommandsComplete`. -/
theorem witness_TimeCommandsComplete :
    (∃ (s : State) (time : Nat) (held : Nat), Up s ∧ time < 2 ^ 64 ∧ (max 2 (getF s (F.CLK_PPS_CFG_FILTER 1)) ≤ held ∧ s.clk.ppsEdge.find 1 = some 7 ∧ 7 + getF s (F.CLK_PPS_CFG_MIN_PERIOD 1) * 16000000 ≤ time ∧ selectedSource s = 4 ∧ flag s (F.CLK_PPS_CFG_FALLING 1) = false)) ∧
    (∃ (s : State) (time : Nat) (held : Nat), Up s ∧ time < 2 ^ 64 ∧ (max 2 (getF s (F.CLK_PPS_CFG_FILTER 1)) ≤ held ∧ time < 7 + getF s (F.CLK_PPS_CFG_MIN_PERIOD 1) * 16000000)) ∧
    (∃ (s : State) (falling : Bool) (time : Nat), Up s ∧ time < 2 ^ 64 ∧ (flag s (F.CLK_PPS_CFG_FALLING 0) ≠ falling)) ∧
    (∃ (s : State) (falling : Bool) (time : Nat) (held : Nat), Up s ∧ time < 2 ^ 64 ∧ (flag s (F.CLK_PPS_CFG_FALLING 0) = falling ∧ held < max 2 (getF s (F.CLK_PPS_CFG_FILTER 0)))) ∧
    (∃ (s : State) (m : Master), Sends s m ∧ (dpllState s = 3 ∧ flag s F.CLK_CTRL_STEER_OWNER = false)) ∧
    (∃ (s : State) (m : Master), Sends s m ∧ (flag s F.CLK_CTRL_STEER_OWNER = true ∧ selected s = some 7 ∧ prioEntry s 7 = rd s (R.CLK_PRIO 7) ∧ (prioSource (rd s (R.CLK_PRIO 7))).1 = 6)) ∧
    (∃ (s : State) (m : Master), Sends s m ∧ (flag s F.CLK_CTRL_STEER_OWNER = true)) ∧
    (∃ (s : State) (m : Master), Sends s m ∧ (flag s F.CLK_CTRL_STEER_OWNER = true ∧ dpllState s = 5)) ∧
    (∃ (s : State) (m : Master), Sends s m ∧ (dpllState s ≠ 2 ∧ dpllState s ≠ 5)) ∧
    (∃ (s : State) (m : Master), Sends s m) ∧
    (∃ (s : State), Up s ∧ (flag s F.PTP_CTRL_EN = true)) ∧
    (∃ (s : State), Up s ∧ (flag s F.PTP_CTRL_EN = false ∧ flag s F.CLK_CTRL_SET_NOW = false)) ∧
    (∃ (s : State), Up s ∧ (flag s F.PTP_CTRL_EN = false ∧ flag s F.CLK_CTRL_SET_NOW = true)) ∧
    (∃ (s : State) (time : Nat) (off : Nat), Up s ∧ off = 4 * getF s ⟨R.CLK_PPS_OUT_CFG, 31, 16⟩ ∧ flag s F.CLK_CTRL_PPS_OUT_EN = true ∧ outputsLive s = true ∧ (advanceTo s time).counter.toNat = time ∧ off ≤ 5 * time ∧ (5 * time - off) % 4000000000 < 5) ∧
    (∃ (s : State) (time : Nat), Up s ∧ s.clk.ppsOut = true ∧ (s.clk.ppsRise + pulseWidth s 0 ≤ ((advanceTo s time).counter.toNat : Int))) ∧
    (∃ (s : State) (time : Nat), Up s ∧ s.clk.ppsOut = true ∧ ((advanceTo s time).counter.toNat < s.clk.ppsRise + pulseWidth s 0)) ∧
    (∃ (s : State) (time : Nat), Up s ∧ s.clk.frameOut = true ∧ (s.clk.frameRise + pulseWidth s 1 ≤ ((advanceTo s time).counter.toNat : Int))) ∧
    (∃ (s : State) (time : Nat), Up s ∧ s.clk.frameOut = true ∧ ((advanceTo s time).counter.toNat < s.clk.frameRise + pulseWidth s 1)) :=
  ⟨⟨{ clock 7 0x10004 2 [(F.CLK_STATUS_SEL_VALID, 1), (F.CLK_STATUS_SELECTED, 7), (F.CLK_PPS_CFG_MIN_PERIOD 1, 900), (F.CLK_PPS_CFG_FALLING 1, 0)] with clk := { table := [0, 0, 0, 0, 0, 0, 0, 0x10004], setArmed := true, ppsEdge := [(1, 7)] } }, 14400000007, 99, by unfold Up; decide +kernel⟩,
    ⟨{ clock 7 0x10004 2 [(F.CLK_PPS_CFG_MIN_PERIOD 1, 900), (F.CLK_PPS_CFG_FALLING 1, 0)] with clk := { ppsEdge := [(1, 7)] } }, 14400000006, 99, by unfold Up; decide +kernel⟩,
    ⟨clock 7 0x10003 2 [(F.CLK_PPS_CFG_FALLING 0, 1)], false, 5, by unfold Up; decide +kernel⟩,
    ⟨clock 7 0x10003 2 [(F.CLK_PPS_CFG_FALLING 0, 0), (F.CLK_PPS_CFG_FILTER 0, 0)], false, 5, 1, by unfold Up; decide +kernel⟩,
    ⟨clock 7 0x10006 3 [], .timekeeper, by unfold Sends Up; decide +kernel⟩,
    ⟨inForce (clock 7 0x10006 5 [(F.CLK_CTRL_STEER_OWNER, 1), (F.CLK_STATUS_SEL_VALID, 1), (F.CLK_STATUS_SELECTED, 7)]), .host, by unfold Sends Up; decide +kernel⟩,
    ⟨clock 7 0x10006 5 [(F.CLK_CTRL_STEER_OWNER, 1)], .timekeeper, by unfold Sends Up; decide +kernel⟩,
    ⟨clock 7 0x10006 5 [(F.CLK_CTRL_STEER_OWNER, 1), reg R.CLK_PHASE_REMAIN 0x7FFFFFFF], .host, by unfold Sends Up; decide +kernel⟩,
    ⟨clock 7 0x10006 1 [(F.CLK_CTRL_STEER_OWNER, 1)], .host, by unfold Sends Up; decide +kernel⟩,
    ⟨clock 7 0x10006 1 [], .timekeeper, by unfold Sends Up; decide +kernel⟩,
    ⟨set [(F.PTP_CTRL_EN, 1)], by unfold Up; decide +kernel⟩,
    ⟨set [reg R.CLK_SET_TIME_LO 9], by unfold Up; decide +kernel⟩,
    ⟨set [reg R.CLK_SET_TIME_LO 9, (F.CLK_CTRL_SET_NOW, 1)], by unfold Up; decide +kernel⟩,
    ⟨{ set [(F.CLK_STATUS_TIME_VALID, 1), (F.CLK_CTRL_PPS_OUT_EN, 1), (⟨R.CLK_PPS_OUT_CFG, 31, 16⟩, 5)] with counter := 800000000 }, 800000004, 20, by unfold Up; decide +kernel⟩,
    ⟨{ set [] with clk := { ppsOut := true, ppsRise := -100000000 }, counter := 20 }, 30, by unfold Up; decide +kernel⟩,
    ⟨{ set [(⟨R.CLK_PPS_OUT_CFG, 15, 0⟩, 1)] with clk := { ppsOut := true, ppsRise := 20 }, counter := 20 }, 30, by unfold Up; decide +kernel⟩,
    ⟨{ set [] with clk := { frameOut := true, frameRise := -100000000 }, counter := 20 }, 30, by unfold Up; decide +kernel⟩,
    ⟨{ set [] with clk := { frameOut := true }, counter := 20 }, 100, by unfold Up; decide +kernel⟩⟩

/-- States and operands that meet the hypotheses of `PtpPortCommandsComplete`. -/
theorem witness_PtpPortCommandsComplete :
    (∃ (s : State) (rx : List Int) (tx : List Int), Up s ∧ rx.length = 64 ∧ tx.length = 64) ∧
    (∃ (s : State) (n : Fin 2) (rx : List Int) (tx : List Int), Up s ∧ rx.length = 64 ∧ tx.length = 64 ∧ n.val ∈ s.ptp.up) ∧
    (∃ (s : State) (rx : List Int) (tx : List Int), Up s ∧ (rx.length < 64 ∨ tx.length < 64)) ∧
    (∃ (s : State) (n : Fin 2) (rx : List Int) (tx : List Int), Up s ∧ (rx.length < 64 ∨ tx.length < 64) ∧ n.val ∈ s.ptp.up) ∧
    (∃ (s : State), Up s) ∧
    (∃ (s : State), Up s ∧ (flag s F.PTP_CTRL_EN = false ∧ s.ptp.masters = [])) ∧
    (∃ (s : State), Up s) ∧
    (∃ (s : State) (n : Fin 2) (msg : PtpMsg), Up s ∧ n.val ∈ s.ptp.up ∧ msg.kind = .own ∧ flag s F.PTP_CTRL_EN = true ∧ portState s n ≠ 0 ∧ (msg.version.val = 2 ∧ msg.domain.toNat = getF s F.PTP_CTRL_DOMAIN ∧ bitOf (getF s F.PTP_CTRL_PORT_EN) n = true ∧ s.ptp.masters.get [] (1 - n.val) = [] ∧ portFollows s n = false)) ∧
    (∃ (s : State) (n : Fin 2) (msg : PtpMsg), Up s ∧ n.val ∈ s.ptp.up ∧ msg.kind = .own ∧ flag s F.PTP_CTRL_EN = true ∧ portState s n ≠ 0 ∧ (msg.version.val ≠ 2)) ∧
    (∃ (s : State) (n : Fin 2), Up s ∧ portState s n ≠ 0 ∧ (portFollows s n = true)) ∧
    (∃ (s : State) (n : Fin 2), Up s ∧ portState s n ≠ 0 ∧ (portFollows s n = false)) ∧
    (∃ (s : State) (off : Int), Up s ∧ flag s F.CLK_STATUS_TIME_FAULT = true ∧ s.ptp.offset = some off ∧ (-(2 ^ 31) ≤ toSigned 32 (getR s R.CLK_PHASE_REMAIN) - unitsToPs off ∧ toSigned 32 (getR s R.CLK_PHASE_REMAIN) - unitsToPs off < 2 ^ 31)) :=
  ⟨⟨set [], List.replicate 64 1600000, List.replicate 64 3200000, by unfold Up; decide +kernel⟩,
    ⟨{ set [] with ptp := { up := [1] } }, 1, List.replicate 64 1600000, List.replicate 64 3200000, by unfold Up; decide +kernel⟩,
    ⟨set [], List.replicate 63 1600000, List.replicate 64 3200000, by unfold Up; decide +kernel⟩,
    ⟨{ set [] with ptp := { up := [1], measured := [1] } }, 1, List.replicate 64 1600000, [], by unfold Up; decide +kernel⟩,
    ⟨{ set [] with ptp := { up := [0, 1], measured := [1] } }, by unfold Up; decide +kernel⟩,
    ⟨set [], by unfold Up; decide +kernel⟩,
    ⟨ptpOn 1 2 {}, by unfold Up; decide +kernel⟩,
    ⟨ptpOn 1 1 {}, 1, ptpMsg, by unfold Up; decide +kernel⟩,
    ⟨ptpOn 0 1 {}, 0, { ptpMsg with version := 1 }, by unfold Up; decide +kernel⟩,
    ⟨ptpOn 1 3 { masters := [(1, [⟨⟨1, 2, 3, 4, 5, 6, 7⟩, 7, 1⟩, ⟨⟨2, 2, 3, 4, 5, 6, 7⟩, 8, 1⟩])] }, 1, by unfold Up; decide +kernel⟩,
    ⟨ptpOn 1 1 { masters := [(1, [⟨⟨1, 2, 3, 4, 5, 6, 7⟩, 7, 1⟩])] }, 1, by unfold Up; decide +kernel⟩,
    ⟨{ set [(F.CLK_STATUS_TIME_FAULT, 1)] with ptp := { offset := some (-65536000) } }, -65536000, by unfold Up; decide +kernel⟩⟩

/-- States and operands that meet the hypotheses of `PtpMessagesComplete`. -/
theorem witness_PtpMessagesComplete :
    (∃ (s : State) (n : Fin 2) (msg : PtpMsg), Up s ∧ n.val ∈ s.ptp.up ∧ (n.val ∈ s.ptp.measured ∧ msg.kind = .own ∧ flag s F.PTP_CTRL_EN = true ∧ portState s n ≠ 0 ∧ msg.version.val = 2 ∧ msg.domain.toNat = getF s F.PTP_CTRL_DOMAIN ∧ fromMaster s n msg = true)) ∧
    (∃ (s : State) (n : Fin 2) (msg : PtpMsg) (origin : Option Nat), Up s ∧ n.val ∈ s.ptp.up ∧ (n.val ∈ s.ptp.measured ∧ fromMaster s n msg = true ∧ origin.isSome = true)) ∧
    (∃ (s : State) (n : Fin 2) (msg : PtpMsg), Up s ∧ n.val ∈ s.ptp.up ∧ (msg.kind = .management ∧ ptpListens s n = true)) ∧
    (∃ (s : State) (n : Fin 2) (msg : PtpMsg), Up s ∧ n.val ∈ s.ptp.up ∧ (msg.kind = .reserved 5 ∧ ptpListens s n = true ∧ msg.version.val ≠ 2)) ∧
    (∃ (s : State) (n : Fin 2) (msg : PtpMsg), Up s ∧ n.val ∈ s.ptp.up ∧ (msg.kind = .signaling ∧ ptpListens s n = true ∧ msg.version.val = 2)) ∧
    (∃ (s : State) (n : Fin 2) (msg : PtpMsg), Up s ∧ n.val ∈ s.ptp.up ∧ (n.val ∉ s.ptp.measured ∧ msg.kind = .own ∧ (s.ptp.rxDiffs.get [] n).length < 63)) ∧
    (∃ (s : State) (n : Fin 2) (msg : PtpMsg) (t2 : Int) (corr : Int), Up s ∧ n.val ∈ s.ptp.up ∧ msg.kind = .own ∧ flag s F.PTP_CTRL_EN = true ∧ portState s n ≠ 0 ∧ msg.version.val = 2 ∧ msg.domain.toNat = getF s F.PTP_CTRL_DOMAIN ∧ fromMaster s n msg = true ∧ s.ptp.waiting = some (msg.seq.toNat, t2, corr)) ∧
    (∃ (s : State) (n : Fin 2), Up s ∧ portFollows s n = true ∧ n.val ∈ s.ptp.up ∧ n.val ∈ s.ptp.measured) ∧
    (∃ (s : State) (n : Fin 2) (msg : PtpMsg) (received : Nat) (requester : DWord) (t3 : Int) (sync : PtpSync) (pd : Int) (off : Int), Up s ∧ n.val ∈ s.ptp.up ∧ msg.kind = .own ∧ flag s F.PTP_CTRL_EN = true ∧ portState s n ≠ 0 ∧ msg.version.val = 2 ∧ msg.domain.toNat = getF s F.PTP_CTRL_DOMAIN ∧ fromMaster s n msg = true ∧ requester.toNat = getPair s R.PTP_CLOCK_ID_LO ∧ s.ptp.req = some (msg.seq.toNat, t3) ∧ s.ptp.sync = some sync ∧ pd = ((sync.t2 - sync.t1 - sync.corr) + (received * 65536 - t3 - msg.correction)) / 2 ∧ off = sync.t2 - sync.t1 - pd - sync.corr - toSigned 32 (getR s (R.PTP_PORT_ASYM n)) * 65536 / 1000 ∧ (s.ptp.delays = [] ∧ flag s F.PTP_STATUS_ACQUIRED = false ∧ 16 ≤ s.ptp.syncs ∧ 15 ≤ s.ptp.resps ∧ servoCorrects s = true)) ∧
    (∃ (s : State) (n : Fin 2) (msg : PtpMsg), Up s ∧ n.val ∈ s.ptp.up ∧ msg.kind = .own ∧ (n.val ∈ s.ptp.measured ∧ flag s F.PTP_CTRL_EN = true ∧ portState s n ≠ 0 ∧ msg.version.val ≠ 2)) ∧
    (∃ (s : State) (n : Fin 2) (msg : PtpMsg), Up s ∧ n.val ∈ s.ptp.up ∧ msg.kind = .own ∧ (n.val ∈ s.ptp.measured ∧ tcOn s = true ∧ (1 - n.val) ∈ s.ptp.measured)) ∧
    (∃ (s : State) (n : Fin 2) (msg : PtpMsg), Up s ∧ n.val ∈ s.ptp.up ∧ msg.kind = .own ∧ (n.val ∈ s.ptp.measured ∧ tcOn s = true ∧ (1 - n.val) ∉ s.ptp.measured)) ∧
    (∃ (s : State) (n : Fin 2) (msg : PtpMsg), Up s ∧ n.val ∈ s.ptp.up ∧ msg.kind = .own ∧ (n.val ∉ s.ptp.measured)) :=
  ⟨⟨ptpOn 1 2 {}, 1, ptpMsg, by unfold Up; decide +kernel⟩,
    ⟨ptpOn 0 3 {}, 0, ptpMsg, some 9, by unfold Up; decide +kernel⟩,
    ⟨ptpOn 0 3 {}, 0, { ptpMsg with kind := .management }, by unfold Up; decide +kernel⟩,
    ⟨ptpOn 0 3 {}, 0, { ptpMsg with kind := .reserved 5, version := 1 }, by unfold Up; decide +kernel⟩,
    ⟨ptpOn 0 3 {}, 0, { ptpMsg with kind := .signaling }, by unfold Up; decide +kernel⟩,
    ⟨{ set [] with ptp := { up := [1] } }, 1, ptpMsg, by unfold Up; decide +kernel⟩,
    ⟨ptpOn 1 2 { waiting := some (5, 100, 7) }, 1, ptpMsg, 100, 7, by unfold Up; decide +kernel⟩,
    ⟨ptpOn 1 3 { reqSeq := 65535 }, 1, by unfold Up; decide +kernel⟩,
    ⟨ptpOn 1 2 { req := some (5, 100), sync := some ⟨1, 655360, 7⟩, syncs := 16, resps := 15 }, 1, ptpMsg, 20, BitVec.ofNat 64 (getPair State.reset R.PTP_CLOCK_ID_LO), 100, ⟨1, 655360, 7⟩, 950218, -294866, by unfold Up; decide +kernel⟩,
    ⟨setF (ptpOn 1 2 {}) F.PTP_CTRL_TC_EN 1, 1, { ptpMsg with version := 1 }, by unfold Up; decide +kernel⟩,
    ⟨setF (ptpOn 1 2 {}) F.PTP_CTRL_TC_EN 1, 1, ptpMsg, by unfold Up; decide +kernel⟩,
    ⟨{ setF (ptpOn 1 2 {}) F.PTP_CTRL_TC_EN 1 with ptp := { up := [0, 1], measured := [1] } }, 1, ptpMsg, by unfold Up; decide +kernel⟩,
    ⟨{ set [] with ptp := { up := [1] } }, 1, ptpMsg, by unfold Up; decide +kernel⟩⟩

/-- States and operands that meet the hypotheses of `TwinCommandsComplete`. -/
theorem witness_TwinCommandsComplete :
    (∃ (s : State) (lane : Fin 56) (f : RxFrame), Up s ∧ TwinGood s lane f 1 ∧ twinState s = 2 ∧ frField f 8 8 = s.twin.snapOffset) ∧
    (∃ (s : State) (lane : Fin 56) (f : RxFrame), Up s ∧ TwinGood s lane f 1 ∧ twinState s = 2 ∧ frField f 8 8 = s.twin.snapOffset) ∧
    (∃ (s : State) (lane : Fin 56) (f : RxFrame), Up s ∧ TwinGood s lane f 4 ∧ 2 ≤ twinState s ∧ twinState s ≤ 4 ∧ s.twin.joined = true ∧ (frField f 8 8 = s.twin.mirrorCount)) ∧
    (∃ (s : State) (lane : Fin 56) (f : RxFrame), Up s ∧ TwinGood s lane f 4 ∧ 2 ≤ twinState s ∧ twinState s ≤ 4 ∧ s.twin.joined = true ∧ (frField f 8 8 ≠ s.twin.mirrorCount ∧ twinState s ≠ 2)) ∧
    (∃ (s : State) (lane : Fin 56) (f : RxFrame) (a : Digest) (d : Digest) (c : Nat), Up s ∧ TwinGood s lane f 2 ∧ twinRole s = 2 ∧ spanLen s ≠ 0 ∧ (twinState s = 3 ∨ twinState s = 4) ∧ (d = { span := frField f 8 8 / spanLen s, fields := (List.range 5).map fun i => leAt (frData f) (4 * i) 4, visCmp := bitOf (leAt (frData f) 20 1) 0 }) ∧ s.twin.own = [a] ∧ s.twin.peer = [] ∧ a.span = d.span ∧ s.twin.checkedFrame = some c ∧ c ≤ a.span * spanLen s ∧ (digestDiffers a d = 0)) ∧
    (∃ (s : State) (lane : Fin 56) (f : RxFrame) (a : Digest) (d : Digest) (c : Nat), Up s ∧ TwinGood s lane f 2 ∧ twinRole s = 2 ∧ spanLen s ≠ 0 ∧ (twinState s = 3 ∨ twinState s = 4) ∧ (d = { span := frField f 8 8 / spanLen s, fields := (List.range 5).map fun i => leAt (frData f) (4 * i) 4, visCmp := bitOf (leAt (frData f) 20 1) 0 }) ∧ s.twin.own = [a] ∧ s.twin.peer = [] ∧ a.span = d.span ∧ s.twin.checkedFrame = some c ∧ c ≤ a.span * spanLen s ∧ (digestDiffers a d ≠ 0)) ∧
    (∃ (s : State) (lane : Fin 56) (f : RxFrame), Up s ∧ TwinGood s lane f 3 ∧ twinRole s = 1 ∧ twinState s = 6 ∧ leAt (frData f) 0 1 = 4) ∧
    (∃ (s : State) (lane : Fin 56) (f : RxFrame), Up s ∧ TwinGood s lane f 3 ∧ (twinState s = 2 ∨ twinState s = 3) ∧ leAt (frData f) 4 8 ≠ getPair s R.STR_IMAGE_ID_LO) ∧
    (∃ (s : State) (lane : Fin 56) (f : RxFrame), Up s ∧ TwinGood s lane f 3 ∧ (twinState s = 2 ∨ twinState s = 3) ∧ leAt (frData f) 4 8 ≠ getPair s R.STR_IMAGE_ID_LO) ∧
    (∃ (s : State), Up s ∧ s.twin.joined = true ∧ twinState s = 2 ∧ getR s R.TWN_SNAP_TOTAL ≠ 0 ∧ s.twin.snapOffset = getR s R.TWN_SNAP_TOTAL) ∧
    (∃ (s : State), Up s ∧ twinRole s ≠ 3 ∧ max 1 (getF s F.TWN_TIMEOUT_VALUE) ≤ s.twin.silent ∧ flag s F.TWN_STATUS_PEER_ALIVE = true ∧ (twinState s = 4 ∨ twinState s = 5) ∧ (twinState s = 4)) ∧
    (∃ (s : State), Up s ∧ twinRole s ≠ 3 ∧ max 1 (getF s F.TWN_TIMEOUT_VALUE) ≤ s.twin.silent ∧ flag s F.TWN_STATUS_PEER_ALIVE = true ∧ (twinState s = 4 ∨ twinState s = 5) ∧ (twinState s = 5)) ∧
    (∃ (s : State), Up s ∧ twinRole s ≠ 3 ∧ max 1 (getF s F.TWN_TIMEOUT_VALUE) ≤ s.twin.silent ∧ (twinState s = 2 ∨ twinState s = 3) ∧ (twinState s = 2)) ∧
    (∃ (s : State), Up s ∧ twinRole s ≠ 3 ∧ max 1 (getF s F.TWN_TIMEOUT_VALUE) ≤ s.twin.silent ∧ (twinState s = 2 ∨ twinState s = 3) ∧ (twinState s = 3)) ∧
    (∃ (s : State) (c : Nat), Up s ∧ s.twin.unsyncDue = some c ∧ (twinState s = 3 ∨ twinState s = 4)) ∧
    (∃ (s : State) (c : Nat), Up s ∧ s.twin.unsyncDue = some c ∧ (twinState s = 3 ∨ twinState s = 4)) :=
  ⟨⟨twinChip 2 2 { snapOffset := 8 }, 49, twinFrame 1 8 [1, 2, 3, 4], by unfold Up TwinGood; decide +kernel⟩,
    ⟨twinChip 2 2 { snapOffset := 8 }, 49, twinFrame 1 8 [], by unfold Up TwinGood; decide +kernel⟩,
    ⟨twinChip 2 2 { mirrorCount := 3, joined := true }, 49, twinFrame 4 3 [], by unfold Up TwinGood; decide +kernel⟩,
    ⟨twinChip 4 2 { mirrorCount := 3, joined := true }, 49, twinFrame 4 4 [], by unfold Up TwinGood; decide +kernel⟩,
    ⟨twinChip 3 2 { own := [digest1], checkedFrame := some 32 }, 49, twinFrame 2 32 digestBytes, digest1, digest1, 32, by unfold Up TwinGood; decide +kernel⟩,
    ⟨twinChip 4 2 { own := [⟨1, [1, 2, 3, 4, 6], true⟩], checkedFrame := some 0 }, 49, twinFrame 2 32 digestBytes, ⟨1, [1, 2, 3, 4, 6], true⟩, digest1, 0, by unfold Up TwinGood; decide +kernel⟩,
    ⟨twinChip 6 1 {}, 49, twinFrame 3 0 ([4, 2, 0, 0] ++ leBytes 8 0), by unfold Up TwinGood; decide +kernel⟩,
    ⟨twinChip 3 2 {}, 49, twinFrame 3 0 ([5, 2, 0, 0] ++ leBytes 8 1), by unfold Up TwinGood; decide +kernel⟩,
    ⟨twinChip 2 2 {}, 49, twinFrame 3 0 ([5, 1, 0, 0] ++ leBytes 8 1), by unfold Up TwinGood; decide +kernel⟩,
    ⟨setR (twinChip 2 2 { joined := true, snapOffset := 4 }) R.TWN_SNAP_TOTAL 4, by unfold Up; decide +kernel⟩,
    ⟨twinChip 4 2 { silent := 9 }, by unfold Up; decide +kernel⟩,
    ⟨twinChip 5 1 { silent := 9 }, by unfold Up; decide +kernel⟩,
    ⟨twinChip 2 2 { silent := 9, joined := true }, by unfold Up; decide +kernel⟩,
    ⟨twinChip 3 2 { silent := 9, joined := true }, by unfold Up; decide +kernel⟩,
    ⟨twinChip 3 2 { unsyncDue := some 0 }, 0, by unfold Up; decide +kernel⟩,
    ⟨twinChip 4 2 { unsyncDue := some 7 }, 7, by unfold Up; decide +kernel⟩⟩

/-- States and operands that meet the hypotheses of `BerylIntegerCompletes`. -/
theorem witness_BerylIntegerCompletes :
    (∃ (s : State) (k : Fin 4) (rd : Fin 16) (rs : Fin 16) (rt : Fin 16) (A : Nat) (B : Nat) (C : Nat), Up s ∧ A = (brlCore s k).slot rs ∧ B = (brlCore s k).slot rt ∧ C = ofBool (bitOf (brlCore s k).sr 1) ∧ Landed s k rd ∧ Landed s k 52 ∧ Landed s k 72 ∧ CoreRuns s k (.alu .add rd rs rt 0)) ∧
    (∃ (s : State) (k : Fin 4) (rd : Fin 16) (rs : Fin 16) (rt : Fin 16) (A : Nat) (B : Nat) (C : Nat), Up s ∧ A = (brlCore s k).slot rs ∧ B = (brlCore s k).slot rt ∧ C = ofBool (bitOf (brlCore s k).sr 1) ∧ Landed s k rd ∧ Landed s k 52 ∧ Landed s k 72 ∧ CoreRuns s k (.alu .add rd rs rt 0)) ∧
    (∃ (s : State) (k : Fin 4) (rd : Fin 16) (rs : Fin 16) (rt : Fin 16) (A : Nat) (B : Nat) (C : Nat), Up s ∧ A = (brlCore s k).slot rs ∧ B = (brlCore s k).slot rt ∧ C = ofBool (bitOf (brlCore s k).sr 1) ∧ Landed s k rd ∧ Landed s k 52 ∧ Landed s k 72 ∧ CoreRuns s k (.alu .addc rd rs rt 0)) ∧
    (∃ (s : State) (k : Fin 4) (rd : Fin 16) (rs : Fin 16) (rt : Fin 16) (A : Nat) (B : Nat) (C : Nat), Up s ∧ A = (brlCore s k).slot rs ∧ B = (brlCore s k).slot rt ∧ C = ofBool (bitOf (brlCore s k).sr 1) ∧ Landed s k rd ∧ Landed s k 52 ∧ Landed s k 72 ∧ CoreRuns s k (.alu .sub rd rs rt 0)) ∧
    (∃ (s : State) (k : Fin 4) (rd : Fin 16) (rs : Fin 16) (rt : Fin 16) (A : Nat) (B : Nat) (C : Nat), Up s ∧ A = (brlCore s k).slot rs ∧ B = (brlCore s k).slot rt ∧ C = ofBool (bitOf (brlCore s k).sr 1) ∧ Landed s k rd ∧ Landed s k 52 ∧ Landed s k 72 ∧ CoreRuns s k (.alu .sub rd rs rt 0)) ∧
    (∃ (s : State) (k : Fin 4) (rd : Fin 16) (rs : Fin 16) (rt : Fin 16) (A : Nat) (B : Nat) (C : Nat), Up s ∧ A = (brlCore s k).slot rs ∧ B = (brlCore s k).slot rt ∧ C = ofBool (bitOf (brlCore s k).sr 1) ∧ Landed s k rd ∧ Landed s k 52 ∧ Landed s k 72 ∧ CoreRuns s k (.alu .subc rd rs rt 0) ∧ C = 1) ∧
    (∃ (s : State) (k : Fin 4) (rd : Fin 16) (rs : Fin 16) (rt : Fin 16) (A : Nat) (B : Nat) (C : Nat), Up s ∧ A = (brlCore s k).slot rs ∧ B = (brlCore s k).slot rt ∧ C = ofBool (bitOf (brlCore s k).sr 1) ∧ Landed s k rd ∧ Landed s k 52 ∧ Landed s k 72 ∧ CoreRuns s k (.alu .subc rd rs rt 0) ∧ C = 0) ∧
    (∃ (s : State) (k : Fin 4) (rd : Fin 16) (rs : Fin 16) (rt : Fin 16) (A : Nat) (B : Nat) (C : Nat), Up s ∧ A = (brlCore s k).slot rs ∧ B = (brlCore s k).slot rt ∧ C = ofBool (bitOf (brlCore s k).sr 1) ∧ Landed s k rd ∧ Landed s k 52 ∧ Landed s k 72 ∧ CoreRuns s k (.alu .cmp 0 rs rt 0)) ∧
    (∃ (s : State) (k : Fin 4) (rd : Fin 16) (rs : Fin 16) (rt : Fin 16) (A : Nat) (B : Nat), Up s ∧ A = (brlCore s k).slot rs ∧ B = (brlCore s k).slot rt ∧ Landed s k rd ∧ Landed s k 52 ∧ Landed s k 72 ∧ CoreRuns s k (.alu .and rd rs rt 0)) ∧
    (∃ (s : State) (k : Fin 4) (rd : Fin 16) (rs : Fin 16) (rt : Fin 16) (A : Nat) (B : Nat), Up s ∧ A = (brlCore s k).slot rs ∧ B = (brlCore s k).slot rt ∧ Landed s k rd ∧ Landed s k 52 ∧ Landed s k 72 ∧ CoreRuns s k (.alu .or rd rs rt 0)) ∧
    (∃ (s : State) (k : Fin 4) (rd : Fin 16) (rs : Fin 16) (rt : Fin 16) (A : Nat) (B : Nat), Up s ∧ A = (brlCore s k).slot rs ∧ B = (brlCore s k).slot rt ∧ Landed s k rd ∧ Landed s k 52 ∧ Landed s k 72 ∧ CoreRuns s k (.alu .xor rd rs rt 0)) ∧
    (∃ (s : State) (k : Fin 4) (rd : Fin 16) (rs : Fin 16) (rt : Fin 16) (A : Nat) (B : Nat), Up s ∧ A = (brlCore s k).slot rs ∧ B = (brlCore s k).slot rt ∧ Landed s k rd ∧ Landed s k 52 ∧ Landed s k 72 ∧ CoreRuns s k (.alu .not rd rs 0 0)) ∧
    (∃ (s : State) (k : Fin 4) (rd : Fin 16) (rs : Fin 16) (rt : Fin 16) (A : Nat) (B : Nat), Up s ∧ A = (brlCore s k).slot rs ∧ B = (brlCore s k).slot rt ∧ Landed s k rd ∧ Landed s k 52 ∧ Landed s k 72 ∧ CoreRuns s k (.alu .abs rd rs 0 0)) ∧
    (∃ (s : State) (k : Fin 4) (rd : Fin 16) (rs : Fin 16) (rt : Fin 16) (A : Nat) (B : Nat), Up s ∧ A = (brlCore s k).slot rs ∧ B = (brlCore s k).slot rt ∧ Landed s k rd ∧ Landed s k 52 ∧ Landed s k 72 ∧ CoreRuns s k (.alu .abs rd rs 0 0)) ∧
    (∃ (s : State) (k : Fin 4) (rd : Fin 16) (rs : Fin 16) (rt : Fin 16) (A : Nat) (B : Nat), Up s ∧ A = (brlCore s k).slot rs ∧ B = (brlCore s k).slot rt ∧ Landed s k rd ∧ Landed s k 52 ∧ Landed s k 72 ∧ CoreRuns s k (.alu .neg rd rs 0 0)) ∧
    (∃ (s : State) (k : Fin 4) (rd : Fin 16) (rs : Fin 16) (rt : Fin 16) (A : Nat) (B : Nat), Up s ∧ A = (brlCore s k).slot rs ∧ B = (brlCore s k).slot rt ∧ Landed s k rd ∧ Landed s k 52 ∧ Landed s k 72 ∧ CoreRuns s k (.alu .min rd rs rt 0)) ∧
    (∃ (s : State) (k : Fin 4) (rd : Fin 16) (rs : Fin 16) (rt : Fin 16) (A : Nat) (B : Nat), Up s ∧ A = (brlCore s k).slot rs ∧ B = (brlCore s k).slot rt ∧ Landed s k rd ∧ Landed s k 52 ∧ Landed s k 72 ∧ CoreRuns s k (.alu .max rd rs rt 0)) ∧
    (∃ (s : State) (k : Fin 4) (rd : Fin 16) (rs : Fin 16) (rt : Fin 16) (A : Nat) (B : Nat), Up s ∧ A = (brlCore s k).slot rs ∧ B = (brlCore s k).slot rt ∧ Landed s k rd ∧ Landed s k 52 ∧ Landed s k 72 ∧ CoreRuns s k (.alu .mov rd rs 0 0)) :=
  ⟨⟨core 0 [(1, 0xFFFFFFFF), (2, 1)], 0, 3, 1, 2, 0xFFFFFFFF, 1, 0, by unfold Up CoreRuns Landed; decide +kernel⟩,
    ⟨core 0 [(1, 0x7FFFFFFF)], 0, 1, 1, 1, 0x7FFFFFFF, 0x7FFFFFFF, 0, by unfold Up CoreRuns Landed; decide +kernel⟩,
    ⟨core 3 [(1, 0x7FFFFFFF), (2, 0xFFFFFFFF), (52, 2)], 3, 3, 1, 2, 0x7FFFFFFF, 0xFFFFFFFF, 1, by unfold Up CoreRuns Landed; decide +kernel⟩,
    ⟨core 0 [(1, 5), (2, 5)], 0, 3, 1, 2, 5, 5, 0, by unfold Up CoreRuns Landed; decide +kernel⟩,
    ⟨core 0 [(2, 0x80000000)], 0, 3, 1, 2, 0, 0x80000000, 0, by unfold Up CoreRuns Landed; decide +kernel⟩,
    ⟨core 0 [(1, 5), (2, 5), (52, 2)], 0, 3, 1, 2, 5, 5, 1, by unfold Up CoreRuns Landed; decide +kernel⟩,
    ⟨core 0 [(1, 5), (2, 5)], 0, 3, 1, 2, 5, 5, 0, by unfold Up CoreRuns Landed; decide +kernel⟩,
    ⟨core 0 [(1, 0x80000000), (2, 1)], 0, 0, 1, 2, 0x80000000, 1, 0, by unfold Up CoreRuns Landed; decide +kernel⟩,
    ⟨core 0 [(1, 0xF0000000), (2, 0x80000001)], 0, 3, 1, 2, 0xF0000000, 0x80000001, by unfold Up CoreRuns Landed; decide +kernel⟩,
    ⟨core 0 [(1, 0xF0000000), (2, 0x80000001)], 0, 3, 1, 2, 0xF0000000, 0x80000001, by unfold Up CoreRuns Landed; decide +kernel⟩,
    ⟨core 0 [(1, 0xF0000000)], 0, 3, 1, 1, 0xF0000000, 0xF0000000, by unfold Up CoreRuns Landed; decide +kernel⟩,
    ⟨core 0 [(1, 0xFFFFFFFF)], 0, 3, 1, 0, 0xFFFFFFFF, 0, by unfold Up CoreRuns Landed; decide +kernel⟩,
    ⟨core 0 [(1, 0x80000000)], 0, 3, 1, 0, 0x80000000, 0, by unfold Up CoreRuns Landed; decide +kernel⟩,
    ⟨core 0 [(1, 0xFFFFFFFE)], 0, 3, 1, 0, 0xFFFFFFFE, 0, by unfold Up CoreRuns Landed; decide +kernel⟩,
    ⟨core 0 [(1, 0x80000000)], 0, 3, 1, 0, 0x80000000, 0, by unfold Up CoreRuns Landed; decide +kernel⟩,
    ⟨core 0 [(1, 0x80000000), (2, 1)], 0, 3, 1, 2, 0x80000000, 1, by unfold Up CoreRuns Landed; decide +kernel⟩,
    ⟨core 0 [(1, 0x80000000), (2, 1)], 0, 15, 1, 2, 0x80000000, 1, by unfold Up CoreRuns Landed; decide +kernel⟩,
    ⟨core 0 [(1, 0x80000000)], 0, 15, 1, 0, 0x80000000, 0, by unfold Up CoreRuns Landed; decide +kernel⟩⟩

/-- States and operands that meet the hypotheses of `BerylShiftAndComplexCompletes`. -/
theorem witness_BerylShiftAndComplexCompletes :
    (∃ (s : State) (k : Fin 4) (rd : Fin 16) (rs : Fin 16) (n : Fin 32) (A : Nat), Up s ∧ A = (brlCore s k).slot rs ∧ Landed s k rd ∧ Landed s k 52 ∧ Landed s k 72 ∧ CoreRuns s k (.alu .shl rd rs 0 n)) ∧
    (∃ (s : State) (k : Fin 4) (rd : Fin 16) (rs : Fin 16) (n : Fin 32) (A : Nat), Up s ∧ A = (brlCore s k).slot rs ∧ Landed s k rd ∧ Landed s k 52 ∧ Landed s k 72 ∧ CoreRuns s k (.alu .shr rd rs 0 n)) ∧
    (∃ (s : State) (k : Fin 4) (rd : Fin 16) (rs : Fin 16) (n : Fin 32) (A : Nat), Up s ∧ A = (brlCore s k).slot rs ∧ Landed s k rd ∧ Landed s k 52 ∧ Landed s k 72 ∧ CoreRuns s k (.alu .asr rd rs 0 n)) ∧
    (∃ (s : State) (k : Fin 4) (rd : Fin 16) (rs : Fin 16) (n : Fin 32) (A : Nat), Up s ∧ A = (brlCore s k).slot rs ∧ Landed s k rd ∧ Landed s k 52 ∧ Landed s k 72 ∧ CoreRuns s k (.alu .asrr rd rs 0 n)) ∧
    (∃ (s : State) (k : Fin 4) (rd : Fin 16) (rs : Fin 16) (n : Fin 32) (A : Nat), Up s ∧ A = (brlCore s k).slot rs ∧ Landed s k rd ∧ Landed s k 52 ∧ Landed s k 72 ∧ CoreRuns s k (.alu .asrr rd rs 0 n)) ∧
    (∃ (s : State) (k : Fin 4) (rd : Fin 16) (rs : Fin 16) (rt : Fin 16) (A : Nat) (B : Nat), Up s ∧ A = (brlCore s k).slot rs ∧ B = (brlCore s k).slot rt ∧ Landed s k rd ∧ Landed s k 52 ∧ Landed s k 72 ∧ CoreRuns s k (.alu .shlv rd rs rt 0)) ∧
    (∃ (s : State) (k : Fin 4) (rd : Fin 16) (rs : Fin 16) (rt : Fin 16) (A : Nat) (B : Nat), Up s ∧ A = (brlCore s k).slot rs ∧ B = (brlCore s k).slot rt ∧ Landed s k rd ∧ Landed s k 52 ∧ Landed s k 72 ∧ CoreRuns s k (.alu .asrv rd rs rt 0)) ∧
    (∃ (s : State) (k : Fin 4) (rd : Fin 16) (rs : Fin 16) (rt : Fin 16) (A : Nat) (B : Nat), Up s ∧ A = (brlCore s k).slot rs ∧ B = (brlCore s k).slot rt ∧ Landed s k rd ∧ Landed s k 52 ∧ Landed s k 72 ∧ CoreRuns s k (.alu .cadd rd rs rt 0)) ∧
    (∃ (s : State) (k : Fin 4) (rd : Fin 16) (rs : Fin 16) (rt : Fin 16) (A : Nat) (B : Nat), Up s ∧ A = (brlCore s k).slot rs ∧ B = (brlCore s k).slot rt ∧ Landed s k rd ∧ Landed s k 52 ∧ Landed s k 72 ∧ CoreRuns s k (.alu .csub rd rs rt 0)) ∧
    (∃ (s : State) (k : Fin 4) (rd : Fin 16) (rs : Fin 16) (rt : Fin 16) (A : Nat) (B : Nat), Up s ∧ A = (brlCore s k).slot rs ∧ B = (brlCore s k).slot rt ∧ Landed s k rd ∧ Landed s k 52 ∧ Landed s k 72 ∧ CoreRuns s k (.alu .conj rd rs 0 0)) ∧
    (∃ (s : State) (k : Fin 4) (rd : Fin 16) (rs : Fin 16) (rt : Fin 16) (A : Nat) (B : Nat), Up s ∧ A = (brlCore s k).slot rs ∧ B = (brlCore s k).slot rt ∧ Landed s k rd ∧ Landed s k 52 ∧ Landed s k 72 ∧ CoreRuns s k (.alu .mpy rd rs rt 0)) ∧
    (∃ (s : State) (k : Fin 4) (rd : Fin 16) (rs : Fin 16) (rt : Fin 16) (A : Nat) (B : Nat), Up s ∧ A = (brlCore s k).slot rs ∧ B = (brlCore s k).slot rt ∧ Landed s k rd ∧ Landed s k 52 ∧ Landed s k 72 ∧ CoreRuns s k (.alu .mpyh rd rs rt 0)) ∧
    (∃ (s : State) (k : Fin 4) (rd : Fin 16) (rs : Fin 16) (rt : Fin 16) (A : Nat) (B : Nat), Up s ∧ A = (brlCore s k).slot rs ∧ B = (brlCore s k).slot rt ∧ Landed s k rd ∧ Landed s k 52 ∧ Landed s k 72 ∧ CoreRuns s k (.alu .cmpy rd rs rt 0)) :=
  ⟨⟨core 0 [(1, 0x80000001)], 0, 3, 1, 31, 0x80000001, by unfold Up CoreRuns Landed; decide +kernel⟩,
    ⟨core 0 [(1, 0x80000001)], 0, 3, 1, 31, 0x80000001, by unfold Up CoreRuns Landed; decide +kernel⟩,
    ⟨core 0 [(1, 0x80000001)], 0, 3, 1, 31, 0x80000001, by unfold Up CoreRuns Landed; decide +kernel⟩,
    ⟨core 0 [(1, 0xFFFFFFFE)], 0, 3, 1, 2, 0xFFFFFFFE, by unfold Up CoreRuns Landed; decide +kernel⟩,
    ⟨core 0 [(1, 3)], 0, 3, 1, 0, 3, by unfold Up CoreRuns Landed; decide +kernel⟩,
    ⟨core 0 [(1, 3), (2, 33)], 0, 3, 1, 2, 3, 33, by unfold Up CoreRuns Landed; decide +kernel⟩,
    ⟨core 0 [(1, 0x80000000), (2, 31)], 0, 3, 1, 2, 0x80000000, 31, by unfold Up CoreRuns Landed; decide +kernel⟩,
    ⟨core 0 [(1, 0x80007FFF), (2, 0x80000001)], 0, 3, 1, 2, 0x80007FFF, 0x80000001, by unfold Up CoreRuns Landed; decide +kernel⟩,
    ⟨core 0 [(1, 0x80007FFF), (2, 0x00018000)], 0, 3, 1, 2, 0x80007FFF, 0x00018000, by unfold Up CoreRuns Landed; decide +kernel⟩,
    ⟨core 0 [(1, 0x80008000)], 0, 3, 1, 0, 0x80008000, 0, by unfold Up CoreRuns Landed; decide +kernel⟩,
    ⟨core 0 [(1, 0x8000), (2, 0x8000)], 0, 3, 1, 2, 0x8000, 0x8000, by unfold Up CoreRuns Landed; decide +kernel⟩,
    ⟨core 0 [(1, 0x80000000), (2, 0x80000000)], 0, 3, 1, 2, 0x80000000, 0x80000000, by unfold Up CoreRuns Landed; decide +kernel⟩,
    ⟨core 0 [(1, 0x80008000), (2, 0x80007FFF)], 0, 3, 1, 2, 0x80008000, 0x80007FFF, by unfold Up CoreRuns Landed; decide +kernel⟩⟩

/-- States and operands that meet the hypotheses of `BerylMacCompletes`. -/
theorem witness_BerylMacCompletes :
    (∃ (s : State) (k : Fin 4) (acc : Fin 4) (rs : Fin 16) (rt : Fin 16) (A : Nat) (B : Nat), Up s ∧ A = (brlCore s k).slot rs ∧ B = (brlCore s k).slot rt ∧ Landed s k (64 + acc) ∧ Landed s k (68 + acc) ∧ Landed s k 52 ∧ CoreRuns s k (.pm (some .mac) acc rs rt ⟨.none, .none⟩)) ∧
    (∃ (s : State) (k : Fin 4) (acc : Fin 4) (rs : Fin 16) (rt : Fin 16) (A : Nat) (B : Nat), Up s ∧ A = (brlCore s k).slot rs ∧ B = (brlCore s k).slot rt ∧ Landed s k (64 + acc) ∧ Landed s k (68 + acc) ∧ Landed s k 52 ∧ CoreRuns s k (.pm (some .mac) acc rs rt ⟨.none, .none⟩)) ∧
    (∃ (s : State) (k : Fin 4) (acc : Fin 4) (rs : Fin 16) (rt : Fin 16) (A : Nat) (B : Nat), Up s ∧ A = (brlCore s k).slot rs ∧ B = (brlCore s k).slot rt ∧ Landed s k (64 + acc) ∧ Landed s k (68 + acc) ∧ Landed s k 52 ∧ CoreRuns s k (.pm (some .msu) acc rs rt ⟨.none, .none⟩)) ∧
    (∃ (s : State) (k : Fin 4) (p : Fin 2) (rs : Fin 16) (rt : Fin 16) (mv : BrlMoves) (A : Nat) (B : Nat) (e : Nat) (o : Nat), Up s ∧ A = (brlCore s k).slot rs ∧ B = (brlCore s k).slot rt ∧ e = 64 + 2 * p.val ∧ o = 65 + 2 * p.val ∧ Landed s k e ∧ Landed s k o ∧ Landed s k (e + 4) ∧ Landed s k (o + 4) ∧ Landed s k 52 ∧ CoreRuns s k (.pm (some .mac2) (2 * p.val) rs rt mv)) ∧
    (∃ (s : State) (k : Fin 4) (p : Fin 2) (rs : Fin 16) (rt : Fin 16) (mv : BrlMoves) (A : Nat) (B : Nat) (e : Nat) (o : Nat), Up s ∧ A = (brlCore s k).slot rs ∧ B = (brlCore s k).slot rt ∧ e = 64 + 2 * p.val ∧ o = 65 + 2 * p.val ∧ Landed s k e ∧ Landed s k o ∧ Landed s k (e + 4) ∧ Landed s k (o + 4) ∧ Landed s k 52 ∧ CoreRuns s k (.pm (some .mac2) (2 * p.val) rs rt mv)) ∧
    (∃ (s : State) (k : Fin 4) (p : Fin 2) (rs : Fin 16) (rt : Fin 16) (mv : BrlMoves) (A : Nat) (B : Nat) (e : Nat) (o : Nat), Up s ∧ A = (brlCore s k).slot rs ∧ B = (brlCore s k).slot rt ∧ e = 64 + 2 * p.val ∧ o = 65 + 2 * p.val ∧ Landed s k e ∧ Landed s k o ∧ Landed s k (e + 4) ∧ Landed s k (o + 4) ∧ Landed s k 52 ∧ CoreRuns s k (.pm (some .msu2) (2 * p.val) rs rt mv)) ∧
    (∃ (s : State) (k : Fin 4) (p : Fin 2) (rs : Fin 16) (rt : Fin 16) (mv : BrlMoves) (A : Nat) (B : Nat) (e : Nat) (o : Nat), Up s ∧ A = (brlCore s k).slot rs ∧ B = (brlCore s k).slot rt ∧ e = 64 + 2 * p.val ∧ o = 65 + 2 * p.val ∧ Landed s k e ∧ Landed s k o ∧ Landed s k (e + 4) ∧ Landed s k (o + 4) ∧ Landed s k 52 ∧ CoreRuns s k (.pm (some .cmac) (2 * p.val) rs rt mv)) ∧
    (∃ (s : State) (k : Fin 4) (p : Fin 2) (rs : Fin 16) (rt : Fin 16) (mv : BrlMoves) (A : Nat) (B : Nat) (e : Nat) (o : Nat), Up s ∧ A = (brlCore s k).slot rs ∧ B = (brlCore s k).slot rt ∧ e = 64 + 2 * p.val ∧ o = 65 + 2 * p.val ∧ Landed s k e ∧ Landed s k o ∧ Landed s k (e + 4) ∧ Landed s k (o + 4) ∧ Landed s k 52 ∧ CoreRuns s k (.pm (some .cmsu) (2 * p.val) rs rt mv)) ∧
    (∃ (s : State) (k : Fin 4) (p : Fin 2) (rs : Fin 16) (rt : Fin 16) (mv : BrlMoves) (A : Nat) (B : Nat) (e : Nat) (o : Nat), Up s ∧ A = (brlCore s k).slot rs ∧ B = (brlCore s k).slot rt ∧ e = 64 + 2 * p.val ∧ o = 65 + 2 * p.val ∧ Landed s k e ∧ Landed s k o ∧ Landed s k (e + 4) ∧ Landed s k (o + 4) ∧ Landed s k 52 ∧ CoreRuns s k (.pm (some .cmacj) (2 * p.val) rs rt mv)) ∧
    (∃ (s : State) (k : Fin 4) (p : Fin 2) (rs : Fin 16) (rt : Fin 16) (mv : BrlMoves) (A : Nat) (B : Nat) (e : Nat) (o : Nat), Up s ∧ A = (brlCore s k).slot rs ∧ B = (brlCore s k).slot rt ∧ e = 64 + 2 * p.val ∧ o = 65 + 2 * p.val ∧ Landed s k e ∧ Landed s k o ∧ Landed s k (e + 4) ∧ Landed s k (o + 4) ∧ Landed s k 52 ∧ CoreRuns s k (.pm (some .cmacz) (2 * p.val) rs rt mv)) ∧
    (∃ (s : State) (k : Fin 4) (p : Fin 4) (md : Bool) (r : Fin 8) (q : Nat), Up s ∧ q < 0x10000 ∧ q = (brlCore s k).slot (32 + p) ∧ Landed s k r ∧ Landed s k (32 + p) ∧ CoreRuns s k (.pm none 0 0 0 ⟨.load p md r, .none⟩)) ∧
    (∃ (s : State) (k : Fin 4) (p : Fin 4) (md : Bool) (r : Fin 8) (q : Nat), Up s ∧ q < 0x10000 ∧ q = (brlCore s k).slot (36 + p) ∧ CoreRuns s k (.pm none 0 0 0 ⟨.none, .store p md r⟩)) ∧
    (∃ (s : State) (k : Fin 4) (acc : Fin 4) (rd : Fin 16) (sc : Nat), Up s ∧ sc = bitsOf (brlCore s k).sr 20 16 ∧ Landed s k rd ∧ Landed s k 52 ∧ CoreRuns s k (.mova rd acc)) ∧
    (∃ (s : State) (k : Fin 4) (p : Fin 2) (rd : Fin 16) (sc : Nat), Up s ∧ sc = bitsOf (brlCore s k).sr 20 16 ∧ Landed s k rd ∧ Landed s k 52 ∧ CoreRuns s k (.movac rd (2 * p.val))) ∧
    (∃ (s : State) (k : Fin 4) (acc : Fin 4) (rs : Fin 16), Up s ∧ (∀ a, a < 4 → Landed s k (64 + a) ∧ Landed s k (68 + a)) ∧ CoreRuns s k (.movda acc rs)) ∧
    (∃ (s : State) (k : Fin 4) (mask : BitVec 4), Up s ∧ (∀ a, a < 4 → Landed s k (64 + a) ∧ Landed s k (68 + a)) ∧ CoreRuns s k (.clra mask.toNat)) :=
  ⟨⟨core 0 [(1, 0x7FFF), (2, 0x7FFF), (67, 0x7FFFFFFFFE)], 0, 3, 1, 2, 0x7FFF, 0x7FFF, by unfold Up CoreRuns Landed; decide +kernel⟩,
    ⟨core 0 [(1, 0x8000), (2, 3), (64, 0xFFFFFFFFFF)], 0, 0, 1, 2, 0x8000, 3, by unfold Up CoreRuns Landed; decide +kernel⟩,
    ⟨core 0 [(1, 0x7FFF), (2, 0x7FFF), (67, 0x8000000001)], 0, 3, 1, 2, 0x7FFF, 0x7FFF, by unfold Up CoreRuns Landed; decide +kernel⟩,
    ⟨core 0 [(1, 0x80007FFF), (2, 0x80007FFF)], 0, 1, 1, 2, ⟨.none, .none⟩, 0x80007FFF, 0x80007FFF, 66, 67, by unfold Up CoreRuns Landed; decide +kernel⟩,
    ⟨core 0 [(1, 0x80007FFF), (2, 0x80007FFF), (32, 5)], 0, 0, 1, 2, ⟨.load 0 true 1, .store 1 true 2⟩, 0x80007FFF, 0x80007FFF, 64, 65, by unfold Up CoreRuns Landed; decide +kernel⟩,
    ⟨core 0 [(1, 0x80007FFF), (2, 0x80007FFF)], 0, 1, 1, 2, ⟨.none, .none⟩, 0x80007FFF, 0x80007FFF, 66, 67, by unfold Up CoreRuns Landed; decide +kernel⟩,
    ⟨core 0 [(1, 0x80007FFF), (2, 0x80007FFF)], 0, 1, 1, 2, ⟨.none, .none⟩, 0x80007FFF, 0x80007FFF, 66, 67, by unfold Up CoreRuns Landed; decide +kernel⟩,
    ⟨core 0 [(1, 0x80007FFF), (2, 0x80007FFF)], 0, 1, 1, 2, ⟨.none, .none⟩, 0x80007FFF, 0x80007FFF, 66, 67, by unfold Up CoreRuns Landed; decide +kernel⟩,
    ⟨core 0 [(1, 0x80007FFF), (2, 0x80007FFE)], 0, 1, 1, 2, ⟨.none, .none⟩, 0x80007FFF, 0x80007FFE, 66, 67, by unfold Up CoreRuns Landed; decide +kernel⟩,
    ⟨core 0 [(1, 0x80007FFF), (2, 0x80007FFE), (66, 1), (67, 0x7FFFFFFFFF)], 0, 1, 1, 2, ⟨.none, .none⟩, 0x80007FFF, 0x80007FFE, 66, 67, by unfold Up CoreRuns Landed; decide +kernel⟩,
    ⟨core 0 [(33, 0xFFFF), (41, 0xFFFFFF)], 0, 1, true, 7, 0xFFFF, by unfold Up CoreRuns Landed; decide +kernel⟩,
    ⟨core 0 [(2, 9), (39, 0xFFFF)], 0, 3, false, 2, 0xFFFF, by unfold Up CoreRuns; decide +kernel⟩,
    ⟨core 0 [(52, 0x10000), (69, 0x8000000001)], 0, 1, 4, 1, by unfold Up CoreRuns Landed; decide +kernel⟩,
    ⟨core 0 [(52, 0x40000), (70, 0x7FFFF8), (71, 0xFFFFFFFFF8)], 0, 1, 4, 4, by unfold Up CoreRuns Landed; decide +kernel⟩,
    ⟨core 0 [(4, 0xFFFFFFFF)], 0, 3, 4, by unfold Up CoreRuns Landed; decide +kernel⟩,
    ⟨core 0 [(64, 1), (65, 2), (66, 3), (67, 4), (68, 1), (69, 2), (70, 3), (71, 4)], 0, 5#4, by unfold Up CoreRuns Landed; decide +kernel⟩⟩

/-- States and operands that meet the hypotheses of `BerylLoadsAndImmediatesComplete`. -/
theorem witness_BerylLoadsAndImmediatesComplete :
    (∃ (s : State) (k : Fin 4) (rd : Fin 16) (imm : BitVec 16) (A : Nat), Up s ∧ A = (brlCore s k).slot rd ∧ Landed s k rd ∧ Landed s k 52 ∧ Landed s k 72 ∧ CoreRuns s k (.movk rd imm.toNat)) ∧
    (∃ (s : State) (k : Fin 4) (rd : Fin 16) (imm : BitVec 16) (A : Nat), Up s ∧ A = (brlCore s k).slot rd ∧ Landed s k rd ∧ Landed s k 52 ∧ Landed s k 72 ∧ CoreRuns s k (.movkh rd imm.toNat)) ∧
    (∃ (s : State) (k : Fin 4) (rd : Fin 16) (imm : BitVec 16) (A : Nat), Up s ∧ A = (brlCore s k).slot rd ∧ Landed s k rd ∧ Landed s k 52 ∧ Landed s k 72 ∧ CoreRuns s k (.addk rd imm.toNat)) ∧
    (∃ (s : State) (k : Fin 4) (rd : Fin 16) (imm : BitVec 16) (A : Nat), Up s ∧ A = (brlCore s k).slot rd ∧ Landed s k rd ∧ Landed s k 52 ∧ Landed s k 72 ∧ CoreRuns s k (.cmpk rd imm.toNat)) ∧
    (∃ (s : State) (k : Fin 4) (rd : Fin 16) (imm : BitVec 16) (A : Nat), Up s ∧ A = (brlCore s k).slot rd ∧ Landed s k rd ∧ Landed s k 52 ∧ Landed s k 72 ∧ CoreRuns s k (.cmpk rd imm.toNat)) ∧
    (∃ (s : State) (k : Fin 4) (a : Fin 32) (rd : Fin 16) (imm : BitVec 24) (P : Nat), Up s ∧ P = (brlCore s k).slot (32 + a) ∧ Landed s k (32 + a) ∧ Landed s k 72 ∧ Landed s k rd ∧ CoreRuns s k (.la a imm.toNat)) ∧
    (∃ (s : State) (k : Fin 4) (a : Fin 32) (rd : Fin 16) (imm : BitVec 24) (P : Nat), Up s ∧ P = (brlCore s k).slot (32 + a) ∧ Landed s k (32 + a) ∧ Landed s k 72 ∧ Landed s k rd ∧ CoreRuns s k (.la a imm.toNat)) ∧
    (∃ (s : State) (k : Fin 4) (a : Fin 32) (rd : Fin 16) (imm : BitVec 24) (P : Nat), Up s ∧ P = (brlCore s k).slot (32 + a) ∧ Landed s k (32 + a) ∧ Landed s k 72 ∧ Landed s k rd ∧ CoreRuns s k (.la a imm.toNat)) ∧
    (∃ (s : State) (k : Fin 4) (a : Fin 32) (rs : Fin 16) (rd : Fin 16) (P : Nat), Up s ∧ P = (brlCore s k).slot (32 + a) ∧ Landed s k (32 + a) ∧ Landed s k 72 ∧ Landed s k rd ∧ CoreRuns s k (.movrTo a rs)) ∧
    (∃ (s : State) (k : Fin 4) (a : Fin 32) (rs : Fin 16) (rd : Fin 16) (P : Nat), Up s ∧ P = (brlCore s k).slot (32 + a) ∧ Landed s k (32 + a) ∧ Landed s k 72 ∧ Landed s k rd ∧ CoreRuns s k (.movrTo a rs)) ∧
    (∃ (s : State) (k : Fin 4) (a : Fin 32) (rs : Fin 16) (rd : Fin 16) (P : Nat), Up s ∧ P = (brlCore s k).slot (32 + a) ∧ Landed s k (32 + a) ∧ Landed s k 72 ∧ Landed s k rd ∧ CoreRuns s k (.aadd a rs)) ∧
    (∃ (s : State) (k : Fin 4) (a : Fin 32) (rd : Fin 16) (off : BitVec 15) (P : Nat), Up s ∧ P = (brlCore s k).slot (32 + a) ∧ Landed s k (32 + a) ∧ Landed s k 72 ∧ Landed s k rd ∧ CoreRuns s k (.aaddk a off.toNat)) ∧
    (∃ (s : State) (k : Fin 4) (a : Fin 32) (rd : Fin 16) (P : Nat), Up s ∧ P = (brlCore s k).slot (32 + a) ∧ Landed s k (32 + a) ∧ Landed s k 72 ∧ Landed s k rd ∧ CoreRuns s k (.movrFrom rd a)) ∧
    (∃ (s : State) (k : Fin 4) (a : Fin 32) (rd : Fin 16) (P : Nat), Up s ∧ P = (brlCore s k).slot (32 + a) ∧ Landed s k (32 + a) ∧ Landed s k 72 ∧ Landed s k rd ∧ CoreRuns s k (.movrFrom rd a)) ∧
    (∃ (s : State) (k : Fin 4) (a : Fin 32) (rd : Fin 16) (P : Nat), Up s ∧ P = (brlCore s k).slot (32 + a) ∧ Landed s k (32 + a) ∧ Landed s k 72 ∧ Landed s k rd ∧ 24 ≤ a.val ∧ brlIssues s k = true) ∧
    (∃ (s : State) (k : Fin 4) (a : Fin 32) (rd : Fin 16) (P : Nat), Up s ∧ P = (brlCore s k).slot (32 + a) ∧ Landed s k (32 + a) ∧ Landed s k 72 ∧ Landed s k rd ∧ 24 ≤ a.val ∧ brlIssues s k = true) ∧
    (∃ (s : State) (k : Fin 4) (rd : Fin 16) (p : Fin 8) (disp : BitVec 12) (a : Nat), Up s ∧ a = (((brlCore s k).slot (32 + p) + disp.toInt) % 2 ^ 15).toNat ∧ Landed s k rd ∧ CoreRuns s k (.ldc rd p disp.toNat)) ∧
    (∃ (s : State) (k : Fin 4) (x : BrlAccess) (a : Ea) (arr : Arr) (i : Nat), Up s ∧ a = brlEa (brlCore s k) x.p x.mode x.disp.toInt ∧ brlPlace s k x.y a.addr = .own arr i ∧ Landed s k x.d ∧ Landed s k (32 + x.p) ∧ CoreRuns s k (.load x)) ∧
    (∃ (s : State) (k : Fin 4) (x : BrlAccess) (a : Ea) (arr : Arr) (i : Nat), Up s ∧ a = brlEa (brlCore s k) x.p x.mode x.disp.toInt ∧ brlPlace s k x.y a.addr = .own arr i ∧ Landed s k x.d ∧ Landed s k (32 + x.p) ∧ CoreRuns s k (.load x)) ∧
    (∃ (s : State) (k : Fin 4) (x : BrlAccess) (a : Ea) (arr : Arr) (i : Nat), Up s ∧ a = brlEa (brlCore s k) x.p x.mode x.disp.toInt ∧ brlPlace s k x.y a.addr = .own arr i ∧ Landed s k x.d ∧ Landed s k (32 + x.p) ∧ CoreRuns s k (.store x)) ∧
    (∃ (s : State) (k : Fin 4) (x : BrlAccess) (a : Ea) (w : BrlTarget), Up s ∧ a = brlEa (brlCore s k) x.p x.mode x.disp.toInt ∧ brlPlace s k x.y a.addr = .window w ∧ CoreRuns s k (.store x)) ∧
    (∃ (s : State) (k : Fin 4) (x : BrlAccess) (a : Ea) (w : BrlTarget), Up s ∧ a = brlEa (brlCore s k) x.p x.mode x.disp.toInt ∧ brlPlace s k x.y a.addr = .window w ∧ CoreRuns s k (.store x)) :=
  ⟨⟨core 0 [], 0, 3, 0x8000, 0, by unfold Up CoreRuns Landed; decide +kernel⟩,
    ⟨core 0 [(3, 0x12345678)], 0, 3, 0x8000, 0x12345678, by unfold Up CoreRuns Landed; decide +kernel⟩,
    ⟨core 0 [(3, 1)], 0, 3, 0xFFFE, 1, by unfold Up CoreRuns Landed; decide +kernel⟩,
    ⟨core 0 [(3, 0xFFFFFFFF)], 0, 3, 0xFFFF, 0xFFFFFFFF, by unfold Up CoreRuns Landed; decide +kernel⟩,
    ⟨core 0 [(3, 0xFFFFFFFE)], 0, 3, 0xFFFF, 0xFFFFFFFE, by unfold Up CoreRuns Landed; decide +kernel⟩,
    ⟨core 0 [(32, 7)], 0, 0, 0, 0xFFFFFF, 7, by unfold Up CoreRuns Landed; decide +kernel⟩,
    ⟨core 0 [(52, 0x80000000)], 0, 20, 0, 0xFFFFFF, 0x80000000, by unfold Up CoreRuns Landed; decide +kernel⟩,
    ⟨core 0 [], 0, 21, 0, 0xFFFFFF, 0, by unfold Up CoreRuns Landed; decide +kernel⟩,
    ⟨core 0 [(2, 0xFFFFFFFF)], 0, 20, 2, 0, 0, by unfold Up CoreRuns Landed; decide +kernel⟩,
    ⟨core 0 [(2, 0xFFFFFFFF)], 0, 16, 2, 0, 0, by unfold Up CoreRuns Landed; decide +kernel⟩,
    ⟨core 0 [(2, 0xFFFFFFFF), (40, 4)], 0, 8, 2, 0, 4, by unfold Up CoreRuns Landed; decide +kernel⟩,
    ⟨core 0 [(37, 4)], 0, 5, 0, 0x7FFF, 4, by unfold Up CoreRuns Landed; decide +kernel⟩,
    ⟨core 0 [(40, 0xFFFFFF)], 0, 8, 3, 0xFFFFFF, by unfold Up CoreRuns Landed; decide +kernel⟩,
    ⟨core 0 [(39, 0xFFFFFF)], 0, 7, 3, 0xFFFFFF, by unfold Up CoreRuns Landed; decide +kernel⟩,
    ⟨core 0 [], 0, 24, 3, 0, by unfold Up Landed; decide +kernel⟩,
    ⟨core 1 [], 1, 31, 3, 0, by unfold Up Landed; decide +kernel⟩,
    ⟨core 0 [(39, 3)], 0, 3, 7, 0xFFC, 32767, by unfold Up CoreRuns Landed; decide +kernel⟩,
    ⟨core 1 [(32, 0xFFFF)], 1, ⟨false, 4, 0, 1, 0⟩, ⟨0xFFFF, some 0x10000, false⟩, .brlX, 0x1FFFF, by unfold Up CoreRuns Landed; decide +kernel⟩,
    ⟨core 1 [(37, 9), (45, 8), (49, 2)], 1, ⟨true, 4, 5, 1, 0xFFF⟩, ⟨8, some 8, false⟩, .brlY, 0x10008, by unfold Up CoreRuns Landed; decide +kernel⟩,
    ⟨core 1 [(32, 5), (4, 77)], 1, ⟨false, 4, 0, 3, 0⟩, ⟨5, some 4, false⟩, .brlX, 0x10005, by unfold Up CoreRuns Landed; decide +kernel⟩,
    ⟨core 1 [(36, 0x400001), (4, 77)], 1, ⟨true, 4, 4, 0, 0⟩, ⟨0x400001, none, false⟩, .dram 4, by unfold Up CoreRuns; decide +kernel⟩,
    ⟨core 1 [(32, 0x800000), (4, 77)], 1, ⟨false, 4, 0, 0, 0⟩, ⟨0x800000, none, false⟩, .weight 0, by unfold Up CoreRuns; decide +kernel⟩⟩

/-- States and operands that meet the hypotheses of `BerylControlCompletes`. -/
theorem witness_BerylControlCompletes :
    (∃ (s : State) (k : Fin 4) (cond : Fin 16) (target : BitVec 15), Up s ∧ CoreRuns s k (.branch cond target.toNat false)) ∧
    (∃ (s : State) (k : Fin 4) (cond : Fin 16) (target : BitVec 15), Up s ∧ CoreRuns s k (.branch cond target.toNat false)) ∧
    (∃ (s : State) (k : Fin 4) (cond : Fin 16) (target : BitVec 15), Up s ∧ CoreRuns s k (.branch cond target.toNat true)) ∧
    (∃ (s : State) (k : Fin 4) (cond : Fin 16) (target : BitVec 15), Up s ∧ CoreRuns s k (.branch cond target.toNat true)) ∧
    (∃ (s : State) (k : Fin 4) (cond : Fin 16), Up s ∧ 12 < cond.val ∧ brlIssues s k = true) ∧
    (∃ (s : State) (k : Fin 4) (e : BrlReturn), Up s ∧ (brlCore s k).stack.getLast? = some e ∧ CoreRuns s k .ret) ∧
    (∃ (s : State) (k : Fin 4) (e : BrlReturn), Up s ∧ (brlCore s k).stack.getLast? = some e ∧ CoreRuns s k .reti ∧ Landed s k 52) ∧
    (∃ (s : State) (k : Fin 4) (e : BrlReturn), Up s ∧ (brlCore s k).stack.getLast? = some e ∧ CoreRuns s k .reti ∧ Landed s k 52) ∧
    (∃ (s : State) (k : Fin 4) (intr : Bool) (count : BrlCount) (len : Fin 1024), Up s ∧ CoreRuns s k (.loop intr count len) ∧ Landed s k (53 + (brlCore s k).levels.length)) ∧
    (∃ (s : State) (k : Fin 4) (intr : Bool) (count : BrlCount) (len : Fin 1024), Up s ∧ CoreRuns s k (.loop intr count len) ∧ Landed s k (53 + (brlCore s k).levels.length)) ∧
    (∃ (s : State) (k : Fin 4) (count : BrlCount), Up s ∧ CoreRuns s k (.iter count)) ∧
    (∃ (s : State) (k : Fin 4), Up s ∧ CoreRuns s k .nop) ∧
    (∃ (s : State) (k : Fin 4), Up s ∧ CoreRuns s k .fence) ∧
    (∃ (s : State) (k : Fin 4), Up s ∧ CoreRuns s k .halt) ∧
    (∃ (s : State) (k : Fin 4), Up s ∧ CoreRuns s k .halt) ∧
    (∃ (s : State) (k : Fin 4), Up s ∧ CoreRuns s k .wait ∧ flag s (F.BRL_CTRL_RUN k) = true ∧ rd s (R.BRL_IRQ_EN k) &&& rd s (R.BRL_IRQ_PEND k) = 0) ∧
    (∃ (s : State) (k : Fin 4), Up s ∧ CoreRuns s k .swi) ∧
    (∃ (s : State) (k : Fin 4), Up s ∧ CoreRuns s k (.setIe true) ∧ Landed s k 52) ∧
    (∃ (s : State) (k : Fin 4), Up s ∧ CoreRuns s k (.setIe false) ∧ Landed s k 52) ∧
    (∃ (s : State) (k : Fin 4) (e : Fin 4), Up s ∧ CoreRuns s k (.sev e) ∧ domOn s (1 + k) = true) :=
  ⟨⟨core 0 [], 0, 0, 0x7FFF, by unfold Up CoreRuns; decide +kernel⟩,
    ⟨core 0 [(72, 4)], 0, 2, 8, by unfold Up CoreRuns; decide +kernel⟩,
    ⟨core 0 [] { stack := [⟨1, none, 0, false⟩] }, 0, 0, 0x7FFF, by unfold Up CoreRuns; decide +kernel⟩,
    ⟨core 0 [], 0, 7, 0x7FFF, by unfold Up CoreRuns; decide +kernel⟩,
    ⟨core 0 [], 0, 13, by unfold Up; decide +kernel⟩,
    ⟨core 0 [] { stack := [⟨1, none, 0, false⟩, ⟨8, none, 0, true⟩] }, 0, ⟨8, none, 0, true⟩, by unfold Up CoreRuns; decide +kernel⟩,
    ⟨core 0 [] { stack := [⟨8, some 0x80000000, 0, true⟩] }, 0, ⟨8, some 0x80000000, 0, true⟩, by unfold Up CoreRuns Landed; decide +kernel⟩,
    ⟨core 0 [] { stack := [⟨8, none, 0, true⟩] }, 0, ⟨8, none, 0, true⟩, by unfold Up CoreRuns Landed; decide +kernel⟩,
    ⟨withC 0 [(1, 0x20000000)] (core 0 [(2, 0xFFFF)]), 0, true, .reg 2, 0, by unfold Up CoreRuns Landed; decide +kernel⟩,
    ⟨withC 0 [(1022, 0x20000000), (1023, 0x20000000), (1024, 0x20000000)] (core 0 []), 0, false, .imm 0xFFFF, 1023, by unfold Up CoreRuns Landed; decide +kernel⟩,
    ⟨core 0 [], 0, .imm 0, by unfold Up CoreRuns; decide +kernel⟩,
    ⟨core 0 [], 0, by unfold Up CoreRuns; decide +kernel⟩,
    ⟨core 0 [], 0, by unfold Up CoreRuns; decide +kernel⟩,
    ⟨core 0 [], 0, by unfold Up CoreRuns; decide +kernel⟩,
    ⟨core 0 [] { stores := [⟨.dram 0, true, 0x400000, 1⟩] }, 0, by unfold Up CoreRuns; decide +kernel⟩,
    ⟨core 0 [], 0, by unfold Up CoreRuns; decide +kernel⟩,
    ⟨core 0 [], 0, by unfold Up CoreRuns; decide +kernel⟩,
    ⟨core 0 [], 0, by unfold Up CoreRuns Landed; decide +kernel⟩,
    ⟨core 0 [(52, 0x80000000)], 0, by unfold Up CoreRuns Landed; decide +kernel⟩,
    ⟨core 0 [], 0, 3, by unfold Up CoreRuns; decide +kernel⟩⟩

/-- States and operands that meet the hypotheses of `BerylCoreCommandsComplete`. -/
theorem witness_BerylCoreCommandsComplete :
    (∃ (s : State) (k : Fin 4) (v : Nat), Up s ∧ brlVector s k = some v ∧ domOn s (1 + k) = true ∧ flag s (F.BRL_CTRL_RUN k) = true ∧ (brlCore s k).halt = false ∧ bitOf (brlCore s k).sr 31 = true ∧ (brlCore s k).slots = 0 ∧ (brlCore s k).iter = 0 ∧ ((brlState s k = 1 ∧ loopsAllow (brlCore s k) = true) ∨ brlState s k = 3)) ∧
    (∃ (s : State) (k : Fin 4) (v : Nat), Up s ∧ brlVector s k = some v ∧ domOn s (1 + k) = true ∧ flag s (F.BRL_CTRL_RUN k) = true ∧ (brlCore s k).halt = false ∧ bitOf (brlCore s k).sr 31 = true ∧ (brlCore s k).slots = 0 ∧ (brlCore s k).iter = 0 ∧ ((brlState s k = 1 ∧ loopsAllow (brlCore s k) = true) ∨ brlState s k = 3)) ∧
    (∃ (s : State) (k : Fin 4) (v : Nat), Up s ∧ brlVector s k = some v ∧ domOn s (1 + k) = true ∧ flag s (F.BRL_CTRL_RUN k) = true ∧ (brlCore s k).halt = false ∧ bitOf (brlCore s k).sr 31 = true ∧ (brlCore s k).slots = 0 ∧ (brlCore s k).iter = 0 ∧ ((brlState s k = 1 ∧ loopsAllow (brlCore s k) = true) ∨ brlState s k = 3)) ∧
    (∃ (s : State) (k : Fin 4) (x : BrlStore) (rest : List BrlStore) (a : Nat), Up s ∧ (brlCore s k).stores = x :: rest ∧ x.target = .dram a ∧ matrixDramRefused s (.beryl k) a 4 = none) ∧
    (∃ (s : State) (k : Fin 4) (x : BrlStore) (rest : List BrlStore) (a : Nat) (kind : Nat), Up s ∧ (brlCore s k).stores = x :: rest ∧ x.target = .dram a ∧ matrixDramRefused s (.beryl k) a 4 = some kind) ∧
    (∃ (s : State) (k : Fin 4) (x : BrlStore) (rest : List BrlStore), Up s ∧ (brlCore s k).stores = x :: rest) ∧
    (∃ (s : State) (k : Fin 4) (x : BrlStore) (rest : List BrlStore), Up s ∧ (brlCore s k).stores = x :: rest) ∧
    (∃ (s : State) (k : Fin 4) (x : BrlAccess) (w : BrlTarget), Up s ∧ CoreRuns s k (.load x) ∧ brlPlace s k x.y (brlEa (brlCore s k) x.p x.mode x.disp.toInt).addr = .window w ∧ Landed s k x.d) ∧
    (∃ (s : State) (k : Fin 4), Up s ∧ domOn s (1 + k) = true ∧ brlState s k = 0) ∧
    (∃ (s : State) (k : Fin 4), Up s ∧ domOn s (1 + k) = true ∧ brlState s k = 1 ∧ (brlCore s k).stores = [] ∧ (brlCore s k).slots = 0 ∧ (brlCore s k).iter = 0) ∧
    (∃ (s : State) (k : Fin 4), Up s ∧ domOn s (1 + k) = true ∧ brlState s k = 2 ∧ (brlCore s k).slots = 0 ∧ (brlCore s k).iter = 0 ∧ (brlCore s k).levels = [] ∧ (brlCore s k).stores = [] ∧ flag s (F.BRL_CTRL_RUN k) = false ∧ brlDecode (cWord s k (brlPc s k)) = some .nop) ∧
    (∃ (s : State) (k : Fin 4), Up s ∧ domOn s (1 + k) = true ∧ brlState s k = 2 ∧ brlDecode (cWord s k (brlPc s k)) = none) ∧
    (∃ (s : State) (k : Fin 4), Up s ∧ domOn s (1 + k) = true ∧ getR s (R.BRL_TIMER k) ≠ 0) ∧
    (∃ (s : State) (k : Fin 4), Up s ∧ domOn s (1 + k) = true) ∧
    (∃ (s : State) (k : Fin 4), Up s ∧ domOn s (1 + k) = true) ∧
    (∃ (s : State) (k : Fin 4), Up s ∧ domOn s (1 + k) = true) ∧
    (∃ (s : State), Up s) ∧
    (∃ (s : State), Up s) :=
  ⟨⟨core 0 [(52, 0x80000000)] {} [(reg (R.BRL_IRQ_EN 0) 0x8002), (reg (R.BRL_IRQ_PEND 0) 0x8002)], 0, 1, by unfold Up; decide +kernel⟩,
    ⟨core 0 [(52, 0x80000000)] { waiting := true } [(F.BRL_STATUS_STATE 0, 3), (reg (R.BRL_IRQ_EN 0) 0x8002), (reg (R.BRL_IRQ_PEND 0) 0x8000)], 0, 15, by unfold Up; decide +kernel⟩,
    ⟨core 0 [(52, 0x80000000)] { stack := List.replicate 8 ⟨1, none, 0, false⟩ } [(reg (R.BRL_IRQ_EN 0) 0x8002), (reg (R.BRL_IRQ_PEND 0) 0x8002)], 0, 1, by unfold Up; decide +kernel⟩,
    ⟨{ memOn [dom 1 2, (F.BRL_STATUS_STATE 0, 1)] with brl := [(0, { stores := [⟨.dram 8, true, 0x400002, 1⟩] })] }, 0, ⟨.dram 8, true, 0x400002, 1⟩, [], 8, by unfold Up; decide +kernel⟩,
    ⟨core 0 [] { stores := [⟨.dram 8, true, 0x400002, 1⟩] }, 0, ⟨.dram 8, true, 0x400002, 1⟩, [], 8, 2, by unfold Up; decide +kernel⟩,
    ⟨core 0 [] { stores := [⟨.dram 8, true, 0x400002, 1⟩] }, 0, ⟨.dram 8, true, 0x400002, 1⟩, [], by unfold Up; decide +kernel⟩,
    ⟨core 0 [] { stores := [⟨.weight 8, false, 0x800002, 1⟩] }, 0, ⟨.weight 8, false, 0x800002, 1⟩, [], by unfold Up; decide +kernel⟩,
    ⟨core 1 [(36, 0x400001), (4, 77)], 1, ⟨true, 4, 4, 0, 0⟩, .dram 4, by unfold Up CoreRuns Landed; decide +kernel⟩,
    ⟨set [dom 4 2], 3, by unfold Up; decide +kernel⟩,
    ⟨core 0 [], 0, by unfold Up; decide +kernel⟩,
    ⟨withC 0 [(32767, 0x20000000)] (set [dom 1 2, (F.BRL_STATUS_STATE 0, 2), (F.BRL_PC_PC 0, 32767)]), 0, by unfold Up; decide +kernel⟩,
    ⟨withC 0 [(0, 0)] (set [dom 1 2, (F.BRL_STATUS_STATE 0, 2)]), 0, by unfold Up; decide +kernel⟩,
    ⟨set [dom 1 2, reg (R.BRL_TIMER 0) 1], 0, by unfold Up; decide +kernel⟩,
    ⟨set [dom 1 2], 0, by unfold Up; decide +kernel⟩,
    ⟨set [dom 1 2], 0, by unfold Up; decide +kernel⟩,
    ⟨core 0 [], 0, by unfold Up; decide +kernel⟩,
    ⟨State.reset, by unfold Up; decide +kernel⟩,
    ⟨core 0 [(3, 4)] { stack := [⟨1, none, 0, false⟩] }, by unfold Up; decide +kernel⟩⟩

/-- States and operands that meet the hypotheses of `RegisterAccessCompletes`. -/
theorem witness_RegisterAccessCompletes :
    (∃ (s : State) (m : Master) (addr : BitVec 26) (a : Nat) (be : BitVec 4), Sends s m ∧ a = addr.toNat / 4 * 4 ∧ be ≠ 0xF) ∧
    (∃ (s : State) (m : Master) (addr : BitVec 26) (a : Nat) (be : BitVec 4), Sends s m ∧ a = addr.toNat / 4 * 4 ∧ be ≠ 0xF) ∧
    (∃ (s : State) (m : Master) (addr : BitVec 26) (a : Nat), Sends s m ∧ a = addr.toNat / 4 * 4 ∧ 0x1700000 ≤ a ∧ a < 0x1A00000 ∧ a ≠ R.HLT_FAULT ∧ a ≠ R.HLT_FAULT_MASK ∧ isPairLow a = false ∧ isPairLow (a - 4) = false ∧ writeRefused s m a = none) ∧
    (∃ (s : State) (m : Master) (addr : BitVec 26) (a : Nat) (kind : Nat), Sends s m ∧ a = addr.toNat / 4 * 4 ∧ writeRefused s m a = some kind ∧ m ≠ .host) ∧
    (∃ (s : State) (m : Master) (addr : BitVec 26) (a : Nat) (kind : Nat), Sends s m ∧ a = addr.toNat / 4 * 4 ∧ writeRefused s m a = some kind ∧ m ≠ .host) ∧
    (∃ (s : State) (m : Master) (addr : BitVec 26) (a : Nat), Sends s m ∧ a = addr.toNat / 4 * 4 ∧ 0x1700000 ≤ a ∧ a < 0x1A00000 ∧ a ≠ R.HLT_FAULT ∧ a ≠ R.HLT_FAULT_MASK ∧ isPairLow a = false ∧ isPairLow (a - 4) = false ∧ writeRefused s m a = none) ∧
    (∃ (s : State) (m : Master) (addr : BitVec 26) (a : Nat), Sends s m ∧ a = addr.toNat / 4 * 4 ∧ 0x1700000 ≤ a ∧ a < 0x1A00000 ∧ a ≠ R.HLT_FAULT ∧ a ≠ R.HLT_FAULT_MASK ∧ isPairLow a = false ∧ isPairLow (a - 4) = false ∧ writeRefused s m a = none) ∧
    (∃ (s : State) (m : Master) (addr : BitVec 26) (a : Nat), Sends s m ∧ a = addr.toNat / 4 * 4 ∧ 0x1700000 ≤ a ∧ a < 0x1A00000 ∧ a ≠ R.HLT_FAULT ∧ a ≠ R.HLT_FAULT_MASK ∧ isPairLow a = false ∧ isPairLow (a - 4) = false ∧ writeRefused s m a = none) ∧
    (∃ (s : State) (m : Master) (addr : BitVec 26) (a : Nat) (n : Fin 4096), Sends s m ∧ a = addr.toNat / 4 * 4 ∧ writeRefused s m a = none ∧ a = R.DMA_RING_BASE_LO n) ∧
    (∃ (s : State) (m : Master) (addr : BitVec 26) (a : Nat) (n : Fin 4096), Sends s m ∧ a = addr.toNat / 4 * 4 ∧ writeRefused s m a = none ∧ a = R.DMA_RING_BASE_LO n + 4) ∧
    (∃ (s : State) (m : Master) (addr : BitVec 26) (a : Nat), Sends s m ∧ a = addr.toNat / 4 * 4 ∧ a = R.HLT_FAULT_MASK ∧ writeRefused s m a = none) ∧
    (∃ (s : State) (m : Master) (addr : BitVec 26) (a : Nat) (tgt : Nat), Sends s m ∧ a = addr.toNat / 4 * 4 ∧ targetOf a = some tgt ∧ reaches m tgt = true ∧ arrayAt a = none ∧ (arrayDomain a).all (domOn s) = true ∧ a ≠ R.MEM_PANIC_TIME ∧ isPairLow a = false ∧ isPairLow (a - 4) = false ∧ (privileged m = true ∨ hiddenBits s a = 0)) ∧
    (∃ (s : State) (m : Master) (addr : BitVec 26) (a : Nat) (tgt : Nat), Sends s m ∧ a = addr.toNat / 4 * 4 ∧ targetOf a = some tgt ∧ reaches m tgt = true ∧ arrayAt a = none ∧ (arrayDomain a).all (domOn s) = true ∧ a ≠ R.MEM_PANIC_TIME ∧ isPairLow a = false ∧ isPairLow (a - 4) = false ∧ (privileged m = true ∨ hiddenBits s a = 0)) ∧
    (∃ (s : State) (m : Master) (addr : BitVec 26) (a : Nat) (tgt : Nat), Sends s m ∧ a = addr.toNat / 4 * 4 ∧ targetOf a = some tgt ∧ reaches m tgt = true ∧ arrayAt a = none ∧ (arrayDomain a).all (domOn s) = true ∧ a ≠ R.MEM_PANIC_TIME ∧ isPairLow a = false ∧ isPairLow (a - 4) = false ∧ (privileged m = true ∨ hiddenBits s a = 0)) ∧
    (∃ (s : State) (m : Master) (addr : BitVec 26) (a : Nat) (tgt : Nat), Sends s m ∧ a = addr.toNat / 4 * 4 ∧ targetOf a = some tgt ∧ reaches m tgt = true ∧ arrayAt a = none ∧ (arrayDomain a).all (domOn s) = true ∧ a ≠ R.MEM_PANIC_TIME ∧ isPairLow a = true) ∧
    (∃ (s : State) (m : Master) (addr : BitVec 26), Sends s m ∧ 1 ≤ twinState s ∧ twinState s ≤ 4 ∧ weightRefused s m (addr.toNat / 4 * 4) = none) ∧
    (∃ (s : State) (m : Master) (addr : BitVec 26), Sends s m ∧ 1 ≤ twinState s ∧ twinState s ≤ 4 ∧ weightRefused s m (addr.toNat / 4 * 4) = none) ∧
    (∃ (s : State) (m : Master) (addr : BitVec 26), Sends s m ∧ twinState s = 0 ∧ weightRefused s m (addr.toNat / 4 * 4) = none ∧ (∀ i, i < 4 → weightProtected s (addr.toNat / 4 * 4 + i) = false)) ∧
    (∃ (s : State) (m : Master) (addr : BitVec 26) (waited : Nat), Sends s m ∧ (targetOf (addr.toNat / 4 * 4)).isSome = true ∧ matrixLimit s ≤ waited) ∧
    (∃ (s : State) (m : Master) (addr : BitVec 26) (waited : Nat), Sends s m ∧ (targetOf (addr.toNat / 4 * 4)).isSome = true ∧ matrixLimit s ≤ waited) ∧
    (∃ (s : State) (m : Master) (addr : BitVec 26) (waited : Nat), Sends s m ∧ (targetOf (addr.toNat / 4 * 4)).isSome = true ∧ matrixLimit s ≤ waited) ∧
    (∃ (s : State), Up s) ∧
    (∃ (s : State), Up s ∧ flag s F.PWR_BOOT_TEST_MODE = false) :=
  ⟨⟨State.reset, .host, 0x3FFFFFF, 0x3FFFFFC, 7, by unfold Sends Up; decide +kernel⟩,
    ⟨State.reset, .beryl 3, 0, 0, 0, by unfold Sends Up; decide +kernel⟩,
    ⟨set [(F.PWR_BOOT_TEST_MODE, 1)], .debug, 0x1700000, 0x1700000, by unfold Sends Up; decide +kernel⟩,
    ⟨State.reset, .dma, 0x410000, 0x410000, 2, by unfold Sends Up; decide +kernel⟩,
    ⟨State.reset, .supervisor, 0x600000, 0x600000, 2, by unfold Sends Up; decide +kernel⟩,
    ⟨State.reset, .host, 0x1700000, 0x1700000, by unfold Sends Up; decide +kernel⟩,
    ⟨State.reset, .twin, BitVec.ofNat 26 R.TWN_TIMEOUT, R.TWN_TIMEOUT, by unfold Sends Up; decide +kernel⟩,
    ⟨State.reset, .supervisor, 0x19FFFFC, 0x19FFFFC, by unfold Sends Up; decide +kernel⟩,
    ⟨State.reset, .host, BitVec.ofNat 26 (R.DMA_RING_BASE_LO 4095), R.DMA_RING_BASE_LO 4095, 4095, by unfold Sends Up; decide +kernel⟩,
    ⟨State.reset, .supervisor, BitVec.ofNat 26 (R.DMA_RING_BASE_LO 0 + 4), R.DMA_RING_BASE_LO 0 + 4, 0, by unfold Sends Up; decide +kernel⟩,
    ⟨State.reset, .host, BitVec.ofNat 26 R.HLT_FAULT_MASK, R.HLT_FAULT_MASK, by unfold Sends Up; decide +kernel⟩,
    ⟨allOn [], .host, 0xC10000, 0xC10000, 3, by unfold Sends Up; decide +kernel⟩,
    ⟨State.reset, .host, BitVec.ofNat 26 R.HLT_FAULT, R.HLT_FAULT, 6, by unfold Sends Up; decide +kernel⟩,
    ⟨State.reset, .supervisor, 0, 0, 8, by unfold Sends Up; decide +kernel⟩,
    ⟨setR (setR State.reset (R.EVT_STAMP_LO 0) 7) (R.EVT_STAMP_LO 0 + 4) 9, .host, BitVec.ofNat 26 (R.EVT_STAMP_LO 0), R.EVT_STAMP_LO 0, 7, by unfold Sends Up; decide +kernel⟩,
    ⟨allOn [(F.TWN_STATUS_STATE, 1)], .host, 0, by unfold Sends Up; decide +kernel⟩,
    ⟨allOn [(F.TWN_STATUS_STATE, 4)], .supervisor, 0x1FFFFFC, by unfold Sends Up; decide +kernel⟩,
    ⟨allOn [], .host, 0x3FFFFFF, by unfold Sends Up; decide +kernel⟩,
    ⟨State.reset, .host, 0, 0xFFFF, by unfold Sends Up; decide +kernel⟩,
    ⟨State.reset, .supervisor, 0x1700000, 0xFFFF, by unfold Sends Up; decide +kernel⟩,
    ⟨State.reset, .beryl 0, 0x19FFFFF, 0xFFFF, by unfold Sends Up; decide +kernel⟩,
    ⟨State.reset, by unfold Up; decide +kernel⟩,
    ⟨State.reset, by unfold Up; decide +kernel⟩⟩

/-- States and operands that meet the hypotheses of `SubWordAccess`. -/
theorem witness_SubWordAccess :
    (∃ (s : State) (m : Master) (be : BitVec 4), Sends s m ∧ be ≠ 0xF) ∧
    (∃ (s : State) (m : Master) (addr : BitVec 26) (t : State) (w : Word), Sends s m ∧ Machine.exec (.rcRegisterRead m addr 0xF) s = .next t ∧ t.out.getLast? = some (.readData m (addr.toNat / 4 * 4) w)) :=
  ⟨⟨State.reset, .host, 0xE, by unfold Sends Up; decide +kernel⟩,
    ⟨setR State.reset (R.LANE_CV_COUNT 0) 0x12345678, .host, BitVec.ofNat 26 (R.LANE_CV_COUNT 0), after (execRcRegisterRead .host (BitVec.ofNat 26 (R.LANE_CV_COUNT 0)) 0xF (setR State.reset (R.LANE_CV_COUNT 0) 0x12345678)), 0x12345678, by exact ⟨⟨rfl, nofun⟩, rfl, by decide +kernel⟩⟩⟩

/-- States and operands that meet the hypotheses of `DmaRingCommandsComplete`. -/
theorem witness_DmaRingCommandsComplete :
    (∃ (s : State) (n : Fin 4096), Up s ∧ domOn s 27 = true ∧ flag s (F.DMA_RING_CTRL_EN n) = false ∧ ringState s n = 0) ∧
    (∃ (s : State) (n : Fin 4096), Up s ∧ domOn s 27 = true ∧ flag s (F.DMA_RING_CTRL_EN n) = false ∧ ringState s n = 0) ∧
    (∃ (s : State) (n : Fin 4096), Up s ∧ domOn s 27 = true ∧ flag s (F.DMA_RING_CTRL_EN n) = true) ∧
    (∃ (s : State) (n : Fin 4096), Up s ∧ domOn s 27 = true ∧ flag s (F.DMA_RING_CTRL_EN n) = true) ∧
    (∃ (s : State) (n : Fin 4096), Up s ∧ domOn s 27 = true ∧ flag s (F.DMA_RING_CTRL_EN n) = true) ∧
    (∃ (s : State) (n : Fin 4096), Up s ∧ domOn s 27 = true ∧ ringState s n = 3) ∧
    (∃ (s : State) (n : Fin 4096), Up s ∧ domOn s 27 = true ∧ ringState s n = 3) ∧
    (∃ (s : State) (n : Fin 4096), Up s ∧ domOn s 27 = true ∧ ringState s n = 1 ∧ flag s F.DMA_STATUS_FETCH_STOP = false ∧ flag s (F.DMA_RING_STATUS_ANCHOR_VALID n) = false ∧ ringEmpty s n = true) ∧
    (∃ (s : State) (n : Fin 4096), Up s ∧ domOn s 27 = true ∧ ringState s n = 2) ∧
    (∃ (s : State) (n : Fin 4096), Up s ∧ domOn s 27 = true ∧ ringState s n ≠ 1 ∧ ringState s n ≠ 2) ∧
    (∃ (s : State) (n : Fin 4096), Up s ∧ domOn s 27 = true ∧ ringState s n ≠ 1 ∧ ringState s n ≠ 2) ∧
    (∃ (s : State) (n : Fin 4096), Up s ∧ domOn s 27 = true ∧ (dmaRing s n).refetch ≠ 0 ∧ (dmaRing s n).fetching = false ∧ (dmaRing s n).descs = [] ∧ (ringState s n = 1 ∨ ringState s n = 2)) ∧
    (∃ (s : State) (n : Fin 4096), Up s ∧ domOn s 27 = true ∧ (dmaRing s n).refetch ≠ 0 ∧ (dmaRing s n).fetching = false ∧ (dmaRing s n).descs = [] ∧ (ringState s n = 1 ∨ ringState s n = 2)) ∧
    (∃ (s : State), Up s ∧ domOn s 27 = true) ∧
    (∃ (s : State), Up s) ∧
    (∃ (s : State), Up s ∧ (ringState s 7 = 2 ∧ domOn s 27 = true ∧ (s.dma.find 7).isSome = true ∧ (dmaRing s 7).descs = [])) ∧
    (∃ (s : State), Up s) :=
  ⟨⟨allOn [], 4095, by unfold Up; decide +kernel⟩,
    ⟨allOn [], 0, by unfold Up; decide +kernel⟩,
    ⟨ringOn 0 {}, 0, by unfold Up; decide +kernel⟩,
    ⟨allOn [(F.DMA_RING_CTRL_EN 5, 1), (F.DMA_RING_STATUS_STATE 5, 1)], 5, by unfold Up; decide +kernel⟩,
    ⟨allOn [(F.DMA_RING_CTRL_EN 5, 1), (F.DMA_RING_STATUS_STATE 5, 3)], 5, by unfold Up; decide +kernel⟩,
    ⟨allOn [(F.DMA_RING_CTRL_EN 5, 1), (F.DMA_RING_STATUS_STATE 5, 3)], 5, by unfold Up; decide +kernel⟩,
    ⟨allOn [(F.DMA_RING_CTRL_EN 5, 1), (F.DMA_RING_STATUS_STATE 5, 3), (F.DMA_STATUS_FETCH_STOP, 1)], 5, by unfold Up; decide +kernel⟩,
    ⟨allOn [(F.DMA_RING_CTRL_EN 4095, 1), (F.DMA_RING_STATUS_STATE 4095, 1)], 4095, by unfold Up; decide +kernel⟩,
    ⟨ringOn 0 {}, 0, by unfold Up; decide +kernel⟩,
    ⟨allOn [], 0, by unfold Up; decide +kernel⟩,
    ⟨allOn [(F.DMA_RING_CTRL_EN 5, 1), (F.DMA_RING_STATUS_STATE 5, 3)], 5, by unfold Up; decide +kernel⟩,
    ⟨ringOn 0 { refetch := 1 }, 0, by unfold Up; decide +kernel⟩,
    ⟨ringOn 0 { refetch := 2 } [(F.DMA_RING_STATUS_STATE 0, 1), (F.DMA_RING_STATUS_ANCHOR_VALID 0, 1)], 0, by unfold Up; decide +kernel⟩,
    ⟨ringOn 0 { fetching := true }, by unfold Up; decide +kernel⟩,
    ⟨set [(F.DMA_STATUS_FETCH_STOP, 1)], by unfold Up; decide +kernel⟩,
    ⟨{ allOn [(F.DMA_STATUS_FETCH_STOP, 1), (F.DMA_RING_STATUS_STATE 7, 2)] with dma := [(7, {})] }, by unfold Up; decide +kernel⟩,
    ⟨ringOn 0 { fetching := true }, by unfold Up; decide +kernel⟩⟩

/-- States and operands that meet the hypotheses of `DmaTransfersComplete`. -/
theorem witness_DmaTransfersComplete :
    (∃ (s : State) (n : Fin 4096) (bytes : List Byte) (d : DmaDesc), Up s ∧ domOn s 27 = true ∧ (dmaRing s n).fetching = true ∧ ringState s n = 2 ∧ bytes.length = 64 ∧ d = ⟨ringHead s n, bytes⟩ ∧ (DmaDesc.bad d = false ∧ descDomainOff s d = false ∧ descRefused s d = false)) ∧
    (∃ (s : State) (n : Fin 4096) (bytes : List Byte) (d : DmaDesc), Up s ∧ domOn s 27 = true ∧ (dmaRing s n).fetching = true ∧ ringState s n = 2 ∧ bytes.length = 64 ∧ d = ⟨ringHead s n, bytes⟩ ∧ (DmaDesc.bad d = true)) ∧
    (∃ (s : State) (n : Fin 4096) (bytes : List Byte) (d : DmaDesc), Up s ∧ domOn s 27 = true ∧ (dmaRing s n).fetching = true ∧ ringState s n = 2 ∧ bytes.length = 64 ∧ d = ⟨ringHead s n, bytes⟩) ∧
    (∃ (s : State) (n : Fin 4096) (d : DmaDesc) (rest : List DmaDesc), Up s ∧ domLive s 27 = true ∧ ringState s n = 2 ∧ (dmaRing s n).descs = d :: rest ∧ d.kind = 0 ∧ (dmaRing s n).begun = true) ∧
    (∃ (s : State) (n : Fin 4096) (d : DmaDesc) (rest : List DmaDesc), Up s ∧ domLive s 27 = true ∧ ringState s n = 2 ∧ (dmaRing s n).descs = d :: rest ∧ d.kind = 0 ∧ (dmaRing s n).begun = true) ∧
    (∃ (s : State) (n : Fin 4096) (data : List Byte) (d : DmaDesc) (rest : List DmaDesc), Up s ∧ domLive s 27 = true ∧ ringState s n = 2 ∧ (dmaRing s n).descs = d :: rest ∧ d.kind = 1 ∧ (dmaRing s n).begun = true ∧ s.badWords = [] ∧ data.length = d.addrs.length) ∧
    (∃ (s : State) (n : Fin 4096) (data : List Byte) (d : DmaDesc) (rest : List DmaDesc), Up s ∧ domLive s 27 = true ∧ ringState s n = 2 ∧ (dmaRing s n).descs = d :: rest ∧ d.kind = 1 ∧ (dmaRing s n).begun = true ∧ s.badWords = [] ∧ data.length = d.addrs.length) ∧
    (∃ (s : State) (n : Fin 4096) (kind : Fin 7), Up s ∧ ringState s n = 2 ∧ (dmaRing s n).descs ≠ [] ∧ (dmaRing s n).begun = true ∧ kind.val ≠ 0) ∧
    (∃ (s : State) (n : Fin 4096) (kind : Fin 7), Up s ∧ ringState s n = 2 ∧ (dmaRing s n).descs ≠ [] ∧ (dmaRing s n).begun = true ∧ kind.val ≠ 0) ∧
    (∃ (s : State) (n : Fin 4096) (kind : Fin 7), Up s ∧ ringState s n = 2 ∧ (dmaRing s n).descs ≠ [] ∧ (dmaRing s n).begun = true ∧ kind.val ≠ 0) ∧
    (∃ (s : State) (n : Fin 4096) (kind : Fin 7), Up s ∧ ringState s n = 2 ∧ (dmaRing s n).descs ≠ [] ∧ (dmaRing s n).begun = true ∧ kind.val ≠ 0) ∧
    (∃ (s : State) (x : BitVec 34) (k : Nat) (bs : List Byte), Up s ∧ domOn s 27 = true ∧ unitRead s 10 (bar2Addr s x.toNat) k = some bs) ∧
    (∃ (s : State) (x : BitVec 34) (k : Nat), Up s ∧ domOn s 27 = true ∧ unitRead s 10 (bar2Addr s x.toNat) k = none) ∧
    (∃ (s : State) (x : BitVec 34) (bs : List (Option Byte)), Up s ∧ domOn s 27 = true ∧ dramUsable s = true ∧ guardOk s 10 (bar2Addr s x.toNat) bs.length true = true ∧ s.badWords = []) ∧
    (∃ (s : State), Up s ∧ domOn s 27 = true) ∧
    (∃ (s : State), Up s ∧ domOn s 27 = true) :=
  ⟨⟨ringOn 0 { fetching := true }, 0, descOf 0 4096 0 1, ⟨0, descOf 0 4096 0 1⟩, by unfold Up; decide +kernel⟩,
    ⟨ringOn 0 { fetching := true }, 0, descOf 0 4096 0 0, ⟨0, descOf 0 4096 0 0⟩, by unfold Up; decide +kernel⟩,
    ⟨ringOn 0 { fetching := true, descs := [⟨14, descOf 0 4096 0 1⟩] } [(⟨R.DMA_RING_HEAD 0, 31, 0⟩, 15)], 0, descOf 0 4096 0 0, ⟨15, descOf 0 4096 0 0⟩, by unfold Up; decide +kernel⟩,
    ⟨ringOn 0 { begun := true, descs := [⟨0, descOf 0 4096 0 4⟩] }, 0, ⟨0, descOf 0 4096 0 4⟩, [], by unfold Up; decide +kernel⟩,
    ⟨ringOn 0 { begun := true, descs := [⟨0, descOf 0 4096 0 4⟩, ⟨1, descOf 0 8192 0 4⟩] }, 0, ⟨0, descOf 0 4096 0 4⟩, [⟨1, descOf 0 8192 0 4⟩], by unfold Up; decide +kernel⟩,
    ⟨ringOn 0 { begun := true, descs := [⟨0, descOf 1 4096 64 4⟩] }, 0, [1, 2, 3, 0], ⟨0, descOf 1 4096 64 4⟩, [], by unfold Up; decide +kernel⟩,
    ⟨ringOn 0 { begun := true, descs := [⟨0, descOf 1 4096 64 4⟩, ⟨1, descOf 0 8192 0 4⟩] }, 0, [1, 2, 3, 0], ⟨0, descOf 1 4096 64 4⟩, [⟨1, descOf 0 8192 0 4⟩], by unfold Up; decide +kernel⟩,
    ⟨ringOn 0 { begun := true, descs := [⟨0, descOf 1 4096 64 4⟩] }, 0, 1, by unfold Up; decide +kernel⟩,
    ⟨ringOn 0 { begun := true, descs := [⟨0, descOf 1 4096 64 4⟩] }, 0, 4, by unfold Up; decide +kernel⟩,
    ⟨ringOn 0 { begun := true, descs := [⟨0, descOf 1 4096 64 4⟩] }, 0, 5, by unfold Up; decide +kernel⟩,
    ⟨ringOn 0 { begun := true, descs := [⟨0, descOf 1 4096 64 4⟩] }, 0, 6, by unfold Up; decide +kernel⟩,
    ⟨ringOn 0 {}, 5, 2, [0, 0], by unfold Up; decide +kernel⟩,
    ⟨allOn [], 5, 2, by unfold Up; decide +kernel⟩,
    ⟨ringOn 0 {} [(F.DMA_BAR2_WINDOW_BASE_GIB, 8)], 0x3FFFFFFD, [some 1, none, some 3], by unfold Up; decide +kernel⟩,
    ⟨ringOn 0 {}, by unfold Up; decide +kernel⟩,
    ⟨ringOn 0 {}, by unfold Up; decide +kernel⟩⟩

/-- States and operands that meet the hypotheses of `EventCommandsComplete`. -/
theorem witness_EventCommandsComplete :
    (∃ (s : State), Up s) ∧
    (∃ (s : State), Up s) ∧
    (∃ (s : State) (m : Nat) (c : Nat) (i : Fin 96), Up s ∧ c < 64 ∧ getPairB s (R.EVT_CON_MASK_LO i) c = true ∧ (m - 1, c) ∈ s.evt.fired ∧ 1 ≤ m ∧ (m, i.val) ∉ s.evt.active ∧ flag s (F.EVT_CON_CFG_EN i) = true) ∧
    (∃ (s : State) (m : Nat) (c : Nat) (i : Fin 96), Up s ∧ c < 64 ∧ getPairB s (R.EVT_CON_MASK_LO i) c = true ∧ (m - 1, c) ∈ s.evt.fired ∧ 1 ≤ m ∧ (m, i.val) ∉ s.evt.active ∧ flag s (F.EVT_CON_CFG_EN i) = true) ∧
    (∃ (s : State) (m : Nat) (c : Nat) (i : Fin 96), Up s ∧ c < 64 ∧ getPairB s (R.EVT_CON_MASK_LO i) c = true ∧ (m - 1, c) ∈ s.evt.fired ∧ 1 ≤ m ∧ (m, i.val) ∉ s.evt.active ∧ flag s (F.EVT_CON_CFG_EN i) = true) ∧
    (∃ (s : State) (m : Nat) (c : Nat) (i : Fin 96), Up s ∧ c < 64 ∧ getPairB s (R.EVT_CON_MASK_LO i) c = true ∧ (m - 1, c) ∈ s.evt.fired ∧ 1 ≤ m ∧ (m, i.val) ∉ s.evt.active ∧ flag s (F.EVT_CON_CFG_EN i) = true) ∧
    (∃ (s : State) (m : Nat) (c : Nat) (i : Fin 96), Up s ∧ c < 64 ∧ getPairB s (R.EVT_CON_MASK_LO i) c = true ∧ (m - 1, c) ∈ s.evt.fired ∧ 1 ≤ m ∧ (m, i.val) ∉ s.evt.active ∧ flag s (F.EVT_CON_CFG_EN i) = true) ∧
    (∃ (s : State) (m : Nat) (c : Nat) (i : Fin 96), Up s ∧ c < 64 ∧ getPairB s (R.EVT_CON_MASK_LO i) c = true ∧ (m - 1, c) ∈ s.evt.fired ∧ 1 ≤ m ∧ (m, i.val) ∉ s.evt.active ∧ flag s (F.EVT_CON_CFG_EN i) = true) ∧
    (∃ (s : State) (m : Nat) (c : Nat) (i : Fin 96), Up s ∧ c < 64 ∧ getPairB s (R.EVT_CON_MASK_LO i) c = true ∧ (m - 1, c) ∈ s.evt.fired ∧ 1 ≤ m ∧ (m, i.val) ∉ s.evt.active ∧ flag s (F.EVT_CON_CFG_EN i) = true) ∧
    (∃ (s : State), Up s) ∧
    (∃ (s : State) (k : Fin 8) (elapsed : Nat), Up s ∧ getR s (R.EVT_TIMER k) ≠ 0 ∧ getR s (R.EVT_TIMER k) ≤ elapsed) ∧
    (∃ (s : State) (k : Fin 8) (rising : Bool) (time : Nat) (held : Nat), Up s ∧ time < 2 ^ 64 ∧ flag s (F.EVT_EVIO_CFG_DIR k) = false ∧ max 2 (getF s (F.EVT_EVIO_CFG_FILTER k)) ≤ held ∧ bitOf (getF s (F.EVT_EVIO_CFG_EDGE k)) (if rising = true then 0 else 1) = true) ∧
    (∃ (s : State) (k : Fin 8) (rising : Bool) (time : Nat) (held : Nat), Up s ∧ time < 2 ^ 64 ∧ flag s (F.EVT_EVIO_CFG_DIR k) = false ∧ max 2 (getF s (F.EVT_EVIO_CFG_FILTER k)) ≤ held ∧ bitOf (getF s (F.EVT_EVIO_CFG_EDGE k)) (if rising = true then 0 else 1) = true) ∧
    (∃ (s : State) (k : Fin 8) (cycle : Nat) (m : Nat), Up s ∧ s.evt.pulsing.find k = some m ∧ 2 * m + max 1 (getR s (R.EVT_EVIO_WIDTH k)) ≤ cycle) ∧
    (∃ (s : State), Up s) ∧
    (∃ (s : State), Up s) ∧
    (∃ (s : State), Up s) :=
  ⟨⟨{ channel 3 [] with pulses := [32, 32, 5, 32] }, by unfold Up; decide +kernel⟩,
    ⟨{ channel 63 [] with pulses := [32] }, by unfold Up; decide +kernel⟩,
    ⟨consumer 0 [], 5, 3, 0, by unfold Up; decide +kernel⟩,
    ⟨consumer 15 [dom 4 0], 5, 3, 15, by unfold Up; decide +kernel⟩,
    ⟨consumer 48 [(reg R.EVT_GROUP_EN 0)], 5, 3, 48, by unfold Up; decide +kernel⟩,
    ⟨consumer 63 [], 5, 3, 63, by unfold Up; decide +kernel⟩,
    ⟨consumer 79 [], 5, 3, 79, by unfold Up; decide +kernel⟩,
    ⟨consumer 20 [], 5, 3, 20, by unfold Up; decide +kernel⟩,
    ⟨consumer 95 [], 5, 3, 95, by unfold Up; decide +kernel⟩,
    ⟨State.reset, by unfold Up; decide +kernel⟩,
    ⟨set [reg (R.EVT_TIMER 7) 1], 7, 1, by unfold Up; decide +kernel⟩,
    ⟨{ set [(F.EVT_EVIO_CFG_EDGE 7, 1)] with evt := { lastEdge := [(7, 90)] } }, 7, true, 5, 9999, by unfold Up; decide +kernel⟩,
    ⟨{ set [(F.EVT_EVIO_CFG_EDGE 7, 2), (F.EVT_EVIO_CFG_MIN_PERIOD 7, 11)] with evt := { lastEdge := [(7, 90)] } }, 7, false, 5, 9999, by unfold Up; decide +kernel⟩,
    ⟨{ State.reset with evt := { pulsing := [(2, 0), (7, 4)] } }, 7, 1000000, 4, by unfold Up; decide +kernel⟩,
    ⟨State.reset, by unfold Up; decide +kernel⟩,
    ⟨State.reset, by unfold Up; decide +kernel⟩,
    ⟨set [(F.MTX_SLICE_PCIE_OUT, 3), (F.MTX_SLICE_DRAM, 0)], by unfold Up; decide +kernel⟩⟩

/-- States and operands that meet the hypotheses of `RateLimitedChannels`. -/
theorem witness_RateLimitedChannels :
    (∃ (s : State) (n : Nat) (k : Nat) (c : Nat) (p : Nat), Up s ∧ c < 64 ∧ getF s (F.EVT_CH_CFG_SOURCE c) ∈ s.pulses.take k ∧ flag s F.EVT_CTRL_EN = true ∧ flag s (F.EVT_CH_CFG_EN c) = true ∧ groupEnabled s n (c / 8) = true ∧ s.evt.lastFire.find c = some p) ∧
    (∃ (s : State) (n : Nat) (k : Nat) (c : Nat) (p : Nat), Up s ∧ c < 64 ∧ getF s (F.EVT_CH_CFG_SOURCE c) ∈ s.pulses.take k ∧ flag s F.EVT_CTRL_EN = true ∧ flag s (F.EVT_CH_CFG_EN c) = true ∧ groupEnabled s n (c / 8) = true ∧ s.evt.lastFire.find c = some p) :=
  ⟨⟨{ channel 3 [(F.EVT_CH_CFG_RATE 3, 5)] with pulses := [32, 7], evt := { lastFire := [(3, 10)] } }, 14, 2, 3, 10, by unfold Up; decide +kernel⟩,
    ⟨{ channel 3 [(F.EVT_CH_CFG_RATE 3, 5)] with pulses := [32, 7], evt := { lastFire := [(3, 10)] } }, 15, 2, 3, 10, by unfold Up; decide +kernel⟩⟩

/-- States and operands that meet the hypotheses of `AccumulatorsSaturate`. -/
theorem witness_AccumulatorsSaturate :
    (∃ (s : State) (k : Fin 4) (acc : Fin 4) (rs : Fin 16) (rt : Fin 16) (c : Instr) (m : BrlMac) (x : Int), Up s ∧ (c, m) ∈ [(Instr.mac k acc rs rt, BrlMac.mac), (.msu k acc rs rt, .msu)] ∧ x = (brlCore s k).acc acc + (macTerms m ((brlCore s k).slot rs) ((brlCore s k).slot rt)).1 ∧ Landed s k (64 + acc) ∧ Landed s k 52 ∧ CoreRuns s k (.pm (some m) acc rs rt ⟨.none, .none⟩)) ∧
    (∃ (s : State) (k : Fin 4) (acc : Fin 4) (rs : Fin 16) (rt : Fin 16) (c : Instr) (m : BrlMac) (x : Int), Up s ∧ (c, m) ∈ [(Instr.mac k acc rs rt, BrlMac.mac), (.msu k acc rs rt, .msu)] ∧ x = (brlCore s k).acc acc + (macTerms m ((brlCore s k).slot rs) ((brlCore s k).slot rt)).1 ∧ Landed s k (64 + acc) ∧ Landed s k 52 ∧ CoreRuns s k (.pm (some m) acc rs rt ⟨.none, .none⟩)) ∧
    (∃ (s : State) (k : Fin 4) (p : Fin 2) (rs : Fin 16) (rt : Fin 16) (mv : BrlMoves) (c : Instr) (m : BrlMac) (x : Int) (y : Int), Up s ∧ (c, m) ∈ [(Instr.mac2 k p rs rt mv, BrlMac.mac2), (.msu2 k p rs rt mv, .msu2), (.cmac k p rs rt mv, .cmac), (.cmsu k p rs rt mv, .cmsu), (.cmacj k p rs rt mv, .cmacj), (.cmacz k p rs rt mv, .cmacz)] ∧ x = (if m = .cmacz then 0 else (brlCore s k).acc (2 * p.val)) + (macTerms m ((brlCore s k).slot rs) ((brlCore s k).slot rt)).1 ∧ y = (if m = .cmacz then 0 else (brlCore s k).acc (2 * p.val + 1)) + (macTerms m ((brlCore s k).slot rs) ((brlCore s k).slot rt)).2 ∧ Landed s k (64 + 2 * p.val) ∧ Landed s k (65 + 2 * p.val) ∧ Landed s k 52 ∧ CoreRuns s k (.pm (some m) (2 * p.val) rs rt mv)) :=
  ⟨⟨core 0 [(1, 0x7FFF), (2, 0x7FFF), (67, 0x7FFFFFFFFE)], 0, 3, 1, 2, .mac 0 3 1 2, .mac, 550829490175, by unfold Up CoreRuns Landed; decide +kernel⟩,
    ⟨core 0 [(1, 0x7FFF), (2, 0x7FFF), (67, 0x8000000001)], 0, 3, 1, 2, .msu 0 3 1 2, .msu, -550829490176, by unfold Up CoreRuns Landed; decide +kernel⟩,
    ⟨core 0 [(1, 0x7FFF0001), (2, 0x7FFF0001), (66, 0x7FFFFFFFFE), (67, 5)], 0, 1, 1, 2, ⟨.none, .none⟩, .mac2 0 1 1 2 ⟨.none, .none⟩, .mac2, 550829490175, 6, by unfold Up CoreRuns Landed; decide +kernel⟩⟩

/-- States and operands that meet the hypotheses of `CompressionCommandsComplete`. -/
theorem witness_CompressionCommandsComplete :
    (∃ (s : State) (n : Fin 4096) (rest : List Nat) (level : Nat), Up s ∧ domOn s 28 = true ∧ s.cmp.current = none ∧ s.cmp.queue = n.val :: rest ∧ level = (if flag s F.PWR_STATUS_THROTTLE = true then min 3 (max 1 (min 9 (getF s F.CMP_CTRL_LEVEL))) else max 1 (min 9 (getF s F.CMP_CTRL_LEVEL)))) ∧
    (∃ (s : State) (n : Fin 4096) (rest : List Nat) (level : Nat), Up s ∧ domOn s 28 = true ∧ s.cmp.current = none ∧ s.cmp.queue = n.val :: rest ∧ level = (if flag s F.PWR_STATUS_THROTTLE = true then min 3 (max 1 (min 9 (getF s F.CMP_CTRL_LEVEL))) else max 1 (min 9 (getF s F.CMP_CTRL_LEVEL)))) ∧
    (∃ (s : State) (n : Fin 4096) (table : List Byte) (bufs : List ChainEntry) (level : Nat) (d : DmaDesc) (rest : List DmaDesc) (ok : Bool) (flush : Bool) (body : List Byte) (trailer : List Byte), Up s ∧ domLive s 28 = true ∧ ringState s n = 2 ∧ s.cmp.current = some (n.val, level) ∧ (dmaRing s n).descs = d :: rest ∧ chainBuffers 256 (chainTable table) = (bufs, ok) ∧ flush = flag s F.CMP_CTRL_FLUSH_PER_RUN ∧ (capsule level d.user flush (0 < (badLines s d.addrs).length) (descRead s d.addrs) (deflateStream level (max 1 (getF s F.CMP_CTRL_BLOCK_KIB)) (if flush = true then d.runs.map fun _ => d.len0 else []) (descRead s d.addrs)) = (body, trailer))) ∧
    (∃ (s : State), Up s) ∧
    (∃ (s : State), Up s) ∧
    (∃ (s : State), Up s ∧ (flag s F.CMP_STATUS_DEC_BUSY = false ∧ domOn s 28 = false)) ∧
    (∃ (s : State) (a : Nat) (n : Nat) (dst : Nat) (limit : Nat) (raw : Bool), Up s ∧ domLive s 28 = true ∧ s.cmp.job = some (a, n, dst, limit, raw) ∧ (decDestOk s dst limit = false)) ∧
    (∃ (s : State) (a : Nat) (n : Nat) (dst : Nat) (limit : Nat) (raw : Bool), Up s ∧ domLive s 28 = true ∧ s.cmp.job = some (a, n, dst, limit, raw) ∧ (decDestOk s dst limit = true)) :=
  ⟨⟨{ ringOn 5 {} with cmp := { queue := [5, 0] } }, 5, [0], 6, by unfold Up; decide +kernel⟩,
    ⟨{ ringOn 4095 {} [(F.PWR_STATUS_THROTTLE, 1), (F.CMP_CTRL_LEVEL, 9)] with cmp := { queue := [4095] } }, 4095, [], 3, by unfold Up; decide +kernel⟩,
    ⟨packing, 0, leBytes 8 8192 ++ leBytes 4 4096 ++ leBytes 4 1, [⟨8192, 4096, true⟩], 6, ⟨0, descOf 3 4096 0 4⟩, [], true, flag packing F.CMP_CTRL_FLUSH_PER_RUN, packed.1, packed.2, by exact ⟨rfl, by decide +kernel, by decide +kernel, rfl, rfl, rfl, rfl, rfl⟩⟩,
    ⟨ringOn 0 {}, by unfold Up; decide +kernel⟩,
    ⟨ringOn 0 {} [(F.CMP_STATUS_DEC_BUSY, 1)], by unfold Up; decide +kernel⟩,
    ⟨State.reset, by unfold Up; decide +kernel⟩,
    ⟨{ ringOn 0 {} with cmp := { job := some (0, 1, 0, 64, true) } }, 0, 1, 0, 64, true, by unfold Up; decide +kernel⟩,
    ⟨{ ringOn 0 {} with cmp := { job := some (0, 1, 60 * 2 ^ 30, 64, true) }, dram := [(0, 3)] }, 0, 1, 60 * 2 ^ 30, 64, true, by unfold Up; decide +kernel⟩⟩

/-- States and operands that meet the hypotheses of `PowerDomainCommandsComplete`. -/
theorem witness_PowerDomainCommandsComplete :
    (∃ (s : State) (m : Master), Sends s m) ∧
    (∃ (s : State) (m : Master), Sends s m) ∧
    (∃ (s : State) (m : Master), Sends s m) ∧
    (∃ (s : State) (d : Fin 30), Up s ∧ domState s d = 3 ∧ quiesced s d = true) ∧
    (∃ (s : State) (d : Fin 30), Up s ∧ domState s d = 3 ∧ quiesced s d = true) ∧
    (∃ (s : State) (d : Fin 30), Up s ∧ domState s d = 3 ∧ quiesced s d = true) ∧
    (∃ (s : State) (d : Fin 30) (waited : Nat), Up s ∧ domState s d = 3 ∧ max 1 (getR s R.PWR_QUIESCE_TIMEOUT % 2 ^ 16) ≤ waited) ∧
    (∃ (s : State) (d : Fin 30) (waited : Nat), Up s ∧ domState s d = 3 ∧ max 1 (getR s R.PWR_QUIESCE_TIMEOUT % 2 ^ 16) ≤ waited) ∧
    (∃ (s : State) (d : Fin 30), Up s ∧ 1 ≤ d.val ∧ domState s d = 5) ∧
    (∃ (s : State) (d : Fin 30), Up s ∧ 1 ≤ d.val ∧ domState s d = 5) ∧
    (∃ (s : State) (d : Fin 30), Up s ∧ 1 ≤ d.val ∧ domState s d = 1) ∧
    (∃ (s : State) (d : Fin 30), Up s ∧ 1 ≤ d.val ∧ domState s d = 1) ∧
    (∃ (s : State) (temps : List (BitVec 16)) (x : Int), Up s ∧ temps.length = 16 ∧ x = hottest (temps.map (·.toInt))) ∧
    (∃ (s : State) (temps : List (BitVec 16)) (x : Int), Up s ∧ temps.length = 16 ∧ x = hottest (temps.map (·.toInt))) ∧
    (∃ (s : State) (temps : List (BitVec 16)) (x : Int), Up s ∧ temps.length = 16 ∧ x = hottest (temps.map (·.toInt))) ∧
    (∃ (s : State) (temps : List (BitVec 16)) (x : Int), Up s ∧ temps.length = 16 ∧ x = hottest (temps.map (·.toInt))) :=
  ⟨⟨State.reset, .host, by unfold Sends Up; decide +kernel⟩,
    ⟨set [reg R.PWR_REQ 2, dom 1 2], .supervisor, by unfold Sends Up; decide +kernel⟩,
    ⟨set [dom 1 0], .host, by unfold Sends Up; decide +kernel⟩,
    ⟨allOn [dom 12 3, (reg R.PWR_REQ 0)], 12, by unfold Up; decide +kernel⟩,
    ⟨allOn [dom 27 3], 27, by unfold Up; decide +kernel⟩,
    ⟨allOn [dom 25 3, (reg R.PWR_REQ 0x7FFFFFFE), (F.MEM_STATUS_INIT_DONE, 1)], 25, by unfold Up; decide +kernel⟩,
    ⟨allOn [dom 1 3, (F.BRL_STATUS_STATE 0, 1)], 1, 0xFFFF, by unfold Up; decide +kernel⟩,
    ⟨allOn [dom 29 3, reg R.PWR_QUIESCE_TIMEOUT 0], 29, 1, by unfold Up; decide +kernel⟩,
    ⟨set [dom 29 5, (reg R.PWR_REQ 0)], 29, by unfold Up; decide +kernel⟩,
    ⟨set [dom 1 5, (reg R.PWR_REQ 2)], 1, by unfold Up; decide +kernel⟩,
    ⟨set [dom 29 1, (reg R.PWR_REQ 0x20000000)], 29, by unfold Up; decide +kernel⟩,
    ⟨set [dom 1 1, (reg R.PWR_REQ 0)], 1, by unfold Up; decide +kernel⟩,
    ⟨State.reset, List.replicate 15 0 ++ [1840], 1840, by unfold Up; decide +kernel⟩,
    ⟨set [(F.PWR_STATUS_WARN, 1), (F.PWR_STATUS_THROTTLE, 1)], List.replicate 16 0xFFF0, -16, by unfold Up; decide +kernel⟩,
    ⟨set [(F.PWR_THERM_CFG_WARN, 85), (F.PWR_THERM_CFG_THROTTLE, 100)], 1359 :: List.replicate 15 0, 1359, by unfold Up; decide +kernel⟩,
    ⟨set [(F.PWR_THERM_CFG_WARN, 85), (F.PWR_THERM_CFG_THROTTLE, 100), (F.PWR_STATUS_WARN, 1)], 1600 :: List.replicate 15 0, 1600, by unfold Up; decide +kernel⟩⟩

/-- States and operands that meet the hypotheses of `RailsAndResetsComplete`. -/
theorem witness_RailsAndResetsComplete :
    (∃ (s : State), s.pwr.vin = false) ∧
    (∃ (s : State), s.pwr.vin = false) ∧
    (∃ (s : State), s.pwr.vin = true) ∧
    (∃ (s : State) (rail : Fin 7), (railOn s rail = true)) ∧
    (∃ (s : State) (rail : Fin 7), (railOn s rail = true)) ∧
    (∃ (s : State) (rail : Fin 7), (railOn s rail = true)) ∧
    (∃ (s : State) (rail : Fin 7), (railOn s rail = true)) ∧
    (∃ (s : State) (rail : Fin 7), (railOn s rail = false)) ∧
    (∃ (s : State), railsGood s = true ∧ s.pwr.pwrgood = false) ∧
    (∃ (s : State), vioRefOn s = true) ∧
    (∃ (s : State), s.pwr.resetN = true) ∧
    (∃ (s : State), s.pwr.resetN = true) ∧
    (∃ (s : State), s.pwr.resetN = false ∧ s.pwr.vin = true ∧ s.pwr.latched = false) ∧
    (∃ (s : State), s.pwr.resetN = false ∧ s.pwr.vin = true ∧ s.pwr.latched = false) ∧
    (∃ (s : State) (m : Master), Sends s m) ∧
    (∃ (s : State) (m : Master), Sends s m) ∧
    (∃ (s : State) (m : Master), Sends s m) ∧
    (∃ (s : State), Up s) :=
  ⟨⟨powerless false true, by decide +kernel⟩,
    ⟨{ powerless false false with pwr := { vin := false, resetN := false, pwrgood := false, railCause := true } }, by decide +kernel⟩,
    ⟨State.reset, by decide +kernel⟩,
    ⟨State.reset, 6, by decide +kernel⟩,
    ⟨State.reset, 5, by decide +kernel⟩,
    ⟨allOn [], 4, by decide +kernel⟩,
    ⟨allOn [], 0, by decide +kernel⟩,
    ⟨powerless false false, 6, by decide +kernel⟩,
    ⟨powerless true true, by decide +kernel⟩,
    ⟨State.reset, by decide +kernel⟩,
    ⟨allOn [(F.BRL_STATUS_STATE 0, 1)], by decide +kernel⟩,
    ⟨powerless false true, by decide +kernel⟩,
    ⟨powerless true false, by decide +kernel⟩,
    ⟨powerless true false, by decide +kernel⟩,
    ⟨allOn [], .host, by unfold Sends Up; decide +kernel⟩,
    ⟨allOn [(F.BRL_STATUS_STATE 0, 1)], .supervisor, by unfold Sends Up; decide +kernel⟩,
    ⟨State.reset, .host, by unfold Sends Up; decide +kernel⟩,
    ⟨allOn [(F.BRL_STATUS_STATE 0, 1)], by unfold Up; decide +kernel⟩⟩

/-- States and operands that meet the hypotheses of `CodeViolationsCount`. -/
theorem witness_CodeViolationsCount :
    (∃ (s : State), Up s) ∧
    (∃ (s : State), Up s) :=
  ⟨⟨setR State.reset (R.LANE_CV_COUNT 55) 0xFFFFFFFF, by unfold Up; decide +kernel⟩,
    ⟨State.reset, by unfold Up; decide +kernel⟩⟩

/-- States and operands that meet the hypotheses of `StepTakesTheFrontCommand`. -/
theorem witness_StepTakesTheFrontCommand :
    (∃ (s : State), s.pending = []) :=
  ⟨State.reset, by decide +kernel⟩

/-- States and operands that meet the hypotheses of `EveryStepKeepsSound`. -/
theorem witness_EveryStepKeepsSound :
    (∃ (s : State) (t : State), s.Sound ∧ Machine.step s = .next t) ∧
    (∃ (s : State) (t : State), s.Sound ∧ Machine.step s = .next t) :=
  ⟨⟨{ State.reset with pending := [.matrixLateResponse] }, after (execMatrixLateResponse State.reset), by exact ⟨⟨⟨List.Pairwise.nil, nofun⟩, List.Pairwise.nil, List.Pairwise.nil, rfl⟩, rfl⟩⟩,
    ⟨{ State.reset with pending := [.vinFall, .vinRise] }, after (execVinFall { State.reset with pending := [.vinRise] }), by exact ⟨⟨⟨List.Pairwise.nil, nofun⟩, List.Pairwise.nil, List.Pairwise.nil, rfl⟩, rfl⟩⟩⟩

/-- States and operands that meet the hypotheses of `NothingActsWhileDown`. -/
theorem witness_NothingActsWhileDown :
    (∃ (c : Instr) (s : State), s.arch.up = false ∧ (∀ rail, c ≠ .railFault rail) ∧ (∀ src test dimms, c ≠ .resetNRelease src ⟨test, dimms⟩) ∧ c ∉ [Instr.vinRise, .vinFall, .pwrgoodReleased, .vioRefFoldback, .vioRefLoadFall, .resetNAssert]) ∧
    (∃ (c : Instr) (s : State), s.arch.up = false ∧ (∀ rail, c ≠ .railFault rail) ∧ (∀ src test dimms, c ≠ .resetNRelease src ⟨test, dimms⟩) ∧ c ∉ [Instr.vinRise, .vinFall, .pwrgoodReleased, .vioRefFoldback, .vioRefLoadFall, .resetNAssert]) :=
  ⟨⟨.registerWrite .host 0 5 0xF, powerless true false, by exact ⟨rfl, nofun, nofun, by decide +kernel⟩⟩,
    ⟨.chipReset .host 0x5253, powerless false true, by exact ⟨rfl, nofun, nofun, by decide +kernel⟩⟩⟩

/-- States and operands that meet the hypotheses of `PpsEdgeSetsTheTime`. -/
theorem witness_PpsEdgeSetsTheTime :
    (∃ (s : State) (x : Fin 2) (falling : Bool) (time : Nat) (held : Nat), Up s ∧ time < 2 ^ 64 ∧ flag s (F.CLK_PPS_CFG_FALLING x) = falling ∧ max 2 (getF s (F.CLK_PPS_CFG_FILTER x)) ≤ held ∧ s.clk.ppsEdge.find x = none ∧ selectedSource s = 3 + x.val ∧ s.clk.setArmed = true ∧ s.counter.toNat = time / 20) ∧
    (∃ (s : State), Up s ∧ flag s F.PTP_CTRL_EN = false ∧ flag s F.CLK_CTRL_SET_NOW = false) ∧
    (∃ (s : State), Up s ∧ flag s F.PTP_CTRL_EN = false ∧ flag s F.CLK_CTRL_SET_NOW = true) :=
  ⟨⟨{ clock 7 0x10004 2 [(F.CLK_STATUS_SEL_VALID, 1), (F.CLK_STATUS_SELECTED, 7), (F.CLK_PPS_CFG_FALLING 1, 0), reg R.CLK_SET_TIME_LO 77] with clk := { table := [0, 0, 0, 0, 0, 0, 0, 0x10004], setArmed := true }, counter := 100 }, 1, false, 2019, 99, by unfold Up; decide +kernel⟩,
    ⟨set [reg R.CLK_SET_TIME_LO 9], by unfold Up; decide +kernel⟩,
    ⟨set [reg R.CLK_SET_TIME_LO 9, (F.CLK_CTRL_SET_NOW, 1)], by unfold Up; decide +kernel⟩⟩

/-- States and operands that meet the hypotheses of `SteeringWritesTakeEffect`. -/
theorem witness_SteeringWritesTakeEffect :
    (∃ (s : State) (m : Master), Sends s m ∧ dpllState s = 3 ∧ (m = .timekeeper ∧ flag s F.CLK_CTRL_STEER_OWNER = false) ∨ (m ≠ .supervisor ∧ m ≠ .timekeeper ∧ flag s F.CLK_CTRL_STEER_OWNER = true)) ∧
    (∃ (s : State) (m : Master), Sends s m ∧ dpllState s = 3 ∧ (m = .timekeeper ∧ flag s F.CLK_CTRL_STEER_OWNER = false) ∨ (m ≠ .supervisor ∧ m ≠ .timekeeper ∧ flag s F.CLK_CTRL_STEER_OWNER = true)) ∧
    (∃ (s : State) (m : Master) (amount : Word) (v : Int), Sends s m ∧ (m = .timekeeper ∨ (flag s F.CLK_CTRL_STEER_OWNER = true ∧ (dpllState s = 2 ∨ dpllState s = 5))) ∧ v = toSigned 32 (getR s R.CLK_PHASE_REMAIN) + amount.toInt ∧ -(2 ^ 31) ≤ v ∧ v < 2 ^ 31) ∧
    (∃ (s : State) (m : Master) (amount : Word) (v : Int), Sends s m ∧ (m = .timekeeper ∨ (flag s F.CLK_CTRL_STEER_OWNER = true ∧ (dpllState s = 2 ∨ dpllState s = 5))) ∧ v = toSigned 32 (getR s R.CLK_PHASE_REMAIN) + amount.toInt ∧ -(2 ^ 31) ≤ v ∧ v < 2 ^ 31) :=
  ⟨⟨clock 7 0x10006 3 [], .timekeeper, by unfold Sends Up; decide +kernel⟩,
    ⟨clock 7 0x10006 3 [(F.CLK_CTRL_STEER_OWNER, 1)], .host, by unfold Sends Up; decide +kernel⟩,
    ⟨clock 7 0x10006 5 [(F.CLK_CTRL_STEER_OWNER, 1), reg R.CLK_PHASE_REMAIN 0x7FFFFFFF], .host, 0xFFFFFFFF, 2147483646, by unfold Sends Up; decide +kernel⟩,
    ⟨clock 7 0x10006 1 [reg R.CLK_PHASE_REMAIN 0x80000001], .timekeeper, 0xFFFFFFFF, -2147483648, by unfold Sends Up; decide +kernel⟩⟩

/-- States and operands that meet the hypotheses of `TimeOutputsPulse`. -/
theorem witness_TimeOutputsPulse :
    (∃ (s : State) (time : Nat) (off : Nat), Up s ∧ off = 4 * getF s ⟨R.CLK_PPS_OUT_CFG, 31, 16⟩ ∧ flag s F.CLK_CTRL_PPS_OUT_EN = true ∧ outputsLive s = true ∧ s.counter.toNat = time ∧ off ≤ 5 * time ∧ (5 * time - off) % 4000000000 < 5) ∧
    (∃ (s : State) (time : Nat), Up s ∧ s.counter.toNat = time ∧ s.clk.ppsOut = true ∧ s.clk.ppsRise + pulseWidth s 0 ≤ (time : Int)) ∧
    (∃ (s : State) (time : Nat), Up s ∧ s.counter.toNat = time ∧ s.clk.frameOut = true ∧ s.clk.frameRise + pulseWidth s 1 ≤ (time : Int)) :=
  ⟨⟨{ set [(F.CLK_STATUS_TIME_VALID, 1), (F.CLK_CTRL_PPS_OUT_EN, 1), (⟨R.CLK_PPS_OUT_CFG, 31, 16⟩, 5)] with counter := 800000004 }, 800000004, 20, by unfold Up; decide +kernel⟩,
    ⟨{ set [] with clk := { ppsOut := true, ppsRise := -100000000 }, counter := 20 }, 20, by unfold Up; decide +kernel⟩,
    ⟨{ set [] with clk := { frameOut := true, frameRise := -100000000 }, counter := 20 }, 20, by unfold Up; decide +kernel⟩⟩

/-- States and operands that meet the hypotheses of `LoadsAreTakenAndApplied`. -/
theorem witness_LoadsAreTakenAndApplied :
    (∃ (s : State) (tag : Word) (off : DWord) (len : Word) (bs : List Byte), Up s ∧ Served s .host 1 tag.toNat (leBytes 8 off.toNat ++ leBytes 4 len.toNat) ∧ s.str.load = none ∧ s.arch.running = false ∧ imageAt s off.toNat len.toNat = true ∧ unitRead s 10 off.toNat len.toNat = some bs) ∧
    (∃ (s : State) (tag : Word) (off : DWord) (len : Word) (region : Byte) (bs : List Byte), Up s ∧ Served s .host 2 tag.toNat (leBytes 8 off.toNat ++ leBytes 4 len.toNat ++ leBytes 1 region.toNat) ∧ s.str.load = none ∧ imageAt s off.toNat len.toNat = true ∧ region.toNat ≤ 12 ∧ unitRead s 10 off.toNat len.toNat = some bs) ∧
    (keyBlank = true → ∃ (s : State) (l : StrLoad), Up s ∧ s.str.load = some l ∧ (loadFails (setStr (setF s F.STR_STATUS_LOADING 0) fun x => { x with load := none }) l = none)) :=
  ⟨⟨idle [(F.MEM_CONFIG_GIB, 64), (F.MEM_CONFIG_CHANNELS, 8), (F.MEM_STATUS_INIT_DONE, 1)], 1, 0xFFFEFFFFC, 4, [0, 0, 0, 0], by unfold Up Served; decide +kernel⟩,
    ⟨idle [(F.MEM_CONFIG_GIB, 64), (F.MEM_CONFIG_CHANNELS, 8), (F.MEM_STATUS_INIT_DONE, 1)], 1, 0xF00100000, 4, 12, [0, 0, 0, 0], by unfold Up Served; decide +kernel⟩,
    fun hk => ⟨bundleLoad, ⟨1, 9, none, bundle, none⟩, by exact ⟨rfl, rfl, bundleLoaded_passes hk⟩⟩⟩

/-- States and operands that meet the hypotheses of `UpdateIsProgrammed`. -/
theorem witness_UpdateIsProgrammed :
    (keyBlank = true → ∃ (s : State) (tag : Word) (off : DWord) (len : Word) (fa : BitVec 48) (fr : BitVec 48) (timeout : BitVec 16) (relay : Bool) (force : Bool) (sch : StrSchedule) (bs : List Byte) (k : Nat), Up s ∧ sch = ⟨fa.toNat, fr.toNat, timeout.toNat, ofBool relay + 2 * ofBool force⟩ ∧ Served s .host 5 tag.toNat (leBytes 8 off.toNat ++ leBytes 4 len.toNat ++ scheduleBytes sch) ∧ imageAt s off.toNat len.toNat = true ∧ scheduleOk s sch = true ∧ s.str.session = none ∧ sessionState s ≠ 3 ∧ inactiveSlot s = some k ∧ unitRead s 10 off.toNat len.toNat = some bs ∧ fullCheck (acceptAsync (served s 10 off.toNat len.toNat) .host 5 tag.toNat) bs true = none) ∧
    (∃ (s : State) (x : StrSession) (k : Nat), Up s ∧ s.str.session = some x ∧ inactiveSlot s = some k ∧ sessionState s = 3) ∧
    (∃ (s : State) (x : StrSession) (k : Nat), Up s ∧ s.str.session = some x ∧ inactiveSlot s = some k ∧ sessionState s = 3) :=
  ⟨fun hk => ⟨bundleStaged, 1, 0xF00100000, 1536, 4, 2052, 1, false, false, ⟨4, 2052, 1, 0⟩, bundle, 1, by exact ⟨rfl, rfl, by unfold Served; decide +kernel, by decide +kernel, by decide +kernel, rfl, by decide +kernel, by decide +kernel, bundleStaged_read, bundle_full hk _ _ bundleTaken_ordered bundleTaken_ruled⟩⟩,
    ⟨inSession (sess none 5 false) 3, sess none 5 false, 1, by unfold Up; decide +kernel⟩,
    ⟨inSession (sess (some 1) 5 true) 3, sess (some 1) 5 true, 1, by unfold Up; decide +kernel⟩⟩

/-- States and operands that meet the hypotheses of `TrialRunsAndIsDecided`. -/
theorem witness_TrialRunsAndIsDecided :
    (∃ (s : State) (k : Fin 2) (sch : StrSchedule) (tag : Nat) (port : Option Nat), Up s ∧ s.str.load = none ∧ s.str.schedule = some (k.val, sch, tag, port) ∧ sch.fa ≤ startedFrame s) ∧
    (keyBlank = true → ∃ (s : State) (s' : State) (k : Nat), Up s ∧ s.str.restart = some k ∧ s.arch.running = false ∧ s' = settingsRestore { s with str := { s.str with restart := none, trialAt := s.counter.toNat, settings := s.str.settings.put k ⟨leAt (s.str.slots.get [] k) 40 4, (s.str.settings.get ⟨0, []⟩ (activeSlot s)).regs⟩ }, mail := { s.mail with restarting := false } } k ∧ fullCheck s' (s.str.slots.get [] k) true = none) ∧
    (∃ (s : State) (src : CmdSource) (tag : Word) (id : DWord) (k : Nat), Up s ∧ Served s src 6 tag.toNat (leBytes 8 id.toNat) ∧ trialSlot s = some k ∧ flag s F.STR_STATUS_TRIAL = true ∧ id.toNat = imageId (s.str.slots.get [] k)) ∧
    (∃ (s : State) (k : Nat), Up s ∧ trialSlot s = some k ∧ flag s F.STR_STATUS_TRIAL = true ∧ s.str.trialAt + leAt ((recordNow s).getD []) 22 2 * 800000000 ≤ s.counter.toNat) :=
  ⟨⟨{ running (set []) 6 0 with str := { schedule := some (1, ⟨6, 0, 5, 0⟩, 9, none) } }, 1, ⟨6, 0, 5, 0⟩, 9, none, by unfold Up; decide +kernel⟩,
    fun hk => ⟨bundleTrial, bundleParsed, 1, by exact ⟨rfl, rfl, rfl, rfl, bundle_full hk _ _ bundleParsed_ordered bundleParsed_ruled⟩⟩,
    ⟨onTrial, .host, 1, 77, 1, by unfold Up Served; decide +kernel⟩,
    ⟨{ onTrial with counter := 4000000000 }, 1, by unfold Up; decide +kernel⟩⟩

/-- States and operands that meet the hypotheses of `CompressorRuns`. -/
theorem witness_CompressorRuns :
    (∃ (s : State) (n : Fin 4096) (rest : List Nat), Up s ∧ domOn s 28 = true ∧ s.cmp.current = none ∧ s.cmp.queue = n.val :: rest) ∧
    (∃ (s : State) (n : Fin 4096) (table : List Byte) (bufs : List ChainEntry) (level : Nat) (d : DmaDesc) (rest : List DmaDesc) (c : List Byte × List Byte), Up s ∧ domLive s 28 = true ∧ ringState s n = 2 ∧ s.cmp.current = some (n.val, level) ∧ (dmaRing s n).descs = d :: rest ∧ chainBuffers 256 (chainTable table) = (bufs, true) ∧ (c = capsule level d.user (flag s F.CMP_CTRL_FLUSH_PER_RUN) (0 < (badLines s d.addrs).length) (descRead s d.addrs) (deflateStream level (max 1 (getF s F.CMP_CTRL_BLOCK_KIB)) (if flag s F.CMP_CTRL_FLUSH_PER_RUN = true then d.runs.map fun _ => d.len0 else []) (descRead s d.addrs))) ∧ c.1.length + c.2.length ≤ (bufs.map (·.len.toNat)).sum) :=
  ⟨⟨{ ringOn 5 {} with cmp := { queue := [5, 0] } }, 5, [0], by unfold Up; decide +kernel⟩,
    ⟨packing, 0, leBytes 8 8192 ++ leBytes 4 4096 ++ leBytes 4 1, [⟨8192, 4096, true⟩], 6, ⟨0, descOf 3 4096 0 4⟩, [], packed, by exact ⟨rfl, by decide +kernel, by decide +kernel, rfl, rfl, rfl, rfl, packed_fits⟩⟩⟩

/-- States and operands that meet the hypotheses of `DecompressorRuns`. -/
theorem witness_DecompressorRuns :
    (∃ (s : State), Up s ∧ domOn s 28 = true ∧ flag s F.CMP_STATUS_DEC_BUSY = false) ∧
    (∃ (s : State) (a : Nat) (n : Nat) (dst : Nat) (limit : Nat) (r : Nat × List Byte), Up s ∧ domLive s 28 = true ∧ s.cmp.job = some (a, n, dst, limit, true) ∧ decDestOk s dst limit = true ∧ r = decRaw (decSource s a n) limit) :=
  ⟨⟨ringOn 0 {}, by unfold Up; decide +kernel⟩,
    ⟨{ ringOn 0 {} with cmp := { job := some (0, 1, 60 * 2 ^ 30, 64, true) }, dram := [(0, 3)] }, 0, 1, 60 * 2 ^ 30, 64, decRaw (decSource { ringOn 0 {} with cmp := { job := some (0, 1, 60 * 2 ^ 30, 64, true) }, dram := [(0, 3)] } 0 1) 64, by unfold Up; decide +kernel⟩⟩

/-- States and operands that meet the hypotheses of `OneSymbolInErrorIsCorrected`. -/
theorem witness_OneSymbolInErrorIsCorrected :
    (∃ (i : Fin 20) (v : Byte) (e : List Byte), v ≠ 0 ∧ (e = (List.range 20).map (fun k => if k = i.val then v else 0))) ∧
    (∃ (i : Fin 20) (v : Byte) (e : List Byte), v ≠ 0 ∧ (e = (List.range 20).map (fun k => if k = i.val then v else 0))) :=
  ⟨⟨19, 255, (List.range 20).map (fun k => if k = 19 then 255 else 0), by decide +kernel⟩,
    ⟨0, 1, (List.range 20).map (fun k => if k = 0 then 1 else 0), by decide +kernel⟩⟩

end Sys2Proof.Tests
end

section
/-! Frames of the reports that many commands make: which registers a bus error, a fault, a message, a window error of a Beryl
core or a stopped ring may change. Beside those they leave every register, DRAM and (but for a core's own stores) the
arrays, and only add to what has been sent. -/
namespace Sys2Proof.Machine

/-! ## Register groups that the reports change -/

/-- The registers of the health block that a fault may change: its bit, and the first fault with its time (R467). -/
def faultRegs : List Nat := [R.HLT_FAULT, R.HLT_FIRST, R.HLT_FIRST_TIME_LO, R.HLT_FIRST_TIME_HI]

/-- The registers that record an error response (R375). -/
def errRegs : List Nat := [R.MTX_ERR_INFO, R.MTX_ERR_ADDR_LO, R.MTX_ERR_ADDR_HI, R.MTX_ERR_COUNT]

/-- Address `a` lies in the block of Beryl core `k`. -/
def CoreReg (k a : Nat) : Prop := 0xD00000 + 0x100000 * k ≤ a ∧ a < 0xE00000 + 0x100000 * k

/-- Address `a` holds a register of ring `n`. -/
def RingReg (n a : Nat) : Prop := 0x1200000 + 0x40 * n ≤ a ∧ a < 0x1200024 + 0x40 * n

/-- Address `a` lies among the registers of the DMA engines and of the compressor. -/
def EngineReg (a : Nat) : Prop := (0x1250000 ≤ a ∧ a < 0x1260000) ∨ (0x1600000 ≤ a ∧ a < 0x1700000)

theorem ne_of_not_mailReg {c a : Nat} (hc : ¬ MailReg c) (ha : MailReg a) : c ≠ a := fun e => hc (e ▸ ha)

theorem ne_coreReg {c k base : Nat} (hc : ¬ CoreReg k c) (h0 : 0xD00000 ≤ base) (h1 : base < 0xE00000) :
    c ≠ base + 0x100000 * k := by
  rintro rfl
  exact hc ⟨by omega, by omega⟩

/-- None of the reports of an error response touches the count of time-outs. -/
theorem timeoutCount_unreported :
    R.MTX_TIMEOUT_COUNT ∉ errRegs ∧ R.MTX_TIMEOUT_COUNT ∉ faultRegs ∧ ¬ MailReg R.MTX_TIMEOUT_COUNT := by
  refine ⟨by decide, by decide, ?_⟩
  unfold MailReg
  decide

/-! ## Which instructions load through a window -/

theorem length_moveUse (c c' : BrlCore) (y : Bool) (m : BrlMove) : (moveUse c y m).length = (moveUse c' y m).length := by
  cases m with
  | none => rfl
  | load => rfl
  | store => rfl

/-- How many data accesses an instruction has is told by the instruction, whatever the core holds. -/
theorem length_brlUses (c c' : BrlCore) (op : BrlOp) : (brlUses c op).length = (brlUses c' op).length := by
  cases op with
  | pm mac acc x y mv => simp only [brlUses, List.length_append, length_moveUse c c']
  | _ => rfl

/-- An instruction that `windowLoad` names has a data access. -/
theorem uses_of_windowLoad {s : State} {k a : Nat} {op : BrlOp} (h : windowLoad s k a = some op) (c0 : BrlCore) :
    brlUses c0 op ≠ [] := by
  obtain ⟨-, hload⟩ := Option.filter_eq_some_iff.1 h
  have some_use : brlUses (brlCore s k) op ≠ [] := by
    intro he
    simp [he] at hload
  apply List.ne_nil_of_length_pos
  rw [length_brlUses c0 (brlCore s k) op]
  exact List.length_pos_of_ne_nil some_use

/-! ## What a report keeps -/

/-- Register `c` and DRAM stand in `t` as in `s`, where `b` is true so do the arrays, and what was sent is still listed. -/
structure Keeps (c : Nat) (b : Bool) (s t : State) : Prop where
  word : rd t c = rd s c
  dram : t.dram = s.dram
  arrays : b = true → t.arrays = s.arrays
  sent : s.out <+: t.out

namespace Keeps

variable {c : Nat} {b : Bool} {s t u : State}

theorem refl (s : State) : Keeps c b s s := ⟨rfl, rfl, fun _ => rfl, List.prefix_refl _⟩

theorem trans (h : Keeps c b s t) (h' : Keeps c b t u) : Keeps c b s u :=
  ⟨h'.word.trans h.word, h'.dram.trans h.dram, fun hb => (h'.arrays hb).trans (h.arrays hb), h.sent.trans h'.sent⟩

theorem memorySame (h : Keeps c true s t) : MemorySame s t := ⟨fun a => by rw [h.dram], h.arrays rfl⟩

theorem mem_out (h : Keeps c b s t) {o : Out} (ho : o ∈ s.out) : o ∈ t.out := h.sent.subset ho

/-- A state that differs from one that keeps `s` in hidden fields of the units only keeps it too. -/
theorem same (h : Keeps c b s t) (hr : u.regs = t.regs) (hd : u.dram = t.dram) (ha : u.arrays = t.arrays)
    (ho : u.out = t.out) : Keeps c b s u :=
  h.trans ⟨rd_congr hr c, hd, fun _ => ha, ho ▸ List.prefix_refl _⟩

theorem ite {p : Prop} [Decidable p] (ht : Keeps c b s t) (hu : Keeps c b s u) : Keeps c b s (if p then t else u) := by
  split
  · exact ht
  · exact hu

theorem foldl {α : Type} {f : State → α → State} (hf : ∀ t x, Keeps c b s t → Keeps c b s (f t x)) (l : List α)
    (h : Keeps c b s t) : Keeps c b s (l.foldl f t) := by
  induction l generalizing t with
  | nil => exact h
  | cons x l ih => exact ih (hf t x h)

/-! ## The named updates -/

theorem wr (h : Keeps c b s t) {a : Nat} (hc : c ≠ a) (v : Word) : Keeps c b s (wr t a v) :=
  h.trans ⟨rd_wr_ne t v hc, rfl, fun _ => rfl, List.prefix_refl _⟩

theorem setR (h : Keeps c b s t) {a : Nat} (hc : c ≠ a) (v : Nat) : Keeps c b s (setR t a v) := h.wr hc _

theorem setF (h : Keeps c b s t) {f : Fld} (hc : c ≠ f.addr) (v : Nat) : Keeps c b s (setF t f v) := h.wr hc _

theorem setB (h : Keeps c b s t) {a : Nat} (hc : c ≠ a) (i : Nat) (v : Bool) : Keeps c b s (setB t a i v) := h.wr hc _

theorem setPair (h : Keeps c b s t) {a : Nat} (hlo : c ≠ a) (hhi : c ≠ a + 4) (v : Nat) : Keeps c b s (setPair t a v) :=
  ((h.setR hlo _).setR hhi _).same rfl rfl rfl rfl

theorem bumpBy (h : Keeps c b s t) {a : Nat} (hc : c ≠ a) (n : Nat) : Keeps c b s (bumpBy t a n) :=
  (h.setR hc _).same rfl rfl rfl rfl

theorem bump (h : Keeps c b s t) {a : Nat} (hc : c ≠ a) : Keeps c b s (bump t a) := h.bumpBy hc 1

theorem emit (h : Keeps c b s t) (o : Out) : Keeps c b s (emit t o) :=
  h.trans ⟨rfl, rfl, fun _ => rfl, List.prefix_append _ _⟩

theorem setBrl (h : Keeps c b s t) (k : Nat) (f : BrlCore → BrlCore) : Keeps c b s (setBrl t k f) :=
  h.same rfl rfl rfl rfl

theorem setBrlIf (h : Keeps c b s t) (k : Nat) (p : Prop) [Decidable p] (f : BrlCore → BrlCore) :
    Keeps c b s (if p then Machine.setBrl t k f else t) := Keeps.ite (h.setBrl k f) h

theorem setRing (h : Keeps c b s t) (n : Nat) (f : DmaRing → DmaRing) : Keeps c b s (setRing t n f) :=
  h.same rfl rfl rfl rfl

theorem raise (h : Keeps c b s t) (src : Nat) : Keeps c b s (raise t src) :=
  Keeps.ite (h.same rfl rfl rfl rfl) h

theorem arrSet (h : Keeps c false s t) (x : Arr) (i : Nat) (v : DWord) : Keeps c false s (arrSet t x i v) :=
  h.trans ⟨rfl, rfl, nofun, List.prefix_refl _⟩

/-! ## Faults (R467) -/

theorem faultRecord (h : Keeps c b s t) (hc : c ∉ [R.HLT_FIRST, R.HLT_FIRST_TIME_LO, R.HLT_FIRST_TIME_HI]) (u : State) :
    Keeps c b s (faultRecord u t) := by
  simp only [List.mem_cons, List.not_mem_nil, or_false, not_or] at hc
  obtain ⟨hfirst, hlo, hhi⟩ := hc
  exact Keeps.ite h ((h.setF hfirst _).setPair hlo hhi _)

theorem fault (h : Keeps c b s t) (hc : c ∉ faultRegs) (n : Nat) : Keeps c b s (fault t n) := by
  obtain ⟨hbit, hfirst⟩ := not_or.1 (mt List.mem_cons.2 hc)
  exact (h.wr hbit _).faultRecord hfirst t

/-! ## The supervisor's answers and notices, and messages (R355 to R357) -/

theorem msix (h : Keeps c b s t) {v : Nat} (hc : c ≠ 0x7000 + 4 * (v / 32)) : Keeps c b s (msix t v) :=
  Keeps.ite h (Keeps.ite (h.setB hc _ _) (h.emit _))

theorem wrBytes (h : Keeps c b s t) {a : Nat} {bs : List Byte} {n : Nat} (hc : c < a ∨ a + 4 * n ≤ c) :
    Keeps c b s (wrBytes t a bs n) := by
  induction n generalizing t a bs with
  | zero => exact h
  | succ n ih => exact ih (h.setR (by omega) _) (by omega)

theorem sendMgmtRsp (h : Keeps c b s t) (port serial time off : Nat) (bs : List Byte) (n : Nat) :
    Keeps c b s (sendMgmtRsp t port serial time off bs n) := by
  induction n generalizing t off bs with
  | zero => exact h
  | succ n ih => exact Keeps.ite (h.emit _) (ih (h.emit _) _ _)

/-- An answer without data changes the supervisor's registers only. -/
theorem respond (h : Keeps c b s t) (hc : ¬ MailReg c) (src : CmdSource) (cmd tag status detail : Nat) :
    Keeps c b s (respond t src cmd tag status detail []) := by
  unfold Machine.respond
  cases src with
  | host =>
    have len : (responseHeader cmd 0 tag status detail).length = 16 := by simp [responseHeader]
    have out : c < 0x12000 ∨ 0x12000 + 4 * 4 ≤ c := by simp only [MailReg, not_or] at hc; omega
    simp only [List.append_nil, List.length_nil, len, Nat.reduceAdd, Nat.reduceDiv]
    exact ((h.wrBytes out).setF (ne_of_not_mailReg hc (by simp [MailReg])) 2).msix
      (ne_of_not_mailReg hc (by simp [MailReg]))
  | relay port serial time => exact h.sendMgmtRsp _ _ _ _ _ _

theorem requestFails (h : Keeps c b s t) (hc : ¬ MailReg c) : Keeps c b s (requestFails t) := by
  unfold Machine.requestFails
  have taken : Keeps c b s { t with mail := { t.mail with request := none } } := h.same rfl rfl rfl rfl
  split
  · exact taken.respond hc _ _ _ _ _
  · exact h

theorem notice (h : Keeps c b s t) (hc : ¬ MailReg c) (cmd tag status : Nat) : Keeps c b s (notice t cmd tag status) := by
  have htag : c ≠ R.MBX_NOTICE_TAG := ne_of_not_mailReg hc (by simp [MailReg])
  have hstatus : c ≠ R.MBX_NOTICE_STATUS := ne_of_not_mailReg hc (by simp [MailReg])
  have hmbx : c ≠ R.MBX_STATUS := ne_of_not_mailReg hc (by simp [MailReg])
  have hpend : c ≠ 0x7000 + 4 * (2047 / 32) := ne_of_not_mailReg hc (by simp [MailReg])
  have noted := (h.setR htag tag).setR hstatus (cmd * 2 ^ 16 + status)
  have ended (m : Mail) : Keeps c b s { Machine.setR (Machine.setR t _ _) _ _ with mail := m } := noted.same rfl rfl rfl rfl
  exact (((ended _).setF (f := F.MBX_STATUS_NOTICE) hmbx 1).msix hpend).raise 30

/-! ## Error responses of the matrix (R375, R376) -/

theorem busErrorOnce (h : Keeps c b s t) (hc : c ∉ errRegs) (m target kind addr : Nat) (write : Bool) :
    Keeps c b s (busErrorOnce t m target kind addr write) := by
  simp only [errRegs, List.mem_cons, List.not_mem_nil, or_false, not_or] at hc
  obtain ⟨hinfo, hlo, hhi, hcount⟩ := hc
  exact ((h.wr hinfo _).setPair hlo hhi _).bump hcount

theorem busError (h : Keeps c b s t) (herr : c ∉ errRegs) (hfault : c ∉ faultRegs) (hmail : ¬ MailReg c)
    (m target kind addr : Nat) (write : Bool) : Keeps c b s (busError t m target kind addr write) := by
  have once := h.busErrorOnce herr m target kind addr write
  have twice := (once.busErrorOnce herr m target kind addr write).fault hfault 24
  exact Keeps.ite (twice.requestFails hmail) (Keeps.ite (once.same rfl rfl rfl rfl) once)

/-! ## Beryl cores (R271 to R293) -/

section core
variable {k : Nat} (hc : ¬ CoreReg k c)
include hc

theorem setStatus (h : Keeps c b s t) {hi lo : Nat} (v : Nat) :
    Keeps c b s (Machine.setF t ⟨R.BRL_STATUS k, hi, lo⟩ v) := h.setF (ne_coreReg hc (by decide) (by decide)) v

theorem brlWake (h : Keeps c b s t) : Keeps c b s (brlWake t k) :=
  Keeps.ite ((h.setStatus hc 1).same rfl rfl rfl rfl) h

theorem brlPend (h : Keeps c b s t) (v : Nat) : Keeps c b s (brlPend t k v) :=
  Keeps.ite (h.bump (ne_coreReg hc (by decide) (by decide)))
    ((h.setB (ne_coreReg hc (by decide) (by decide)) v true).brlWake hc)

theorem windowError (h : Keeps c b s t) (herr : c ∉ errRegs) (y : Bool) (a : Nat) : Keeps c b s (windowError t k y a) := by
  simp only [errRegs, List.mem_cons, List.not_mem_nil, or_false, not_or] at herr
  obtain ⟨-, hlo, hhi, -⟩ := herr
  have addr : c ≠ R.BRL_ERR_ADDR k := ne_coreReg hc (by decide) (by decide)
  exact ((((h.setPair hlo hhi a).setF addr _).setF addr _).bump (ne_coreReg hc (by decide) (by decide))).brlPend hc 13

theorem brlCycles (h : Keeps c b s t) (n : Nat) : Keeps c b s (brlCycles t k n) := by
  have hhi : c ≠ R.BRL_CYCLES_LO k + 4 := by simp only [CoreReg, R.BRL_CYCLES_LO] at hc ⊢; omega
  exact h.setPair (ne_coreReg hc (by decide) (by decide)) hhi _

theorem brlFault (h : Keeps c b s t) (hfault : c ∉ faultRegs) (cause : Nat) : Keeps c b s (brlFault t k cause) :=
  (((((h.setF (f := F.BRL_FAULT_PC_PC k) (ne_coreReg hc (by decide) (by decide)) _).setStatus hc cause).setStatus hc 4).setBrl k
    BrlCore.drained).raise (21 + k)).fault hfault 16

theorem setBrlPc (h : Keeps c b s t) (pc : Nat) : Keeps c b s (setBrlPc t k pc) :=
  h.setF (f := F.BRL_PC_PC k) (ne_coreReg hc (by decide) (by decide)) _

theorem brlSettle (h : Keeps c b s t) : Keeps c b s (brlSettle t k) :=
  Keeps.ite ((h.setStatus hc 2).setBrl k _) h

theorem brlWaitCheck (h : Keeps c b s t) : Keeps c b s (brlWaitCheck t k) :=
  Keeps.ite (((h.setStatus hc 3).setBrl k _).brlWake hc) h

theorem brlJump (h : Keeps c b s t) (target : Nat) : Keeps c b s (brlJump t k target) := (h.setBrl k _).setBrlPc hc target

theorem brlSeq (h : Keeps c b s t) : Keeps c b s (brlSeq t k) := by
  unfold Machine.brlSeq
  dsimp only
  split
  · split
    · exact Keeps.ite ((h.setBrl k _).setBrlPc hc _) ((h.setBrl k _).setBrlPc hc _)
    · exact (Keeps.ite h (h.setBrl k _)).setBrlPc hc _
  · exact h.setBrlPc hc _

theorem brlAdvance (h : Keeps c b s t) (ctl : BrlCtl) : Keeps c b s (brlAdvance t k ctl) := by
  unfold Machine.brlAdvance
  refine brlSettle hc (brlWaitCheck hc ?_)
  have counted := ((h.brlCycles hc 1).setBrl k fun c => { c with count := c.count + 1 }).setBrl k BrlCore.landed
  cases ctl with
  | branch target => exact (counted.setBrl k _).setBrlPc hc _
  | iter n => exact (counted.setBrl k _).setBrlPc hc _
  | seq =>
    refine Keeps.ite (counted.setBrl k _) ?_
    dsimp only
    split
    · exact ((counted.setBrlIf k _ _).setBrlIf k _ _).brlJump hc _
    · exact ((counted.setBrlIf k _ _).setBrlIf k _ _).brlSeq hc

section access
variable (herr : c ∉ errRegs) (hfault : c ∉ faultRegs) (hmail : ¬ MailReg c)
include herr hfault hmail

omit hc in
theorem windowRefused (h : Keeps c b s t) (k : Nat) (target : BrlTarget) (write : Bool) :
    Keeps c b s (windowRefused t k target write) := by
  cases target with
  | bar0 a => exact h.busError herr hfault hmail _ _ _ _ _
  | weight off => exact h.busError herr hfault hmail _ _ _ _ _
  | dram a => exact h.busError herr hfault hmail _ _ _ _ _

/-- An access of a core whose window loads get an error response reads no target. -/
theorem brlAccess (h : Keeps c false s t) (c0 : BrlCore) (x : BrlUse) : Keeps c false s (brlAccess t k c0 true x) := by
  unfold Machine.brlAccess
  refine Keeps.setBrl ?_ k _
  dsimp only
  split
  · split
    · exact h.arrSet _ _ _
    · exact h.setBrl k _
    · exact h
  · split
    · exact h.setBrl k _
    · rw [if_pos rfl]
      exact ((h.windowRefused herr hfault hmail k _ false).windowError hc herr _ _).setBrl k _
    · exact h

/-- What an instruction with a data access does, when its loads get error responses. -/
theorem brlEffect (h : Keeps c false s t) {op : BrlOp} (hop : ∀ c0, brlUses c0 op ≠ []) :
    Keeps c false s (brlEffect t k op true).1 := by
  have accesses {u : State} (hu : Keeps c false s u) (c0 : BrlCore) :
      Keeps c false s ((brlUses c0 op).foldl (fun u x => Machine.brlAccess u k c0 true x) u) :=
    hu.foldl (fun _ x hx => hx.brlAccess hc herr hfault hmail c0 x) _
  cases op with
  | pm mac acc x y mv =>
    cases mac with
    | none => exact accesses h _
    | some m => exact accesses (h.setBrl k _) _
  | load x => exact accesses h _
  | store x => exact accesses h _
  | _ => exact absurd rfl (hop {})

/-- An instruction with a data access, when its loads get error responses: it faults, stalls, or does it. -/
theorem brlExecute (h : Keeps c false s t) {op : BrlOp} (hop : ∀ c0, brlUses c0 op ≠ []) :
    Keeps c false s (brlExecute t k op true) := by
  unfold Machine.brlExecute
  split
  · exact h.brlFault hc hfault _
  · refine Keeps.ite ((h.bump (ne_coreReg hc (by decide) (by decide))).brlCycles hc 1) ?_
    have stalled : ldcStall t k op = t := by
      cases op with
      | ldc d p disp => exact absurd rfl (hop {})
      | _ => rfl
    exact ((stalled.symm ▸ h : Keeps c false s (ldcStall t k op)).brlEffect hc herr hfault hmail hop).brlAdvance hc _

omit hfault hmail in
theorem storeLost (h : Keeps c b s t) (x : BrlStore) : Keeps c b s (storeLost t k x) :=
  (Keeps.windowError hc (t := dropStore t k) (h.setBrl k _) herr _ _).brlSettle hc

end access

end core

/-! ## A ring that stops (R368) -/

section ring
variable {n : Nat} (hring : ¬ RingReg n c) (hengine : ¬ EngineReg c)

include hengine in
theorem setEngine (h : Keeps c b s t) (n : Nat) : Keeps c b s (setEngine t n) := by
  unfold Machine.setEngine
  have bound : getF t (F.DMA_RING_CTRL_ENGINE n) < 2 ^ 5 := Nat.mod_lt _ (Nat.two_pow_pos 5)
  generalize getF t (F.DMA_RING_CTRL_ENGINE n) = e at bound
  have he : c ≠ R.DMA_ENGINE e := by simp only [EngineReg, R.DMA_ENGINE] at hengine ⊢; omega
  have busy := h.setF (f := F.DMA_ENGINE_BUSY e) he
  refine Keeps.ite (busy _) ?_
  split
  · exact (busy _).setF he _
  · exact busy _

include hengine in
theorem compressorIdle (h : Keeps c b s t) : Keeps c b s (compressorIdle t) := by
  have hs : c ≠ F.CMP_STATUS_BUSY.addr := by simp only [EngineReg, R.CMP_STATUS] at hengine ⊢; omega
  have hf : c ≠ F.CMP_CTRL_FLUSH_PER_RUN.addr := by simp only [EngineReg, R.CMP_CTRL] at hengine ⊢; omega
  refine Keeps.ite h (Keeps.ite (Keeps.setF ?_ hf 1) (h.setF hs 0))
  exact (h.setF hs 0).same rfl rfl rfl rfl

theorem captureReadEnd (h : Keeps c b s t) (hmail : ¬ MailReg c) (n : Nat) (i : Option Nat) (status : Nat) :
    Keeps c b s (captureReadEnd t n i status) := by
  unfold Machine.captureReadEnd
  split
  · refine Keeps.notice ?_ hmail _ _ _
    exact h.same rfl rfl rfl rfl
  · exact h

theorem dmaStopReport (h : Keeps c b s t) (hfault : c ∉ faultRegs) (hmail : ¬ MailReg c) : Keeps c b s (dmaStopReport t) :=
  ((h.msix (ne_of_not_mailReg hmail (by simp [MailReg]))).raise 29).fault hfault 15

include hring hengine

theorem ringHalt (h : Keeps c b s t) (hmail : ¬ MailReg c) (code : Nat) : Keeps c b s (ringHalt t n code) := by
  have hhead : c ≠ R.DMA_RING_HEAD n := by simp only [RingReg, R.DMA_RING_HEAD] at hring ⊢; omega
  have hstate : c ≠ R.DMA_RING_STATUS n := by simp only [RingReg, R.DMA_RING_STATUS] at hring ⊢; omega
  have hcount : c ≠ R.DMA_DATA_ERR_COUNT := by simp only [EngineReg, R.DMA_DATA_ERR_COUNT] at hengine ⊢; omega
  have hstop : c ≠ R.DMA_STATUS := by simp only [EngineReg, R.DMA_STATUS] at hengine ⊢; omega
  unfold Machine.ringHalt
  extract_lets headed engine queue cleared idle counted noted
  have hheaded : Keeps c b s headed := by
    unfold headed
    split
    · exact h.setR hhead _
    · exact h
  have hcleared : Keeps c b s cleared := ((hheaded.setRing n _).setEngine hengine n).same rfl rfl rfl rfl
  have hcounted : Keeps c b s counted :=
    (((hcleared.compressorIdle hengine).setF (f := F.DMA_RING_STATUS_STATE n) hstate 3).setF
      (f := F.DMA_RING_STATUS_CODE n) hstate code).bump hcount
  have hnoted : Keeps c b s noted := Keeps.ite (hcounted.setF hstop 1) (Keeps.ite (hcounted.setF hstop 1) hcounted)
  exact hnoted.captureReadEnd hmail _ _ _

theorem ringStop (h : Keeps c b s t) (hfault : c ∉ faultRegs) (hmail : ¬ MailReg c) (code : Nat) (kind : Option Nat) :
    Keeps c b s (ringStop t n code kind) := by
  have hinfo : c ≠ R.DMA_ERR_INFO := by simp only [EngineReg, R.DMA_ERR_INFO] at hengine ⊢; omega
  have halted := h.ringHalt hring hengine hmail code
  cases kind with
  | none => exact halted.dmaStopReport hfault hmail
  | some x =>
    exact ((halted.setF (f := F.DMA_ERR_INFO_KIND) hinfo x).setF (f := F.DMA_ERR_INFO_RING) hinfo n).dmaStopReport hfault hmail

end ring

/-! ## A register access that times out (R375, R376) -/

theorem busError_timeoutCount (h : Keeps R.MTX_TIMEOUT_COUNT b s t) (m target kind addr : Nat) (write : Bool) :
    Keeps R.MTX_TIMEOUT_COUNT b s (Machine.busError t m target kind addr write) := by
  obtain ⟨herr, hfault, hmail⟩ := timeoutCount_unreported
  exact h.busError herr hfault hmail m target kind addr write

/-- A time-out of a master other than the host: after the count the state keeps everything but the registers of the error up to
the error response, and what the master makes of that keeps it too; only a core's load lets an instruction end, which may
store into the core's own arrays. -/
theorem matrixTimeout (s : State) {m : Master} (hm : m ≠ .host) (target a : Nat) (write : Bool)
    (hb : b = true → write = true ∨ ∀ k, m ≠ .beryl k) :
    ∃ u, Keeps R.MTX_TIMEOUT_COUNT true (Machine.bumpBy s R.MTX_TIMEOUT_COUNT (if masterCode m ≤ 1 then 2 else 1)) u ∧
      Keeps R.MTX_TIMEOUT_COUNT b (Machine.emit u (.errorResponse m a)) (matrixTimeout s m target a write) := by
  obtain ⟨herr, hfault, hmail⟩ := timeoutCount_unreported
  have hengine : ¬ EngineReg R.MTX_TIMEOUT_COUNT := by unfold EngineReg; decide
  have hcore (k : Fin 4) : ¬ CoreReg k R.MTX_TIMEOUT_COUNT := by simp only [CoreReg, R.MTX_TIMEOUT_COUNT]; omega
  have hring (n : Nat) : ¬ RingReg n R.MTX_TIMEOUT_COUNT := by simp only [RingReg, R.MTX_TIMEOUT_COUNT]; omega
  unfold Machine.matrixTimeout
  dsimp only
  generalize Machine.bumpBy s R.MTX_TIMEOUT_COUNT (if masterCode m ≤ 1 then 2 else 1) = counted
  have failed := (refl (b := true) counted).busError_timeoutCount (masterCode m) target 3 a write
  cases m with
  | host => exact absurd rfl hm
  | beryl k =>
    cases write with
    | false =>
      obtain rfl : b = false := by simpa using hb
      dsimp only
      split
      · rename_i op hop
        exact ⟨_, refl _, ((refl _).brlExecute (hcore k) herr hfault hmail (uses_of_windowLoad hop)).setF
          (f := F.MTX_ERR_INFO_KIND) (by decide) 3⟩
      · exact ⟨_, failed, refl _⟩
    | true =>
      refine ⟨_, failed, ?_⟩
      dsimp only
      split
      · exact Keeps.ite ((refl _).storeLost (hcore k) herr _) (refl _)
      · exact refl _
  | dma =>
    refine ⟨_, failed, ?_⟩
    cases write with
    | false => exact refl _
    | true =>
      dsimp only
      split
      · exact (refl _).ringStop (hring _) hengine hfault hmail _ _
      · exact refl _
  | _ => exact ⟨_, failed, refl _⟩

end Keeps
end Sys2Proof.Machine
end

section
/-! Reads and writes of registers over the bus matrix (R7 to R10, R371, R375, R461). -/
namespace Sys2Proof.Machine

/-! ## Commands of a bus master -/

theorem runBy_sends {s : State} {m : Master} (h : Sends s m) (f : State → State) : runBy m f s = .next (f s) := by
  obtain ⟨hup, hdebug⟩ := h
  have act : actBy m f s = f s := if_neg fun hm => by simp [hdebug hm.1] at hm
  rw [runBy, run, act, if_pos (show s.arch.up = true from hup)]

/-- A command that `exec` carries out as an action of a bus master completes with that action's state. -/
theorem completes_runBy {c : Instr} {s : State} {m : Master} {f : State → State} {post : State → Prop}
    (hc : exec c s = runBy m f s) (h : Sends s m) (hp : post (f s)) : Completes c s post :=
  ⟨f s, hc.trans (runBy_sends h f), hp⟩

theorem busWrite_subWord (s : State) (m : Master) (a : Nat) (v : Word) {be : BitVec 4} (h : be ≠ 0xF) :
    busWrite s m a v be = s := if_pos h

/-! ## Sub-word reads (R7) -/

theorem byteMask_full : byteMask 0xF = BitVec.allOnes 32 := by decide

theorem and_byteMask_full (w : Word) : w &&& byteMask 0xF = w := by rw [byteMask_full, BitVec.and_allOnes]

/-- What a master sees of a read: the addressed bytes of the word, or the answer to an error (R7, R376). -/
def readAnswer (m : Master) (a : Nat) (be : BitVec 4) : Option Word → Out
  | some w => .readData m a (w &&& byteMask be)
  | none => if m = .host then .readData m a (byteMask be) else .errorResponse m a

theorem busRead_eq (s : State) (m : Master) (a : Nat) (be : BitVec 4) :
    busRead s m a be =
      emit (regRead s m (a / 4 * 4)).1 (readAnswer m (a / 4 * 4) be (regRead s m (a / 4 * 4)).2) := by
  unfold busRead readAnswer
  dsimp only
  rcases regRead s m (a / 4 * 4) with ⟨t, _ | w⟩
  · exact (apply_ite (emit t) (m = .host) _ _).symm
  · rfl

/-- An answer with data that all byte enables get is, of fewer, its addressed bytes. -/
theorem readAnswer_bytes {m : Master} {a : Nat} {r : Option Word} {w : Word}
    (h : readAnswer m a 0xF r = .readData m a w) (be : BitVec 4) :
    readAnswer m a be r = .readData m a (w &&& byteMask be) := by
  cases r with
  | some v =>
    obtain rfl : v = w := by simpa only [readAnswer, and_byteMask_full, Out.readData.injEq, true_and] using h
    rfl
  | none =>
    by_cases hm : m = .host
    · obtain rfl : byteMask 0xF = w := by
        simpa only [readAnswer, if_pos hm, Out.readData.injEq, true_and] using h
      rw [byteMask_full, BitVec.allOnes_and]
      exact if_pos hm
    · simp [readAnswer, hm] at h

theorem getLast?_emit (s : State) (o : Out) : (emit s o).out.getLast? = some o := by simp [emit]

/-! ## Counters -/

theorem toNat_rd_bumpBy (s : State) (a n : Nat) :
    (rd (bumpBy s a n) a).toNat = min ((rd s a).toNat + n) 0xFFFFFFFF := by
  rw [rd_bumpBy, if_pos rfl, BitVec.toNat_ofNat]
  exact Nat.mod_eq_of_lt (by omega)

/-- Counting on a counter changes that register alone, and no memory. -/
theorem bump_completes (s : State) (a : Nat) :
    (rd (bump s a) a).toNat = min ((rd s a).toNat + 1) 0xFFFFFFFF ∧ RegsSameBut [a] s (bump s a) ∧
      MemorySame s (bump s a) := by
  refine ⟨toNat_rd_bumpBy s a 1, fun b hb => ?_, fun _ => rfl, rfl⟩
  exact (rd_bumpBy s a 1 b).trans (if_neg (List.ne_of_not_mem_cons hb))

/-! ## A write by access code (R8, R9) -/

theorem isPairLow_ringBaseLo (n : Fin 4096) : isPairLow (R.DMA_RING_BASE_LO n) = true := by
  refine List.any_eq_true.2 ⟨(0x1200008, [(4096, 0x40)]), by decide, ?_⟩
  have offset : R.DMA_RING_BASE_LO n - 0x1200008 = 0x40 * n := by simp only [R.DMA_RING_BASE_LO]; omega
  simp [RegMap.hits, offset, R.DMA_RING_BASE_LO]

theorem isPairLow_ringBaseHi (n : Fin 4096) : isPairLow (R.DMA_RING_BASE_LO n + 4) = false := by
  obtain ⟨n, hn⟩ := n
  simp only [isPairLow, pairRows, RegMap.hits, R.DMA_RING_BASE_LO, List.any_cons, List.any_nil, Bool.or_eq_false_iff,
    Bool.and_eq_false_iff, decide_eq_false_iff_not, beq_eq_false_iff_ne, and_true]
  omega

theorem row?_ringBaseHi (n : Fin 4096) :
    RegMap.row? (R.DMA_RING_BASE_LO n + 4) = some ⟨0x120000C, [(4096, 0x40)], [⟨31, 0, .rw, 0x0⟩]⟩ := by
  obtain ⟨n, hn⟩ := n
  have block : (R.DMA_RING_BASE_LO n + 4) / 0x100000 = 18 := by simp only [R.DMA_RING_BASE_LO]; omega
  have column (b : Nat) (hb : b ≤ 0x120000C) : R.DMA_RING_BASE_LO n + 4 - b = 0x40 * n + (0x120000C - b) := by
    simp only [R.DMA_RING_BASE_LO]; omega
  simp (disch := omega) only [RegMap.row?, RegMap.rowsOf, block, RegMap.dma, List.find?, RegMap.hits, column]
  simp [R.DMA_RING_BASE_LO, Nat.mul_add_div, hn]

theorem accMask_ringBaseHi (n : Fin 4096) : accMask (R.DMA_RING_BASE_LO n + 4) .rw ≠ 0 := by
  simp [accMask, row?_ringBaseHi, Fld.mask]

theorem rd_plainWrite (s : State) (a b : Nat) (v : Word) :
    rd (plainWrite s a v) b = if b = a then codedWord a (rd s a) v else rd s b := by
  unfold plainWrite
  dsimp only
  split
  · rename_i same
    split
    · rename_i e; rw [e, same.1]
    · rfl
  · split
    · refine (rd_wr _ _ _ _).trans ?_
      split
      · rfl
      · split <;> rfl
    · split
      · rename_i hhigh
        have hlow : isPairLow 0 = false := by decide
        have ha : a - 4 + 4 = a := by
          have : a - 4 ≠ 0 := fun e => by simp [e, hlow] at hhigh
          omega
        exact (rd_wr s (a - 4 + 4) b _).trans (by rw [ha])
      · exact rd_wr _ _ _ _

theorem regsSameBut_plainWrite (s : State) (a : Nat) (v : Word) : RegsSameBut [a] s (plainWrite s a v) :=
  fun b hb => (rd_plainWrite s a b v).trans (if_neg (List.ne_of_not_mem_cons hb))

theorem writePairLow_rest (s : State) (a : Nat) (v : Word) :
    (writePairLow s a v).dram = s.dram ∧ (writePairLow s a v).arrays = s.arrays ∧ (writePairLow s a v).out = s.out := by
  unfold writePairLow
  dsimp only
  split <;> exact ⟨rfl, rfl, rfl⟩

/-- A write by access code changes no memory and sends nothing. -/
theorem plainWrite_rest (s : State) (a : Nat) (v : Word) :
    (plainWrite s a v).dram = s.dram ∧ (plainWrite s a v).arrays = s.arrays ∧ (plainWrite s a v).out = s.out := by
  unfold plainWrite
  dsimp only
  split
  · exact ⟨rfl, rfl, rfl⟩
  · split
    · exact writePairLow_rest s a _
    · split <;> exact ⟨rfl, rfl, rfl⟩

theorem memorySame_plainWrite (s : State) (a : Nat) (v : Word) : MemorySame s (plainWrite s a v) := by
  obtain ⟨hdram, harrays, -⟩ := plainWrite_rest s a v
  exact ⟨fun b => by rw [hdram], harrays⟩

/-- A low word that waits for its high word does not count (R8). -/
theorem getPair_writePairLow (s : State) (a : Nat) (v : Word) : getPair (writePairLow s a v) a = getPair s a := by
  have high (w : Word) (t : State) : getR (wr t a w) (a + 4) = getR t (a + 4) := by simp [getR, rd_wr]
  unfold getPair writePairLow
  dsimp only
  rw [high]
  cases hfind : s.pairLow.find a with
  | some old => simp [SMap.get, hfind, wr, getR, rd]
  | none => simp [SMap.get, hfind, wr, getR, rd, SMap.find_put_same]

theorem getPair_plainWrite_low (s : State) {a : Nat} (h : isPairLow a = true) (v : Word) :
    getPair (plainWrite s a v) a = getPair s a := by
  unfold plainWrite
  simp only [h, if_true]
  split
  · rfl
  · exact getPair_writePairLow s a _

/-- The high word brings the pair into force (R8). -/
theorem getPair_writePairHigh (s : State) (a : Nat) (v : Word) :
    getPair (writePairHigh s a v) a = getR s a + v.toNat * 2 ^ 32 := by
  have low : (writePairHigh s a v).pairLow.get (rd (writePairHigh s a v) a) a = rd s a := by
    have : rd (writePairHigh s a v) a = rd s a := (rd_wr s (a + 4) a v).trans (if_neg (by omega))
    simp [writePairHigh, SMap.get, SMap.find_drop, ← this]
  have high : rd (writePairHigh s a v) (a + 4) = v := rd_wr_same s (a + 4) v
  rw [getPair, low, getR, high, getR]

/-! ## The write over the matrix -/

theorem busWrite_refused {s : State} {m : Master} {addr a kind : Nat} (ha : a = addr / 4 * 4)
    (h : writeRefused s m a = some kind) (v : Word) :
    busWrite s m addr v 0xF = writeError s m ((targetOf a).getD 0) kind a := by
  subst ha
  unfold busWrite
  rw [if_neg (by simp)]
  simp only [h]

theorem busWrite_accepted {s : State} {m : Master} {addr a tgt : Nat} (ha : a = addr / 4 * 4) (ht : targetOf a = some tgt)
    (h : writeRefused s m a = none) (hbell : a ≠ R.MBX_DOORBELL) (v : Word) :
    busWrite s m addr v 0xF = regWrite s m a v := by
  subst ha
  unfold busWrite
  rw [if_neg (by simp)]
  simp only [h, ht, if_neg hbell]

/-- A refused write of a master other than the host is answered, and changes no memory (R375). -/
theorem writeError_completes (s : State) {m : Master} (hm : m ≠ .host) (target kind a : Nat) :
    .errorResponse m a ∈ (writeError s m target kind a).out ∧ MemorySame s (writeError s m target kind a) := by
  have e : writeError s m target kind a = emit (busError s (masterCode m) target kind a true) (.errorResponse m a) :=
    if_neg hm
  have kept := ((Keeps.refl (c := R.MTX_TIMEOUT_COUNT) (b := true) s).busError_timeoutCount
    (masterCode m) target kind a true).emit (.errorResponse m a)
  rw [e]
  exact ⟨by simp [emit], kept.memorySame⟩

/-- The registers of the STR_, YDX_, TWN_ and HLT_ blocks take a write by its access codes, but for the fault word and its
mask. -/
theorem regWrite_plain {a : Nat} (h0 : 0x1700000 ≤ a) (hf : a ≠ R.HLT_FAULT) (hk : a ≠ R.HLT_FAULT_MASK)
    (s : State) (m : Master) (v : Word) : regWrite s m a v = plainWrite s a v := by
  simp (disch := omega) only [regWrite, if_neg]

theorem regWrite_faultMask (s : State) (m : Master) (v : Word) :
    regWrite s m R.HLT_FAULT_MASK v = faultRecord s (plainWrite s R.HLT_FAULT_MASK v) := by
  have place : R.HLT_FAULT_MASK = 0x1800004 := rfl
  have other : R.HLT_FAULT_MASK ≠ R.HLT_FAULT := by decide
  simp (disch := omega) only [regWrite, if_neg, if_true]

theorem regWrite_ringBase {a : Nat} (n : Fin 4096) (ha : a = R.DMA_RING_BASE_LO n ∨ a = R.DMA_RING_BASE_LO n + 4)
    (s : State) (m : Master) (v : Word) : regWrite s m a v = plainWrite s a v := by
  obtain ⟨n, hn⟩ := n
  simp only [R.DMA_RING_BASE_LO] at ha
  have ring : regWrite s m a v = dmaWrite s a v := by
    simp (disch := omega) only [regWrite, if_neg, if_pos]
  have hctrl : a ≠ R.DMA_RING_CTRL ((a - 0x1200000) / 0x40) := by simp only [R.DMA_RING_CTRL]; omega
  have hhead : a ≠ R.DMA_RING_HEAD ((a - 0x1200000) / 0x40) := by simp only [R.DMA_RING_HEAD]; omega
  rw [ring]
  simp (disch := omega) only [dmaWrite, if_neg, if_pos]

theorem targetOf_upperBlocks {a : Nat} (h0 : 0x1700000 ≤ a) (h1 : a < 0x1A00000) : targetOf a = some 6 := by
  have block : a / 0x100000 = 23 ∨ a / 0x100000 = 24 ∨ a / 0x100000 = 25 := by omega
  rcases block with h | h | h <;> simp only [targetOf, h]

theorem targetOf_ring {a : Nat} (h0 : 0x1200000 ≤ a) (h1 : a < 0x1300000) : targetOf a = some 6 := by
  have block : a / 0x100000 = 18 := by omega
  simp only [targetOf, block]

/-- What the access codes make of a write that is taken: the register alone, and nothing is sent. -/
theorem plainWrite_completes (s : State) (a : Nat) (v : Word) :
    rd (plainWrite s a v) a = codedWord a (rd s a) v ∧ RegsSameBut [a] s (plainWrite s a v) ∧
      MemorySame s (plainWrite s a v) ∧ (plainWrite s a v).out = s.out := by
  obtain ⟨-, -, hout⟩ := plainWrite_rest s a v
  exact ⟨(rd_plainWrite s a a v).trans (if_pos rfl), regsSameBut_plainWrite s a v, memorySame_plainWrite s a v, hout⟩

/-- A write of the fault mask may record the first fault, where none is driven yet (R467). -/
theorem faultMask_completes (s : State) (v : Word) :
    let t := faultRecord s (plainWrite s R.HLT_FAULT_MASK v)
    rd t R.HLT_FAULT_MASK = codedWord R.HLT_FAULT_MASK (rd s R.HLT_FAULT_MASK) v ∧ MemorySame s t ∧
      RegsSameBut [R.HLT_FAULT_MASK, R.HLT_FIRST, R.HLT_FIRST_TIME_LO, R.HLT_FIRST_TIME_HI] s t ∧
      (faultDriven s = true → RegsSameBut [R.HLT_FAULT_MASK] s t) := by
  intro t
  obtain ⟨hword, hregs, hmem, -⟩ := plainWrite_completes s R.HLT_FAULT_MASK v
  have kept {c : Nat} (hc : c ∉ [R.HLT_FIRST, R.HLT_FIRST_TIME_LO, R.HLT_FIRST_TIME_HI]) :
      Keeps c true (plainWrite s R.HLT_FAULT_MASK v) t := (Keeps.refl _).faultRecord hc s
  have keptMask := kept (c := R.HLT_FAULT_MASK) (by decide)
  refine ⟨keptMask.word.trans hword, ⟨fun a => ?_, (keptMask.arrays rfl).trans hmem.2⟩, fun a ha => ?_, fun hd => ?_⟩
  · rw [keptMask.dram]; exact hmem.1 a
  · obtain ⟨hmask, hfirst⟩ := not_or.1 (mt List.mem_cons.2 ha)
    exact (kept hfirst).word.trans (hregs a (by simpa using hmask))
  · have recorded : t = plainWrite s R.HLT_FAULT_MASK v := by simp [t, faultRecord, hd]
    exact recorded ▸ hregs

/-- The high word of a pair brings the written value into force with the low word as it stands (R8). -/
theorem getPair_plainWrite_high (s : State) {a : Nat} (hlow : isPairLow a = true) (hhigh : isPairLow (a + 4) = false)
    (hrw : accMask (a + 4) .rw ≠ 0) (v : Word) :
    getPair (plainWrite s (a + 4) v) a = getR s a + (codedWord (a + 4) (rd s (a + 4)) v).toNat * 2 ^ 32 := by
  have written : plainWrite s (a + 4) v = writePairHigh s a (codedWord (a + 4) (rd s (a + 4)) v) := by
    unfold plainWrite
    dsimp only
    rw [if_neg fun h => hrw h.2]
    simp [hhigh, hlow]
  rw [written, getPair_writePairHigh]

/-! ## Reads (R8, R9) -/

theorem and_not_zero (w : Word) : w &&& ~~~(0 : Word) = w :=
  (congrArg (w &&& ·) BitVec.not_zero).trans BitVec.and_allOnes

theorem regRead_word {s : State} {m : Master} {a tgt : Nat} (ht : targetOf a = some tgt) (hr : reaches m tgt = true)
    (harr : arrayAt a = none) (hdom : (arrayDomain a).all (domOn s) = true) (hpanic : a ≠ R.MEM_PANIC_TIME) :
    regRead s m a = ((wordRead s m a).1, some (wordRead s m a).2) := by
  have on : (arrayDomain a).any (fun d => !domOn s d) = false := by
    cases hd : arrayDomain a with
    | none => rfl
    | some d => simpa [hd] using hdom
  simp [regRead, ht, hr, harr, on, hpanic]

/-- Reading a register that no pair holds clears its read-to-clear bits alone (R9). -/
theorem clearRc_completes (s : State) (a : Nat) :
    (clearRc s a 0).out = s.out ∧ rd (clearRc s a 0) a = rd s a &&& ~~~(accMask a .rc) ∧
      RegsSameBut [a] s (clearRc s a 0) ∧ MemorySame s (clearRc s a 0) := by
  unfold clearRc accMask
  cases RegMap.row? a with
  | none => exact ⟨rfl, (and_not_zero _).symm, fun _ _ => rfl, fun _ => rfl, rfl⟩
  | some r =>
    dsimp only
    generalize ((r.fields.filter (·.acc == .rc)).foldl (fun w f => w ||| Fld.mask ⟨a, f.hi, f.lo⟩) 0 : Word) = mask
    generalize hu : (if a = R.PWR_TEMP_MAX then { s with pwr := { s.pwr with tempRead := false } } else s) = u
    obtain ⟨hregs, hdram, harr, hout⟩ :
        u.regs = s.regs ∧ u.dram = s.dram ∧ u.arrays = s.arrays ∧ u.out = s.out := by
      rw [← hu]; split <;> exact ⟨rfl, rfl, rfl, rfl⟩
    have same (b : Nat) : rd u b = rd s b := rd_congr hregs b
    by_cases hz : mask = 0
    · rw [if_pos hz]
      exact ⟨hout, by rw [same, hz, and_not_zero], fun b _ => same b, fun b => by rw [hdram], harr⟩
    · rw [if_neg hz]
      refine ⟨hout, by rw [rd_wr_same, same, and_not_zero], fun b hb => ?_, fun b => ?_, harr⟩
      · exact (rd_wr_ne u _ (List.ne_of_not_mem_cons hb)).trans (same b)
      · rw [wr_dram, hdram]

theorem wordRead_plain {s : State} {m : Master} {a : Nat} (hlow : isPairLow a = false) (hhigh : isPairLow (a - 4) = false)
    (hsee : privileged m = true ∨ hiddenBits s a = 0) : wordRead s m a = (clearRc s a 0, shown s a) := by
  have hidden : (if privileged m then 0 else hiddenBits s a) = 0 := by
    rcases hsee with h | h <;> simp [h]
  unfold wordRead
  simp only [hidden, hlow, hhigh, and_not_zero, Bool.false_eq_true, false_and, if_false]

theorem wordRead_pairLow (s : State) (m : Master) {a : Nat} (h : isPairLow a = true) :
    wordRead s m a = ({ s with pairLatch := s.pairLatch.put (16 * a + masterCode m) (shown s (a + 4)) }, shown s a) := by
  simp [wordRead, h]

/-! ## The mirrored set and the weight store (R222, R461) -/

theorem mirroredSetWrite_weight {s : State} {m : Master} {addr : Nat} (h : weightRefused s m (addr / 4 * 4) = none) (v : Word) :
    mirroredSetWrite s m true addr v =
      mirroredWrite s true (addr / 4 * 4) ((wordBytes v).map some) (!weightTouches s (addr / 4 * 4) ((wordBytes v).map some))
        (weightWrite · (addr / 4 * 4) ((wordBytes v).map some)) := by
  have on : domOn s (beamDomain (weightBeam (addr / 4 * 4))) = true := by
    simp only [weightRefused] at h
    split at h
    · cases h
    · split at h
      · assumption
      · cases h
  simp [mirroredSetWrite, h, weightAccess, arrayAccess, on]

theorem arrGet_arrSet (s : State) (x : Arr) (d i j : Nat) (v : DWord) :
    arrGet (arrSet s x j v) x d i = if i = j then v else arrGet s x d i := by
  simp [arrGet, arrSet, SMap.get_put, Arr.key]

/-- The four bytes of a word go to four entries of the weight store, one after the other. -/
theorem weightStore_word (s : State) (a : Nat) (v : Word) {i : Nat} (hi : i < 4) (d : Nat) :
    arrGet (weightStore s a ((wordBytes v).map some)) .weight d (a + i) = ((wordBytes v).getD i 0).setWidth 64 := by
  have store : weightStore s a ((wordBytes v).map some) =
      arrSet (arrSet (arrSet (arrSet s .weight (a + 0) (((wordBytes v).getD 0 0).setWidth 64))
        .weight (a + 1) (((wordBytes v).getD 1 0).setWidth 64)) .weight (a + 2) (((wordBytes v).getD 2 0).setWidth 64))
        .weight (a + 3) (((wordBytes v).getD 3 0).setWidth 64) := rfl
  rw [store]
  interval_cases i <;> simp [arrGet_arrSet, wordBytes, leBytes]

theorem weightStore_rest (s : State) (a : Nat) (v : Word) :
    (weightStore s a ((wordBytes v).map some)).regs = s.regs ∧ (weightStore s a ((wordBytes v).map some)).dram = s.dram :=
  ⟨rfl, rfl⟩

/-- A word that meets no protected byte is stored (R223). -/
theorem weightWrite_word {s : State} {a : Nat} (h : ∀ i, i < 4 → weightProtected s (a + i) = false) (v : Word) :
    weightWrite s a ((wordBytes v).map some) = weightStore s a ((wordBytes v).map some) := by
  have untouched : weightTouches s a ((wordBytes v).map some) = false := by
    have first : weightProtected s a = false := h 0 (by decide)
    simp [weightTouches, wordBytes, leBytes, first, h 1, h 2, h 3]
  simp [weightWrite, untouched]

end Sys2Proof.Machine
end

section
/-! The clauses of register access over the matrix, one lemma for each kind of command. -/
namespace Sys2Proof.Machine

/-! ## REGISTER_WRITE, RC_REGISTER_READ and PAIR_LOW_WORD_READ -/

section write
variable {s : State} {m : Master} {addr : BitVec 26} {a : Nat} (hs : Sends s m)
include hs

/-- A write to a register that some rule serves completes with what `regWrite` makes of it. -/
theorem completes_regWrite (ha : a = addr.toNat / 4 * 4) {tgt : Nat} (ht : targetOf a = some tgt)
    (hr : writeRefused s m a = none) (hbell : a ≠ R.MBX_DOORBELL) {v : Word} {post : State → Prop}
    (hp : post (regWrite s m a v)) : Completes (.registerWrite m addr v 0xF) s post :=
  completes_runBy rfl hs (by rwa [busWrite_accepted ha ht hr hbell])

theorem registerWrite_ringBase (ha : a = addr.toNat / 4 * 4) (n : Fin 4096)
    (hn : a = R.DMA_RING_BASE_LO n ∨ a = R.DMA_RING_BASE_LO n + 4) (hr : writeRefused s m a = none) {v : Word}
    {post : State → Prop} (hp : post (plainWrite s a v)) : Completes (.registerWrite m addr v 0xF) s post := by
  have place : 0x1200000 ≤ a ∧ a < 0x1300000 := by
    have := n.isLt
    simp only [R.DMA_RING_BASE_LO] at hn
    omega
  have hbell : a ≠ R.MBX_DOORBELL := by simp only [R.MBX_DOORBELL]; omega
  exact completes_regWrite hs ha (targetOf_ring place.1 place.2) hr hbell (by rwa [regWrite_ringBase n hn])

theorem rcRegisterRead_completes (ha : a = addr.toNat / 4 * 4) {tgt : Nat} (ht : targetOf a = some tgt)
    (hr : reaches m tgt = true) (harr : arrayAt a = none) (hdom : (arrayDomain a).all (domOn s) = true)
    (hpanic : a ≠ R.MEM_PANIC_TIME) (be : BitVec 4) (hlow : isPairLow a = false) (hhigh : isPairLow (a - 4) = false)
    (hsee : privileged m = true ∨ hiddenBits s a = 0) :
    Completes (.rcRegisterRead m addr be) s fun t =>
      t.out = s.out ++ [.readData m a (shown s a &&& byteMask be)] ∧ rd t a = rd s a &&& ~~~(accMask a .rc) ∧
      RegsSameBut [a] s t ∧ MemorySame s t := by
  have read : busRead s m addr.toNat be = emit (clearRc s a 0) (.readData m a (shown s a &&& byteMask be)) := by
    rw [busRead_eq, ← ha, regRead_word ht hr harr hdom hpanic, wordRead_plain hlow hhigh hsee]; rfl
  obtain ⟨hout, hword, hregs, hmem⟩ := clearRc_completes s a
  refine completes_runBy rfl hs ?_
  rw [read]
  exact ⟨by rw [emit, hout], hword, hregs, hmem⟩

theorem pairLowWordRead_completes (ha : a = addr.toNat / 4 * 4) {tgt : Nat} (ht : targetOf a = some tgt)
    (hr : reaches m tgt = true) (harr : arrayAt a = none) (hdom : (arrayDomain a).all (domOn s) = true)
    (hpanic : a ≠ R.MEM_PANIC_TIME) (hlow : isPairLow a = true) :
    Completes (.pairLowWordRead m addr) s fun t =>
      t.out = s.out ++ [.readData m a (shown s a)] ∧
      t.pairLatch.find (16 * a + masterCode m) = some (shown s (a + 4)) ∧ RegsSameBut [] s t ∧ MemorySame s t := by
  refine completes_runBy rfl hs ?_
  rw [busRead_eq, ← ha, regRead_word ht hr harr hdom hpanic, wordRead_pairLow s m hlow]
  refine ⟨?_, SMap.find_put_same _ _ _, fun _ _ => rfl, fun _ => rfl, rfl⟩
  simp only [emit, readAnswer, and_byteMask_full]

end write

/-! ## MIRRORED_SET_WRITE to the weight store -/

section weight
variable {s : State} {m : Master} {addr : BitVec 26} (hs : Sends s m)
  (hr : weightRefused s m (addr.toNat / 4 * 4) = none) (v : Word)
include hs hr

theorem mirroredSetWrite_rejected (h1 : 1 ≤ twinState s) (h4 : twinState s ≤ 4) :
    Completes (.mirroredSetWrite m true addr v) s fun t =>
      (rd t R.TWN_MIRROR_REJECT_COUNT).toNat = min ((rd s R.TWN_MIRROR_REJECT_COUNT).toNat + 1) 0xFFFFFFFF ∧
      RegsSameBut [R.TWN_MIRROR_REJECT_COUNT] s t ∧ MemorySame s t := by
  refine completes_runBy rfl hs ?_
  rw [mirroredSetWrite_weight hr, mirroredWrite, if_pos ⟨h1, h4⟩]
  exact bump_completes s R.TWN_MIRROR_REJECT_COUNT

theorem mirroredSetWrite_untwinned (h0 : twinState s = 0)
    (hfree : ∀ i, i < 4 → weightProtected s (addr.toNat / 4 * 4 + i) = false) :
    Completes (.mirroredSetWrite m true addr v) s fun t =>
      (∀ i, i < 4 → arrGet t .weight (beamDomain (weightBeam (addr.toNat / 4 * 4))) (addr.toNat / 4 * 4 + i) =
        ((wordBytes v).getD i 0).setWidth 64) ∧ RegsSameBut [] s t ∧ ∀ a, readByte t.dram a = readByte s.dram a := by
  have stored : mirroredSetWrite s m true addr.toNat v =
      weightStore s (addr.toNat / 4 * 4) ((wordBytes v).map some) := by
    rw [mirroredSetWrite_weight hr, mirroredWrite, if_neg (by omega), if_neg (by omega), weightWrite_word hfree]
  obtain ⟨hregs, hdram⟩ := weightStore_rest s (addr.toNat / 4 * 4) v
  refine completes_runBy rfl hs ?_
  rw [stored]
  exact ⟨fun i hi => weightStore_word s _ v hi _, fun a _ => rd_congr hregs a, fun a => by rw [hdram]⟩

end weight

/-! ## MATRIX_TIMEOUT -/

theorem masterCode_le_one (m : Master) : masterCode m ≤ 1 ↔ m = .supervisor ∨ m = .timekeeper := by
  cases m with
  | beryl k => simp only [masterCode, reduceCtorEq, or_self, iff_false]; omega
  | _ => simp [masterCode]

/-- A read of the host that times out completes with every byte 0xFF; a write is dropped (R376). -/
theorem matrixTimeout_host (s : State) (target a : Nat) (write : Bool) :
    Keeps R.MTX_TIMEOUT_COUNT true (bumpBy s R.MTX_TIMEOUT_COUNT 1) (matrixTimeout s .host target a write) ∧
      (write = false → .readData .host a 0xFFFFFFFF ∈ (matrixTimeout s .host target a write).out) := by
  have failed := (Keeps.refl (c := R.MTX_TIMEOUT_COUNT) (b := true) (bumpBy s R.MTX_TIMEOUT_COUNT 1)).busError_timeoutCount
    (masterCode .host) target 3 a write
  cases write with
  | true => exact ⟨failed, nofun⟩
  | false => exact ⟨failed.emit _, fun _ => List.mem_append_right _ (List.mem_singleton_self _)⟩

/-- The count is as far as the time-out has brought it, whatever the master then makes of the error. -/
theorem matrixTimeout_completes (s : State) (m : Master) (target a : Nat) (write : Bool) :
    (rd (matrixTimeout s m target a write) R.MTX_TIMEOUT_COUNT).toNat = min ((rd s R.MTX_TIMEOUT_COUNT).toNat +
        if m = .supervisor ∨ m = .timekeeper then 2 else 1) 0xFFFFFFFF ∧
      (∀ b, readByte (matrixTimeout s m target a write).dram b = readByte s.dram b) ∧
      (write = true ∨ (∀ k, m ≠ .beryl k) → MemorySame s (matrixTimeout s m target a write)) ∧
      (m = .host → write = false → .readData .host a 0xFFFFFFFF ∈ (matrixTimeout s m target a write).out) ∧
      (m ≠ .host → .errorResponse m a ∈ (matrixTimeout s m target a write).out) := by
  by_cases hm : m = .host
  · subst hm
    obtain ⟨kept, hdata⟩ := matrixTimeout_host s target a write
    refine ⟨?_, kept.memorySame.1, fun _ => kept.memorySame, fun _ => hdata, fun h => absurd rfl h⟩
    rw [kept.word, toNat_rd_bumpBy, if_neg (by simp)]
  · have keeps (b : Bool) (hb : b = true → write = true ∨ ∀ k, m ≠ .beryl k) :
        Keeps R.MTX_TIMEOUT_COUNT b (bumpBy s R.MTX_TIMEOUT_COUNT (if masterCode m ≤ 1 then 2 else 1))
          (matrixTimeout s m target a write) := by
      obtain ⟨u, hu, ht⟩ := Keeps.matrixTimeout (b := b) s hm target a write hb
      exact (Keeps.emit ⟨hu.word, hu.dram, fun _ => hu.arrays rfl, hu.sent⟩ _).trans ht
    have kept := keeps false nofun
    refine ⟨?_, fun b => by rw [kept.dram]; rfl, fun h => (keeps true fun _ => h).memorySame, fun h => absurd h hm,
      fun _ => ?_⟩
    · simp only [kept.word, toNat_rd_bumpBy, masterCode_le_one]
    · obtain ⟨u, -, ht⟩ := Keeps.matrixTimeout (b := false) s hm target a write nofun
      exact ht.mem_out (List.mem_append_right _ (List.mem_singleton_self _))

end Sys2Proof.Machine

namespace Sys2Proof
open Machine

/-- Settles O37: a write of fewer than four bytes is no action at all, and a read's word and effect on the registers come
from `regRead`, which does not see the byte enables. -/
theorem subWordAccess : Obligations.SubWordAccess := by
  unfold Obligations.SubWordAccess
  intro s m addr v be hs
  refine ⟨fun hbe => ?_, fun t w ht hw => ?_⟩
  · exact (runBy_sends hs _).trans (congrArg _ (busWrite_subWord s m _ v hbe))
  · obtain rfl : busRead s m addr.toNat 0xF = t := by
      injection (runBy_sends hs fun s => busRead s m addr.toNat 0xF).symm.trans ht
    rw [busRead_eq, getLast?_emit, Option.some.injEq] at hw
    refine completes_runBy rfl hs ⟨?_, ?_⟩
    · rw [busRead_eq, getLast?_emit, readAnswer_bytes hw]
    · rw [busRead_eq, busRead_eq]; rfl

/-- Settles O36, clause by clause: what the bus matrix makes of the access (refused, by access code, pair, counted), with the
frames of the reports. -/
theorem registerAccessCompletes : Obligations.RegisterAccessCompletes := by
  unfold Obligations.RegisterAccessCompletes
  refine ⟨fun s m addr v a hs ha => ⟨?_, ?_, ?_, ?_, ?_⟩, fun s m addr a tgt hs ha ht hr harr hdom hpanic => ⟨?_, ?_⟩,
    fun s m addr v hs => ⟨?_, ?_⟩, fun s m addr write waited hs htgt hw => ?_, fun s hs => ?_,
    fun s addr v be hs hd => ?_⟩
  · exact fun be hbe => completes_runBy rfl hs (busWrite_subWord s m _ v hbe)
  · exact fun kind hk hm => completes_runBy rfl hs (by
      rw [busWrite_refused ha hk]
      exact writeError_completes s hm _ kind a)
  · exact fun h0 h1 hf hk _ _ hr => completes_regWrite hs ha (targetOf_upperBlocks h0 h1) hr
      (by simp only [R.MBX_DOORBELL]; omega) (by
        rw [regWrite_plain h0 hf hk]
        exact plainWrite_completes s a v)
  · rintro rfl hr
    exact completes_regWrite hs ha (targetOf_upperBlocks (by decide) (by decide)) hr (by decide) (by
      rw [regWrite_faultMask]
      exact faultMask_completes s v)
  · intro n hr
    obtain ⟨hword, hregs, hmem, -⟩ := plainWrite_completes s a v
    refine ⟨fun hlo => registerWrite_ringBase hs ha n (.inl hlo) hr ⟨?_, hword, hregs, hmem⟩,
      fun hhi => registerWrite_ringBase hs ha n (.inr hhi) hr ⟨?_, hregs, hmem⟩⟩
    · exact getPair_plainWrite_low s (hlo ▸ isPairLow_ringBaseLo n) v
    · rw [hhi]
      exact getPair_plainWrite_high s (isPairLow_ringBaseLo n) (isPairLow_ringBaseHi n) (accMask_ringBaseHi n) v
  · exact rcRegisterRead_completes hs ha ht hr harr hdom hpanic
  · exact pairLowWordRead_completes hs ha ht hr harr hdom hpanic
  · exact fun h1 h4 hr => mirroredSetWrite_rejected hs hr v h1 h4
  · exact fun h0 hr hfree => mirroredSetWrite_untwinned hs hr v h0 hfree
  · obtain ⟨tgt, ht⟩ := Option.isSome_iff_exists.1 htgt
    refine completes_runBy rfl hs ?_
    simp only [ht, if_neg (Nat.not_lt.2 hw)]
    exact matrixTimeout_completes s m tgt _ write
  · exact ⟨bump s R.MTX_LATE_RESP_COUNT, congrArg _ (if_pos hs), bump_completes s _⟩
  · exact ⟨s, congrArg _ ((if_pos hs).trans (if_pos ⟨rfl, hd⟩)), rfl⟩

end Sys2Proof
end

section
/-! What the operations on the way of START, STOP, the end of a stop and the frame tick leave alone: the run state, the
local counter, the events already raised, the registers below a given address and, for those that write none, memory. -/
namespace Sys2Proof.Machine

/-- In `t` the run state and the local counter stand as in `s`, as do the registers below `lim` and, where `m` is true,
memory; events have only been added. -/
structure Steady (lim : Nat) (m : Bool) (s t : State) : Prop where
  word : ∀ a < lim, rd t a = rd s a
  memory : m = true → t.dram = s.dram ∧ t.arrays = s.arrays
  arch : t.arch = s.arch
  counter : t.counter = s.counter
  pulses : s.pulses <+: t.pulses

namespace Steady

variable {lim : Nat} {m : Bool} {s t u : State}

theorem refl (s : State) : Steady lim m s s := ⟨fun _ _ => rfl, fun _ => ⟨rfl, rfl⟩, rfl, rfl, List.prefix_refl _⟩

theorem trans (h : Steady lim m s t) (h' : Steady lim m t u) : Steady lim m s u where
  word a ha := (h'.word a ha).trans (h.word a ha)
  memory hm := ⟨(h'.memory hm).1.trans (h.memory hm).1, (h'.memory hm).2.trans (h.memory hm).2⟩
  arch := h'.arch.trans h.arch
  counter := h'.counter.trans h.counter
  pulses := h.pulses.trans h'.pulses

theorem mono (h : Steady lim m s t) {lim' : Nat} (hl : lim' ≤ lim) : Steady lim' m s t :=
  ⟨fun a ha => h.word a (ha.trans_le hl), h.memory, h.arch, h.counter, h.pulses⟩

/-- Memory need not be asked for. -/
theorem any (h : Steady lim true s t) : Steady lim m s t := ⟨h.word, fun _ => h.memory rfl, h.arch, h.counter, h.pulses⟩

theorem getF (h : Steady lim m s t) {f : Fld} (hf : f.addr < lim) : getF t f = Machine.getF s f := by
  rw [Machine.getF, h.word _ hf, Machine.getF]

theorem mem_pulses (h : Steady lim m s t) {e : Nat} (he : e ∈ s.pulses) : e ∈ t.pulses := h.pulses.subset he

theorem memorySame (h : Steady lim true s t) : MemorySame s t := ⟨fun _ => by rw [(h.memory rfl).1], (h.memory rfl).2⟩

/-! ## Ways to compose -/

/-- A state that differs from a steady one only in what the units hold beside registers, memory and run state is steady. -/
theorem same (h : Steady lim m s t) (hr : u.regs = t.regs) (hd : u.dram = t.dram) (ha : u.arrays = t.arrays)
    (harch : u.arch = t.arch) (hc : u.counter = t.counter) (hp : u.pulses = t.pulses) : Steady lim m s u :=
  h.trans ⟨fun a _ => rd_congr hr a, fun _ => ⟨hd, ha⟩, harch, hc, hp ▸ List.prefix_refl _⟩

/-- Where neither registers nor memory are asked for, only run state, counter and events count. -/
theorem timed (h : Steady 0 false s t) (harch : u.arch = t.arch) (hc : u.counter = t.counter) (hp : u.pulses = t.pulses) :
    Steady 0 false s u :=
  h.trans ⟨nofun, nofun, harch, hc, hp ▸ List.prefix_refl _⟩

theorem ite {p : Prop} [Decidable p] (ht : Steady lim m s t) (hu : Steady lim m s u) :
    Steady lim m s (if p then t else u) := by
  split
  · exact ht
  · exact hu

theorem foldl {α : Type} {f : State → α → State} (hf : ∀ t x, Steady lim m s t → Steady lim m s (f t x)) (l : List α)
    (h : Steady lim m s t) : Steady lim m s (l.foldl f t) := by
  induction l generalizing t with
  | nil => exact h
  | cons x l ih => exact ih (hf t x h)

theorem foldl_fst {α β : Type} {f : State × β → α → State × β}
    (hf : ∀ p x, Steady lim m s p.1 → Steady lim m s (f p x).1) (l : List α) {p : State × β} (h : Steady lim m s p.1) :
    Steady lim m s (l.foldl f p).1 := by
  induction l generalizing p with
  | nil => exact h
  | cons x l ih => exact ih (hf p x h)

theorem of_fst {β : Type} {p : State × β} {x : β} (e : p = (u, x)) (h : Steady lim m s p.1) : Steady lim m s u := by
  rwa [e] at h

/-! ## The named updates -/

theorem wr (h : Steady lim m s t) {a : Nat} (hl : lim ≤ a) (v : Word) : Steady lim m s (wr t a v) :=
  h.trans ⟨fun _ hb => rd_wr_ne t v (hb.trans_le hl).ne, fun _ => ⟨rfl, rfl⟩, rfl, rfl, List.prefix_refl _⟩

theorem setR (h : Steady lim m s t) {a : Nat} (hl : lim ≤ a) (v : Nat) : Steady lim m s (setR t a v) := h.wr hl _

theorem setF (h : Steady lim m s t) {f : Fld} (hl : lim ≤ f.addr) (v : Nat) : Steady lim m s (setF t f v) := h.wr hl _

theorem setB (h : Steady lim m s t) {a : Nat} (hl : lim ≤ a) (i : Nat) (b : Bool) : Steady lim m s (setB t a i b) :=
  h.wr hl _

theorem setPair (h : Steady lim m s t) {a : Nat} (hl : lim ≤ a) (v : Nat) : Steady lim m s (setPair t a v) :=
  ((h.setR hl _).setR (Nat.le_add_right_of_le hl) _).same rfl rfl rfl rfl rfl rfl

theorem bumpBy (h : Steady lim m s t) {a : Nat} (hl : lim ≤ a) (n : Nat) : Steady lim m s (bumpBy t a n) :=
  (h.setR hl _).same rfl rfl rfl rfl rfl rfl

theorem bump (h : Steady lim m s t) {a : Nat} (hl : lim ≤ a) : Steady lim m s (bump t a) := h.bumpBy hl 1

theorem raise (h : Steady lim m s t) (src : Nat) : Steady lim m s (raise t src) :=
  ite (h.trans ⟨fun _ _ => rfl, fun _ => ⟨rfl, rfl⟩, rfl, rfl, List.prefix_append _ _⟩) h

/-! ## Units of which only the registers count -/

theorem setCor (h : Steady lim m s t) (f : Cor → Cor) : Steady lim m s (setCor t f) := h.same rfl rfl rfl rfl rfl rfl
theorem setInteg (h : Steady lim m s t) (f : Integ → Integ) : Steady lim m s (setInteg t f) := h.same rfl rfl rfl rfl rfl rfl
theorem setTrg (h : Steady lim m s t) (f : Trg → Trg) : Steady lim m s (setTrg t f) := h.same rfl rfl rfl rfl rfl rfl
theorem setBfm (h : Steady lim m s t) (f : Bfm → Bfm) : Steady lim m s (setBfm t f) := h.same rfl rfl rfl rfl rfl rfl
theorem setXr (h : Steady lim m s t) (f : Xr → Xr) : Steady lim m s (setXr t f) := h.same rfl rfl rfl rfl rfl rfl
theorem setMem (h : Steady lim m s t) (f : MemCtl → MemCtl) : Steady lim m s (setMem t f) := h.same rfl rfl rfl rfl rfl rfl

/-! ## Faults (R467) and the vectors of the cores (R289) -/

theorem faultRecord (h : Steady lim m s t) (hl : lim ≤ 0x1800000) (u : State) : Steady lim m s (faultRecord u t) :=
  ite h ((h.setF (hl.trans (by decide)) _).setPair (hl.trans (by decide)) _)

theorem setFaults (h : Steady lim m s t) (hl : lim ≤ 0x1800000) (w : Word) : Steady lim m s (setFaults t w) :=
  (h.wr hl _).faultRecord hl _

theorem fault (h : Steady lim m s t) (hl : lim ≤ 0x1800000) (n : Nat) : Steady lim m s (fault t n) := h.setFaults hl _

theorem refreshLevels (h : Steady lim m s t) (hl : lim ≤ 0x1800000) : Steady lim m s (refreshLevels t) := h.setFaults hl _

theorem brlWake (h : Steady lim m s t) (hl : lim ≤ 0xD00000) (k : Nat) : Steady lim m s (brlWake t k) :=
  ite ((h.setF (f := F.BRL_STATUS_STATE k) (Nat.le_add_right_of_le (hl.trans (by decide))) 1).same rfl rfl rfl rfl rfl rfl) h

theorem brlPend (h : Steady lim m s t) (hl : lim ≤ 0xD00000) (k v : Nat) : Steady lim m s (brlPend t k v) :=
  ite (h.bump (Nat.le_add_right_of_le (hl.trans (by decide))))
    ((h.setB (Nat.le_add_right_of_le (hl.trans (by decide))) v true).brlWake hl k)

theorem brlPendAll (h : Steady lim m s t) (hl : lim ≤ 0xD00000) (v : Nat) : Steady lim m s (brlPendAll t v) :=
  h.foldl (fun _ k h => ite (h.brlPend hl k v) h) _

/-! ## Messages and notices (R355, R356) -/

theorem emit (h : Steady lim m s t) (o : Out) : Steady lim m s (emit t o) := h.same rfl rfl rfl rfl rfl rfl

theorem msix (h : Steady lim m s t) (hl : lim ≤ 0x7000) (v : Nat) : Steady lim m s (msix t v) :=
  ite h (ite (h.setB (Nat.le_add_right_of_le hl) ..) (h.emit _))

theorem notice (h : Steady lim m s t) (hl : lim ≤ 0x7000) (cmd tag status : Nat) :
    Steady lim m s (notice t cmd tag status) := by
  have shown := (h.setR (a := R.MBX_NOTICE_TAG) (hl.trans (by decide)) tag).setR (a := R.MBX_NOTICE_STATUS)
    (hl.trans (by decide)) (cmd * 2 ^ 16 + status)
  have ended (mail : Mail) : Steady lim m s { Machine.setR (Machine.setR t _ _) _ _ with mail } :=
    shown.same rfl rfl rfl rfl rfl rfl
  exact (((ended _).setF (f := F.MBX_STATUS_NOTICE) (hl.trans (by decide)) 1).msix hl 2047).raise 30

/-! ## Accesses to DRAM (R302, R306 to R309) -/

section memory
variable (hl : lim ≤ 0x1100000)
include hl

theorem memLog (h : Steady lim false s t) (kind req symbol a synd : Nat) :
    Steady lim false s (memLog t kind req symbol a synd) := by
  have written (b : Nat) (bs : List Byte) : Steady lim false s (dramWrite t b bs) :=
    h.trans ⟨fun _ _ => rfl, nofun, rfl, rfl, List.prefix_refl _⟩
  exact ite ((h.bump (hl.trans (by decide))).setF (hl.trans (by decide)) 1) ((written _ _).setF (hl.trans (by decide)) _)

theorem guardReport (h : Steady lim false s t) (req a : Nat) : Steady lim false s (guardReport t req a) :=
  ((h.bump (hl.trans (by decide))).setF (hl.trans (by decide)) 1).memLog hl ..

theorem ueReport (h : Steady lim false s t) (req line : Nat) (rmw : Bool) (ws : List Nat) :
    Steady lim false s (ueReport t req line rmw ws) :=
  (((((h.foldl (fun _ _ h => h.memLog hl ..) ws).setMem _).bump (hl.trans (by decide))).setF
    (hl.trans (by decide)) 1).raise 12).fault (hl.trans (by decide)) 6

theorem lineReport (h : Steady lim false s t) (req line : Nat) : Steady lim false s (lineReport t req line) :=
  h.ueReport hl ..

theorem leaveSelfRefresh (h : Steady lim false s t) (u : Nat) : Steady lim false s (leaveSelfRefresh t u) := by
  have state : lim ≤ R.MEM_STATE u := Nat.le_add_right_of_le (hl.trans (by decide))
  exact ite (((h.setF state 0).setF state 0).setF state 0) h

theorem served (h : Steady lim false s t) (req a n : Nat) : Steady lim false s (served t req a n) :=
  ite ((h.setMem _).foldl (fun _ u h => h.leaveSelfRefresh hl u) _) (h.setMem _)

theorem unitWrite (h : Steady lim false s t) (req a : Nat) (bs : List Byte) : Steady lim false s (unitWrite t req a bs) := by
  have written : Steady lim false s (dramWrite (Machine.served t req a bs.length) a bs) :=
    (h.served hl ..).trans ⟨fun _ _ => rfl, nofun, rfl, rfl, List.prefix_refl _⟩
  exact ite h (ite (h.guardReport hl ..) (written.foldl (fun _ _ h => h.ueReport hl ..) _))

theorem unitFetch (h : Steady lim false s t) (req a n : Nat) : Steady lim false s (unitFetch t req a n).1 := by
  unfold Machine.unitFetch
  split
  · exact h.served hl ..
  · exact ite h (ite (h.guardReport hl ..) ((h.served hl ..).foldl (fun _ _ h => h.lineReport hl ..) _))

end memory

/-! ## The fold unit (R197, R198, R217) -/

theorem setChanState (h : Steady lim m s t) (hl : lim ≤ 0xA00040) (z c st : Nat) :
    Steady lim m s (setChanState t z c st) :=
  h.setF (Nat.le_add_right_of_le (Nat.le_add_right_of_le hl)) st

theorem setChanRec (h : Steady lim m s t) (n c : Nat) (f : ChanRec → ChanRec) : Steady lim m s (setChanRec t n c f) :=
  h.setInteg _

theorem abandonInteg (h : Steady lim m s t) (hl : lim ≤ 0xA00038) (n : Nat) : Steady lim m s (abandonInteg t n) := by
  have dirty := (h.foldl (fun t c h => ite (h.setChanState (hl.trans (by decide)) (n % 2) c 0) h) (List.range 64)
    (f := fun t c => if (t.integ.recs.find (64 * n + c)).isSome then Machine.setChanState t (n % 2) c 0 else t))
  exact (ite (((dirty.setInteg _).setF hl 0).setInteg _) (dirty.setInteg _)).bump (hl.trans (by decide))

section fold
variable (hl : lim ≤ 0xA00004)
include hl

theorem foldLine (h : Steady lim false s t) (a : Nat) (ts : List (Int × Int)) (dirty : Bool) :
    Steady lim false s (foldLine t a ts dirty).1 := by
  unfold Machine.foldLine
  split
  · exact h.unitWrite (hl.trans (by decide)) ..
  · exact (h.unitFetch (hl.trans (by decide)) ..).unitWrite (hl.trans (by decide)) ..

theorem foldBlock (h : Steady lim false s t) (z c b : Nat) (acc : SMap UnitAcc) (cal8 dirty : Bool) :
    Steady lim false s (foldBlock t z c b acc cal8 dirty).1 := by
  refine foldl_fst (fun p l h => ?_) (List.range 2048) h
  extract_lets a
  split
  · next ts _ =>
    have folded := h.foldLine hl a ts dirty
    generalize Machine.foldLine p.1 a ts dirty = line at folded ⊢
    obtain ⟨u, sat, ue⟩ := line
    have counted : Steady lim false s (if sat = 0 then u else
        Machine.setF (Machine.bumpBy u R.INT_FOLD_SAT_COUNT sat) F.INT_STATUS_FOLD_SAT 1) :=
      ite folded ((folded.bumpBy (hl.trans (by decide)) sat).setF hl 1)
    exact ite ((counted.bump (hl.trans (by decide))).setF hl 1) counted
  · split
    · exact h.unitWrite (hl.trans (by decide)) ..
    · exact h

theorem foldChannel (h : Steady lim false s t) (span c : Nat) (r : ChannelRecord) :
    Steady lim false s (foldChannel t span c r) := by
  unfold Machine.foldChannel
  refine ite h ?_
  extract_lets
  split
  next u flags hf =>
    have folded : Steady lim false s u := of_fst hf (foldl_fst (fun p b h => by
      dsimp only
      exact h.foldBlock hl ..) _ h)
    exact (folded.setChanState (hl.trans (by decide)) ..).setChanRec ..

theorem beginFolding (h : Steady lim m s t) (span : Nat) : Steady lim m s (beginFolding t span) :=
  ite (((h.setInteg _).setPair (hl.trans (by decide)) _).setF hl _) h

theorem foldingEnd (h : Steady lim m s t) (span : Nat) : Steady lim m s (foldingEnd t span) :=
  ite (ite ((h.setInteg _).beginFolding hl _) (h.setInteg _)) h

end fold

/-! ## The correlator (R172 to R192) -/

theorem releaseAll (h : Steady lim m s t) : Steady lim m s (releaseAll t) := by
  unfold Machine.releaseAll releaseTiles
  split
  · refine h.foldl (fun t e h => ?_) _
    split
    · exact ite (h.setCor _) h
    · exact h
  · exact h

section correlator
variable (hl : lim ≤ 0x900004)
include hl

theorem setTile (h : Steady lim m s t) (i st unit : Nat) : Steady lim m s (setTile t i st unit) := by
  have tile : lim ≤ R.COR_TILE_STATE i := Nat.le_add_right_of_le (hl.trans (by decide))
  exact (h.setF tile st).setF tile unit

theorem setPool (h : Steady lim m s t) (pool : List Nat) : Steady lim m s (setPool t pool) :=
  (h.setCor _).setF (hl.trans (by decide)) _

theorem haltShow (h : Steady lim m s t) : Steady lim m s (haltShow t) :=
  (h.setF hl _).refreshLevels (hl.trans (by decide))

theorem giveUnit (h : Steady lim m s t) (i e span c : Nat) : Steady lim m s (giveUnit t i e span c) :=
  (((h.setTile hl i 2 e).setR (Nat.le_add_right_of_le (hl.trans (by decide))) _).setR
    (Nat.le_add_right_of_le (hl.trans (by decide))) _).setR (Nat.le_add_right_of_le (hl.trans (by decide))) _

theorem buildMap (h : Steady lim m s t) (cal8 : Bool) (span : Nat) : Steady lim m s (buildMap t cal8 span) := by
  unfold Machine.buildMap
  extract_lets usable units used mapped cleared given pooled next shown
  have h1 : Steady lim m s used := (h.setF (hl.trans (by decide)) _).setF (hl.trans (by decide)) _
  have h2 : Steady lim m s mapped := h1.foldl (fun _ _ h => h.setR (Nat.le_add_right_of_le (hl.trans (by decide))) _) _
  have h3 : Steady lim m s cleared := h2.foldl (fun _ _ h => h.setTile hl ..) _
  have h4 : Steady lim m s given := h3.foldl (fun _ _ h => h.giveUnit hl ..) _
  have h5 : Steady lim m s pooled := (h4.setCor _).setPool hl _
  have h6 : Steady lim m s shown := (h5.setF (hl.trans (by decide)) _).haltShow hl
  exact ite ((h6.setF hl 1).fault (hl.trans (by decide)) 5) h6

theorem skipFrom (h : Steady lim false s t) (span c status : Nat) : Steady lim false s (skipFrom t span c status) :=
  h.foldl (fun _ _ h => (h.bumpBy (hl.trans (by decide)) _).foldChannel (hl.trans (by decide)) ..) _

theorem corIdle (h : Steady lim m s t) : Steady lim m s (corIdle t) := (h.setF hl 0).setCor _

theorem corCompute (h : Steady lim m s t) (c : Nat) : Steady lim m s (corCompute t c) :=
  ((h.setF hl 1).setF hl c).setCor _

theorem corStart (h : Steady lim m s t) (span : Nat) : Steady lim m s (corStart t span) := by
  unfold Machine.corStart
  extract_lets cal8 noted mode built
  have h1 : Steady lim m s mode := ((h.setCor _).setPair (hl.trans (by decide)) _).setF hl _
  have h2 : Steady lim m s built := ite h1 (h1.buildMap hl ..)
  exact (h2.setCor _).corCompute hl 0

theorem corNext (h : Steady lim m s t) : Steady lim m s (corNext t) := by
  unfold Machine.corNext
  split
  · exact ite (h.corStart hl _) h
  · exact h

theorem startupDone (h : Steady lim m s t) : Steady lim m s (startupDone t) := (h.buildMap hl ..).corNext hl

theorem corAbort (h : Steady lim false s t) : Steady lim false s (corAbort t) := by
  unfold Machine.corAbort
  have busy := h.setF (f := F.COR_STATUS_ABORT_BUSY) hl 1
  dsimp only
  split
  · exact ite (busy.setCor _)
      (((((busy.bumpBy (hl.trans (by decide)) _).skipFrom hl ..).foldingEnd (hl.trans (by decide)) _).setCor _).corIdle hl)
  · exact busy

end correlator

/-! ## The trigger engine's captures (R257 to R262) -/

theorem rawShow (h : Steady lim m s t) (hl : lim ≤ 0xC00004) : Steady lim m s (rawShow t) :=
  ((h.setF (hl.trans (by decide)) _).setF (hl.trans (by decide)) _).foldl (fun _ _ h =>
    (h.setF (Nat.le_add_right_of_le (hl.trans (by decide))) _).setF (Nat.le_add_right_of_le (hl.trans (by decide))) _) _

theorem captureCheck (h : Steady lim m s t) (hl : lim ≤ 0xC00004) (c : Nat) : Steady lim m s (captureCheck t c) := by
  have state : lim ≤ (F.TRG_CAPTURE_STATE c).addr := Nat.le_add_right_of_le (hl.trans (by decide))
  exact ite (((h.setF state 2).raise 9).brlPendAll (hl.trans (by decide)) 7) (ite (h.setF state 1) h)

theorem captureChecks (h : Steady lim m s t) (hl : lim ≤ 0xC00004) : Steady lim m s (captureChecks t) :=
  (h.rawShow hl).foldl (fun _ c h => h.captureCheck hl c) _

theorem clearStatistics (h : Steady lim m s t) (hl : lim ≤ 0xC00004) : Steady lim m s (clearStatistics t) := by
  unfold Machine.clearStatistics
  extract_lets cleared
  have h1 : Steady lim m s cleared := h.foldl (fun _ _ h =>
    (h.setR (Nat.le_add_right_of_le (hl.trans (by decide))) 0).setF (Nat.le_add_right_of_le (hl.trans (by decide))) 0) _
  exact h1.setTrg _

theorem unclaimFrom (h : Steady lim m s t) (hl : lim ≤ 0xC00004) (fs : Nat) : Steady lim m s (unclaimFrom t fs) := by
  unfold Machine.unclaimFrom
  extract_lets gone unclaimed
  have h1 : Steady lim m s unclaimed := h.foldl (fun _ _ h =>
    (((h.foldl (fun _ _ h => h.setF (Nat.le_add_right_of_le (hl.trans (by decide))) 1) _).setF
      (Nat.le_add_right_of_le (hl.trans (by decide))) 0).setF (Nat.le_add_right_of_le (hl.trans (by decide))) 0).setTrg _) gone
  exact ite h1 (h1.captureChecks hl)

end Steady

/-! ## The enables of the data path's units -/

theorem flag_iff (s : State) (f : Fld) : flag s f = true ↔ getF s f ≠ 0 := by simp [flag]

/-- A field of one bit reads as the truth value it was set to. -/
theorem getF_setF_bit (s : State) {f : Fld} (h : f.hi < 32) (hw : f.lo = f.hi) (b : Bool) :
    getF (setF s f (ofBool b)) f = ofBool b := by
  rw [getF_setF_same s f h hw.le, hw, Nat.add_sub_cancel_left]
  cases b <;> rfl

/-- A field of one bit that is not 0 is 1. -/
theorem getF_bit_of_flag {s : State} {f : Fld} (hw : f.lo = f.hi) (h : flag s f = true) : getF s f = 1 := by
  have below : getF s f < 2 ^ (f.hi + 1 - f.lo) := Nat.mod_lt _ (by positivity)
  rw [hw, Nat.add_sub_cancel_left] at below
  have := (flag_iff s f).1 h
  omega

section enables
variable (s : State) (en : Bool)

theorem setXrEnable_steady : Steady 0x800004 true (setF s F.XR_CTRL_EN (ofBool en)) (setXrEnable s en) := by
  have h := Steady.refl (lim := 0x800004) (m := true) (setF s F.XR_CTRL_EN (ofBool en))
  exact .ite ((h.setF (by decide) 1).setXr _) (.ite (h.setXr _) h)

theorem corEnable_steady :
    Steady 0x900004 true (if flag s F.COR_CTRL_EN then s else setF s F.COR_CTRL_EN 1) (corEnable s) := by
  unfold corEnable
  split
  · exact Steady.refl s
  · have h := Steady.refl (lim := 0x900004) (m := true) (setF s F.COR_CTRL_EN 1)
    extract_lets enabled tiles shown testing queued
    have h1 : Steady 0x900004 true (setF s F.COR_CTRL_EN 1) queued :=
      ((((h.setCor _).setPool le_rfl _).haltShow le_rfl).foldl (fun _ _ h => h.setTile le_rfl ..) _).setCor _
    split
    · exact h1.startupDone le_rfl
    · exact h1.setF (by decide) _

theorem corDisable_steady :
    Steady 0x900004 false (if flag s F.COR_CTRL_EN then setF s F.COR_CTRL_EN 0 else s) (corDisable s) := by
  unfold corDisable
  split
  · exact ((((Steady.refl _).releaseAll).corAbort le_rfl).foldl (fun _ _ h => h.setTile le_rfl ..) _).setCor _
  · exact Steady.refl s

theorem setIntEnable_steady : Steady 0xA00004 true (setF s F.INT_CTRL_EN (ofBool en)) (setIntEnable s en) := by
  have h := Steady.refl (lim := 0xA00004) (m := true) (setF s F.INT_CTRL_EN (ofBool en))
  unfold setIntEnable
  extract_lets was folded enabled dirty
  have h1 : Steady 0xA00004 true (setF s F.INT_CTRL_EN (ofBool en)) dirty := h.foldl (fun u k h => by
    cases u.integ.readout with
    | none => exact h.setChanState (by decide) ..
    | some r => exact .ite h (h.setChanState (by decide) ..)) _
  exact .ite ((h1.setF (by decide) 1).setInteg _)
    (.ite ((h.foldl (fun _ n h => h.abandonInteg (by decide) n) folded).setF (by decide) 0) h)

theorem setBfmEnable_steady : Steady 0xB00004 true (setF s F.BFM_CTRL_EN (ofBool en)) (setBfmEnable s en) :=
  (Steady.refl _).setF (by decide) _

theorem setTrgEnable_steady : Steady 0xC00004 true (setF s F.TRG_CTRL_EN (ofBool en)) (setTrgEnable s en) := by
  have h := Steady.refl (lim := 0xC00004) (m := true) (setF s F.TRG_CTRL_EN (ofBool en))
  unfold setTrgEnable
  extract_lets was enabled fresh free cleared
  have h1 : Steady 0xC00004 true (setF s F.TRG_CTRL_EN (ofBool en)) cleared :=
    (h.clearStatistics le_rfl).foldl (fun _ _ h => h.setR (Nat.le_add_right_of_le (by decide)) 0) free
  exact .ite ((h1.setTrg _).setF le_rfl 1) (.ite ((h.setF le_rfl 0).setTrg _) h)

@[simp] theorem getF_setXrEnable : getF (setXrEnable s en) F.XR_CTRL_EN = ofBool en :=
  ((setXrEnable_steady s en).getF (by decide)).trans (getF_setF_bit s (by decide) rfl en)

@[simp] theorem getF_setIntEnable : getF (setIntEnable s en) F.INT_CTRL_EN = ofBool en :=
  ((setIntEnable_steady s en).getF (by decide)).trans (getF_setF_bit s (by decide) rfl en)

@[simp] theorem getF_setBfmEnable : getF (setBfmEnable s en) F.BFM_CTRL_EN = ofBool en :=
  ((setBfmEnable_steady s en).getF (by decide)).trans (getF_setF_bit s (by decide) rfl en)

@[simp] theorem getF_setTrgEnable : getF (setTrgEnable s en) F.TRG_CTRL_EN = ofBool en :=
  ((setTrgEnable_steady s en).getF (by decide)).trans (getF_setF_bit s (by decide) rfl en)

@[simp] theorem getF_corEnable : getF (corEnable s) F.COR_CTRL_EN = 1 := by
  rw [(corEnable_steady s).getF (by decide)]
  split
  · next h => exact getF_bit_of_flag rfl h
  · exact getF_setF_bit s (by decide) rfl true

@[simp] theorem getF_corDisable : getF (corDisable s) F.COR_CTRL_EN = 0 := by
  rw [(corDisable_steady s).getF (by decide)]
  split
  · exact getF_setF_bit s (by decide) rfl false
  · next h => exact not_not.1 (mt (flag_iff s _).2 h)

end enables

namespace Steady
variable {lim : Nat} {m : Bool} {s t : State}

theorem corEnable (h : Steady lim m s t) (hl : lim ≤ 0x900000) : Steady lim m s (corEnable t) :=
  (ite h (h.setF hl 1)).trans ((corEnable_steady t).mono (hl.trans (by decide))).any

theorem corDisable (h : Steady lim false s t) (hl : lim ≤ 0x900000) : Steady lim false s (corDisable t) :=
  (ite (h.setF hl 0) h).trans ((corDisable_steady t).mono (hl.trans (by decide)))

theorem setXrEnable (h : Steady lim m s t) (hl : lim ≤ 0x800000) (en : Bool) : Steady lim m s (setXrEnable t en) :=
  (h.setF hl _).trans ((setXrEnable_steady t en).mono (hl.trans (by decide))).any

theorem setIntEnable (h : Steady lim m s t) (hl : lim ≤ 0xA00000) (en : Bool) : Steady lim m s (setIntEnable t en) :=
  (h.setF hl _).trans ((setIntEnable_steady t en).mono (hl.trans (by decide))).any

theorem setBfmEnable (h : Steady lim m s t) (hl : lim ≤ 0xB00000) (en : Bool) : Steady lim m s (setBfmEnable t en) :=
  (h.setF hl _).trans ((setBfmEnable_steady t en).mono (hl.trans (by decide))).any

theorem setTrgEnable (h : Steady lim m s t) (hl : lim ≤ 0xC00000) (en : Bool) : Steady lim m s (setTrgEnable t en) :=
  (h.setF hl _).trans ((setTrgEnable_steady t en).mono (hl.trans (by decide))).any

end Steady

/-! ## The run begins (R24, R217) -/

theorem foldl_field {α β : Type} (g : State → β) {f : State → α → State} (hf : ∀ s x, g (f s x) = g s) (l : List α)
    (s : State) : g (l.foldl f s) = g s := by
  induction l generalizing s with
  | nil => rfl
  | cons x l ih => exact (ih _).trans (hf s x)

theorem clearStatistics_integ (s : State) : (clearStatistics s).integ = s.integ := by
  unfold clearStatistics
  extract_lets cleared
  have h1 : cleared.integ = s.integ := foldl_field State.integ (fun _ _ => by rfl) _ s
  exact (setTrg_integ cleared _).trans h1

theorem setTrgEnable_integ (s : State) (en : Bool) : (setTrgEnable s en).integ = s.integ := by
  unfold setTrgEnable
  extract_lets was enabled cleared free segments
  have h1 : segments.integ = s.integ :=
    (foldl_field State.integ (fun _ _ => by rfl) free cleared).trans (clearStatistics_integ enabled)
  split
  · exact h1
  · split <;> rfl

/-- What START makes of the run it begins at frame `f0`. -/
theorem startRun_completes (s : State) (f0 : Nat) :
    (startRun s f0).arch = { s.arch with running := true, startFrame := f0, stopFrame := none } ∧
      MemorySame s (startRun s f0) ∧ getF (startRun s f0) F.XR_CTRL_EN = 1 ∧ getF (startRun s f0) F.COR_CTRL_EN = 1 ∧
      getF (startRun s f0) F.INT_CTRL_EN = 1 ∧ getF (startRun s f0) F.BFM_CTRL_EN = 1 ∧
      getF (startRun s f0) F.TRG_CTRL_EN = 1 ∧
      (startRun s f0).integ.first = some ((f0 + spanLen s * integLen s - 1) / (spanLen s * integLen s)) := by
  unfold startRun
  extract_lets si noted filled xr cor integ bfm
  have toXr : Steady 0x800000 true filled xr := ((Steady.refl _).setXrEnable le_rfl true).setXr _
  have toCor : Steady 0x900000 true xr cor := ((Steady.refl _).corEnable le_rfl).setCor _
  have toInteg : Steady 0xA00000 true cor integ := ((Steady.refl _).setIntEnable le_rfl true).setInteg _
  have toBfm : Steady 0xB00000 true integ bfm := ((Steady.refl _).setBfmEnable le_rfl true).setBfm _
  have fromBfm : Steady 0xC00000 true bfm (setTrgEnable bfm true) := (Steady.refl _).setTrgEnable le_rfl true
  have fromInteg := toBfm.trans (fromBfm.mono (by decide))
  have fromCor := toInteg.trans (fromInteg.mono (by decide))
  have fromXr := toCor.trans (fromCor.mono (by decide))
  have fromStart := toXr.trans (fromXr.mono (by decide))
  refine ⟨fromStart.arch, fromStart.memorySame, ?_, ?_, ?_, ?_, ?_, ?_⟩
  · exact (fromXr.getF (by decide)).trans (getF_setXrEnable filled true)
  · exact (fromCor.getF (by decide)).trans (getF_corEnable xr)
  · exact (fromInteg.getF (by decide)).trans (getF_setIntEnable cor true)
  · exact (fromBfm.getF (by decide)).trans (getF_setBfmEnable integ true)
  · exact getF_setTrgEnable bfm true
  · rw [setTrgEnable_integ]
    rfl

end Sys2Proof.Machine
end

section
/-! What a served command of the mailbox or of the relay path runs, and what its answer shows (R356, R357, R412). -/
namespace Sys2Proof.Machine

/-- A command that `exec` carries out as a function of the state completes, on a block that is up, with that function's
state. -/
theorem completes_run {c : Instr} {s : State} {f : State → State} {post : State → Prop} (hc : exec c s = run f s)
    (h : Up s) (hp : post (f s)) : Completes c s post :=
  ⟨f s, hc.trans (congrArg _ (if_pos h)), hp⟩

/-- A command that is served runs on a state that differs in the mailbox's queue at most. -/
theorem serve_served {s : State} {src : CmdSource} {cmd tag : Nat} {args : List Byte} (h : Served s src cmd tag args)
    (f : State → State) : ∃ mail, serve s src cmd tag args f = f { s with mail } := by
  cases src with
  | host =>
    obtain ⟨hstate, hrestart, hload⟩ := h
    exact ⟨s.mail, by simp [serve, hstate, hrestart, hload]⟩
  | relay port serial time =>
    obtain ⟨hload, hcmd, rest, hqueue⟩ := h
    exact ⟨{ s.mail with relay := rest }, by simp [serve, hqueue, hload, hcmd]⟩

/-! ## The words of an answer -/

theorem leNat_leBytes_append (k n : Nat) (bs : List Byte) :
    leNat (leBytes k n ++ bs) = n % 256 ^ k + 256 ^ k * leNat bs := by
  induction k generalizing n with
  | zero => simp [leBytes, Nat.mod_one]
  | succ k ih =>
    simp only [leBytes, List.cons_append, leNat, ih, BitVec.toNat_ofNat, Nat.reducePow]
    rw [pow_succ', Nat.mod_mul, Nat.mul_add, Nat.mul_assoc, Nat.add_assoc]

theorem rd_wrBytes (s : State) (a : Nat) (bs : List Byte) {n i : Nat} (hi : i < n) :
    rd (wrBytes s a bs n) (a + 4 * i) = BitVec.ofNat 32 (leNat ((bs.drop (4 * i)).take 4)) := by
  induction n generalizing s a bs i with
  | zero => omega
  | succ n ih =>
    cases i with
    | zero =>
      have kept : Keeps a true (setR s a (leNat (bs.take 4))) (wrBytes s a bs (n + 1)) :=
        (Keeps.refl _).wrBytes (.inl (by omega))
      simpa [setR] using kept.word
    | succ i =>
      have next := ih (setR s a (leNat (bs.take 4))) (a + 4) (bs.drop 4) (i := i) (by omega)
      rw [List.drop_drop] at next
      rwa [show a + 4 * (i + 1) = a + 4 + 4 * i by omega, show 4 * (i + 1) = 4 + 4 * i by omega]

theorem respond_host_eq (s : State) (cmd tag status : Nat) : respond s .host cmd tag status 0 [] =
    msix (setF (wrBytes s 0x12000 (responseHeader cmd 0 tag status 0) 4) F.MBX_STATUS_STATE 2) 2047 := by
  have len : (responseHeader cmd 0 tag status 0).length = 16 := by simp [responseHeader]
  simp only [respond, List.append_nil, List.length_nil, len, Nat.reduceAdd, Nat.reduceDiv]

/-- The response buffer holds an answer without data, and STATE reads ready. -/
theorem respond_host (s : State) {cmd tag status : Nat} (hc : cmd < 2 ^ 16) (ht : tag < 2 ^ 32) (hst : status < 2 ^ 16) :
    Answered (respond s .host cmd tag status 0 []) .host cmd tag status := by
  have buffer (i : Nat) (hi : i < 4) : getR (respond s .host cmd tag status 0 []) (0x12000 + 4 * i) =
      leNat (((responseHeader cmd 0 tag status 0).drop (4 * i)).take 4) % 2 ^ 32 := by
    have kept := ((Keeps.refl (c := 0x12000 + 4 * i) (b := true)
      (wrBytes s 0x12000 (responseHeader cmd 0 tag status 0) 4)).setF (f := F.MBX_STATUS_STATE) (by simp only [R.MBX_STATUS]; omega) 2).msix (v := 2047) (by omega)
    rw [getR, respond_host_eq, kept.word, rd_wrBytes s _ _ hi, BitVec.toNat_ofNat]
  have code : ((responseHeader cmd 0 tag status 0).drop (4 * 0)).take 4 = leBytes 2 cmd ++ (leBytes 2 0 ++ []) := rfl
  have tags : ((responseHeader cmd 0 tag status 0).drop (4 * 1)).take 4 = leBytes 4 tag ++ [] := rfl
  have stat : ((responseHeader cmd 0 tag status 0).drop (4 * 2)).take 4 = leBytes 2 status ++ (leBytes 2 0 ++ []) := rfl
  refine ⟨?_, ?_, ?_, ?_⟩
  · rw [buffer 0 (by decide), code, leNat_leBytes_append, leNat_leBytes_append, leNat]
    omega
  · rw [buffer 1 (by decide), tags, leNat_leBytes_append, leNat]
    omega
  · rw [buffer 2 (by decide), stat, leNat_leBytes_append, leNat_leBytes_append, leNat]
    omega
  · have kept := (Keeps.refl (c := R.MBX_STATUS) (b := true)
      (setF (wrBytes s 0x12000 (responseHeader cmd 0 tag status 0) 4) F.MBX_STATUS_STATE 2)).msix (v := 2047) (by decide)
    rw [respond_host_eq, getF, kept.word]
    exact getF_setF_same _ F.MBX_STATUS_STATE (by decide) (by decide) 2

/-- The answer to a relay path command is an MGMT_RSP frame on its port (R412). -/
theorem respond_relay (s : State) (port : Fin 2) (serial time : DWord) (cmd tag status : Nat) :
    Answered (respond s (.relay port serial time) cmd tag status 0 []) (.relay port serial time) cmd tag status := by
  have sent (u : State) (o : Out) : o ∈ (emit u o).out := List.mem_append_right _ (List.mem_singleton_self o)
  unfold respond sendMgmtRsp
  dsimp only
  split
  · exact ⟨_, sent _ _⟩
  · exact ⟨_, ((Keeps.refl (c := 0) (b := true) _).sendMgmtRsp ..).mem_out (sent _ _)⟩

theorem respond_answered (s : State) (src : CmdSource) {cmd tag status : Nat} (hc : cmd < 2 ^ 16) (ht : tag < 2 ^ 32)
    (hst : status < 2 ^ 16) : Answered (respond s src cmd tag status 0 []) src cmd tag status := by
  cases src with
  | host => exact respond_host s hc ht hst
  | relay port serial time => exact respond_relay s port serial time cmd tag status

theorem wrBytes_eq (s : State) (a : Nat) (bs : List Byte) (n : Nat) : ∃ regs, wrBytes s a bs n = { s with regs } := by
  induction n generalizing s a bs with
  | zero => exact ⟨s.regs, rfl⟩
  | succ n ih => exact ih (setR s a _) _ _

theorem sendMgmtRsp_eq (s : State) (port serial time off : Nat) (bs : List Byte) (n : Nat) :
    ∃ out, sendMgmtRsp s port serial time off bs n = { s with out } := by
  induction n generalizing s off bs with
  | zero => exact ⟨s.out, rfl⟩
  | succ n ih =>
    unfold sendMgmtRsp
    split
    · exact ⟨_, rfl⟩
    · exact ih (emit s _) _ _

theorem msix_eq (s : State) (v : Nat) : ∃ regs out, msix s v = { s with regs, out } := by
  unfold msix
  split_ifs
  · exact ⟨s.regs, s.out, rfl⟩
  · exact ⟨_, s.out, rfl⟩
  · exact ⟨s.regs, _, rfl⟩

/-- An answer changes registers and what is sent, and nothing else. -/
theorem respond_eq (s : State) (src : CmdSource) (cmd tag status detail : Nat) (data : List Byte) :
    ∃ regs out, respond s src cmd tag status detail data = { s with regs, out } := by
  unfold respond
  cases src with
  | host =>
    obtain ⟨regs, h⟩ := wrBytes_eq s 0x12000 (responseHeader cmd data.length tag status detail ++ data)
      (((responseHeader cmd data.length tag status detail ++ data).length + 3) / 4)
    obtain ⟨regs', out, h'⟩ := msix_eq (setF { s with regs } F.MBX_STATUS_STATE 2) 2047
    exact ⟨regs', out, by dsimp only; rw [h, h']; rfl⟩
  | relay port serial time =>
    obtain ⟨out, h⟩ := sendMgmtRsp_eq s port serial.toNat time.toNat 0
      (responseHeader cmd data.length tag status detail ++ data) 5
    exact ⟨s.regs, out, h⟩

/-- Beside the registers of answers an answer without data leaves every register and memory as they were. -/
theorem respond_mailOnly (s : State) (src : CmdSource) (cmd tag status detail : Nat) :
    MailOnlyBut [] s (respond s src cmd tag status detail []) :=
  ⟨fun _ ha _ => ((Keeps.refl (b := true) s).respond ha ..).word,
    ((Keeps.refl (c := 0) (b := true) s).respond (by simp [MailReg]) ..).memorySame⟩

end Sys2Proof.Machine
end

section
/-! START, STOP and the end of a stop (R24, R25). -/
namespace Sys2Proof.Machine

theorem not_mailReg_of_le {a : Nat} (h : 0x13000 ≤ a) : ¬ MailReg a := by
  simp only [MailReg, R.MBX_STATUS, R.MBX_NOTICE_TAG, R.MBX_NOTICE_STATUS, List.mem_cons, List.not_mem_nil, or_false]
  omega

theorem respond_getF (s : State) (src : CmdSource) (cmd tag status detail : Nat) {f : Fld} (hf : ¬ MailReg f.addr) :
    getF (respond s src cmd tag status detail []) f = getF s f := by
  rw [getF, (respond_mailOnly s src cmd tag status detail).1 _ hf (by simp), getF]

theorem startStatus_lt (s : State) (f0 : Nat) : startStatus s f0 < 2 ^ 16 := by
  unfold startStatus
  split_ifs <;> decide

theorem stopStatus_lt (s : State) (fs : Nat) : stopStatus s fs < 2 ^ 16 := by
  unfold stopStatus
  split_ifs <;> decide

theorem startStatus_running {s : State} (h : s.arch.running = true) (f0 : Nat) : startStatus s f0 = stNotReady := by
  simp [startStatus, h]

/-- What START answers and leaves, on the state it is served in. -/
theorem start_answers (s : State) (src : CmdSource) (tag : Word) (f0 : Nat) {t : State}
    (ht : t = respond (if startStatus s f0 = stOk then startRun s f0 else s) src 3 tag.toNat (startStatus s f0) 0 []) :
    Answered t src 3 tag.toNat (startStatus s f0) ∧ MemorySame s t ∧
      (s.arch.running = true → startStatus s f0 = stNotReady) ∧
      (startStatus s f0 ≠ stOk → t.arch = s.arch ∧ MailOnlyBut [] s t) ∧
      (startStatus s f0 = stOk →
        t.arch.running = true ∧ t.arch.startFrame = f0 ∧ t.arch.stopFrame = none ∧
        getF t F.XR_CTRL_EN = 1 ∧ getF t F.COR_CTRL_EN = 1 ∧ getF t F.INT_CTRL_EN = 1 ∧ getF t F.BFM_CTRL_EN = 1 ∧
        getF t F.TRG_CTRL_EN = 1 ∧
        t.integ.first = some ((f0 + spanLen s * integLen s - 1) / (spanLen s * integLen s))) := by
  have answered : Answered t src 3 tag.toNat (startStatus s f0) :=
    ht ▸ respond_answered _ src (by decide) tag.isLt (startStatus_lt s f0)
  by_cases hok : startStatus s f0 = stOk
  · rw [if_pos hok] at ht
    obtain ⟨harch, hmem, hxr, hcor, hint, hbfm, htrg, hfirst⟩ := startRun_completes s f0
    obtain ⟨regs, out, heq⟩ := respond_eq (startRun s f0) src 3 tag.toNat (startStatus s f0) 0 []
    have arch : t.arch = (startRun s f0).arch := by rw [ht, heq]
    have mem : MemorySame s t := ⟨fun a => by rw [ht, heq]; exact hmem.1 a, by rw [ht, heq]; exact hmem.2⟩
    have field {f : Fld} (hf : ¬ MailReg f.addr) : getF t f = getF (startRun s f0) f := by
      rw [ht, respond_getF _ _ _ _ _ _ hf]
    refine ⟨answered, mem, fun h => startStatus_running h f0, fun h => absurd hok h, fun _ => ?_⟩
    refine ⟨by rw [arch, harch], by rw [arch, harch], by rw [arch, harch], ?_, ?_, ?_, ?_, ?_, by rw [ht, heq]; exact hfirst⟩
    · exact (field (not_mailReg_of_le (by decide))).trans hxr
    · exact (field (not_mailReg_of_le (by decide))).trans hcor
    · exact (field (not_mailReg_of_le (by decide))).trans hint
    · exact (field (not_mailReg_of_le (by decide))).trans hbfm
    · exact (field (not_mailReg_of_le (by decide))).trans htrg
  · rw [if_neg hok] at ht
    have mail : MailOnlyBut [] s t := ht ▸ respond_mailOnly ..
    obtain ⟨regs, out, heq⟩ := respond_eq s src 3 tag.toNat (startStatus s f0) 0 []
    exact ⟨answered, mail.2, fun h => startStatus_running h f0, fun _ => ⟨by rw [ht, heq], mail⟩, fun h => absurd h hok⟩

/-- The data path with the stop frame that a STOP has fixed. -/
def stopNoted (s : State) (fs : Nat) : State :=
  if stopStatus s fs = stOk ∧ s.arch.running ∧ s.arch.stopFrame.isNone then
    setArch s fun a => { a with stopFrame := some (if fs = 0 then nextTick s else fs) }
  else s

theorem stopNoted_rest (s : State) (fs : Nat) :
    (stopNoted s fs).regs = s.regs ∧ (stopNoted s fs).dram = s.dram ∧ (stopNoted s fs).arrays = s.arrays := by
  unfold stopNoted
  split <;> exact ⟨rfl, rfl, rfl⟩

theorem stopNoted_arch (s : State) (fs : Nat) : (stopNoted s fs).arch =
    if stopStatus s fs = stOk ∧ s.arch.running = true ∧ s.arch.stopFrame = none then
      { s.arch with stopFrame := some (if fs = 0 then nextTick s else fs) } else s.arch := by
  simp only [stopNoted, Option.isNone_iff_eq_none]
  split <;> rfl

/-- What STOP answers and leaves, on the state it is served in. -/
theorem stop_answers (s : State) (src : CmdSource) (tag : Word) (fs : Nat) {t : State}
    (ht : t = respond (stopNoted s fs) src 4 tag.toNat (stopStatus s fs) 0 []) :
    Answered t src 4 tag.toNat (stopStatus s fs) ∧ MailOnlyBut [] s t ∧ t.arch = (stopNoted s fs).arch := by
  obtain ⟨hregs, hdram, harrays⟩ := stopNoted_rest s fs
  obtain ⟨hmail, hbytes, harr⟩ := respond_mailOnly (stopNoted s fs) src 4 tag.toNat (stopStatus s fs) 0
  obtain ⟨regs, out, heq⟩ := respond_eq (stopNoted s fs) src 4 tag.toNat (stopStatus s fs) 0 []
  subst ht
  refine ⟨respond_answered _ src (by decide) tag.isLt (stopStatus_lt s fs), ⟨fun a ha hl => ?_, fun a => ?_, ?_⟩, ?_⟩
  · exact (hmail a ha hl).trans (rd_congr hregs a)
  · rw [hbytes, hdram]
  · exact harr.trans harrays
  · rw [heq]

/-! ## The data path has stopped -/

theorem replayStop_arch (s : State) : (replayStop s).arch = s.arch := by
  have shown : Steady 0 true s (setF s F.YDX_STATUS_STATE 0) := (Steady.refl s).setF (Nat.zero_le _) 0
  have stopped : Steady 0 true s (replayStop s) :=
    .ite (.ite (shown.notice (Nat.zero_le _) ..) shown) (Steady.refl s)
  exact stopped.arch

/-- The end of a replay shows in Yodex's status and the supervisor's registers only (R356, R435). -/
theorem getF_replayStop (s : State) {f : Fld} (hf : ¬ MailReg f.addr) (hy : f.addr ≠ R.YDX_STATUS) :
    getF (replayStop s) f = getF s f := by
  have shown := (Keeps.refl (b := true) s).setF (f := F.YDX_STATUS_STATE) hy 0
  have kept : Keeps f.addr true s (replayStop s) := .ite (.ite (shown.notice hf ..) shown) (Keeps.refl s)
  rw [getF, kept.word, getF]

/-- When the data path has stopped, no unit of it is enabled. -/
theorem stopRun_completes (s : State) :
    (stopRun s).arch.running = false ∧ (stopRun s).arch.stopFrame = none ∧ getF (stopRun s) F.XR_CTRL_EN = 0 ∧
      getF (stopRun s) F.XR_STATUS_RUNNING = 0 ∧ getF (stopRun s) F.COR_CTRL_EN = 0 ∧ getF (stopRun s) F.INT_CTRL_EN = 0 ∧
      getF (stopRun s) F.BFM_CTRL_EN = 0 ∧ getF (stopRun s) F.TRG_CTRL_EN = 0 := by
  unfold stopRun
  extract_lets reloaded xr trg
  have replayed {f : Fld} (hf : ¬ MailReg f.addr) (hy : f.addr ≠ R.YDX_STATUS) (g : Arch → Arch) :
      getF (replayStop (setArch trg g)) f = getF trg f := getF_replayStop _ hf hy
  have fromBfm : Steady 0xC00000 false (setBfmEnable (setIntEnable (corDisable xr) false) false) trg :=
    (Steady.refl _).setTrgEnable le_rfl false
  have fromInt : Steady 0xB00000 false (setIntEnable (corDisable xr) false) trg :=
    ((Steady.refl _).setBfmEnable le_rfl false).trans (fromBfm.mono (by decide))
  have fromCor : Steady 0xA00000 false (corDisable xr) trg :=
    ((Steady.refl _).setIntEnable le_rfl false).trans (fromInt.mono (by decide))
  have fromXr : Steady 0x900000 false xr trg := ((Steady.refl _).corDisable le_rfl).trans (fromCor.mono (by decide))
  refine ⟨by rw [replayStop_arch, setArch_self], by rw [replayStop_arch, setArch_self], ?_, ?_, ?_, ?_, ?_, ?_⟩ <;>
    rw [replayed (not_mailReg_of_le (by decide)) (by decide)]
  · refine (fromXr.getF (by decide)).trans ?_
    exact (getF_setF_other _ F.XR_STATUS_RUNNING F.XR_CTRL_EN (by decide) (by decide) (by decide) 0
      (.inl (by decide))).trans (getF_setF_bit _ (by decide) rfl false)
  · exact (fromXr.getF (by decide)).trans (getF_setF_bit _ (by decide) rfl false)
  · exact (fromCor.getF (by decide)).trans (getF_corDisable xr)
  · exact (fromInt.getF (by decide)).trans (getF_setIntEnable _ false)
  · exact (fromBfm.getF (by decide)).trans (getF_setBfmEnable _ false)
  · exact getF_setTrgEnable _ false

/-- At its tick, with the readouts ended, DATA_PATH_STOP_COMPLETE stops the data path. -/
theorem dataPathStopComplete_eq {s : State} {fs : Nat} (hup : Up s) (hstop : s.arch.stopFrame = some fs)
    (hrun : s.arch.running = true) (hend : stopEnd s fs ≤ frameOf s) (hread : s.integ.readout = none) :
    exec .dataPathStopComplete s = .next (stopRun s) := by
  refine (congrArg Host.Outcome.next (if_pos (show s.arch.up = true from hup))).trans ?_
  simp only [hstop, hrun, hend, hread, Option.isNone_none, and_self, if_true]

end Sys2Proof.Machine
end

section
/-! The work due at a frame tick (R26, R27, R29): it leaves the run state and the local counter as they were, and the events
it raises stay raised. -/
namespace Sys2Proof.Machine
namespace Steady

variable {s t u : State}

/-! ## The twin link (R459 to R465) -/

theorem setTwin (h : Steady 0 false s t) (f : Twin → Twin) : Steady 0 false s (setTwin t f) := h.timed rfl rfl rfl

theorem sendOn (h : Steady 0 false s t) (lanes : List Nat) (header payload : List Byte) :
    Steady 0 false s (sendOn t lanes header payload) := ite (h.emit _) h

theorem sendTwin (h : Steady 0 false s t) (kind offset : Nat) (payload : List Byte) :
    Steady 0 false s (sendTwin t kind offset payload) := by
  refine sendOn ?_ ..
  exact h.timed rfl rfl rfl

theorem twinJoinEnd (h : Steady 0 false s t) (status detail : Nat) : Steady 0 false s (twinJoinEnd t status detail) := by
  unfold Machine.twinJoinEnd
  split
  · refine notice ?_ (Nat.zero_le _) ..
    exact h.timed rfl rfl rfl
  · exact h

theorem twinRestore (h : Steady 0 false s t) (x : TwinSaved) : Steady 0 false s (twinRestore t x) := by
  unfold Machine.twinRestore
  extract_lets kept dropped restored
  have h0 : Steady 0 false s dropped := h.timed rfl rfl rfl
  have h1 : Steady 0 false s restored := h0.foldl (fun _ e h => h.wr (Nat.zero_le _) e.2) _
  exact h1.timed rfl rfl rfl

theorem twinDiscard (h : Steady 0 false s t) : Steady 0 false s (twinDiscard t) := by
  unfold Machine.twinDiscard
  split
  · exact h.twinRestore _
  · exact h

theorem twinUnsync (h : Steady 0 false s t) (cause detail : Nat) : Steady 0 false s (twinUnsync t cause detail) := by
  refine twinJoinEnd ?_ ..
  exact h.timed rfl rfl rfl

theorem twinAbandon (h : Steady 0 false s t) (cause : Nat) : Steady 0 false s (twinAbandon t cause) :=
  ite ((h.twinDiscard.twinUnsync cause cause).bump (Nat.zero_le _)) h

theorem snapFrames (words : List (Bool × Nat)) (h : Steady 0 false s t) (n i : Nat) :
    Steady 0 false s (snapFrames words n t i) := by
  induction n generalizing t i with
  | zero => exact h
  | succ n ih => exact ih (h.sendTwin ..) _

theorem sliceIn (h : Steady 0 false s t) : Steady 0 false s (sliceIn t) :=
  (h.setF (Nat.zero_le _) 0).refreshLevels (Nat.zero_le _)

theorem busErrorOnce (h : Steady 0 false s t) (m target kind addr : Nat) (write : Bool) :
    Steady 0 false s (busErrorOnce t m target kind addr write) :=
  ((h.wr (Nat.zero_le _) _).setPair (Nat.zero_le _) _).bump (Nat.zero_le _)

/-- The error of the twin engine's master: it only marks the copy as abandoned. -/
theorem snapError (h : Steady 0 false s t) (e : Bool × Nat) (write : Bool) : Steady 0 false s (snapError t e write) := by
  unfold Machine.snapError busError
  rw [if_neg (by decide), if_pos rfl]
  exact (h.busErrorOnce 8 (if e.1 then 4 else 2) 2 e.2 write).timed rfl rfl rfl

theorem snapOver (words : List (Bool × Nat)) (h : Steady 0 false s t) : Steady 0 false s (snapOver words t) := by
  unfold Machine.snapOver
  split
  · exact h.snapError ..
  · exact ((h.setR (Nat.zero_le _) _).setR (Nat.zero_le _) _).snapFrames words _ 0

theorem snapSend (h : Steady 0 false s t) : Steady 0 false s (snapSend t) := h.snapOver twinLayout

theorem digestCompare (h : Steady 0 false s t) (a b : Digest) : Steady 0 false s (digestCompare t a b) := by
  unfold Machine.digestCompare
  extract_lets d matched f synced emitting mismatched
  have h1 : Steady 0 false s matched := h.bump (Nat.zero_le _)
  have h2 : Steady 0 false s emitting := ((h1.setF (Nat.zero_le _) 4).setPair (Nat.zero_le _) f).setTwin _
  have h3 : Steady 0 false s mismatched :=
    ((h.bump (Nat.zero_le _)).setR (Nat.zero_le _) d).fault (Nat.zero_le _) 21
  exact ite (ite (h2.sliceIn.twinJoinEnd _ _) h1) (h3.setTwin _)

theorem digestMeet (h : Steady 0 false s t) : Steady 0 false s (digestMeet t) :=
  ite h ((h.setTwin _).foldl (fun _ _ h => ite (h.digestCompare _ _) h) _)

theorem digestTick (h : Steady 0 false s t) (f : Nat) : Steady 0 false s (digestTick t f) :=
  ite h ((h.sendTwin ..).setTwin _).digestMeet

theorem joinTick (h : Steady 0 false s t) (f : Nat) : Steady 0 false s (joinTick t f) := by
  unfold Machine.joinTick
  extract_lets joined
  have h1 : Steady 0 false s joined := (h.clearStatistics (Nat.zero_le _)).setTwin _
  exact ite h (ite h1.snapSend (ite (h1.twinAbandon 5) h1))

theorem twinTick (h : Steady 0 false s t) (f : Nat) : Steady 0 false s (twinTick t f) := by
  unfold Machine.twinTick
  extract_lets heard kept
  have h1 : Steady 0 false s heard := (h.setTwin _).joinTick f
  have h2 : Steady 0 false s kept := ite (h1.twinAbandon 2) h1
  exact ite h (ite (ite (h2.setF (Nat.zero_le _) 0) h2) ((h2.sendTwin ..).digestTick f))

/-! ## The raw ring (R257, R258) -/

theorem segmentDone (h : Steady 0 false s t) (k : Nat) : Steady 0 false s (segmentDone t k) :=
  (ite ((h.setF (Nat.zero_le _) 3).setF (Nat.zero_le _) 0) (h.setF (Nat.zero_le _) 2)).captureChecks (Nat.zero_le _)

theorem rawGap (h : Steady 0 false s t) (k f : Nat) : Steady 0 false s (rawGap t k f) :=
  (((h.bump (Nat.zero_le _)).setF (Nat.zero_le _) 1).setF (Nat.zero_le _) _).rawShow (Nat.zero_le _)

theorem rawStore (h : Steady 0 false s t) (k f : Nat) (sigs : Nat → Bool) : Steady 0 false s (rawStore t k f sigs) :=
  h.foldl (fun _ _ h => ite (h.unitWrite (Nat.zero_le _) ..) h) _

theorem rawWrite (h : Steady 0 false s t) (f : Nat) : Steady 0 false s (rawWrite t f) := by
  unfold Machine.rawWrite
  split
  · exact h
  · exact ite (h.rawStore ..) ((ite (h.guardReport (Nat.zero_le _) ..) h).rawGap ..)

theorem rawEnd (h : Steady 0 false s t) (f : Nat) : Steady 0 false s (rawEnd t f) := by
  unfold Machine.rawEnd
  extract_lets taken
  have h1 : Steady 0 false s taken := h.setTrg _
  split
  · exact ite (h1.segmentDone _) h1
  · exact h1

theorem rawCommit (h : Steady 0 false s t) (f : Nat) : Steady 0 false s (rawCommit t f) :=
  h.foldl (fun _ g h => (h.rawWrite g).rawEnd g) _

/-! ## Triggers of a replayed frame (R244 to R263) -/

theorem setCaptureRange (h : Steady 0 false s t) (c : Nat) (r : Nat × Nat) : Steady 0 false s (setCaptureRange t c r) :=
  (((h.setR (Nat.zero_le _) _).setR (Nat.zero_le _) _).setR (Nat.zero_le _) _).setR (Nat.zero_le _) _

theorem claimBlock (h : Steady 0 false s t) {c b : Nat} (hu : claimBlock t c b = .done u) : Steady 0 false s u := by
  unfold Machine.claimBlock at hu
  extract_lets held new at hu
  split at hu
  · cases hu
  next k _ =>
    split at hu
    · cases hu
      exact h
    split at hu
    · cases hu
    extract_lets counted claimed kept at hu
    injection hu with hu
    have h1 : Steady 0 false s claimed := ite ((h.setF (Nat.zero_le _) _).setTrg _) (h.setF (Nat.zero_le _) _)
    have h2 : Steady 0 false s kept := ite (h1.setF (Nat.zero_le _) 1) (h1.setF (Nat.zero_le _) 3)
    exact hu ▸ h2.setTrg _

theorem claimBlocks (h : Steady 0 false s t) (c : Nat) (bs : List Nat) : Steady 0 false s (claimBlocks t c bs) := by
  induction bs generalizing t with
  | nil => exact h
  | cons b bs ih =>
    unfold Machine.claimBlocks
    split
    · next hu => exact ih (h.claimBlock hu)
    · exact ih (h.setF (Nat.zero_le _) 1)
    · exact h.setF (Nat.zero_le _) 1

theorem freeze (h : Steady 0 false s t) (ft : Nat) : Steady 0 false s (freeze t ft).1 := by
  unfold Machine.freeze
  extract_lets lo hi a b refused
  have hrefused : Steady 0 false s refused.1 := (h.bump (Nat.zero_le _)).setF (Nat.zero_le _) 1
  split
  · exact hrefused
  · split
    · next c _ =>
      have counted : Steady 0 false s (bumpF (Machine.setCaptureRange t c
          (min (captureRange t c).1 a, max (captureRange t c).2 (b + 5))) (F.TRG_CAPTURE_TRIGGERS c)) :=
        (h.setCaptureRange ..).setF (Nat.zero_le _) _
      exact (counted.claimBlocks ..).captureChecks (Nat.zero_le _)
    · split
      · exact ((((((h.setR (Nat.zero_le _) 0).setF (Nat.zero_le _) 1).setF (Nat.zero_le _) 1).setTrg _).setCaptureRange
          ..).claimBlocks ..).captureChecks (Nat.zero_le _)
      · exact hrefused

theorem holdSlot (h : Steady 0 false s t) (ft : Nat) (cap : Option Nat) : Steady 0 false s (holdSlot t ft cap).1 := by
  unfold Machine.holdSlot
  extract_lets refused
  have hrefused : Steady 0 false s refused.1 := (h.bump (Nat.zero_le _)).setF (Nat.zero_le _) 1
  split
  · exact hrefused
  next k _ =>
    extract_lets own owners
    have howned {u : State} (hu : Steady 0 false s u) : Steady 0 false s (own u) := by
      dsimp only [own]
      split
      · exact (hu.setF (Nat.zero_le _) 1).setF (Nat.zero_le _) k
      · exact hu
    split_ifs
    · exact hrefused
    · exact howned (h.setTrg _)
    · exact hrefused
    · exact howned ((h.setF (Nat.zero_le _) 1).setTrg _)

theorem sendOnLink (h : Steady 0 false s t) (k : Nat) (header payload : List Byte) :
    Steady 0 false s (sendOnLink t k header payload) := h.foldl (fun _ _ h => h.sendOn ..) _

theorem signpostSend (h : Steady 0 false s t) (x : Trigger) : Steady 0 false s (signpostSend t x).1 := by
  unfold Machine.signpostSend
  extract_lets f n hops header sent
  split_ifs
  · exact h
  · exact (h.bump (Nat.zero_le _)).setF (Nat.zero_le _) 1
  · have h1 : Steady 0 false s sent := h.foldl (fun _ _ h => h.sendOnLink ..) _
    dsimp only
    exact (h1.bump (Nat.zero_le _)).setTrg _

theorem digestSum (h : Steady 0 false s t) (span i : Nat) (bs : List Byte) : Steady 0 false s (digestSum t span i bs) := by
  refine ite h ?_
  exact h.timed rfl rfl rfl

theorem recordWrite (h : Steady 0 false s t) (x : Trigger) (flags capture slot : Nat) :
    Steady 0 false s (recordWrite t x flags capture slot) := by
  unfold Machine.recordWrite
  extract_lets bs numbered f digested count head written
  have h1 : Steady 0 false s digested := (h.setTrg _).digestSum ..
  have h2 : Steady 0 false s written := h1.unitWrite (Nat.zero_le _) ..
  refine ite h1 (ite ?_ ?_)
  · exact ((h1.bump (Nat.zero_le _)).setF (Nat.zero_le _) 1).fault (Nat.zero_le _) 14
  · exact ((h2.setR (Nat.zero_le _) _).bump (Nat.zero_le _)).brlPendAll (Nat.zero_le _) 4

theorem ite_fst {β : Type} {p q : State × β} {c : Prop} [Decidable c] (hp : Steady 0 false s p.1)
    (hq : Steady 0 false s q.1) : Steady 0 false s (if c then p else q).1 := by
  split
  · exact hp
  · exact hq

theorem fireTrigger (h : Steady 0 false s t) (x : Trigger) : Steady 0 false s (fireTrigger t x) := by
  unfold Machine.fireTrigger
  extract_lets ft
  split
  next t1 cap hcap =>
  split
  next t2 slot hslot =>
  split
  next t3 sent hsent =>
  have h1 : Steady 0 false s t1 := of_fst hcap (ite_fst (h.freeze ft) h)
  have h2 : Steady 0 false s t2 := of_fst hslot (ite_fst (h1.holdSlot ft cap) h1)
  have h3 : Steady 0 false s t3 := of_fst hsent (ite_fst (h2.signpostSend x) h2)
  extract_lets flags recorded
  have h4 : Steady 0 false s recorded := ite h3 (h3.recordWrite ..)
  refine ite ?_ h4
  split
  · exact h4.raise 6
  · exact h4.raise 7
  · exact h4.raise 8
  · exact h4

theorem groupFire (h : Steady 0 false s t) (k at_ : Nat) (set : List Hit) (late : Bool) :
    Steady 0 false s (groupFire t k at_ set late) := by
  unfold Machine.groupFire
  extract_lets first ratio
  split
  next t1 snr hsnr =>
  have h1 : Steady 0 false s t1 := of_fst hsnr (ite_fst h (h.timed rfl rfl rfl))
  extract_lets noted raised fired
  have h2 : Steady 0 false s noted := ite h1 (h1.setTrg _)
  have h3 : Steady 0 false s fired := ((h2.bump (Nat.zero_le _)).raise _).fireTrigger _
  exact ite ((h3.bump (Nat.zero_le _)).recordWrite ..) h3

theorem groupAt (h : Steady 0 false s t) (k at_ : Nat) : Steady 0 false s (groupAt t k at_) :=
  ite ((h.setTrg _).groupFire ..) (h.setTrg _)

theorem horizonAdvance (h : Steady 0 false s t) (k : Nat) : Steady 0 false s (horizonAdvance t k) := by
  unfold Machine.horizonAdvance
  extract_lets horizon moved due fired
  have h1 : Steady 0 false s moved := h.setTrg _
  have h2 : Steady 0 false s fired := h1.foldl (fun _ x h => h.groupAt k x) due
  exact h2.setTrg _

theorem hitToGroups (h : Steady 0 false s t) (x : Hit) : Steady 0 false s (hitToGroups t x) :=
  (ite h (h.bump (Nat.zero_le _))).foldl (fun _ _ h => h.setTrg _) _

theorem seedImpulse (h : Steady 0 false s t) (i idx : Nat) : Steady 0 false s (seedImpulse t i idx) :=
  ite (h.timed rfl rfl rfl) h

theorem tapSignal (h : Steady 0 false s t) (i idx : Nat) (xs : List Int) : Steady 0 false s (tapSignal t i idx xs) := by
  unfold Machine.tapSignal
  extract_lets seeded rest ns start locked acc noted tapped
  have h1 : Steady 0 false s seeded := h.seedImpulse ..
  have h2 : Steady 0 false s tapped := ((h1.setR (Nat.zero_le _) _).setF (Nat.zero_le _) _).setTrg _
  exact ite h1 (ite (h1.setTrg _) (h2.foldl (fun _ _ h => (h.bump (Nat.zero_le _)).hitToGroups _) _))

/-! ## Yodex (R430 to R436) -/

theorem setYdx (h : Steady 0 false s t) (f : Ydx → Ydx) : Steady 0 false s (setYdx t f) := h.timed rfl rfl rfl

theorem ydxLogWrite (h : Steady 0 false s t) : Steady 0 false s (ydxLogWrite t) := by
  refine unitWrite (Nat.zero_le _) ?_ ..
  exact h.timed rfl rfl rfl

theorem ydxCommit (h : Steady 0 false s t) (g : Nat) (written : Option (BitVec 64)) :
    Steady 0 false s (ydxCommit t g written) := by
  unfold Machine.ydxCommit
  extract_lets k ok gap stored logged counted entry
  have h1 : Steady 0 false s stored :=
    ite (h.foldl (fun _ _ h => ite (h.unitWrite (Nat.zero_le _) ..) h) _) (ite (h.guardReport (Nat.zero_le _) ..) h)
  have h2 : Steady 0 false s logged := h1.ydxLogWrite
  have h3 : Steady 0 false s counted := ite ((h2.bump (Nat.zero_le _)).setF (Nat.zero_le _) 1) h2
  exact (h3.setYdx _).setF (Nat.zero_le _) _

theorem recordBegin (h : Steady 0 false s t) : Steady 0 false s (recordBegin t) := h.timed rfl rfl rfl

theorem recordTick (h : Steady 0 false s t) (f : Nat) (written : Option (BitVec 64)) :
    Steady 0 false s (recordTick t f written) := by
  unfold Machine.recordTick
  extract_lets begun from_
  have h1 : Steady 0 false s begun := ite h.recordBegin h
  exact ite (h1.foldl (fun _ _ h => h.ydxCommit ..) _) h1

theorem replayUe (h : Steady 0 false s t) (k : Nat) : Steady 0 false s (replayUe t k) :=
  have reported := h.foldl (fun _ _ h => h.lineReport (Nat.zero_le _) ..) _
  ite h (((reported.bumpBy (Nat.zero_le _) _).setF (Nat.zero_le _) 1).setYdx _)

theorem replayTap (h : Steady 0 false s t) (f k : Nat) : Steady 0 false s (replayTap t f k) := by
  unfold Machine.replayTap
  split
  · split
    · refine ite h (foldl (fun u m hu => ?_) _ h)
      extract_lets o lanes tapped
      have h1 : Steady 0 false s tapped := by
        refine foldl (fun _ n h => foldl (fun _ j h => ?_) _ h) lanes hu
        exact h.tapSignal ..
      exact h1.foldl (fun _ i h => h.horizonAdvance i) _
    · exact h
  · exact h

theorem walkOn (h : Steady 0 false s t) : Steady 0 false s (walkOn t) := by
  unfold Machine.walkOn
  extract_lets d hits
  exact h.setTrg _

theorem replayTick (h : Steady 0 false s t) (f : Nat) : Steady 0 false s (replayTick t f) := by
  unfold Machine.replayTick
  extract_lets started shown
  have h1 : Steady 0 false s started := ite (h.setF (Nat.zero_le _) 5) h
  have h2 : Steady 0 false s shown := ite h1 (h1.setF (Nat.zero_le _) _)
  refine ite ?_ h1
  split
  · next k _ =>
    extract_lets reported walked
    have h3 : Steady 0 false s reported := h2.replayUe k
    have h4 : Steady 0 false s walked := ite h3.walkOn h3
    exact h4.replayTap f k
  · exact h2

theorem ydxTick (h : Steady 0 false s t) (f : Nat) (written : Option (BitVec 64)) : Steady 0 false s (ydxTick t f written) :=
  (h.recordTick f written).replayTick f

/-! ## Settings that wait for a tick, and the stop frame (R25, R224, R401) -/

theorem evioDrive (h : Steady 0 false s t) (k : Nat) (active : Bool) : Steady 0 false s (evioDrive t k active) := h.emit _

theorem setEvt (h : Steady 0 false s t) (f : Evt → Evt) : Steady 0 false s (setEvt t f) := h.timed rfl rfl rfl

theorem evioCfgWrite (h : Steady 0 false s t) (k : Nat) (v : Word) : Steady 0 false s (evioCfgWrite t k v) := by
  unfold Machine.evioCfgWrite
  extract_lets was low written now kept
  have h1 : Steady 0 false s written := h.wr (Nat.zero_le _) _
  have h2 : Steady 0 false s kept := ite h1 (h1.setEvt _)
  exact ite (h2.evioDrive ..) h2

theorem sliceWrite (h : Steady 0 false s t) (pcie dram : Nat) : Steady 0 false s (sliceWrite t pcie dram) :=
  ((h.setF (Nat.zero_le _) _).setF (Nat.zero_le _) _).setF (Nat.zero_le _) _

theorem eventsApply (h : Steady 0 false s t) : Steady 0 false s (eventsApply t) := by
  unfold Machine.eventsApply
  split
  · exact h
  next ws _ =>
  extract_lets taken written zero cleared merged driven
  have h1 : Steady 0 false s taken := h.timed rfl rfl rfl
  have h2 : Steady 0 false s written := h1.foldl (fun _ _ h =>
    ite (h.evioCfgWrite ..) (ite (h.sliceWrite ..) (h.wr (Nat.zero_le _) _))) ws
  have h3 : Steady 0 false s cleared := h2.foldl (fun _ _ h => h.setR (Nat.zero_le _) 0) zero
  have h4 : Steady 0 false s merged := h3.foldl (fun _ _ h => h.setF (Nat.zero_le _) 0) _
  have h5 : Steady 0 false s driven := h4.foldl (fun _ _ h => h.evioDrive ..) _
  exact h5.setEvt _

variable {lim : Nat} {m : Bool}

theorem weightFlip (h : Steady lim m s t) (hl : lim ≤ 0xB00000) (f : Nat) : Steady lim m s (weightFlip t f) := by
  unfold Machine.weightFlip
  split
  · next g mask _ =>
    split
    · extract_lets banks flipped done epoch armed
      have h1 : Steady lim m s flipped :=
        h.foldl (fun _ _ h => h.setR (Nat.le_add_right_of_le (hl.trans (by decide))) _) (List.range 8)
      have h2 : Steady lim m s armed := (h1.setPair (hl.trans (by decide)) f).setF (hl.trans (by decide)) _
      exact h2.setBfm _
    · exact h
  · exact h

theorem settingsTick (h : Steady lim m s t) (hl : lim ≤ 0x800008) (f : Nat) : Steady lim m s (settingsTick t f) :=
  (ite ((h.setTrg _).setF hl 0) (h.setTrg _)).weightFlip (hl.trans (by decide)) f

theorem stopTick (h : Steady lim m s t) (hl : lim ≤ 0xA00038) (f : Nat) : Steady lim m s (stopTick t f) := by
  unfold Machine.stopTick
  split
  · next fs _ =>
    have abandoned : Steady lim m s (stopInteg t fs) := ite h (ite (h.abandonInteg hl _) (h.setInteg _))
    exact ite (abandoned.unclaimFrom (hl.trans (by decide)) fs) h
  · exact h

/-! ## Events and status of the tick (R26, R27, R348) -/

theorem brlTicks (h : Steady 0 false s t) (f : Nat) :
    Steady 0 false s ((List.range 4).foldl (fun u k => Machine.setPair u (R.BRL_TICK_FRAME_LO k) f) t) :=
  h.foldl (fun _ _ h => h.setPair (Nat.zero_le _) f) _

theorem frameOutRise (h : Steady 0 false s t) : Steady 0 false s (frameOutRise t) := by
  refine ite (emit ?_ _) h
  exact h.timed rfl rfl rfl

theorem tickStatus (h : Steady 0 false s t) (f : Nat) : Steady 0 false s (tickStatus t f) :=
  ((h.setF (Nat.zero_le _) _).setF (Nat.zero_le _) _).refreshLevels (Nat.zero_le _)

end Steady

/-! ## The frame tick -/

/-- An event source of the always-on domain is raised. -/
theorem mem_pulses_raise (s : State) {src : Nat} (h : srcDomain src = 0) : src ∈ (raise s src).pulses := by
  simp [raise, raiseIn, h, domLive]

theorem tickEvents_steady (s : State) (f : Nat) : Steady 0 false s (tickEvents s f) ∧ 0 ∈ (tickEvents s f).pulses ∧
    (spanLen s ≠ 0 → f % spanLen s = 0 → 1 ∈ (tickEvents s f).pulses) := by
  unfold tickEvents
  extract_lets n m ticked started spanned summed
  have h1 : Steady 0 false s ticked := (Steady.refl s).brlTicks f
  have h2 : Steady 0 false (raise ticked 0) started := (Steady.refl _).brlPendAll (Nat.zero_le _) 1
  have vector (e v : Nat) (u : State) : Steady 0 false (raise u e) (brlPendAll (raise u e) v) :=
    (Steady.refl _).brlPendAll (Nat.zero_le _) v
  have h3 : Steady 0 false started spanned := .ite (((Steady.refl _).raise 1).trans (vector 1 2 started)) (Steady.refl _)
  have h4 : Steady 0 false spanned (frameOutRise summed) :=
    (Steady.ite (((Steady.refl _).raise 2).trans (vector 2 3 spanned)) (Steady.refl _)).frameOutRise
  refine ⟨((h1.raise 0).trans h2).trans (h3.trans h4), ?_, fun hn hf => ?_⟩
  · exact (h2.trans (h3.trans h4)).mem_pulses (mem_pulses_raise ticked rfl)
  · have hspan : spanned = brlPendAll (raise started 1) 2 := if_pos ⟨hn, hf⟩
    exact (hspan ▸ h4).mem_pulses ((vector 1 2 started).mem_pulses (mem_pulses_raise started rfl))

theorem setBits256_str (s : State) (a v : Nat) : (setBits256 s a v).str = s.str :=
  foldl_field State.str (fun _ _ => by rfl) _ s

theorem weightFlip_str (s : State) (f : Nat) : (weightFlip s f).str = s.str := by
  unfold weightFlip
  split
  · split
    · rw [setBfm_str, setF_str, setPair_str, setBits256_str]
    · rfl
  · rfl

theorem settingsTick_str (s : State) (f : Nat) : (settingsTick s f).str = s.str := by
  refine (weightFlip_str _ f).trans ?_
  split <;> rfl

theorem eventsApply_none {s : State} (h : s.str.events = none) : eventsApply s = s := by simp [eventsApply, h]

theorem spanLen_settingsTick (s : State) (f : Nat) : spanLen (settingsTick s f) = spanLen s := by
  have flipped (u : State) : Steady 0xA0000C true u (weightFlip u f) := (Steady.refl u).weightFlip (by decide) f
  have shown (u : State) : getF (setF u F.XR_STATUS_RUNNING 0) F.INT_CONFIG_SPAN_FRAMES =
      getF u F.INT_CONFIG_SPAN_FRAMES := by
    rw [getF, rd_setF_ne _ _ _ (by decide), getF]
  refine ((flipped _).getF (by decide)).trans ?_
  split
  · exact shown _
  · rfl

theorem tickWork_completes (s : State) (f : Nat) (written : Option (BitVec 64)) :
    (tickWork s f written).counter = s.counter ∧
      (tickWork s f written).arch = { s.arch with lastStarted := some f } ∧ 0 ∈ (tickWork s f written).pulses ∧
      (s.str.events = none → spanLen s ≠ 0 → f % spanLen s = 0 → 1 ∈ (tickWork s f written).pulses) := by
  unfold tickWork
  extract_lets noted applied events committed
  obtain ⟨ticked, hframe, hspan⟩ := tickEvents_steady (stopTick applied f) f
  have toEvents : Steady 0 false noted (stopTick applied f) :=
    ((Steady.refl noted).settingsTick (Nat.zero_le _) f).eventsApply.stopTick (Nat.zero_le _) f
  have fromEvents : Steady 0 false events (tickStatus (twinTick (ydxTick committed f written) f) f) :=
    ((((Steady.ite ((Steady.refl events).rawCommit _) (Steady.refl events)).ydxTick f written).twinTick f).tickStatus f)
  have all := toEvents.trans (ticked.trans fromEvents)
  have sameSpan (hnone : s.str.events = none) : spanLen (stopTick applied f) = spanLen s := by
    have unloaded : applied = settingsTick noted f := eventsApply_none (by rw [settingsTick_str]; exact hnone)
    have stopped : Steady 0xA0000C true applied (stopTick applied f) := (Steady.refl _).stopTick (by decide) f
    calc spanLen (stopTick applied f) = spanLen applied := stopped.getF (by decide)
      _ = spanLen (settingsTick noted f) := congrArg spanLen unloaded
      _ = spanLen s := spanLen_settingsTick noted f
  exact ⟨all.counter, all.arch, fromEvents.mem_pulses hframe, fun hnone hlen hf =>
    fromEvents.mem_pulses (hspan (by rwa [sameSpan hnone]) (by rwa [sameSpan hnone]))⟩

/-- The block at a tick: the counter stands at `c`, and the tick is no longer due. -/
def tickTaken (s : State) (c : BitVec 64) : State :=
  setArch { s with counter := c } fun a => { a with tickDue := false }

theorem tickTaken_arch (s : State) (c : BitVec 64) : (tickTaken s c).arch = { s.arch with tickDue := false } := rfl

theorem tickTaken_rest (s : State) (c : BitVec 64) :
    RegsSameBut [] s (tickTaken s c) ∧ MemorySame s (tickTaken s c) ∧ (tickTaken s c).pulses = s.pulses :=
  ⟨fun _ _ => rfl, ⟨fun _ => rfl, rfl⟩, rfl⟩

theorem tickTaken_str (s : State) (c : BitVec 64) : (tickTaken s c).str = s.str := rfl

theorem spanLen_tickTaken (s : State) (c : BitVec 64) : spanLen (tickTaken s c) = spanLen s := rfl

/-- The local counter at the tick of frame `f`. -/
def tickCounter (f : Nat) : BitVec 64 := BitVec.ofNat 64 (frameStart f)

theorem toNat_tickCounter {f : Nat} (hf : f < 2 ^ 43) : (tickCounter f).toNat = frameStart f := by
  have : frameStart f < 2 ^ 64 := by unfold frameStart; omega
  rw [tickCounter, BitVec.toNat_ofNat, Nat.mod_eq_of_lt this]

section tick
variable (s : State) (written : Option (BitVec 64)) {f : Nat} (hf : f < 2 ^ 43)
  (hnext : f = if s.arch.tickDue = true then frameOf s else frameOf s + 1)
include hf hnext

theorem frameTick_eq : frameTick s written =
    if s.arch.closedUpTo.any (f ≤ ·) then tickTaken s (tickCounter f)
    else tickWork (tickTaken s (tickCounter f)) f written := by
  have counter : (tickTaken s (tickCounter f)).counter = tickCounter f := by
    generalize tickCounter f = c
    rfl
  have frame : frameOf (tickTaken s (tickCounter f)) = f := by
    rw [frameOf, counter, toNat_tickCounter hf, frameStart, Nat.mul_div_cancel _ (by decide)]
  unfold frameTick
  extract_lets g taken g'
  have htaken : taken = tickTaken s (tickCounter f) := by
    simp only [taken, show g = f from hnext.symm, if_neg hf.ne,
      show BitVec.ofNat 64 (frameStart f) = tickCounter f from rfl]
    generalize tickCounter f = c
    rfl
  have hg' : g' = f := (congrArg frameOf htaken).trans frame
  rw [hg', htaken, tickTaken_arch]

theorem frameTick_suppressed
    (hclosed : ∃ l, s.arch.closedUpTo = some l ∧ f ≤ l) : frameTick s written = tickTaken s (tickCounter f) := by
  obtain ⟨l, hl, hle⟩ := hclosed
  rw [frameTick_eq s written hf hnext, if_pos (by simp [hl, hle])]

theorem frameTick_occurs
    (hopen : ∀ l, s.arch.closedUpTo = some l → l < f) :
    frameTick s written = tickWork (tickTaken s (tickCounter f)) f written := by
  rw [frameTick_eq s written hf hnext, if_neg]
  cases hl : s.arch.closedUpTo with
  | none => simp
  | some l => simpa using hopen l hl

/-- The counter reaches the frame's first sample whether the tick occurs or not. -/
theorem frameTick_counter :
    (frameTick s written).counter.toNat = frameStart f ∧ (frameTick s written).arch.tickDue = false := by
  have counter : (frameTick s written).counter = tickCounter f := by
    rw [frameTick_eq s written hf hnext]
    generalize tickCounter f = c
    split
    · rfl
    · exact (tickWork_completes (tickTaken s c) f written).1
  have due : (frameTick s written).arch.tickDue = false := by
    rw [frameTick_eq s written hf hnext]
    generalize tickCounter f = c
    split
    · rfl
    · rw [(tickWork_completes (tickTaken s c) f written).2.1, tickTaken_arch]
  exact ⟨by rw [counter, toNat_tickCounter hf], due⟩

end tick
end Sys2Proof.Machine

namespace Sys2Proof
open Machine

/-- Settles O18: the command served or the tick taken, and what the units' enables, the answer and the tick's work leave
alone. -/
theorem runCommandsComplete : Obligations.RunCommandsComplete := by
  unfold Obligations.RunCommandsComplete
  refine ⟨fun s src tag f0 hup hs => ?_, fun s src tag fs hup hs => ?_, fun s fs hup hstop hrun hend hread => ?_,
    fun s written f hup hf hnext => ?_⟩
  · obtain ⟨mail, hserve⟩ := serve_served hs fun s =>
      respond (if startStatus s f0.toNat = stOk then startRun s f0.toNat else s) src 3 tag.toNat
        (startStatus s f0.toNat) 0 []
    exact completes_run (f := (start · src tag.toNat f0.toNat)) rfl hup
      (start_answers { s with mail } src tag f0.toNat hserve)
  · obtain ⟨mail, hserve⟩ := serve_served hs fun s =>
      respond (stopNoted s fs.toNat) src 4 tag.toNat (stopStatus s fs.toNat) 0 []
    obtain ⟨hanswer, hmail, harch⟩ := stop_answers { s with mail } src tag fs.toNat hserve
    refine completes_run (f := (stop · src tag.toNat fs.toNat)) rfl hup ⟨hanswer, hmail, ?_⟩
    have zero : fs.toNat = 0 ↔ fs = 0 := by rw [← BitVec.toNat_inj]; rfl
    simp only [← zero]
    exact harch.trans (stopNoted_arch _ _)
  · exact ⟨stopRun s, dataPathStopComplete_eq hup hstop hrun hend hread, stopRun_completes s⟩
  · obtain ⟨hcounter, hdue⟩ := frameTick_counter s written hf hnext
    refine completes_run (f := (frameTick · written)) rfl hup ⟨hcounter, hdue, fun hclosed => ?_, fun hopen => ?_⟩
    · rw [frameTick_suppressed s written hf hnext hclosed]
      exact tickTaken_rest s (tickCounter f)
    · rw [frameTick_occurs s written hf hnext hopen]
      obtain ⟨-, harch, hframe, hspan⟩ := tickWork_completes (tickTaken s (tickCounter f)) f written
      rw [tickTaken_str, spanLen_tickTaken] at hspan
      exact ⟨by rw [harch], hframe, hspan⟩

end Sys2Proof
end

section
/-! Lane calibration (R60 to R67). -/
namespace Sys2Proof.Machine

/-- What keeps every register outside of `l`, and the arrays, changes no other register and no memory. -/
theorem regsSameBut_of_keeps {l : List Nat} {s t : State} (h : ∀ c, c ∉ l → Keeps c true s t) :
    RegsSameBut l s t ∧ MemorySame s t := by
  obtain ⟨c, hc⟩ := Infinite.exists_notMem_finset l.toFinset
  exact ⟨fun c hc => (h c hc).word, (h c (mt List.mem_toFinset.2 hc)).memorySame⟩

/-- A field of a register that is kept reads the same. -/
theorem Keeps.getF {b : Bool} {s t : State} {f : Fld} (h : Keeps f.addr b s t) : getF t f = Machine.getF s f := by
  rw [Machine.getF, h.word, Machine.getF]

/-! ## Queueing and ending a calibration -/

theorem lane_setLane_same (s : State) (n : Nat) (f : Lane → Lane) : lane (setLane s n f) n = f (lane s n) :=
  SMap.get_put_same ..

@[simp] theorem getF_setLane (s : State) (n : Nat) (f : Lane → Lane) (g : Fld) : getF (setLane s n f) g = getF s g := rfl

@[simp] theorem getF_freeTaken (s : State) (f : Fld) : getF (freeTaken s) f = getF s f := rfl

theorem calNext_regs (s : State) (g : Nat) : (calNext s g).regs = s.regs := by
  unfold calNext
  split <;> rfl

@[simp] theorem getF_calNext (s : State) (g : Nat) (f : Fld) : getF (calNext s g) f = getF s f := by
  rw [getF, rd_congr (calNext_regs s g), getF]

/-- Taking the next queued lane changes no register. -/
theorem Keeps.calNext {c : Nat} {b : Bool} {s t : State} (h : Keeps c b s t) (g : Nat) : Keeps c b s (calNext t g) := by
  unfold Machine.calNext
  split <;> exact h.same rfl rfl rfl rfl

theorem getF_calQueue (s : State) (n : Nat) (f : Fld) :
    getF (calQueue s n) f = getF (setF (setF s (F.LANE_STATUS_CAL_BUSY n) 1) (F.LANE_STATUS_CAL_FAIL n) 0) f := by
  unfold calQueue
  dsimp only
  split
  · rfl
  · exact getF_calNext ..

theorem calQueue_busy (s : State) (n : Nat) : getF (calQueue s n) (F.LANE_STATUS_CAL_BUSY n) = 1 := by
  rw [getF_calQueue, getF_setF_other, getF_setF_same] <;> simp

theorem calQueue_fail (s : State) (n : Nat) : getF (calQueue s n) (F.LANE_STATUS_CAL_FAIL n) = 0 := by
  rw [getF_calQueue, getF_setF_same] <;> simp

theorem calQueue_busy_other (s : State) {m n : Nat} (h : m ≠ n) :
    getF (calQueue s n) (F.LANE_STATUS_CAL_BUSY m) = getF s (F.LANE_STATUS_CAL_BUSY m) := by
  rw [getF_calQueue, getF_setF_other, getF_setF_other] <;> simp [h]

theorem calQueue_linkState (s : State) (m n : Nat) : linkState (calQueue s n) m = linkState s m := by
  rw [linkState, linkState, getF_calQueue, getF_setF_other, getF_setF_other] <;> simp

theorem Keeps.calQueue {c : Nat} {b : Bool} {s t : State} (h : Keeps c b s t) {n : Nat} (hc : c ≠ R.LANE_STATUS n) :
    Keeps c b s (calQueue t n) := by
  have marked := (h.setF (f := F.LANE_STATUS_CAL_BUSY n) hc 1).setF (f := F.LANE_STATUS_CAL_FAIL n) hc 0
  unfold Machine.calQueue
  dsimp only
  split
  · exact marked
  · exact marked.calNext _

theorem Keeps.raiseIn {c : Nat} {b : Bool} {s t : State} (h : Keeps c b s t) (d src : Nat) :
    Keeps c b s (raiseIn t d src) := Keeps.ite (h.same rfl rfl rfl rfl) h

theorem getF_raiseIn (s : State) (d src : Nat) (f : Fld) : getF (raiseIn s d src) f = getF s f := by
  rw [getF, ((Keeps.refl (b := true) s).raiseIn d src).word, getF]

theorem Keeps.freeTaken {c : Nat} {b : Bool} {s t : State} (h : Keeps c b s t) : Keeps c b s (freeTaken t) :=
  h.same rfl rfl rfl rfl

theorem Keeps.calEnd {c : Nat} {b : Bool} {s t : State} (h : Keeps c b s t) {n r : Nat} (hresult : c ≠ R.LANE_CAL_RESULT n)
    (hstatus : c ≠ R.LANE_STATUS n) (hr : r ≠ 2 ∧ r ≠ 3) : Keeps c b s (calEnd t n r) := by
  unfold Machine.calEnd
  extract_lets l run counted gained measured shown failed idle cleared
  have result {u : State} (hu : Keeps c b s u) (f : Fld) (hf : f.addr = R.LANE_CAL_RESULT n) (v : Nat) :
      Keeps c b s (Machine.setF u f v) := hu.setF (hf ▸ hresult) v
  have h1 : Keeps c b s counted := result (result h _ rfl _) _ rfl _
  have h2 : Keeps c b s measured := result (result (result h1 _ rfl _) _ rfl _) _ rfl _
  have h3 : Keeps c b s shown := .ite (result h2 _ rfl _) (result h2 _ rfl _).freeTaken
  have h4 : Keeps c b s failed := by
    unfold failed
    rwa [if_neg (not_or.2 hr)]
  have h5 : Keeps c b s cleared := (h4.setF (f := F.LANE_STATUS_CAL_BUSY n) hstatus 0).same rfl rfl rfl rfl
  exact .ite (h5.calNext _) h5

/-- A calibration that ends without a fault shows its result, and the lane is no longer busy. -/
theorem calEnd_fields (s : State) (n : Nat) {r : Nat} (hr : r ≠ 2 ∧ r ≠ 3) :
    getF (calEnd s n r) (F.LANE_CAL_RESULT_RESULT n) = r % 2 ^ 4 ∧ getF (calEnd s n r) (F.LANE_STATUS_CAL_BUSY n) = 0 := by
  have below (u : State) (v : Nat) {f : Fld} (hlo : f.lo ≤ f.hi) (hhi : f.hi < 28) :
      getF (setF u f v) (F.LANE_CAL_RESULT_RESULT n) = getF u (F.LANE_CAL_RESULT_RESULT n) :=
    getF_setF_other u f _ (by omega) hlo (by simp) v (.inr (.inr hhi))
  unfold calEnd
  extract_lets l run counted gained measured shown failed idle cleared
  have hcounted : getF counted (F.LANE_CAL_RESULT_RESULT n) = r % 2 ^ 4 :=
    (below _ _ (by simp) (by simp)).trans (getF_setF_same s _ (by simp) (by simp) r)
  have hmeasured : getF measured (F.LANE_CAL_RESULT_RESULT n) = r % 2 ^ 4 := by
    unfold measured gained
    rw [below _ _ (by simp) (by simp), below _ _ (by simp) (by simp), below _ _ (by simp) (by simp), hcounted]
  have hshown : getF shown (F.LANE_CAL_RESULT_RESULT n) = r % 2 ^ 4 := by
    unfold shown
    split
    · rw [below _ _ (by simp) (by simp), hmeasured]
    · rw [getF_freeTaken, below _ _ (by simp) (by simp), hmeasured]
  have hfailed : failed = shown := if_neg (not_or.2 hr)
  have ended (g : Fld) : getF (if cleared.calActive.find (n / 14) = some n then calNext cleared (n / 14) else cleared) g =
      getF (setF shown (F.LANE_STATUS_CAL_BUSY n) 0) g := by
    rw [← hfailed]
    split
    · exact getF_calNext ..
    · rfl
  rw [ended, ended]
  refine ⟨?_, getF_setF_same _ _ (by simp) (by simp) 0⟩
  rw [getF_setF_other _ _ _ (by simp) (by simp) (by simp) _ (.inl (by simp)), hshown]

/-! ## The commands -/

/-- On a lane that is UP and not busy, START queues the calibration (R60). -/
theorem calStart_up {s : State} {n : Nat} (hup : linkState s n = 5) (hbusy : flag s (F.LANE_STATUS_CAL_BUSY n) = false) :
    calStart s n = calQueue s n := by
  simp [calStart, hup, hbusy]

theorem calQueue_completes (s : State) (n : Nat) :
    RegsSameBut [R.LANE_STATUS n] s (calQueue s n) ∧ MemorySame s (calQueue s n) :=
  regsSameBut_of_keeps fun _ hc => (Keeps.refl s).calQueue (List.ne_of_not_mem_cons hc)

/-- A calibration that is not taken up since its lane is not UP shows NOT_UP, its gain and nothing measured. -/
theorem calStart_notUp {s : State} {n : Nat} (hup : linkState s n ≠ 5)
    (hbusy : flag s (F.LANE_STATUS_CAL_BUSY n) = false) :
    getF (calStart s n) (F.LANE_CAL_RESULT_RESULT n) = 5 ∧ getF (calStart s n) (F.LANE_CAL_RESULT_RUNS n) = 0 ∧
      getF (calStart s n) (F.LANE_CAL_RESULT_PEAK n) = 0 ∧ getF (calStart s n) (F.LANE_CAL_RESULT_HEIGHT n) = 0 ∧
      getF (calStart s n) (F.LANE_CAL_RESULT_WIDTH n) = 0 ∧
      getF (calStart s n) (F.LANE_CAL_RESULT_DCGAIN n) = getF s (F.LANE_CAL_CTRL_DCGAIN n) ∧
      RegsSameBut [R.LANE_STATUS n, R.LANE_CAL_RESULT n] s (calStart s n) ∧ MemorySame s (calStart s n) := by
  set gain := getF s (F.LANE_CAL_CTRL_DCGAIN n) with hgain
  have same : getF (setF s (F.LANE_STATUS_CAL_FAIL n) 0) (F.LANE_CAL_CTRL_DCGAIN n) = gain :=
    getF_setF_other _ _ _ (by simp) (by simp) (by simp) _ (.inl (by simp))
  have started : calStart s n = wr (setF s (F.LANE_STATUS_CAL_FAIL n) 0) (R.LANE_CAL_RESULT n)
      ((F.LANE_CAL_RESULT_DCGAIN n).insert ((F.LANE_CAL_RESULT_RESULT n).insert 0 5) gain) := by
    simp [calStart, hup, hbusy, same]
  have field (f : Fld) (hf : f.addr = R.LANE_CAL_RESULT n) : getF (calStart s n) f =
      getF (setF (setF (wr s (R.LANE_CAL_RESULT n) 0) (F.LANE_CAL_RESULT_RESULT n) 5) (F.LANE_CAL_RESULT_DCGAIN n) gain) f := by
    simp [started, getF, setF, hf]
  have blank (f : Fld) (hf : f.addr = R.LANE_CAL_RESULT n) (hlo : f.lo ≤ f.hi)
      (hgain : f.hi < 20 ∨ 21 < f.lo) (hresult : f.hi < 28) : getF (calStart s n) f = 0 := by
    rw [field f hf, getF_setF_other _ _ f (by simp) (by simp) hlo _ (.inr (by simpa using hgain)),
      getF_setF_other _ _ f (by simp) (by simp) hlo _ (.inr (.inl (by simpa using hresult)))]
    simp [getF, hf, bitsOf]
  refine ⟨?_, blank _ rfl (by simp) (by simp) (by simp), blank _ rfl (by simp) (by simp) (by simp),
    blank _ rfl (by simp) (by simp) (by simp), blank _ rfl (by simp) (by simp) (by simp), ?_, ?_⟩
  · rw [field _ rfl, getF_setF_other _ _ _ (by simp) (by simp) (by simp) _ (.inr (by simp)),
      getF_setF_same _ _ (by simp) (by simp)]
    rfl
  · rw [field _ rfl, getF_setF_same _ _ (by simp) (by simp)]
    exact Nat.mod_eq_of_lt (Nat.mod_lt _ (by positivity))
  · rw [started]
    refine regsSameBut_of_keeps fun c hc => ?_
    simp only [List.mem_cons, List.not_mem_nil, or_false, not_or] at hc
    obtain ⟨hstatus, hresult⟩ := hc
    exact ((Keeps.refl s).setF (f := F.LANE_STATUS_CAL_FAIL n) hstatus 0).wr hresult _

/-- A run that agrees with the one before and meets both limits arms the swap (R62, R63). -/
theorem calRun_agreed {s : State} {n : Nat} {scan : List EyeScan} {prev : CalRun}
    (hactive : s.calActive.find (n / 14) = some n) (hswap : (lane s n).swap = none) (hpinned : (lane s n).pinned = none)
    (hlast : (lane s n).lastRun = some prev) (hagree : runsAgree prev (bestRun scan) = true)
    (hwidth : getF s (F.LANE_CAL_CTRL_MIN_WIDTH n) ≤ (bestRun scan).width)
    (hheight : getF s (F.LANE_CAL_CTRL_MIN_HEIGHT n) ≤ (bestRun scan).height) :
    calRun s n scan = setLane (setLane s n fun l => { l with runs := (lane s n).runs + 1, lastRun := some (bestRun scan) }) n
      fun l => { l with swap := some (getF s (F.LANE_CAL_CTRL_DCGAIN n) * 16 + (bestRun scan).peak) } := by
  simp [calRun, hactive, hswap, hpinned, hlast, hagree, hwidth, hheight]

/-- The swap puts the armed setting in force and ends the calibration ACCEPTED (R64). -/
theorem calSwap_completes {s : State} {n : Nat} {q : Fin 64} (hswap : (lane s n).swap = some q.val) :
    getF (calSwap s n) (F.LANE_RXEQ_DCGAIN n) = q.val / 16 ∧ getF (calSwap s n) (F.LANE_RXEQ_PEAK n) = q.val % 16 ∧
      getF (calSwap s n) (F.LANE_CAL_RESULT_RESULT n) = 1 ∧ getF (calSwap s n) (F.LANE_STATUS_CAL_BUSY n) = 0 ∧
      RegsSameBut [R.LANE_STATUS n, R.LANE_RXEQ n, R.LANE_CAL_RESULT n] s (calSwap s n) ∧ MemorySame s (calSwap s n) := by
  set u := setF (setF s (F.LANE_RXEQ_DCGAIN n) (q / 16)) (F.LANE_RXEQ_PEAK n) (q % 16) with hu
  have swapped : calSwap s n = raiseIn (calEnd u n 1) (laneDomain n) 14 := by
    simp [calSwap, hswap, hu]
  have ended {c : Nat} {t : State} (h : Keeps c true t u) (hresult : c ≠ R.LANE_CAL_RESULT n)
      (hstatus : c ≠ R.LANE_STATUS n) : Keeps c true t (calSwap s n) := by
    rw [swapped]
    exact (h.calEnd hresult hstatus (by decide)).raiseIn _ _
  have rxeq {f : Fld} (hf : f.addr = R.LANE_RXEQ n) : getF (calSwap s n) f = getF u f :=
    (ended (Keeps.refl u) (by simp [hf]) (by simp [hf])).getF
  obtain ⟨hresult, hbusy⟩ := calEnd_fields u n (r := 1) (by decide)
  have hq : q.val / 16 < 2 ^ 2 ∧ q.val % 16 < 2 ^ 4 := by omega
  refine ⟨?_, ?_, ?_, ?_, ?_⟩
  · rw [rxeq rfl, hu, getF_setF_other _ _ _ (by simp) (by simp) (by simp) _ (.inr (by simp)),
      getF_setF_same _ _ (by simp) (by simp)]
    exact Nat.mod_eq_of_lt hq.1
  · rw [rxeq rfl, hu, getF_setF_same _ _ (by simp) (by simp)]
    exact Nat.mod_eq_of_lt hq.2
  · exact swapped ▸ (getF_raiseIn ..).trans hresult
  · exact swapped ▸ (getF_raiseIn ..).trans hbusy
  · refine regsSameBut_of_keeps fun c hc => ?_
    simp only [List.mem_cons, List.not_mem_nil, or_false, not_or] at hc
    obtain ⟨hstatus, hrxeq, hresult⟩ := hc
    have written : Keeps c true s u := ((Keeps.refl s).setF (f := F.LANE_RXEQ_DCGAIN n) hrxeq (q / 16)).setF
      (f := F.LANE_RXEQ_PEAK n) hrxeq (q % 16)
    exact ended written hresult hstatus

/-! ## The calibration period (R67) -/

/-- What CAL_PERIOD_EXPIRY makes of one lane. -/
def calPeriodic (s : State) (n : Nat) : State :=
  if linkState s n = 5 ∧ ¬ flag s (F.LANE_STATUS_CAL_BUSY n) then calQueue s n else s

theorem calPeriodic_linkState (s : State) (m n : Nat) : linkState (calPeriodic s n) m = linkState s m := by
  unfold calPeriodic
  split
  · exact calQueue_linkState s m n
  · rfl

/-- A lane that is UP is busy afterwards; no lane that is busy ceases to be. -/
theorem calPeriodic_busy (s : State) {m n : Nat} (hm : linkState s m = 5)
    (h : m = n ∨ getF s (F.LANE_STATUS_CAL_BUSY m) = 1) : getF (calPeriodic s n) (F.LANE_STATUS_CAL_BUSY m) = 1 := by
  unfold calPeriodic
  by_cases e : m = n
  · subst e
    split
    · exact calQueue_busy s m
    · next hb => exact getF_bit_of_flag rfl (by simpa [hm] using hb)
  · have hbusy : getF s (F.LANE_STATUS_CAL_BUSY m) = 1 := h.resolve_left e
    split
    · rw [calQueue_busy_other s e, hbusy]
    · exact hbusy

theorem foldl_calPeriodic_busy (l : List Nat) (s : State) {m : Nat} (hm : linkState s m = 5)
    (h : m ∈ l ∨ getF s (F.LANE_STATUS_CAL_BUSY m) = 1) :
    getF (l.foldl calPeriodic s) (F.LANE_STATUS_CAL_BUSY m) = 1 := by
  induction l generalizing s with
  | nil => exact h.resolve_left (List.not_mem_nil)
  | cons n l ih =>
    refine ih _ (by rw [calPeriodic_linkState, hm]) ?_
    rw [List.mem_cons, or_right_comm] at h
    exact h.symm.imp_right fun h => calPeriodic_busy s hm h

theorem Keeps.foldl_calPeriodic {c : Nat} {b : Bool} {s t : State} (h : Keeps c b s t) {l : List Nat}
    (hc : ∀ n ∈ l, c ≠ R.LANE_STATUS n) : Keeps c b s (l.foldl calPeriodic t) := by
  induction l generalizing t with
  | nil => exact h
  | cons n l ih =>
    obtain ⟨hn, hl⟩ := List.forall_mem_cons.1 hc
    exact ih (.ite (h.calQueue hn) h) hl

theorem foldl_calPeriodic_completes (l : List Nat) (s : State) :
    RegsSameBut (l.map R.LANE_STATUS) s (l.foldl calPeriodic s) ∧ MemorySame s (l.foldl calPeriodic s) :=
  regsSameBut_of_keeps fun _ hc => (Keeps.refl s).foldl_calPeriodic fun _ hn e => hc (List.mem_map.2 ⟨_, hn, e.symm⟩)

/-- What CAL_PERIOD_EXPIRY does on a block that is up. -/
def calPeriodExpired (s : State) : State :=
  if getF s F.LANE_CAL_PERIOD_SECONDS = 0 then s else (List.range 56).foldl calPeriodic s

end Sys2Proof.Machine

namespace Sys2Proof
open Machine

/-- Settles O5: START queues the lane or reports NOT_UP, an agreed run arms the swap, the swap ends the calibration, and the
period queues every lane that is UP, by induction over the lanes. -/
theorem laneCalibration : Obligations.LaneCalibration := by
  unfold Obligations.LaneCalibration
  refine ⟨fun s n hs hup hbusy => completes_run (f := (calStart · n)) rfl hs ?_,
    fun s n hs hup hbusy => completes_run (f := (calStart · n)) rfl hs (calStart_notUp hup hbusy),
    fun s n hs hbusy => completes_run (f := (calStart · n)) rfl hs (if_pos hbusy),
    fun s n scan prev hs hactive hswap hpinned hlast hagree hwidth hheight =>
      completes_run (f := (calRun · n scan)) rfl hs ?_,
    fun s n q hs hswap => completes_run (f := (calSwap · n)) rfl hs (calSwap_completes hswap),
    fun s hs hoff => completes_run (f := calPeriodExpired) rfl hs (if_pos hoff),
    fun s hs hon => completes_run (f := calPeriodExpired) rfl hs ?_⟩
  · rw [calStart_up hup hbusy]
    exact ⟨calQueue_busy s n, calQueue_fail s n, calQueue_completes s n⟩
  · rw [calRun_agreed hactive hswap hpinned hlast hagree hwidth hheight]
    simp only [lane_setLane_same, Nat.mul_comm 16]
    exact ⟨trivial, trivial, fun _ _ => rfl, fun _ => rfl, rfl⟩
  · rw [calPeriodExpired, if_neg hon]
    exact ⟨fun n hn => foldl_calPeriodic_busy _ s hn (.inl (List.mem_range.2 n.isLt)), foldl_calPeriodic_completes _ s⟩

end Sys2Proof
end

section
/-! Why four of the lane statements fail. A standby that leaves its twin bond during a copy takes back the registers that it
has put aside (R462), and `twinRestore` writes them at whatever address the set lists. `twinSave`, which makes every
such set, lists registers of the mirrored set only, but the statements speak of every state that is up and do not ask that of
it (nor does `State.Sound`): a put-aside set that lists a lane's register overwrites what the command has just done to that
lane. -/
namespace Sys2Proof.Machine

/-- Lane 48, which the default plan gives to the twin bond, is UP with seven code violations noted, a copy is under way, and
the set put aside lists the word `v` for register `a`. -/
def copyingOver (a : Nat) (v : Word) : State :=
  { setF (setF State.reset (F.LANE_STATUS_LINK_STATE 48) 5) F.TWN_STATUS_STATE 2 with
    lanes := [(48, { cvAt := List.replicate 7 0 })]
    twin := { saved := some ⟨[], [(a, v)], [], none, none, none⟩ } }

/-- The set put aside lists lane 48's status, with the link UP. -/
def copyingOverUp : State := copyingOver (R.LANE_STATUS 48) 0x50000

theorem copyingOver_up (a : Nat) (v : Word) : Up (copyingOver a v) := rfl

theorem copyingOverUp_linkState : linkState copyingOverUp 48 = 5 := by decide +kernel

/-- Of a command that `exec` carries out as a function of the state, on a block that is up, that function's state meets what
the command completes with. -/
theorem post_of_completes {c : Instr} {s : State} {f : State → State} {post : State → Prop} (hc : exec c s = run f s)
    (h : Up s) (hp : Completes c s post) : post (f s) := by
  obtain ⟨t, ht, hpost⟩ := hp
  have e : f s = t := by
    rw [hc, run, if_pos (show s.arch.up = true from h)] at ht
    injection ht
  exact e ▸ hpost

end Sys2Proof.Machine

namespace Sys2Proof
open Machine

/-- Refutes O46: the put-aside set lists the lane's own counter as 0, and the eighth violation, which takes the twin bond out
of UP, leaves the counter at 0. -/
theorem not_codeViolationsCount : ¬ Obligations.CodeViolationsCount := by
  unfold Obligations.CodeViolationsCount
  intro h
  obtain ⟨hcount, -⟩ := post_of_completes (f := (codeViolation · 48 7)) rfl (copyingOver_up _ _)
    (h (copyingOver (R.LANE_CV_COUNT 48) 0) 48 7 (copyingOver_up _ _))
  exact absurd hcount (by decide +kernel)

/-- Refutes O1: the lane reads UP after LANE_ENABLE_WRITE has cleared both enables. -/
theorem not_laneBringUpCompletes : ¬ Obligations.LaneBringUpCompletes := by
  unfold Obligations.LaneBringUpCompletes
  rintro ⟨henable, -⟩
  obtain ⟨-, -, -, -, hoff, -⟩ := post_of_completes (f := (setEnables · 48 false false)) rfl (copyingOver_up _ _)
    (henable copyingOverUp 48 false false (copyingOver_up _ _))
  exact absurd (hoff rfl) (by decide +kernel)

/-- Refutes O2: the lane reads UP after COMMA_MISALIGNED. -/
theorem not_laneLossAndParking : ¬ Obligations.LaneLossAndParking := by
  unfold Obligations.LaneLossAndParking
  rintro ⟨-, hmisaligned, -⟩
  obtain ⟨hstate, -⟩ := post_of_completes rfl (copyingOver_up _ _)
    (hmisaligned copyingOverUp 48 (copyingOver_up _ _) copyingOverUp_linkState)
  exact absurd hstate (by decide +kernel)

/-- Refutes O4: the lane reads UP after LANE_PRBS_MODE_WRITE has turned on PRBS. -/
theorem not_laneTestAndEqualizer : ¬ Obligations.LaneTestAndEqualizer := by
  unfold Obligations.LaneTestAndEqualizer
  rintro ⟨-, hprbs, -⟩
  obtain ⟨-, -, -, hstate, -⟩ := post_of_completes (f := (setPrbs · 48 1 false 0)) rfl (copyingOver_up _ _)
    (hprbs copyingOverUp 48 1 false 0 (copyingOver_up _ _))
  exact absurd (hstate (.inl rfl) (.inr copyingOverUp_linkState)) (by decide +kernel)

end Sys2Proof
end

section
/-! Ordered sets, and lane frames up to the tests of R81: what `receive` does with a frame that fails or passes them. -/
namespace Sys2Proof.Machine

/-- A field of the register at `f.addr` is set: no other register changes, and no memory. -/
theorem setF_completes (s : State) (f : Fld) (v : Nat) : RegsSameBut [f.addr] s (setF s f v) ∧ MemorySame s (setF s f v) :=
  ⟨fun _ ha => rd_setF_ne s f v (List.ne_of_not_mem_cons ha), fun _ => rfl, rfl⟩

/-! ## Ordered sets (R74, R75) -/

/-- What a STATUS ordered set does to the state. -/
def statusReceived (s : State) (n : Nat) (state check : Byte) : State :=
  if check ≠ state ^^^ 0xFF then s
  else if state.toNat = 0 ∨ 4 < state.toNat then bump s (R.LNK_UNEXPECTED n)
  else if linkState s n < 3 ∨ linkState s n = 7 then s
  else setF s (F.LANE_STATUS_REMOTE_STATE n) state.toNat

theorem exec_statusOrderedSetReceived (s : State) (n : Fin 56) (state check : Byte) :
    exec (.statusOrderedSetReceived n state check) s = run (statusReceived · n state check) s := rfl

theorem statusReceived_wrongCheck {s : State} {n : Nat} {state check : Byte} (h : check ≠ state ^^^ 0xFF) :
    statusReceived s n state check = s := if_pos h

theorem statusReceived_undefined (s : State) (n : Nat) {state : Byte} (h : state.toNat = 0 ∨ 4 < state.toNat) :
    statusReceived s n state (state ^^^ 0xFF) = bump s (R.LNK_UNEXPECTED n) :=
  (if_neg (not_not.2 rfl)).trans (if_pos h)

theorem statusReceived_defined {s : State} {n : Nat} {state : Byte} (h0 : 1 ≤ state.toNat) (h4 : state.toNat ≤ 4)
    (hl : 3 ≤ linkState s n) (h7 : linkState s n ≠ 7) :
    statusReceived s n state (state ^^^ 0xFF) = setF s (F.LANE_STATUS_REMOTE_STATE n) state.toNat :=
  (if_neg (not_not.2 rfl)).trans ((if_neg (by omega)).trans (if_neg (by omega)))

/-! ## Frames (R81, R83) -/

theorem advanceTo_eq (s : State) (t : Nat) : ∃ counter, advanceTo s t = { s with counter } := by
  unfold advanceTo
  split
  · exact ⟨_, rfl⟩
  · exact ⟨_, rfl⟩

theorem advanceTo_regs (s : State) (t : Nat) : (advanceTo s t).regs = s.regs := by
  obtain ⟨c, h⟩ := advanceTo_eq s t
  rw [h]

@[simp] theorem rd_advanceTo (s : State) (t a : Nat) : rd (advanceTo s t) a = rd s a := rd_congr (advanceTo_regs s t) a

/-- Counting on a counter at the time a frame ends changes that register alone. -/
theorem bump_advanceTo_completes (s : State) (t a : Nat) :
    (rd (bump (advanceTo s t) a) a).toNat = min ((rd s a).toNat + 1) 0xFFFFFFFF ∧
      RegsSameBut [a] s (bump (advanceTo s t) a) ∧ MemorySame s (bump (advanceTo s t) a) := by
  obtain ⟨c, h⟩ := advanceTo_eq s t
  exact h ▸ bump_completes { s with counter := c } a

theorem receive_badHeader {s : State} {n type : Nat} {f : RxFrame} {k : State → State} (hl : linkState s n = 5)
    (hh : headerOk f = false) : receive s n type f k = bump (advanceTo s f.eofAt) (R.LNK_HDR_ERR n) := by
  simp only [receive, hl, hh, ne_eq, not_true_eq_false, if_false, Bool.not_false, if_true]

theorem tapFirst_badHeader {s : State} {n : Nat} {f : RxFrame} (hh : headerOk f = false) : tapFirst s n f = (s, false) := by
  simp [tapFirst, tapTakes, hh]

theorem ingestReceived_badHeader {s : State} {n : Nat} {f : RxFrame} (hl : linkState s n = 5) (hh : headerOk f = false) :
    ingestReceived s n f = bump (advanceTo s f.eofAt) (R.LNK_HDR_ERR n) := by
  unfold ingestReceived
  rw [tapFirst_badHeader hh]
  exact (if_neg (fun h => absurd h.1 (by decide))).trans (receive_badHeader hl hh)

theorem twinReceive_badHeader {s : State} {n kind : Nat} {f : RxFrame} {act : State → State} (hl : linkState s n = 5)
    (hh : headerOk f = false) : twinReceive s n kind f act = bump (advanceTo s f.eofAt) (R.LNK_HDR_ERR n) :=
  (if_pos (by simp [twinPasses, hh])).trans (receive_badHeader hl hh)

end Sys2Proof.Machine

namespace Sys2Proof
open Machine

/-- Settles O3: each kind of ordered set is one branch of the command. -/
theorem orderedSetsReceived : Obligations.OrderedSetsReceived := by
  unfold Obligations.OrderedSetsReceived
  refine ⟨fun s n state hup h0 h4 hl h7 => ?_, fun s n state check hup h => ?_, fun s n state hup h => ?_,
    fun s n drift hup => ?_, fun s n hup => ?_⟩
  · refine completes_run (exec_statusOrderedSetReceived s n state _) hup ?_
    rw [statusReceived_defined h0 h4 hl h7]
    obtain ⟨hregs, hmem⟩ := setF_completes s (F.LANE_STATUS_REMOTE_STATE n) state.toNat
    refine ⟨?_, hregs, hmem⟩
    rw [getF_setF_same s _ (by simp) (by simp)]
    exact Nat.mod_eq_of_lt (by simp only; omega)
  · exact completes_run (exec_statusOrderedSetReceived s n state check) hup (statusReceived_wrongCheck h)
  · refine completes_run (exec_statusOrderedSetReceived s n state _) hup ?_
    rw [statusReceived_undefined s n h]
    exact bump_completes s _
  · exact completes_run (f := id) rfl hup rfl
  · exact completes_run (f := (bump · (R.LNK_UNEXPECTED n))) rfl hup (bump_completes s _)

/-- Settles O7: whatever its type, a frame with a failed header ends in the first counter of R81; the ingest tap and the twin
unit, which look at a frame before its tests, ask for a good header themselves. -/
theorem frameWithBadHeaderCountsOnce : Obligations.FrameWithBadHeaderCountsOnce := by
  unfold Obligations.FrameWithBadHeaderCountsOnce
  intro s n f full c hup hl hh hc
  have counted := bump_advanceTo_completes s f.eofAt (R.LNK_HDR_ERR n)
  refine ⟨_, ?_, counted⟩
  simp only [List.mem_cons, List.not_mem_nil, or_false] at hc
  obtain rfl | rfl | rfl | rfl | rfl | rfl | rfl | rfl | rfl := hc
  case inl => exact congrArg Host.Outcome.next ((if_pos hup).trans (ingestReceived_badHeader hl hh))
  iterate 4 exact congrArg Host.Outcome.next ((if_pos hup).trans (receive_badHeader hl hh))
  iterate 4 exact congrArg Host.Outcome.next ((if_pos hup).trans (twinReceive_badHeader hl hh))

end Sys2Proof
end

section
/-! Why the statement on the twin unit fails, for the reason that four lane statements do (see `copyingOver`): a copy that ends
in PEER_LOST_TIMEOUT takes back whatever registers its put-aside set lists, among them, in a state that no `twinSave` makes,
the counters of the twin unit itself. -/
namespace Sys2Proof.Machine

/-- A copying standby that has not heard its peer for 256 ticks, whose put-aside set lists 0 for the count of lost peers. -/
def copyingUnheard : State :=
  let s := copyingOver R.TWN_PEER_LOST_COUNT 0
  { s with twin := { s.twin with silent := 256 } }

end Sys2Proof.Machine

namespace Sys2Proof
open Machine

/-- Refutes O29: a standby loses its peer while it copies; the set put aside lists the count of lost peers as 0, and taking
the set back undoes the count. -/
theorem not_twinCommandsComplete : ¬ Obligations.TwinCommandsComplete := by
  unfold Obligations.TwinCommandsComplete
  rintro ⟨-, -, -, -, -, -, hlost, -⟩
  have hup : Up copyingUnheard := rfl
  obtain ⟨-, -, -, -, -, hcount⟩ := post_of_completes (f := peerLost) rfl hup
    (hlost copyingUnheard hup (by decide +kernel) (by decide +kernel) (by decide +kernel))
  exact absurd hcount (by decide +kernel)

end Sys2Proof
end

section
/-! What the impulse search and the trigger engine behind it leave alone (R106, R244 to R263): they act downstream of the
lanes, and change no register below the exchange's block, no ingest lane, no validity bit and not the run state. -/
namespace Sys2Proof.Machine

/-- In `t` the registers below 0x800000 (lanes, lane protocol, channelizer), the ingest lanes, the validity bits and the run
state stand as in `s`. -/
structure Upstream (s t : State) : Prop where
  word : ∀ a < 0x800000, rd t a = rd s a
  ingest : t.ingest = s.ingest
  valid : t.ingestValid = s.ingestValid
  arch : t.arch = s.arch

namespace Upstream

variable {s t u : State}

theorem refl (s : State) : Upstream s s := ⟨fun _ _ => rfl, rfl, rfl, rfl⟩

theorem trans (h : Upstream s t) (h' : Upstream t u) : Upstream s u :=
  ⟨fun a ha => (h'.word a ha).trans (h.word a ha), h'.ingest.trans h.ingest, h'.valid.trans h.valid, h'.arch.trans h.arch⟩

theorem getF (h : Upstream s t) {f : Fld} (hf : f.addr < 0x800000) : getF t f = Machine.getF s f := by
  rw [Machine.getF, h.word _ hf, Machine.getF]

/-! ## Ways to compose -/

/-- A state that differs in what other units hold stands as well. -/
theorem same (h : Upstream s t) (hr : u.regs = t.regs) (hi : u.ingest = t.ingest) (hv : u.ingestValid = t.ingestValid)
    (ha : u.arch = t.arch) : Upstream s u :=
  h.trans ⟨fun a _ => rd_congr hr a, hi, hv, ha⟩

theorem ite {p : Prop} [Decidable p] (ht : Upstream s t) (hu : Upstream s u) : Upstream s (if p then t else u) := by
  split
  · exact ht
  · exact hu

theorem ite_fst {β : Type} {p q : State × β} {c : Prop} [Decidable c] (hp : Upstream s p.1) (hq : Upstream s q.1) :
    Upstream s (if c then p else q).1 := by
  split
  · exact hp
  · exact hq

theorem foldl {α : Type} {f : State → α → State} (hf : ∀ t x, Upstream s t → Upstream s (f t x)) (l : List α)
    (h : Upstream s t) : Upstream s (l.foldl f t) := by
  induction l generalizing t with
  | nil => exact h
  | cons x l ih => exact ih (hf t x h)

theorem of_fst {β : Type} {p : State × β} {x : β} (e : p = (u, x)) (h : Upstream s p.1) : Upstream s u := by
  rwa [e] at h

/-! ## The named updates -/

theorem wr (h : Upstream s t) {a : Nat} (ha : 0x800000 ≤ a) (v : Word) : Upstream s (wr t a v) :=
  h.trans ⟨fun _ hb => rd_wr_ne t v (hb.trans_le ha).ne, rfl, rfl, rfl⟩

theorem setR (h : Upstream s t) {a : Nat} (ha : 0x800000 ≤ a) (v : Nat) : Upstream s (setR t a v) := h.wr ha _

theorem setF (h : Upstream s t) {f : Fld} (ha : 0x800000 ≤ f.addr) (v : Nat) : Upstream s (setF t f v) := h.wr ha _

theorem setB (h : Upstream s t) {a : Nat} (ha : 0x800000 ≤ a) (i : Nat) (b : Bool) : Upstream s (setB t a i b) := h.wr ha _

theorem setPair (h : Upstream s t) {a : Nat} (ha : 0x800000 ≤ a) (v : Nat) : Upstream s (setPair t a v) :=
  ((h.setR ha _).setR (Nat.le_add_right_of_le ha) _).same rfl rfl rfl rfl

theorem bump (h : Upstream s t) {a : Nat} (ha : 0x800000 ≤ a) : Upstream s (bump t a) :=
  (h.setR ha _).same rfl rfl rfl rfl

theorem raise (h : Upstream s t) (src : Nat) : Upstream s (raise t src) := ite (h.same rfl rfl rfl rfl) h

theorem emit (h : Upstream s t) (o : Out) : Upstream s (emit t o) := h.same rfl rfl rfl rfl

theorem setTrg (h : Upstream s t) (f : Trg → Trg) : Upstream s (setTrg t f) := h.same rfl rfl rfl rfl

theorem setMem (h : Upstream s t) (f : MemCtl → MemCtl) : Upstream s (setMem t f) := h.same rfl rfl rfl rfl

theorem dramWrite (h : Upstream s t) (a : Nat) (bs : List Byte) : Upstream s (dramWrite t a bs) := h.same rfl rfl rfl rfl

theorem advanceTo (h : Upstream s t) (x : Nat) : Upstream s (advanceTo t x) := ite (h.same rfl rfl rfl rfl) h

/-! ## Faults (R467), the vectors of the cores (R289) and accesses to DRAM (R302, R306 to R309) -/

theorem setFaults (h : Upstream s t) (w : Word) : Upstream s (setFaults t w) :=
  have noted := h.wr (a := R.HLT_FAULT) (by decide) _
  ite noted ((noted.setF (by decide) _).setPair (by decide) _)

theorem fault (h : Upstream s t) (n : Nat) : Upstream s (fault t n) := h.setFaults _

theorem refreshLevels (h : Upstream s t) : Upstream s (refreshLevels t) := h.setFaults _

theorem brlWake (h : Upstream s t) (k : Nat) : Upstream s (brlWake t k) :=
  ite ((h.setF (f := F.BRL_STATUS_STATE k) (Nat.le_add_right_of_le (by decide)) 1).same rfl rfl rfl rfl) h

theorem brlPendAll (h : Upstream s t) (v : Nat) : Upstream s (brlPendAll t v) :=
  h.foldl (fun _ k h => ite (ite (h.bump (Nat.le_add_right_of_le (by decide)))
    ((h.setB (Nat.le_add_right_of_le (by decide)) v true).brlWake k)) h) _

theorem memLog (h : Upstream s t) (kind req symbol a synd : Nat) : Upstream s (memLog t kind req symbol a synd) :=
  ite ((h.bump (by decide)).setF (by decide) 1) ((h.dramWrite _ _).setF (by decide) _)

theorem ueReport (h : Upstream s t) (req line : Nat) (rmw : Bool) (ws : List Nat) :
    Upstream s (ueReport t req line rmw ws) :=
  (((((h.foldl (fun _ _ h => h.memLog ..) ws).setMem _).bump (by decide)).setF (by decide) 1).raise 12).fault 6

theorem leaveSelfRefresh (h : Upstream s t) (u : Nat) : Upstream s (leaveSelfRefresh t u) :=
  have state : 0x800000 ≤ R.MEM_STATE u := Nat.le_add_right_of_le (by decide)
  ite (((h.setF state 0).setF state 0).setF state 0) h

theorem served (h : Upstream s t) (req a n : Nat) : Upstream s (served t req a n) :=
  ite ((h.setMem _).foldl (fun _ u h => h.leaveSelfRefresh u) _) (h.setMem _)

theorem unitWrite (h : Upstream s t) (req a : Nat) (bs : List Byte) : Upstream s (unitWrite t req a bs) :=
  ite h (ite (((h.bump (by decide)).setF (by decide) 1).memLog ..)
    (((h.served ..).dramWrite _ _).foldl (fun _ _ h => h.ueReport ..) _))

/-! ## Captures and holds (R257 to R263) -/

theorem rawShow (h : Upstream s t) : Upstream s (rawShow t) :=
  ((h.setF (by decide) _).setF (by decide) _).foldl (fun _ _ h =>
    (h.setF (Nat.le_add_right_of_le (by decide)) _).setF (Nat.le_add_right_of_le (by decide)) _) _

theorem captureCheck (h : Upstream s t) (c : Nat) : Upstream s (captureCheck t c) :=
  have state : 0x800000 ≤ (F.TRG_CAPTURE_STATE c).addr := Nat.le_add_right_of_le (by decide)
  ite (((h.setF state 2).raise 9).brlPendAll 7) (ite (h.setF state 1) h)

theorem captureChecks (h : Upstream s t) : Upstream s (captureChecks t) := h.rawShow.foldl (fun _ c h => h.captureCheck c) _

theorem setCaptureRange (h : Upstream s t) (c : Nat) (r : Nat × Nat) : Upstream s (setCaptureRange t c r) := by
  have word (k : Nat) : 0x800000 ≤ R.TRG_CAPTURE c + k := Nat.le_add_right_of_le (Nat.le_add_right_of_le (by decide))
  exact (((h.setR (word 4) _).setR (word 8) _).setR (word 12) _).setR (word 16) _

theorem claimBlock (h : Upstream s t) {c b : Nat} (hu : claimBlock t c b = .done u) : Upstream s u := by
  have seg (k : Nat) : 0x800000 ≤ R.TRG_SEG k := Nat.le_add_right_of_le (by decide)
  unfold Machine.claimBlock at hu
  extract_lets held new at hu
  split at hu
  · cases hu
  next k _ =>
    split at hu
    · cases hu
      exact h
    split at hu
    · cases hu
    extract_lets counted claimed kept at hu
    injection hu with hu
    have h1 : Upstream s claimed := ite ((h.setF (seg k) _).setTrg _) (h.setF (seg k) _)
    have h2 : Upstream s kept := ite (h1.setF (seg k) 1) (h1.setF (seg k) 3)
    exact hu ▸ h2.setTrg _

theorem claimBlocks (h : Upstream s t) (c : Nat) (bs : List Nat) : Upstream s (claimBlocks t c bs) := by
  have capture : 0x800000 ≤ R.TRG_CAPTURE c := Nat.le_add_right_of_le (by decide)
  induction bs generalizing t with
  | nil => exact h
  | cons b bs ih =>
    unfold Machine.claimBlocks
    split
    · next hu => exact ih (h.claimBlock hu)
    · exact ih (h.setF capture 1)
    · exact h.setF capture 1

theorem freeze (h : Upstream s t) (ft : Nat) : Upstream s (freeze t ft).1 := by
  have capture (c : Nat) : 0x800000 ≤ R.TRG_CAPTURE c := Nat.le_add_right_of_le (by decide)
  unfold Machine.freeze
  extract_lets lo hi a b refused
  have hrefused : Upstream s refused.1 := (h.bump (by decide)).setF (by decide) 1
  split
  · exact hrefused
  · split
    · next c _ =>
      have joined := (h.setCaptureRange c (min (captureRange t c).1 a, max (captureRange t c).2 (b + 5))).setF
        (f := F.TRG_CAPTURE_TRIGGERS c) (capture c)
      exact ((joined _).claimBlocks ..).captureChecks
    · split
      · next c _ =>
        have opened := ((h.setR (capture c) 0).setF (f := F.TRG_CAPTURE_STATE c) (capture c) 1).setF
          (f := F.TRG_CAPTURE_TRIGGERS c) (capture c) 1
        exact (((opened.setTrg _).setCaptureRange ..).claimBlocks ..).captureChecks
      · exact hrefused

theorem holdSlot (h : Upstream s t) (ft : Nat) (cap : Option Nat) : Upstream s (holdSlot t ft cap).1 := by
  unfold Machine.holdSlot
  extract_lets refused
  have hrefused : Upstream s refused.1 := (h.bump (by decide)).setF (by decide) 1
  split
  · exact hrefused
  next k _ =>
    extract_lets own owners
    have howned {u : State} (hu : Upstream s u) : Upstream s (own u) := by
      dsimp only [own]
      split
      · exact (hu.setF (Nat.le_add_right_of_le (by decide)) 1).setF (Nat.le_add_right_of_le (by decide)) k
      · exact hu
    split_ifs
    · exact hrefused
    · exact howned (h.setTrg _)
    · exact hrefused
    · exact howned ((h.setF (Nat.le_add_right_of_le (by decide)) 1).setTrg _)

/-! ## A trigger fires (R245, R253 to R255) -/

theorem sendOnLink (h : Upstream s t) (k : Nat) (header payload : List Byte) : Upstream s (sendOnLink t k header payload) :=
  h.foldl (fun _ _ h => ite (h.emit _) h) _

theorem signpostSend (h : Upstream s t) (x : Trigger) : Upstream s (signpostSend t x).1 := by
  unfold Machine.signpostSend
  extract_lets f n hops header sent
  have h1 : Upstream s sent := h.foldl (fun _ _ h => h.sendOnLink ..) _
  split_ifs
  · exact h
  · exact (h.bump (by decide)).setF (by decide) 1
  · dsimp only
    exact (h1.bump (by decide)).setTrg _

theorem digestSum (h : Upstream s t) (span i : Nat) (bs : List Byte) : Upstream s (digestSum t span i bs) :=
  ite h (h.same rfl rfl rfl rfl)

theorem recordWrite (h : Upstream s t) (x : Trigger) (flags capture slot : Nat) :
    Upstream s (recordWrite t x flags capture slot) := by
  unfold Machine.recordWrite
  extract_lets bs numbered f digested count head written
  have h1 : Upstream s digested := (h.setTrg _).digestSum ..
  have h2 : Upstream s written := h1.unitWrite ..
  refine ite h1 (ite ?_ ?_)
  · exact ((h1.bump (by decide)).setF (by decide) 1).fault 14
  · exact ((h2.setR (by decide) _).bump (by decide)).brlPendAll 4

theorem fireTrigger (h : Upstream s t) (x : Trigger) : Upstream s (fireTrigger t x) := by
  unfold Machine.fireTrigger
  extract_lets ft
  split
  next t1 cap hcap =>
  split
  next t2 slot hslot =>
  split
  next t3 sent hsent =>
  have h1 : Upstream s t1 := of_fst hcap (ite_fst (h.freeze ft) h)
  have h2 : Upstream s t2 := of_fst hslot (ite_fst (h1.holdSlot ft cap) h1)
  have h3 : Upstream s t3 := of_fst hsent (ite_fst (h2.signpostSend x) h2)
  extract_lets flags recorded
  have h4 : Upstream s recorded := ite h3 (h3.recordWrite ..)
  refine ite ?_ h4
  split
  · exact h4.raise 6
  · exact h4.raise 7
  · exact h4.raise 8
  · exact h4

theorem retractRecord (h : Upstream s t) (channel index : Nat) : Upstream s (retractRecord t channel index) :=
  (h.bump (by decide)).recordWrite ..

/-! ## The impulse search (R106, R246 to R249) -/

theorem groupFire (h : Upstream s t) (k at_ : Nat) (set : List Hit) (late : Bool) :
    Upstream s (groupFire t k at_ set late) := by
  unfold Machine.groupFire
  extract_lets first ratio
  split
  next t1 snr hsnr =>
  have h1 : Upstream s t1 := of_fst hsnr (ite_fst h (h.same rfl rfl rfl rfl))
  extract_lets noted raised fired
  have h2 : Upstream s noted := ite h1 (h1.setTrg _)
  have h3 : Upstream s fired := ((h2.bump (by decide)).raise _).fireTrigger _
  exact ite (h3.retractRecord ..) h3

theorem groupAt (h : Upstream s t) (k at_ : Nat) : Upstream s (groupAt t k at_) :=
  ite ((h.setTrg _).groupFire ..) (h.setTrg _)

theorem horizonAdvance (h : Upstream s t) (k : Nat) : Upstream s (horizonAdvance t k) := by
  unfold Machine.horizonAdvance
  extract_lets horizon moved due fired
  have h1 : Upstream s fired := (h.setTrg _).foldl (fun _ x h => h.groupAt k x) due
  exact h1.setTrg _

theorem hitToGroups (h : Upstream s t) (x : Hit) : Upstream s (hitToGroups t x) :=
  (ite h (h.bump (by decide))).foldl (fun _ _ h => h.setTrg _) _

theorem tapSignal (h : Upstream s t) (i idx : Nat) (xs : List Int) : Upstream s (tapSignal t i idx xs) := by
  unfold Machine.tapSignal
  extract_lets seeded rest ns start locked acc noted tapped
  have h1 : Upstream s seeded := ite (h.same rfl rfl rfl rfl) h
  have h2 : Upstream s tapped := ((h1.setR (Nat.le_add_right_of_le (by decide)) _).setF
    (Nat.le_add_right_of_le (by decide)) _).setTrg _
  exact ite h1 (ite (h1.setTrg _) (h2.foldl (fun _ _ h => (h.bump (by decide)).hitToGroups _) _))

theorem impulseTap (h : Upstream s t) (n : Nat) (f : RxFrame) : Upstream s (impulseTap t n f) := by
  unfold Machine.impulseTap
  extract_lets idx moved data tapped
  have h1 : Upstream s moved := h.foldl (fun _ k h => h.horizonAdvance k) _
  have h2 : Upstream s tapped := h1.foldl (fun _ _ h => h.tapSignal ..) _
  exact ite (h2.foldl (fun _ k h => h.horizonAdvance k) _) h

theorem tapFirst (h : Upstream s t) (n : Nat) (f : RxFrame) : Upstream s (tapFirst t n f).1 :=
  ite_fst ((h.advanceTo _).impulseTap n f) h

theorem retract (h : Upstream s t) (n idx : Nat) : Upstream s (retract t n idx) :=
  (h.setTrg _).foldl (fun _ _ h => h.retractRecord ..) _

theorem retractIf (h : Upstream s t) (taken : Bool) (n : Nat) (f : RxFrame) : Upstream s (retractIf taken t n f) :=
  ite (h.retract ..) h

theorem noiseRestart (h : Upstream s t) (i : Nat) : Upstream s (noiseRestart t i) :=
  (h.setF (f := F.TRG_IMP_READY i) (Nat.le_add_right_of_le (by decide)) 0).same rfl rfl rfl rfl

theorem rawQueue (h : Upstream s t) (f valid : Nat) : Upstream s (rawQueue t f valid) := by
  unfold Machine.rawQueue
  split
  · exact (h.setPair (Nat.le_add_right_of_le (by decide)) valid).setTrg _
  · exact h

end Upstream
end Sys2Proof.Machine
end

section
/-! The states of the ingest lanes, and what becomes of a frame that passes the tests of R81 (R81 to R87, R96, R97). -/
namespace Sys2Proof.Machine

/-! ## Signal states (R97) -/

/-- Signal `j` of lane `n` enters a state, and its state-change bit is set. -/
def sigStep (n st : Nat) (s : State) (j : Nat) : State :=
  setPairB (setF s ⟨R.LNK_SIG_STATE (n / 4), 8 * (n % 4) + 2 * j + 1, 8 * (n % 4) + 2 * j⟩ st)
    R.LNK_STATE_CHANGE_LO (4 * n + j) true

/-- What entering a state does after the four signals have entered it. -/
def sigEntered (n st : Nat) (s : State) : State :=
  let s := if st = 2 then setIngestLane s n fun l => { l with lockCount := 0 } else s
  refreshLevels (if st = 3 then (List.range 4).foldl (fun s j => noiseRestart s (4 * n + j)) s else s)

theorem setSigState_eq (s : State) (n st : Nat) :
    setSigState s n st = if sigState s n = st then s else sigEntered n st ((List.range 4).foldl (sigStep n st) s) := rfl

theorem sigStep_steady (n st : Nat) {s t : State} (h : Steady 0x300010 true s t) (j : Nat) :
    Steady 0x300010 true s (sigStep n st t j) :=
  (h.setF (Nat.le_add_right_of_le (by decide)) st).setB (Nat.le_add_right_of_le (by decide)) _ true

theorem noiseRestart_steady {lim : Nat} {s t : State} (h : Steady lim true s t) (hl : lim ≤ 0xC00000) (i : Nat) :
    Steady lim true s (noiseRestart t i) :=
  (h.setF (f := F.TRG_IMP_READY i) (Nat.le_add_right_of_le (hl.trans (by decide))) 0).same rfl rfl rfl rfl rfl rfl

theorem sigEntered_steady (n st : Nat) (s : State) : Steady 0x800000 true s (sigEntered n st s) := by
  have noted : Steady 0x800000 true s (if st = 2 then setIngestLane s n fun l => { l with lockCount := 0 } else s) :=
    .ite ((Steady.refl s).same rfl rfl rfl rfl rfl rfl) (.refl s)
  exact (Steady.ite (noted.foldl (fun _ _ h => noiseRestart_steady h (by decide) _) _) noted).refreshLevels (by decide)

theorem setSigState_steady {s t : State} (h : Steady 0x300010 true s t) (n st : Nat) :
    Steady 0x300010 true s (setSigState t n st) :=
  .ite h ((h.foldl (fun _ j h => sigStep_steady n st h j) _).trans ((sigEntered_steady n st _).mono (by decide)))

/-- The first of the four signals of lane `n` tells the lane's state. -/
theorem sigState_sigStep (s : State) {n m j st : Nat} (hn : n < 16) (hm : m < 16) (hj : j < 4) (hst : st < 4) :
    sigState (sigStep n st s j) m = if m = n ∧ j = 0 then st else sigState s m := by
  have bits (u : State) : sigState (setPairB u R.LNK_STATE_CHANGE_LO (4 * n + j) true) m = sigState u m :=
    getF_setF_other u _ _ (Nat.mod_lt _ (by decide)) le_rfl (by simp only; omega) _
      (.inl (by simp only [R.LNK_SIG_STATE, R.LNK_STATE_CHANGE_LO]; omega))
  rw [sigStep, bits]
  split
  · next h =>
    obtain ⟨rfl, rfl⟩ := h
    have set := getF_setF_same s ⟨R.LNK_SIG_STATE (m / 4), 8 * (m % 4) + 1, 8 * (m % 4)⟩
      (by simp only; omega) (by simp only; omega) st
    have width : 8 * (m % 4) + 1 + 1 - 8 * (m % 4) = 2 := by omega
    exact set.trans (by rw [width]; exact Nat.mod_eq_of_lt hst)
  · next h =>
    exact getF_setF_other s _ _ (by simp only; omega) (by simp only; omega) (by simp only; omega) st
      (by simp only [R.LNK_SIG_STATE]; omega)

theorem sigState_setSigState (s : State) {n m st : Nat} (hn : n < 16) (hm : m < 16) (hst : st < 4) :
    sigState (setSigState s n st) m = if m = n then st else sigState s m := by
  rw [setSigState_eq]
  split
  · next h =>
    split
    · next e => rw [e, h]
    · rfl
  · have four : (List.range 4).foldl (sigStep n st) s =
        sigStep n st (sigStep n st (sigStep n st (sigStep n st s 0) 1) 2) 3 := rfl
    have kept (u : State) : sigState (sigEntered n st u) m = sigState u m :=
      (sigEntered_steady n st u).getF (by simp only [R.LNK_SIG_STATE]; omega)
    rw [kept, four]
    simp [sigState_sigStep _ hn hm _ hst]

theorem sigEntered_ingest (n st : Nat) (s : State) :
    (sigEntered n st s).ingestValid = s.ingestValid ∧ ∃ c, (sigEntered n st s).ingest = s.ingest ∨
      (sigEntered n st s).ingest = s.ingest.upd {} n fun l => { l with lockCount := c } := by
  unfold sigEntered
  extract_lets noted
  have behind : Upstream noted (refreshLevels
      (if st = 3 then (List.range 4).foldl (fun s j => noiseRestart s (4 * n + j)) noted else noted)) :=
    (Upstream.ite ((Upstream.refl noted).foldl (fun _ _ h => h.noiseRestart _) _) (.refl noted)).refreshLevels
  rw [behind.valid, behind.ingest]
  unfold noted
  split
  · exact ⟨rfl, 0, .inr rfl⟩
  · exact ⟨rfl, 0, .inl rfl⟩

/-- A change of state leaves the validity bits, and of what a lane holds changes the lock count at most. -/
theorem setSigState_ingest (s : State) (n st : Nat) :
    (setSigState s n st).ingestValid = s.ingestValid ∧ ∃ c, (setSigState s n st).ingest = s.ingest ∨
      (setSigState s n st).ingest = s.ingest.upd {} n fun l => { l with lockCount := c } := by
  rw [setSigState_eq]
  split
  · exact ⟨rfl, 0, .inl rfl⟩
  · exact sigEntered_ingest n st _

theorem ingestLane_setSigState (s : State) (n st : Nat) :
    (ingestLane (setSigState s n st) n).accepted = (ingestLane s n).accepted ∧
      (ingestLane (setSigState s n st) n).lastArrival = (ingestLane s n).lastArrival := by
  obtain ⟨-, c, h | h⟩ := setSigState_ingest s n st
  · simp [ingestLane, h]
  · simp [ingestLane, h, SMap.upd]

/-! ## INGEST frames (R84 to R87, R96) -/

theorem ingestLane_setIngestLane (s : State) (n : Nat) (f : IngestLane → IngestLane) :
    ingestLane (setIngestLane s n f) n = f (ingestLane s n) := SMap.get_put_same ..

theorem ingestLane_arrival (s : State) (n : Nat) (f : RxFrame) :
    (ingestLane (arrival s n f) n).accepted = (ingestLane s n).accepted ∧
      (ingestLane (arrival s n f) n).lastArrival = some (f.eofAt / 2 ^ 21) := by
  unfold arrival
  extract_lets noted
  have hnoted : ingestLane noted n = { ingestLane s n with lastArrival := some (f.eofAt / 2 ^ 21) } :=
    ingestLane_setIngestLane ..
  split
  · obtain ⟨haccepted, harrival⟩ := ingestLane_setSigState noted n 2
    simp [haccepted, harrival, hnoted]
  · simp [hnoted]

theorem ingestLane_acceptIngest (s : State) (n : Nat) (f : RxFrame) :
    frField f 8 8 ∈ (ingestLane (acceptIngest s n f) n).accepted := by
  have held := ingestLane_setIngestLane s n
  simp only [ingestLane] at held
  simp [acceptIngest, ingestLane, held]

theorem lateHook_ingest (s : State) (n : Nat) (f : RxFrame) : (lateHook s n f).ingest = s.ingest := by
  unfold lateHook
  dsimp only
  split
  · rfl
  · rfl

/-- A frame of the type passes every test of R81 on lane `n`. -/
structure Passes (s : State) (n type : Nat) (f : RxFrame) : Prop where
  up : linkState s n = 5
  header : headerOk f = true
  kind : frByte f 0 = type
  length : lengthOk f = true
  eof : f.eofInPlace = true
  allowed : typeAllowed s n type = true

theorem Passes.of_upstream {s t : State} {n type : Nat} {f : RxFrame} (h : Passes s n type f) (hn : n < 56)
    (hu : Upstream s t) : Passes t n type f where
  up := (hu.getF (by simp only [R.LANE_STATUS]; omega)).trans h.up
  header := h.header
  kind := h.kind
  length := h.length
  eof := h.eof
  allowed := by rw [← h.allowed, typeAllowed, typeAllowed, hu.getF (by simp only [R.LANE_USE]; omega)]

/-- What a lane receives where a frame passes every test. -/
theorem receive_passes {s : State} {n type : Nat} {f : RxFrame} (k : State → State) (h : Passes s n type f)
    (hcrc : type = 3 ∨ type = 6 → payloadCrcOk f = true) :
    receive s n type f k = k (bump (advanceTo s f.eofAt) (R.LNK_RX_FRAMES n)) := by
  obtain ⟨hl, hh, ht, hlen, heof, ha⟩ := h
  have ha' : typeAllowed (advanceTo s f.eofAt) n type = true := by
    rw [← ha, typeAllowed, typeAllowed, getF, rd_advanceTo, getF]
  have hcrc' : ¬ ((type = 3 ∨ type = 6) ∧ ¬ payloadCrcOk f = true) := fun h => h.2 (hcrc h.1)
  simp only [receive, hl, hh, ht, hlen, heof, ha', hcrc', ne_eq, not_true_eq_false, if_false, Bool.not_true,
    Bool.and_self, Bool.false_eq_true]

/-- Ingest lane `n` is enabled, and an INGEST frame that passed R81 is in place, new and ON_TIME (R86, R96). -/
structure IngestTaken (s : State) (n : Nat) (f : RxFrame) : Prop where
  enabled : getB s R.LNK_ING_EN n = true
  aligned : frField f 8 8 % 4096 = 0
  base : frField f 6 2 = getR s R.LNK_SIGNAL_BASE + 4 * n
  fresh : frField f 8 8 ∉ (ingestLane s n).accepted
  onTime : ingestClass s f = .onTime

theorem IngestTaken.of_same {s t : State} {n : Nat} {f : RxFrame} (h : IngestTaken s n f)
    (hw : ∀ a ≤ R.LNK_SIGNAL_BASE, rd t a = rd s a) (hi : t.ingest = s.ingest) (ha : t.arch = s.arch) :
    IngestTaken t n f where
  enabled := by rw [← h.enabled, getB, hw _ (by decide), getB]
  aligned := h.aligned
  base := by rw [h.base, getR, getR, hw _ le_rfl]
  fresh := by rw [ingestLane, hi]; exact h.fresh
  onTime := by rw [← h.onTime, ingestClass, ingestClass, ha]

/-- Such a frame is accepted and arrives. -/
theorem ingestFrame_taken {s : State} {n : Nat} {f : RxFrame} (taps : State → State) (h : IngestTaken s n f) :
    ∃ u, ingestFrame s n f taps = taps (arrival (acceptIngest u n f) n f) := by
  unfold ingestFrame
  extract_lets counted sourced idx seen flagged
  have low : ∀ a ≤ R.LNK_SIGNAL_BASE, rd sourced a = rd s a := fun a ha => by
    have below (x : Nat) (hx : R.LNK_SIGNAL_BASE < x) : a ≠ x := (ha.trans_lt hx).ne
    have source := below (R.LNK_SOURCE n) (by simp only [R.LNK_SIGNAL_BASE, R.LNK_SOURCE]; omega)
    have payload := below (R.LNK_PAYLOAD_CV n) (by simp only [R.LNK_SIGNAL_BASE, R.LNK_PAYLOAD_CV]; omega)
    exact (rd_wr_ne counted _ source).trans ((rd_bumpBy s _ _ a).trans (if_neg payload))
  obtain ⟨-, haligned, hbase, hfresh, honTime⟩ : IngestTaken sourced n f := h.of_same low rfl rfl
  have hclass : ingestClass flagged f = .onTime := honTime
  rw [if_neg (not_not.2 haligned), if_neg (not_not.2 hbase), if_neg hfresh, hclass]
  exact ⟨flagged, rfl⟩

end Sys2Proof.Machine
end

section
/-! The ingest commands: frames that end before their EOF, enables, the ingest close (R82, R97, R98, R101). -/
namespace Sys2Proof.Machine

/-! ## Frames -/

theorem ingestReceived_whole {s : State} {n : Nat} {f : RxFrame} (hlen : lengthOk f = true) (heof : f.eofInPlace = true) :
    ingestReceived s n f = receive (tapFirst s n f).1 n 1 f fun s =>
      if getB s R.LNK_ING_EN n then ingestFrame s n f (fun s => lateHook s n f) else s := by
  simp [ingestReceived, hlen, heof]

/-- An INGEST frame that passes every test, on an enabled lane and ON_TIME, is accepted and arrives. -/
theorem ingestReceived_taken {s : State} {n : Nat} {f : RxFrame} (hn : n < 16) (hp : Passes s n 1 f)
    (ht : IngestTaken s n f) :
    frField f 8 8 ∈ (ingestLane (ingestReceived s n f) n).accepted ∧
      (ingestLane (ingestReceived s n f) n).lastArrival = some (f.eofAt / 2 ^ 21) := by
  have tap := (Upstream.refl s).tapFirst n f
  rw [ingestReceived_whole hp.length hp.eof, receive_passes _ (hp.of_upstream (by omega) tap) (by simp)]
  obtain ⟨word, hingest, -, harch⟩ := tap.advanceTo f.eofAt
  have counted : IngestTaken (bump (advanceTo (tapFirst s n f).1 f.eofAt) (R.LNK_RX_FRAMES n)) n f := by
    refine ht.of_same (fun a ha => ?_) hingest harch
    have apart : a ≠ R.LNK_RX_FRAMES n := by simp only [R.LNK_SIGNAL_BASE, R.LNK_RX_FRAMES] at ha ⊢; omega
    rw [bump, rd_bumpBy, if_neg apart, word a (ha.trans_lt (by decide))]
  obtain ⟨u, hu⟩ := ingestFrame_taken (fun s => lateHook s n f) counted
  rw [if_pos counted.enabled, hu, ingestLane, lateHook_ingest]
  obtain ⟨haccepted, harrival⟩ := ingestLane_arrival (acceptIngest u n f) n f
  exact ⟨haccepted ▸ ingestLane_acceptIngest u n f, harrival⟩

/-- A frame cut short counts once: a whole header that failed as a header error, anything else as a length error. -/
theorem sofInside_counts {s : State} {n : Nat} {f : RxFrame} (hn : n < 56) (hl : linkState s n = 5) :
    if 32 ≤ f.header.length ∧ headerOk f = false then
      (rd (sofInside s n f) (R.LNK_HDR_ERR n)).toNat = min ((rd s (R.LNK_HDR_ERR n)).toNat + 1) 0xFFFFFFFF
    else (rd (sofInside s n f) (R.LNK_LEN_ERR n)).toNat = min ((rd s (R.LNK_LEN_ERR n)).toNat + 1) 0xFFFFFFFF := by
  have counted (u : State) (taken : Bool) {a : Nat} (ha : a < 0x800000) (hu : Upstream s u) :
      (rd (retractIf taken (bump (advanceTo u f.eofAt) a) n f) a).toNat = min ((rd s a).toNat + 1) 0xFFFFFFFF := by
    rw [((Upstream.refl _).retractIf taken n f).word a ha, bump, toNat_rd_bumpBy, rd_advanceTo, hu.word a ha]
  have tap := (Upstream.refl s).tapFirst n f
  unfold sofInside
  rw [if_neg (not_not.2 hl)]
  by_cases hfail : 32 ≤ f.header.length ∧ ¬ headerOk f = true
  · rw [if_pos (by simpa using hfail)]
    simp only [if_pos hfail]
    exact counted _ _ (by simp only [R.LNK_HDR_ERR]; omega) tap
  · rw [if_neg (by simpa using hfail)]
    simp only [if_neg hfail]
    exact counted _ _ (by simp only [R.LNK_LEN_ERR]; omega) tap

/-! ## Enables (R97, R101) -/

/-- The enable of lane `n` takes effect on its state. -/
def enableLane (enable : BitVec 16) (s : State) (n : Nat) : State :=
  if enable.getLsbD n then if sigState s n = 0 then setSigState s n 1 else s else setSigState s n 0

theorem setIngestEnable_eq (s : State) (enable : BitVec 16) :
    setIngestEnable s enable = (List.range 16).foldl (enableLane enable) (setR s R.LNK_ING_EN enable.toNat) := rfl

theorem enableLane_steady (enable : BitVec 16) {s t : State} (h : Steady 0x300010 true s t) (n : Nat) :
    Steady 0x300010 true s (enableLane enable t n) :=
  .ite (.ite (setSigState_steady h n 1) h) (setSigState_steady h n 0)

/-- The state of a lane once its enable, as given, has taken effect. -/
def enabledState (enable : BitVec 16) (n st : Nat) : Nat := if enable.getLsbD n then if st = 0 then 1 else st else 0

theorem sigState_enableLane (enable : BitVec 16) (s : State) {n m : Nat} (hn : n < 16) (hm : m < 16) :
    sigState (enableLane enable s n) m = if m = n then enabledState enable n (sigState s n) else sigState s m := by
  unfold enableLane enabledState
  split
  · split
    · exact sigState_setSigState s hn hm (by decide)
    · split
      · next e => rw [e]
      · rfl
  · exact sigState_setSigState s hn hm (by decide)

theorem sigState_enableLanes (enable : BitVec 16) (s : State) {k m : Nat} (hk : k ≤ 16) (hm : m < 16) :
    sigState ((List.range k).foldl (enableLane enable) s) m =
      if m < k then enabledState enable m (sigState s m) else sigState s m := by
  induction k with
  | zero => rfl
  | succ k ih =>
    rw [List.range_succ, List.foldl_append, List.foldl_cons, List.foldl_nil, sigState_enableLane enable _ (by omega) hm]
    rcases lt_trichotomy m k with h | rfl | h
    · rw [if_neg h.ne, ih (by omega), if_pos h, if_pos (by omega)]
    · rw [if_pos rfl, ih (by omega), if_neg (lt_irrefl m), if_pos (by omega)]
    · rw [if_neg h.ne', ih (by omega), if_neg (by omega), if_neg (by omega)]

theorem setIngestEnable_completes (s : State) (enable : BitVec 16) :
    getR (setIngestEnable s enable) R.LNK_ING_EN = enable.toNat ∧ MemorySame s (setIngestEnable s enable) ∧
      ∀ n : Fin 16, sigState (setIngestEnable s enable) n = enabledState enable n (sigState s n) := by
  rw [setIngestEnable_eq]
  have steady : Steady 0x300010 true (setR s R.LNK_ING_EN enable.toNat)
      ((List.range 16).foldl (enableLane enable) (setR s R.LNK_ING_EN enable.toNat)) :=
    (Steady.refl _).foldl (fun _ n h => enableLane_steady enable h n) _
  refine ⟨?_, steady.memorySame, fun n => ?_⟩
  · rw [getR, steady.word _ (by decide), rd_setR, if_pos rfl, BitVec.toNat_ofNat]
    exact Nat.mod_eq_of_lt (by omega)
  · rw [sigState_enableLanes enable _ le_rfl n.isLt, if_pos n.isLt]
    have apart : R.LNK_SIG_STATE (n / 4) ≠ R.LNK_ING_EN := by simp only [R.LNK_SIG_STATE, R.LNK_ING_EN]; omega
    rw [sigState, getF, rd_setR, if_neg apart, ← getF, ← sigState]

end Sys2Proof.Machine
end

section
/-! The ingest close (R30, R98, R101). -/
namespace Sys2Proof.Machine

/-! ## Register pairs (R8) -/

theorem getPair_setPair_same (s : State) (a : Nat) {v : Nat} (hv : v < 2 ^ 64) : getPair (setPair s a v) a = v := by
  have dropped : (s.pairLow.drop (· == a)).get (rd (setPair s a v) a) a = rd (setPair s a v) a := by
    simp [SMap.get, SMap.find_drop]
  rw [getPair, show (setPair s a v).pairLow = s.pairLow.drop (· == a) from rfl, dropped, getR, rd_setPair, rd_setPair,
    if_neg (by omega), if_pos rfl, if_pos rfl, BitVec.toNat_ofNat, BitVec.toNat_ofNat]
  omega

theorem getPair_setPair_ne (s : State) {a b : Nat} (v : Nat) (h : a ≠ b) (hlo : a ≠ b + 4) (hhi : b ≠ a + 4) :
    getPair (setPair s b v) a = getPair s a := by
  have kept (d : Word) : (s.pairLow.drop (· == b)).get d a = s.pairLow.get d a := by
    simp [SMap.get, SMap.find_drop, h]
  rw [getPair, show (setPair s b v).pairLow = s.pairLow.drop (· == b) from rfl, kept, getR, rd_setPair, rd_setPair,
    if_neg hlo, if_neg h, if_neg (by omega), if_neg hhi.symm, getPair, getR]

/-- The window of segment validity lies above every pair of the lane protocol. -/
theorem getPair_rawQueue (s : State) (f valid : Nat) {a : Nat} (ha : a < 0x800000) :
    getPair (rawQueue s f valid) a = getPair s a := by
  unfold rawQueue
  split
  · next k _ =>
    have above : a + 4 < validEntry k f := by simp only [validEntry]; omega
    exact getPair_setPair_ne s valid (by omega) (by omega) (by omega)
  · rfl

/-! ## The validity bits of a frame -/

theorem packBits_lt (bs : List Bool) : packBits bs < 2 ^ bs.length := by
  induction bs with
  | nil => decide
  | cons b bs ih =>
    have bit : ofBool b ≤ 1 := by cases b <;> decide
    rw [packBits, List.length_cons, Nat.pow_succ]
    omega

theorem closeLane_steady (s : State) (f n : Nat) : Steady 0x300010 true s (closeLane s f n) := by
  unfold closeLane
  extract_lets agree c counted judged bits valid
  have h1 : Steady 0x300010 true s counted := (Steady.refl s).same rfl rfl rfl rfl rfl rfl
  have h2 : Steady 0x300010 true s judged := .ite (.ite (setSigState_steady h1 n 3) h1) (.refl s)
  exact h2.same rfl rfl rfl rfl rfl rfl

/-- The close of frame `f` on lane `n` adds the lane's four bits to those of the frame. -/
theorem closeLane_valid (s : State) (f n : Nat) : ∃ p < 2 ^ 4,
    (closeLane s f n).ingestValid = s.ingestValid.upd 0 f (· + p * 2 ^ (4 * n)) := by
  unfold closeLane
  extract_lets agree c counted judged bits valid
  have kept : judged.ingestValid = s.ingestValid := by
    unfold judged
    split
    · split
      · exact (setSigState_ingest counted n 3).1
      · rfl
    · rfl
  refine ⟨packBits bits, packBits_lt bits, ?_⟩
  exact congrArg (SMap.upd · 0 f (· + packBits bits * 2 ^ (4 * n))) kept

/-- The close of frame `f` on lane `n`, where it is enabled. -/
def closeIfEnabled (f : Nat) (s : State) (n : Nat) : State := if getB s R.LNK_ING_EN n then closeLane s f n else s

theorem closeLanes_steady (s : State) (f k : Nat) :
    Steady 0x300010 true s ((List.range k).foldl (closeIfEnabled f) s) :=
  (Steady.refl s).foldl (fun t n h => .ite (h.trans (closeLane_steady t f n)) h) _

/-- After the close of the first `k` lanes the frame has bits of these only, and none of a lane that is not enabled. -/
theorem closeLanes_valid {s : State} {f : Nat} (h0 : s.ingestValid.find f = some 0) (k : Nat) :
    ∃ v < 2 ^ (4 * k), ((List.range k).foldl (closeIfEnabled f) s).ingestValid.find f = some v ∧
      ∀ i, getB s R.LNK_ING_EN (i / 4) = false → v.testBit i = false := by
  induction k with
  | zero => exact ⟨0, by decide, h0, fun i _ => Nat.zero_testBit i⟩
  | succ k ih =>
    obtain ⟨v, hlt, hfind, hoff⟩ := ih
    rw [List.range_succ, List.foldl_append, List.foldl_cons, List.foldl_nil]
    have enables : getB ((List.range k).foldl (closeIfEnabled f) s) R.LNK_ING_EN k = getB s R.LNK_ING_EN k := by
      rw [getB, (closeLanes_steady s f k).word _ (by decide), getB]
    generalize (List.range k).foldl (closeIfEnabled f) s = t at hfind enables
    have wider : 2 ^ (4 * (k + 1)) = 2 ^ (4 * k) * 16 := by rw [Nat.mul_succ, Nat.pow_add]
    unfold closeIfEnabled
    split
    · next hen =>
      obtain ⟨p, hp, hvalid⟩ := closeLane_valid t f k
      have sum_lt : v + p * 2 ^ (4 * k) < 2 ^ (4 * (k + 1)) := by
        have := Nat.mul_le_mul_right (2 ^ (4 * k)) (Nat.le_of_lt_succ hp)
        omega
      refine ⟨v + p * 2 ^ (4 * k), sum_lt, ?_, fun i hi => ?_⟩
      · rw [hvalid, SMap.upd, SMap.find_put_same, SMap.get, hfind, Option.getD_some]
      · have other : i / 4 ≠ k := by
          rintro rfl
          rw [enables, hi] at hen
          cases hen
        rcases Nat.lt_or_ge i (4 * k) with below | above
        · rw [Nat.add_comm, Nat.mul_comm, Nat.testBit_two_pow_mul_add p hlt, if_pos below]
          exact hoff i hi
        · exact Nat.testBit_lt_two_pow (sum_lt.trans_le (Nat.pow_le_pow_right (by decide) (by omega)))
    · exact ⟨v, hlt.trans_le (Nat.pow_le_pow_right (by decide) (by omega)), hfind, hoff⟩

/-! ## The close -/

theorem advanceTo_reaches {s : State} {x : Nat} (h : s.counter.toNat ≤ x) (hx : x < frameStart (frameOf s + 1))
    (h64 : x < 2 ^ 64) :
    (advanceTo s x).counter.toNat = x := by
  rw [advanceTo, if_pos ⟨h, hx⟩]
  exact (BitVec.toNat_ofNat ..).trans (Nat.mod_eq_of_lt h64)

/-- The close of the frame before the present one, not closed before, shows the frame and its validity. -/
theorem ingestClose_completes {s : State} {f : Nat} (hf : frameOf s = f + 1) (hc : s.counter.toNat ≤ ingestCloseAt f)
    (hv : s.ingestValid.find f = none) :
    getPair (ingestClose s f) R.LNK_VALID_FRAME_LO = f ∧
      ∃ v, (ingestClose s f).ingestValid.find f = some v ∧ getPair (ingestClose s f) R.LNK_VALID_LO = v ∧
        ∀ i, getB s R.LNK_ING_EN (i / 4) = false → v.testBit i = false := by
  have hf64 : f + 1 < 2 ^ 43 := hf ▸ Nat.div_lt_of_lt_mul s.counter.isLt
  have reached : (advanceTo s (ingestCloseAt f)).counter.toNat = ingestCloseAt f :=
    advanceTo_reaches hc (by simp only [hf, ingestCloseAt, frameStart]; omega)
      (by simp only [ingestCloseAt, frameStart]; omega)
  obtain ⟨c, hadv⟩ := advanceTo_eq s (ingestCloseAt f)
  have opened : ¬ ((advanceTo s (ingestCloseAt f)).counter.toNat < ingestCloseAt f ∨
      ((advanceTo s (ingestCloseAt f)).ingestValid.find f).isSome = true) := by
    rw [reached, hadv]
    simp [hv]
  unfold ingestClose
  extract_lets advanced listed closed
  rw [if_neg opened]
  have h0 : listed.ingestValid.find f = some 0 := by
    have kept : decide (f + 1024 < f) = false := decide_eq_false (by omega)
    simp [listed, SMap.find_drop, SMap.find_put_same]
  obtain ⟨v, hlt, (hfind : closed.ingestValid.find f = some v), hoff⟩ := closeLanes_valid h0 16
  have enables (n : Nat) : getB listed R.LNK_ING_EN n = getB s R.LNK_ING_EN n :=
    congrArg (·.getLsbD n) (rd_advanceTo s (ingestCloseAt f) R.LNK_ING_EN)
  have shown : closed.ingestValid.get 0 f = v := by rw [SMap.get, hfind, Option.getD_some]
  refine ⟨getPair_setPair_same _ _ (by omega), v, hfind, ?_, fun i hi => hoff i ((enables _).trans hi)⟩
  rw [getPair_setPair_ne _ _ (by decide) (by decide) (by decide), shown]
  exact getPair_setPair_same _ _ hlt

theorem ingestCloseAll_cases (s : State) (f : Nat) : ingestCloseAll s f = ingestClose s f ∨
    ∃ valid, ingestCloseAll s f = rawQueue (ingestClose s f) f valid := by
  unfold ingestCloseAll
  dsimp only
  split
  · exact .inr ⟨_, rfl⟩
  · exact .inl rfl

end Sys2Proof.Machine

namespace Sys2Proof
open Machine

/-- Settles O6. The impulse tap and the triggers it fires act on a frame before its tests and its acceptance, and leave all
that these look at (`Upstream`). -/
theorem ingestCommandsComplete : Obligations.IngestCommandsComplete := by
  unfold Obligations.IngestCommandsComplete
  refine ⟨fun s n f hup hl hh ht hlen heof ha hen halign hbase hnew hclass => ?_, fun s n f hup hl => ?_,
    fun s enable hup => ?_, fun s f hup hf hc hv => ?_, fun s n hup hst hlost => ?_,
    fun s n f hup hl hh ht hlen heof ha hcrc => ?_⟩
  · exact completes_run (f := (ingestReceived · n f)) rfl hup
      (ingestReceived_taken n.isLt ⟨hl, hh, ht, hlen, heof, ha⟩ ⟨hen, halign, hbase, hnew, hclass⟩)
  · exact completes_run (f := (sofInside · n f)) rfl hup (sofInside_counts n.isLt hl)
  · refine completes_run (f := (setIngestEnable · enable)) rfl hup ?_
    obtain ⟨hstored, hmem, hstate⟩ := setIngestEnable_completes s enable
    refine ⟨hstored, fun n hn => ?_, fun n hn => ?_, hmem⟩
    · rw [hstate, enabledState, if_neg (by rw [hn]; decide)]
    · rw [hstate, enabledState, if_pos hn]
  · refine completes_run (f := (ingestCloseAll · f)) rfl hup ?_
    obtain ⟨hframe, v, hfind, hpair, hoff⟩ := ingestClose_completes hf hc hv
    have bits (i : Fin 64) (hi : getB s R.LNK_ING_EN (i / 4) = false) := hpair ▸ hoff i hi
    obtain h | ⟨valid, h⟩ := ingestCloseAll_cases s f
    · rw [h]
      exact ⟨hframe, ⟨v, hfind, hpair⟩, bits⟩
    · have queued := ((Upstream.refl (ingestClose s f)).rawQueue f valid).valid
      rw [h, queued, getPair_rawQueue _ _ _ (by decide), getPair_rawQueue _ _ _ (by decide)]
      exact ⟨hframe, ⟨v, hfind, hpair⟩, bits⟩
  · refine completes_run rfl hup ?_
    have lost : 2 ≤ sigState s n ∧ (ingestLane s n).lastArrival.all (· + 2 < frameOf s) := by
      refine ⟨hst, ?_⟩
      rw [Option.all_eq_true]
      exact fun l hl => decide_eq_true (hlost l hl)
    rw [if_pos lost]
    exact ⟨(sigState_setSigState s n.isLt n.isLt (by decide)).trans (if_pos rfl),
      (setSigState_steady (.refl s) n 1).memorySame⟩
  · refine completes_run (f := fun s => receive s n 3 f fun s => bump s (R.LNK_UNEXPECTED n)) rfl hup ?_
    rw [receive_passes _ ⟨hl, hh, ht, hlen, heof, ha⟩ fun _ => hcrc]
    obtain ⟨hrx, hregs, hmem⟩ := bump_advanceTo_completes s f.eofAt (R.LNK_RX_FRAMES n)
    obtain ⟨hunexp, hregs', hmem'⟩ :=
      bump_completes (bump (advanceTo s f.eofAt) (R.LNK_RX_FRAMES n)) (R.LNK_UNEXPECTED n)
    refine ⟨?_, ?_, fun a ha => ?_, fun a => (hmem'.1 a).trans (hmem.1 a), hmem'.2.trans hmem.2⟩
    · rw [hregs' _ (by simp), hrx]
    · rw [hunexp, hregs _ (by simp)]
    · simp only [List.mem_cons, List.not_mem_nil, or_false, not_or] at ha
      obtain ⟨hframes, hunexpected⟩ := ha
      rw [hregs' a (by simpa using hunexpected), hregs a (by simpa using hframes)]

end Sys2Proof
end

section
/-! A master's writes to the mirrored set of the channelizer: the model table, the arms, the gain banks (R107, R109, R123 to
R125, R461). -/
namespace Sys2Proof.Machine

/-! ## Sending on to the twin (R93, R461) -/

/-- A TWIN frame changes the twin unit's own state and what was sent, and nothing else. -/
theorem sendTwin_eq (s : State) (kind offset : Nat) (payload : List Byte) :
    ∃ twin out, sendTwin s kind offset payload = { s with twin, out } := by
  unfold sendTwin sendOn
  extract_lets
  split
  · exact ⟨_, _, rfl⟩
  · exact ⟨_, _, rfl⟩

/-- Where the twin state lets a master write the mirrored set, the write is done; sending it on is the twin unit's alone. -/
theorem mirroredWrite_done {s t : State} (h : twinState s = 0 ∨ 5 ≤ twinState s) {apply : State → State} (ht : apply s = t)
    (bar4 : Bool) (addr : Nat) (data : List (Option Byte)) (taken : Bool) :
    ∃ twin out, mirroredWrite s bar4 addr data taken apply = { t with twin, out } := by
  unfold mirroredWrite
  subst ht
  rw [if_neg (by omega)]
  extract_lets t runs sent
  split
  · obtain ⟨twin, out, e⟩ := sendTwin_eq t 4 t.twin.mirrorCount (runs.flatMap fun r => mirrorRecord bar4 r.1 r.2)
    exact ⟨_, out, by rw [show sent = _ from e]⟩
  · exact ⟨_, _, rfl⟩

/-- A master's command that writes whole words of the mirrored set completes with the state `t` that the write leaves, but
for the twin unit and what was sent. (`t` is any state that the write equals, so that no check unfolds the write.) -/
theorem completes_mirrored {c : Instr} {s : State} {m : Master} {a : Nat} {data : List Byte} {apply : State → State}
    {post : State → Prop} (hc : exec c s = runBy m (fun s => mirrored s false a data apply) s) (hs : Sends s m)
    (htwin : twinState s = 0 ∨ 5 ≤ twinState s) (hp : ∀ t, apply s = t → ∀ twin out, post { t with twin, out }) :
    Completes c s post := by
  refine completes_runBy hc hs ?_
  obtain ⟨twin, out, e⟩ := mirroredWrite_done htwin rfl false a (data.map some) true
  rw [mirrored, e]
  exact hp _ rfl twin out

/-! ## The model table (R107, R109) -/

theorem modelWrite_ignored (s : State) (i m : Nat) {w : Nat} (h : 13 ≤ w) (v : Word) : modelWrite s i m w v = s := if_pos h

/-- A word that the table has is stored; beside it only the slot's match may change. -/
theorem modelWrite_stored (s : State) (i m : Nat) {w : Nat} (h : w ≤ 12) (v : Word) :
    ∃ chz, modelWrite s i m w v = { arrSet s .model (16 * (4 * i + m) + w) (v.setWidth 64) with chz } := by
  unfold modelWrite
  rw [if_neg (by omega)]
  extract_lets
  split
  · exact ⟨_, rfl⟩
  · exact ⟨_, rfl⟩

theorem modelWord_modelWrite (s : State) (i m : Nat) {w : Nat} (h : w ≤ 12) (v : Word) :
    modelWord (modelWrite s i m w v) i m w = v.toNat := by
  obtain ⟨chz, e⟩ := modelWrite_stored s i m h v
  have stored : arrGet (modelWrite s i m w v) .model (quadDomain i) (16 * (4 * i + m) + w) = v.setWidth 64 := by
    rw [e]
    exact arrGet_arrSet_same s .model (quadDomain i) _ _
  rw [modelWord, stored, BitVec.toNat_setWidth]
  omega

/-- Word 1 fixes the frame the slot matches, from its own bits and word 0 as stored. -/
theorem slotFrame_modelWrite (s : State) (i m : Nat) (v : Word) :
    (modelWrite s i m 1 v).chz.slotFrame.find (4 * i + m) =
      some (if v.getLsbD 31 then some (v.toNat % 2 ^ 16 * 2 ^ 32 + modelWord s i m 0) else none) :=
  SMap.find_put_same s.chz.slotFrame _ _

theorem modelWrite_dram (s : State) (i m w : Nat) (v : Word) : (modelWrite s i m w v).dram = s.dram := by
  rcases Nat.lt_or_ge 12 w with h | h
  · rw [modelWrite_ignored s i m h]
  · obtain ⟨chz, e⟩ := modelWrite_stored s i m h v
    rw [e]
    rfl

theorem arrayAccess_on {s : State} {d : Nat} (h : domOn s d = true) (m : Master) (target a : Nat) (f : State → State) :
    arrayAccess s m d target a f = f s := if_pos h

/-- MODEL_TABLE_WRITE stores a word of the table, word 1 with the match of its slot (R107, R109). -/
theorem modelTableWrite_completes {s : State} {m : Master} {i : Fin 64} (hs : Sends s m)
    (hon : domOn s (quadDomain i) = true) (htwin : twinState s = 0 ∨ 5 ≤ twinState s) (slot : Fin 4) (w : Fin 16)
    (v : Word) : Completes (.modelTableWrite m i slot w v) s fun t =>
      (w.val ≤ 12 → modelWord t i slot w = v.toNat) ∧
      (w.val = 1 → t.chz.slotFrame.find (4 * i.val + slot.val) = some (if v.getLsbD 31 then
        some (v.toNat % 2 ^ 16 * 2 ^ 32 + modelWord s i slot 0) else none)) ∧
      (13 ≤ w.val → t.arrays = s.arrays) ∧ ∀ a, readByte t.dram a = readByte s.dram a := by
  refine completes_runBy rfl hs ?_
  dsimp only
  obtain ⟨twin, out, e⟩ := mirroredWrite_done htwin (apply := (modelWrite · i slot w v)) rfl false
    (0x410000 + 64 * (4 * i.val + slot) + 4 * w) ((wordBytes v).map some) true
  rw [arrayAccess_on hon, mirrored, e]
  refine ⟨fun hw => modelWord_modelWrite s i slot hw v, fun hw => ?_, fun hw => ?_, fun a => ?_⟩
  · rw [hw]
    exact slotFrame_modelWrite s i slot v
  · rw [modelWrite_ignored s i slot hw]
  · rw [modelWrite_dram]

/-! ## The arms (R123, R124) -/

theorem toNat_armHigh (high : BitVec 16) : ((high.setWidth 32 : Word) &&& 0xFFFF).toNat = high.toNat := by
  have low : (0xFFFF : Word).toNat = 2 ^ 16 - 1 := by decide
  rw [BitVec.toNat_and, low, Nat.and_two_pow_sub_one_eq_mod, BitVec.toNat_setWidth]
  omega

/-- A field outside of the pair that a write of its high word completes reads the same. -/
theorem getF_writePairHigh (s : State) {a : Nat} {f : Fld} (h : f.addr ≠ a + 4) (v : Word) :
    getF (writePairHigh s a v) f = getF s f := by
  have word : rd (writePairHigh s a v) f.addr = rd s f.addr := rd_wr_ne s v h
  rw [getF, word, getF]

@[simp] theorem getF_setChz (s : State) (f : Chz → Chz) (g : Fld) : getF (setChz s f) g = getF s g := rfl

theorem memorySame_setChz {s t : State} (h : MemorySame s t) (f : Chz → Chz) : MemorySame s (setChz t f) := h

/-- A switch is armed with its frame and its settings, where the filter selections are defined (R124). -/
theorem switchArm_completes {s : State}
    (hdef : ∀ q : Fin 4, bitsOf (getF s F.CHZ_SWITCH_CTRL_FILTER) (4 * q.val + 3) (4 * q.val) < 9) (high : BitVec 16) :
    (switchArm s (high.setWidth 32)).chz.pendSwitch = some (getR s R.CHZ_SWITCH_FRAME_LO + high.toNat * 2 ^ 32,
        getF s F.CHZ_SWITCH_CTRL_FILTER, getF s F.CHZ_SWITCH_CTRL_GAIN_BANK) ∧
      getF (switchArm s (high.setWidth 32)) F.CHZ_SWITCH_CTRL_ARMED = 1 ∧
      MemorySame s (switchArm s (high.setWidth 32)) := by
  unfold switchArm
  extract_lets t f filters late armed noted
  have hf : f = getR s R.CHZ_SWITCH_FRAME_LO + high.toNat * 2 ^ 32 :=
    (getPair_writePairHigh s _ _).trans (by rw [toNat_armHigh])
  have hfilters : filters = getF s F.CHZ_SWITCH_CTRL_FILTER := getF_writePairHigh s (by decide) _
  have kept {g : Fld} (hg : g.lo ≤ g.hi) (apart : g.addr ≠ R.CHZ_SWITCH_CTRL ∨ g.hi < 30 ∨ 30 < g.lo) :
      getF noted g = getF armed g := by
    unfold noted
    split
    · exact getF_setF_other armed _ _ (by decide) (by decide) hg 1 apart
    · rfl
  have hbank : getF noted F.CHZ_SWITCH_CTRL_GAIN_BANK = getF s F.CHZ_SWITCH_CTRL_GAIN_BANK := calc
    _ = getF armed F.CHZ_SWITCH_CTRL_GAIN_BANK := kept (by decide) (by decide)
    _ = getF t F.CHZ_SWITCH_CTRL_GAIN_BANK :=
      getF_setF_other t _ _ (by decide) (by decide) (by decide) 1 (by decide)
    _ = getF s F.CHZ_SWITCH_CTRL_GAIN_BANK := getF_writePairHigh s (by decide) _
  have harmed : getF noted F.CHZ_SWITCH_CTRL_ARMED = 1 :=
    (kept (by decide) (by decide)).trans (getF_setF_same t _ (by decide) (by decide) 1)
  have hmem : MemorySame s noted := by
    unfold noted
    split
    · exact ⟨fun _ => rfl, rfl⟩
    · exact ⟨fun _ => rfl, rfl⟩
  have defined : ¬ ((List.range 4).any fun q => 9 ≤ bitsOf filters (4 * q + 3) (4 * q)) = true := by
    rw [List.any_eq_true, hfilters]
    rintro ⟨q, hq, h9⟩
    exact absurd (of_decide_eq_true h9) (Nat.not_le_of_lt (hdef ⟨q, List.mem_range.1 hq⟩))
  rw [if_neg defined]
  refine ⟨?_, ?_, memorySame_setChz hmem _⟩
  · rw [setChz_self, hf, hfilters, hbank]
  · rw [getF_setChz, harmed]

/-- A mode change is armed for a frame that begins an integration, whose latch point lies ahead, within the spectra that
calibration mode allows, and is rejected otherwise (R123). -/
theorem modeArm_completes (s : State) {high : BitVec 16} {f : Nat}
    (hf : f = getR s R.CHZ_MODE_FRAME_LO + high.toNat * 2 ^ 32) :
    MemorySame s (modeArm s (high.setWidth 32)) ∧
      if f % (spanLen s * integLen s) = 0 ∧ s.counter.toNat < latchPoint f ∧
          (flag s F.CHZ_MODE_NEXT_CAL8 = true → spanLen s * integLen s * 256 ≤ 65536) then
        (modeArm s (high.setWidth 32)).chz.pendMode = some (f, flag s F.CHZ_MODE_NEXT_CAL8) ∧
          getF (modeArm s (high.setWidth 32)) F.CHZ_MODE_ARMED = 1
      else (modeArm s (high.setWidth 32)).chz.pendMode = s.chz.pendMode ∧
        getF (modeArm s (high.setWidth 32)) F.CHZ_MODE_MODE_REJECT = 1 := by
  unfold modeArm
  extract_lets t g cal8 si
  have hg : g = f := (getPair_writePairHigh s _ _).trans (by rw [toNat_armHigh, hf])
  have hcal8 : cal8 = flag s F.CHZ_MODE_NEXT_CAL8 := congrArg (· != 0) (getF_writePairHigh s (by decide) _)
  have hsi : si = spanLen s * integLen s :=
    congrArg₂ (· * ·) (getF_writePairHigh s (by decide) _) (getF_writePairHigh s (by decide) _)
  have rejected : g % si ≠ 0 ∨ latchPassed t g = true ∨ (cal8 = true ∧ 65536 < si * 256) ↔
      ¬ (f % (spanLen s * integLen s) = 0 ∧ s.counter.toNat < latchPoint f ∧
        (flag s F.CHZ_MODE_NEXT_CAL8 = true → spanLen s * integLen s * 256 ≤ 65536)) := by
    have passed : latchPassed t g = true ↔ latchPoint f ≤ s.counter.toNat := by
      rw [hg]
      exact decide_eq_true_iff
    rw [passed, hg, hcal8, hsi]
    simp only [not_and_or, Classical.not_imp, Nat.not_lt, Nat.not_le]
  split
  · next hrej =>
    refine ⟨⟨fun _ => rfl, rfl⟩, ?_⟩
    rw [if_neg (rejected.1 hrej)]
    exact ⟨rfl, getF_setF_same t _ (by decide) (by decide) 1⟩
  · next harm =>
    refine ⟨⟨fun _ => rfl, rfl⟩, ?_⟩
    rw [if_pos (not_not.1 (mt rejected.2 harm)), setChz_self, hg, hcal8]
    exact ⟨rfl, getF_setF_same t _ (by decide) (by decide) 1⟩

/-- CHZ_SWITCH_ARM arms a switch with its frame and its settings (R124). -/
theorem chzSwitchArm_completes {s : State} {m : Master} {high : BitVec 16} (hs : Sends s m)
    (htwin : twinState s = 0 ∨ 5 ≤ twinState s)
    (hdef : ∀ q : Fin 4, bitsOf (getF s F.CHZ_SWITCH_CTRL_FILTER) (4 * q.val + 3) (4 * q.val) < 9) :
    Completes (.chzSwitchArm m high) s fun t =>
      t.chz.pendSwitch = some (getR s R.CHZ_SWITCH_FRAME_LO + high.toNat * 2 ^ 32, getF s F.CHZ_SWITCH_CTRL_FILTER,
        getF s F.CHZ_SWITCH_CTRL_GAIN_BANK) ∧ getF t F.CHZ_SWITCH_CTRL_ARMED = 1 ∧ MemorySame s t := by
  refine completes_mirrored rfl hs htwin fun t (ht : switchArm s (high.setWidth 32) = t) twin out => ?_
  have armed := switchArm_completes hdef high
  rw [ht] at armed
  exact armed

/-- CHZ_MODE_ARM arms a mode change or rejects it (R123). -/
theorem chzModeArm_completes {s : State} {m : Master} {high : BitVec 16} {f : Nat} (hs : Sends s m)
    (htwin : twinState s = 0 ∨ 5 ≤ twinState s) (hf : f = getR s R.CHZ_MODE_FRAME_LO + high.toNat * 2 ^ 32) :
    Completes (.chzModeArm m high) s fun t =>
      MemorySame s t ∧
      if f % (spanLen s * integLen s) = 0 ∧ s.counter.toNat < latchPoint f ∧
          (flag s F.CHZ_MODE_NEXT_CAL8 = true → spanLen s * integLen s * 256 ≤ 65536) then
        t.chz.pendMode = some (f, flag s F.CHZ_MODE_NEXT_CAL8) ∧ getF t F.CHZ_MODE_ARMED = 1
      else t.chz.pendMode = s.chz.pendMode ∧ getF t F.CHZ_MODE_MODE_REJECT = 1 := by
  refine completes_mirrored rfl hs htwin fun t (ht : modeArm s (high.setWidth 32) = t) twin out => ?_
  have armed := modeArm_completes s hf
  rw [ht] at armed
  exact armed

/-! ## The gain banks (R121, R125) -/

section gain
variable (b : Fin 2) (e : Fin 262144)

/-- The address of entry `e` of gain bank `b`. -/
def gainAddr : Nat := 0x600000 + b.val * 0x100000 + 4 * e.val

theorem toNat_gainAddr : (BitVec.ofNat 26 (gainAddr b e)).toNat / 4 * 4 = gainAddr b e := by
  rw [BitVec.toNat_ofNat, gainAddr]
  omega

theorem gainAddr_range : 0x600000 ≤ gainAddr b e ∧ gainAddr b e < 0x800000 := by
  rw [gainAddr]
  omega

theorem bankOf_gainAddr : bankOf (gainAddr b e) = some b.val := by
  rw [bankOf, if_pos (gainAddr_range b e), gainAddr]
  congr 1
  omega

theorem bankDomain_gainAddr : bankDomain (gainAddr b e) = 5 + e.val / 65536 := by
  rw [bankDomain, if_pos (gainAddr_range b e), gainAddr]
  omega

theorem bankInUse_gainAddr (s : State) : bankInUse s (gainAddr b e) = gainBankInUse s b := by
  rw [bankInUse, bankOf_gainAddr, Option.any_some, if_neg (by omega)]

theorem bankWrite_inUse {s : State} (h : gainBankInUse s b = true) (v : Word) :
    bankWrite s (gainAddr b e) v = bump s R.CHZ_WRITE_REJECT_COUNT := by
  rw [bankWrite, bankOf_gainAddr, if_neg (by simp), bankInUse_gainAddr, if_pos h]

theorem bankWrite_free {s : State} (h : gainBankInUse s b = false) (v : Word) :
    bankWrite s (gainAddr b e) v = arrSet s .gain (b.val * 262144 + e.val) (v.setWidth 64) := by
  have entry : (gainAddr b e - 0x600000) / 4 = b.val * 262144 + e.val := by
    rw [gainAddr]
    omega
  rw [bankWrite, bankOf_gainAddr, if_neg (by simp), bankInUse_gainAddr, if_neg (by simp [h]), bankStore,
    if_pos (gainAddr_range b e), entry]

/-- GAIN_BANK_WRITE stores an entry of a bank that is not in use; of one that is it counts the write (R125). -/
theorem gainBankWrite_completes {s : State} {m : Master} (hs : Sends s m) (htwin : twinState s = 0 ∨ 5 ≤ twinState s)
    (hon : domOn s (5 + e.val / 65536) = true) (v : Word) :
    Completes (.gainBankWrite m (BitVec.ofNat 26 (gainAddr b e)) v) s fun t =>
      if gainBankInUse s b = true then
        (rd t R.CHZ_WRITE_REJECT_COUNT).toNat = min ((rd s R.CHZ_WRITE_REJECT_COUNT).toNat + 1) 0xFFFFFFFF ∧
        t.arrays = s.arrays
      else arrGet t .gain (5 + e.val / 65536) (b.val * 262144 + e.val) = v.setWidth 64 := by
  refine completes_runBy rfl hs ?_
  dsimp only
  rw [toNat_gainAddr, bankOf_gainAddr, if_pos Option.isSome_some, bankDomain_gainAddr, arrayAccess_on hon, bankMirrored]
  split
  · next h =>
    obtain ⟨twin, out, heq⟩ := mirroredWrite_done htwin (apply := (bankWrite · (gainAddr b e) v)) (bankWrite_inUse b e h v)
      false (gainAddr b e) ((wordBytes v).map some) (!bankInUse s (gainAddr b e))
    rw [heq]
    exact ⟨(bump_completes s R.CHZ_WRITE_REJECT_COUNT).1, rfl⟩
  · next h =>
    obtain ⟨twin, out, heq⟩ := mirroredWrite_done htwin (apply := (bankWrite · (gainAddr b e) v))
      (bankWrite_free b e (eq_false_of_ne_true h) v) false (gainAddr b e) ((wordBytes v).map some) (!bankInUse s (gainAddr b e))
    rw [heq]
    exact arrGet_arrSet_same s .gain _ _ _

end gain

end Sys2Proof.Machine
end

section
/-! The latch point of a frame: its settings are kept, and each running signal takes the entry that matches the frame (R107,
R108, R130). -/
namespace Sys2Proof.Machine

/-! ## What decides on the models -/

/-- In `t` the model table, the frames its slots match and Yodex's status stand as in `s`. -/
structure SameModels (s t : State) : Prop where
  arrays : t.arrays = s.arrays
  epochs : t.epochs = s.epochs
  slotFrame : t.chz.slotFrame = s.chz.slotFrame
  status : rd t R.YDX_STATUS = rd s R.YDX_STATUS

namespace SameModels

variable {s t u : State}

theorem refl (s : State) : SameModels s s := ⟨rfl, rfl, rfl, rfl⟩

theorem trans (h : SameModels s t) (h' : SameModels t u) : SameModels s u :=
  ⟨h'.arrays.trans h.arrays, h'.epochs.trans h.epochs, h'.slotFrame.trans h.slotFrame, h'.status.trans h.status⟩

theorem ite {p : Prop} [Decidable p] (ht : SameModels s t) (hu : SameModels s u) : SameModels s (if p then t else u) := by
  split
  · exact ht
  · exact hu

theorem foldl {α : Type} {f : State → α → State} (hf : ∀ t x, SameModels s t → SameModels s (f t x)) (l : List α)
    (h : SameModels s t) : SameModels s (l.foldl f t) := by
  induction l generalizing t with
  | nil => exact h
  | cons x l ih => exact ih (hf t x h)

/-- The registers of the channelizer lie below Yodex's. -/
theorem wr (h : SameModels s t) {a : Nat} (ha : a < 0x800000) (v : Word) : SameModels s (wr t a v) :=
  h.trans ⟨rfl, rfl, rfl, rd_wr_ne t v (Nat.ne_of_gt (ha.trans (by decide)))⟩

theorem setF (h : SameModels s t) {f : Fld} (ha : f.addr < 0x800000) (v : Nat) : SameModels s (setF t f v) := h.wr ha _

theorem setPair (h : SameModels s t) {a : Nat} (ha : a + 4 < 0x800000) (v : Nat) : SameModels s (setPair t a v) :=
  ((h.wr (Nat.lt_of_add_right_lt ha) _).wr ha _).trans ⟨rfl, rfl, rfl, rfl⟩

theorem setChz (h : SameModels s t) {f : Chz → Chz} (hf : ∀ c, (f c).slotFrame = c.slotFrame) : SameModels s (setChz t f) :=
  h.trans ⟨rfl, rfl, hf _, rfl⟩

theorem matchingSlot (h : SameModels s t) (i f : Nat) : matchingSlot t i f = Machine.matchingSlot s i f := by
  rw [Machine.matchingSlot, h.slotFrame, Machine.matchingSlot]

theorem modelEntry (h : SameModels s t) (i m : Nat) : modelEntry t i m = Machine.modelEntry s i m := by
  have word (w : Nat) : modelWord t i m w = modelWord s i m w := by
    simp only [modelWord, arrGet, h.arrays, h.epochs]
  simp only [Machine.modelEntry, word]

theorem replaying (h : SameModels s t) : replaying t = Machine.replaying s := by
  have state : getF t F.YDX_STATUS_STATE = getF s F.YDX_STATUS_STATE := by rw [getF, h.status, getF]
  rw [Machine.replaying, state, Machine.replaying]

/-! ## The steps before the models: mode, switch, RUN and quads (R123, R124, R130) -/

theorem modeApply (h : SameModels s t) (f : Nat) : SameModels s (modeApply t f) := by
  unfold Machine.modeApply
  split
  · exact ite (((h.setF (by decide) _).setF (by decide) 0).setChz fun _ => rfl) h
  · exact h

theorem switchApply (h : SameModels s t) (f : Nat) : SameModels s (switchApply t f) := by
  unfold Machine.switchApply
  split
  · next g filters bank _ =>
    extract_lets late active
    have hlate : SameModels s late := ite (h.setF (by decide) 1) h
    have hactive : SameModels s active := (hlate.setF (by decide) filters).setF (by decide) bank
    exact ite (((hactive.setF (by decide) 0).setPair (by decide) f).setChz fun _ => rfl) h
  · exact h

theorem runFollow (h : SameModels s t) (f : Nat) : SameModels s (runFollow t f) := by
  unfold Machine.runFollow
  extract_lets started
  have hstarted : SameModels s started := by
    unfold started
    split
    · exact ite ((h.setF (by decide) 0xF).setChz fun _ => rfl) h
    · exact h
  split
  · exact ite ((hstarted.setF (by decide) 0).setChz fun _ => rfl) hstarted
  · exact hstarted

theorem quadLatch (h : SameModels s t) (f q : Nat) : SameModels s (quadLatch t f q) :=
  ite (h.setChz fun _ => rfl) (ite (h.setChz fun _ => rfl) h)

theorem latchModel (h : SameModels s t) {i : Nat} (hi : i < 64) (f : Nat) : SameModels s (latchModel t f i) := by
  unfold Machine.latchModel
  split
  · exact h.setChz fun _ => rfl
  · have counted : SameModels s (bump t R.CHZ_MODEL_LATE_COUNT) :=
      (h.wr (a := R.CHZ_MODEL_LATE_COUNT) (by decide) _).trans ⟨rfl, rfl, rfl, rfl⟩
    exact ite (counted.setF (by simp only [R.CHZ_STALE_LO]; omega) _) h

end SameModels

/-! ## The models (R108, R110) -/

/-- Signal `i` latches at frame `f`, where its quad runs and no replay gives the models. -/
def latchSignal (f : Nat) (s : State) (i : Nat) : State :=
  if (s.chz.quadStart.find (i / 16)).isSome ∧ ¬ replaying s then latchModel s f i else s

/-- Of what the channelizer holds, the latch of a signal changes that signal's last entry only. -/
theorem latchSignal_chz (f : Nat) (s : State) (i : Nat) :
    (latchSignal f s i).chz.quadStart = s.chz.quadStart ∧
      ∀ j, j ≠ i → (latchSignal f s i).chz.last.find j = s.chz.last.find j := by
  unfold latchSignal latchModel
  split
  · split
    · exact ⟨rfl, fun j hj => SMap.find_put_ne _ _ hj⟩
    · split
      · exact ⟨rfl, fun _ _ => rfl⟩
      · exact ⟨rfl, fun _ _ => rfl⟩
  · exact ⟨rfl, fun _ _ => rfl⟩

/-- A running signal takes its matching entry. -/
theorem latchSignal_takes {f : Nat} {s : State} {i k : Nat} (hk : matchingSlot s i f = some k)
    (hq : (s.chz.quadStart.find (i / 16)).isSome = true) (hr : replaying s = false) :
    (latchSignal f s i).chz.last.find i = some (f, modelEntry s i k) := by
  rw [latchSignal, if_pos ⟨hq, by simp [hr]⟩, latchModel, hk]
  exact SMap.find_put_same _ _ _

theorem sameModels_latchSignal {s t : State} (h : SameModels s t) {i : Nat} (hi : i < 64) (f : Nat) :
    SameModels s (latchSignal f t i) := .ite (h.latchModel hi f) h

/-- After the latch of the first `n` signals the models' sources and the running quads stand as before, and each running one of
these signals has taken its matching entry. -/
theorem latchSignals (f : Nat) (s : State) {n : Nat} (hn : n ≤ 64) :
    SameModels s ((List.range n).foldl (latchSignal f) s) ∧
      ((List.range n).foldl (latchSignal f) s).chz.quadStart = s.chz.quadStart ∧
      ∀ i < n, ∀ k, matchingSlot s i f = some k → (s.chz.quadStart.find (i / 16)).isSome = true → replaying s = false →
        ((List.range n).foldl (latchSignal f) s).chz.last.find i = some (f, modelEntry s i k) := by
  induction n with
  | zero => exact ⟨.refl s, rfl, nofun⟩
  | succ n ih =>
    obtain ⟨same, hquads, htaken⟩ := ih (by omega)
    rw [List.range_succ, List.foldl_append, List.foldl_cons, List.foldl_nil]
    generalize (List.range n).foldl (latchSignal f) s = t at same hquads htaken
    obtain ⟨hquads', hlast⟩ := latchSignal_chz f t n
    refine ⟨sameModels_latchSignal same (by omega) f, hquads'.trans hquads, fun i hi k hk hq hr => ?_⟩
    rcases Nat.lt_succ_iff_lt_or_eq.1 hi with before | rfl
    · rw [hlast i before.ne, htaken i before k hk hq hr]
    · rw [latchSignal_takes ((same.matchingSlot i f).trans hk) (by rw [hquads, hq]) (by rw [same.replaying, hr]),
        same.modelEntry]

/-! ## The latch point -/

/-- The state at the latch point of frame `f` before its models: mode, switch, RUN and quads have taken effect. -/
def quadsLatched (s : State) (f : Nat) : State :=
  (List.range 4).foldl (fun s q => quadLatch s f q) (runFollow (switchApply (modeApply s f) f) f)

/-- The settings of frame `f` are recorded, and the status shows. -/
def settingsLatched (s : State) (f : Nat) : State :=
  let s := setF s F.CHZ_STATUS_RUNNING (quadBits fun q => (s.chz.quadStart.find q).isSome)
  let s := setF s F.CHZ_STATUS_FILL (quadBits fun q => s.chz.quadStart.find q == some f)
  setChz s fun c => { c with
    confs := (c.confs.put f (confFor s f)).drop (· + 4 + s.ydx.pace < f)
    modes := (c.modes.put f (confFor s f).cal8).drop (· + 1024 + 4 * (spanLen s * integLen s) < f) }

theorem settingsLatched_chz (s : State) (f : Nat) : ((settingsLatched s f).chz.confs.find f).isSome = true ∧
    (settingsLatched s f).chz.quadStart = s.chz.quadStart ∧ (settingsLatched s f).chz.last = s.chz.last := by
  refine ⟨?_, rfl, rfl⟩
  unfold settingsLatched
  extract_lets t u
  have kept : decide (f + 4 + u.ydx.pace < f) = false := decide_eq_false (by omega)
  rw [setChz_self, SMap.find_drop, kept, if_neg (by decide), SMap.find_put_same, Option.isSome_some]

theorem ydxLatch_chz (s : State) (f : Nat) : (ydxLatch s f).chz = s.chz := by
  unfold ydxLatch
  split
  · rfl
  · rfl

/-- The latch point of the present frame, not jumped over and not latched before, does its steps in order. -/
theorem modelLatch_steps {s : State} {f : Nat} (hf : frameOf s = f) (hc : s.counter.toNat ≤ latchPoint f)
    (hj : jumpedOver s f = false) (hm : (s.chz.modes.any fun m => f ≤ m.1) = false) :
    modelLatch s f = ydxLatch (settingsLatched ((List.range 64).foldl (latchSignal f)
      (quadsLatched (reloadApply (advanceTo s (latchPoint f)) f) f)) f) f := by
  have hf64 : f < 2 ^ 43 := hf ▸ Nat.div_lt_of_lt_mul s.counter.isLt
  have reached : (advanceTo s (latchPoint f)).counter.toNat = latchPoint f :=
    advanceTo_reaches hc (by simp only [hf, latchPoint, frameStart]; omega) (by simp only [latchPoint, frameStart]; omega)
  obtain ⟨c, hadv⟩ := advanceTo_eq s (latchPoint f)
  have present : frameOf (advanceTo s (latchPoint f)) = f := by
    rw [frameOf, reached, latchPoint, frameStart]
    omega
  have passed : latchPassed (advanceTo s (latchPoint f)) f = true := decide_eq_true reached.ge
  have jumped : jumpedOver (advanceTo s (latchPoint f)) f = false := by rw [hadv]; exact hj
  have modes : ((advanceTo s (latchPoint f)).chz.modes.any (f ≤ ·.1)) = false := by rw [hadv]; exact hm
  unfold modelLatch
  generalize advanceTo s (latchPoint f) = t at present passed jumped modes ⊢
  extract_lets u
  rw [if_neg (by simp [u, present, passed, jumped, modes])]
  show ydxLatch (settingsLatched _ f) f = _
  rfl

theorem reloadApply_none {s : State} (h : s.chz.reload = none) (f : Nat) : reloadApply s f = s := by
  rw [reloadApply, h]

/-- MODEL_LATCH latches the settings of its frame, each running signal taking its matching entry (R107, R108). -/
theorem modelLatch_completes {s : State} {f : Nat} (hf : frameOf s = f) (hc : s.counter.toNat ≤ latchPoint f)
    (hj : jumpedOver s f = false) (hm : (s.chz.modes.any fun m => f ≤ m.1) = false) :
    ((modelLatch s f).chz.confs.find f).isSome = true ∧
      (s.chz.reload = none → replaying s = false → ∀ (i : Fin 64) (k : Nat), matchingSlot s i f = some k →
        ((modelLatch s f).chz.quadStart.find (i.val / 16)).isSome = true →
          (modelLatch s f).chz.last.find i = some (f, modelEntry s i k)) := by
  rw [modelLatch_steps hf hc hj hm, ydxLatch_chz]
  refine ⟨(settingsLatched_chz _ f).1, fun hreload hreplay i k hk => ?_⟩
  obtain ⟨c, hadv⟩ := advanceTo_eq s (latchPoint f)
  have latched : SameModels s (advanceTo s (latchPoint f)) := by rw [hadv]; exact ⟨rfl, rfl, rfl, rfl⟩
  have same : SameModels s (quadsLatched (advanceTo s (latchPoint f)) f) :=
    (((latched.modeApply f).switchApply f).runFollow f).foldl (fun _ q h => h.quadLatch f q) _
  rw [reloadApply_none (by rw [hadv]; exact hreload)]
  generalize quadsLatched (advanceTo s (latchPoint f)) f = u at same
  obtain ⟨-, hquads, htaken⟩ := latchSignals f u le_rfl
  obtain ⟨-, hquads', hlast⟩ := settingsLatched_chz ((List.range 64).foldl (latchSignal f) u) f
  rw [hquads', hlast, hquads]
  intro hq
  rw [htaken i i.isLt k ((same.matchingSlot i f).trans hk) hq (same.replaying.trans hreplay), same.modelEntry]

end Sys2Proof.Machine
end

section
/-! What follows the channelizer on the way of a spectrum: the digest, the span writer, the transmit queues and the beam engines
leave its registers, its register pairs and its validity bits alone (R127, R143, R225, R463). -/
namespace Sys2Proof.Machine

/-! ## What follows the channelizer -/

/-- Upstream of the exchange all stands in `t` as in `s`, the words in force of register pairs and the channelizer's validity
bits among it. -/
structure BeyondChz (s t : State) : Prop extends Upstream s t where
  pairLow : ∀ a < 0x800000, t.pairLow.find a = s.pairLow.find a
  shown : t.chz.valid = s.chz.valid

namespace BeyondChz

variable {s t u : State}

theorem refl (s : State) : BeyondChz s s := ⟨.refl s, fun _ _ => rfl, rfl⟩

theorem trans (h : BeyondChz s t) (h' : BeyondChz t u) : BeyondChz s u :=
  ⟨h.toUpstream.trans h'.toUpstream, fun a ha => (h'.pairLow a ha).trans (h.pairLow a ha), h'.shown.trans h.shown⟩

/-- What stands upstream, with no pair and no validity bit changed, stands here. -/
theorem step (h : BeyondChz s t) (hu : Upstream t u) (hp : u.pairLow = t.pairLow) (hv : u.chz.valid = t.chz.valid) :
    BeyondChz s u :=
  h.trans ⟨hu, fun a _ => by rw [hp], hv⟩

/-- A state that differs in what other units hold stands as well. -/
theorem same (h : BeyondChz s t) (hr : u.regs = t.regs) (hi : u.ingest = t.ingest) (hv : u.ingestValid = t.ingestValid)
    (ha : u.arch = t.arch) (hp : u.pairLow = t.pairLow) (hc : u.chz.valid = t.chz.valid) : BeyondChz s u :=
  h.step ((Upstream.refl t).same hr hi hv ha) hp hc

theorem ite {p : Prop} [Decidable p] (ht : BeyondChz s t) (hu : BeyondChz s u) : BeyondChz s (if p then t else u) := by
  split
  · exact ht
  · exact hu

theorem foldl {α : Type} {f : State → α → State} (hf : ∀ t x, BeyondChz s t → BeyondChz s (f t x)) (l : List α)
    (h : BeyondChz s t) : BeyondChz s (l.foldl f t) := by
  induction l generalizing t with
  | nil => exact h
  | cons x l ih => exact ih (hf t x h)

theorem getPair (h : BeyondChz s t) {a : Nat} (ha : a + 4 < 0x800000) : getPair t a = Machine.getPair s a := by
  have low : a < 0x800000 := Nat.lt_of_add_right_lt ha
  simp only [Machine.getPair, getR, SMap.get, h.word a low, h.word (a + 4) ha, h.pairLow a low]

/-! ## The named updates -/

theorem wr (h : BeyondChz s t) {a : Nat} (ha : 0x800000 ≤ a) (v : Word) : BeyondChz s (wr t a v) :=
  h.step ((Upstream.refl t).wr ha v) rfl rfl

theorem setF (h : BeyondChz s t) {f : Fld} (ha : 0x800000 ≤ f.addr) (v : Nat) : BeyondChz s (setF t f v) := h.wr ha _

theorem setPair (h : BeyondChz s t) {a : Nat} (ha : 0x800000 ≤ a) (v : Nat) : BeyondChz s (setPair t a v) := by
  refine h.trans ⟨(Upstream.refl t).setPair ha v, fun b hb => ?_, rfl⟩
  exact (SMap.find_drop t.pairLow (· == a) b).trans (if_neg (by simpa using (hb.trans_le ha).ne))

theorem bump (h : BeyondChz s t) {a : Nat} (ha : 0x800000 ≤ a) : BeyondChz s (bump t a) :=
  h.step ((Upstream.refl t).bump ha) rfl rfl

theorem setMem (h : BeyondChz s t) (f : MemCtl → MemCtl) : BeyondChz s (setMem t f) := h.same rfl rfl rfl rfl rfl rfl

theorem dramWrite (h : BeyondChz s t) (a : Nat) (bs : List Byte) : BeyondChz s (dramWrite t a bs) :=
  h.same rfl rfl rfl rfl rfl rfl

theorem raise (h : BeyondChz s t) (src : Nat) : BeyondChz s (raise t src) := ite (h.same rfl rfl rfl rfl rfl rfl) h

/-! ## Accesses to DRAM and faults (R302, R306 to R309, R467) -/

theorem fault (h : BeyondChz s t) (n : Nat) : BeyondChz s (fault t n) :=
  have noted := h.wr (a := R.HLT_FAULT) (by decide) _
  ite noted ((noted.setF (by decide) _).setPair (by decide) _)

theorem memLog (h : BeyondChz s t) (kind req symbol a synd : Nat) : BeyondChz s (memLog t kind req symbol a synd) :=
  ite ((h.bump (by decide)).setF (by decide) 1) ((h.dramWrite _ _).setF (by decide) _)

theorem ueReport (h : BeyondChz s t) (req line : Nat) (rmw : Bool) (ws : List Nat) :
    BeyondChz s (ueReport t req line rmw ws) :=
  (((((h.foldl (fun _ _ h => h.memLog ..) ws).setMem _).bump (by decide)).setF (by decide) 1).raise 12).fault 6

theorem leaveSelfRefresh (h : BeyondChz s t) (u : Nat) : BeyondChz s (leaveSelfRefresh t u) :=
  have state : 0x800000 ≤ R.MEM_STATE u := Nat.le_add_right_of_le (by decide)
  ite (((h.setF state 0).setF state 0).setF state 0) h

theorem served (h : BeyondChz s t) (req a n : Nat) : BeyondChz s (served t req a n) :=
  ite ((h.setMem _).foldl (fun _ u h => h.leaveSelfRefresh u) _) (h.setMem _)

theorem unitWrite (h : BeyondChz s t) (req a : Nat) (bs : List Byte) : BeyondChz s (unitWrite t req a bs) :=
  ite h (ite (((h.bump (by decide)).setF (by decide) 1).memLog ..)
    (((h.served ..).dramWrite _ _).foldl (fun _ _ h => h.ueReport ..) _))

/-! ## The packets (R127, R143, R164, R225, R463) -/

theorem spanWrite (h : BeyondChz s t) (f spec count src : Nat) (cal8 : Bool) (data : List Byte) :
    BeyondChz s (spanWrite t f spec count src cal8 data) := by
  unfold Machine.spanWrite
  split
  · exact h
  · exact h.foldl (fun _ _ h => h.unitWrite ..) _

theorem beamEnter (h : BeyondChz s t) (f spec count src map : Nat) (data : List Byte) :
    BeyondChz s (beamEnter t f spec count src map data) :=
  ite h (ite (h.bump (by decide)) (ite (h.bump (by decide)) (h.same rfl rfl rfl rfl rfl rfl)))

theorem digestCrc (h : BeyondChz s t) (span i : Nat) (bs : List Byte) : BeyondChz s (digestCrc t span i bs) :=
  ite h (h.same rfl rfl rfl rfl rfl rfl)

theorem packetsReady (h : BeyondChz s t) (f spec count : Nat) :
    BeyondChz s (packetsReady t f spec count Machine.beamEnter) := by
  unfold Machine.packetsReady
  split
  · exact h
  · extract_lets me map seq sent
    have hsent : BeyondChz s sent := h.foldl (fun v d hv => by
      refine ite ((hv.spanWrite ..).beamEnter ..) (ite hv ?_)
      split
      · exact hv.same rfl rfl rfl rfl rfl rfl
      · exact hv) _
    exact hsent.same rfl rfl rfl rfl rfl rfl

end BeyondChz
end Sys2Proof.Machine
end

section
/-! The spectra of a frame (R127, R128, R135). -/
namespace Sys2Proof.Machine

/-! ## Whether the crossroads takes a frame, and in which mode -/

/-- The registers that tell whether PD_23 is on and which mode a frame has. -/
def runRegs : List Nat := [R.CHZ_MODE, R.INT_CONFIG, R.PWR_STATE 2]

/-- What decides whether the crossroads processes a frame, and in which mode, stands in `t` as in `s`. -/
structure SameRun (s t : State) : Prop where
  word : ∀ a ∈ runRegs, rd t a = rd s a
  arch : t.arch = s.arch
  xr : t.xr = s.xr
  modes : t.chz.modes = s.chz.modes
  pendMode : t.chz.pendMode = s.chz.pendMode

namespace SameRun

variable {s t u : State}

theorem refl (s : State) : SameRun s s := ⟨fun _ _ => rfl, rfl, rfl, rfl, rfl⟩

theorem trans (h : SameRun s t) (h' : SameRun t u) : SameRun s u :=
  ⟨fun a ha => (h'.word a ha).trans (h.word a ha), h'.arch.trans h.arch, h'.xr.trans h.xr, h'.modes.trans h.modes,
    h'.pendMode.trans h.pendMode⟩

/-- A state that differs in what other units hold stands as well. -/
theorem same (h : SameRun s t) (hr : u.regs = t.regs) (ha : u.arch = t.arch) (hx : u.xr = t.xr)
    (hm : u.chz.modes = t.chz.modes) (hp : u.chz.pendMode = t.chz.pendMode) : SameRun s u :=
  h.trans ⟨fun a _ => rd_congr hr a, ha, hx, hm, hp⟩

theorem ite {p : Prop} [Decidable p] (ht : SameRun s t) (hu : SameRun s u) : SameRun s (if p then t else u) := by
  split
  · exact ht
  · exact hu

theorem foldl_fst {α β : Type} {f : State × β → α → State × β} {l : List α}
    (hf : ∀ p, ∀ x ∈ l, SameRun s p.1 → SameRun s (f p x).1) {p : State × β} (h : SameRun s p.1) :
    SameRun s (l.foldl f p).1 := by
  induction l generalizing p with
  | nil => exact h
  | cons x l ih => exact ih (fun p y hy => hf p y (List.mem_cons_of_mem x hy)) (hf p x List.mem_cons_self h)

theorem foldl {α : Type} {f : State → α → State} {l : List α} (hf : ∀ t, ∀ x ∈ l, SameRun s t → SameRun s (f t x))
    (h : SameRun s t) : SameRun s (l.foldl f t) := by
  induction l generalizing t with
  | nil => exact h
  | cons x l ih => exact ih (fun t y hy => hf t y (List.mem_cons_of_mem x hy)) (hf t x List.mem_cons_self h)

theorem wr (h : SameRun s t) {a : Nat} (ha : a ∉ runRegs) (v : Word) : SameRun s (wr t a v) :=
  h.trans ⟨fun _ hb => rd_wr_ne t v (ne_of_mem_of_not_mem hb ha), rfl, rfl, rfl, rfl⟩

theorem setF (h : SameRun s t) {f : Fld} (ha : f.addr ∉ runRegs) (v : Nat) : SameRun s (setF t f v) := h.wr ha _

theorem setPair (h : SameRun s t) {a : Nat} (hlo : a ∉ runRegs) (hhi : a + 4 ∉ runRegs) (v : Nat) :
    SameRun s (setPair t a v) :=
  ((h.wr hlo _).wr hhi _).same rfl rfl rfl rfl rfl

theorem setChz (h : SameRun s t) {f : Chz → Chz} (hm : ∀ c, (f c).modes = c.modes := by intro _; rfl)
    (hp : ∀ c, (f c).pendMode = c.pendMode := by intro _; rfl) : SameRun s (setChz t f) :=
  h.same rfl rfl rfl (hm _) (hp _)

theorem bump (h : SameRun s t) {a : Nat} (ha : a ∉ runRegs) : SameRun s (bump t a) := (h.wr ha _).same rfl rfl rfl rfl rfl

theorem advanceTo (h : SameRun s t) (x : Nat) : SameRun s (advanceTo t x) := ite (h.same rfl rfl rfl rfl rfl) h

theorem digestCrc (h : SameRun s t) (span i : Nat) (bs : List Byte) : SameRun s (digestCrc t span i bs) :=
  ite h (h.same rfl rfl rfl rfl rfl)

theorem getF (h : SameRun s t) {f : Fld} (hf : f.addr ∈ runRegs) : getF t f = Machine.getF s f := by
  rw [Machine.getF, h.word _ hf, Machine.getF]

theorem jumpedOver (h : SameRun s t) (f : Nat) : jumpedOver t f = Machine.jumpedOver s f := by
  rw [Machine.jumpedOver, h.arch, Machine.jumpedOver]

theorem xrRuns (h : SameRun s t) (f : Nat) : xrRuns t f = Machine.xrRuns s f := by
  have on : domOn t 23 = domOn s 23 := by
    have state : domState t 23 = domState s 23 := h.getF (by decide)
    rw [domOn, state, domOn]
  simp only [Machine.xrRuns, inRun, h.arch, h.xr, on, h.jumpedOver]

theorem cal8Of (h : SameRun s t) (f : Nat) : cal8Of t f = Machine.cal8Of s f := by
  have frames : spanLen t = spanLen s := h.getF (by decide)
  have spans : integLen t = integLen s := h.getF (by decide)
  have now : flag t F.CHZ_MODE_CAL8 = flag s F.CHZ_MODE_CAL8 := congrArg (· != 0) (h.getF (by decide))
  have due (g : Nat) : modeDue t g f = modeDue s g f := by simp only [modeDue, frames, spans, h.jumpedOver]
  simp only [Machine.cal8Of, h.modes, h.pendMode, now, due]

end SameRun

/-! ## The chains (R111 to R122) -/

theorem setPairB_sameRun {s t : State} (h : SameRun s t) {a i : Nat} (hi : i < 64) (ha : a ∉ runRegs)
    (ha4 : a + 4 ∉ runRegs) : SameRun s (setPairB t a i true) := by
  have word : a + 4 * (i / 32) ∉ runRegs := by
    obtain e | e : i / 32 = 0 ∨ i / 32 = 1 := by omega
    · rwa [e]
    · rwa [e]
  exact h.setF word _

theorem clampFlag_sameRun {s t : State} (h : SameRun s t) {i f k : Nat} (hi : i < 64) :
    SameRun s (clampFlag t i f k) :=
  .ite (setPairB_sameRun h.setChz hi (by decide) (by decide)) h

theorem signalSpectrum_sameRun {s t : State} (h : SameRun s t) (c : FrameConf) (late : Nat) {i : Nat} (hi : i < 64)
    (f k : Nat) : SameRun s (signalSpectrum t c late i f k).1 := by
  unfold signalSpectrum
  extract_lets zero q
  split
  · exact h
  · split
    · exact clampFlag_sameRun h hi
    · split
      next bs n _ =>
      extract_lets clamped overflown clipped
      have hclamped : SameRun s clamped := clampFlag_sameRun h.setChz hi
      have hoverflown : SameRun s overflown :=
        .ite (setPairB_sameRun hclamped hi (by decide) (by decide)) hclamped
      exact .ite (setPairB_sameRun hoverflown hi (by decide) (by decide)) hoverflown

/-! ## The end of a frame (R119, R122, R128, R129) -/

@[simp] theorem getPair_setChz (s : State) (f : Chz → Chz) (a : Nat) : getPair (setChz s f) a = getPair s a := rfl

theorem getPair_setF_ne (s : State) {a : Nat} {f : Fld} (v : Nat) (hlo : f.addr ≠ a) (hhi : f.addr ≠ a + 4) :
    getPair (setF s f v) a = getPair s a := by
  rw [getPair, getR, rd_setF_ne s f v hlo.symm, rd_setF_ne s f v hhi.symm, setF_pairLow, getPair, getR]

/-- The counts of signal `i` in frame `f` show. -/
def showCounts (f : Nat) (s : State) (i : Nat) : State :=
  let n := s.chz.counts.get {} (64 * f + i)
  setF (setF (setF s (F.CHZ_OVF_COUNT i) (min n.ovf 0xFFFF)) (F.CHZ_OVF_STAGES i) n.stages) (F.CHZ_CLIP_COUNT i) n.clip

theorem getPair_showCounts (f i : Nat) (s : State) :
    getPair (showCounts f s i) R.CHZ_VALID_FRAME_LO = getPair s R.CHZ_VALID_FRAME_LO := by
  have ovf (k : Nat) (hk : k ≤ 4) : R.CHZ_OVF i ≠ R.CHZ_VALID_FRAME_LO + k := by
    simp only [R.CHZ_OVF, R.CHZ_VALID_FRAME_LO]
    omega
  have clip (k : Nat) (hk : k ≤ 4) : R.CHZ_CLIP i ≠ R.CHZ_VALID_FRAME_LO + k := by
    simp only [R.CHZ_CLIP, R.CHZ_VALID_FRAME_LO]
    omega
  rw [showCounts, getPair_setF_ne _ _ (clip 0 (by decide)) (clip 4 le_rfl),
    getPair_setF_ne _ _ (ovf 0 (by decide)) (ovf 4 le_rfl), getPair_setF_ne _ _ (ovf 0 (by decide)) (ovf 4 le_rfl)]

theorem showCounts_sameRun {s t : State} (h : SameRun s t) {i : Nat} (hi : i < 64) (f : Nat) :
    SameRun s (showCounts f t i) := by
  have ovf : R.CHZ_OVF i ∉ runRegs := by
    simp only [runRegs, R.CHZ_OVF, R.CHZ_MODE, R.INT_CONFIG, R.PWR_STATE, List.mem_cons, List.not_mem_nil, or_false]
    omega
  have clip : R.CHZ_CLIP i ∉ runRegs := by
    simp only [runRegs, R.CHZ_CLIP, R.CHZ_MODE, R.INT_CONFIG, R.PWR_STATE, List.mem_cons, List.not_mem_nil, or_false]
    omega
  exact ((h.setF ovf _).setF ovf _).setF clip _

/-- The validity of frame `f` is kept and shows. -/
def showValid (s : State) (c : FrameConf) (f : Nat) : State :=
  let v := packBits ((List.range 64).map fun i => chzValidBit s c i f)
  let s := setChz s fun z => { z with valid := (z.valid.put f v).drop (· + 1024 < f) }
  setPair (setPair s R.CHZ_VALID_LO v) R.CHZ_VALID_FRAME_LO f

theorem frameDone_eq (s : State) (c : FrameConf) (f : Nat) : frameDone s c f =
    setChz (setPair ((List.range 64).foldl (showCounts f) (showValid s c f)) R.CHZ_STAT_FRAME_LO f) fun z => { z with
      counts := z.counts.drop (· / 64 ≤ f), late := z.late.filter (f ≤ ·.2), overruns := z.overruns.filter (f < ·.1) } := rfl

theorem getPair_showAllCounts (f : Nat) (l : List Nat) (s : State) :
    getPair (l.foldl (showCounts f) s) R.CHZ_VALID_FRAME_LO = getPair s R.CHZ_VALID_FRAME_LO :=
  foldl_field (getPair · R.CHZ_VALID_FRAME_LO) (fun s i => getPair_showCounts f i s) l s

theorem showAllCounts_chz (f : Nat) (l : List Nat) (s : State) : (l.foldl (showCounts f) s).chz = s.chz :=
  foldl_field State.chz (fun s i => (rfl : (showCounts f s i).chz = s.chz)) l s

theorem showValid_kept (s : State) (c : FrameConf) (f : Nat) : ((showValid s c f).chz.valid.find f).isSome = true := by
  have recent : decide (f + 1024 < f) = false := decide_eq_false (by omega)
  rw [showValid, setPair_chz, setPair_chz, setChz_self, SMap.find_drop, recent, if_neg (by decide), SMap.find_put_same,
    Option.isSome_some]

/-- The end of a frame shows its number and keeps its validity bits. -/
theorem frameDone_shows (s : State) (c : FrameConf) {f : Nat} (hf : f < 2 ^ 64) :
    getPair (frameDone s c f) R.CHZ_VALID_FRAME_LO = f ∧ ((frameDone s c f).chz.valid.find f).isSome = true := by
  rw [frameDone_eq, getPair_setChz, getPair_setPair_ne _ f (by decide) (by decide) (by decide), getPair_showAllCounts,
    setChz_self, setPair_chz, showAllCounts_chz]
  exact ⟨getPair_setPair_same _ _ hf, showValid_kept s c f⟩

theorem frameDone_sameRun {s t : State} (h : SameRun s t) (c : FrameConf) (f : Nat) : SameRun s (frameDone t c f) := by
  have valid : SameRun s (showValid t c f) :=
    (h.setChz.setPair (by decide) (by decide) _).setPair (by decide) (by decide) f
  have counted : SameRun s ((List.range 64).foldl (showCounts f) (showValid t c f)) :=
    valid.foldl (f := showCounts f) fun _ i hi h => showCounts_sameRun h (List.mem_range.1 hi) f
  rw [frameDone_eq]
  exact (counted.setPair (by decide) (by decide) f).setChz

/-! ## A spectrum leaves (R127, R132, R136) -/

/-- Quad `q` has overrun in frame `f`: it was cut short, missed its point or is off (R132, R136). -/
def overrunQuad (c : FrameConf) (late f : Nat) (s : State) (q : Nat) : State :=
  if bitOf c.running q ∧ (bitOf c.cut q ∨ bitOf late q ∨ ¬ domOn s (5 + q)) then
    setChz (bump (setB s R.CHZ_STATUS (12 + q) true) R.CHZ_OVERRUN_COUNT) fun z => { z with overruns := (f, q) :: z.overruns }
  else s

theorem overrunQuad_sameRun {s t : State} (h : SameRun s t) (c : FrameConf) (late f q : Nat) :
    SameRun s (overrunQuad c late f t q) :=
  .ite (((h.wr (a := R.CHZ_STATUS) (by decide) _).bump (by decide)).setChz) h

/-- Signal `i` adds its bytes to spectrum `k` of frame `f`. -/
def chainOut (c : FrameConf) (late f k : Nat) (p : State × List Byte) (i : Nat) : State × List Byte :=
  ((signalSpectrum p.1 c late i f k).1, p.2 ++ (signalSpectrum p.1 c late i f k).2)

/-- The 64 chains put out spectrum `k` of frame `f`, after the overruns of the quads. -/
def chainsOut (s : State) (c : FrameConf) (late f k : Nat) : State × List Byte :=
  (List.range 64).foldl (chainOut c late f k) ((List.range 4).foldl (overrunQuad c late f) s, [])

theorem chainsOut_sameRun (s : State) (c : FrameConf) (late f k : Nat) : SameRun s (chainsOut s c late f k).1 := by
  have quads : SameRun s ((List.range 4).foldl (overrunQuad c late f) s) :=
    (SameRun.refl s).foldl (f := overrunQuad c late f) fun _ q _ h => overrunQuad_sameRun h c late f q
  exact quads.foldl_fst (f := chainOut c late f k) (p := (_, [])) fun _ i hi h =>
    signalSpectrum_sameRun h c late (List.mem_range.1 hi) f k

/-- The bytes of a spectrum are delivered. -/
def delivered (s : State) (key : Nat) (out : List Byte) : State :=
  setChz s fun z => { z with output := z.output.put key out }

/-- A spectrum of a latched frame delivers its bytes, and the last one ends its frame. -/
theorem chzSpectrum_delivers {s : State} {f : Nat} {c : FrameConf} (hc : s.chz.confs.find f = some c) (k late : Nat) :
    ∃ t out, SameRun s t ∧ chzSpectrum s f k late =
      if k = 255 then frameDone (delivered t (256 * f + k) out) c f else delivered t (256 * f + k) out := by
  refine ⟨(chainsOut s c late f k).1, (chainsOut s c late f k).2, chainsOut_sameRun s c late f k, ?_⟩
  unfold chzSpectrum
  rw [hc]
  dsimp only
  rfl

/-- The bytes of a spectrum that left are there until its packet takes them. -/
theorem chzSpectrum_output {s : State} {f : Nat} {c : FrameConf} (hc : s.chz.confs.find f = some c) {k : Nat} (hk : k ≠ 255)
    (late : Nat) : ((chzSpectrum s f k late).chz.output.find (256 * f + k)).isSome = true := by
  obtain ⟨t, out, -, e⟩ := chzSpectrum_delivers hc k late
  rw [e, if_neg hk, delivered, setChz_self, SMap.find_put_same, Option.isSome_some]

theorem chzSpectrum_sameRun {s : State} {f : Nat} {c : FrameConf} (hc : s.chz.confs.find f = some c) (k late : Nat) :
    SameRun s (chzSpectrum s f k late) := by
  obtain ⟨t, out, run, e⟩ := chzSpectrum_delivers hc k late
  rw [e]
  exact .ite (frameDone_sameRun run.setChz c f) run.setChz

/-- The last spectrum of a frame shows its number and keeps its validity bits. -/
theorem chzSpectrum_last {s : State} {f : Nat} {c : FrameConf} (hc : s.chz.confs.find f = some c) (hf : f < 2 ^ 64)
    (late : Nat) : getPair (chzSpectrum s f 255 late) R.CHZ_VALID_FRAME_LO = f ∧
      ((chzSpectrum s f 255 late).chz.valid.find f).isSome = true := by
  obtain ⟨t, out, -, e⟩ := chzSpectrum_delivers hc 255 late
  rw [e, if_pos rfl]
  exact frameDone_shows _ c hf

theorem digestCrc_chz (s : State) (span i : Nat) (bs : List Byte) : (digestCrc s span i bs).chz = s.chz := by
  unfold digestCrc digestAdd
  split
  · rfl
  · rfl

/-- What becomes of a spectrum that has left: dropped where the crossroads does not run, in packets once it completes one. -/
def spectrumTaken (s : State) (f k : Nat) : State :=
  if ¬ xrRuns s f then setChz s fun z => { z with output := z.output.drop (· ≤ 256 * f + k) }
  else if cal8Of s f then packetsReady s f k 1 beamEnter
  else if k % 2 = 1 then packetsReady s f (k - 1) 2 beamEnter
  else s

theorem spectrumTaken_beyond (s : State) (f k : Nat) : BeyondChz s (spectrumTaken s f k) :=
  have here := BeyondChz.refl s
  .ite (here.same rfl rfl rfl rfl rfl rfl) (.ite (here.packetsReady ..) (.ite (here.packetsReady ..) here))

/-- A spectrum of a latched frame that has not left yet is delivered, digested and taken. -/
theorem spectrumDone_steps {s : State} {f k : Nat} (hat : spectrumOutAt f k ≤ (advanceTo s (spectrumOutAt f k)).counter.toNat)
    (hc : (s.chz.confs.find f).isSome = true) (ho : s.chz.output.find (256 * f + k) = none) (late : Nat) :
    ∃ span bs, spectrumDone s f k late =
      spectrumTaken (digestCrc (chzSpectrum (advanceTo s (spectrumOutAt f k)) f k late) span 0 bs) f k := by
  obtain ⟨counter, hadv⟩ := advanceTo_eq s (spectrumOutAt f k)
  have conf : (advanceTo s (spectrumOutAt f k)).chz.confs.find f = s.chz.confs.find f := by rw [hadv]
  have fresh : (advanceTo s (spectrumOutAt f k)).chz.output.find (256 * f + k) = none := by rw [hadv]; exact ho
  unfold spectrumDone
  generalize advanceTo s (spectrumOutAt f k) = t at hat conf fresh ⊢
  have due : ¬ (t.counter.toNat < spectrumOutAt f k ∨ (t.chz.confs.find f).isNone = true ∨
      (t.chz.output.find (256 * f + k)).isSome = true) := by
    rw [conf, fresh, ← Option.not_isSome, hc]
    simp [hat]
  extract_lets u v w cal8
  rw [if_neg due]
  exact ⟨_, _, rfl⟩

/-- SPECTRUM_COMPLETE delivers a spectrum, kept until its packet is complete and dropped where the crossroads does not run;
the last one of a frame shows the frame's validity (R127, R128, R143). -/
theorem spectrumDone_completes {s : State} {f k : Nat}
    (hat : spectrumOutAt f k ≤ (advanceTo s (spectrumOutAt f k)).counter.toNat)
    (hc : (s.chz.confs.find f).isSome = true) (ho : s.chz.output.find (256 * f + k) = none) (late : Nat) :
    (k = 255 → getPair (spectrumDone s f k late) R.CHZ_VALID_FRAME_LO = f ∧
        ((spectrumDone s f k late).chz.valid.find f).isSome = true) ∧
      (k % 2 = 0 → cal8Of s f = false → xrRuns s f = true →
        ((spectrumDone s f k late).chz.output.find (256 * f + k)).isSome = true) ∧
      (xrRuns s f = false → (spectrumDone s f k late).chz.output.find (256 * f + k) = none) := by
  obtain ⟨span, bs, e⟩ := spectrumDone_steps hat hc ho late
  obtain ⟨c, hconf⟩ := Option.isSome_iff_exists.1 hc
  obtain ⟨counter, hadv⟩ := advanceTo_eq s (spectrumOutAt f k)
  have conf : (advanceTo s (spectrumOutAt f k)).chz.confs.find f = some c := by rw [hadv]; exact hconf
  have hf : f < 2 ^ 64 := by
    have := hat.trans_lt (advanceTo s (spectrumOutAt f k)).counter.isLt
    simp only [spectrumOutAt, frameStart] at this
    omega
  have run := ((SameRun.refl s).advanceTo (spectrumOutAt f k)).trans (chzSpectrum_sameRun conf k late)
  rw [e]
  generalize advanceTo s (spectrumOutAt f k) = t at conf run
  have beyond := ((BeyondChz.refl (chzSpectrum t f k late)).digestCrc span 0 bs).trans (spectrumTaken_beyond _ f k)
  have digested := run.digestCrc span 0 bs
  refine ⟨?_, fun hk hmode hruns => ?_, fun hruns => ?_⟩
  · rintro rfl
    obtain ⟨hframe, hvalid⟩ := chzSpectrum_last conf hf late
    rw [beyond.getPair (by decide), beyond.shown]
    exact ⟨hframe, hvalid⟩
  · rw [spectrumTaken, if_neg (by simp [digested.xrRuns, hruns]), if_neg (by simp [digested.cal8Of, hmode]),
      if_neg (by omega), digestCrc_chz]
    exact chzSpectrum_output conf (by omega) late
  · rw [spectrumTaken, if_pos (by simp [digested.xrRuns, hruns]), setChz_self, SMap.find_drop, if_pos (by simp)]

end Sys2Proof.Machine

namespace Sys2Proof
open Machine

/-- Settles O8. The mirrored writes are what `mirroredWrite` lets through, the latch point does its steps in order, and what
takes a spectrum from the chains leaves the channelizer's registers and validity bits alone (`BeyondChz`). -/
theorem channelizerCommandsComplete : Obligations.ChannelizerCommandsComplete := by
  unfold Obligations.ChannelizerCommandsComplete
  refine ⟨fun s m i slot w v hs hon htwin => ?_, fun s m high hs htwin hdef => ?_, fun s m high f hs htwin hf => ?_,
    fun s m b e v hs htwin hon => ?_, fun s quads hup => ?_, fun s f hup hf hc hj hm => ?_,
    fun s f k missed hup hat hc ho => ?_⟩
  · exact modelTableWrite_completes hs hon htwin slot w v
  · exact chzSwitchArm_completes hs htwin hdef
  · exact chzModeArm_completes hs htwin hf
  · exact gainBankWrite_completes b e hs htwin hon v
  · refine completes_run (f := (setF · F.CHZ_CTRL_RUN quads.toNat)) rfl hup ⟨?_, setF_completes s F.CHZ_CTRL_RUN quads.toNat⟩
    exact (getF_setF_same s _ (by decide) (by decide) _).trans (Nat.mod_eq_of_lt quads.isLt)
  · exact completes_run (f := (modelLatch · f)) rfl hup (modelLatch_completes hf hc hj hm)
  · exact completes_run (f := (spectrumDone · f k missed.toNat)) rfl hup (spectrumDone_completes hat hc ho missed.toNat)

end Sys2Proof
end

section
/-! What the accesses to DRAM, the reports, the beam engines and the fold unit leave alone of the exchange and the correlator:
the registers of a set `K`, which each lemma bounds, what decides on slots, packets and modes, the run state, the local
counter, and which span the correlator has in work (R145 to R185). -/
namespace Sys2Proof.Machine

/-- What the crossroads holds beside the validity record and the latest loss. -/
def Xr.core (x : Xr) : Xr := { x with valid := [], lastLoss := none }

/-- Where the correlator stands: the span in work, the one that waits, the one started last and the one whose window closed
last, and what the drain in work waits for. -/
def Cor.place (c : Cor) : Option Nat × Option Nat × Option Nat × Option Nat × Bool × Bool :=
  (c.span, c.waiting, c.last, c.lastClosed, c.closed, c.abortDue)

/-- In `t` the registers of `K` with the words in force of their pairs, the crossroads' core, the channelizer, the run state,
the counter and the correlator's place stand as in `s`. -/
structure Stands (K : Set Nat) (s t : State) : Prop where
  word : ∀ a ∈ K, rd t a = rd s a
  pair : ∀ a ∈ K, t.pairLow.find a = s.pairLow.find a
  core : t.xr.core = s.xr.core
  chz : t.chz = s.chz
  arch : t.arch = s.arch
  counter : t.counter = s.counter
  place : t.cor.place = s.cor.place

/-- An address from the bound of a set on does not lie in it. -/
theorem notMem_of_bound {K : Set Nat} {l a : Nat} (hK : K ⊆ Set.Iio l) (ha : l ≤ a) : a ∉ K :=
  fun h => absurd (hK h) (Nat.not_lt.2 ha)

/-- So with an address that is the entry of an array of registers. -/
theorem notMem_of_bound_add {K : Set Nat} {l a i : Nat} (hK : K ⊆ Set.Iio l) (ha : l ≤ a) : a + i ∉ K :=
  notMem_of_bound hK (Nat.le_add_right_of_le ha)

theorem bound_mono {K : Set Nat} {l l' : Nat} (hK : K ⊆ Set.Iio l) (h : l ≤ l') : K ⊆ Set.Iio l' :=
  hK.trans (Set.Iio_subset_Iio h)

namespace Stands

variable {K : Set Nat} {s t u : State}

theorem refl (s : State) : Stands K s s := ⟨fun _ _ => rfl, fun _ _ => rfl, rfl, rfl, rfl, rfl, rfl⟩

theorem trans (h : Stands K s t) (h' : Stands K t u) : Stands K s u where
  word a ha := (h'.word a ha).trans (h.word a ha)
  pair a ha := (h'.pair a ha).trans (h.pair a ha)
  core := h'.core.trans h.core
  chz := h'.chz.trans h.chz
  arch := h'.arch.trans h.arch
  counter := h'.counter.trans h.counter
  place := h'.place.trans h.place

theorem mono {K' : Set Nat} (h : Stands K s t) (hK : K' ⊆ K) : Stands K' s t :=
  ⟨fun a ha => h.word a (hK ha), fun a ha => h.pair a (hK ha), h.core, h.chz, h.arch, h.counter, h.place⟩

theorem getF (h : Stands K s t) {f : Fld} (hf : f.addr ∈ K) : getF t f = Machine.getF s f := by
  rw [Machine.getF, h.word _ hf, Machine.getF]

theorem flag (h : Stands K s t) {f : Fld} (hf : f.addr ∈ K) : flag t f = Machine.flag s f := by
  rw [Machine.flag, h.getF hf, Machine.flag]

theorem getPair (h : Stands K s t) {a : Nat} (hlo : a ∈ K) (hhi : a + 4 ∈ K) : getPair t a = Machine.getPair s a := by
  simp only [Machine.getPair, getR, SMap.get, h.word a hlo, h.word (a + 4) hhi, h.pair a hlo]

/-! ## Ways to compose -/

/-- A state that differs from one that stands in hidden fields of other units only stands as well. -/
theorem same (h : Stands K s t) (hr : u.regs = t.regs) (hp : u.pairLow = t.pairLow) (hx : u.xr.core = t.xr.core)
    (hz : u.chz = t.chz) (ha : u.arch = t.arch) (hc : u.counter = t.counter) (hl : u.cor.place = t.cor.place) :
    Stands K s u :=
  h.trans ⟨fun a _ => rd_congr hr a, fun a _ => by rw [hp], hx, hz, ha, hc, hl⟩

theorem ite {p : Prop} [Decidable p] (ht : Stands K s t) (hu : Stands K s u) : Stands K s (if p then t else u) := by
  split
  · exact ht
  · exact hu

theorem foldl {α : Type} {f : State → α → State} {l : List α} (hf : ∀ t, ∀ x ∈ l, Stands K s t → Stands K s (f t x))
    (h : Stands K s t) : Stands K s (l.foldl f t) := by
  induction l generalizing t with
  | nil => exact h
  | cons x l ih => exact ih (fun t y hy => hf t y (List.mem_cons_of_mem x hy)) (hf t x List.mem_cons_self h)

theorem foldl_fst {α β : Type} {f : State × β → α → State × β}
    (hf : ∀ p x, Stands K s p.1 → Stands K s (f p x).1) (l : List α) {p : State × β} (h : Stands K s p.1) :
    Stands K s (l.foldl f p).1 := by
  induction l generalizing p with
  | nil => exact h
  | cons x l ih => exact ih (hf p x h)

theorem of_fst {β : Type} {p : State × β} {x : β} (e : p = (u, x)) (h : Stands K s p.1) : Stands K s u := by
  rwa [e] at h

/-! ## The named updates -/

theorem wr (h : Stands K s t) {a : Nat} (ha : a ∉ K) (v : Word) : Stands K s (wr t a v) :=
  h.trans ⟨fun _ hb => rd_wr_ne t v (ne_of_mem_of_not_mem hb ha), fun _ _ => rfl, rfl, rfl, rfl, rfl, rfl⟩

theorem setR (h : Stands K s t) {a : Nat} (ha : a ∉ K) (v : Nat) : Stands K s (setR t a v) := h.wr ha _

theorem setF (h : Stands K s t) {f : Fld} (hf : f.addr ∉ K) (v : Nat) : Stands K s (setF t f v) := h.wr hf _

theorem setB (h : Stands K s t) {a : Nat} (ha : a ∉ K) (i : Nat) (b : Bool) : Stands K s (setB t a i b) := h.wr ha _

theorem setPair (h : Stands K s t) {a : Nat} (hlo : a ∉ K) (hhi : a + 4 ∉ K) (v : Nat) : Stands K s (setPair t a v) := by
  have written := (h.setR hlo (v % 2 ^ 32)).setR hhi (v / 2 ^ 32)
  refine written.trans ⟨fun _ _ => rfl, fun b hb => ?_, rfl, rfl, rfl, rfl, rfl⟩
  exact (SMap.find_drop t.pairLow (· == a) b).trans (if_neg (by simpa using ne_of_mem_of_not_mem hb hlo))

theorem bumpBy (h : Stands K s t) {a : Nat} (ha : a ∉ K) (n : Nat) : Stands K s (bumpBy t a n) :=
  (h.setR ha _).same rfl rfl rfl rfl rfl rfl rfl

theorem bump (h : Stands K s t) {a : Nat} (ha : a ∉ K) : Stands K s (bump t a) := h.bumpBy ha 1

theorem raise (h : Stands K s t) (src : Nat) : Stands K s (raise t src) := ite (h.same rfl rfl rfl rfl rfl rfl rfl) h

theorem setMem (h : Stands K s t) (f : MemCtl → MemCtl) : Stands K s (setMem t f) := h.same rfl rfl rfl rfl rfl rfl rfl

theorem setBfm (h : Stands K s t) (f : Bfm → Bfm) : Stands K s (setBfm t f) := h.same rfl rfl rfl rfl rfl rfl rfl

theorem setInteg (h : Stands K s t) (f : Integ → Integ) : Stands K s (setInteg t f) := h.same rfl rfl rfl rfl rfl rfl rfl

theorem setXr (h : Stands K s t) {f : Xr → Xr} (hf : ∀ x, (f x).core = x.core := by intro _; rfl) :
    Stands K s (setXr t f) := h.same rfl rfl (hf _) rfl rfl rfl rfl

theorem setCor (h : Stands K s t) {f : Cor → Cor} (hf : ∀ c, (f c).place = c.place := by intro _; rfl) :
    Stands K s (setCor t f) := h.same rfl rfl rfl rfl rfl rfl (hf _)

theorem dramWrite (h : Stands K s t) (a : Nat) (bs : List Byte) : Stands K s (dramWrite t a bs) :=
  h.same rfl rfl rfl rfl rfl rfl rfl

theorem digestAdd (h : Stands K s t) (span i : Nat) (f : Nat → Nat) : Stands K s (digestAdd t span i f) :=
  ite h (h.same rfl rfl rfl rfl rfl rfl rfl)

/-! ## Faults (R467) and the vectors of the cores (R289) -/

section fault
variable (hK : K ⊆ Set.Iio 0x1800000)
include hK

theorem setFaults (h : Stands K s t) (w : Word) : Stands K s (setFaults t w) := by
  have noted := h.wr (notMem_of_bound hK (a := R.HLT_FAULT) (by decide)) (rd t R.HLT_FAULT ||| w)
  exact ite noted ((noted.setF (notMem_of_bound hK (by decide)) _).setPair (notMem_of_bound hK (by decide))
    (notMem_of_bound hK (by decide)) _)

theorem fault (h : Stands K s t) (n : Nat) : Stands K s (fault t n) := h.setFaults hK _

theorem refreshLevels (h : Stands K s t) : Stands K s (refreshLevels t) := h.setFaults hK _

end fault

theorem brlPendAll (hK : K ⊆ Set.Iio 0xD00000) (h : Stands K s t) (v : Nat) : Stands K s (brlPendAll t v) := by
  have wake {u : State} (hu : Stands K s u) (k : Nat) : Stands K s (brlWake u k) :=
    ite ((hu.setF (f := F.BRL_STATUS_STATE k) (notMem_of_bound_add hK (by decide)) 1).same rfl rfl rfl rfl rfl rfl rfl) hu
  exact h.foldl fun _ k _ h => ite (ite (h.bump (notMem_of_bound_add hK (by decide)))
    (wake (h.setB (notMem_of_bound_add hK (by decide)) v true) k)) h

/-! ## Accesses to DRAM (R302, R306 to R309) -/

section memory
variable (hK : K ⊆ Set.Iio 0x1100000)
include hK

theorem memLog (h : Stands K s t) (kind req symbol a synd : Nat) : Stands K s (memLog t kind req symbol a synd) :=
  ite ((h.bump (notMem_of_bound hK (by decide))).setF (notMem_of_bound hK (by decide)) 1)
    ((h.dramWrite _ _).setF (notMem_of_bound hK (by decide)) _)

theorem guardReport (h : Stands K s t) (req a : Nat) : Stands K s (guardReport t req a) :=
  ((h.bump (notMem_of_bound hK (by decide))).setF (notMem_of_bound hK (by decide)) 1).memLog hK ..

theorem ueReport (h : Stands K s t) (req line : Nat) (rmw : Bool) (ws : List Nat) :
    Stands K s (ueReport t req line rmw ws) :=
  (((((h.foldl (l := ws) fun _ _ _ h => h.memLog hK ..).setMem _).bump (notMem_of_bound hK (by decide))).setF
    (notMem_of_bound hK (by decide)) 1).raise 12).fault (bound_mono hK (by decide)) 6

theorem lineReport (h : Stands K s t) (req line : Nat) : Stands K s (lineReport t req line) := h.ueReport hK ..

theorem served (h : Stands K s t) (req a n : Nat) : Stands K s (served t req a n) := by
  have woken {v : State} (hv : Stands K s v) (i : Nat) : Stands K s (leaveSelfRefresh v i) :=
    have state : R.MEM_STATE i ∉ K := notMem_of_bound_add hK (by decide)
    ite (((hv.setF state 0).setF state 0).setF state 0) hv
  exact ite ((h.setMem _).foldl fun _ i _ hv => woken hv i) (h.setMem _)

theorem unitWrite (h : Stands K s t) (req a : Nat) (bs : List Byte) : Stands K s (unitWrite t req a bs) :=
  ite h (ite (h.guardReport hK ..) (((h.served hK ..).dramWrite _ _).foldl fun _ _ _ h => h.ueReport hK ..))

theorem unitFetch (h : Stands K s t) (req a n : Nat) : Stands K s (unitFetch t req a n).1 := by
  unfold Machine.unitFetch
  split
  · exact h.served hK ..
  · exact ite h (ite (h.guardReport hK ..) ((h.served hK ..).foldl fun _ _ _ h => h.lineReport hK ..))

/-- The span writer (R164, R167). -/
theorem spanWrite (h : Stands K s t) (f spec count src : Nat) (cal8 : Bool) (data : List Byte) :
    Stands K s (spanWrite t f spec count src cal8 data) := by
  unfold Machine.spanWrite
  split
  · exact h
  · exact h.foldl fun _ _ _ h => h.unitWrite hK ..

end memory

/-! ## The beam engines (R225, R239) -/

section beams
variable (hK : K ⊆ Set.Iio 0xB00004)
include hK

theorem beamEnter (h : Stands K s t) (f spec count src map : Nat) (data : List Byte) :
    Stands K s (beamEnter t f spec count src map data) :=
  ite h (ite (h.bump (notMem_of_bound hK (by decide))) (ite (h.bump (notMem_of_bound hK (by decide))) (h.setBfm _)))

theorem stageBeam (h : Stands K s t) (f r : Nat) (bs : List Byte) : Stands K s (stageBeam t f r bs) := by
  have dropped := ((h.bump (a := R.BFM_STAGE_DROP_COUNT) (notMem_of_bound hK (by decide))).setF
    (f := F.BFM_STATUS_STAGE_DROP) (notMem_of_bound hK (by decide)) 1).fault (bound_mono hK (by decide)) 14
  refine ite h (ite dropped ?_)
  exact (((h.unitWrite (bound_mono hK (by decide)) ..).setR (a := R.BFM_RING_HEAD r) (notMem_of_bound_add hK (by decide)) _).raise
    5).brlPendAll (bound_mono hK (by decide)) 5

theorem beamComplete (h : Stands K s t) (f : Nat) : Stands K s (beamComplete t f) := by
  unfold Machine.beamComplete
  refine ite h ?_
  extract_lets counted step stepped flagged recorded
  have h1 : Stands K s stepped := (h.bumpBy (notMem_of_bound hK (by decide)) _).setBfm _
  have h2 : Stands K s flagged := ite (h1.setBfm _) h1
  have h3 : Stands K s recorded := h2.stageBeam hK ..
  dsimp only
  have h4 (p : Prop) [Decidable p] (bs : List Byte) :
      Stands K s (if p then Machine.stageBeam recorded f 1 bs else recorded) := ite (h3.stageBeam hK ..) h3
  exact (ite ((h4 _ _).stageBeam hK ..) (h4 _ _)).setBfm _

end beams

/-! ## The fold unit (R197 to R217) -/

section fold
variable (hK : K ⊆ Set.Iio 0xA00004)
include hK

theorem foldLine (h : Stands K s t) (a : Nat) (ts : List (Int × Int)) (dirty : Bool) :
    Stands K s (foldLine t a ts dirty).1 := by
  unfold Machine.foldLine
  split
  · exact h.unitWrite (bound_mono hK (by decide)) ..
  · exact (h.unitFetch (bound_mono hK (by decide)) ..).unitWrite (bound_mono hK (by decide)) ..

theorem foldBlock (h : Stands K s t) (z c b : Nat) (acc : SMap UnitAcc) (cal8 dirty : Bool) :
    Stands K s (foldBlock t z c b acc cal8 dirty).1 := by
  refine foldl_fst (fun p l h => ?_) (List.range 2048) h
  extract_lets a
  split
  · next ts _ =>
    have folded := h.foldLine hK a ts dirty
    generalize Machine.foldLine p.1 a ts dirty = line at folded ⊢
    obtain ⟨u, sat, ue⟩ := line
    have counted : Stands K s (if sat = 0 then u else
        Machine.setF (Machine.bumpBy u R.INT_FOLD_SAT_COUNT sat) F.INT_STATUS_FOLD_SAT 1) :=
      ite folded ((folded.bumpBy (notMem_of_bound hK (by decide)) sat).setF (notMem_of_bound hK (by decide)) 1)
    exact ite ((counted.bump (notMem_of_bound hK (by decide))).setF (notMem_of_bound hK (by decide)) 1) counted
  · split
    · exact h.unitWrite (bound_mono hK (by decide)) ..
    · exact h

theorem foldChannel (h : Stands K s t) (span c : Nat) (r : ChannelRecord) : Stands K s (foldChannel t span c r) := by
  unfold Machine.foldChannel
  refine ite h ?_
  extract_lets
  split
  next u flags hf =>
    have folded : Stands K s u := of_fst hf (foldl_fst (fun p b h => by
      dsimp only
      exact h.foldBlock hK ..) _ h)
    exact (folded.setF (notMem_of_bound_add hK (Nat.le_add_right_of_le (by decide))) 2).setInteg _

theorem beginFolding (h : Stands K s t) (span : Nat) : Stands K s (beginFolding t span) :=
  ite (((h.setInteg _).setPair (notMem_of_bound hK (by decide)) (notMem_of_bound hK (by decide)) _).setF
    (notMem_of_bound hK (by decide)) _) h

theorem foldingEnd (h : Stands K s t) (span : Nat) : Stands K s (foldingEnd t span) :=
  ite (ite ((h.setInteg _).beginFolding hK _) (h.setInteg _)) h

theorem skipFrom (hc : R.COR_UNIT_LOST_COUNT ∉ K) (h : Stands K s t) (span c status : Nat) :
    Stands K s (skipFrom t span c status) :=
  h.foldl fun _ _ _ h => (h.bumpBy hc _).foldChannel hK ..

end fold

end Stands
end Sys2Proof.Machine
end

section
/-! The transmit queues and the acceptance of packets (R145, R148 to R151, R156). -/
namespace Sys2Proof.Machine

/-- A count on a register that another state holds alike. -/
theorem toNat_rd_bump_of_word {s t : State} {a : Nat} (h : rd t a = rd s a) :
    (rd (bump t a) a).toNat = min ((rd s a).toNat + 1) 0xFFFFFFFF :=
  (toNat_rd_bumpBy t a 1).trans (by rw [h])

/-! ## The packet at the head of a queue (R149) -/

/-- What a frame sent on lanes leaves alone, `g` of a state, stays through a whole exchange link's. -/
theorem sendOnLink_field {β : Type} (g : State → β) (hg : ∀ s o, g (emit s o) = g s) (s : State) (k : Nat)
    (header payload : List Byte) : g (sendOnLink s k header payload) = g s := by
  refine foldl_field g (fun u lanes => ?_) (sendLanes s k) s
  rw [sendOn]
  split
  · exact hg u _
  · rfl

/-- The head of a queue is taken: what comes after it is in the queue. -/
def queueTaken (s : State) (k : Nat) (rest : List Packet) : State :=
  setXr s fun x => { x with queues := if rest = [] then x.queues.drop (· == k) else x.queues.put k rest }

theorem queueTaken_queue (s : State) (k : Nat) (rest : List Packet) :
    (queueTaken s k rest).xr.queues.get [] k = rest := by
  rw [queueTaken, setXr_self]
  dsimp only
  split
  · next h => simp [SMap.get, SMap.find_drop, h]
  · exact SMap.get_put_same ..

theorem queueHead_eq {s : State} {k : Nat} {p : Packet} {rest : List Packet} (h : s.xr.queues.get [] k = p :: rest) :
    queueHead s k =
      if emitsFrame s (leAt p.header 8 6) = false then queueTaken s k rest
      else if (xlState s k = 1 ∨ xlState s k = 2) ∧ s.counter.toNat < nextDeadline s p then
        bump (sendOnLink (queueTaken s k rest) k p.header p.payload) (R.XR_XL_TX_COUNT k)
      else bump (queueTaken s k rest) R.XR_TX_DROP_COUNT := by
  unfold queueHead
  rw [h]
  simp only [Bool.not_eq_true]
  rfl

/-- XCH_QUEUE_HEAD takes the packet, and counts it as sent or as dropped where the chip emits its frame. -/
theorem queueHead_completes {s : State} {k : Nat} {p : Packet} {rest : List Packet}
    (h : s.xr.queues.get [] k = p :: rest) (time : Nat) :
    (queueHead (advanceTo s time) k).xr.queues.get [] k = rest ∧
      if emitsFrame s (leAt p.header 8 6) = false then RegsSameBut [] s (queueHead (advanceTo s time) k)
      else if (xlState s k = 1 ∨ xlState s k = 2) ∧ (advanceTo s time).counter.toNat < nextDeadline s p then
        (rd (queueHead (advanceTo s time) k) (R.XR_XL_TX_COUNT k)).toNat =
          min ((rd s (R.XR_XL_TX_COUNT k)).toNat + 1) 0xFFFFFFFF
      else (rd (queueHead (advanceTo s time) k) R.XR_TX_DROP_COUNT).toNat =
        min ((rd s R.XR_TX_DROP_COUNT).toNat + 1) 0xFFFFFFFF := by
  obtain ⟨counter, hadv⟩ := advanceTo_eq s time
  have queue : (advanceTo s time).xr.queues.get [] k = p :: rest := by rw [hadv]; exact h
  have emits : emitsFrame (advanceTo s time) (leAt p.header 8 6) = emitsFrame s (leAt p.header 8 6) := by rw [hadv]; rfl
  have state : xlState (advanceTo s time) k = xlState s k := by rw [hadv]; rfl
  have deadline : nextDeadline (advanceTo s time) p = nextDeadline s p := by rw [hadv]; rfl
  have word (a : Nat) : rd (queueTaken (advanceTo s time) k rest) a = rd s a := rd_advanceTo s time a
  have sent (a : Nat) : rd (sendOnLink (queueTaken (advanceTo s time) k rest) k p.header p.payload) a = rd s a :=
    (sendOnLink_field (rd · a) (fun _ _ => rfl) ..).trans (word a)
  rw [queueHead_eq queue, emits, state, deadline]
  split_ifs
  · exact ⟨queueTaken_queue .., fun a _ => word a⟩
  · refine ⟨?_, toNat_rd_bump_of_word (sent _)⟩
    rw [bump_xr, sendOnLink_field State.xr fun _ _ => rfl, queueTaken_queue]
  · exact ⟨queueTaken_queue .., toNat_rd_bump_of_word (word _)⟩

/-! ## A packet that passes every check (R148 to R151) -/

theorem receive_accepted {s : State} {n type : Nat} {f : RxFrame} {k : State → State} (hl : linkState s n = 5)
    (hh : headerOk f = true) (ht : frByte f 0 = type) (hlen : lengthOk f = true) (heof : f.eofInPlace = true)
    (hallow : typeAllowed s n type = true) (h3 : type ≠ 3) (h6 : type ≠ 6) :
    receive s n type f k = k (bump (advanceTo s f.eofAt) (R.LNK_RX_FRAMES n)) := by
  obtain ⟨counter, hadv⟩ := advanceTo_eq s f.eofAt
  have allow : typeAllowed (advanceTo s f.eofAt) n type = true := by rw [hadv]; exact hallow
  simp [receive, hl, hh, ht, hlen, heof, allow, h3, h6]

theorem Stands.cal8Of {K : Set Nat} {s t : State} (h : Stands K s t) (hK : ∀ a ∈ runRegs, a ∈ K) (f : Nat) :
    cal8Of t f = Machine.cal8Of s f :=
  have run : SameRun s { t with xr := s.xr } := ⟨fun a ha => h.word a (hK a ha), h.arch, rfl, by rw [h.chz], by rw [h.chz]⟩
  run.cal8Of f

theorem Stands.xrRuns {K : Set Nat} {s t : State} (h : Stands K s t) (hK : ∀ a ∈ runRegs, a ∈ K) (f : Nat) :
    xrRuns t f = Machine.xrRuns s f := by
  have run : SameRun s { t with xr := s.xr } := ⟨fun a ha => h.word a (hK a ha), h.arch, rfl, by rw [h.chz], by rw [h.chz]⟩
  have stop : t.xr.stopAt = s.xr.stopAt := by simpa [Xr.core] using congrArg Xr.stopAt h.core
  rw [← run.xrRuns f, Machine.xrRuns, Machine.xrRuns, stop]
  rfl

/-- The check of a packet's header reads registers of the crossroads and the mode of its frame. -/
theorem xchHeaderOk_stands {s t : State} (h : Stands (Set.Ici 0x400000) s t) (k : Nat) (f : RxFrame) :
    xchHeaderOk t k f = xchHeaderOk s k f := by
  have word (a : Nat) (ha : 0x400000 ≤ a) : rd t a = rd s a := h.word a ha
  have chips : xrChips t = xrChips s := by rw [xrChips, xrCols, h.getF (by decide), h.getF (by decide)]; rfl
  have cols : xrCols t = xrCols s := h.getF (by decide)
  have chip : chipNo t = chipNo s := h.getF (by decide)
  have split : twinSplit t = twinSplit s := h.flag (by decide)
  have row (j : Nat) : rowLink t j = rowLink s j := by
    simp only [rowLink, getR, word R.XR_ROW_LINK_0 (by decide), word R.XR_ROW_LINK_1 (by decide)]
  have col (i : Nat) : colLink t i = colLink s i := by simp only [colLink, getR, word R.XR_COL_LINK (by decide)]
  have slice (c : Nat) : sliceOf t c = sliceOf s c := by
    simp only [sliceOf, getR, word (R.XR_SLICE (c / 4)) (Nat.le_add_right_of_le (by decide))]
  unfold xchHeaderOk
  dsimp only
  rw [chips, cols, chip, split, row, col, slice, h.cal8Of (by decide)]

/-- A packet of the chip's own that passes every check is taken once and counted on its link; what the digest, the span writer
and the beam engines then make of it changes neither. -/
theorem xchReceive_accepted {s : State} {k : Nat} {f : RxFrame} (hrun : xrRuns s (frField f 8 6) = true)
    (hok : xchHeaderOk s k f = true) (hmine : frByte f 5 = chipNo s)
    (hnew : (frField f 8 6, frByte f 14, frByte f 4, frByte f 5) ∉ s.xr.accepted)
    (hearly : frameStart (frField f 8 6) ≤ s.counter.toNat) (hlate : s.counter.toNat < frameStart (frField f 8 6 + 3)) :
    (frField f 8 6, frByte f 14, frByte f 4, frByte f 5) ∈ (xchReceive s k f false beamEnter).xr.accepted ∧
      ∀ a < 0x900000, rd (xchReceive s k f false beamEnter) a = rd (bump s (R.XR_XL_RX_COUNT k)) a := by
  unfold xchReceive
  extract_lets frame src dst spec mine now counted taken digested map data kept stored
  have own : mine = true := beq_iff_eq.2 hmine
  rw [if_neg (not_not.2 hrun), if_neg (not_not.2 hok), if_neg (by simp [own]), if_neg hnew, if_neg (Nat.not_lt.2 hearly),
    if_neg (by simp [hlate, now, frame]), if_neg (by simp [own]), if_neg (by simp), if_pos own]
  have below : Set.Iio 0x900000 ⊆ Set.Iio 0xB00004 := Set.Iio_subset_Iio (by decide)
  have digest : Stands (Set.Iio 0x900000) taken digested := (Stands.refl taken).digestAdd ..
  have rest : Stands (Set.Iio 0x900000) kept (beamEnter stored frame spec (frByte f 15 + 1) src map data) :=
    ((Stands.refl kept).spanWrite (bound_mono below (by decide)) ..).beamEnter below ..
  refine ⟨?_, fun a ha => (rest.word a ha).trans (digest.word a ha)⟩
  have acceptedRest := congrArg Xr.accepted rest.core
  have acceptedDigest := congrArg Xr.accepted digest.core
  simp only [Xr.core] at acceptedRest acceptedDigest
  rw [acceptedRest]
  exact acceptedDigest ▸ List.mem_cons_self

/-- XCH_FRAME_RECEIVED of a packet that passes every check counts the frame on its lane and the packet on its link. -/
theorem xchFrameReceived_completes {s : State} {n : Nat} {f : RxFrame} (hl : linkState s n = 5) (hh : headerOk f = true)
    (ht : frByte f 0 = 2) (hlen : lengthOk f = true) (heof : f.eofInPlace = true) (hallow : typeAllowed s n 2 = true)
    (hrun : xrRuns s (frField f 8 6) = true) (hok : xchHeaderOk s (getF s (F.LANE_USE_LINK n)) f = true)
    (hmine : frByte f 5 = chipNo s) (hnew : (frField f 8 6, frByte f 14, frByte f 4, frByte f 5) ∉ s.xr.accepted)
    (hearly : frameStart (frField f 8 6) ≤ (advanceTo s f.eofAt).counter.toNat)
    (hlate : (advanceTo s f.eofAt).counter.toNat < frameStart (frField f 8 6 + 3)) (hn : n < 56) :
    let t := receive s n 2 f fun s => xchReceive (countPayloadCv s n f) (getF s (F.LANE_USE_LINK n)) f false beamEnter
    (frField f 8 6, frByte f 14, frByte f 4, frByte f 5) ∈ t.xr.accepted ∧
      (rd t (R.LNK_RX_FRAMES n)).toNat = min ((rd s (R.LNK_RX_FRAMES n)).toNat + 1) 0xFFFFFFFF ∧
      (rd t (R.XR_XL_RX_COUNT (getF s (F.LANE_USE_LINK n)))).toNat =
        min ((rd s (R.XR_XL_RX_COUNT (getF s (F.LANE_USE_LINK n)))).toNat + 1) 0xFFFFFFFF := by
  intro t
  obtain ⟨counter, hadv⟩ := advanceTo_eq s f.eofAt
  set w := advanceTo s f.eofAt with hw
  set v := countPayloadCv (bump w (R.LNK_RX_FRAMES n)) n f with hv
  have counted {a : Nat} (h1 : a ≠ R.LNK_RX_FRAMES n) (h2 : a ≠ R.LNK_PAYLOAD_CV n) : rd v a = rd s a := by
    rw [hv, countPayloadCv, rd_bumpBy, if_neg h2, bump, rd_bumpBy, if_neg h1, hw, rd_advanceTo]
  have lanes : Stands (Set.Ici 0x400000) w v :=
    ((Stands.refl w).bump (by simp only [Set.mem_Ici, R.LNK_RX_FRAMES]; omega)).bumpBy
      (by simp only [Set.mem_Ici, R.LNK_PAYLOAD_CV]; omega) _
  have link : getF (bump w (R.LNK_RX_FRAMES n)) (F.LANE_USE_LINK n) = getF s (F.LANE_USE_LINK n) := by
    rw [getF, bump, rd_bumpBy, if_neg (by simp only [R.LANE_USE, R.LNK_RX_FRAMES]; omega), hw, rd_advanceTo, getF]
  have taken : t = xchReceive v (getF s (F.LANE_USE_LINK n)) f false beamEnter := by
    rw [← link]
    exact receive_accepted (k := fun s => xchReceive (countPayloadCv s n f) (getF s (F.LANE_USE_LINK n)) f false beamEnter)
      hl hh ht hlen heof hallow (by decide) (by decide)
  have width : getF s (F.LANE_USE_LINK n) < 2 ^ 4 := Nat.mod_lt _ (by positivity)
  generalize getF s (F.LANE_USE_LINK n) = k at hok taken width ⊢
  have run : xrRuns v (frField f 8 6) = true := by rw [lanes.xrRuns (by decide), hadv]; exact hrun
  have ok : xchHeaderOk v k f = true := by rw [xchHeaderOk_stands lanes, hadv]; exact hok
  have mine : frByte f 5 = chipNo v := by rw [chipNo, lanes.getF (by decide), hadv]; exact hmine
  have new : (frField f 8 6, frByte f 14, frByte f 4, frByte f 5) ∉ v.xr.accepted := by
    rw [show v.xr = s.xr from (show w.xr = s.xr by rw [hadv])]
    exact hnew
  obtain ⟨haccepted, hword⟩ := xchReceive_accepted run ok mine new (by rwa [lanes.counter]) (by rwa [lanes.counter])
  rw [taken]
  refine ⟨haccepted, ?_, ?_⟩
  · have other : R.LNK_RX_FRAMES n ≠ R.XR_XL_RX_COUNT k := by simp only [R.LNK_RX_FRAMES, R.XR_XL_RX_COUNT]; omega
    rw [hword _ (by simp only [R.LNK_RX_FRAMES]; omega), bump, rd_bumpBy, if_neg other, hv, countPayloadCv, rd_bumpBy,
      if_neg (by simp only [R.LNK_RX_FRAMES, R.LNK_PAYLOAD_CV]; omega)]
    exact toNat_rd_bump_of_word (rd_advanceTo ..)
  · rw [hword _ (by simp only [R.XR_XL_RX_COUNT]; omega)]
    exact toNat_rd_bump_of_word (counted (by simp only [R.LNK_RX_FRAMES, R.XR_XL_RX_COUNT]; omega)
      (by simp only [R.LNK_PAYLOAD_CV, R.XR_XL_RX_COUNT]; omega))

end Sys2Proof.Machine
end

section
/-! The post-exchange fix of a frame (R152, R153, R155). -/
namespace Sys2Proof.Machine

/-- The registers that a loss changes (R152). -/
def lossRegs : List Nat := [R.XR_STATUS, R.XR_LAST_LOSS, R.XR_LAST_LOSS_FRAME_LO, R.XR_LAST_LOSS_FRAME_HI]

/-- The registers that the fix leaves alone until it shows the bits: all below the health block but those of losses and the
count of missing packets. -/
def fixKept : Set Nat := {a | a < 0x1800000 ∧ a ∉ R.XR_MISSING_COUNT :: lossRegs}

theorem fixKept_bound : fixKept ⊆ Set.Iio 0x1800000 := fun _ h => h.1

theorem Stands.recordLoss {s t : State} (h : Stands fixKept s t) (l : Loss) : Stands fixKept s (recordLoss t l) := by
  have out (a : Nat) (ha : a ∈ lossRegs) : a ∉ fixKept := fun hk => hk.2 (List.mem_cons_of_mem _ ha)
  have flagged := h.setF (f := F.XR_STATUS_LOSS) (out _ (by decide)) 1
  exact .ite flagged (((flagged.setR (out R.XR_LAST_LOSS (by decide)) _).setPair (out R.XR_LAST_LOSS_FRAME_LO (by decide))
    (out R.XR_LAST_LOSS_FRAME_HI (by decide)) _).setXr)

/-- The bits of a frame come from the packets accepted, the channelizer and the slots, which the fix leaves alone. -/
theorem exchangeBits_stands {s t : State} (h : Stands fixKept s t) (f : Nat) : exchangeBits t f = exchangeBits s f := by
  have spans : t.xr.slotSpan = s.xr.slotSpan := by simpa [Xr.core] using congrArg Xr.slotSpan h.core
  have got : t.xr.got = s.xr.got := by simpa [Xr.core] using congrArg Xr.got h.core
  have kept (g : Fld) (hg : g.addr < 0x1800000 ∧ g.addr ∉ R.XR_MISSING_COUNT :: lossRegs) : getF t g = getF s g := h.getF hg
  have state (k : Nat) (hk : k < 4) : getF t (F.XR_SLOT_STATE k) = getF s (F.XR_SLOT_STATE k) := by
    interval_cases k <;> exact kept _ (by decide)
  have frames : spanLen t = spanLen s := kept _ (by decide)
  have slot (n : Nat) : slotOf t n = slotOf s n :=
    List.find?_congr fun k hk => by rw [spans, state k (List.mem_range.1 hk)]
  have chips : xrChips t = xrChips s := by rw [xrChips, xrCols, kept _ (by decide), kept _ (by decide)]; rfl
  have chip : chipNo t = chipNo s := kept _ (by decide)
  have runs (a : Nat) (ha : a ∈ runRegs) : a ∈ fixKept := by
    have all : ∀ a ∈ runRegs, a < 0x1800000 ∧ a ∉ R.XR_MISSING_COUNT :: lossRegs := by decide
    exact all a ha
  unfold exchangeBits
  dsimp only
  rw [frames, slot, chips, chip, h.chz, got, h.cal8Of runs]

/-! ## The bits shown -/

/-- A frame's post-exchange bits show, 32 to a register. -/
def showBits (s : State) (bits : Nat) (l : List Nat) : State :=
  l.foldl (fun s m => setR s (R.XR_VALID m) (bits / 2 ^ (32 * m) % 2 ^ 32)) s

theorem showBits_word (s : State) (bits : Nat) (l : List Nat) {m : Nat} (h : m ∈ l ∨ getR s (R.XR_VALID m) =
    bits / 2 ^ (32 * m) % 2 ^ 32) : getR (showBits s bits l) (R.XR_VALID m) = bits / 2 ^ (32 * m) % 2 ^ 32 := by
  induction l generalizing s with
  | nil => exact h.resolve_left List.not_mem_nil
  | cons j l ih =>
    refine ih _ ?_
    by_cases e : m = j
    · subst e
      right
      rw [getR, rd_setR, if_pos rfl, BitVec.toNat_ofNat, Nat.mod_mod]
    · refine h.imp (fun h => (List.mem_cons.1 h).resolve_left e) fun h => ?_
      rw [getR, rd_setR, if_neg (by simp only [R.XR_VALID]; omega)]
      exact h

/-- The fix notes the frame, keeps its bits where a slot holds its span, and drops what it no longer needs. -/
def noteFixed (s : State) (f bits : Nat) : State :=
  setXr s fun x => { x with
    lastFixed := some f
    valid := if (slotOf s (f / spanLen s)).isSome then x.valid.put f bits else x.valid
    got := x.got.drop fun key => key / 64 ≤ f
    losses := x.losses.filter fun l => f < l.frame }

theorem noteFixed_lastFixed (s : State) (f bits : Nat) : (noteFixed s f bits).xr.lastFixed = some f := rfl

theorem getPair_noteFixed (s : State) (f bits a : Nat) : getPair (noteFixed s f bits) a = getPair s a := rfl

theorem rd_noteFixed (s : State) (f bits a : Nat) : rd (noteFixed s f bits) a = rd s a := rfl

/-- The fix shows the bits of the state that it finds, since what it does before leaves alone all that they come from. -/
theorem exchangeFix_eq (s : State) (f : Nat) : ∃ u, exchangeFix s f =
    noteFixed (setPair (showBits u (exchangeBits s f) (List.range 128)) R.XR_VALID_FRAME_LO f) f (exchangeBits s f) := by
  unfold exchangeFix
  extract_lets cal8 missing lost counted reported bits shown paired
  have h1 : Stands fixKept s lost := (Stands.refl s).foldl fun t x _ h => by
    dsimp only
    split
    · exact h.recordLoss _
    · exact h.recordLoss _
  have h2 : Stands fixKept s counted := h1.bumpBy (fun hk => hk.2 List.mem_cons_self) _
  have h3 : Stands fixKept s reported := .ite h2 ((h2.raise 28).fault fixKept_bound 12)
  refine ⟨reported, ?_⟩
  rw [← exchangeBits_stands h3]
  rfl

theorem exchangeFix_completes (s : State) {f : Nat} (hf : f < 2 ^ 64) :
    (exchangeFix s f).xr.lastFixed = some f ∧ getPair (exchangeFix s f) R.XR_VALID_FRAME_LO = f ∧
      ∀ m : Fin 128, getR (exchangeFix s f) (R.XR_VALID m) = exchangeBits s f / 2 ^ (32 * m.val) % 2 ^ 32 := by
  obtain ⟨u, e⟩ := exchangeFix_eq s f
  have shown (m : Fin 128) := showBits_word u (exchangeBits s f) (List.range 128) (.inl (List.mem_range.2 m.isLt))
  rw [e]
  generalize showBits u (exchangeBits s f) (List.range 128) = v at shown ⊢
  refine ⟨noteFixed_lastFixed .., by rw [getPair_noteFixed, getPair_setPair_same _ _ hf], fun m => ?_⟩
  have apart : R.XR_VALID m ≠ R.XR_VALID_FRAME_LO ∧ R.XR_VALID m ≠ R.XR_VALID_FRAME_LO + 4 := by
    simp only [R.XR_VALID, R.XR_VALID_FRAME_LO]; omega
  rw [← shown m, getR, getR, rd_noteFixed, rd_setPair, if_neg apart.2, if_neg apart.1]

/-- POST_EXCHANGE_FIX of a due frame; the beams that end with it change none of what the fix shows. -/
theorem exchangeFixAll_completes {s : State} {f : Nat} (hdue : fixDue s f = true) :
    (exchangeFixAll s f).xr.lastFixed = some f ∧ getPair (exchangeFixAll s f) R.XR_VALID_FRAME_LO = f ∧
      ∀ m : Fin 128, getR (exchangeFixAll s f) (R.XR_VALID m) = exchangeBits s f / 2 ^ (32 * m.val) % 2 ^ 32 := by
  have hf : f < 2 ^ 64 := by
    have ticked : f + 3 ≤ frameOf s := by simp only [fixDue, Bool.and_eq_true, decide_eq_true_eq] at hdue; omega
    have := s.counter.isLt
    simp only [frameOf] at ticked
    omega
  obtain ⟨hfixed, hframe, hbits⟩ := exchangeFix_completes s hf
  have beams : Stands (Set.Iio 0xB00004) (exchangeFix s f) (exchangeFixAll s f) := by
    unfold exchangeFixAll
    rw [if_pos hdue]
    have h := Stands.refl (K := Set.Iio 0xB00004) (exchangeFix s f)
    exact (Stands.ite (h.setBfm _) h).beamComplete subset_rfl f
  refine ⟨?_, ?_, fun m => ?_⟩
  · have fixed := congrArg Xr.lastFixed beams.core
    simp only [Xr.core] at fixed
    rw [fixed, hfixed]
  · rw [beams.getPair (by decide) (by decide), hframe]
  · rw [getR, beams.word _ (by simp only [Set.mem_Iio, R.XR_VALID]; omega)]
    exact hbits m

end Sys2Proof.Machine
end

section
/-! Narrowing and widening of the exchange links (R157, R158). -/
namespace Sys2Proof.Machine

/-! ## The links -/

theorem xlink_setXlink (s : State) (j k : Nat) (f : Link → Link) :
    xlink (setXlink s k f) j = if j = k then f (xlink s k) else xlink s j := by
  rw [xlink, setXlink, SMap.upd, SMap.get_put]
  rfl

theorem xlink_setXlink_same (s : State) (k : Nat) (f : Link → Link) : xlink (setXlink s k f) k = f (xlink s k) :=
  (xlink_setXlink s k k f).trans (if_pos rfl)

/-! ## What the work on lanes leaves alone -/

/-- The registers that say what the lanes are used for, and the counts of narrowings. -/
def LaneIdle (c : Nat) : Prop := (∃ n < 56, c = R.LANE_USE n) ∨ ∃ k < 14, c = R.XR_XL_NARROW_COUNT k

namespace LaneIdle

variable {c : Nat}

theorem use {n : Nat} (hn : n < 56) : LaneIdle (R.LANE_USE n) := .inl ⟨n, hn, rfl⟩

theorem ne_status (h : LaneIdle c) (n : Nat) : c ≠ R.LANE_STATUS n := by
  obtain ⟨m, -, rfl⟩ | ⟨k, hk, rfl⟩ := h
  · simp only [R.LANE_USE, R.LANE_STATUS]; omega
  · simp only [R.XR_XL_NARROW_COUNT, R.LANE_STATUS]; omega

theorem ne_result (h : LaneIdle c) (n : Nat) : c ≠ R.LANE_CAL_RESULT n := by
  obtain ⟨m, -, rfl⟩ | ⟨k, hk, rfl⟩ := h
  · simp only [R.LANE_USE, R.LANE_CAL_RESULT]; omega
  · simp only [R.XR_XL_NARROW_COUNT, R.LANE_CAL_RESULT]; omega

theorem ne_up (h : LaneIdle c) {n : Nat} (hn : n < 56) : c ≠ R.LANE_UP_LO + 4 * (n / 32) := by
  obtain ⟨m, -, rfl⟩ | ⟨k, hk, rfl⟩ := h
  · simp only [R.LANE_USE, R.LANE_UP_LO]; omega
  · simp only [R.XR_XL_NARROW_COUNT, R.LANE_UP_LO]; omega

theorem ne_linkState (h : LaneIdle c) : c ≠ R.XR_LINK_STATE := by
  obtain ⟨m, -, rfl⟩ | ⟨k, hk, rfl⟩ := h
  · simp only [R.LANE_USE, R.XR_LINK_STATE]; omega
  · simp only [R.XR_XL_NARROW_COUNT, R.XR_LINK_STATE]; omega

theorem notMem_faultRegs (h : LaneIdle c) : c ∉ faultRegs := by
  have low : c < 0x1000000 := by
    obtain ⟨m, hm, rfl⟩ | ⟨k, hk, rfl⟩ := h
    · simp only [R.LANE_USE]; omega
    · simp only [R.XR_XL_NARROW_COUNT]; omega
  have high : ∀ a ∈ faultRegs, 0x1000000 ≤ a := by decide
  exact fun hc => absurd (high c hc) (by omega)

end LaneIdle

theorem fault_links (s : State) (n : Nat) : (fault s n).links = s.links := by
  unfold fault setFaults faultRecord
  dsimp only
  split <;> rfl

/-- A calibration that ends without a fault changes no link. -/
theorem calEnd_links (s : State) (n : Nat) {r : Nat} (hr : r ≠ 2 ∧ r ≠ 3) : (calEnd s n r).links = s.links := by
  unfold calEnd
  extract_lets l run counted gained measured shown failed idle cleared
  have hshown : shown.links = s.links := by
    unfold shown
    split <;> rfl
  have hcleared : cleared.links = s.links := by
    have : failed = shown := if_neg (not_or.2 hr)
    rw [← hshown, ← this]
    rfl
  rw [← hcleared]
  split
  · unfold calNext
    split <;> rfl
  · rfl

/-- The work on lanes keeps their uses, the memories, and which link is narrowed or to be widened. -/
structure LaneWork (s t : State) : Prop where
  keeps : ∀ c, LaneIdle c → Keeps c true s t
  keep : ∀ k, (xlink t k).keep = (xlink s k).keep
  widen : ∀ k, (xlink t k).widen = (xlink s k).widen

namespace LaneWork

variable {s t u : State}

theorem refl (s : State) : LaneWork s s := ⟨fun _ _ => .refl s, fun _ => rfl, fun _ => rfl⟩

theorem trans (h : LaneWork s t) (h' : LaneWork t u) : LaneWork s u :=
  ⟨fun c hc => (h.keeps c hc).trans (h'.keeps c hc), fun k => (h'.keep k).trans (h.keep k),
    fun k => (h'.widen k).trans (h.widen k)⟩

/-- A part of the work that changes no link. -/
theorem of_keeps (h : LaneWork s t) (hu : ∀ c, LaneIdle c → Keeps c true s t → Keeps c true s u) (hl : u.links = t.links) :
    LaneWork s u where
  keeps c hc := hu c hc (h.keeps c hc)
  keep k := by rw [xlink, hl]; exact h.keep k
  widen k := by rw [xlink, hl]; exact h.widen k

theorem ite {p : Prop} [Decidable p] (ht : LaneWork s t) (hu : LaneWork s u) : LaneWork s (if p then t else u) := by
  split
  · exact ht
  · exact hu

theorem foldl {α : Type} {f : State → α → State} {l : List α} (hf : ∀ t, ∀ x ∈ l, LaneWork s t → LaneWork s (f t x))
    (h : LaneWork s t) : LaneWork s (l.foldl f t) := by
  induction l generalizing t with
  | nil => exact h
  | cons x l ih => exact ih (fun t y hy => hf t y (List.mem_cons_of_mem _ hy)) (hf t x List.mem_cons_self h)

theorem use (h : LaneWork s t) {n : Nat} (hn : n < 56) {f : Fld} (hf : f.addr = R.LANE_USE n) : getF t f = getF s f :=
  (hf ▸ h.keeps _ (.use hn)).getF

theorem memorySame (h : LaneWork s t) : MemorySame s t := (h.keeps _ (.use (n := 0) (by decide))).memorySame

theorem lanesOf (h : LaneWork s t) (u k : Nat) : lanesOf t u k = Machine.lanesOf s u k :=
  List.filter_congr fun n hn => by rw [h.use (List.mem_range.1 hn) rfl, h.use (List.mem_range.1 hn) rfl]

theorem status (h : LaneWork s t) {f : Fld} {n : Nat} (hf : f.addr = R.LANE_STATUS n) (v : Nat) : LaneWork s (setF t f v) :=
  h.of_keeps (fun _ hc k => k.setF (hf ▸ hc.ne_status n) v) rfl

theorem setLane (h : LaneWork s t) (n : Nat) (f : Lane → Lane) : LaneWork s (setLane t n f) :=
  h.of_keeps (fun _ _ k => k.same rfl rfl rfl rfl) rfl

/-- A link's delays may change. -/
theorem setXlink (h : LaneWork s t) (k : Nat) {f : Link → Link} (hkeep : ∀ l, (f l).keep = l.keep)
    (hwiden : ∀ l, (f l).widen = l.widen) : LaneWork s (setXlink t k f) where
  keeps c hc := (h.keeps c hc).same rfl rfl rfl rfl
  keep j := by
    rw [← h.keep j, xlink_setXlink]
    split
    · next e => rw [hkeep, e]
    · rfl
  widen j := by
    rw [← h.widen j, xlink_setXlink]
    split
    · next e => rw [hwiden, e]
    · rfl

theorem fault (h : LaneWork s t) (n : Nat) : LaneWork s (fault t n) :=
  h.of_keeps (fun _ hc k => k.fault hc.notMem_faultRegs n) (fault_links t n)

theorem linkUpdate (h : LaneWork s t) (k : Nat) : LaneWork s (linkUpdate t k) := by
  unfold Machine.linkUpdate
  extract_lets old new shown flagged
  have h1 : LaneWork s shown := h.of_keeps (fun _ hc hk => hk.setF hc.ne_linkState _) rfl
  have h2 : LaneWork s flagged := .ite (h1.fault 9) h1
  exact .ite (h2.setXlink k (fun _ => rfl) fun _ => rfl) (.ite (h2.setXlink k (fun _ => rfl) fun _ => rfl) h2)

theorem statusFollow (h : LaneWork s t) (n : Nat) (old : Option Nat) : LaneWork s (statusFollow t n old) := by
  unfold Machine.statusFollow
  split
  · exact .ite h (h.of_keeps (fun _ _ k => k.emit _) rfl)
  · exact h

theorem enter (h : LaneWork s t) {n : Nat} (hn : n < 56) (st : Nat) : LaneWork s (enter t n st) := by
  unfold Machine.enter
  extract_lets old state aligned bonded skewed locked pll remote followed
  have h1 : LaneWork s aligned := (h.status rfl _).status rfl _
  have h2 : LaneWork s bonded := .ite h1 (h1.status rfl _)
  have h3 : LaneWork s skewed := .ite h2 (h2.status rfl _)
  have h4 : LaneWork s locked := .ite (h3.status rfl _) (.ite h3 (h3.status rfl _))
  have h5 : LaneWork s pll := .ite (h4.status rfl _) h4
  have h6 : LaneWork s remote := .ite (h5.status rfl _) h5
  have h7 : LaneWork s followed := (h6.of_keeps (fun _ hc k => k.setB (hc.ne_up hn) _ _) rfl).statusFollow n old
  exact .ite (h7.linkUpdate _) h7

theorem calAbort (h : LaneWork s t) (n : Nat) : LaneWork s (calAbort t n) := by
  have ended : LaneWork s (calEnd t n 4) :=
    h.of_keeps (fun _ hc k => k.calEnd (hc.ne_result n) (hc.ne_status n) (by decide)) (calEnd_links t n (by decide))
  exact .ite ended h

theorem bondOf_lt (s : State) {n m : Nat} (hn : n < 56) (hm : m ∈ bondOf s n) : m < 56 := by
  have lanes (u k : Nat) (h : m ∈ Machine.lanesOf s u k) : m < 56 := List.mem_range.1 (List.mem_filter.1 h).1
  have self (h : m ∈ [n]) : m < 56 := List.mem_singleton.1 h ▸ hn
  unfold bondOf at hm
  dsimp only at hm
  split at hm
  · split at hm
    · exact self hm
    · exact lanes _ _ hm
  · split at hm
    · exact lanes _ _ hm
    · exact self hm

/-- A lane of an exchange link leaves its state, and its bond with it. -/
theorem leave (h : LaneWork s t) {n : Nat} (hn : n < 56) (huse : getF s (F.LANE_USE_RX_USE n) = 3) (st : Nat) :
    LaneWork s (leave t n st false) := by
  have use : getF t (F.LANE_USE_RX_USE n) = 3 := (h.use hn rfl).trans huse
  unfold Machine.leave
  split
  · extract_lets ups u aborted parted entered counted flagged
    have hups : ∀ m ∈ ups, m < 56 := fun m hm => bondOf_lt t hn (List.mem_filter.1 hm).1
    have h1 : LaneWork s aborted := h.foldl fun t m _ h => h.calAbort m
    have h2 : LaneWork s parted := h1.foldl fun t m hm h => .ite h (h.enter (hups m hm) 4)
    have h3 : LaneWork s entered := (h2.enter hn st).setLane n _
    have link : ¬ (u = 4 ∨ u = 5) := by rw [show u = 3 from use]; decide
    have h4 : flagged = entered := if_neg link
    rw [if_neg fun hc => link (.inr hc.1), h4]
    exact h3
  · exact h.enter hn st

theorem bringUp (h : LaneWork s t) {n : Nat} (hn : n < 56) (huse : getF s (F.LANE_USE_RX_USE n) = 3) :
    LaneWork s (bringUp t n) := by
  unfold Machine.bringUp
  split
  · exact (h.leave hn huse _).setLane n _
  · exact h

end LaneWork

/-! ## Narrowing (R157) -/

theorem mem_lanesOf {s : State} {u k n : Nat} :
    n ∈ lanesOf s u k ↔ n < 56 ∧ getF s (F.LANE_USE_RX_USE n) = u ∧ getF s (F.LANE_USE_LINK n) = k := by
  simp [lanesOf]

/-- A link that narrows runs on the lane, and counts once. -/
theorem narrowOnto_completes (s : State) {k : Nat} (hk : k < 14) (n : Nat) {t : State} (ht : LaneWork (narrowOnto s k n) t) :
    (xlink t k).keep = some n ∧
      (rd t (R.XR_XL_NARROW_COUNT k)).toNat = min ((rd s (R.XR_XL_NARROW_COUNT k)).toNat + 1) 0xFFFFFFFF ∧
      MemorySame s t := by
  have count : LaneIdle (R.XR_XL_NARROW_COUNT k) := .inr ⟨k, hk, rfl⟩
  let named : State := setXlink s k fun _ => { keep := some n }
  let off : State := (lanesOf named 3 k).foldl (fun s m =>
    if m = n then s else setF (setLane s m fun l => { l with txOff := true }) (F.LANE_STATUS_TX_PLL_LOCK m) 0) named
  have hoff : LaneWork named off := (LaneWork.refl named).foldl fun t m _ h => .ite h ((h.setLane m _).status rfl 0)
  have bumped : LaneWork (bump off (R.XR_XL_NARROW_COUNT k)) t := ((LaneWork.refl _).linkUpdate k).trans ht
  have named_count : rd off (R.XR_XL_NARROW_COUNT k) = rd s (R.XR_XL_NARROW_COUNT k) := (hoff.keeps _ count).word
  refine ⟨?_, ?_, ?_⟩
  · calc (xlink t k).keep = (xlink off k).keep := bumped.keep k
      _ = (xlink named k).keep := hoff.keep k
      _ = some n := by rw [xlink_setXlink_same]
  · rw [(bumped.keeps _ count).word, toNat_rd_bump_of_word named_count]
  · obtain ⟨hdram, harrays⟩ := bumped.memorySame
    exact ⟨fun a => (hdram a).trans (hoff.memorySame.1 a), harrays.trans hoff.memorySame.2⟩

/-- LINK_NARROW_DELAY_EXPIRY, where the delay is over and a lane is ALIGNED. -/
theorem linkNarrowDelayExpiry_completes {s : State} (hup : Up s) {k : Fin 14} {time n : Nat} (hdelay : (xlink s k).delay = true)
    (htime : max 1 (getF s F.XR_NARROW_DELAY_MICROSECONDS) ≤ time) (hen : flag s F.XR_CTRL_NARROW_EN = true)
    (hsplit : twinSplit s = false) (hload : overLoad (linkLoad s (flag s F.CHZ_MODE_CAL8) k) laneSlots = false)
    (hfind : (lanesOf s 3 k).find? (fun n => flag s (F.LANE_STATUS_ALIGNED n)) = some n) :
    Completes (.linkNarrowDelayExpiry ⟨k, time⟩) s fun t =>
      (xlink t k).keep = some n ∧
      (rd t (R.XR_XL_NARROW_COUNT k)).toNat = min ((rd s (R.XR_XL_NARROW_COUNT k)).toNat + 1) 0xFFFFFFFF ∧
      MemorySame s t := by
  have hn : n < 56 := (mem_lanesOf.1 (List.mem_of_find?_eq_some hfind)).1
  have narrowed := LaneWork.refl (narrowOnto s k n)
  refine completes_run rfl hup ?_
  dsimp only
  rw [if_pos ⟨hdelay, htime, hen, by simp [hsplit], by simp [hload]⟩, hfind]
  exact narrowOnto_completes s k.isLt n (.ite ((narrowed.enter hn 5).linkUpdate k) narrowed)

/-! ## Widening (R158) -/

/-- One WIDEN bit. -/
def markWiden (bits : Nat) (s : State) (k : Nat) : State :=
  if bitOf bits k ∧ (xlink s k).keep.isSome then setXlink s k fun l => { l with widen := true } else s

theorem xlink_markWiden (bits : Nat) (s : State) (j k : Nat) : xlink (markWiden bits s j) k =
    if k = j ∧ bitOf bits k = true ∧ (xlink s k).keep.isSome = true then { xlink s k with widen := true } else xlink s k := by
  unfold markWiden
  by_cases e : k = j
  · subst e
    split
    · next h => rw [xlink_setXlink_same, if_pos ⟨rfl, h⟩]
    · next h => rw [if_neg fun hc => h hc.2]
  · rw [if_neg (not_and_of_not_left _ e)]
    split
    · rw [xlink_setXlink, if_neg e]
    · rfl

/-- The WIDEN bits mark the narrowed links that they name, and no other. -/
theorem xlink_foldl_markWiden (bits : Nat) (s : State) (l : List Nat) (k : Nat) : xlink (l.foldl (markWiden bits) s) k =
    if k ∈ l ∧ bitOf bits k = true ∧ (xlink s k).keep.isSome = true then { xlink s k with widen := true } else xlink s k := by
  induction l generalizing s with
  | nil => simp
  | cons j l ih =>
    rw [List.foldl_cons, ih, xlink_markWiden]
    by_cases e : k = j
    · rw [← e]
      by_cases named : bitOf bits k = true ∧ (xlink s k).keep.isSome = true
      · simp only [true_and, if_pos named, List.mem_cons_self]
        split <;> rfl
      · rw [if_neg (not_and_of_not_right _ named), if_neg (not_and_of_not_right _ named),
          if_neg (not_and_of_not_right _ named)]
    · rw [if_neg (not_and_of_not_left _ e)]
      simp [e]

/-- XR_WIDEN_WRITE. -/
theorem setWiden_completes (s : State) (bits : BitVec 14) :
    (∀ k : Fin 14, bits.getLsbD k = true → (xlink s k).keep.isSome = true → (xlink (setWiden s bits.toNat) k).widen = true) ∧
      (∀ k : Fin 14, bits.getLsbD k = false → xlink (setWiden s bits.toNat) k = xlink s k) ∧
      RegsSameBut [] s (setWiden s bits.toNat) ∧ MemorySame s (setWiden s bits.toNat) := by
  have bit (k : Nat) : bitOf bits.toNat k = bits.getLsbD k := by
    rw [bitOf, BitVec.getLsbD, Nat.testBit_eq_decide_div_mod_eq, beq_eq_decide]
  have link (k : Nat) := xlink_foldl_markWiden bits.toNat s (List.range 14) k
  have field {β : Type} (g : State → β) (hg : ∀ t k f, g (setXlink t k f) = g t) : g (setWiden s bits.toNat) = g s :=
    foldl_field g (fun t k => by
      split
      · exact hg t k _
      · rfl) _ s
  refine ⟨fun k hbit hkeep => ?_, fun k hbit => ?_, fun a _ => field (rd · a) fun _ _ _ => rfl,
    fun a => by rw [field State.dram fun _ _ _ => rfl], field State.arrays fun _ _ _ => rfl⟩
  · exact congrArg Link.widen ((link k).trans (if_pos ⟨List.mem_range.2 k.isLt, (bit k).trans hbit, hkeep⟩))
  · exact (link k).trans (if_neg fun hc => Bool.false_ne_true (hbit.symm.trans ((bit k).symm.trans hc.2.1)))

/-- LINK_WIDEN ends the narrowing, and brings the lanes up afresh. -/
theorem linkWiden_completes {s : State} (hup : Up s) {k : Fin 14} (h : (xlink s k).widen = true) :
    Completes (.linkWiden k) s fun t => (xlink t k).keep = none ∧ (xlink t k).widen = false ∧ MemorySame s t := by
  refine completes_run rfl hup ?_
  dsimp only
  rw [if_pos h]
  generalize hleft : (lanesOf s 3 k).foldl (fun s n => leave s n (startState s n) false) s = left
  have parted : LaneWork s left := hleft ▸ (LaneWork.refl s).foldl fun t n hn h => by
    obtain ⟨hn, huse, -⟩ := mem_lanesOf.1 hn
    exact h.leave hn huse _
  have raised : LaneWork (setXlink left k fun _ => {})
      ((lanesOf (setXlink left k fun _ => {}) 3 k).foldl (fun s n => bringUp s n) (setXlink left k fun _ => {})) :=
    (LaneWork.refl _).foldl fun t n hn h => by
      obtain ⟨hn, huse, -⟩ := mem_lanesOf.1 hn
      exact h.bringUp hn huse
  have done := raised.linkUpdate k
  obtain ⟨hdram, harrays⟩ := done.memorySame
  refine ⟨?_, ?_, fun a => (hdram a).trans (parted.memorySame.1 a), harrays.trans parted.memorySame.2⟩
  · rw [done.keep, xlink_setXlink_same]
  · rw [done.widen, xlink_setXlink_same]

end Sys2Proof.Machine
end

section
/-! The span slots and the enable of the crossroads (R163, R164, R169). -/
namespace Sys2Proof.Machine

/-! ## The slot of a span (R164) -/

/-- The slots in the order in which the span writer looks at them. -/
def slotOrder (s : State) : List Nat :=
  (List.range 4).map fun i => ((match s.xr.lastSlot with | some k => k + 1 | none => 0) + i) % 4

theorem mem_slotOrder (s : State) (k : Nat) : k ∈ slotOrder s ↔ k < 4 := by
  simp only [slotOrder, List.mem_map, List.mem_range]
  generalize (match s.xr.lastSlot with | some k => k + 1 | none => 0) = first
  refine ⟨fun ⟨i, _, hi⟩ => hi ▸ Nat.mod_lt _ (by decide), fun hk => ⟨(k + 4 - first % 4) % 4, ?_, ?_⟩⟩ <;> omega

/-- A slot that the span writer may take: free or read, and not held. -/
def slotOpen (s : State) (k : Nat) : Bool :=
  (getF s (F.XR_SLOT_STATE k) == 0 || getF s (F.XR_SLOT_STATE k) == 3) && !flag s (F.XR_SLOT_HELD k)

theorem slotOpen_iff (s : State) (k : Nat) : slotOpen s k = true ↔
    (getF s (F.XR_SLOT_STATE k) = 0 ∨ getF s (F.XR_SLOT_STATE k) = 3) ∧ getF s (F.XR_SLOT_HELD k) = 0 := by
  simp [slotOpen, flag]

/-- A slot that is left changes hidden fields of the crossroads only. -/
theorem slotLeave_field {β : Type} (g : State → β) (hg : ∀ t f, g (setXr t f) = g t) (s : State) (n : Nat) :
    g (slotLeave s n) = g s := by
  unfold slotLeave
  dsimp only
  split
  · exact hg s _
  · exact hg s _

theorem slotLeave_lastSpan (s : State) (n : Nat) : (slotLeave s n).xr.lastSpan = s.xr.lastSpan := by
  unfold slotLeave
  dsimp only
  split <;> rfl

theorem chooseSlot_completes (s : State) (n : Nat) :
    (chooseSlot s n).xr.lastSpan = some n ∧ MemorySame s (chooseSlot s n) ∧
      ((∃ k : Fin 4, (getF s (F.XR_SLOT_STATE k) = 0 ∨ getF s (F.XR_SLOT_STATE k) = 3) ∧
          getF s (F.XR_SLOT_HELD k) = 0 ∧ (chooseSlot s n).xr.lastSlot = some k.val ∧
          getF (chooseSlot s n) (F.XR_SLOT_STATE k) = 1 ∧ getF (chooseSlot s n) (F.XR_SLOT_SPAN k) = n % 2 ^ 28) ∨
        (∀ k : Fin 4, (getF s (F.XR_SLOT_STATE k) ≠ 0 ∧ getF s (F.XR_SLOT_STATE k) ≠ 3) ∨
          getF s (F.XR_SLOT_HELD k) = 1) ∧ getF (chooseSlot s n) F.XR_STATUS_NO_SLOT = 1) := by
  let spanned : State := setXr s fun x => { x with lastSpan := some n }
  have lastSpan : (slotLeave spanned n).xr.lastSpan = some n := slotLeave_lastSpan spanned n
  have dram : (slotLeave spanned n).dram = s.dram := slotLeave_field State.dram (fun _ _ => rfl) spanned n
  have arrays : (slotLeave spanned n).arrays = s.arrays := slotLeave_field State.arrays (fun _ _ => rfl) spanned n
  have memory : MemorySame s (slotLeave spanned n) := ⟨fun a => by rw [dram], arrays⟩
  cases found : (slotOrder s).find? (slotOpen s) with
  | some k =>
    have chosen : chooseSlot s n = setF (setF (setXr (slotLeave spanned n) fun x => { x with
        lastSlot := some k
        slotSpan := x.slotSpan.put k n
        former := x.former.drop (· == k)
        formerValid := x.formerValid.drop (· == k)
        valid := x.valid.drop fun f => spanned.xr.slotSpan.find k ==
          some (f / spanLen spanned) }) (F.XR_SLOT_STATE k) 1) (F.XR_SLOT_SPAN k) (n % 2 ^ 28) := by
      unfold chooseSlot
      dsimp only
      split
      · next j e =>
        obtain rfl : j = k := Option.some.inj (e.symm.trans found)
        rfl
      · next e => exact nomatch e.symm.trans found
    obtain ⟨hstate, hheld⟩ := (slotOpen_iff s k).1 (List.find?_some found)
    have hk : k < 4 := (mem_slotOrder s k).1 (List.mem_of_find?_eq_some found)
    rw [chosen]
    refine ⟨lastSpan, memory, .inl ⟨⟨k, hk⟩, hstate, hheld, rfl, ?_, ?_⟩⟩
    · rw [getF_setF_other _ _ _ (by simp) (by simp) (by simp) _ (.inr (.inr (by simp))),
        getF_setF_same _ _ (by simp) (by simp)]
      rfl
    · rw [getF_setF_same _ _ (by simp) (by simp)]
      exact Nat.mod_mod _ _
  | none =>
    have chosen : chooseSlot s n = setF (bump (slotLeave spanned n) R.XR_NO_SLOT_COUNT) F.XR_STATUS_NO_SLOT 1 := by
      unfold chooseSlot
      dsimp only
      split
      · next e => exact nomatch e.symm.trans found
      · rfl
    rw [chosen]
    refine ⟨lastSpan, memory, .inr ⟨fun k => ?_, getF_setF_same _ _ (by decide) (by decide) 1⟩⟩
    have shut : ¬ slotOpen s k = true := List.find?_eq_none.1 found k ((mem_slotOrder s k).2 k.isLt)
    by_cases held : flag s (F.XR_SLOT_HELD k) = true
    · exact .inr (getF_bit_of_flag rfl held)
    · have unheld : getF s (F.XR_SLOT_HELD k) = 0 := of_not_not (mt (flag_iff s _).2 held)
      exact .inl (not_or.1 fun hc => shut ((slotOpen_iff s k).2 ⟨hc, unheld⟩))

/-! ## The enable (R169) -/

theorem setXrEnable_completes (s : State) (enable : Bool) :
    getF (setXrEnable s enable) F.XR_CTRL_EN = ofBool enable ∧
      (enable = true → getF (setXrEnable s enable) F.XR_STATUS_RUNNING = 1 ∧ (setXrEnable s enable).xr.stopAt = none) ∧
      (enable = false → flag s F.XR_CTRL_EN = true → (setXrEnable s enable).xr.stopAt = some (nextTick s)) ∧
      RegsSameBut [R.XR_CTRL, R.XR_STATUS] s (setXrEnable s enable) ∧ MemorySame s (setXrEnable s enable) := by
  have ctrl {a : Nat} (ha : a ∉ [R.XR_CTRL, R.XR_STATUS]) (v : Nat) : rd (setF s F.XR_CTRL_EN v) a = rd s a :=
    rd_setF_ne s _ v (List.ne_of_not_mem_cons ha)
  have status {a : Nat} (ha : a ∉ [R.XR_CTRL, R.XR_STATUS]) (t : State) : rd (setF t F.XR_STATUS_RUNNING 1) a = rd t a :=
    rd_setF_ne t _ 1 (List.ne_of_not_mem_cons (List.not_mem_of_not_mem_cons ha))
  refine ⟨getF_setXrEnable s enable, ?_⟩
  cases enable with
  | true =>
    exact ⟨fun _ => ⟨getF_setF_same _ _ (by decide) (by decide) 1, rfl⟩, nofun, fun a ha => (status ha _).trans (ctrl ha 1),
      fun _ => rfl, rfl⟩
  | false =>
    unfold setXrEnable
    dsimp only
    rw [if_neg Bool.false_ne_true]
    refine ⟨nofun, fun _ was => ?_, ?_⟩
    · rw [if_pos was]
      rfl
    · split <;> exact ⟨fun a ha => ctrl ha 0, fun _ => rfl, rfl⟩

end Sys2Proof.Machine
namespace Sys2Proof
open Machine

/-- Settles O9: each command is served on a block that is up, and what its rule names follows from the lemma about it. -/
theorem exchangeCommandsComplete : Obligations.ExchangeCommandsComplete := by
  unfold Obligations.ExchangeCommandsComplete
  refine ⟨fun s k time p rest hup hqueue => ?_,
    fun s n f now hup hlink hheader htype hlength heof hallowed hruns hok hdst hnew hnow hearly hlate => ?_,
    fun s f hup hdue => ?_,
    fun s k time n hup hdelay htime hen hsplit hload hfind => ?_,
    fun s bits hup => ?_, fun s k hup hwiden => linkWiden_completes hup hwiden,
    fun s hup hrun hpower hspan => ?_, fun s enable hup => ?_⟩
  · exact completes_run (f := fun s => queueHead (advanceTo s time) k) rfl hup (queueHead_completes hqueue time)
  · refine completes_run (f := fun s => receive s n 2 f fun s =>
      xchReceive (countPayloadCv s n f) (getF s (F.LANE_USE_LINK n)) f false beamEnter) rfl hup ?_
    exact xchFrameReceived_completes hlink hheader htype hlength heof hallowed hruns hok hdst hnew (hnow ▸ hearly)
      (hnow ▸ hlate) n.isLt
  · exact completes_run (f := (exchangeFixAll · f)) rfl hup (exchangeFixAll_completes hdue)
  · exact linkNarrowDelayExpiry_completes hup hdelay htime hen hsplit hload hfind
  · exact completes_run (f := (setWiden · bits.toNat)) rfl hup (setWiden_completes s bits)
  · refine completes_run rfl hup ?_
    rw [if_pos ⟨hrun, hpower, hspan⟩]
    exact chooseSlot_completes s _
  · exact completes_run (f := (setXrEnable · enable)) rfl hup (setXrEnable_completes s enable)

end Sys2Proof
end

section
/-! What the correlator's map, patrol, channels and causeways leave alone (R171, R172, R181 to R184, R187). -/
namespace Sys2Proof.Machine

namespace Stands

variable {K : Set Nat} {s t u : State}

/-! ## Tiles, map and patrol (R172, R187 to R191) -/

section patrol
variable (hK : K ⊆ Set.Iio 0x900060)
include hK

theorem setTile (h : Stands K s t) (i st unit : Nat) : Stands K s (setTile t i st unit) :=
  (h.setF (notMem_of_bound_add hK (by decide)) st).setF (notMem_of_bound_add hK (by decide)) unit

theorem setPool (h : Stands K s t) (pool : List Nat) : Stands K s (setPool t pool) :=
  (h.setCor (f := fun c => { c with pool := pool })).setF (notMem_of_bound hK (by decide)) _

theorem giveUnit (h : Stands K s t) (i e span c : Nat) : Stands K s (giveUnit t i e span c) :=
  (((h.setTile hK i 2 e).setR (notMem_of_bound_add hK (by decide)) _).setR (notMem_of_bound_add hK (by decide)) _).setR
    (notMem_of_bound_add hK (by decide)) _

theorem testNext (h : Stands K s t) : Stands K s (testNext t) := by
  unfold Machine.testNext
  refine ite h ?_
  split
  · exact (h.setCor.setTile hK _ 3 0).setF (notMem_of_bound hK (by decide)) _
  · exact h

end patrol

theorem haltShow (hK : K ⊆ Set.Iio 0x1800000) (hc : R.COR_STATUS ∉ K) (h : Stands K s t) : Stands K s (haltShow t) :=
  (h.setF (f := F.COR_STATUS_PATROL_HALT) hc _).refreshLevels hK

/-- A move of patrol changes its own counts and tiles, and shows PATROL_HALT at its end or not. -/
theorem patrolMove_cases (s : State) (span c : Nat) : ∃ u, Stands (Set.Iio 0x900060) s u ∧
    (patrolMove s span c = u ∨ patrolMove s span c = Machine.haltShow u) := by
  have hK : Set.Iio 0x900060 ⊆ Set.Iio 0x900060 := subset_rfl
  unfold patrolMove
  extract_lets en noted tested
  have h1 : Stands (Set.Iio 0x900060) s noted := (Stands.refl s).setCor
  have h2 : Stands (Set.Iio 0x900060) s tested := ite (h1.testNext hK) h1
  split
  · exact ⟨_, h2, .inl rfl⟩
  split
  · exact ⟨_, h2.bump (notMem_of_bound hK (by decide)), .inl rfl⟩
  split
  · exact ⟨_, h2, .inl rfl⟩
  · refine ⟨_, ?_, .inr rfl⟩
    refine Stands.testNext hK (Stands.bump ?_ (notMem_of_bound hK (by decide)))
    refine Stands.setF (Stands.setCor ?_) (notMem_of_bound hK (by decide)) _
    exact ((h2.setPool hK _).giveUnit hK ..).setTile hK ..

section channels
variable (hK : K ⊆ Set.Iio 0x900004)
include hK

theorem buildMap (h : Stands K s t) (cal8 : Bool) (span : Nat) : Stands K s (buildMap t cal8 span) := by
  have hK' : K ⊆ Set.Iio 0x900060 := bound_mono hK (by decide)
  have status : R.COR_STATUS ∉ K := notMem_of_bound hK (by decide)
  unfold Machine.buildMap
  extract_lets usable units used cleared pooled given mapped next halted
  have h1 : Stands K s used := (h.setF (notMem_of_bound hK (by decide)) _).setF (notMem_of_bound hK (by decide)) _
  have h2 : Stands K s cleared := h1.foldl fun _ _ _ h => h.setR (notMem_of_bound_add hK (by decide)) _
  have h3 : Stands K s pooled := h2.foldl fun _ _ _ h => h.setTile hK' ..
  have h4 : Stands K s given := h3.foldl fun _ _ _ h => h.giveUnit hK' ..
  have h5 : Stands K s mapped := h4.setCor.setPool hK' _
  have h6 : Stands K s next := h5.setF (notMem_of_bound hK (by decide)) _
  have h7 : Stands K s halted := h6.haltShow (bound_mono hK (by decide)) status
  exact ite ((h7.setF (f := F.COR_STATUS_UNIT_LOST) status 1).fault (bound_mono hK (by decide)) 5) h7

theorem corOverrun (h : Stands K s t) (span c : Nat) : Stands K s (corOverrun t span c) :=
  ((((((h.bumpBy (a := R.COR_SKIP_COUNT) (notMem_of_bound hK (by decide)) _).skipFrom (bound_mono hK (by decide))
    (notMem_of_bound hK (by decide)) span c 1).bump (a := R.COR_OVERRUN_COUNT) (notMem_of_bound hK (by decide))).setF
    (f := F.COR_STATUS_OVERRUN) (notMem_of_bound hK (by decide)) 1).setF (f := F.COR_SLACK_TIME)
    (notMem_of_bound hK (by decide)) 0).raise 27).fault (bound_mono hK (by decide)) 13

/-- The end of a drain, whose channel is folded before patrol moves. -/
theorem drainEnd (h : Stands K s t) (span : Nat) : Stands K s (drainEnd t span) := by
  unfold Machine.drainEnd
  extract_lets c cal8 per lost counted dur timed folded
  have h1 : Stands K s counted := h.bumpBy (notMem_of_bound hK (by decide)) _
  have h2 : Stands K s timed := (h1.setF (notMem_of_bound hK (by decide)) _).setF (notMem_of_bound hK (by decide)) _
  have h3 : Stands K s folded := h2.foldChannel (bound_mono hK (by decide)) ..
  obtain ⟨u, hu, e | e⟩ := patrolMove_cases folded span c
  · exact e ▸ h3.trans (hu.mono (bound_mono hK (by decide)))
  · exact e ▸ (h3.trans (hu.mono (bound_mono hK (by decide)))).haltShow (bound_mono hK (by decide))
      (notMem_of_bound hK (by decide))

end channels

/-! ## The causeways (R171, R184) -/

section causeways
variable (hc : R.COR_UE_COUNT ∉ K)
include hc

theorem causewayCut (h : Stands K s t) (span fr k line : Nat) : Stands K s (causewayCut t span fr k line) :=
  ((h.setCor).setXr).bump hc

variable (hK : K ⊆ Set.Iio 0x1100000)
include hK

theorem causewayRead (h : Stands K s t) (slot span fr k line : Nat) :
    Stands K s (causewayRead t slot span fr k line) := by
  have fetched := h.unitFetch hK 3 (causewayLine t slot span fr k line) 64
  unfold Machine.causewayRead
  refine ite h ?_
  split
  · next e => exact of_fst e fetched
  · next e => exact (of_fst e fetched).causewayCut hc ..

theorem causewayReads (h : Stands K s t) (slot span : Nat) : Stands K s (causewayReads t slot span) := by
  unfold Machine.causewayReads
  dsimp only
  split
  · exact (h.served hK ..).foldl fun _ _ _ h => h.causewayRead hc hK ..
  · exact h.foldl fun _ _ _ h => h.causewayRead hc hK ..

end causeways

end Stands

/-- PATROL_HALT is shown beside the channel in work. -/
theorem haltShow_channel (s : State) : getF (haltShow s) F.COR_STATUS_CHANNEL = getF s F.COR_STATUS_CHANNEL := by
  unfold haltShow
  rw [((Stands.refl _).refreshLevels (K := {R.COR_STATUS}) (Set.singleton_subset_iff.2 (by decide : R.COR_STATUS < 0x1800000))).getF
    (f := F.COR_STATUS_CHANNEL) rfl]
  exact getF_setF_other _ _ _ (by decide) (by decide) (by decide) _ (by decide)

/-- The channel in work stays shown through the end of its drain. -/
theorem drainEnd_channel (s : State) (span : Nat) :
    getF (drainEnd s span) F.COR_STATUS_CHANNEL = getF s F.COR_STATUS_CHANNEL := by
  have mem : R.COR_STATUS ∈ Set.Iio 0x900060 := (by decide : R.COR_STATUS < 0x900060)
  unfold drainEnd
  extract_lets c cal8 per lost counted dur timed folded
  have kept : Stands {R.COR_STATUS} s folded := by
    have hK : {R.COR_STATUS} ⊆ Set.Iio (0x900008 : Nat) := Set.singleton_subset_iff.2 (by decide : R.COR_STATUS < 0x900008)
    exact ((((Stands.refl s).bumpBy (notMem_of_bound hK (by decide)) _).setF (notMem_of_bound hK (by decide)) _).setF
      (notMem_of_bound hK (by decide)) _).foldChannel (bound_mono hK (by decide)) ..
  rw [← kept.getF (f := F.COR_STATUS_CHANNEL) rfl]
  obtain ⟨u, hu, e | e⟩ := Stands.patrolMove_cases folded span c
  · rw [e, hu.getF mem]
  · rw [e, haltShow_channel, hu.getF mem]

end Sys2Proof.Machine
end

section
/-! The phases of a channel: its computation, flush and drain, and the reads that fail in it (R171 to R184). -/
namespace Sys2Proof.Machine

/-- The phase that is shown is the one last taken. -/
theorem corPhase_setF (s : State) {p : Nat} (hp : p < 4) : corPhase (setF s F.COR_STATUS_PHASE p) = p :=
  (getF_setF_same _ _ (by decide) (by decide) p).trans (Nat.mod_eq_of_lt hp)

/-! ## The words of the units (R173 to R176) -/

/-- Each of the units has its value, and no other. -/
theorem find_foldl_put {α : Type} (g : Nat → α) (l : List Nat) (m : SMap α) (e : Nat) :
    (l.foldl (fun m k => m.put k (g k)) m).find e = if e ∈ l then some (g e) else m.find e := by
  induction l generalizing m with
  | nil => simp
  | cons k l ih =>
    rw [List.foldl_cons, ih, SMap.find_put]
    by_cases ek : e = k
    · simp [ek]
    · simp [ek]

/-- The units that hold words after the channel's computation. -/
def mappedUnits (s : State) : List Nat := (List.range (unitsOf s)).filter fun e => (tileOf s e).isSome

theorem mem_mappedUnits (s : State) (e : Nat) : e ∈ mappedUnits s ↔ e < unitsOf s ∧ (tileOf s e).isSome = true := by
  rw [mappedUnits, List.mem_filter, List.mem_range]

/-- The saturation counts of the tiles, over the accumulators of their units. -/
def countSat (s : State) (acc : SMap UnitAcc) : State :=
  acc.foldl (fun s (e, u) => bumpBy s (R.COR_TILE_SAT_COUNT ((tileOf s e).getD 0)) u.sat) s

/-- The number of a tile has 10 bits. -/
theorem tileOf_lt (s : State) (e : Nat) : (tileOf s e).getD 0 < 1024 := by
  unfold tileOf
  split
  · exact Nat.mod_lt _ (Nat.two_pow_pos 10)
  · exact Nat.two_pow_pos 10

theorem countSat_field {β : Type} (g : State → β) (hg : ∀ t i n, i < 1024 → g (bumpBy t (R.COR_TILE_SAT_COUNT i) n) = g t)
    (s : State) (acc : SMap UnitAcc) : g (countSat s acc) = g s := by
  refine foldl_field g (fun t x => ?_) acc s
  obtain ⟨e, u⟩ := x
  dsimp only
  have lt := tileOf_lt t e
  generalize (tileOf t e).getD 0 = i at lt
  exact hg t i u.sat lt

/-! ## The causeways' reads (R171, R184) -/

theorem badLinesIn_nil {s : State} (h : s.badWords = []) (a n : Nat) : badLinesIn s a n = [] := by
  rw [badLinesIn, h]
  rfl

/-- A request that is served changes no register and no byte where no subchannel is in self-refresh. -/
theorem served_eq {s : State} (h : ∀ u : Fin 16, getF s (F.MEM_STATE_SR u) ≠ 2) (req a n : Nat) :
    served s req a n = setMem s fun m => { m with promoted := m.promoted.filter (· != req) } := by
  have none : ((List.range 16).any fun u => getF s (F.MEM_STATE_SR u) == 2) = false := by
    simpa using fun u hu => h ⟨u, hu⟩
  exact if_neg (by rw [Bool.not_eq_true]; exact none)

/-- The channel's reads meet no error and no self-refresh: they change hidden fields of the memory only. -/
theorem causewayReads_served {s : State} (slot span : Nat) (hbad : s.badWords = []) (husable : dramUsable s = true)
    (hself : ∀ u : Fin 16, getF s (F.MEM_STATE_SR u) ≠ 2)
    (hguard : guardOk s 3 (causewayLine s slot span 0 0 0) (spanLen s * 256 * 4096) false = true) :
    causewayReads s slot span = setMem s fun m => { m with promoted := m.promoted.filter (· != 3) } := by
  unfold causewayReads
  dsimp only
  rw [if_pos (by rw [husable, hguard]; rfl), badLinesIn_nil hbad]
  exact served_eq hself ..

/-- What the reads of a channel leave alone. -/
def readKept : Set Nat := {a | a < 0x1100000 ∧ a ≠ R.COR_UE_COUNT}

theorem readKept_bound : readKept ⊆ Set.Iio 0x1100000 := fun _ h => h.1

theorem causewayReads_stands (s : State) (slot span : Nat) : Stands readKept s (causewayReads s slot span) :=
  (Stands.refl s).causewayReads (fun h => h.2 rfl) readKept_bound slot span

theorem causewayReads_tileOf (s : State) (slot span : Nat) {e : Nat} (he : e < 1024) :
    tileOf (causewayReads s slot span) e = tileOf s e := by
  have h := causewayReads_stands s slot span
  have map : R.COR_MAP e ∈ readKept := by
    constructor
    · simp only [R.COR_MAP]; omega
    · simp only [R.COR_MAP, R.COR_UE_COUNT]; omega
  unfold tileOf
  rw [h.flag (f := F.COR_MAP_IN_USE e) map, h.flag (f := F.COR_MAP_LOST e) map, h.getF (f := F.COR_MAP_TILE e) map]

/-! ## COMPUTE_COMPLETE -/

/-- The accumulators of the channel, computed after its reads. -/
def channelAcc (s : State) (cal8 : Bool) (slot span c : Nat) : SMap UnitAcc :=
  (mappedUnits s).foldl (fun m e => m.put e (unitWords s cal8 slot span c e)) []

/-- The channel's computation ends on the state that its reads leave. -/
def computeEnd (s : State) (cal8 : Bool) (span : Nat) (acc : SMap UnitAcc) : State :=
  let sat := ((acc.filter fun u => 0 < u.2.sat).map fun u => u.1 / (if cal8 then 4 else 1)).eraseDups
  let valid := (List.range (spanLen s)).map fun t => s.xr.valid.get 0 (spanStart s span + t)
  setF (setCor (bumpBy (countSat s acc) R.COR_SAT_COUNT sat.length) fun x => { x with acc := acc, valid := valid, sat := sat })
    F.COR_STATUS_PHASE 2

theorem computeEnd_completes (s : State) (cal8 : Bool) (span : Nat) (acc : SMap UnitAcc) :
    corPhase (computeEnd s cal8 span acc) = 2 ∧ (computeEnd s cal8 span acc).cor.acc = acc ∧
      RegsSameBut ([R.COR_STATUS, R.COR_SAT_COUNT] ++ (List.range 1024).map R.COR_TILE_SAT_COUNT) s
        (computeEnd s cal8 span acc) ∧ MemorySame s (computeEnd s cal8 span acc) := by
  have dram : (countSat s acc).dram = s.dram := countSat_field State.dram (fun _ _ _ _ => rfl) s acc
  have arrays : (countSat s acc).arrays = s.arrays := countSat_field State.arrays (fun _ _ _ _ => rfl) s acc
  refine ⟨corPhase_setF _ (by decide), rfl, fun a ha => ?_, fun a => congrArg (readByte · a) dram, arrays⟩
  obtain ⟨hlist, htile⟩ := not_or.1 (mt List.mem_append.2 ha)
  have status := List.ne_of_not_mem_cons hlist
  have sat := List.ne_of_not_mem_cons (List.not_mem_of_not_mem_cons hlist)
  have counts : rd (countSat s acc) a = rd s a := countSat_field (rd · a) (fun t i n hi =>
    have tile : a ≠ R.COR_TILE_SAT_COUNT i := fun e => htile (List.mem_map.2 ⟨i, List.mem_range.2 hi, e.symm⟩)
    (rd_bumpBy ..).trans (if_neg tile)) s acc
  calc rd (computeEnd s cal8 span acc) a = rd (bumpBy (countSat s acc) R.COR_SAT_COUNT _) a := rd_setF_ne _ _ 2 status
    _ = rd (countSat s acc) a := (rd_bumpBy ..).trans (if_neg sat)
    _ = rd s a := counts

theorem computeComplete_completes {s : State} {span : Nat} (hup : Up s) (hspan : s.cor.span = some span)
    (hphase : corPhase s = 1) : Completes .computeComplete s fun t =>
      corPhase t = 2 ∧ (∀ e, e < unitsOf s → (tileOf s e).isSome = true → (t.cor.acc.find e).isSome = true) ∧
      (∀ e, e < unitsOf s → (tileOf s e).isSome = false → t.cor.acc.find e = none) ∧
      (s.badWords = [] → dramUsable s = true → (∀ u : Fin 16, getF s (F.MEM_STATE_SR u) ≠ 2) →
        guardOk s 3 (causewayLine s ((slotOf s span).getD 0) span 0 0 0) (spanLen s * 256 * 4096) false = true →
        RegsSameBut ([R.COR_STATUS, R.COR_SAT_COUNT] ++ (List.range 1024).map R.COR_TILE_SAT_COUNT) s t ∧
          MemorySame s t) := by
  refine completes_run (show execComputeComplete s = run _ s from rfl) hup ?_
  dsimp only
  rw [hspan]
  dsimp only
  rw [if_neg (not_not.2 hphase)]
  generalize hslot : (slotOf s span).getD 0 = slot
  generalize hreads : causewayReads s slot span = u
  set cal8 := flag s F.COR_STATUS_MODE8
  set c := getF s F.COR_STATUS_CHANNEL
  have stands : Stands readKept s u := hreads ▸ causewayReads_stands s slot span
  have units : unitsOf u = unitsOf s := stands.getF (by constructor <;> decide)
  have tile {e : Nat} (he : e < unitsOf s) : tileOf u e = tileOf s e :=
    hreads ▸ causewayReads_tileOf s slot span (he.trans (Nat.mod_lt _ (by decide)))
  obtain ⟨hdone, hacc, hregs, hmemory⟩ := computeEnd_completes u cal8 span (channelAcc u cal8 slot span c)
  have held (e : Nat) : (computeEnd u cal8 span (channelAcc u cal8 slot span c)).cor.acc.find e =
      if e ∈ mappedUnits u then some (unitWords u cal8 slot span c e) else none := by
    rw [hacc, channelAcc, find_foldl_put]
    rfl
  refine ⟨hdone, fun e he htile => ?_, fun e he htile => ?_, fun hbad husable hself hguard => ?_⟩
  · refine (congrArg Option.isSome ((held e).trans (if_pos ?_))).trans rfl
    exact (mem_mappedUnits u e).2 ⟨units ▸ he, by rw [tile he, htile]⟩
  · refine (held e).trans (if_neg fun hc => ?_)
    rw [mem_mappedUnits, tile he, htile] at hc
    exact Bool.false_ne_true hc.2
  · have same : u = setMem s fun m => { m with promoted := m.promoted.filter (· != 3) } :=
      hreads ▸ causewayReads_served slot span hbad husable hself hguard
    obtain ⟨hdram, harrays⟩ := hmemory
    refine ⟨fun a ha => (hregs a ha).trans ?_, fun a => (hdram a).trans ?_, harrays.trans ?_⟩ <;> rw [same] <;> rfl

/-! ## FLUSH_COMPLETE -/

theorem flushComplete_completes {s : State} (time : Nat) (hup : Up s) (hphase : corPhase s = 2) :
    Completes (.flushComplete time) s fun t => corPhase t = 3 ∧ RegsSameBut [R.COR_STATUS] s t ∧ MemorySame s t := by
  obtain ⟨counter, hadv⟩ := advanceTo_eq s time
  refine completes_run (show execFlushComplete time s = run _ s from rfl) hup ?_
  dsimp only
  rw [hadv, if_pos (show corPhase { s with counter } = 2 from hphase)]
  exact ⟨corPhase_setF _ (by decide), fun a ha => rd_setF_ne _ _ 3 (List.ne_of_not_mem_cons ha), fun _ => rfl, rfl⟩

/-! ## DRAIN_COMPLETE -/

theorem corIdle_completes (s : State) : corPhase (corIdle s) = 0 ∧ (corIdle s).cor.span = none :=
  ⟨corPhase_setF s (by decide), rfl⟩

theorem corCompute_completes (s : State) {c : Nat} (hc : c < 64) :
    corPhase (corCompute s c) = 1 ∧ getF (corCompute s c) F.COR_STATUS_CHANNEL = c ∧
      (corCompute s c).cor.span = s.cor.span := by
  refine ⟨?_, (getF_setF_same _ _ (by decide) (by decide) c).trans (Nat.mod_eq_of_lt hc), rfl⟩
  exact (getF_setF_other _ _ _ (by decide) (by decide) (by decide) c (by decide)).trans (corPhase_setF s (by decide))

theorem drainComplete_completes {s : State} {span : Nat} (time : Nat) (hup : Up s) (hspan : s.cor.span = some span)
    (hphase : corPhase s = 3) (hclosed : s.cor.closed = false) (habort : s.cor.abortDue = false) :
    Completes (.drainComplete time) s fun t =>
      (getF s F.COR_STATUS_CHANNEL < 63 →
        corPhase t = 1 ∧ getF t F.COR_STATUS_CHANNEL = getF s F.COR_STATUS_CHANNEL + 1 ∧ t.cor.span = some span) ∧
      (getF s F.COR_STATUS_CHANNEL = 63 → corPhase t = 0 ∧ t.cor.span = none) := by
  obtain ⟨counter, hadv⟩ := advanceTo_eq s time
  refine completes_run (show execDrainComplete time s = run _ s from rfl) hup ?_
  dsimp only
  rw [hadv]
  dsimp only
  rw [hspan]
  dsimp only
  rw [if_neg (not_not.2 (show corPhase { s with counter } = 3 from hphase))]
  have ended : Stands ∅ { s with counter } (drainEnd { s with counter } span) :=
    (Stands.refl _).drainEnd (Set.empty_subset _) span
  have channel : getF (drainEnd { s with counter } span) F.COR_STATUS_CHANNEL = getF s F.COR_STATUS_CHANNEL :=
    drainEnd_channel _ span
  generalize drainEnd { s with counter } span = u at ended channel ⊢
  obtain ⟨hspan', -, -, -, hclosed', habort'⟩ : u.cor.span = s.cor.span ∧ u.cor.waiting = s.cor.waiting ∧
      u.cor.last = s.cor.last ∧ u.cor.lastClosed = s.cor.lastClosed ∧ u.cor.closed = s.cor.closed ∧
      u.cor.abortDue = s.cor.abortDue := by simpa [Cor.place] using ended.place
  rw [channel, if_neg (by rw [hclosed', hclosed]; decide)]
  refine ⟨fun hc => ?_, fun hc => ?_⟩
  · rw [if_neg hc.ne, if_neg (by rw [habort', habort]; decide)]
    obtain ⟨h1, h2, h3⟩ := corCompute_completes u (Nat.succ_lt_succ hc)
    exact ⟨h1, h2, h3.trans (hspan'.trans hspan)⟩
  · rw [if_pos hc]
    exact corIdle_completes _

/-! ## CAUSEWAY_READ_UE -/

/-- The bits of a mask are clear where the masked ones are taken away. -/
theorem testBit_sub_and (n mask i : Nat) (h : mask.testBit i = true) : (n - (n &&& mask)).testBit i = false := by
  have odd (a b : Nat) : (a &&& b) % 2 = 1 ↔ a % 2 = 1 ∧ b % 2 = 1 := by simp
  induction i generalizing n mask with
  | zero =>
    rw [Nat.testBit_zero, decide_eq_true_eq] at h
    rw [Nat.testBit_zero, decide_eq_false_iff_not]
    have := odd n mask
    have : n &&& mask ≤ n := Nat.and_le_left
    omega
  | succ i ih =>
    have half : (n - (n &&& mask)) / 2 = n / 2 - (n / 2 &&& mask / 2) := by
      have := odd n mask
      have : (n &&& mask) / 2 = n / 2 &&& mask / 2 := Nat.and_div_two
      omega
    rw [Nat.testBit_succ] at h ⊢
    rw [half]
    exact ih _ _ h

/-- The mask of a line's signals. -/
theorem testBit_lineMask {wide j : Nat} (line : Nat) (hj : j < wide) :
    ((2 ^ wide - 1) * 2 ^ (wide * line)).testBit (wide * line + j) = true := by
  simp [Nat.testBit_mul_two_pow, hj]

/-- The read of a line fails: it counts, and the line's signals are clear in the validity record. -/
theorem causewayCut_completes {s : State} (span fr k : Nat) {line j : Nat} (hj : j < 64)
    (hmode : flag s F.COR_STATUS_MODE8 = false) :
    (rd (causewayCut s span fr k line) R.COR_UE_COUNT).toNat = min ((rd s R.COR_UE_COUNT).toNat + 1) 0xFFFFFFFF ∧
      ((causewayCut s span fr k line).xr.valid.get 0 (spanStart s span + fr)).testBit (64 * line + j) = false := by
  unfold causewayCut
  extract_lets wide mask f bits cut
  have hwide : wide = 64 := by
    unfold wide
    rw [hmode]
    rfl
  refine ⟨toNat_rd_bump_of_word rfl, ?_⟩
  have masked : mask.testBit (64 * line + j) = true := by
    unfold mask
    rw [hwide]
    exact testBit_lineMask line hj
  rw [bump_xr, setXr_self]
  dsimp only
  rw [SMap.get_put_same]
  exact testBit_sub_and bits mask _ masked

/-- The memory's reports of a failed read leave alone what its cut looks at. -/
def lineReports (s : State) (slot span fr k line : Nat) : State :=
  (badLinesIn s (causewayLine s slot span fr k line) 64).foldl (fun s l => lineReport s 3 l) s

theorem lineReports_stands (s : State) (slot span fr k line : Nat) :
    Stands (Set.Iio 0x1100000) s (lineReports s slot span fr k line) :=
  (Stands.refl s).foldl fun _ _ _ h => h.lineReport subset_rfl ..

theorem lineReports_nil {s : State} (h : s.badWords = []) (slot span fr k line : Nat) :
    lineReports s slot span fr k line = s := by
  rw [lineReports, badLinesIn_nil h]
  rfl

/-- The cut of a failed read's line after the memory has reported it, where it had something to report. -/
theorem causewayCut_reported {s u : State} {fr span : Nat} (k line : Nat) (hmode : flag s F.COR_STATUS_MODE8 = false)
    (hu : Stands (Set.Iio 0x1100000) s u) (quiet : s.badWords = [] → u = s) :
    (rd (causewayCut u span fr k line) R.COR_UE_COUNT).toNat = min ((rd s R.COR_UE_COUNT).toNat + 1) 0xFFFFFFFF ∧
      (∀ j : Fin 64,
        ((causewayCut u span fr k line).xr.valid.get 0 (spanStart s span + fr)).testBit (64 * line + j.val) = false) ∧
      (s.badWords = [] →
        RegsSameBut [R.COR_UE_COUNT] s (causewayCut u span fr k line) ∧ MemorySame s (causewayCut u span fr k line)) := by
  have mode : flag u F.COR_STATUS_MODE8 = false := by
    rw [hu.flag (show F.COR_STATUS_MODE8.addr < 0x1100000 by decide), hmode]
  have start : spanStart u span = spanStart s span := by
    rw [spanStart, spanLen, hu.getF (show F.INT_CONFIG_SPAN_FRAMES.addr < 0x1100000 by decide), spanStart, spanLen]
  have cut {j : Nat} (hj : j < 64) := causewayCut_completes span fr k (line := line) hj mode
  refine ⟨?_, fun j => ?_, fun hbad => ?_⟩
  · rw [(cut (j := 0) (by decide)).1, hu.word _ (show R.COR_UE_COUNT < 0x1100000 by decide)]
  · rw [← start]
    exact (cut j.isLt).2
  · rw [quiet hbad]
    exact ⟨fun a ha => (rd_bumpBy ..).trans (if_neg (List.ne_of_not_mem_cons ha)), fun _ => rfl, rfl⟩

theorem causewayReadUe_completes {s : State} {fr span : Nat} (k : Fin 256) (line : Fin 64) (hup : Up s)
    (hspan : s.cor.span = some span) (hphase : corPhase s = 1) (hfr : fr < spanLen s)
    (hmode : flag s F.COR_STATUS_MODE8 = false) : Completes (.causewayReadUe fr k line) s fun t =>
      (rd t R.COR_UE_COUNT).toNat = min ((rd s R.COR_UE_COUNT).toNat + 1) 0xFFFFFFFF ∧
      (∀ j : Fin 64, (t.xr.valid.get 0 (spanStart s span + fr)).testBit (64 * line.val + j.val) = false) ∧
      (s.badWords = [] → RegsSameBut [R.COR_UE_COUNT] s t ∧ MemorySame s t) := by
  refine completes_run (show execCausewayReadUe fr k line s = run _ s from rfl) hup ?_
  dsimp only
  rw [hspan]
  dsimp only
  rw [if_pos ⟨hphase, hfr⟩]
  cases slotOf s span with
  | some slot => exact causewayCut_reported k line hmode (lineReports_stands s slot span fr k line) (lineReports_nil · ..)
  | none => exact causewayCut_reported k line hmode (.refl s) fun _ => rfl

end Sys2Proof.Machine
end

section
/-! The correlation window of a span: the state of its slot, and where the correlator stands (R163, R177, R178, R182, R185). -/
namespace Sys2Proof.Machine

/-! ## What the correlator's work on spans leaves of the slots -/

/-- The registers below the correlator's, among them the slots', the crossroads' core, and which window closed last. -/
structure SlotsKept (s t : State) : Prop where
  word : ∀ a < 0x900000, rd t a = rd s a
  core : t.xr.core = s.xr.core
  lastClosed : t.cor.lastClosed = s.cor.lastClosed

namespace SlotsKept

variable {s t u : State}

theorem refl (s : State) : SlotsKept s s := ⟨fun _ _ => rfl, rfl, rfl⟩

theorem stands (h : SlotsKept s t) (h' : Stands (Set.Iio 0x900000) t u) : SlotsKept s u where
  word a ha := (h'.word a ha).trans (h.word a ha)
  core := h'.core.trans h.core
  lastClosed := by
    have : u.cor.lastClosed = t.cor.lastClosed := congrArg (fun p => p.2.2.2.1) h'.place
    rw [this, h.lastClosed]

theorem ite {p : Prop} [Decidable p] (ht : SlotsKept s t) (hu : SlotsKept s u) : SlotsKept s (if p then t else u) := by
  split
  · exact ht
  · exact hu

theorem setF (h : SlotsKept s t) {f : Fld} (hf : 0x900000 ≤ f.addr) (v : Nat) : SlotsKept s (setF t f v) :=
  h.stands ((Stands.refl t).setF (notMem_of_bound subset_rfl hf) v)

theorem setCor (h : SlotsKept s t) {f : Cor → Cor} (hf : ∀ c, (f c).lastClosed = c.lastClosed := by intro _; rfl) :
    SlotsKept s (setCor t f) := ⟨h.word, h.core, (hf _).trans h.lastClosed⟩

theorem foldingEnd (h : SlotsKept s t) (span : Nat) : SlotsKept s (foldingEnd t span) :=
  h.stands ((Stands.refl t).foldingEnd (Set.Iio_subset_Iio (by decide)) span)

theorem corOverrun (h : SlotsKept s t) (span c : Nat) : SlotsKept s (corOverrun t span c) :=
  h.stands ((Stands.refl t).corOverrun (Set.Iio_subset_Iio (by decide)) span c)

theorem corIdle (h : SlotsKept s t) : SlotsKept s (corIdle t) :=
  (h.setF (f := F.COR_STATUS_PHASE) (by decide) 0).setCor

theorem corCompute (h : SlotsKept s t) (c : Nat) : SlotsKept s (corCompute t c) :=
  ((h.setF (f := F.COR_STATUS_PHASE) (by decide) 1).setF (f := F.COR_STATUS_CHANNEL) (by decide) c).setCor

theorem corStart (h : SlotsKept s t) (span : Nat) : SlotsKept s (corStart t span) := by
  unfold Machine.corStart
  extract_lets cal8 named mode mapped
  have h1 : SlotsKept s named := (h.setCor (f := fun c => { c with last := some span, waiting := none })).stands
    ((Stands.refl _).setPair (notMem_of_bound subset_rfl (by decide)) (notMem_of_bound subset_rfl (by decide)) _)
  have h2 : SlotsKept s mode := h1.setF (by decide) _
  have h3 : SlotsKept s mapped := .ite h2 (h2.stands ((Stands.refl _).buildMap (Set.Iio_subset_Iio (by decide)) cal8 span))
  exact h3.setCor.corCompute 0

theorem corNext (h : SlotsKept s t) : SlotsKept s (corNext t) := by
  unfold Machine.corNext
  split
  · exact .ite (h.corStart _) h
  · exact h

theorem corPass (h : SlotsKept s t) (span status : Nat) : SlotsKept s (corPass t span status) := by
  have skipped : SlotsKept s (skipFrom (Machine.setCor t fun c => { c with last := some span }) span 0 status) :=
    h.setCor.stands ((Stands.refl _).skipFrom (Set.Iio_subset_Iio (by decide)) (notMem_of_bound subset_rfl (by decide)) ..)
  exact skipped.foldingEnd span

theorem getF (h : SlotsKept s t) {k : Nat} (hk : k < 4) {f : Fld} (hf : f.addr = R.XR_SLOT k) : getF t f = Machine.getF s f := by
  rw [Machine.getF, h.word _ (by rw [hf]; simp only [R.XR_SLOT]; omega), Machine.getF]

theorem slotSpan (h : SlotsKept s t) : t.xr.slotSpan = s.xr.slotSpan := by
  simpa [Xr.core] using congrArg Xr.slotSpan h.core

theorem former (h : SlotsKept s t) : t.xr.former = s.xr.former := by
  simpa [Xr.core] using congrArg Xr.former h.core

theorem spanSlots (h : SlotsKept s t) (n : Nat) : spanSlots t n = Machine.spanSlots s n :=
  List.filter_congr fun k hk => by rw [h.slotSpan, h.former, h.getF (List.mem_range.1 hk) rfl]

end SlotsKept

/-! ## The slots of a span (R163) -/

theorem mem_spanSlots {s : State} {n k : Nat} : k ∈ spanSlots s n ↔ k < 4 ∧
    (s.xr.slotSpan.find k = some n ∨ s.xr.former.find k = some n) ∧ getF s (F.XR_SLOT_STATE k) ≠ 0 := by
  simp [spanSlots]

theorem slotOf_some {s : State} {n k : Nat} (h : slotOf s n = some k) :
    k < 4 ∧ s.xr.slotSpan.find k = some n ∧ getF s (F.XR_SLOT_STATE k) ≠ 0 := by
  have held := List.find?_some h
  simp only [Bool.and_eq_true, beq_iff_eq, bne_iff_ne] at held
  exact ⟨List.mem_range.1 (List.mem_of_find?_eq_some h), held⟩

theorem mem_spanSlots_of_slotOf {s : State} {n k : Nat} (h : slotOf s n = some k) : k ∈ spanSlots s n := by
  obtain ⟨hk, hspan, hstate⟩ := slotOf_some h
  exact mem_spanSlots.2 ⟨hk, .inl hspan, hstate⟩

theorem slotState_setSlotState (s : State) (j k : Nat) {st : Nat} (hst : st < 8) :
    getF (setSlotState s j st) (F.XR_SLOT_STATE k) = if k = j then st else getF s (F.XR_SLOT_STATE k) := by
  split
  · next e =>
    subst e
    exact (getF_setF_same _ _ (by simp) (by simp) st).trans (Nat.mod_eq_of_lt hst)
  · exact getF_setF_other _ _ _ (by simp) (by simp) (by simp) st (.inl (by simp only [R.XR_SLOT]; omega))

/-- The slots take a state. -/
def setSlots (s : State) (l : List Nat) (st : Nat) : State := l.foldl (fun s k => setSlotState s k st) s

theorem slotState_setSlots (s : State) (l : List Nat) (k : Nat) {st : Nat} (hst : st < 8) :
    getF (setSlots s l st) (F.XR_SLOT_STATE k) = if k ∈ l then st else getF s (F.XR_SLOT_STATE k) := by
  induction l generalizing s with
  | nil => simp [setSlots]
  | cons j l ih =>
    refine (ih (setSlotState s j st)).trans ?_
    rw [slotState_setSlotState _ _ _ hst]
    by_cases e : k = j
    · simp [e]
    · simp [e]

theorem setSlots_field {β : Type} (g : State → β) (hg : ∀ t f v, g (setF t f v) = g t) (s : State) (l : List Nat) (st : Nat) :
    g (setSlots s l st) = g s := foldl_field g (fun t _ => hg t _ st) l s

/-! ## CORRELATION_WINDOW_CLOSE (R182) -/

/-- The window's close marks the slots of its span DONE, and changes no other slot. -/
theorem corWindowClose_slots (s : State) (n : Nat) : ∃ u, SlotsKept s u ∧
    SlotsKept (setSlots u (spanSlots s n) 3) (corWindowClose s n) := by
  unfold corWindowClose
  extract_lets c drained ended passed folded
  have h1 : SlotsKept s ended := by
    unfold ended
    have h := SlotsKept.refl s
    split
    · exact .ite (.ite h.setCor (h.setCor.corOverrun n _)) (h.corOverrun n _).corIdle
    · exact .ite (h.setCor.corOverrun n 0) h
  have h2 : SlotsKept s passed := h1.stands <| (Stands.refl _).foldl fun _ _ _ h =>
    .ite h (.ite h (h.foldChannel (Set.Iio_subset_Iio (by decide : 0x900000 ≤ 0xA00004)) ..))
  have h3 : SlotsKept s folded := .ite h2 (h2.foldingEnd n)
  refine ⟨folded, h3, ?_⟩
  rw [← h3.spanSlots]
  exact (SlotsKept.refl _).corNext

/-- The state of a slot after a window's close. -/
theorem slotState_corWindowClose (s : State) (n : Nat) {k : Nat} (hk : k < 4) :
    getF (corWindowClose s n) (F.XR_SLOT_STATE k) = if k ∈ spanSlots s n then 3 else getF s (F.XR_SLOT_STATE k) := by
  obtain ⟨u, hu, hclose⟩ := corWindowClose_slots s n
  rw [hclose.getF hk rfl, slotState_setSlots _ _ _ (by decide), hu.getF hk rfl]

theorem corWindowClose_fields (s : State) (n : Nat) : (corWindowClose s n).xr.slotSpan = s.xr.slotSpan ∧
    (corWindowClose s n).cor.lastClosed = s.cor.lastClosed := by
  obtain ⟨u, hu, hclose⟩ := corWindowClose_slots s n
  have xr : (setSlots u (spanSlots s n) 3).xr = u.xr := setSlots_field State.xr (fun _ _ _ => rfl) ..
  have cor : (setSlots u (spanSlots s n) 3).cor = u.cor := setSlots_field State.cor (fun _ _ _ => rfl) ..
  exact ⟨by rw [hclose.slotSpan, xr, hu.slotSpan], by rw [hclose.lastClosed, cor, hu.lastClosed]⟩

theorem correlationWindowClose_completes {s : State} {n : Nat} (hup : Up s) (htick : corCloseTick s n ≤ frameOf s)
    (hlast : ∀ l, s.cor.lastClosed = some l → l < n) : Completes (.correlationWindowClose n) s fun t =>
      t.cor.lastClosed = some n ∧ ∀ k : Fin 4, slotOf s n = some k.val → getF t (F.XR_SLOT_STATE k) = 3 := by
  refine completes_run (show execCorrelationWindowClose n s = run _ s from rfl) hup ?_
  rw [if_pos ⟨htick, by simpa [Option.all_eq_true] using hlast⟩]
  refine ⟨(corWindowClose_fields _ n).2, fun k hslot => ?_⟩
  exact (slotState_corWindowClose _ n k.isLt).trans (if_pos (mem_spanSlots_of_slotOf hslot))

/-! ## The slot at CORRELATION_WINDOW_OPEN (R163) -/

/-- A slot that no waiting span held before stands when a waiting span's window closes first. -/
theorem corCloseDue_slot {s : State} {n k : Nat} (hslot : slotOf s n = some k)
    (hformer : ∀ m, s.cor.waiting = some m → s.xr.former.find k ≠ some m) :
    getF (corCloseDue s n) (F.XR_SLOT_STATE k) = getF s (F.XR_SLOT_STATE k) ∧
      (corCloseDue s n).xr.slotSpan = s.xr.slotSpan := by
  obtain ⟨hk, hspan, -⟩ := slotOf_some hslot
  unfold corCloseDue
  split
  · next m hwaiting =>
    split
    · next hdue =>
      refine ⟨(slotState_corWindowClose _ m hk).trans (if_neg fun hc => ?_), (corWindowClose_fields _ m).1⟩
      obtain ⟨-, hheld | hheld, -⟩ := mem_spanSlots.1 hc
      · exact absurd (Option.some.inj (hspan.symm.trans hheld)) (ne_of_gt hdue.1)
      · exact hformer m hwaiting hheld
    · exact ⟨rfl, rfl⟩
  · exact ⟨rfl, rfl⟩

/-- The stored slots of a span are being read. -/
def readSlots (s : State) (l : List Nat) : State :=
  l.foldl (fun s k => if getF s (F.XR_SLOT_STATE k) = 1 then setSlotState s k 2 else s) s

theorem slotState_readSlots (s : State) (l : List Nat) (k : Nat) : getF (readSlots s l) (F.XR_SLOT_STATE k) =
    if k ∈ l ∧ getF s (F.XR_SLOT_STATE k) = 1 then 2 else getF s (F.XR_SLOT_STATE k) := by
  induction l generalizing s with
  | nil => simp [readSlots]
  | cons j l ih =>
    have step : getF (if getF s (F.XR_SLOT_STATE j) = 1 then setSlotState s j 2 else s) (F.XR_SLOT_STATE k) =
        if k = j ∧ getF s (F.XR_SLOT_STATE k) = 1 then 2 else getF s (F.XR_SLOT_STATE k) := by
      by_cases e : k = j
      · subst e
        split
        · next h => rw [slotState_setSlotState _ _ _ (by decide), if_pos rfl, if_pos ⟨rfl, h⟩]
        · next h => rw [if_neg (not_and_of_not_right _ h)]
      · rw [if_neg (not_and_of_not_left _ e)]
        split
        · rw [slotState_setSlotState _ _ _ (by decide), if_neg e]
        · rfl
    refine (ih _).trans ?_
    rw [step]
    by_cases e : k = j
    · by_cases h : getF s (F.XR_SLOT_STATE k) = 1
      · simp [e, e ▸ h]
      · simp [h]
    · simp [e]

theorem readSlots_field {β : Type} (g : State → β) (hg : ∀ t k st, k < 4 → g (setSlotState t k st) = g t) (s : State)
    {l : List Nat} (hl : ∀ k ∈ l, k < 4) : g (readSlots s l) = g s := by
  induction l generalizing s with
  | nil => rfl
  | cons j l ih =>
    refine (ih _ fun k hk => hl k (List.mem_cons_of_mem _ hk)).trans ?_
    dsimp only
    split
    · exact hg s j 2 (hl j List.mem_cons_self)
    · rfl

/-- The window of a span opens: its slots are read, and its integration is being folded. -/
def openWindow (s : State) (n : Nat) : State := beginFolding (readSlots s (spanSlots s n)) n

/-- The span whose window opened is passed, starts, or waits. -/
def takeSpan (s : State) (n : Nat) : State :=
  if ¬ correlates s n ∨ s.cor.waiting.isSome ∨ s.cor.last.any (n ≤ ·) then s
  else match corIdles s n with
    | some st => corPass s n st
    | none => if corReady s then corStart s n else setCor s fun c => { c with waiting := some n }

theorem takeSpan_slotsKept (s : State) (n : Nat) : SlotsKept s (takeSpan s n) := by
  have h := SlotsKept.refl s
  unfold takeSpan
  refine .ite h ?_
  split
  · exact h.corPass ..
  · exact .ite (h.corStart n) h.setCor

theorem slotState_openWindow (s : State) (n : Nat) {k : Nat} (hk : k < 4) : getF (openWindow s n) (F.XR_SLOT_STATE k) =
    if k ∈ spanSlots s n ∧ getF s (F.XR_SLOT_STATE k) = 1 then 2 else getF s (F.XR_SLOT_STATE k) := by
  have folding : SlotsKept (readSlots s (spanSlots s n)) (openWindow s n) :=
    (SlotsKept.refl _).stands ((Stands.refl _).beginFolding (Set.Iio_subset_Iio (by decide)) n)
  rw [folding.getF hk rfl, slotState_readSlots]

/-- The slot of the span whose window opens is being read. -/
theorem slotState_windowOpen {s : State} {n k : Nat} (hslot : slotOf s n = some k)
    (hformer : ∀ m, s.cor.waiting = some m → s.xr.former.find k ≠ some m) (hstate : getF s (F.XR_SLOT_STATE k) = 1) :
    getF (takeSpan (openWindow (corCloseDue s n) n) n) (F.XR_SLOT_STATE k) = 2 := by
  obtain ⟨hk, hspan, -⟩ := slotOf_some hslot
  obtain ⟨state, spans⟩ := corCloseDue_slot hslot hformer
  rw [hstate] at state
  have mem : k ∈ spanSlots (corCloseDue s n) n := mem_spanSlots.2 ⟨hk, .inl (by rw [spans, hspan]), by rw [state]; decide⟩
  rw [(takeSpan_slotsKept _ n).getF hk rfl, slotState_openWindow _ n hk, if_pos ⟨mem, state⟩]

end Sys2Proof.Machine
end

section
/-! The span whose window opens: what decides on it stands while its slot is marked, and where the correlator stands then
(R163, R172, R177, R182, R185, R217). -/
namespace Sys2Proof.Machine

/-! ## What decides on a span stands -/

/-- The registers of the slots, and those that show the integration being folded. -/
def openShown : List Nat :=
  [R.XR_SLOT 0, R.XR_SLOT 1, R.XR_SLOT 2, R.XR_SLOT 3, R.INT_STATUS, R.INT_INTEG_LO, R.INT_INTEG_LO + 4]

/-- The registers that the opening of a window leaves alone. -/
def openKept : Set Nat := {a | a ∉ openShown}

theorem notMem_openKept_slot {k : Nat} (hk : k < 4) : R.XR_SLOT k ∉ openKept := by
  refine not_not.2 ?_
  interval_cases k <;> decide

theorem spanSlots_lt {s : State} {n : Nat} : ∀ k ∈ spanSlots s n, k < 4 := fun _ hk => (mem_spanSlots.1 hk).1

theorem openWindow_stands (s : State) (n : Nat) : Stands openKept s (openWindow s n) := by
  have read : Stands openKept s (readSlots s (spanSlots s n)) := (Stands.refl s).foldl fun _ k hk h =>
    .ite (h.setF (f := F.XR_SLOT_STATE k) (notMem_openKept_slot (spanSlots_lt k hk)) 2) h
  have shown {a : Nat} (ha : a ∈ openShown) : a ∉ openKept := not_not.2 ha
  exact .ite (((read.setInteg _).setPair (shown (by decide)) (shown (by decide)) _).setF (shown (by decide)) _) read

/-- A part of the state that neither the slots' marks nor the integration being folded change. -/
theorem openWindow_field {β : Type} (g : State → β) (hslot : ∀ t k st, k < 4 → g (setSlotState t k st) = g t)
    (hfold : ∀ t m, g (beginFolding t m) = g t) (s : State) (n : Nat) : g (openWindow s n) = g s :=
  (hfold _ n).trans (readSlots_field g hslot s spanSlots_lt)

theorem openWindow_cor (s : State) (n : Nat) : (openWindow s n).cor = s.cor :=
  openWindow_field State.cor (fun _ _ _ _ => rfl) (fun t m => by unfold beginFolding; dsimp only; split <;> rfl) s n

theorem openWindow_slotOf (s : State) (n m : Nat) : slotOf (openWindow s n) m = slotOf s m := by
  have spans : (openWindow s n).xr.slotSpan = s.xr.slotSpan := by
    simpa [Xr.core] using congrArg Xr.slotSpan (openWindow_stands s n).core
  refine List.find?_congr fun k hk => ?_
  rw [spans, slotState_openWindow s n (List.mem_range.1 hk)]
  split
  · next h => rw [h.2]; rfl
  · rfl

theorem openWindow_correlates (s : State) (n m : Nat) : correlates (openWindow s n) m = correlates s m := by
  have h := openWindow_stands s n
  have first : (openWindow s n).integ.first = s.integ.first :=
    openWindow_field (·.integ.first) (fun _ _ _ _ => rfl) (fun t m => by unfold beginFolding; dsimp only; split <;> rfl) s n
  have dead : (openWindow s n).integ.dead = s.integ.dead :=
    openWindow_field (·.integ.dead) (fun _ _ _ _ => rfl) (fun t m => by unfold beginFolding; dsimp only; split <;> rfl) s n
  have config (f : Fld) (hf : f.addr = R.INT_CONFIG) : getF (openWindow s n) f = getF s f :=
    h.getF (by rw [hf]; show R.INT_CONFIG ∉ openShown; decide)
  have enabled : flag (openWindow s n) F.COR_CTRL_EN = flag s F.COR_CTRL_EN := h.flag (by show R.COR_CTRL ∉ openShown; decide)
  have power : domOn (openWindow s n) 23 = domOn s 23 := by
    rw [domOn, domState, h.getF (by show R.PWR_STATE 2 ∉ openShown; decide), domOn, domState]
  unfold correlates stopsInteg integStart integLen spanLen frameOf
  dsimp only
  rw [first, dead, config _ rfl, config _ rfl, enabled, power, h.arch, h.counter]

theorem openWindow_corIdles (s : State) (n m : Nat) : corIdles (openWindow s n) m = corIdles s m := by
  have h := openWindow_stands s n
  have runs : ∀ a ∈ runRegs, a ∈ openKept := by
    show ∀ a ∈ runRegs, a ∉ openShown
    decide
  have start : spanStart (openWindow s n) m = spanStart s m := by
    rw [spanStart, spanLen, h.getF (by show R.INT_CONFIG ∉ openShown; decide), spanStart, spanLen]
  have geometry (f : Fld) (hf : f.addr = R.XR_GEOMETRY) : getF (openWindow s n) f = getF s f :=
    h.getF (by rw [hf]; show R.XR_GEOMETRY ∉ openShown; decide)
  have signals : domainSignals (openWindow s n) = domainSignals s := by
    unfold domainSignals xrChips xrCols
    rw [geometry _ rfl, geometry _ rfl]
  unfold corIdles
  rw [openWindow_slotOf, start, h.cal8Of runs, signals]

theorem openWindow_corReady (s : State) (n : Nat) : corReady (openWindow s n) = corReady s := by
  unfold corReady
  rw [openWindow_cor, (openWindow_stands s n).flag (by show R.COR_STATUS ∉ openShown; decide)]

/-! ## Where the correlator stands then -/

theorem corPass_place (s : State) (n status : Nat) :
    (corPass s n status).cor.last = some n ∧ (corPass s n status).cor.span = s.cor.span := by
  have h : Stands ∅ (setCor s fun c => { c with last := some n }) (corPass s n status) :=
    ((Stands.refl _).skipFrom (Set.empty_subset _) (Set.notMem_empty _) n 0 status).foldingEnd (Set.empty_subset _) n
  exact ⟨congrArg (fun p => p.2.2.1) h.place, congrArg (fun p => p.1) h.place⟩

theorem corStart_place (s : State) (n : Nat) : (corStart s n).cor.last = some n ∧ (corStart s n).cor.span = some n := by
  refine ⟨?_, rfl⟩
  unfold corStart
  extract_lets cal8 named mode mapped
  have h1 : Stands ∅ named mode := (Stands.refl named).setF (Set.notMem_empty _) _
  have h2 : Stands ∅ named mapped := .ite h1 (h1.buildMap (Set.empty_subset _) cal8 n)
  exact congrArg (fun p => p.2.2.1) h2.place

/-- A span that the correlator works on, with none that waits and none so late started, waits, starts or is passed. -/
theorem takeSpan_place {s : State} {n : Nat} (hcor : correlates s n = true) (hwaiting : s.cor.waiting = none)
    (hlast : ∀ l, s.cor.last = some l → l < n) :
    (corIdles s n = none → corReady s = false → (takeSpan s n).cor.waiting = some n) ∧
      (corIdles s n = none → corReady s = true → (takeSpan s n).cor.last = some n ∧ (takeSpan s n).cor.span = some n) ∧
      ((corIdles s n).isSome = true → (takeSpan s n).cor.last = some n ∧ (takeSpan s n).cor.span = s.cor.span) := by
  have taken : ¬ (¬ correlates s n = true ∨ s.cor.waiting.isSome = true ∨ s.cor.last.any (n ≤ ·) = true) := by
    simpa [hcor, hwaiting, Option.any_eq_true] using hlast
  unfold takeSpan
  rw [if_neg taken]
  cases hidle : corIdles s n with
  | some st => exact ⟨nofun, nofun, fun _ => corPass_place s n st⟩
  | none =>
    refine ⟨fun _ hready => ?_, fun _ hready => ?_, nofun⟩
    · rw [hready]
      rfl
    · simp only [hready, if_true]
      exact corStart_place s n

theorem correlationWindowOpen_completes {s : State} {n : Nat} (hup : Up s)
    (hopen : spanStart s n + spanLen s + 2 ≤ frameOf s) (hclose : frameOf s < corCloseTick s n) :
    Completes (.correlationWindowOpen n) s fun t =>
      (∀ k : Fin 4, slotOf s n = some k.val → (∀ m, s.cor.waiting = some m → s.xr.former.find k ≠ some m) →
        getF s (F.XR_SLOT_STATE k) = 1 → getF t (F.XR_SLOT_STATE k) = 2) ∧
      (correlates s n = true → s.cor.waiting = none → (∀ l, s.cor.last = some l → l < n) →
        (corIdles s n = none → corReady s = false → t.cor.waiting = some n) ∧
        (corIdles s n = none → corReady s = true → t.cor.last = some n ∧ t.cor.span = some n) ∧
        ((corIdles s n).isSome = true → t.cor.last = some n ∧ t.cor.span = s.cor.span)) := by
  refine completes_run (show execCorrelationWindowOpen n s = run _ s from rfl) hup ?_
  dsimp only
  rw [if_neg (not_or.2 ⟨Nat.not_lt.2 hopen, Nat.not_le.2 hclose⟩)]
  change (∀ k : Fin 4, _ → _ → _ → getF (takeSpan (openWindow (corCloseDue s n) n) n) _ = 2) ∧ _
  refine ⟨fun k hslot hformer hstate => slotState_windowOpen hslot hformer hstate, fun hcor hwaiting hlast => ?_⟩
  have due : corCloseDue s n = s := by
    unfold corCloseDue
    rw [hwaiting]
  have cor := openWindow_cor s n
  have place := takeSpan_place (s := openWindow s n) (n := n) (by rw [openWindow_correlates, hcor]) (by rw [cor, hwaiting])
    (by rw [cor]; exact hlast)
  rw [openWindow_corIdles, openWindow_corReady, cor] at place
  rw [due]
  exact place

end Sys2Proof.Machine
namespace Sys2Proof
open Machine

/-- Settles O11: each command is served on a block that is up, and what its rule names follows from the lemma about it. -/
theorem correlatorWindowsComplete : Obligations.CorrelatorWindowsComplete := by
  unfold Obligations.CorrelatorWindowsComplete
  exact ⟨fun s n hup hopen hclose => correlationWindowOpen_completes hup hopen hclose,
    fun s span hup hspan hphase => computeComplete_completes hup hspan hphase,
    fun s time hup hphase => flushComplete_completes time hup hphase,
    fun s span time hup hspan hphase hclosed habort => drainComplete_completes time hup hspan hphase hclosed habort,
    fun s fr k line span hup hspan hphase hfr hmode => causewayReadUe_completes k line hup hspan hphase hfr hmode,
    fun s n hup htick hlast => correlationWindowClose_completes hup htick hlast⟩

end Sys2Proof
end

section
/-! What a pass of patrol, the start-up tests and the build of the map leave alone of one tile and of an abort that is shown
(R172, R185, R187 to R192). -/
namespace Sys2Proof.Machine

/-! ## The state of a tile (R172) -/

theorem tileState_setTile (s : State) (k : Nat) {st : Nat} (hst : st < 8) (unit : Nat) :
    tileState (setTile s k st unit) k = st :=
  (getF_setF_other _ _ _ (by simp) (by simp) (by simp) unit (.inr (.inr (by simp)))).trans
    ((getF_setF_same _ _ (by simp) (by simp) st).trans (Nat.mod_eq_of_lt hst))

theorem tileState_setTile_ne (s : State) {j k : Nat} (h : k ≠ j) (st unit : Nat) :
    tileState (setTile s j st unit) k = tileState s k := by
  have ne : R.COR_TILE_STATE k ≠ R.COR_TILE_STATE j := by simpa using h
  rw [tileState, getF, setTile, rd_setF_ne _ _ _ ne, rd_setF_ne _ _ _ ne, tileState, getF]

theorem tileState_setF (s : State) {f : Fld} (hf : f.addr < 0x910000) (v k : Nat) :
    tileState (setF s f v) k = tileState s k := by
  have other : R.COR_TILE_STATE k ≠ f.addr := ne_of_gt (hf.trans_le (Nat.le_add_right ..))
  rw [tileState, getF, rd_setF_ne _ _ _ other, tileState, getF]

/-! ## What is shown of a tile's tests and of an abort -/

/-- The registers on which what is shown of tile `k` and of an abort stands: the correlator's status, and the tile's state,
signature and count of passes. -/
def testRegs (k : Fin 544) : List Nat := [R.COR_STATUS, R.COR_TILE_STATE k, R.COR_TILE_SIG k, R.COR_TILE_PASS_COUNT k]

/-- A register below those of the tiles or beyond them, but not the correlator's status. -/
theorem notMem_testRegs {k : Fin 544} {a : Nat} (hs : a ≠ R.COR_STATUS) (ha : a < 0x910000 ∨ 0x998000 ≤ a) :
    a ∉ testRegs k := by
  have := k.isLt
  simp only [testRegs, List.mem_cons, List.not_mem_nil, or_false, R.COR_TILE_STATE, R.COR_TILE_SIG, R.COR_TILE_PASS_COUNT]
  omega

theorem notMem_testRegs_map {k : Fin 544} {e : Nat} (he : e < 1024) : R.COR_MAP e ∉ testRegs k :=
  notMem_testRegs (by simp only [R.COR_MAP, R.COR_STATUS]; omega) (.inl (by simp only [R.COR_MAP]; omega))

/-- The words of a tile beside its state, signature and count of passes. -/
theorem notMem_testRegs_tile {k : Fin 544} {a j : Nat}
    (ha : a = R.COR_TILE_SINCE_LO j ∨ a = R.COR_TILE_SINCE_HI j ∨ a = R.COR_TILE_MISMATCH_COUNT j) :
    a ∉ testRegs k := by
  simp only [R.COR_TILE_SINCE_LO, R.COR_TILE_SINCE_HI, R.COR_TILE_MISMATCH_COUNT] at ha
  simp only [testRegs, List.mem_cons, List.not_mem_nil, or_false, R.COR_STATUS, R.COR_TILE_STATE, R.COR_TILE_SIG,
    R.COR_TILE_PASS_COUNT]
  omega

/-- From `s` to `t` the last result of tile `k` and its count of passes stand, as does ABORT_BUSY, and a tile that is
RETIRED and waits for no test goes on so. -/
structure TestKept (k : Fin 544) (s t : State) : Prop where
  signature : rd t (R.COR_TILE_SIG k) = rd s (R.COR_TILE_SIG k)
  passes : rd t (R.COR_TILE_PASS_COUNT k) = rd s (R.COR_TILE_PASS_COUNT k)
  mismatch : getF t (F.COR_TILE_STATE_MISMATCH_LAST k) = getF s (F.COR_TILE_STATE_MISMATCH_LAST k)
  busy : getF t F.COR_STATUS_ABORT_BUSY = getF s F.COR_STATUS_ABORT_BUSY
  retired : tileState s k = 4 ∧ k.val ∉ s.cor.waitTest → tileState t k = 4 ∧ k.val ∉ t.cor.waitTest

/-- A fault leaves the correlator's hidden state alone. -/
theorem setFaults_cor (s : State) (w : Word) : (setFaults s w).cor = s.cor := by
  unfold setFaults faultRecord
  dsimp only
  split
  · rfl
  · rfl

namespace TestKept

variable {k : Fin 544} {s t u : State}

theorem refl (s : State) : TestKept k s s := ⟨rfl, rfl, rfl, rfl, id⟩

theorem trans (h : TestKept k s t) (h' : TestKept k t u) : TestKept k s u where
  signature := h'.signature.trans h.signature
  passes := h'.passes.trans h.passes
  mismatch := h'.mismatch.trans h.mismatch
  busy := h'.busy.trans h.busy
  retired := h'.retired ∘ h.retired

theorem ite {p : Prop} [Decidable p] (ht : TestKept k s t) (hu : TestKept k s u) : TestKept k s (if p then t else u) := by
  split
  · exact ht
  · exact hu

theorem foldl {α : Type} {f : State → α → State} {l : List α}
    (hf : ∀ t, ∀ x ∈ l, TestKept k s t → TestKept k s (f t x)) (h : TestKept k s t) : TestKept k s (l.foldl f t) := by
  induction l generalizing t with
  | nil => exact h
  | cons x l ih => exact ih (fun t y hy => hf t y (List.mem_cons_of_mem x hy)) (hf t x List.mem_cons_self h)

/-! ## The named updates -/

/-- A state that shows the same on the tile's registers, with no new tile that waits. -/
theorem same (h : TestKept k s t) (hr : ∀ a ∈ testRegs k, rd u a = rd t a) (hw : u.cor.waitTest ⊆ t.cor.waitTest) :
    TestKept k s u := by
  have word (f : Fld) (hf : f.addr ∈ testRegs k) : getF u f = getF t f := by rw [getF, hr _ hf, getF]
  refine h.trans ⟨hr _ ?_, hr _ ?_, word _ ?_, word _ ?_, fun ⟨hstate, hwait⟩ =>
    ⟨(word _ ?_).trans hstate, mt (@hw _) hwait⟩⟩
  all_goals simp [testRegs]

theorem wr (h : TestKept k s t) {a : Nat} (ha : a ∉ testRegs k) (v : Word) : TestKept k s (wr t a v) :=
  h.same (fun _ hb => rd_wr_ne t v (ne_of_mem_of_not_mem hb ha)) (List.Subset.refl _)

theorem setR (h : TestKept k s t) {a : Nat} (ha : a ∉ testRegs k) (v : Nat) : TestKept k s (setR t a v) := h.wr ha _

theorem setF (h : TestKept k s t) {f : Fld} (ha : f.addr ∉ testRegs k) (v : Nat) : TestKept k s (setF t f v) := h.wr ha _

theorem setB (h : TestKept k s t) {a : Nat} (ha : a ∉ testRegs k) (i : Nat) (b : Bool) : TestKept k s (setB t a i b) :=
  h.wr ha _

theorem setPair (h : TestKept k s t) {a : Nat} (hlo : a ∉ testRegs k) (hhi : a + 4 ∉ testRegs k) (v : Nat) :
    TestKept k s (setPair t a v) :=
  ((h.setR hlo (v % 2 ^ 32)).setR hhi (v / 2 ^ 32)).same (fun _ _ => rfl) (List.Subset.refl _)

theorem bumpBy (h : TestKept k s t) {a : Nat} (ha : a ∉ testRegs k) (n : Nat) : TestKept k s (bumpBy t a n) :=
  (h.setR ha _).same (fun _ _ => rfl) (List.Subset.refl _)

theorem bump (h : TestKept k s t) {a : Nat} (ha : a ∉ testRegs k) : TestKept k s (bump t a) := h.bumpBy ha 1

theorem raise (h : TestKept k s t) (src : Nat) : TestKept k s (raise t src) :=
  ite (h.same (fun _ _ => rfl) (List.Subset.refl _)) h

theorem setInteg (h : TestKept k s t) (f : Integ → Integ) : TestKept k s (setInteg t f) :=
  h.same (fun _ _ => rfl) (List.Subset.refl _)

theorem setCor (h : TestKept k s t) {f : Cor → Cor}
    (hw : ∀ c, (f c).waitTest ⊆ c.waitTest := by exact fun _ => List.Subset.refl _) : TestKept k s (setCor t f) :=
  h.same (fun _ _ => rfl) (hw _)

theorem setFaults (h : TestKept k s t) (w : Word) : TestKept k s (setFaults t w) := by
  have words : Stands (Set.Iio 0x1800000) t (Machine.setFaults t w) := (Stands.refl t).setFaults subset_rfl w
  refine h.same (fun a ha => words.word a ?_) (by rw [setFaults_cor]; exact List.Subset.refl _)
  by_contra hc
  exact notMem_testRegs (by rintro rfl; exact hc (by decide)) (.inr (le_trans (by decide) (Set.notMem_Iio.1 hc))) ha

theorem fault (h : TestKept k s t) (n : Nat) : TestKept k s (fault t n) := h.setFaults _

/-- A field of the correlator's status other than ABORT_BUSY, which is its bit 11. -/
theorem setStatus (h : TestKept k s t) {f : Fld}
    (hf : f.addr = R.COR_STATUS ∧ f.hi < 32 ∧ f.lo ≤ f.hi ∧ (11 < f.lo ∨ f.hi < 11)) (v : Nat) :
    TestKept k s (Machine.setF t f v) := by
  obtain ⟨haddr, hhi, hlo, hbit⟩ := hf
  have other {a : Nat} (ha : 0x910000 ≤ a) : rd (Machine.setF t f v) a = rd t a :=
    rd_setF_ne t f v (by rw [haddr]; exact ne_of_gt (lt_of_lt_of_le (by decide) ha))
  have tile (g : Fld) (hg : 0x910000 ≤ g.addr) : getF (Machine.setF t f v) g = getF t g := by rw [getF, other hg, getF]
  refine h.trans ⟨other ?_, other ?_, tile _ ?_, ?_, fun ⟨hstate, hwait⟩ => ⟨(tile _ ?_).trans hstate, hwait⟩⟩
  · exact Nat.le_add_right_of_le (by decide)
  · exact Nat.le_add_right_of_le (by decide)
  · exact Nat.le_add_right_of_le (by decide)
  · exact getF_setF_other t f _ hhi hlo (by decide) v (.inr hbit)
  · exact Nat.le_add_right_of_le (by decide)

/-! ## Tiles, pool and map (R172, R189 to R191) -/

/-- A tile takes a state: its own last result stays, and it is not the one that is retired. -/
theorem setTile (h : TestKept k s t) {j : Nat} (hj : tileState s k = 4 ∧ k.val ∉ s.cor.waitTest → j ≠ k)
    (st unit : Nat) : TestKept k s (setTile t j st unit) := by
  have other {a : Nat} (ha : a ≠ R.COR_TILE_STATE j) : rd (Machine.setTile t j st unit) a = rd t a :=
    (rd_setF_ne _ (F.COR_TILE_STATE_UNIT j) unit ha).trans (rd_setF_ne t (F.COR_TILE_STATE_STATE j) st ha)
  have field (g : Fld) (hg : g.lo ≤ g.hi) (hs : g.addr ≠ R.COR_TILE_STATE j ∨ g.hi < 29 ∧ 21 < g.lo) :
      getF (Machine.setTile t j st unit) g = getF t g :=
    (getF_setF_other _ (F.COR_TILE_STATE_UNIT j) g (by simp) (by simp) hg unit (hs.imp_right fun h => .inr h.2)).trans
      (getF_setF_other t (F.COR_TILE_STATE_STATE j) g (by simp) (by simp) hg st (hs.imp_right fun h => .inl h.1))
  refine ⟨(other ?_).trans h.signature, (other ?_).trans h.passes, (field _ ?_ (.inr ⟨?_, ?_⟩)).trans h.mismatch,
    (field _ ?_ (.inl ?_)).trans h.busy, fun hretired => ?_⟩
  · simp only [R.COR_TILE_SIG, R.COR_TILE_STATE]; omega
  · simp only [R.COR_TILE_PASS_COUNT, R.COR_TILE_STATE]; omega
  · simp
  · simp
  · simp
  · decide
  · simp only [R.COR_STATUS, R.COR_TILE_STATE]; omega
  · obtain ⟨hstate, hwait⟩ := h.retired hretired
    exact ⟨(tileState_setTile_ne t (hj hretired).symm st unit).trans hstate, hwait⟩

theorem setPool (h : TestKept k s t) (pool : List Nat) : TestKept k s (setPool t pool) :=
  (h.setCor (f := fun c => { c with pool := pool })).setF (notMem_testRegs (by decide) (by decide)) _

theorem haltShow (h : TestKept k s t) : TestKept k s (haltShow t) := (h.setStatus (by decide) _).setFaults _

theorem giveUnit (h : TestKept k s t) {j e : Nat} (hj : tileState s k = 4 ∧ k.val ∉ s.cor.waitTest → j ≠ k)
    (he : e < 1024) (span c : Nat) : TestKept k s (giveUnit t j e span c) :=
  (((h.setTile hj 2 e).setR (notMem_testRegs_tile (.inl rfl)) _).setR (notMem_testRegs_tile (.inr (.inl rfl))) _).setR
    (notMem_testRegs_map he) _

end TestKept

/-- The order list names each of the 544 tiles once at most, so it is no longer. -/
theorem orderList_length (s : State) : (orderList s).length ≤ 544 := by
  have grows (l m : List Nat) : (l.foldl (fun l k =>
      let t := orderEntry s k
      if 543 < t ∨ t ∈ l then l else l ++ [t]) m).length ≤ m.length + l.length := by
    induction l generalizing m with
    | nil => exact Nat.le_refl _
    | cons x l ih =>
      refine (ih _).trans ?_
      dsimp only
      split
      · rw [List.length_cons]
        omega
      · rw [List.length_append, List.length_singleton, List.length_cons]
        omega
  exact (grows (List.range 544) []).trans (by simp)

namespace TestKept

variable {k : Fin 544}

theorem buildMap (s : State) (cal8 : Bool) (span : Nat) : TestKept k s (buildMap s cal8 span) := by
  unfold Machine.buildMap
  extract_lets usable units used cleared pooled given mapped next halted
  have usableTile {j : Nat} (hj : j ∈ usable) (h : tileState s k = 4 ∧ k.val ∉ s.cor.waitTest) : j ≠ k := by
    rintro rfl
    simpa [h.1] using (List.mem_filter.1 hj).2
  have few : usable.length ≤ 544 := (List.length_filter_le ..).trans (orderList_length s)
  have h1 : TestKept k s used := ((TestKept.refl s).setF (notMem_testRegs (by decide) (by decide)) _).setF
    (notMem_testRegs (by decide) (by decide)) _
  have h2 : TestKept k s cleared := h1.foldl fun _ e he h =>
    h.setR (notMem_testRegs_map ((List.mem_range.1 he).trans (by decide))) _
  have h3 : TestKept k s pooled := h2.foldl fun _ _ hj h => h.setTile (usableTile hj) 1 0
  have h4 : TestKept k s given := h3.foldl fun _ x hx h => by
    obtain ⟨-, he, hj⟩ := List.mem_zipIdx (List.mem_of_mem_take hx)
    exact h.giveUnit (usableTile (hj ▸ List.getElem_mem _)) (by omega) span 0
  have h5 : TestKept k s mapped := h4.setCor.setPool _
  have h6 : TestKept k s next := h5.setF (notMem_testRegs (by decide) (by decide)) _
  have h7 : TestKept k s halted := h6.haltShow
  exact ite ((h7.setStatus (by decide) 1).fault 5) h7

theorem corStart (s : State) (span : Nat) : TestKept k s (corStart s span) := by
  unfold Machine.corStart
  extract_lets cal8 named mode mapped
  have h1 : TestKept k s named :=
    ((TestKept.refl s).setCor (f := fun c => { c with last := some span, waiting := none })).setPair
      (notMem_testRegs (by decide) (by decide)) (notMem_testRegs (by decide) (by decide)) _
  have h2 : TestKept k s mode := h1.setStatus (by decide) _
  have h3 : TestKept k s mapped := ite h2 (h2.trans (buildMap mode cal8 span))
  exact ((h3.setCor.setStatus (by decide) 1).setStatus (by decide) 0).setCor

theorem corNext (s : State) : TestKept k s (corNext s) := by
  unfold Machine.corNext
  split
  · exact ite (corStart s _) (.refl s)
  · exact .refl s

/-- The test that begins is that of a tile that waited for it. -/
theorem testNext (s : State) : TestKept k s (testNext s) := by
  unfold Machine.testNext
  refine ite (.refl s) ?_
  split
  · next j rest hwait =>
    have begun : TestKept k s (Machine.setCor s fun c => { c with waitTest := rest }) :=
      (TestKept.refl s).same (fun _ _ => rfl) (by rw [hwait]; exact List.subset_cons_self j rest)
    refine (begun.setTile (fun h hj => h.2 ?_) 3 0).setF (notMem_testRegs (by decide) (by decide)) _
    rw [hwait, ← hj]
    exact List.mem_cons_self
  · exact .refl s

theorem startupGo (s : State) : TestKept k s (startupGo s) := by
  unfold Machine.startupGo
  split
  · refine ite ?_ (.refl s)
    have built : TestKept k s (startupDone s) := (buildMap s ..).trans (corNext _)
    exact (built.trans (testNext _)).haltShow
  · exact (TestKept.refl s).setF (notMem_testRegs (by decide) (by decide)) _

end TestKept

/-! ## The end of a test (R189, R190) -/

/-- Tile `k` has no second pass to run any more. -/
def secondEnded (s : State) (k : Nat) : State := setCor s fun c => { c with second := c.second.erase k }

/-- No test of tile `k` shows any more: another begins, or the map is built. -/
def testShown (s : State) (k : Nat) : State :=
  let s := if getF s F.COR_PATROL_STATUS_TEST_TILE = k then setF s F.COR_PATROL_STATUS_TEST_TILE noTile else s
  if k ∈ s.cor.startup then
    startupGo (setCor s fun c => { c with startup := c.startup.erase k })
  else haltShow (testNext s)

/-- Tile `k` joins the pool after a test. -/
def tileJoins (s : State) (k : Nat) : State :=
  let s := setCor (setTile s k 1 0) fun c => { c with released := c.released.drop (· == k) }
  if s.cor.built.isSome then setPool s (s.cor.pool ++ [k]) else s

theorem testEnd_eq (s : State) (k : Nat) (pass : Bool) : testEnd s k pass =
    testShown (if pass then tileJoins (secondEnded s k) k else retireTile (secondEnded s k) k) k := rfl

namespace TestKept

variable {k : Fin 544} {s t : State}

theorem markSuspect (h : TestKept k s t) (block lo hi : Nat) : TestKept k s (markSuspect t block lo hi) := by
  unfold Machine.markSuspect
  exact h.setInteg _

/-- What retires a tile does no more to it than the new state. -/
theorem retireTile (s : State) : TestKept k (Machine.setTile s k 4 0) (retireTile s k) := by
  have lt := k.isLt
  unfold Machine.retireTile
  extract_lets named counted lospan lo released
  have h1 : TestKept k (Machine.setTile s k 4 0) named := (TestKept.refl _).setB (a := R.COR_RETIRED (k.val / 32))
    (notMem_testRegs (by simp only [R.COR_RETIRED, R.COR_STATUS]; omega) (.inl (by simp only [R.COR_RETIRED]; omega))) _ _
  have h2 : TestKept k (Machine.setTile s k 4 0) counted :=
    ((h1.setF (f := F.COR_RETIRED_COUNT_COUNT) (notMem_testRegs (by decide) (by decide)) _).raise 18).fault 3
  split
  · extract_lets hi suspect ranged
    have h3 : TestKept k (Machine.setTile s k 4 0) released := h2.setCor
    have h4 : TestKept k (Machine.setTile s k 4 0) suspect := h3.setR (notMem_testRegs (by decide) (by decide)) _
    have h5 : TestKept k (Machine.setTile s k 4 0) ranged := (h4.setPair (notMem_testRegs (by decide) (by decide))
      (notMem_testRegs (by decide) (by decide)) _).setPair (notMem_testRegs (by decide) (by decide))
      (notMem_testRegs (by decide) (by decide)) _
    exact ite h3 (h5.markSuspect ..)
  · exact h2

/-- What lets a tile join the pool does no more to it than the new state. -/
theorem tileJoins (s : State) : TestKept k (Machine.setTile s k 1 0) (tileJoins s k) := by
  unfold Machine.tileJoins
  extract_lets joined
  have h1 : TestKept k (Machine.setTile s k 1 0) joined := (TestKept.refl _).setCor
  exact ite (h1.setPool _) h1

theorem testShown (s : State) : TestKept k s (testShown s k) := by
  unfold Machine.testShown
  extract_lets shown
  have h1 : TestKept k s shown := ite ((TestKept.refl s).setF (notMem_testRegs (by decide) (by decide)) _) (.refl s)
  exact ite (h1.setCor.trans (startupGo _)) (h1.trans (testNext shown)).haltShow

theorem testEnd_pass (s : State) : TestKept k (Machine.setTile (secondEnded s k) k 1 0) (testEnd s k true) := by
  rw [testEnd_eq, if_pos rfl]
  exact (tileJoins _).trans (testShown _)

theorem testEnd_fail (s : State) : TestKept k (Machine.setTile (secondEnded s k) k 4 0) (testEnd s k false) := by
  rw [testEnd_eq, if_neg Bool.false_ne_true]
  exact (retireTile _).trans (testShown _)

end TestKept

end Sys2Proof.Machine
end

section
/-! Enable, disable and abort of the correlator, and a pass of patrol (R185 to R192). -/
namespace Sys2Proof.Machine

/-! ## PATROL_PASS_COMPLETE (R188, R189) -/

/-- A pass of tile `k` counts, and its signature and result are shown. -/
def passNoted (s : State) (k : Nat) (sig : Word) : State :=
  setF (bump (wr s (R.COR_TILE_SIG k) sig) (R.COR_TILE_PASS_COUNT k)) (F.COR_TILE_STATE_MISMATCH_LAST k)
    (ofBool (sig != rd s R.COR_GOLD_SIG))

/-- A mismatch of tile `k` counts on the tile and for the correlator. -/
def mismatchCounted (s : State) (k : Nat) : State := bump (bump s (R.COR_TILE_MISMATCH_COUNT k)) R.COR_PATROL_MISMATCH_COUNT

theorem patrolPass_eq {s : State} {k : Nat} {sig : Word} (hstate : tileState s k = 3) (hwait : k ∉ s.cor.waitTest)
    (hthrottle : flag s F.PWR_STATUS_THROTTLE = false) : patrolPass s k sig =
      if sig = rd s R.COR_GOLD_SIG then testEnd (passNoted s k sig) k true
      else if k ∈ s.cor.second then testEnd (mismatchCounted (passNoted s k sig) k) k false
      else setCor (mismatchCounted (passNoted s k sig) k) fun c => { c with second := k :: c.second } := by
  unfold patrolPass
  rw [if_pos ⟨hstate, hwait, .inr (by rw [hthrottle]; exact Bool.false_ne_true)⟩]
  by_cases h : sig = rd s R.COR_GOLD_SIG
  · rw [if_pos h]
    exact if_pos (beq_iff_eq.2 h)
  · rw [if_neg h]
    exact if_neg (mt beq_iff_eq.1 h)

theorem passNoted_shows (s : State) (k : Nat) (sig : Word) :
    rd (passNoted s k sig) (R.COR_TILE_SIG k) = sig ∧
      (rd (passNoted s k sig) (R.COR_TILE_PASS_COUNT k)).toNat =
        min ((rd s (R.COR_TILE_PASS_COUNT k)).toNat + 1) 0xFFFFFFFF ∧
      getF (passNoted s k sig) (F.COR_TILE_STATE_MISMATCH_LAST k) = ofBool (sig != rd s R.COR_GOLD_SIG) ∧
      tileState (passNoted s k sig) k = tileState s k := by
  refine ⟨?_, ?_, getF_setF_bit _ (by simp) rfl _, ?_⟩
  · rw [passNoted, rd_setF_ne _ _ _ (by simp), bump, rd_bumpBy, if_neg (by simp), rd_wr_same]
  · rw [passNoted, rd_setF_ne _ _ _ (by simp)]
    exact toNat_rd_bump_of_word (rd_wr_ne _ _ (by simp))
  · refine (getF_setF_other _ _ _ (by simp) (by simp) (by simp) _ (.inr (.inr (by simp)))).trans ?_
    rw [getF, bump, rd_bumpBy, if_neg (by simp), rd_wr_ne _ _ (by simp), tileState, getF]

theorem mismatchCounted_testKept (s : State) (k : Fin 544) : TestKept k s (mismatchCounted s k) :=
  ((TestKept.refl s).bump (notMem_testRegs_tile (.inr (.inr rfl)))).bump (notMem_testRegs (by decide) (by decide))

theorem tileState_mismatchCounted (s : State) (k : Nat) : tileState (mismatchCounted s k) k = tileState s k := by
  have below : R.COR_TILE_STATE k ≠ R.COR_PATROL_MISMATCH_COUNT := by
    simp only [R.COR_TILE_STATE, R.COR_PATROL_MISMATCH_COUNT]
    omega
  rw [tileState, getF, mismatchCounted, bump, rd_bumpBy, if_neg below, bump, rd_bumpBy, if_neg (by simp), tileState, getF]

/-- A tile in test takes another state, with its last result. -/
theorem setTile_secondEnded_testKept {s : State} {k : Fin 544} (h : tileState s k ≠ 4) (st : Nat) :
    TestKept k s (setTile (secondEnded s k) k st 0) :=
  (TestKept.refl s).setCor.setTile (fun hc => absurd hc.1 h) st 0

theorem patrolPassComplete_completes {s : State} {k : Fin 544} {sig : Word} (hup : Up s) (hstate : tileState s k = 3)
    (hwait : k.val ∉ s.cor.waitTest) (hthrottle : flag s F.PWR_STATUS_THROTTLE = false) :
    Completes (.patrolPassComplete k sig) s fun t =>
      rd t (R.COR_TILE_SIG k) = sig ∧
      (rd t (R.COR_TILE_PASS_COUNT k)).toNat = min ((rd s (R.COR_TILE_PASS_COUNT k)).toNat + 1) 0xFFFFFFFF ∧
      getF t (F.COR_TILE_STATE_MISMATCH_LAST k) = ofBool (sig != rd s R.COR_GOLD_SIG) ∧
      (sig ≠ rd s R.COR_GOLD_SIG → k.val ∈ s.cor.second → tileState t k = 4) := by
  refine completes_run (show execPatrolPassComplete k sig s = run (patrolPass · k sig) s from rfl) hup ?_
  obtain ⟨hsig, hcount, hresult, hin⟩ := passNoted_shows s k sig
  have shows {t : State} (h : TestKept k (passNoted s k sig) t) : rd t (R.COR_TILE_SIG k) = sig ∧
      (rd t (R.COR_TILE_PASS_COUNT k)).toNat = min ((rd s (R.COR_TILE_PASS_COUNT k)).toNat + 1) 0xFFFFFFFF ∧
      getF t (F.COR_TILE_STATE_MISMATCH_LAST k) = ofBool (sig != rd s R.COR_GOLD_SIG) :=
    ⟨h.signature.trans hsig, by rw [h.passes, hcount], h.mismatch.trans hresult⟩
  have counted := mismatchCounted_testKept (passNoted s k sig) k
  have inTest : tileState (passNoted s k sig) k ≠ 4 := by rw [hin, hstate]; decide
  have inTest' : tileState (mismatchCounted (passNoted s k sig) k) k ≠ 4 := by rwa [tileState_mismatchCounted]
  rw [patrolPass_eq hstate hwait hthrottle]
  split
  · next hgold =>
    obtain ⟨h1, h2, h3⟩ := shows ((setTile_secondEnded_testKept inTest 1).trans (TestKept.testEnd_pass _))
    exact ⟨h1, h2, h3, fun hc => absurd hgold hc⟩
  split
  · next hsecond =>
    have ended := TestKept.testEnd_fail (k := k) (mismatchCounted (passNoted s k sig) k)
    obtain ⟨h1, h2, h3⟩ := shows (counted.trans ((setTile_secondEnded_testKept inTest' 4).trans ended))
    exact ⟨h1, h2, h3, fun _ _ => (ended.retired ⟨tileState_setTile _ _ (by decide) 0, hwait⟩).1⟩
  · next hfirst =>
    obtain ⟨h1, h2, h3⟩ := shows counted.setCor
    exact ⟨h1, h2, h3, fun _ hc => absurd hc hfirst⟩

/-! ## ABORT_DRAIN_COMPLETE (R185) -/

theorem abortDrainComplete_completes {s : State} (hup : Up s) (hbusy : flag s F.COR_STATUS_ABORT_BUSY = true)
    (habort : s.cor.abortDue = false) : Completes .abortDrainComplete s fun t => getF t F.COR_STATUS_ABORT_BUSY = 0 := by
  refine completes_run (show execAbortDrainComplete s = run _ s from rfl) hup ?_
  rw [if_pos ⟨hbusy, by rw [habort]; exact Bool.false_ne_true⟩]
  exact (TestKept.corNext (k := 0) _).busy.trans (getF_setF_bit s (by decide) rfl false)

/-! ## COR_ABORT (R185) -/

/-- Of the correlator's status an abort changes the phase only: its skipped channels and the end of its folding change
nothing. -/
theorem corAbortFrom_status (s : State) (span c : Nat) (f : Fld) (hf : f.addr = R.COR_STATUS ∧ f.lo ≤ f.hi)
    (hp : f.hi < 8 ∨ 9 < f.lo) : getF (corAbortFrom s span c) f = getF s f := by
  have bound : {R.COR_STATUS} ⊆ Set.Iio (0x900008 : Nat) := Set.singleton_subset_iff.2 (by decide : R.COR_STATUS < 0x900008)
  have skipped : Stands {R.COR_STATUS} s (foldingEnd (skipFrom (bumpBy s R.COR_ABORT_COUNT (64 - c)) span c 2) span) :=
    (((Stands.refl s).bumpBy (notMem_of_bound bound (by decide)) _).skipFrom (bound_mono bound (by decide))
      (notMem_of_bound bound (by decide)) span c 2).foldingEnd (bound_mono bound (by decide)) span
  exact (getF_setF_other _ F.COR_STATUS_PHASE f (by decide) (by decide) hf.2 0 (.inr hp)).trans (skipped.getF hf.1)

theorem corAbort_completes {s : State} (hup : Up s) : Completes .corAbort s fun t =>
    getF t F.COR_STATUS_ABORT_BUSY = 1 ∧
    (s.cor.span.isSome = true → corPhase s ≠ 3 → t.cor.span = none ∧ corPhase t = 0) ∧
    (s.cor.span.isSome = true → corPhase s = 3 → t.cor.abortDue = true ∧ t.cor.span = s.cor.span) := by
  refine completes_run (show execCorAbort s = run corAbort s from rfl) hup ?_
  have busy : getF (setF s F.COR_STATUS_ABORT_BUSY 1) F.COR_STATUS_ABORT_BUSY = 1 := getF_setF_bit s (by decide) rfl true
  have phase : corPhase (setF s F.COR_STATUS_ABORT_BUSY 1) = corPhase s :=
    getF_setF_other s _ _ (by decide) (by decide) (by decide) 1 (by decide)
  unfold corAbort
  extract_lets noted
  cases hspan : s.cor.span with
  | none =>
    rw [show noted.cor.span = none from hspan]
    exact ⟨busy, nofun, nofun⟩
  | some span =>
    rw [show noted.cor.span = some span from hspan]
    dsimp only
    rw [show corPhase noted = corPhase s from phase]
    split
    · next hdrain => exact ⟨busy, fun _ hc => absurd hdrain hc, fun _ _ => ⟨rfl, hspan⟩⟩
    · next hwork =>
      have kept := corAbortFrom_status noted span (getF noted F.COR_STATUS_CHANNEL) F.COR_STATUS_ABORT_BUSY
        (by decide) (by decide)
      exact ⟨kept.trans busy, fun _ _ => (corIdle_completes _).symm, fun _ hc => absurd hc hwork⟩

/-! ## COR_DISABLE (R186) -/

theorem corDisable_completes {s : State} (hup : Up s) (hen : flag s F.COR_CTRL_EN = true) :
    Completes .corDisable s fun t =>
      getF t F.COR_CTRL_EN = 0 ∧ t.cor.built = none ∧ t.cor.waiting = none ∧ t.cor.waitTest = [] := by
  refine completes_run (show execCorDisable s = run corDisable s from rfl) hup ⟨getF_corDisable s, ?_⟩
  unfold corDisable
  rw [if_pos hen]
  exact ⟨rfl, rfl, rfl⟩

/-! ## COR_ENABLE (R192) -/

/-- Every tile of a list is put in test. -/
def testTiles (s : State) (l : List Nat) : State := l.foldl (fun s t => setTile s t 3 0) s

theorem tileState_testTiles (s : State) (l : List Nat) (k : Nat) (h : k ∈ l ∨ tileState s k = 3) :
    tileState (testTiles s l) k = 3 := by
  induction l generalizing s with
  | nil => exact h.resolve_left List.not_mem_nil
  | cons j l ih =>
    refine ih (setTile s j 3 0) ?_
    by_cases e : k = j
    · exact .inr (e ▸ tileState_setTile s j (by decide) 0)
    · exact h.imp (fun h => (List.mem_cons.1 h).resolve_left e) fun h => (tileState_setTile_ne s e 3 0).trans h

theorem testTiles_cor (s : State) (l : List Nat) : (testTiles s l).cor = s.cor :=
  foldl_field State.cor (f := fun s t => setTile s t 3 0) (fun _ _ => rfl) l s

/-- Every usable tile is in test and listed for the start-up, and no map is built. -/
theorem corEnable_tests {s : State} (hen : ¬ flag s F.COR_CTRL_EN = true)
    (husable : ∃ t : Fin 544, tileState s t = 1 ∨ tileState s t = 2) : (corEnable s).cor.built = none ∧
      ∀ k : Fin 544, tileState s k = 1 ∨ tileState s k = 2 →
        tileState (corEnable s) k = 3 ∧ k.val ∈ (corEnable s).cor.startup := by
  unfold corEnable
  rw [if_neg hen]
  extract_lets enabled tiles shown tested queued
  have mem (k : Fin 544) (h : tileState s k = 1 ∨ tileState s k = 2) : k.val ∈ tiles := by
    rw [← tileState_setF s (f := F.COR_CTRL_EN) (by decide) 1 k] at h
    exact List.mem_filter.2 ⟨List.mem_range.2 k.isLt, by simpa using h⟩
  clear_value tiles
  have built : queued.cor.built = none := calc
    queued.cor.built = shown.cor.built := congrArg (·.built) (testTiles_cor shown tiles : tested.cor = shown.cor)
    _ = none := congrArg Cor.built (setFaults_cor ..)
  have begun (k : Fin 544) (h : tileState s k = 1 ∨ tileState s k = 2) :
      tileState queued k = 3 ∧ k.val ∈ queued.cor.startup :=
    ⟨tileState_testTiles shown tiles k (.inl (mem k h)), List.mem_append_right _ (mem k h)⟩
  split
  · next hnone =>
    obtain ⟨k, hk⟩ := husable
    exact absurd (hnone ▸ (begun k hk).2) List.not_mem_nil
  · exact ⟨built, fun k hk => ⟨(tileState_setF _ (by decide) _ k).trans (begun k hk).1, (begun k hk).2⟩⟩

theorem corEnable_completes {s : State} (hup : Up s) (hen : flag s F.COR_CTRL_EN = false)
    (husable : ∃ t : Fin 544, tileState s t = 1 ∨ tileState s t = 2) : Completes .corEnable s fun t =>
      getF t F.COR_CTRL_EN = 1 ∧ t.cor.built = none ∧
      (∀ k : Fin 544, tileState s k = 1 ∨ tileState s k = 2 → tileState t k = 3 ∧ k.val ∈ t.cor.startup) ∧
      MemorySame s t := by
  refine completes_run (show execCorEnable s = run corEnable s from rfl) hup ?_
  have off : ¬ flag s F.COR_CTRL_EN = true := by rw [hen]; exact Bool.false_ne_true
  obtain ⟨built, tests⟩ := corEnable_tests off husable
  have memory := (corEnable_steady s).memorySame
  rw [if_neg off] at memory
  exact ⟨getF_corEnable s, built, tests, memory⟩

end Sys2Proof.Machine
end

namespace Sys2Proof
open Machine

/-- Settles O12: each command is served on a block that is up, and what its rule names follows from the lemma about it. What
a pass shows of its tile outlasts the test that begins next and the build of the map (`TestKept`). -/
theorem correlatorControlCompletes : Obligations.CorrelatorControlCompletes := by
  unfold Obligations.CorrelatorControlCompletes
  exact ⟨fun s hup hen husable => corEnable_completes hup hen husable, fun s hup hen => corDisable_completes hup hen,
    fun s hup => corAbort_completes hup, fun s hup hbusy habort => abortDrainComplete_completes hup hbusy habort,
    fun s k sig hup hstate hwait hthrottle => patrolPassComplete_completes hup hstate hwait hthrottle⟩

end Sys2Proof

section
/-! The sum store's states, the enable of the fold unit and the abandoned integrations (R197, R198, R217). -/
namespace Sys2Proof.Machine

/-! ## The states of the sum store (R197) -/

@[simp] theorem getF_setInteg (s : State) (f : Integ → Integ) (g : Fld) : getF (setInteg s f) g = getF s g := rfl

theorem chanState_setChanState_dirty (s : State) (z c : Nat) : chanState (setChanState s z c 0) z c = 0 :=
  (getF_setF_same _ _ (by dsimp only; omega) (by dsimp only; omega) 0).trans (Nat.zero_mod _)

/-- The state of another channel stays. -/
theorem chanState_setChanState_ne (s : State) {z c z' c' : Nat} (hc : c < 64) (hc' : c' < 64) (h : z ≠ z' ∨ c ≠ c')
    (st : Nat) : chanState (setChanState s z' c' st) z c = chanState s z c := by
  refine getF_setF_other _ _ _ ?_ ?_ ?_ st ?_ <;> simp only [R.INT_SET_STATE] <;> omega

/-- The channels of a list of their numbers, 64 a set, become DIRTY. -/
def markDirty (s : State) (l : List Nat) : State := l.foldl (fun s k => setChanState s (k / 64) (k % 64) 0) s

theorem chanState_markDirty (s : State) (l : List Nat) {z c : Nat} (hc : c < 64)
    (h : 64 * z + c ∈ l ∨ chanState s z c = 0) : chanState (markDirty s l) z c = 0 := by
  induction l generalizing s with
  | nil => exact h.resolve_left List.not_mem_nil
  | cons k l ih =>
    refine ih (setChanState s (k / 64) (k % 64) 0) ?_
    by_cases e : z = k / 64 ∧ c = k % 64
    · obtain ⟨rfl, rfl⟩ := e
      exact .inr (chanState_setChanState_dirty ..)
    · have ne : z ≠ k / 64 ∨ c ≠ k % 64 := by omega
      refine h.imp (fun h => (List.mem_cons.1 h).resolve_left (by omega)) fun h => ?_
      rwa [chanState_setChanState_ne s hc (Nat.mod_lt k (by decide)) ne]

theorem markDirty_steady (s : State) (l : List Nat) : Steady 0xA00040 true s (markDirty s l) :=
  (Steady.refl s).foldl (fun _ _ h => h.setChanState le_rfl ..) l

/-- Steps that each make their channel DIRTY while no readout is under way make them all DIRTY. -/
theorem foldl_eq_markDirty {f : State → Nat → State}
    (hf : ∀ t k, t.integ.readout = none → f t k = setChanState t (k / 64) (k % 64) 0) (l : List Nat) {s : State}
    (h : s.integ.readout = none) : l.foldl f s = markDirty s l := by
  induction l generalizing s with
  | nil => rfl
  | cons k l ih =>
    rw [List.foldl_cons, hf s k h]
    exact ih h

/-! ## INT_ENABLE (R198) -/

/-- The frame of the next tick depends on the run state and the counter alone. -/
theorem nextTick_congr {s t : State} (ha : t.arch = s.arch) (hc : t.counter = s.counter) : nextTick t = nextTick s := by
  simp only [nextTick, frameOf, ha, hc]

/-- The length of an integration in frames stands below the sum store's states, and beside the enable. -/
theorem frames_markDirty_enabled (s : State) (l : List Nat) (v : Nat) :
    spanLen (markDirty (setF s F.INT_CTRL_EN v) l) * integLen (markDirty (setF s F.INT_CTRL_EN v) l) =
      spanLen s * integLen s := by
  have kept (f : Fld) (hf : f.addr = R.INT_CONFIG ∧ f.lo ≤ f.hi) :
      getF (markDirty (setF s F.INT_CTRL_EN v) l) f = getF s f := by
    obtain ⟨config, width⟩ := hf
    have off : f.addr ≠ R.INT_CTRL := by rw [config]; decide
    exact ((markDirty_steady _ l).getF (config ▸ by decide)).trans
      (getF_setF_other s _ f (by decide) (by decide) width v (.inl off))
  exact congrArg₂ (· * ·) (kept F.INT_CONFIG_SPAN_FRAMES (by decide)) (kept F.INT_CONFIG_SPANS (by decide))

/-- A fold unit that was off and reads nothing out starts: every channel DIRTY, and running. -/
theorem setIntEnable_on {s : State} (hen : flag s F.INT_CTRL_EN = false) (hread : s.integ.readout = none) :
    setIntEnable s true =
      setInteg (setF (markDirty (setF s F.INT_CTRL_EN 1) (List.range 128)) F.INT_STATUS_RUNNING 1) fun i =>
        { i with first := some ((nextTick s + spanLen s * integLen s - 1) / (spanLen s * integLen s)) } := by
  unfold setIntEnable
  extract_lets was folded enabled dirty si
  have all : dirty = markDirty (setF s F.INT_CTRL_EN 1) (List.range 128) :=
    foldl_eq_markDirty (fun t k h => by simp only [h]) _ (s := enabled) hread
  have tick : nextTick dirty = nextTick s := by
    rw [all]
    exact nextTick_congr (markDirty_steady _ _).arch (markDirty_steady _ _).counter
  have frames : si = spanLen s * integLen s := by
    rw [← frames_markDirty_enabled s (List.range 128) 1, ← all]
  rw [if_pos ⟨rfl, by rw [show was = false from hen]; exact Bool.false_ne_true⟩, tick, frames, all]

theorem intEnable_completes {s : State} (hup : Up s) (hen : flag s F.INT_CTRL_EN = false)
    (hread : s.integ.readout = none) : Completes .intEnable s fun t =>
      getF t F.INT_CTRL_EN = 1 ∧ getF t F.INT_STATUS_RUNNING = 1 ∧
      (∀ (z : Fin 2) (c : Fin 64), chanState t z c = 0) ∧
      t.integ.first = some ((nextTick s + spanLen s * integLen s - 1) / (spanLen s * integLen s)) ∧ MemorySame s t := by
  refine completes_run (f := (setIntEnable · true)) rfl hup ⟨getF_setIntEnable s true, ?_, fun z c => ?_, ?_,
    (setIntEnable_steady s true).memorySame⟩
  · rw [setIntEnable_on hen hread, getF_setInteg]
    exact getF_setF_bit _ (by decide) rfl true
  · have dirty := chanState_markDirty (setF s F.INT_CTRL_EN 1) (List.range 128) (z := z) c.isLt
      (.inl (List.mem_range.2 (by omega)))
    rw [setIntEnable_on hen hread, chanState, getF_setInteg]
    refine (getF_setF_other _ F.INT_STATUS_RUNNING _ (by decide) (by decide) ?_ 1 (.inl ?_)).trans dirty
    · dsimp only
      omega
    · simp only [R.INT_SET_STATE, R.INT_STATUS]
      omega
  · rw [setIntEnable_on hen hread, setInteg_self]

/-! ## INT_DISABLE (R217) -/

/-- Of what the fold unit holds, an abandoned integration joins the dead and is folded no more. -/
theorem abandonInteg_integ (s : State) (n : Nat) : (abandonInteg s n).integ.dead = n :: s.integ.dead ∧
    (abandonInteg s n).integ.folding = s.integ.folding.filter (· != n) := by
  unfold abandonInteg
  extract_lets dirty dropped ended
  have kept : dirty.integ = s.integ := foldl_field State.integ (fun t c => by
    split
    · rfl
    · rfl) (List.range 64) s
  clear_value dirty
  have dead : dropped.integ.dead = n :: s.integ.dead := congrArg (fun i : Integ => n :: i.dead) kept
  have folding : dropped.integ.folding = s.integ.folding.filter (· != n) :=
    congrArg (fun i : Integ => i.folding.filter (· != n)) kept
  clear_value dropped
  have last : ended.integ.dead = dropped.integ.dead ∧ ended.integ.folding = dropped.integ.folding := by
    simp only [ended]
    split
    · exact ⟨rfl, rfl⟩
    · exact ⟨rfl, rfl⟩
  exact ⟨last.1.trans dead, last.2.trans folding⟩

/-- An abandoned integration counts once. -/
theorem abandonInteg_count (s : State) (n : Nat) : (rd (abandonInteg s n) R.INT_ABANDON_COUNT).toNat =
    min ((rd s R.INT_ABANDON_COUNT).toNat + 1) 0xFFFFFFFF := by
  unfold abandonInteg
  extract_lets dirty dropped ended
  have h1 : Stands {R.INT_ABANDON_COUNT} s dirty := (Stands.refl s).foldl fun t c hc h => by
    have lt := List.mem_range.1 hc
    exact .ite (h.setF (f := ⟨R.INT_SET_STATE (n % 2) (c / 16), 2 * (c % 16) + 1, 2 * (c % 16)⟩)
      (by simp only [Set.mem_singleton_iff, R.INT_SET_STATE, R.INT_ABANDON_COUNT]; omega) 0) h
  have h2 : Stands {R.INT_ABANDON_COUNT} s dropped := h1.setInteg _
  have h3 : Stands {R.INT_ABANDON_COUNT} s ended := .ite ((h2.setF (f := F.INT_READOUT_BUSY) (by decide) 0).setInteg _) h2
  exact toNat_rd_bump_of_word (h3.word _ rfl)

/-- Integrations abandoned one after the other count each, are dead and are folded no more. -/
theorem foldl_abandonInteg (l : List Nat) (s : State) :
    (rd (l.foldl abandonInteg s) R.INT_ABANDON_COUNT).toNat =
        min ((rd s R.INT_ABANDON_COUNT).toNat + l.length) 0xFFFFFFFF ∧
      (l.foldl abandonInteg s).integ.dead = l.reverse ++ s.integ.dead ∧
      (l.foldl abandonInteg s).integ.folding = s.integ.folding.filter (· ∉ l) := by
  induction l generalizing s with
  | nil =>
    have lt := (rd s R.INT_ABANDON_COUNT).isLt
    rw [List.foldl_nil, List.length_nil]
    refine ⟨by omega, rfl, ?_⟩
    cases s.integ.folding <;> rfl
  | cons n l ih =>
    obtain ⟨count, dead, folding⟩ := ih (abandonInteg s n)
    obtain ⟨dead', folding'⟩ := abandonInteg_integ s n
    refine ⟨?_, ?_, ?_⟩
    · rw [List.foldl_cons, count, abandonInteg_count, List.length_cons]
      omega
    · rw [List.foldl_cons, dead, dead', List.reverse_cons, List.append_assoc, List.singleton_append]
    · have both : (fun m => (m != n) && decide (m ∉ l)) = fun m => decide (m ∉ n :: l) := by
        funext m
        simp [bne, beq_eq_decide]
      rw [List.foldl_cons, folding, folding', Option.filter_filter, both]

/-- The integration noted is being folded. -/
theorem mem_beingFolded {s : State} {n : Nat} (h : s.integ.folding = some n) : n ∈ beingFolded s := by
  unfold beingFolded
  rw [h]
  dsimp only
  split
  · exact List.mem_cons_self
  · exact List.mem_cons_self

/-- A fold unit that was on stops, and abandons what it was folding. -/
theorem setIntEnable_off {s : State} (hen : flag s F.INT_CTRL_EN = true) : setIntEnable s false =
    setF ((beingFolded s).foldl abandonInteg (setF s F.INT_CTRL_EN 0)) F.INT_STATUS_RUNNING 0 := by
  unfold setIntEnable
  extract_lets was folded enabled
  rw [if_neg fun hc => Bool.false_ne_true hc.1, if_pos ⟨Bool.false_ne_true, hen⟩]
  rfl

theorem intDisable_completes {s : State} (hup : Up s) (hen : flag s F.INT_CTRL_EN = true) :
    Completes .intDisable s fun t =>
      getF t F.INT_CTRL_EN = 0 ∧ getF t F.INT_STATUS_RUNNING = 0 ∧
      (∀ n, s.integ.folding = some n → n ∈ t.integ.dead ∧ t.integ.folding = none ∧
        (rd t R.INT_ABANDON_COUNT).toNat = min ((rd s R.INT_ABANDON_COUNT).toNat + (beingFolded s).length) 0xFFFFFFFF ∧
        ∀ m ∈ beingFolded s, m ∈ t.integ.dead) ∧ MemorySame s t := by
  refine completes_run (f := (setIntEnable · false)) rfl hup ⟨getF_setIntEnable s false, ?_, fun n hn => ?_,
    (setIntEnable_steady s false).memorySame⟩
  · rw [setIntEnable_off hen]
    exact getF_setF_bit _ (by decide) rfl false
  · rw [setIntEnable_off hen]
    obtain ⟨count, dead, folding⟩ := foldl_abandonInteg (beingFolded s) (setF s F.INT_CTRL_EN 0)
    have all (m : Nat) (hm : m ∈ beingFolded s) :
        m ∈ ((beingFolded s).foldl abandonInteg (setF s F.INT_CTRL_EN 0)).integ.dead :=
      dead ▸ List.mem_append_left _ (List.mem_reverse.2 hm)
    refine ⟨all n (mem_beingFolded hn), folding.trans ?_, ?_, all⟩
    · rw [show (setF s F.INT_CTRL_EN 0).integ.folding = some n from hn]
      simp [mem_beingFolded hn]
    · rw [rd_setF_ne _ _ 0 (by decide), count, rd_setF_ne _ _ 0 (by decide)]

end Sys2Proof.Machine
end

section
/-! The readout of an integration: its window, its channels and the channels that it misses (R204 to R208). -/
namespace Sys2Proof.Machine

/-! ## The window opens (R204) -/

theorem readoutOpen_completes (s : State) (n : Nat) :
    (readoutOpen s n).integ.readout = some (n, 0) ∧ getF (readoutOpen s n) F.INT_READOUT_BUSY = 1 ∧
      getF (readoutOpen s n) F.INT_READOUT_BUFFER = n % 2 ∧ getF (readoutOpen s n) F.INT_READOUT_DONE = 0 ∧
      RegsSameBut [R.INT_READOUT] s (readoutOpen s n) ∧ MemorySame s (readoutOpen s n) := by
  let busy : State := setF s F.INT_READOUT_BUSY 1
  let named : State := setF busy F.INT_READOUT_BUFFER (n % 2)
  let shown : State := setF named F.INT_READOUT_DONE 0
  have opened : readoutOpen s n = setInteg shown fun i => { i with readout := some (n, 0) } := rfl
  have beside (u : State) (f g : Fld) (v : Nat) (hf : f.hi < 32 ∧ f.lo ≤ f.hi) (hg : g.lo ≤ g.hi)
      (ne : g.hi < f.lo ∨ f.hi < g.lo) : getF (setF u f v) g = getF u g :=
    getF_setF_other u f g hf.1 hf.2 hg v (.inr ne)
  rw [opened, getF_setInteg, getF_setInteg, getF_setInteg, setInteg_self]
  refine ⟨rfl, ?_, ?_, getF_setF_same named F.INT_READOUT_DONE (by decide) (by decide) 0, fun a ha => ?_, fun _ => rfl, rfl⟩
  · calc getF shown F.INT_READOUT_BUSY = getF named F.INT_READOUT_BUSY := beside _ _ _ _ (by decide) (by decide) (by decide)
      _ = getF busy F.INT_READOUT_BUSY := beside _ _ _ _ (by decide) (by decide) (by decide)
      _ = 1 := getF_setF_bit s (by decide) rfl true
  · calc getF shown F.INT_READOUT_BUFFER = getF named F.INT_READOUT_BUFFER :=
          beside _ _ _ _ (by decide) (by decide) (by decide)
      _ = n % 2 % 2 := getF_setF_same busy F.INT_READOUT_BUFFER (by decide) (by decide) (n % 2)
      _ = n % 2 := Nat.mod_mod n 2
  · have ne := List.ne_of_not_mem_cons ha
    rw [rd_congr (setInteg_regs shown _)]
    calc rd shown a = rd named a := rd_setF_ne _ _ _ ne
      _ = rd busy a := rd_setF_ne _ _ _ ne
      _ = rd s a := rd_setF_ne _ _ _ ne

theorem readoutWindowOpen_completes {s : State} {n : Nat} (hup : Up s) (howed : owedReadout s n = true)
    (hopen : integStart s (n + 1) + spanLen s + 2 ≤ frameOf s)
    (hclose : frameOf s < integStart s (n + 1) + 2 * spanLen s + 2) (hread : s.integ.readout = none) :
    Completes (.readoutWindowOpen n) s fun t =>
      t.integ.readout = some (n, 0) ∧ getF t F.INT_READOUT_BUSY = 1 ∧ getF t F.INT_READOUT_BUFFER = n % 2 ∧
      getF t F.INT_READOUT_DONE = 0 ∧ RegsSameBut [R.INT_READOUT] s t ∧ MemorySame s t := by
  refine completes_run (show execReadoutWindowOpen n s = run _ s from rfl) hup ?_
  dsimp only
  rw [if_pos ⟨howed, hopen, hclose, by rw [hread]; rfl⟩]
  exact readoutOpen_completes s n

/-! ## One more channel is read out (R205, R208) -/

/-- A channel before the last: the next one is due. -/
theorem readoutDone_next {s : State} {c : Nat} (h : getF s F.INT_READOUT_DONE = c) (hc : c < 63) (n : Nat) :
    (readoutDone s n).integ.readout = some (n, c + 1) ∧ getF (readoutDone s n) F.INT_READOUT_DONE = c + 1 := by
  unfold readoutDone
  extract_lets d noted
  have next : d = c + 1 := congrArg (· + 1) h
  have shown : getF noted F.INT_READOUT_DONE = c + 1 := by
    rw [← next]
    exact (getF_setF_same s F.INT_READOUT_DONE (by decide) (by decide) d).trans
      (Nat.mod_eq_of_lt (show d < 2 ^ 7 by omega))
  rw [if_neg (by omega)]
  exact ⟨congrArg (fun k => some (n, k)) next, shown⟩

@[simp] theorem raise_integ (s : State) (src : Nat) : (raise s src).integ = s.integ := by
  unfold raise raiseIn
  split
  · rfl
  · rfl

/-- The last channel: the readout is over. -/
theorem readoutDone_last {s : State} (h : getF s F.INT_READOUT_DONE = 63) (n : Nat) :
    (readoutDone s n).integ.readout = none ∧ (readoutDone s n).integ.lastDone = some n ∧
      getF (readoutDone s n) F.INT_READOUT_BUSY = 0 := by
  unfold readoutDone
  extract_lets d noted ended
  have idle : getF ended F.INT_READOUT_BUSY = 0 :=
    (getF_setInteg ..).trans (getF_setF_bit noted (by decide) rfl false)
  have read : ended.integ.readout = none := rfl
  have done : ended.integ.lastDone = some n := rfl
  have after : Stands {R.INT_READOUT} ended (raise (setPair ended R.INT_DONE_LO n) 4) :=
    ((Stands.refl ended).setPair (by decide) (by decide) n).raise 4
  have same : (raise (setPair ended R.INT_DONE_LO n) 4).integ = ended.integ := raise_integ _ _
  rw [if_pos (congrArg (· + 1) h), same, after.getF (f := F.INT_READOUT_BUSY) rfl]
  exact ⟨read, done, idle⟩

theorem readoutDone_stands (s : State) (n : Nat) : Stands {R.INT_STATUS} s (readoutDone s n) := by
  unfold readoutDone
  extract_lets d noted ended
  have h1 : Stands {R.INT_STATUS} s noted := (Stands.refl s).setF (by decide) d
  have h2 : Stands {R.INT_STATUS} s ended := (h1.setF (f := F.INT_READOUT_BUSY) (by decide) 0).setInteg _
  exact .ite ((h2.setPair (by decide) (by decide) n).raise 4) (h1.setInteg _)

/-! ## What a product leaves alone (R206) -/

namespace Stands

/-- A product is staged, or it is dropped at the end. -/
theorem stageProduct_cases (s : State) (n c : Nat) (bs : List Byte) : ∃ u, Stands (Set.Iio 0xA00040) s u ∧
    (stageProduct s n c bs = u ∨ stageProduct s n c bs = Machine.dropProduct u) := by
  have hK : Set.Iio 0xA00040 ⊆ Set.Iio 0xA00040 := subset_rfl
  unfold stageProduct
  extract_lets z span noted dated
  have h1 : Stands (Set.Iio 0xA00040) s noted := ((Stands.refl s).digestAdd ..).digestAdd ..
  have h2 : Stands (Set.Iio 0xA00040) s dated := h1.digestAdd ..
  have slot (a : Nat) : R.INT_STAGE_FREE_LO z + a ∉ Set.Iio 0xA00040 :=
    notMem_of_bound hK (Nat.le_add_right_of_le (Nat.le_add_right_of_le (by decide)))
  have written (a : Nat) (bs : List Byte) : Stands (Set.Iio 0xA00040) s (Machine.unitWrite dated 5 a bs) :=
    h2.unitWrite (bound_mono hK (by decide)) ..
  split
  · exact ⟨_, h2, .inl rfl⟩
  split
  · refine ⟨_, ?_, .inl rfl⟩
    have staged := (written (stageAddr dated z c) bs).setB (slot (4 * (c / 32))) (c % 32) false
    exact ((staged.bump (notMem_of_bound hK (by decide))).raise 3).brlPendAll (bound_mono hK (by decide)) 6
  · exact ⟨_, .ite (written _ _) h2, .inr rfl⟩

section beside
variable {K : Set Nat} {s t : State} (hK : K ⊆ Set.Iio 0xA00040)
include hK

theorem setChanState (h : Stands K s t) (z c st : Nat) : Stands K s (setChanState t z c st) :=
  h.setF (notMem_of_bound hK (Nat.le_add_right_of_le (Nat.le_add_right 0xA00040 (0x10 * z)))) st

theorem clearChannel (h : Stands K s t) (z c : Nat) : Stands K s (clearChannel t z c) :=
  (h.foldl fun _ _ _ h => h.unitWrite (bound_mono hK (by decide)) ..).setChanState hK z c 1

theorem sumReports (h : Stands K s t) (z c : Nat) (lines : Array (Option (List Byte))) :
    Stands K s (sumReports t z c lines) :=
  h.foldl fun _ _ _ h => .ite (h.unitFetch (bound_mono hK (by decide)) ..) h

theorem dropProduct (hstatus : R.INT_STATUS ∉ K) (h : Stands K s t) : Stands K s (dropProduct t) :=
  ((h.bump (a := R.INT_STAGE_BUSY_COUNT) (notMem_of_bound hK (by decide))).setF hstatus 1).fault
    (bound_mono hK (by decide)) 14

end beside

end Stands

/-- The readout's register stands below the states of the sum store. -/
theorem readoutReg_bound : {R.INT_READOUT} ⊆ Set.Iio (0xA00040 : Nat) :=
  Set.singleton_subset_iff.2 (by decide : R.INT_READOUT < 0xA00040)

/-- The product of a channel leaves what the readout shows alone. -/
theorem stageProduct_readout (s : State) (n c : Nat) (bs : List Byte) :
    Stands {R.INT_READOUT} s (stageProduct s n c bs) := by
  obtain ⟨u, hu, e | e⟩ := Stands.stageProduct_cases s n c bs
  · exact e ▸ hu.mono readoutReg_bound
  · exact e ▸ (hu.mono readoutReg_bound).dropProduct readoutReg_bound (by decide)

/-- Beside a product READOUT_OVERRUN stays as it was, whether or not STAGE_BUSY is set. -/
theorem stageProduct_overrun (s : State) (n c : Nat) (bs : List Byte) :
    getF (stageProduct s n c bs) F.INT_STATUS_READOUT_OVERRUN = getF s F.INT_STATUS_READOUT_OVERRUN := by
  have status : R.INT_STATUS ∈ Set.Iio 0xA00040 := (by decide : R.INT_STATUS < 0xA00040)
  obtain ⟨u, hu, e | e⟩ := Stands.stageProduct_cases s n c bs
  · rw [e, hu.getF status]
  · have counted : Stands {R.INT_STATUS} u (bump u R.INT_STAGE_BUSY_COUNT) := (Stands.refl u).bump (by decide)
    have faulted : Stands {R.INT_STATUS} (setF (bump u R.INT_STAGE_BUSY_COUNT) F.INT_STATUS_STAGE_BUSY 1) (dropProduct u) :=
      (Stands.refl _).fault (Set.singleton_subset_iff.2 (by decide : R.INT_STATUS < 0x1800000)) 14
    rw [e, faulted.getF (f := F.INT_STATUS_READOUT_OVERRUN) rfl,
      getF_setF_other _ _ _ (by decide) (by decide) (by decide) _ (by decide),
      counted.getF (f := F.INT_STATUS_READOUT_OVERRUN) rfl, hu.getF status]

/-! ## READOUT_CHANNEL (R204, R205) -/

/-- The readout of a channel ends with one more channel done; before that it changes nothing that the readout shows. -/
theorem readoutChannel_eq (s : State) (n c : Nat) :
    ∃ u, Stands {R.INT_READOUT} s u ∧ readoutChannel s n c = readoutDone u n := by
  unfold readoutChannel
  extract_lets z state lines bad ues reported counted recorded product staged
  have h1 : Stands {R.INT_READOUT} s reported := .ite (.refl s) ((Stands.refl s).sumReports readoutReg_bound ..)
  have h2 : Stands {R.INT_READOUT} s counted :=
    .ite h1 ((h1.bumpBy (by decide) _).setF (f := F.INT_STATUS_SUM_UE) (by decide) 1)
  have h3 : Stands {R.INT_READOUT} s recorded := h2.setInteg _
  have full : Stands {R.INT_READOUT} s (stageProduct (clearChannel recorded z c) n c product) :=
    (h3.clearChannel readoutReg_bound z c).trans (stageProduct_readout ..)
  have lost : Stands {R.INT_READOUT} s (if emitsInteg s (integStart s n) then dropProduct s else s) :=
    .ite ((Stands.refl s).dropProduct readoutReg_bound (by decide)) (.refl s)
  have shown : Stands {R.INT_READOUT} s staged :=
    .ite (stageProduct_readout ..) (.ite (stageProduct_readout ..) (.ite full (lost.clearChannel readoutReg_bound z c)))
  exact ⟨staged, shown, rfl⟩

theorem readoutChannel_completes {s : State} {n : Nat} {c : Fin 64} (hup : Up s)
    (hread : s.integ.readout = some (n, c.val)) (hdone : getF s F.INT_READOUT_DONE = c)
    (hfold : foldedLast s n c = true) (hon : domOn s 23 = true) : Completes .readoutChannel s fun t =>
      (c.val < 63 → t.integ.readout = some (n, c.val + 1) ∧ getF t F.INT_READOUT_DONE = c.val + 1) ∧
      (c.val = 63 → t.integ.readout = none ∧ t.integ.lastDone = some n ∧ getF t F.INT_READOUT_BUSY = 0) := by
  refine completes_run (show execReadoutChannel s = run _ s from rfl) hup ?_
  obtain ⟨u, hu, e⟩ := readoutChannel_eq s n c
  have done : getF u F.INT_READOUT_DONE = c := (hu.getF (f := F.INT_READOUT_DONE) rfl).trans hdone
  rw [hread]
  dsimp only
  rw [if_pos ⟨hfold, hon⟩, e]
  exact ⟨fun hc => readoutDone_next done hc n, fun hc => readoutDone_last (done.trans hc) n⟩

/-! ## READOUT_WINDOW_CLOSE (R207) -/

/-- A channel that is missed ends as one that is read out, with READOUT_OVERRUN set. -/
theorem readoutMiss_eq (s : State) (n c : Nat) : ∃ u, Stands {R.INT_READOUT} s u ∧
    getF u F.INT_STATUS_READOUT_OVERRUN = 1 ∧ readoutMiss s n c = readoutDone u n := by
  unfold readoutMiss
  extract_lets flagged
  have h1 : Stands {R.INT_READOUT} s flagged :=
    (((Stands.refl s).setChanState readoutReg_bound (n % 2) c 0).bump (by decide)).setF (by decide) 1
  have h2 : Stands {R.INT_READOUT} flagged (fault flagged 14) :=
    (Stands.refl _).fault (bound_mono readoutReg_bound (by decide)) 14
  have faulted : Stands {R.INT_STATUS} flagged (fault flagged 14) :=
    (Stands.refl _).fault (Set.singleton_subset_iff.2 (by decide : R.INT_STATUS < 0x1800000)) 14
  refine ⟨_, (h1.trans h2).trans (stageProduct_readout ..), ?_, rfl⟩
  calc getF (stageProduct (fault flagged 14) n c _) F.INT_STATUS_READOUT_OVERRUN
      = getF (fault flagged 14) F.INT_STATUS_READOUT_OVERRUN := stageProduct_overrun ..
    _ = getF flagged F.INT_STATUS_READOUT_OVERRUN := faulted.getF rfl
    _ = 1 := getF_setF_bit _ (by decide) rfl true

/-- The `k` channels from `c` on are missed. -/
def missChannels (s : State) (n c k : Nat) : State := (List.range' c k).foldl (fun s c => readoutMiss s n c) s

theorem missChannels_succ (s : State) (n c k : Nat) :
    missChannels s n c (k + 1) = readoutMiss (missChannels s n c k) n (c + k) := by
  rw [missChannels, List.range'_1_concat, List.foldl_append, List.foldl_cons, List.foldl_nil, missChannels]

/-- Missed channels up to one before the last count as done. -/
theorem missChannels_done {s : State} {c k : Nat} (h : getF s F.INT_READOUT_DONE = c) (hk : c + k < 64) (n : Nat) :
    getF (missChannels s n c k) F.INT_READOUT_DONE = c + k := by
  induction k with
  | zero => exact h
  | succ k ih =>
    obtain ⟨u, hu, -, e⟩ := readoutMiss_eq (missChannels s n c k) n (c + k)
    have before : getF u F.INT_READOUT_DONE = c + k :=
      (hu.getF (f := F.INT_READOUT_DONE) rfl).trans (ih (by omega))
    rw [missChannels_succ, e]
    exact (readoutDone_next before (by omega) n).2

/-- Once all the channels left are missed, the readout is over. -/
theorem missChannels_all {s : State} {c : Nat} (h : getF s F.INT_READOUT_DONE = c) (hc : c < 64) (n : Nat) :
    (missChannels s n c (64 - c)).integ.readout = none ∧ (missChannels s n c (64 - c)).integ.lastDone = some n ∧
      getF (missChannels s n c (64 - c)) F.INT_STATUS_READOUT_OVERRUN = 1 := by
  have left : 64 - c = 63 - c + 1 := by omega
  obtain ⟨u, hu, overrun, e⟩ := readoutMiss_eq (missChannels s n c (63 - c)) n (c + (63 - c))
  have before : getF u F.INT_READOUT_DONE = 63 := calc
    getF u F.INT_READOUT_DONE = getF (missChannels s n c (63 - c)) F.INT_READOUT_DONE := hu.getF rfl
    _ = c + (63 - c) := missChannels_done h (by omega) n
    _ = 63 := by omega
  obtain ⟨read, last, -⟩ := readoutDone_last before n
  rw [left, missChannels_succ, e, (readoutDone_stands u n).getF (f := F.INT_STATUS_READOUT_OVERRUN) rfl]
  exact ⟨read, last, overrun⟩

/-- The readout that a window ends: the one under way, or one that a step jumped over, which begins with channel 0. -/
theorem closing_readout {s : State} {n : Nat}
    (h : ∀ c, s.integ.readout = some (n, c) → c < 64 ∧ getF s F.INT_READOUT_DONE = c) :
    ∃ t c, (if s.integ.readout.any (·.1 == n) then s else readoutOpen s n) = t ∧ c < 64 ∧
      t.integ.readout = some (n, c) ∧ getF t F.INT_READOUT_DONE = c := by
  split
  · next own =>
    obtain ⟨⟨m, c⟩, hread, hm⟩ := (Option.any_eq_true _ _).1 own
    obtain rfl : m = n := beq_iff_eq.1 hm
    obtain ⟨hc, done⟩ := h c hread
    exact ⟨s, c, rfl, hc, hread, done⟩
  · obtain ⟨read, -, -, done, -⟩ := readoutOpen_completes s n
    exact ⟨readoutOpen s n, 0, rfl, by decide, read, done⟩

theorem readoutWindowClose_completes {s : State} {n : Nat} (hup : Up s) (howed : owedReadout s n = true)
    (hclose : integStart s (n + 1) + 2 * spanLen s + 2 ≤ frameOf s)
    (hread : ∀ c, s.integ.readout = some (n, c) → c < 64 ∧ getF s F.INT_READOUT_DONE = c) :
    Completes (.readoutWindowClose n) s fun t =>
      t.integ.readout = none ∧ t.integ.lastDone = some n ∧ getF t F.INT_STATUS_READOUT_OVERRUN = 1 := by
  refine completes_run (show execReadoutWindowClose n s = run _ s from rfl) hup ?_
  obtain ⟨t, c, e, hc, read, done⟩ := closing_readout hread
  dsimp only
  rw [if_pos ⟨howed, hclose⟩, e, read]
  exact missChannels_all done hc n

end Sys2Proof.Machine
end

namespace Sys2Proof
open Machine

/-- Settles O13: each command is served on a block that is up, and what its rule names follows from the lemma about it. The
products that a readout stages leave the readout's own register alone (`stageProduct_readout`), so the channels done count
on to the last. -/
theorem integrationCommandsComplete : Obligations.IntegrationCommandsComplete := by
  unfold Obligations.IntegrationCommandsComplete
  exact ⟨fun s hup hen hread => intEnable_completes hup hen hread, fun s hup hen => intDisable_completes hup hen,
    fun s n hup howed hopen hclose hread => readoutWindowOpen_completes hup howed hopen hclose hread,
    fun s n c hup hread hdone hfold hon => readoutChannel_completes hup hread hdone hfold hon,
    fun s n hup howed hclose hread => readoutWindowClose_completes hup howed hclose hread⟩

end Sys2Proof

section
/-! Which spectrum the beamformer has sent, which sums it holds and whether it flagged an overrun: what follows the send point
of a spectrum, the beam search and the triggers that it fires among it, leaves them alone (R231 to R234, R244 to R263). -/
namespace Sys2Proof.Machine

/-- In `t` the chip sums, the latest spectrum sent and OVERRUN stand as in `s`. -/
structure SendKept (s t : State) : Prop where
  overrun : getF t F.BFM_STATUS_OVERRUN = getF s F.BFM_STATUS_OVERRUN
  sums : t.bfm.sums = s.bfm.sums
  last : t.bfm.lastSend = s.bfm.lastSend

namespace SendKept

variable {s t u : State}

theorem refl (s : State) : SendKept s s := ⟨rfl, rfl, rfl⟩

theorem trans (h : SendKept s t) (h' : SendKept t u) : SendKept s u :=
  ⟨h'.overrun.trans h.overrun, h'.sums.trans h.sums, h'.last.trans h.last⟩

/-! ## Ways to compose -/

/-- A state that differs in what other units hold keeps them too. -/
theorem same (h : SendKept s t) (hr : u.regs = t.regs) (hb : u.bfm = t.bfm) : SendKept s u :=
  h.trans ⟨by rw [Machine.getF, rd_congr hr, Machine.getF], by rw [hb], by rw [hb]⟩

theorem ite {p : Prop} [Decidable p] (ht : SendKept s t) (hu : SendKept s u) : SendKept s (if p then t else u) := by
  split
  · exact ht
  · exact hu

theorem ite_fst {β : Type} {p q : State × β} {c : Prop} [Decidable c] (hp : SendKept s p.1) (hq : SendKept s q.1) :
    SendKept s (if c then p else q).1 := by
  split
  · exact hp
  · exact hq

theorem foldl {α : Type} {f : State → α → State} (hf : ∀ t x, SendKept s t → SendKept s (f t x)) (l : List α)
    (h : SendKept s t) : SendKept s (l.foldl f t) := by
  induction l generalizing t with
  | nil => exact h
  | cons x l ih => exact ih (hf t x h)

theorem of_fst {β : Type} {p : State × β} {x : β} (e : p = (u, x)) (h : SendKept s p.1) : SendKept s u := by
  rwa [e] at h

/-! ## The named updates -/

theorem wr (h : SendKept s t) {a : Nat} (ha : R.BFM_STATUS ≠ a) (v : Word) : SendKept s (wr t a v) :=
  h.trans ⟨by rw [Machine.getF, rd_wr_ne t v ha, Machine.getF], rfl, rfl⟩

theorem setR (h : SendKept s t) {a : Nat} (ha : R.BFM_STATUS < a) (v : Nat) : SendKept s (setR t a v) := h.wr ha.ne _

theorem setF (h : SendKept s t) {f : Fld} (ha : R.BFM_STATUS < f.addr) (v : Nat) : SendKept s (setF t f v) := h.wr ha.ne _

theorem setB (h : SendKept s t) {a : Nat} (ha : R.BFM_STATUS < a) (i : Nat) (b : Bool) : SendKept s (setB t a i b) :=
  h.wr ha.ne _

theorem setPair (h : SendKept s t) {a : Nat} (ha : R.BFM_STATUS < a) (v : Nat) : SendKept s (setPair t a v) :=
  ((h.setR ha _).setR (Nat.lt_add_right _ ha) _).same rfl rfl

theorem bumpBy (h : SendKept s t) {a : Nat} (ha : R.BFM_STATUS < a) (n : Nat) : SendKept s (bumpBy t a n) :=
  (h.setR ha _).same rfl rfl

theorem bump (h : SendKept s t) {a : Nat} (ha : R.BFM_STATUS < a) : SendKept s (bump t a) := h.bumpBy ha 1

theorem raise (h : SendKept s t) (src : Nat) : SendKept s (raise t src) := ite (h.same rfl rfl) h

theorem emit (h : SendKept s t) (o : Out) : SendKept s (emit t o) := h.same rfl rfl

theorem setTrg (h : SendKept s t) (f : Trg → Trg) : SendKept s (setTrg t f) := h.same rfl rfl

theorem setMem (h : SendKept s t) (f : MemCtl → MemCtl) : SendKept s (setMem t f) := h.same rfl rfl

theorem setBfm (h : SendKept s t) {f : Bfm → Bfm} (hs : (f t.bfm).sums = t.bfm.sums := by rfl)
    (hl : (f t.bfm).lastSend = t.bfm.lastSend := by rfl) : SendKept s (setBfm t f) := h.trans ⟨rfl, hs, hl⟩

/-- Another bit of the status register. -/
theorem setStatus (h : SendKept s t) {f : Fld} (hf : f.hi < 32 ∧ f.lo ≤ f.hi) (apart : 8 < f.lo ∨ f.hi < 8) (v : Nat) :
    SendKept s (Machine.setF t f v) :=
  h.trans ⟨getF_setF_other t f F.BFM_STATUS_OVERRUN hf.1 hf.2 le_rfl v (.inr apart), rfl, rfl⟩

theorem dramWrite (h : SendKept s t) (a : Nat) (bs : List Byte) : SendKept s (dramWrite t a bs) := h.same rfl rfl

theorem digestAdd (h : SendKept s t) (span i : Nat) (f : Nat → Nat) : SendKept s (digestAdd t span i f) :=
  ite h (h.same rfl rfl)

theorem sendOn (h : SendKept s t) (lanes : List Nat) (header payload : List Byte) :
    SendKept s (sendOn t lanes header payload) := ite (h.emit _) h

/-! ## Faults (R467), the vectors of the cores (R289) and accesses to DRAM (R302, R306 to R309) -/

theorem fault (h : SendKept s t) (n : Nat) : SendKept s (fault t n) :=
  have noted := h.wr (a := R.HLT_FAULT) (by decide) _
  ite noted ((noted.setF (by decide) _).setPair (by decide) _)

theorem brlPendAll (h : SendKept s t) (v : Nat) : SendKept s (brlPendAll t v) := by
  have wake {u : State} (hu : SendKept s u) (k : Nat) : SendKept s (brlWake u k) :=
    ite ((hu.setF (f := F.BRL_STATUS_STATE k) (Nat.lt_add_right _ (by decide)) 1).same rfl rfl) hu
  exact h.foldl (fun _ k h => ite (ite (h.bump (Nat.lt_add_right _ (by decide)))
    (wake (h.setB (Nat.lt_add_right _ (by decide)) v true) k)) h) _

theorem memLog (h : SendKept s t) (kind req symbol a synd : Nat) : SendKept s (memLog t kind req symbol a synd) :=
  ite ((h.bump (by decide)).setF (by decide) 1) ((h.dramWrite _ _).setF (by decide) _)

theorem ueReport (h : SendKept s t) (req line : Nat) (rmw : Bool) (ws : List Nat) :
    SendKept s (ueReport t req line rmw ws) :=
  (((((h.foldl (fun _ _ h => h.memLog ..) ws).setMem _).bump (by decide)).setF (by decide) 1).raise 12).fault 6

theorem served (h : SendKept s t) (req a n : Nat) : SendKept s (served t req a n) := by
  have woken {v : State} (hv : SendKept s v) (i : Nat) : SendKept s (leaveSelfRefresh v i) :=
    have state : R.BFM_STATUS < R.MEM_STATE i := Nat.lt_add_right _ (by decide)
    ite (((hv.setF state 0).setF state 0).setF state 0) hv
  exact ite ((h.setMem _).foldl (fun _ i hv => woken hv i) _) (h.setMem _)

theorem unitWrite (h : SendKept s t) (req a : Nat) (bs : List Byte) : SendKept s (unitWrite t req a bs) :=
  ite h (ite (((h.bump (by decide)).setF (by decide) 1).memLog ..)
    (((h.served ..).dramWrite _ _).foldl (fun _ _ h => h.ueReport ..) _))

/-! ## Captures and holds (R257 to R263) -/

theorem captureChecks (h : SendKept s t) : SendKept s (captureChecks t) := by
  have shown : SendKept s (rawShow t) := ((h.setF (by decide) _).setF (by decide) _).foldl (fun _ _ h =>
    (h.setF (Nat.lt_add_right _ (by decide)) _).setF (Nat.lt_add_right _ (by decide)) _) _
  have checked {u : State} (hu : SendKept s u) (c : Nat) : SendKept s (captureCheck u c) :=
    have state : R.BFM_STATUS < R.TRG_CAPTURE c := Nat.lt_add_right _ (by decide)
    ite (((hu.setF (f := F.TRG_CAPTURE_STATE c) state 2).raise 9).brlPendAll 7)
      (ite (hu.setF (f := F.TRG_CAPTURE_STATE c) state 1) hu)
  exact shown.foldl (fun _ c h => checked h c) _

theorem setCaptureRange (h : SendKept s t) (c : Nat) (r : Nat × Nat) : SendKept s (setCaptureRange t c r) := by
  have word (k : Nat) : R.BFM_STATUS < R.TRG_CAPTURE c + k := Nat.lt_add_right _ (Nat.lt_add_right _ (by decide))
  exact (((h.setR (word 4) _).setR (word 8) _).setR (word 12) _).setR (word 16) _

theorem claimBlock (h : SendKept s t) {c b : Nat} (hu : claimBlock t c b = .done u) : SendKept s u := by
  have seg (k : Nat) : R.BFM_STATUS < R.TRG_SEG k := Nat.lt_add_right _ (by decide)
  unfold Machine.claimBlock at hu
  extract_lets held new at hu
  split at hu
  · cases hu
  next k _ =>
    split at hu
    · cases hu
      exact h
    split at hu
    · cases hu
    extract_lets counted claimed kept at hu
    injection hu with hu
    have h1 : SendKept s claimed := ite ((h.setF (seg k) _).setTrg _) (h.setF (seg k) _)
    have h2 : SendKept s kept := ite (h1.setF (seg k) 1) (h1.setF (seg k) 3)
    exact hu ▸ h2.setTrg _

theorem claimBlocks (h : SendKept s t) (c : Nat) (bs : List Nat) : SendKept s (claimBlocks t c bs) := by
  have capture : R.BFM_STATUS < R.TRG_CAPTURE c := Nat.lt_add_right _ (by decide)
  induction bs generalizing t with
  | nil => exact h
  | cons b bs ih =>
    unfold Machine.claimBlocks
    split
    · next hu => exact ih (h.claimBlock hu)
    · exact ih (h.setF capture 1)
    · exact h.setF capture 1

theorem freeze (h : SendKept s t) (ft : Nat) : SendKept s (freeze t ft).1 := by
  have capture (c : Nat) : R.BFM_STATUS < R.TRG_CAPTURE c := Nat.lt_add_right _ (by decide)
  unfold Machine.freeze
  extract_lets lo hi a b refused
  have hrefused : SendKept s refused.1 := (h.bump (by decide)).setF (by decide) 1
  split
  · exact hrefused
  split
  · next c _ =>
    have joined := (h.setCaptureRange c (min (captureRange t c).1 a, max (captureRange t c).2 (b + 5))).setF
      (f := F.TRG_CAPTURE_TRIGGERS c) (capture c)
    exact ((joined _).claimBlocks ..).captureChecks
  split
  · next c _ =>
    have opened := ((h.setR (capture c) 0).setF (f := F.TRG_CAPTURE_STATE c) (capture c) 1).setF
      (f := F.TRG_CAPTURE_TRIGGERS c) (capture c) 1
    exact (((opened.setTrg _).setCaptureRange ..).claimBlocks ..).captureChecks
  · exact hrefused

/-- The registers of the span slots stand below those of the beamformer. -/
theorem slot_ne_status {n k : Nat} (h : slotOf s n = some k) : R.BFM_STATUS ≠ R.XR_SLOT k := by
  have slot : k < 4 := List.mem_range.1 (List.mem_of_find?_eq_some h)
  simp only [R.BFM_STATUS, R.XR_SLOT]
  omega

theorem holdSlot (h : SendKept s t) (ft : Nat) (cap : Option Nat) : SendKept s (holdSlot t ft cap).1 := by
  unfold Machine.holdSlot
  extract_lets refused
  have hrefused : SendKept s refused.1 := (h.bump (by decide)).setF (by decide) 1
  split
  · exact hrefused
  next k hslot =>
    extract_lets own owners
    have howned {u : State} (hu : SendKept s u) : SendKept s (own u) := by
      dsimp only [own]
      split
      · exact (hu.setF (Nat.lt_add_right _ (by decide)) 1).setF (Nat.lt_add_right _ (by decide)) k
      · exact hu
    have held : SendKept s (Machine.setF t (F.XR_SLOT_HELD k) 1) := h.wr (slot_ne_status hslot) _
    split_ifs
    · exact hrefused
    · exact howned (h.setTrg _)
    · exact hrefused
    · exact howned (held.setTrg _)

/-! ## A trigger fires (R245, R253 to R255) -/

theorem signpostSend (h : SendKept s t) (x : Trigger) : SendKept s (signpostSend t x).1 := by
  unfold Machine.signpostSend
  extract_lets f n hops header sent
  have h1 : SendKept s sent := h.foldl (fun _ _ h => h.foldl (fun _ _ h => h.sendOn ..) _) _
  split_ifs
  · exact h
  · exact (h.bump (by decide)).setF (by decide) 1
  · dsimp only
    exact (h1.bump (by decide)).setTrg _

theorem recordWrite (h : SendKept s t) (x : Trigger) (flags capture slot : Nat) :
    SendKept s (recordWrite t x flags capture slot) := by
  unfold Machine.recordWrite
  extract_lets bs numbered f digested count head written
  have h1 : SendKept s digested := (h.setTrg _).digestAdd ..
  have h2 : SendKept s written := h1.unitWrite ..
  refine ite h1 (ite ?_ ?_)
  · exact ((h1.bump (by decide)).setF (by decide) 1).fault 14
  · exact ((h2.setR (by decide) _).bump (by decide)).brlPendAll 4

theorem fireTrigger (h : SendKept s t) (x : Trigger) : SendKept s (fireTrigger t x) := by
  unfold Machine.fireTrigger
  extract_lets ft
  split
  next t1 cap hcap =>
  split
  next t2 slot hslot =>
  split
  next t3 sent hsent =>
  have h1 : SendKept s t1 := of_fst hcap (ite_fst (h.freeze ft) h)
  have h2 : SendKept s t2 := of_fst hslot (ite_fst (h1.holdSlot ft cap) h1)
  have h3 : SendKept s t3 := of_fst hsent (ite_fst (h2.signpostSend x) h2)
  extract_lets flags recorded
  have h4 : SendKept s recorded := ite h3 (h3.recordWrite ..)
  refine ite ?_ h4
  split
  · exact h4.raise 6
  · exact h4.raise 7
  · exact h4.raise 8
  · exact h4

/-! ## The beam search (R250 to R252) -/

theorem beamSearchAt (h : SendKept s t) (f n : Nat) (skip : Bool) : SendKept s (beamSearchAt t f n skip) := by
  unfold Machine.beamSearchAt
  extract_lets x seeded vs gap holdoff ss
  have h1 : SendKept s seeded := ite (h.same rfl rfl) h
  refine h1.foldl (fun u k hu => ite ?_ hu) _
  extract_lets b undef drawn
  have h2 : SendKept s drawn := ite (hu.same rfl rfl) hu
  split
  next b fired _ =>
  extract_lets stepped
  have h3 : SendKept s stepped := h2.setTrg _
  split
  · exact (h3.bump (by decide)).fireTrigger _
  · exact h3

/-! ## What a send point sends (R230, R233, R234) -/

theorem beamFlag (h : SendKept s t) (f bits : Nat) : SendKept s (beamFlag t f bits) := h.setBfm

theorem relaySend (h : SendKept s t) (f n o : Nat) (sums : List (Int × Int)) : SendKept s (relaySend t f n o sums) :=
  ite ((h.bump (by decide)).sendOn ..) h

theorem voltageSend (h : SendKept s t) (f n : Nat) (vs : Array (Int × Int)) : SendKept s (voltageSend t f n vs) :=
  ite h (h.foldl (fun _ _ h => ite (h.foldl (fun _ _ h => h.sendOn ..) _) h) _)

end SendKept

/-! ## The send point (R231, R241) -/

/-- Once a spectrum's sums are taken, it is the latest sent, and none are held; OVERRUN is set where there were none. What is
sent after that keeps it so. -/
theorem sendPointAct_takes (s : State) (f n : Nat) : ∃ u, SendKept u (sendPointAct s f n) ∧
    u.bfm.lastSend = some (256 * f + n) ∧ u.bfm.sums.find (256 * f + n) = none ∧
      (s.bfm.sums.find (256 * f + n) = none → getF u F.BFM_STATUS_OVERRUN = 1) := by
  unfold sendPointAct
  extract_lets key unfinished p halves flagged octets missing gapped gap sums
  split
  next k l _ =>
  extract_lets counted taken
  have h1 : SendKept flagged gapped := .ite (.refl _)
    (((SendKept.refl _).bumpBy (by decide) _).setStatus (by decide) (by decide) 1)
  have h2 : SendKept flagged counted := .ite h1 (h1.bumpBy (by decide) _)
  refine ⟨taken, ?_, rfl, (SMap.find_drop counted.bfm.sums (· ≤ key) key).trans (if_pos (decide_eq_true le_rfl)),
    fun unheld => ?_⟩
  · split
    · refine SendKept.foldl (fun t x ht => ?_) _ (.refl _)
      obtain ⟨x, o⟩ := x
      cases x with
      | some sums => exact ht.relaySend ..
      | none => exact ht
    split
    next vs clips _ =>
    extract_lets clipped formed digested
    have h3 : SendKept taken clipped := .ite (.refl _)
      ((((SendKept.refl _).bumpBy (by decide) _).setStatus (by decide) (by decide) 1).beamFlag ..)
    exact (h3.setBfm.digestAdd ..).voltageSend ..
  · have first : unfinished = true := by simp only [unfinished, key, unheld, Option.isNone_none]
    calc getF counted F.BFM_STATUS_OVERRUN = getF flagged F.BFM_STATUS_OVERRUN := h2.overrun
      _ = 1 := by
        rw [show flagged = _ from if_pos first]
        exact getF_setF_bit _ (by decide) rfl true

theorem relaySendPoint_completes {s : State} {f n : Nat} (hrun : bfmRuns s f = true) (hcal : cal8Of s f = false)
    (hat : sendPoint s f n ≤ (advanceTo s (sendPoint s f n)).counter.toNat)
    (hlast : ∀ x, s.bfm.lastSend = some x → x < 256 * f + n) :
    (sendPointAll s f n).bfm.lastSend = some (256 * f + n) ∧ (sendPointAll s f n).bfm.sums.find (256 * f + n) = none ∧
      (s.bfm.sums.find (256 * f + n) = none → getF (sendPointAll s f n) F.BFM_STATUS_OVERRUN = 1) := by
  obtain ⟨counter, hadv⟩ := advanceTo_eq s (sendPoint s f n)
  have inOrder : s.bfm.lastSend.all (· < 256 * f + n) = true :=
    (Option.all_eq_true _ _).2 fun x hx => decide_eq_true (hlast x hx)
  have normal : ¬ cal8Of { s with counter } f = true := ne_true_of_eq_false hcal
  obtain ⟨u, taken, hlastSend, hsums, hoverrun⟩ := sendPointAct_takes { s with counter } f n
  have kept : SendKept u (sendPointAll s f n) := by
    rw [hadv] at hat
    rw [sendPointAll, hadv]
    dsimp only
    rw [if_pos ⟨hrun, hat, inOrder⟩, if_neg normal]
    exact .ite (taken.beamSearchAt f n false) taken
  rw [kept.last, kept.sums, kept.overrun]
  exact ⟨hlastSend, hsums, hoverrun⟩

end Sys2Proof.Machine
end

section
/-! The beam point, the flips, the weight store and the sums that come in over the relay (R222 to R227, R231, R461). -/
namespace Sys2Proof.Machine

/-! ## BEAM_POINT (R225 to R227, R241) -/

/-- The beam point of a spectrum changes the beamformer's hidden state alone: the spectrum is past, the input buffer holds
nothing of it, and with both halves on its chip sums are formed. -/
theorem beamPointAct_completes (s : State) (f n : Nat) :
    (beamPointAct s f n).bfm.lastPoint = some (256 * f + n) ∧
      (halvesOn s = 3 → ((beamPointAct s f n).bfm.sums.find (256 * f + n)).isSome = true) ∧
      (∀ c : Fin 64, (beamPointAct s f n).bfm.buffer.find (64 * (256 * f + n) + c.val) = none) ∧
      RegsSameBut [] s (beamPointAct s f n) ∧ MemorySame s (beamPointAct s f n) := by
  unfold beamPointAct
  extract_lets takes sums flagged
  obtain ⟨b, hflagged⟩ : ∃ b, flagged = setBfm s b := by
    unfold flagged
    split
    · exact ⟨id, rfl⟩
    · exact ⟨_, rfl⟩
  rw [hflagged]
  refine ⟨rfl, fun on => ?_, fun c => ?_, fun _ _ => rfl, fun _ => rfl, rfl⟩
  · have some_on : halvesOn (setBfm s b) ≠ 0 := by
      rw [show halvesOn (setBfm s b) = 3 from on]
      decide
    rw [setBfm_self, if_neg some_on, SMap.find_put_same]
    rfl
  · have past : (64 * (256 * f + n) + c.val) / 64 ≤ 256 * f + n := by omega
    exact (SMap.find_drop (b s.bfm).buffer (· / 64 ≤ 256 * f + n) _).trans (if_pos (decide_eq_true past))

theorem beamPoint_completes {s : State} {f : Nat} {n : Fin 256} (hup : Up s) (hrun : bfmRuns s f = true)
    (hcal : cal8Of s f = false) (hat : beamPoint f n ≤ (advanceTo s (beamPoint f n)).counter.toNat)
    (hlast : ∀ x, s.bfm.lastPoint = some x → x < 256 * f + n.val) : Completes (.beamPoint f n) s fun t =>
      t.bfm.lastPoint = some (256 * f + n.val) ∧ (halvesOn s = 3 → (t.bfm.sums.find (256 * f + n.val)).isSome = true) ∧
      (∀ c : Fin 64, t.bfm.buffer.find (64 * (256 * f + n.val) + c.val) = none) ∧ RegsSameBut [] s t ∧ MemorySame s t := by
  refine completes_run (show execBeamPoint f n s = run _ s from rfl) hup ?_
  obtain ⟨counter, hadv⟩ := advanceTo_eq s (beamPoint f n)
  have inOrder : s.bfm.lastPoint.all (· < 256 * f + n) = true :=
    (Option.all_eq_true _ _).2 fun x hx => decide_eq_true (hlast x hx)
  dsimp only
  rw [hadv] at hat ⊢
  rw [if_pos ⟨hrun, ne_true_of_eq_false hcal, hat, inOrder⟩]
  exact beamPointAct_completes { s with counter } f n

/-! ## BFM_FLIP_ARM (R224) -/

/-- A flip is armed for a frame later than the one the next tick starts, with the mask as it stands, and refused for an
earlier one. -/
theorem flipArm_completes (s : State) {high : BitVec 16} {f : Nat}
    (hf : f = getR s R.BFM_FLIP_FRAME_LO + high.toNat * 2 ^ 32) :
    MemorySame s (flipArm s (high.setWidth 32)) ∧
      if f ≤ nextTick s then
        (flipArm s (high.setWidth 32)).bfm.flip = s.bfm.flip ∧
          getF (flipArm s (high.setWidth 32)) F.BFM_FLIP_CTRL_LATE = 1
      else (flipArm s (high.setWidth 32)).bfm.flip = some (f, bits256 s (R.BFM_FLIP_MASK 0)) ∧
        getF (flipArm s (high.setWidth 32)) F.BFM_FLIP_CTRL_ARMED = 1 := by
  unfold flipArm
  extract_lets t g
  have hg : g = f := (getPair_writePairHigh s _ _).trans (by rw [toNat_armHigh, hf])
  have tick : nextTick t = nextTick s := rfl
  have mask : bits256 t (R.BFM_FLIP_MASK 0) = bits256 s (R.BFM_FLIP_MASK 0) := by
    have word (m : Nat) : getR t (R.BFM_FLIP_MASK 0 + 4 * m) = getR s (R.BFM_FLIP_MASK 0 + 4 * m) := by
      have other : R.BFM_FLIP_MASK 0 + 4 * m ≠ R.BFM_FLIP_FRAME_LO + 4 := by
        simp only [R.BFM_FLIP_MASK, R.BFM_FLIP_FRAME_LO]
        omega
      exact congrArg BitVec.toNat (rd_wr_ne s _ other)
    simp only [bits256, word]
  rw [hg, tick, mask]
  split
  · exact ⟨⟨fun _ => rfl, rfl⟩, rfl, getF_setF_bit t (by decide) rfl true⟩
  · exact ⟨⟨fun _ => rfl, rfl⟩, rfl, getF_setF_bit t (by decide) rfl true⟩

theorem bfmFlipArm_completes {s : State} {m : Master} {high : BitVec 16} {f : Nat} (hs : Sends s m)
    (htwin : twinState s = 0 ∨ 5 ≤ twinState s) (hf : f = getR s R.BFM_FLIP_FRAME_LO + high.toNat * 2 ^ 32) :
    Completes (.bfmFlipArm m high) s fun t =>
      MemorySame s t ∧
      if f ≤ nextTick s then t.bfm.flip = s.bfm.flip ∧ getF t F.BFM_FLIP_CTRL_LATE = 1
      else t.bfm.flip = some (f, bits256 s (R.BFM_FLIP_MASK 0)) ∧ getF t F.BFM_FLIP_CTRL_ARMED = 1 := by
  refine completes_mirrored rfl hs htwin fun t (ht : flipArm s (high.setWidth 32) = t) twin out => ?_
  have armed := flipArm_completes s hf
  rw [ht] at armed
  exact armed

/-! ## The bytes of the weight store (R221 to R223) -/

/-- One byte of a write to the weight store at `off`, left out where it is disabled. -/
def storeByte (off : Nat) (s : State) (x : Option Byte × Nat) : State :=
  match x with
  | (some v, i) => arrSet s .weight (off + i) (v.setWidth 64)
  | (none, _) => s

theorem weightStore_eq (s : State) (off : Nat) (bs : List (Option Byte)) :
    weightStore s off bs = bs.zipIdx.foldl (storeByte off) s := by
  unfold weightStore
  congr 1
  funext s x
  obtain ⟨_ | v, i⟩ := x
  · rfl
  · rfl

theorem storeByte_dram (off : Nat) (s : State) (x : Option Byte × Nat) : (storeByte off s x).dram = s.dram := by
  obtain ⟨_ | v, i⟩ := x
  · rfl
  · rfl

theorem weightStore_dram (s : State) (off : Nat) (bs : List (Option Byte)) : (weightStore s off bs).dram = s.dram := by
  rw [weightStore_eq]
  exact foldl_field State.dram (storeByte_dram off) _ s

theorem arrGet_storeByte_ne (s : State) (off d : Nat) {b : Option Byte} {i j : Nat} (h : j ≠ i) :
    arrGet (storeByte off s (b, j)) .weight d (off + i) = arrGet s .weight d (off + i) := by
  cases b with
  | some v => exact (arrGet_arrSet ..).trans (if_neg (by omega))
  | none => rfl

/-- Each enabled byte is stored: those that follow it go to other entries. -/
theorem arrGet_weightStore (s : State) (off d : Nat) {i : Nat} {bs : List (Option Byte)} {v : Byte}
    (hi : bs[i]? = some (some v)) : arrGet (weightStore s off bs) .weight d (off + i) = v.setWidth 64 := by
  rw [weightStore_eq]
  induction bs using List.reverseRecOn with
  | nil => cases hi
  | append_singleton bs b ih =>
    rw [List.zipIdx_append, List.foldl_append, Nat.zero_add, List.zipIdx_singleton, List.foldl_cons, List.foldl_nil]
    rw [List.getElem?_append] at hi
    split at hi
    · next before => rw [arrGet_storeByte_ne _ off d before.ne', ih hi]
    · next after =>
      rw [List.getElem?_singleton] at hi
      split at hi
      · next last =>
        obtain rfl : i = bs.length := by omega
        obtain rfl : b = some v := Option.some_inj.1 hi
        exact arrGet_arrSet_same ..
      · cases hi

/-- A write meets a protected byte where one of its enabled bytes is protected. -/
theorem weightTouches_iff (s : State) (off : Nat) (bs : List (Option Byte)) :
    weightTouches s off bs = true ↔ ∃ i v, bs[i]? = some (some v) ∧ weightProtected s (off + i) = true := by
  unfold weightTouches
  simp only [List.any_eq_true, Bool.and_eq_true, Prod.exists, List.mk_mem_zipIdx_iff_getElem?, Option.isSome_iff_exists]
  constructor
  · rintro ⟨b, i, hi, ⟨v, rfl⟩, hp⟩
    exact ⟨i, v, hi, hp⟩
  · rintro ⟨i, v, hi, hp⟩
    exact ⟨some v, i, hi, ⟨v, rfl⟩, hp⟩

/-- An access takes the first 64 bytes it is given. -/
theorem getElem?_take_64 {bs : List (Option Byte)} {i : Nat} {v : Byte} :
    (bs.take 64)[i]? = some (some v) ↔ i < 64 ∧ bs[i]? = some (some v) := by
  rw [List.getElem?_take]
  split
  · next h => exact (and_iff_right h).symm
  · next h => exact ⟨nofun, fun hi => absurd hi.1 h⟩

/-! ## WEIGHT_STORE_WRITE (R222, R223, R461) -/

/-- A read that the store answers returns the bytes enabled, as stored. -/
theorem weightFetch_on {s : State} {m : Master} {off : Nat} (hreach : reaches m 4 = true)
    (hon : domOn s (beamDomain (weightBeam off)) = true) (bs : List (Option Byte)) :
    weightFetch s m off (bs.map (·.isSome)) = emit s (.weightData m off (bs.zipIdx.map fun x =>
      if x.1.isSome then (arrGet s .weight (beamDomain (weightBeam off)) (off + x.2)).setWidth 8 else 0)) := by
  refine (if_pos (by rw [hreach, hon, Bool.and_self])).trans ?_
  beta_reduce
  rw [List.zipIdx_map, List.map_map]
  rfl

section weight
variable {s : State} {m : Master} {off : BitVec 26} {bs : List (Option Byte)} (hs : Sends s m)
include hs

section write
variable (htwin : twinState s = 0 ∨ 5 ≤ twinState s) (hon : domOn s (beamDomain (weightBeam off.toNat)) = true)
include htwin hon

/-- A write that the twin state lets through completes with what the weight store makes of it, but for the twin unit and what
was sent. -/
theorem completes_weightWrite {post : State → Prop}
    (hp : ∀ t, weightWrite s off.toNat (bs.take 64) = t → ∀ twin out, post { t with twin, out }) :
    Completes (.weightStoreWrite m off ⟨false, bs⟩) s post := by
  refine completes_runBy rfl hs ?_
  obtain ⟨twin, out, e⟩ := mirroredWrite_done htwin (apply := (weightWrite · off.toNat (bs.take 64))) rfl true off.toNat
    (bs.take 64) (!weightTouches s off.toNat (bs.take 64))
  dsimp only
  rw [if_neg Bool.false_ne_true, weightAccess, arrayAccess_on hon, e]
  exact hp _ rfl twin out

theorem weightStoreWrite_stores
    (hfree : ∀ (i : Nat) (v : Byte), i < 64 → bs[i]? = some (some v) → weightProtected s (off.toNat + i) = false) :
    Completes (.weightStoreWrite m off ⟨false, bs⟩) s fun t =>
      (∀ (i : Nat) (v : Byte), i < 64 → bs[i]? = some (some v) →
        arrGet t .weight (beamDomain (weightBeam off.toNat)) (off.toNat + i) = v.setWidth 64) ∧
      ∀ a, readByte t.dram a = readByte s.dram a := by
  refine completes_weightWrite hs htwin hon fun t ht twin out => ?_
  have free : ¬ weightTouches s off.toNat (bs.take 64) = true := by
    rw [weightTouches_iff]
    rintro ⟨i, v, hi, hprotected⟩
    obtain ⟨hlt, hi⟩ := getElem?_take_64.1 hi
    exact absurd hprotected (ne_true_of_eq_false (hfree i v hlt hi))
  rw [weightWrite, if_neg free] at ht
  subst ht
  exact ⟨fun i v hlt hi => arrGet_weightStore s _ _ (getElem?_take_64.2 ⟨hlt, hi⟩),
    fun a => congrArg (readByte · a) (weightStore_dram s _ _)⟩

theorem weightStoreWrite_refused {i : Nat} {v : Byte} (hlt : i < 64) (hi : bs[i]? = some (some v))
    (hprotected : weightProtected s (off.toNat + i) = true) : Completes (.weightStoreWrite m off ⟨false, bs⟩) s fun t =>
      (rd t R.BFM_WRITE_REJECT_COUNT).toNat = min ((rd s R.BFM_WRITE_REJECT_COUNT).toNat + 1) 0xFFFFFFFF ∧
      RegsSameBut [R.BFM_WRITE_REJECT_COUNT] s t ∧ MemorySame s t := by
  refine completes_weightWrite hs htwin hon fun t ht twin out => ?_
  rw [weightWrite, if_pos ((weightTouches_iff ..).2 ⟨i, v, getElem?_take_64.2 ⟨hlt, hi⟩, hprotected⟩)] at ht
  subst ht
  exact bump_completes s R.BFM_WRITE_REJECT_COUNT

end write

theorem weightStoreRead_completes (hreach : reaches m 4 = true)
    (hon : domOn s (beamDomain (weightBeam off.toNat)) = true) : Completes (.weightStoreWrite m off ⟨true, bs⟩) s fun t =>
      t.out = s.out ++ [.weightData m off.toNat ((bs.take 64).zipIdx.map fun (b, i) =>
        if b.isSome then (arrGet s .weight (beamDomain (weightBeam off.toNat)) (off.toNat + i)).setWidth 8 else 0)] ∧
      RegsSameBut [] s t ∧ MemorySame s t := by
  refine completes_runBy rfl hs ?_
  dsimp only
  rw [if_pos rfl, weightFetch_on hreach hon]
  exact ⟨rfl, fun _ _ => rfl, fun _ => rfl, rfl⟩

end weight

/-! ## RELAY_FRAME_RECEIVED (R231) -/

/-- A RELAY frame brings octet `o` of a spectrum from the chain position before this chip's, in time, and the receive buffer
has room for it. -/
structure RelayTaken (s : State) (f : RxFrame) (o : Nat) : Prop where
  chained : (chainPos s).1 ≠ 0
  position : frByte f 5 + 1 = (chainPos s).1
  beams : frByte f 6 = 0 ∧ frByte f 7 = 255
  channels : frByte f 15 = 0 ∧ frByte f 18 = 8
  slice : frField f 16 2 = 64 * sliceOf s (chipNo s) + 8 * o
  octet : o < 8
  runs : bfmRuns s (frField f 8 6) = true
  normal : cal8Of s (frField f 8 6) = false
  power : domOn s 23 = true
  inTime : s.counter.toNat < sendPoint s (frField f 8 6) (frByte f 14)
  room : ((s.bfm.relay.map fun e => e.1 / 8).eraseDups).length < 8

/-- What the registers from the channelizer's on, the run state, the channelizer and the beamformer say of a frame, they say in
every state where they stand. -/
theorem RelayTaken.of_stands {s t : State} {f : RxFrame} {o : Nat} (h : RelayTaken s f o)
    (ht : Stands (Set.Ici 0x400000) s t) (hb : t.bfm = s.bfm) : RelayTaken t f o := by
  have chain : chainPos t = chainPos s := by
    simp only [chainPos, ht.flag (f := F.BFM_CTRL_RELAY_EN) (by decide), ht.getF (f := F.BFM_CTRL_CHAIN_POS) (by decide),
      ht.getF (f := F.BFM_CTRL_CHAIN_LAST) (by decide)]
  have slice : sliceOf t (chipNo t) = sliceOf s (chipNo s) := by
    have chip : chipNo t = chipNo s := ht.getF (by decide)
    simp only [chip, sliceOf, getR, ht.word (R.XR_SLICE (chipNo s / 4)) (Nat.le_add_right_of_le (by decide))]
  have runs : bfmRuns t (frField f 8 6) = bfmRuns s (frField f 8 6) := by
    simp only [bfmRuns, inRun, jumpedOver, ht.flag (f := F.BFM_CTRL_EN) (by decide), ht.arch]
  have power : domOn t 23 = domOn s 23 := by
    simp only [domOn, domState, ht.getF (f := ⟨R.PWR_STATE (23 / 10), 3 * (23 % 10) + 2, 3 * (23 % 10)⟩) (by decide)]
  have point : sendPoint t (frField f 8 6) (frByte f 14) = sendPoint s (frField f 8 6) (frByte f 14) := by
    simp only [sendPoint, chain]
  exact ⟨chain ▸ h.chained, chain ▸ h.position, h.beams, h.channels, slice ▸ h.slice, h.octet, runs ▸ h.runs,
    ht.cal8Of (by decide) _ ▸ h.normal, power ▸ h.power, by rw [point, ht.counter]; exact h.inTime, hb ▸ h.room⟩

/-- Such a frame enters the receive buffer. -/
theorem relayReceive_taken {s : State} {f : RxFrame} {o : Nat} (h : RelayTaken s f o) :
    relayReceive s f = setBfm s fun b =>
      { b with relay := b.relay.put (8 * (256 * frField f 8 6 + frByte f 14) + o) (frData f) } := by
  obtain ⟨chained, position, beams, channels, slice, octet, runs, normal, power, inTime, room⟩ := h
  have number : (frField f 16 2 - 64 * sliceOf s (chipNo s)) / 8 = o := by omega
  unfold relayReceive
  dsimp only
  rw [number, if_neg (by simp [*]), if_neg (by omega)]

theorem relayFrameReceived_completes {s : State} {n : Fin 56} {f : RxFrame} {o : Nat} (hup : Up s)
    (hp : Passes s n 5 f) (h : RelayTaken (advanceTo s f.eofAt) f o) : Completes (.relayFrameReceived n f) s fun t =>
      t.bfm.relay.find (8 * (256 * frField f 8 6 + frByte f 14) + o) = some (frData f) ∧
      (rd t (R.LNK_RX_FRAMES n)).toNat = min ((rd s (R.LNK_RX_FRAMES n)).toNat + 1) 0xFFFFFFFF ∧ MemorySame s t := by
  refine completes_run (show execRelayFrameReceived n f s = run _ s from rfl) hup ?_
  rw [receive_passes _ hp fun h => absurd h (by decide)]
  obtain ⟨counter, hadv⟩ := advanceTo_eq s f.eofAt
  set now := advanceTo s f.eofAt with hnow
  have counted : Stands (Set.Ici 0x400000) now (countPayloadCv (bump now (R.LNK_RX_FRAMES n)) n f) :=
    ((Stands.refl now).bump (by simp only [Set.mem_Ici, R.LNK_RX_FRAMES]; omega)).bumpBy
      (by simp only [Set.mem_Ici, R.LNK_PAYLOAD_CV]; omega) _
  have memory : MemorySame s now := by
    rw [hadv]
    exact ⟨fun _ => rfl, rfl⟩
  rw [relayReceive_taken (h.of_stands counted rfl)]
  refine ⟨SMap.find_put_same .., ?_, memory⟩
  have other : R.LNK_RX_FRAMES n ≠ R.LNK_PAYLOAD_CV n := by simp only [R.LNK_RX_FRAMES, R.LNK_PAYLOAD_CV]; omega
  calc _ = (rd (bump now (R.LNK_RX_FRAMES n)) (R.LNK_RX_FRAMES n)).toNat :=
        congrArg BitVec.toNat ((rd_bumpBy ..).trans (if_neg other))
    _ = _ := toNat_rd_bump_of_word (rd_advanceTo s f.eofAt _)

end Sys2Proof.Machine
end

namespace Sys2Proof
open Machine

/-- Settles O10: each command is served on a block that is up, and what its rule names follows from the lemma about it. What a
send point sends, and the triggers that the beam search then fires, leave the sums, the latest spectrum and OVERRUN alone
(`SendKept`). -/
theorem beamCommandsComplete : Obligations.BeamCommandsComplete := by
  unfold Obligations.BeamCommandsComplete
  refine ⟨fun s f n hup hrun hcal hat hlast => beamPoint_completes hup hrun hcal hat hlast,
    fun s f n hup hrun hcal hat hlast => ?_,
    fun s m high f hs htwin hf => bfmFlipArm_completes hs htwin hf,
    fun s m off bs hs htwin hon hfree => weightStoreWrite_stores hs htwin hon hfree,
    fun s m off bs i v hs htwin hon hlt hi hprotected => weightStoreWrite_refused hs htwin hon hlt hi hprotected,
    fun s m off bs hs hreach hon => weightStoreRead_completes hs hreach hon,
    fun s n f o hup hlink hheader htype hlength heof hallowed hchain hpos hfirst hlast hcount hwidth hslice hruns hcal hon
      hearly hroom => ?_⟩
  · exact completes_run (f := (sendPointAll · f n)) rfl hup (relaySendPoint_completes hrun hcal hat hlast)
  · obtain ⟨counter, hadv⟩ := advanceTo_eq s f.eofAt
    refine relayFrameReceived_completes hup ⟨hlink, hheader, htype, hlength, heof, hallowed⟩ ?_
    rw [hadv] at hearly ⊢
    exact ⟨hchain, hpos, ⟨hfirst, hlast⟩, ⟨hcount, hwidth⟩, hslice, o.isLt, hruns, hcal, hon, hearly, hroom⟩

end Sys2Proof

section
/-! What a trigger, the raw ring writer and the checks of the captures leave alone: registers beside those that they show
their work in, the arrays, and of the trigger engine what belongs to the searches, to the signposts received and to the
ring writer (R245, R253 to R263). -/
namespace Sys2Proof.Machine

/-- What the trigger engine holds beside its claims, its holds and the signposts it sent. -/
def Trg.core (g : Trg) : Trg := { g with claimed := [], captureSegs := [], holds := [], sent := 0, perFrame := (0, 0) }

/-- In `t` the registers of `K`, the arrays and the engine's core stand as in `s`. -/
structure EngineKept (K : Set Nat) (s t : State) : Prop where
  word : ∀ a ∈ K, rd t a = rd s a
  core : t.trg.core = s.trg.core
  arrays : t.arrays = s.arrays

/-- None of the registers of `K` is one that the ring writer and the captures are shown in, or one of the cores or beyond. -/
structure CaptureFree (K : Set Nat) : Prop where
  bound : K ⊆ Set.Iio 0xD00000
  shown : R.TRG_RAW_STATE ∉ K
  capture : ∀ c < 16, R.TRG_CAPTURE c ∉ K

theorem openCaptures_lt {s : State} {c : Nat} (h : c ∈ openCaptures s) : c < 16 := List.mem_range.1 (List.mem_filter.1 h).1

namespace EngineKept

variable {K : Set Nat} {s t u : State}

theorem refl (s : State) : EngineKept K s s := ⟨fun _ _ => rfl, rfl, rfl⟩

theorem trans (h : EngineKept K s t) (h' : EngineKept K t u) : EngineKept K s u :=
  ⟨fun a ha => (h'.word a ha).trans (h.word a ha), h'.core.trans h.core, h'.arrays.trans h.arrays⟩

theorem getF (h : EngineKept K s t) {f : Fld} (hf : f.addr ∈ K) : getF t f = Machine.getF s f := by
  rw [Machine.getF, h.word _ hf, Machine.getF]

theorem seq (h : EngineKept K s t) : t.trg.seq = s.trg.seq := (congrArg Trg.seq h.core :)

theorem groups (h : EngineKept K s t) : t.trg.groups = s.trg.groups := (congrArg Trg.groups h.core :)

theorem keys (h : EngineKept K s t) : t.trg.keys = s.trg.keys := (congrArg Trg.keys h.core :)

theorem rawDue (h : EngineKept K s t) : t.trg.rawDue = s.trg.rawDue := (congrArg Trg.rawDue h.core :)

theorem flag (h : EngineKept K s t) {f : Fld} (hf : f.addr ∈ K) : flag t f = Machine.flag s f := by
  rw [Machine.flag, h.getF hf, Machine.flag]

/-! ## Ways to compose -/

/-- A state that differs in what other units hold keeps the engine too. -/
theorem same (h : EngineKept K s t) (hr : u.regs = t.regs) (ht : u.trg = t.trg) (ha : u.arrays = t.arrays) :
    EngineKept K s u :=
  h.trans ⟨fun a _ => rd_congr hr a, by rw [ht], ha⟩

theorem ite {p : Prop} [Decidable p] (ht : EngineKept K s t) (hu : EngineKept K s u) :
    EngineKept K s (if p then t else u) := by
  split
  · exact ht
  · exact hu

theorem ite_fst {β : Type} {p q : State × β} {c : Prop} [Decidable c] (hp : EngineKept K s p.1)
    (hq : EngineKept K s q.1) : EngineKept K s (if c then p else q).1 := by
  split
  · exact hp
  · exact hq

theorem foldl {α : Type} {f : State → α → State} {l : List α}
    (hf : ∀ t, ∀ x ∈ l, EngineKept K s t → EngineKept K s (f t x)) (h : EngineKept K s t) :
    EngineKept K s (l.foldl f t) := by
  induction l generalizing t with
  | nil => exact h
  | cons x l ih => exact ih (fun t y hy => hf t y (List.mem_cons_of_mem x hy)) (hf t x List.mem_cons_self h)

theorem of_fst {β : Type} {p : State × β} {x : β} (e : p = (u, x)) (h : EngineKept K s p.1) : EngineKept K s u := by
  rwa [e] at h

/-! ## The named updates -/

theorem wr (h : EngineKept K s t) {a : Nat} (ha : a ∉ K) (v : Word) : EngineKept K s (wr t a v) :=
  h.trans ⟨fun _ hb => rd_wr_ne t v (ne_of_mem_of_not_mem hb ha), rfl, rfl⟩

theorem setR (h : EngineKept K s t) {a : Nat} (ha : a ∉ K) (v : Nat) : EngineKept K s (setR t a v) := h.wr ha _

theorem setF (h : EngineKept K s t) {f : Fld} (hf : f.addr ∉ K) (v : Nat) : EngineKept K s (setF t f v) := h.wr hf _

theorem setB (h : EngineKept K s t) {a : Nat} (ha : a ∉ K) (i : Nat) (b : Bool) : EngineKept K s (setB t a i b) :=
  h.wr ha _

theorem setPair (h : EngineKept K s t) {a : Nat} (hlo : a ∉ K) (hhi : a + 4 ∉ K) (v : Nat) :
    EngineKept K s (setPair t a v) := ((h.setR hlo _).setR hhi _).same rfl rfl rfl

theorem bump (h : EngineKept K s t) {a : Nat} (ha : a ∉ K) : EngineKept K s (bump t a) := (h.setR ha _).same rfl rfl rfl

theorem raise (h : EngineKept K s t) (src : Nat) : EngineKept K s (raise t src) := ite (h.same rfl rfl rfl) h

theorem setTrg (h : EngineKept K s t) {f : Trg → Trg} (hf : ∀ g, (f g).core = g.core := by intro _; rfl) :
    EngineKept K s (setTrg t f) := h.trans ⟨fun _ _ => rfl, hf _, rfl⟩

theorem setMem (h : EngineKept K s t) (f : MemCtl → MemCtl) : EngineKept K s (setMem t f) := h.same rfl rfl rfl

theorem dramWrite (h : EngineKept K s t) (a : Nat) (bs : List Byte) : EngineKept K s (dramWrite t a bs) :=
  h.same rfl rfl rfl

theorem digestAdd (h : EngineKept K s t) (span i : Nat) (f : Nat → Nat) : EngineKept K s (digestAdd t span i f) :=
  ite h (h.same rfl rfl rfl)

theorem sendOnLink (h : EngineKept K s t) (k : Nat) (header payload : List Byte) :
    EngineKept K s (sendOnLink t k header payload) := h.foldl fun _ _ _ h => ite (h.same rfl rfl rfl) h

/-! ## Faults (R467), the vectors of the cores (R289) and accesses to DRAM (R302, R306 to R309) -/

section reports
variable (hK : K ⊆ Set.Iio 0xD00000)
include hK

theorem fault (h : EngineKept K s t) (n : Nat) : EngineKept K s (fault t n) := by
  have noted := h.wr (notMem_of_bound hK (a := R.HLT_FAULT) (by decide)) (rd t R.HLT_FAULT ||| 1 <<< n)
  exact ite noted ((noted.setF (notMem_of_bound hK (by decide)) _).setPair (notMem_of_bound hK (by decide))
    (notMem_of_bound hK (by decide)) _)

theorem brlPendAll (h : EngineKept K s t) (v : Nat) : EngineKept K s (brlPendAll t v) := by
  have wake {u : State} (hu : EngineKept K s u) (k : Nat) : EngineKept K s (brlWake u k) :=
    ite ((hu.setF (f := F.BRL_STATUS_STATE k) (notMem_of_bound_add hK (by decide)) 1).same rfl rfl rfl) hu
  exact h.foldl fun _ k _ h => ite (ite (h.bump (notMem_of_bound_add hK (by decide)))
    (wake (h.setB (notMem_of_bound_add hK (by decide)) v true) k)) h

theorem memLog (h : EngineKept K s t) (kind req symbol a synd : Nat) : EngineKept K s (memLog t kind req symbol a synd) :=
  ite ((h.bump (notMem_of_bound hK (by decide))).setF (notMem_of_bound hK (by decide)) 1)
    ((h.dramWrite _ _).setF (notMem_of_bound hK (by decide)) _)

theorem guardReport (h : EngineKept K s t) (req a : Nat) : EngineKept K s (guardReport t req a) :=
  ((h.bump (notMem_of_bound hK (by decide))).setF (notMem_of_bound hK (by decide)) 1).memLog hK ..

theorem ueReport (h : EngineKept K s t) (req line : Nat) (rmw : Bool) (ws : List Nat) :
    EngineKept K s (ueReport t req line rmw ws) :=
  (((((h.foldl (l := ws) fun _ _ _ h => h.memLog hK ..).setMem _).bump (notMem_of_bound hK (by decide))).setF
    (notMem_of_bound hK (by decide)) 1).raise 12).fault hK 6

theorem served (h : EngineKept K s t) (req a n : Nat) : EngineKept K s (served t req a n) := by
  have woken {v : State} (hv : EngineKept K s v) (i : Nat) : EngineKept K s (leaveSelfRefresh v i) :=
    have state : R.MEM_STATE i ∉ K := notMem_of_bound_add hK (by decide)
    ite (((hv.setF state 0).setF state 0).setF state 0) hv
  exact ite ((h.setMem _).foldl fun _ i _ hv => woken hv i) (h.setMem _)

theorem unitWrite (h : EngineKept K s t) (req a : Nat) (bs : List Byte) : EngineKept K s (unitWrite t req a bs) :=
  ite h (ite (h.guardReport hK ..) (((h.served hK ..).dramWrite _ _).foldl fun _ _ _ h => h.ueReport hK ..))

theorem rawStore (h : EngineKept K s t) (k f : Nat) (sigs : Nat → Bool) : EngineKept K s (rawStore t k f sigs) :=
  h.foldl fun _ _ _ h => ite (h.unitWrite hK ..) h

end reports

/-! ## The checks of the captures (R260 to R262) -/

section captures
variable (hK : CaptureFree K)
include hK

theorem rawShow (h : EngineKept K s t) : EngineKept K s (rawShow t) :=
  ((h.setF hK.shown _).setF hK.shown _).foldl fun _ c hc h =>
    have free : R.TRG_CAPTURE c ∉ K := hK.capture c (openCaptures_lt hc)
    (h.setF (f := F.TRG_CAPTURE_SEGMENTS c) free _).setF (f := F.TRG_CAPTURE_RAW_GAP c) free _

theorem captureChecks (h : EngineKept K s t) : EngineKept K s (captureChecks t) :=
  (h.rawShow hK).foldl fun _ c hc h =>
    have free : R.TRG_CAPTURE c ∉ K := hK.capture c (List.mem_range.1 hc)
    ite (((h.setF (f := F.TRG_CAPTURE_STATE c) free 2).raise 9).brlPendAll hK.bound 7)
      (ite (h.setF (f := F.TRG_CAPTURE_STATE c) free 1) h)

end captures
end EngineKept
end Sys2Proof.Machine
end

section
/-! A trigger fires: beside its record, which advances SEQ, its actions leave the engine's core and the count of the signposts
received alone (R245, R253 to R256, R260, R263). -/
namespace Sys2Proof.Machine

/-- The count of the signposts received (R256). -/
abbrev rxCount : Set Nat := {R.TRG_SP_RX_COUNT}

theorem capture_notMem_rxCount (c : Nat) : R.TRG_CAPTURE c ∉ rxCount := by
  simp only [Set.mem_singleton_iff, R.TRG_CAPTURE, R.TRG_SP_RX_COUNT]
  omega

theorem captureFree_rxCount : CaptureFree rxCount where
  bound := Set.singleton_subset_iff.2 (by decide : R.TRG_SP_RX_COUNT < 0xD00000)
  shown := by decide
  capture c _ := capture_notMem_rxCount c

/-- One more record since EN (R254). -/
def recordCounted (s : State) : State := setTrg s fun g => { g with seq := g.seq + 1 }

/-- The record of a trigger is counted, where its actions ask for one (R253). -/
def recordNoted (s : State) (x : Trigger) : State := if x.act % 16 = 0 then s else recordCounted s

theorem recordNoted_trg (s : State) (x : Trigger) :
    (recordNoted s x).trg = { s.trg with seq := s.trg.seq + (if x.act % 16 = 0 then 0 else 1) } := by
  unfold recordNoted
  split
  · rfl
  · rfl

theorem rd_recordNoted (s : State) (x : Trigger) (a : Nat) : rd (recordNoted s x) a = rd s a := by
  unfold recordNoted
  split
  · rfl
  · rfl

namespace EngineKept

variable {s t u : State}

theorem setCaptureRange (h : EngineKept rxCount s t) (c : Nat) (r : Nat × Nat) :
    EngineKept rxCount s (setCaptureRange t c r) := by
  have word (k : Nat) : R.TRG_CAPTURE c + k ∉ rxCount := by
    simp only [Set.mem_singleton_iff, R.TRG_CAPTURE, R.TRG_SP_RX_COUNT]; omega
  exact (((h.setR (word 4) _).setR (word 8) _).setR (word 12) _).setR (word 16) _

theorem claimBlock (h : EngineKept rxCount s t) {c b : Nat} (hu : claimBlock t c b = .done u) : EngineKept rxCount s u := by
  have seg (k : Nat) : R.TRG_SEG k ∉ rxCount := by
    simp only [Set.mem_singleton_iff, R.TRG_SEG, R.TRG_SP_RX_COUNT]; omega
  unfold Machine.claimBlock at hu
  extract_lets held new at hu
  split at hu
  · cases hu
  next k _ =>
    split at hu
    · cases hu
      exact h
    split at hu
    · cases hu
    extract_lets counted claimed kept at hu
    injection hu with hu
    have h1 : EngineKept rxCount s claimed := ite (h.setF (seg k) _).setTrg (h.setF (seg k) _)
    have h2 : EngineKept rxCount s kept := ite (h1.setF (seg k) 1) (h1.setF (seg k) 3)
    exact hu ▸ h2.setTrg

theorem claimBlocks (h : EngineKept rxCount s t) {c : Nat} (hc : R.TRG_CAPTURE c ∉ rxCount) (bs : List Nat) :
    EngineKept rxCount s (claimBlocks t c bs) := by
  induction bs generalizing t with
  | nil => exact h
  | cons b bs ih =>
    unfold Machine.claimBlocks
    split
    · next hu => exact ih (h.claimBlock hu)
    · exact ih (h.setF hc 1)
    · exact h.setF hc 1

theorem freeze (h : EngineKept rxCount s t) (ft : Nat) : EngineKept rxCount s (freeze t ft).1 := by
  unfold Machine.freeze
  extract_lets lo hi a b refused
  have hrefused : EngineKept rxCount s refused.1 := (h.bump (by decide)).setF (by decide) 1
  split
  · exact hrefused
  split
  · next c _ =>
    have free := capture_notMem_rxCount c
    have joined := (h.setCaptureRange c (min (captureRange t c).1 a, max (captureRange t c).2 (b + 5))).setF
      (f := F.TRG_CAPTURE_TRIGGERS c) free
    exact ((joined _).claimBlocks free _).captureChecks captureFree_rxCount
  split
  · next c _ =>
    have free := capture_notMem_rxCount c
    have opened := ((h.setR free 0).setF (f := F.TRG_CAPTURE_STATE c) free 1).setF (f := F.TRG_CAPTURE_TRIGGERS c) free 1
    exact ((opened.setTrg.setCaptureRange ..).claimBlocks free _).captureChecks captureFree_rxCount
  · exact hrefused

theorem holdSlot (h : EngineKept rxCount s t) (ft : Nat) (cap : Option Nat) :
    EngineKept rxCount s (holdSlot t ft cap).1 := by
  unfold Machine.holdSlot
  extract_lets refused
  have hrefused : EngineKept rxCount s refused.1 := (h.bump (by decide)).setF (by decide) 1
  split
  · exact hrefused
  next k hslot =>
    extract_lets own owners
    have howned {u : State} (hu : EngineKept rxCount s u) : EngineKept rxCount s (own u) := by
      dsimp only [own]
      split
      · exact (hu.setF (capture_notMem_rxCount _) 1).setF (capture_notMem_rxCount _) k
      · exact hu
    have slot : R.XR_SLOT k ∉ rxCount := by
      have place := (slotOf_some hslot).1
      simp only [Set.mem_singleton_iff, R.XR_SLOT, R.TRG_SP_RX_COUNT]
      omega
    split_ifs
    · exact hrefused
    · exact howned h.setTrg
    · exact hrefused
    · exact howned (h.setF (f := F.XR_SLOT_HELD k) slot 1).setTrg

theorem signpostSend (h : EngineKept rxCount s t) (x : Trigger) : EngineKept rxCount s (signpostSend t x).1 := by
  unfold Machine.signpostSend
  extract_lets f n hops header sent
  have h1 : EngineKept rxCount s sent := h.foldl fun _ _ _ h => h.sendOnLink ..
  split_ifs
  · exact h
  · exact (h.bump (by decide)).setF (by decide) 1
  · dsimp only
    exact (h1.bump (by decide)).setTrg

theorem recordWrite (s : State) (x : Trigger) (flags capture slot : Nat) :
    EngineKept rxCount (recordCounted s) (recordWrite s x flags capture slot) := by
  unfold Machine.recordWrite
  extract_lets bs numbered f digested count head written
  have h1 : EngineKept rxCount (recordCounted s) digested := (refl numbered).digestAdd ..
  have h2 : EngineKept rxCount (recordCounted s) written := h1.unitWrite captureFree_rxCount.bound ..
  refine ite h1 (ite ?_ ?_)
  · exact ((h1.bump (by decide)).setF (by decide) 1).fault captureFree_rxCount.bound 14
  · exact ((h2.setR (by decide) _).bump (by decide)).brlPendAll captureFree_rxCount.bound 4

theorem recordCounted (h : EngineKept rxCount s t) : EngineKept rxCount (recordCounted s) (recordCounted t) :=
  ⟨h.word, congrArg (fun g : Trg => { g with seq := g.seq + 1 }) h.core, h.arrays⟩

/-- A trigger with a record action writes one record; beside that it keeps the engine. -/
theorem fireTrigger (s : State) (x : Trigger) :
    EngineKept rxCount (recordNoted s x) (fireTrigger s x) := by
  unfold Machine.fireTrigger
  extract_lets ft
  split
  next t1 cap hcap =>
  split
  next t2 slot hslot =>
  split
  next t3 sent hsent =>
  have h1 : EngineKept rxCount s t1 := of_fst hcap (ite_fst ((refl s).freeze ft) (refl s))
  have h2 : EngineKept rxCount s t2 := of_fst hslot (ite_fst (h1.holdSlot ft cap) h1)
  have h3 : EngineKept rxCount s t3 := of_fst hsent (ite_fst (h2.signpostSend x) h2)
  extract_lets flags recorded
  have h4 : EngineKept rxCount (recordNoted s x) recorded := by
    unfold recorded recordNoted
    split
    · exact h3
    · exact h3.recordCounted.trans (recordWrite ..)
  refine ite ?_ h4
  split
  · exact h4.raise 6
  · exact h4.raise 7
  · exact h4.raise 8
  · exact h4

end EngineKept

theorem fireTrigger_seq (s : State) (x : Trigger) :
    (fireTrigger s x).trg.seq = s.trg.seq + (if x.act % 16 = 0 then 0 else 1) := by
  rw [(EngineKept.fireTrigger s x).seq, recordNoted_trg]

theorem fireTrigger_groups (s : State) (x : Trigger) : (fireTrigger s x).trg.groups = s.trg.groups := by
  rw [(EngineKept.fireTrigger s x).groups, recordNoted_trg]

theorem fireTrigger_keys (s : State) (x : Trigger) : (fireTrigger s x).trg.keys = s.trg.keys := by
  rw [(EngineKept.fireTrigger s x).keys, recordNoted_trg]

theorem rd_fireTrigger_rxCount (s : State) (x : Trigger) :
    rd (fireTrigger s x) R.TRG_SP_RX_COUNT = rd s R.TRG_SP_RX_COUNT := by
  rw [(EngineKept.fireTrigger s x).word _ rfl, rd_recordNoted]

/-! ## TRIGGER_INJECT (R254, R461) -/

theorem injectWrite_seq {s : State} (hon : trgOn s = true) (channel : BitVec 13) (action : BitVec 5) :
    (injectWrite s (BitVec.ofNat 32 (2 ^ 31 + channel.toNat * 65536 + action.toNat))).trg.seq =
      s.trg.seq + (if action.toNat % 16 = 0 then 0 else 1) := by
  have hc := channel.isLt
  have ha := action.isLt
  generalize hv : BitVec.ofNat 32 (2 ^ 31 + channel.toNat * 65536 + action.toNat) = v
  have value : v.toNat = 2 ^ 31 + channel.toNat * 65536 + action.toNat := by
    rw [← hv, BitVec.toNat_ofNat]
    omega
  have go : v.getLsbD 31 = true := by
    rw [← BitVec.testBit_toNat, value, Nat.testBit_eq_decide_div_mod_eq, decide_eq_true_eq]
    omega
  have actions : bitsOf v.toNat 4 0 = action.toNat := by
    rw [value, bitsOf]
    omega
  rw [injectWrite, if_pos ⟨go, hon⟩, fireTrigger_seq, actions]

theorem triggerInject_completes {s : State} {channel : BitVec 13} {action : BitVec 5} (hup : Up s)
    (htwin : twinState s = 0 ∨ 5 ≤ twinState s) (hon : trgOn s = true) :
    Completes (.triggerInject channel action) s fun t =>
      t.trg.seq = s.trg.seq + (if action.toNat % 16 = 0 then 0 else 1) := by
  refine completes_run (show execTriggerInject channel action s = run _ s from rfl) hup ?_
  dsimp only
  obtain ⟨twin, out, e⟩ := mirroredWrite_done htwin rfl false R.TRG_INJECT _ true
  rw [mirrored, e]
  exact injectWrite_seq hon channel action

theorem triggerInject_rejected {s : State} {channel : BitVec 13} {action : BitVec 5} (hup : Up s)
    (h1 : 1 ≤ twinState s) (h4 : twinState s ≤ 4) : Completes (.triggerInject channel action) s fun t =>
      (rd t R.TWN_MIRROR_REJECT_COUNT).toNat = min ((rd s R.TWN_MIRROR_REJECT_COUNT).toNat + 1) 0xFFFFFFFF ∧
      RegsSameBut [R.TWN_MIRROR_REJECT_COUNT] s t ∧ MemorySame s t := by
  refine completes_run (show execTriggerInject channel action s = run _ s from rfl) hup ?_
  dsimp only
  rw [mirrored, mirroredWrite, if_pos ⟨h1, h4⟩]
  exact bump_completes s R.TWN_MIRROR_REJECT_COUNT

/-! ## IMPULSE_HORIZON_ADVANCE (R247, R248) -/

theorem retractRecord_groups (s : State) (channel index : Nat) : (retractRecord s channel index).trg.groups = s.trg.groups :=
  (EngineKept.recordWrite (bump s R.TRG_RETRACT_COUNT) { kind := 6, channel, index, act := 1 } 0 0xFF 0xFF).groups

theorem raise_trg (s : State) (src : Nat) : (raise s src).trg = s.trg := by
  unfold raise raiseIn
  split
  · rfl
  · rfl

/-- A group that fires leaves what the groups search by alone. -/
theorem groupFire_groups (s : State) (k t : Nat) (set : List Hit) (late : Bool) :
    (groupFire s k t set late).trg.groups = s.trg.groups := by
  unfold groupFire
  extract_lets first ratio
  split
  next drawn snr hsnr =>
  have h1 : drawn.trg.groups = s.trg.groups := by
    split at hsnr
    · cases hsnr
      rfl
    · cases hsnr
      rfl
  extract_lets noted raised fired
  have h2 : noted.trg.groups = s.trg.groups := by
    unfold noted
    split
    · exact h1
    · exact h1
  have h3 : fired.trg.groups = s.trg.groups := calc
    fired.trg.groups = raised.trg.groups := fireTrigger_groups ..
    _ = noted.trg.groups := congrArg Trg.groups (raise_trg (bump noted R.TRG_IMP_FIRE_COUNT) (120 + k))
    _ = s.trg.groups := h2
  split
  · exact (retractRecord_groups ..).trans h3
  · exact h3

theorem groupAt_horizon (s : State) (k t : Nat) :
    ((groupAt s k t).trg.groups.get {} k).horizon = (s.trg.groups.get {} k).horizon := by
  unfold groupAt
  extract_lets g w m recent members fires late moved searched
  have placed : searched.trg.groups.get {} k = moved := SMap.get_put_same s.trg.groups {} k moved
  have kept : (searched.trg.groups.get {} k).horizon = (s.trg.groups.get {} k).horizon := by rw [placed]
  split
  · rw [groupFire_groups, kept]
  · exact kept

theorem horizonAdvance_horizon (s : State) (k : Nat) :
    ((horizonAdvance s k).trg.groups.get {} k).horizon = horizonNow s k := by
  unfold horizonAdvance
  extract_lets h moved due searched
  have begun : (moved.trg.groups.get {} k).horizon = h := congrArg Group.horizon (SMap.get_put_same s.trg.groups {} k _)
  have kept : (searched.trg.groups.get {} k).horizon = h :=
    (foldl_field (fun s => (s.trg.groups.get {} k).horizon) (fun s t => groupAt_horizon s k t) due moved).trans begun
  exact (congrArg Group.horizon (SMap.get_put_same searched.trg.groups {} k _)).trans kept

theorem impulseHorizonAdvance_completes {s : State} {k : Fin 8} {time : Nat} (hup : Up s) (hon : trgOn s = true)
    (himp : trgF s F.TRG_CTRL_IMP_EN = 1) : Completes (.impulseHorizonAdvance k time) s fun t =>
      (t.trg.groups.get {} k).horizon = horizonNow (advanceTo s time) k := by
  refine completes_run (show execImpulseHorizonAdvance k time s = run _ s from rfl) hup ?_
  rw [if_pos ⟨hon, himp⟩]
  exact horizonAdvance_horizon ..

/-! ## SIGNPOST_FRAME_RECEIVED (R256) -/

/-- The key that a signpost is known by (R256). -/
def signpostKey (f : RxFrame) : Nat × Nat × Nat := (frByte f 4, frField f 6 2, frField f 8 8)

/-- A signpost of another origin that was not seen before is remembered and counted. -/
theorem signpostReceive_new {s : State} {f : RxFrame} (hon : trgOn s = true) (horigin : frByte f 4 ≠ chipNo s)
    (hnew : signpostKey f ∉ s.trg.keys) (k : Nat) : signpostKey f ∈ (signpostReceive s k f).trg.keys ∧
      (rd (signpostReceive s k f) R.TRG_SP_RX_COUNT).toNat = min ((rd s R.TRG_SP_RX_COUNT).toNat + 1) 0xFFFFFFFF := by
  unfold signpostReceive
  rw [if_neg (not_not.2 hon)]
  extract_lets origin hops channel index key counted kind width snr passed
  have fresh : ¬ (origin = chipNo s ∨ key ∈ s.trg.keys) := not_or.2 ⟨horigin, hnew⟩
  rw [if_neg fresh]
  have kept : EngineKept rxCount counted passed :=
    .ite (.refl _) ((EngineKept.refl _).foldl fun _ _ _ h => .ite h (h.sendOnLink ..))
  have keys : passed.trg.keys = (key :: s.trg.keys).take 256 := congrArg Trg.keys kept.core
  rw [fireTrigger_keys, keys, rd_fireTrigger_rxCount, kept.word _ rfl]
  exact ⟨List.mem_cons_self, toNat_rd_bumpBy s R.TRG_SP_RX_COUNT 1⟩

theorem EngineKept.trgOn {s t : State} (h : EngineKept (Set.Ici 0x400000) s t) : trgOn t = Machine.trgOn s := by
  have domain : domState t 24 = domState s 24 := h.getF (by decide)
  rw [Machine.trgOn, h.flag (f := F.TRG_CTRL_EN) (by decide), domOn, domain]
  rfl

theorem signpostFrameReceived_completes {s : State} {n : Fin 56} {f : RxFrame} (hup : Up s) (hp : Passes s n 4 f)
    (hon : trgOn s = true) (horigin : frByte f 4 ≠ chipNo s) (hnew : signpostKey f ∉ s.trg.keys) :
    Completes (.signpostFrameReceived n f) s fun t => signpostKey f ∈ t.trg.keys ∧
      (rd t R.TRG_SP_RX_COUNT).toNat = min ((rd s R.TRG_SP_RX_COUNT).toNat + 1) 0xFFFFFFFF := by
  refine completes_run (show execSignpostFrameReceived n f s = run _ s from rfl) hup ?_
  rw [receive_passes _ hp fun h => absurd h (by decide)]
  obtain ⟨counter, hadv⟩ := advanceTo_eq s f.eofAt
  rw [hadv]
  have kept : EngineKept (Set.Ici 0x400000) { s with counter } (bump { s with counter } (R.LNK_RX_FRAMES n)) :=
    (EngineKept.refl _).bump (by simp only [Set.mem_Ici, R.LNK_RX_FRAMES]; omega)
  obtain ⟨remembered, count⟩ := signpostReceive_new (kept.trgOn.trans hon)
    (ne_of_ne_of_eq horigin (kept.getF (f := F.XR_GEOMETRY_CHIP) (by decide)).symm) hnew
    (getF (bump { s with counter } (R.LNK_RX_FRAMES n)) (F.LANE_USE_LINK n))
  rw [kept.word R.TRG_SP_RX_COUNT (by decide)] at count
  exact ⟨remembered, count⟩

end Sys2Proof.Machine
end

section
/-! The raw ring writer: the segment it takes, the writes it ends and those it abandons (R257 to R259; log entry 24). -/
namespace Sys2Proof.Machine

theorem getF_of_word {s t : State} {f : Fld} (h : rd t f.addr = rd s f.addr) : getF t f = getF s f := by rw [getF, h, getF]

/-- A field keeps its value where bits beside it are set, in whatever register. -/
theorem getF_setF_beside (s : State) {a b hi lo hi' lo' : Nat} (v : Nat) (h : lo ≤ hi ∧ hi < 32 ∧ lo' ≤ hi')
    (beside : hi' < lo ∨ hi < lo') : getF (setF s ⟨a, hi, lo⟩ v) ⟨b, hi', lo'⟩ = getF s ⟨b, hi', lo'⟩ :=
  getF_setF_other s ⟨a, hi, lo⟩ ⟨b, hi', lo'⟩ h.2.1 h.1 h.2.2 v (.inr beside)

/-- A field reads as what was set, within its width. -/
theorem getF_setF_field (s : State) {a hi lo : Nat} (v : Nat) (h : lo ≤ hi ∧ hi < 32) :
    getF (setF s ⟨a, hi, lo⟩ v) ⟨a, hi, lo⟩ = v % 2 ^ (hi + 1 - lo) := getF_setF_same s ⟨a, hi, lo⟩ h.2 h.1 v

/-! ## RAW_SEGMENT_START (R258) -/

/-- The word of segment `k` as the writer takes it at frame `f`: WRITING, with its claims as they were. -/
def segWriting (s : State) (k f : Nat) : State :=
  let cleared := setF (setR s (R.TRG_SEG k) 0) (F.TRG_SEG_STATE k) 1
  let claims := setF (setF cleared (F.TRG_SEG_PENDING k) (ofBool (flag s (F.TRG_SEG_PENDING k))))
    (F.TRG_SEG_REFS k) (getF s (F.TRG_SEG_REFS k))
  setF claims (F.TRG_SEG_FRAME k) (f % 2 ^ 18)

/-- The writer is in segment `k` from frame `f` on. -/
def segTaken (s : State) (k f : Nat) : State :=
  setTrg (setF (segWriting s k f) F.TRG_RAW_STATE_SEGMENT k) fun t => { t with
    current := some k
    segFirst := t.segFirst.put k f
    claimed := t.claimed.drop (· == k) }

/-- At a frame that no segment is claimed for, the writer takes the segment next in rotation. -/
theorem segmentStart_next {s : State} {f k : Nat} (hraw : trgF s F.TRG_CTRL_RAW_EN = 1)
    (hclaimed : ∀ j : Fin 96, s.trg.claimed.find j ≠ some f) (hnext : (rotation s).head? = some k) :
    segmentStart s f = segTaken s k f := by
  have unclaimed : (List.range 96).find? (fun j => s.trg.claimed.find j == some f) = none := by
    refine List.find?_eq_none.2 fun j hj => ?_
    simpa using hclaimed ⟨j, List.mem_range.1 hj⟩
  have next : ((List.range 96).find? (fun j => s.trg.claimed.find j == some f) <|> (rotation s).head?) = some k := by
    rw [unclaimed, hnext]
    rfl
  unfold segmentStart
  extract_lets stop
  rw [if_neg (by rw [hraw]; decide), next]
  rfl

theorem segState_segWriting (s : State) (k f : Nat) : segState (segWriting s k f) k = 1 := by
  unfold segState segWriting
  extract_lets cleared claims
  rw [getF_setF_beside _ _ (by decide) (by decide), getF_setF_beside _ _ (by decide) (by decide),
    getF_setF_beside _ _ (by decide) (by decide), getF_setF_field _ _ (by decide)]
  rfl

theorem segTaken_completes (s : State) (k : Fin 96) (f : Nat) :
    (segTaken s k f).trg.current = some k.val ∧ segState (segTaken s k f) k = 1 ∧
      (segTaken s k f).trg.segFirst.find k = some f ∧ getF (segTaken s k f) F.TRG_RAW_STATE_SEGMENT = k ∧
      MemorySame s (segTaken s k f) := by
  have place : R.TRG_SEG k ≠ R.TRG_RAW_STATE := by simp only [R.TRG_SEG, R.TRG_RAW_STATE]; omega
  have shown (a : Nat) : rd (segTaken s k f) a = rd (setF (segWriting s k f) F.TRG_RAW_STATE_SEGMENT k) a :=
    rd_congr (setTrg_regs ..) a
  have memory : (segTaken s k f).dram = s.dram ∧ (segTaken s k f).arrays = s.arrays := by simp [segTaken, segWriting]
  refine ⟨rfl, ?_, SMap.find_put_same .., ?_, fun _ => by rw [memory.1], memory.2⟩
  · exact (getF_of_word ((shown _).trans (rd_setF_ne _ _ _ place))).trans (segState_segWriting s k f)
  · rw [getF_of_word (shown _), getF_setF_field _ _ (by decide)]
    exact Nat.mod_eq_of_lt (by omega)

theorem rawSegmentStart_completes {s : State} {k : Fin 96} (hup : Up s) (hon : rawOn s (frameOf s) = true)
    (hframe : frameOf s % 6 = 0) (hdue : ∀ j, s.trg.current = some j → s.trg.segFirst.get 0 j < frameOf s)
    (hraw : trgF s F.TRG_CTRL_RAW_EN = 1) (hclaimed : ∀ j : Fin 96, s.trg.claimed.find j ≠ some (frameOf s))
    (hnext : (rotation s).head? = some k.val) : Completes .rawSegmentStart s fun t =>
      t.trg.current = some k.val ∧ segState t k = 1 ∧ t.trg.segFirst.find k = some (frameOf s) ∧
      getF t F.TRG_RAW_STATE_SEGMENT = k ∧ MemorySame s t := by
  refine completes_run (show execRawSegmentStart s = run _ s from rfl) hup ?_
  have block : frameOf s / 6 * 6 = frameOf s := by omega
  have due : (s.trg.current.all fun j => decide (s.trg.segFirst.get 0 j < frameOf s)) = true :=
    (Option.all_eq_true _ _).2 fun j hj => decide_eq_true (hdue j hj)
  dsimp only
  rw [block, if_pos ⟨hon, due, .inl rfl⟩]
  rw [segmentStart_next hraw hclaimed hnext]
  exact segTaken_completes s k (frameOf s)

/-! ## What a segment shows (R258, R259) -/

/-- The registers of the segments. -/
abbrev segRegs : Set Nat := Set.Ico (R.TRG_SEG 0) 0xD00000

theorem captureFree_segRegs : CaptureFree segRegs where
  bound _ h := h.2
  shown := by simp [R.TRG_SEG, R.TRG_RAW_STATE]
  capture c hc := by simp only [Set.mem_Ico, R.TRG_CAPTURE, R.TRG_SEG]; omega

theorem seg_mem_segRegs {k : Nat} (hk : k < 96) : R.TRG_SEG k ∈ segRegs := by
  simp only [Set.mem_Ico, R.TRG_SEG]
  omega

/-- In `t` the segments, the engine's core and the arrays stand as in `s`. -/
structure SegKept (s t : State) : Prop where
  state : ∀ k < 96, segState t k = segState s k
  pending : ∀ k < 96, flag t (F.TRG_SEG_PENDING k) = flag s (F.TRG_SEG_PENDING k)
  core : t.trg.core = s.trg.core
  arrays : t.arrays = s.arrays

namespace SegKept

variable {s t u : State}

theorem refl (s : State) : SegKept s s := ⟨fun _ _ => rfl, fun _ _ => rfl, rfl, rfl⟩

theorem trans (h : SegKept s t) (h' : SegKept t u) : SegKept s u where
  state k hk := (h'.state k hk).trans (h.state k hk)
  pending k hk := (h'.pending k hk).trans (h.pending k hk)
  core := h'.core.trans h.core
  arrays := h'.arrays.trans h.arrays

theorem of_engine (h : EngineKept segRegs s t) : SegKept s t where
  state _ hk := h.getF (seg_mem_segRegs hk)
  pending _ hk := h.flag (seg_mem_segRegs hk)
  core := h.core
  arrays := h.arrays

theorem segOfFrame (h : SegKept s t) (f : Nat) : segOfFrame t f = Machine.segOfFrame s f := by
  have first : t.trg.segFirst = s.trg.segFirst := (congrArg Trg.segFirst h.core :)
  refine List.find?_congr fun k hk => ?_
  rw [first, h.state k (List.mem_range.1 hk)]

/-- RAW_GAP stands beside a segment's state (R258). -/
theorem setGap (s : State) (k v : Nat) : SegKept s (setF s (F.TRG_SEG_RAW_GAP k) v) where
  state j _ := getF_setF_beside s v (by decide) (by decide)
  pending j _ := congrArg (· != 0) (getF_setF_beside s v (by decide) (by decide))
  core := rfl
  arrays := rfl

theorem rawGap (s : State) (k f : Nat) : SegKept s (rawGap s k f) := by
  unfold Machine.rawGap
  extract_lets noted
  have h1 : SegKept s noted := of_engine (((EngineKept.refl s).bump (by simp [R.TRG_SEG, R.TRG_RAW_GAP_COUNT])).setF
    (by simp [R.TRG_SEG, R.TRG_STATUS]) 1)
  exact (h1.trans (setGap ..)).trans (of_engine ((EngineKept.refl _).rawShow captureFree_segRegs))

theorem rawWrite (s : State) (f : Nat) : SegKept s (rawWrite s f) := by
  unfold Machine.rawWrite
  split
  · exact refl s
  next k _ =>
  split
  · exact of_engine ((EngineKept.refl s).rawStore captureFree_segRegs.bound ..)
  · have reported : EngineKept segRegs s
        (if dramUsable s then guardReport s 0 (rawAddr s k (f % 6) 0 0) else s) :=
      .ite ((EngineKept.refl s).guardReport captureFree_segRegs.bound ..) (.refl s)
    exact (of_engine reported).trans (rawGap ..)

end SegKept

/-! ## The end of a segment (R259) -/

/-- The segment is FROZEN if it was PENDING, else WRITTEN. -/
def segEnded (s : State) (k : Nat) : State :=
  if flag s (F.TRG_SEG_PENDING k) then setF (setF s (F.TRG_SEG_STATE k) 3) (F.TRG_SEG_PENDING k) 0
  else setF s (F.TRG_SEG_STATE k) 2

theorem segmentDone_segKept (s : State) (k : Nat) : SegKept (segEnded s k) (segmentDone s k) :=
  .of_engine ((EngineKept.refl (segEnded s k)).captureChecks captureFree_segRegs)

theorem segEnded_core (s : State) (k : Nat) : (segEnded s k).trg.core = s.trg.core := by
  unfold segEnded
  split
  · rfl
  · rfl

theorem segEnded_arrays (s : State) (k : Nat) : (segEnded s k).arrays = s.arrays := by
  unfold segEnded
  split
  · rfl
  · rfl

/-- The end of a segment changes no other's word. -/
theorem rd_segEnded_ne (s : State) {j k : Nat} (h : j ≠ k) : rd (segEnded s k) (R.TRG_SEG j) = rd s (R.TRG_SEG j) := by
  have other : R.TRG_SEG j ≠ R.TRG_SEG k := by simp only [R.TRG_SEG]; omega
  unfold segEnded
  split
  · rw [rd_setF_ne _ _ _ other, rd_setF_ne _ _ _ other]
  · rw [rd_setF_ne _ _ _ other]

/-- A segment that is not PENDING is WRITTEN. -/
theorem segEnded_written {s : State} {k : Nat} (h : flag s (F.TRG_SEG_PENDING k) = false) :
    segState (segEnded s k) k = 2 ∧ flag (segEnded s k) (F.TRG_SEG_PENDING k) = false := by
  unfold segEnded
  rw [if_neg (ne_true_of_eq_false h)]
  exact ⟨getF_setF_field s 2 (by decide),
    (congrArg (· != 0) (getF_setF_beside s 2 (by decide) (by decide))).trans h⟩

/-- A segment that ends is no longer being written. -/
theorem segEnded_ne_writing (s : State) (k : Nat) : segState (segEnded s k) k ≠ 1 := by
  unfold segEnded
  split
  · have frozen : segState (setF (setF s (F.TRG_SEG_STATE k) 3) (F.TRG_SEG_PENDING k) 0) k = 3 :=
      (getF_setF_beside _ 0 (by decide) (by decide)).trans (getF_setF_field s 3 (by decide))
    omega
  · have written : segState (setF s (F.TRG_SEG_STATE k) 2) k = 2 := getF_setF_field s 2 (by decide)
    omega

/-- An entry that is found is found as well where fewer are to be found. -/
theorem find?_of_imp {l : List Nat} {p q : Nat → Bool} {k : Nat} (h : l.find? p = some k)
    (hq : ∀ j, q j = true → p j = true) (hk : q k = true) : l.find? q = some k := by
  obtain ⟨-, before, after, rfl, none⟩ := List.find?_eq_some_iff_append.1 h
  refine List.find?_eq_some_iff_append.2 ⟨hk, before, after, rfl, fun j hj => ?_⟩
  have unmet := none j hj
  rw [Bool.not_eq_true'] at unmet ⊢
  exact Bool.eq_false_iff.2 fun hqj => Bool.eq_false_iff.1 unmet (hq j hqj)

/-! ## The frames that wait to be written (R258) -/

/-- Frame `f` waits to be written no more. -/
def frameTaken (s : State) (f : Nat) : State := setTrg s fun t => { t with rawDue := t.rawDue.erase f }

/-- The writer's end of a frame takes it from those that wait; the last one of its segment ends the segment too. -/
theorem rawEnd_cases (s : State) (f : Nat) :
    (rawEnd s f = frameTaken s f ∧ ∀ k, segOfFrame s f = some k → lastOfSegment s f = false) ∨
      ∃ k, segOfFrame s f = some k ∧ rawEnd s f = segmentDone (frameTaken s f) k := by
  have seg : segOfFrame (frameTaken s f) f = segOfFrame s f := rfl
  have last : lastOfSegment (frameTaken s f) f = lastOfSegment s f := rfl
  rw [← seg, ← last]
  unfold rawEnd frameTaken
  extract_lets taken
  split
  · next k hk =>
    split
    · exact .inr ⟨k, hk, rfl⟩
    · next hlast => exact .inl ⟨rfl, fun _ _ => Bool.eq_false_of_not_eq_true hlast⟩
  · next hnone => exact .inl ⟨rfl, fun k hk => by rw [hnone] at hk; cases hk⟩

theorem segmentDone_core (s : State) (k : Nat) : (segmentDone s k).trg.core = s.trg.core :=
  (segmentDone_segKept s k).core.trans (segEnded_core s k)

theorem segmentDone_arrays (s : State) (k : Nat) : (segmentDone s k).arrays = s.arrays :=
  (segmentDone_segKept s k).arrays.trans (segEnded_arrays s k)

theorem rawEnd_rawDue (s : State) (f : Nat) : (rawEnd s f).trg.rawDue = s.trg.rawDue.erase f := by
  rcases rawEnd_cases s f with ⟨e, -⟩ | ⟨k, -, e⟩
  · rw [e]
    rfl
  · rw [e]
    exact (congrArg Trg.rawDue (segmentDone_core (frameTaken s f) k) :)

theorem rawEnd_arrays (s : State) (f : Nat) : (rawEnd s f).arrays = s.arrays := by
  rcases rawEnd_cases s f with ⟨e, -⟩ | ⟨k, -, e⟩
  · rw [e]
    rfl
  · rw [e]
    exact segmentDone_arrays (frameTaken s f) k

/-- Frame `f` is written to its segment, or has RAW_GAP, and the writer is done with it. -/
def rawStep (s : State) (f : Nat) : State := rawEnd (rawWrite s f) f

theorem rawStep_rawDue (s : State) (f : Nat) : (rawStep s f).trg.rawDue = s.trg.rawDue.erase f := by
  have kept : (rawWrite s f).trg.rawDue = s.trg.rawDue := (congrArg Trg.rawDue (SegKept.rawWrite s f).core :)
  rw [rawStep, rawEnd_rawDue, kept]

theorem rawStep_arrays (s : State) (f : Nat) : (rawStep s f).arrays = s.arrays :=
  (rawEnd_arrays _ f).trans (SegKept.rawWrite s f).arrays

theorem foldl_rawStep_rawDue (l : List Nat) (s : State) : (l.foldl rawStep s).trg.rawDue = s.trg.rawDue.diff l := by
  induction l generalizing s with
  | nil => rfl
  | cons f l ih => rw [List.foldl_cons, ih, rawStep_rawDue, List.diff_cons]

/-- What is taken of a list up to a number leaves what lies above it. -/
theorem lt_of_mem_diff_sorted {l : List Nat} {n f : Nat} (h : f ∈ l.diff ((l.filter (· ≤ n)).mergeSort)) : n < f := by
  by_contra hf
  have all : ((l.filter (· ≤ n)).mergeSort).count f = l.count f :=
    ((List.mergeSort_perm _ _).count_eq f).trans (List.count_filter (decide_eq_true (Nat.not_lt.1 hf)))
  have left := List.count_pos_iff.2 h
  rw [List.count_diff, all] at left
  omega

/-! ## A segment until its last frame is written (R259) -/

/-- Segment `k`, for which no capture waits, is WRITTEN, or it is the one that frame `f` goes to. -/
structure SegDue (s : State) (k f : Nat) : Prop where
  unclaimed : flag s (F.TRG_SEG_PENDING k) = false
  place : segState s k = 2 ∨ segOfFrame s f = some k

theorem segOfFrame_lt {s : State} {f k : Nat} (h : segOfFrame s f = some k) : k < 96 :=
  List.mem_range.1 (List.mem_of_find?_eq_some h)

theorem SegDue.of_kept {s t : State} {k f : Nat} (hk : k < 96) (h : SegDue s k f) (hkept : SegKept s t) : SegDue t k f where
  unclaimed := (hkept.pending k hk).trans h.unclaimed
  place := h.place.imp (hkept.state k hk).trans (hkept.segOfFrame f).trans

/-- The end of a segment leaves another one due. -/
theorem SegDue.segEnded {s : State} {k f j : Nat} (h : SegDue s k f) (hne : j ≠ k) :
    SegDue (segEnded s j) k f ∧ (segState s k = 2 → segState (segEnded s j) k = 2) := by
  have word {i : Nat} (hi : i ≠ j) : rd (Machine.segEnded s j) (R.TRG_SEG i) = rd s (R.TRG_SEG i) := rd_segEnded_ne s hi
  have state {i : Nat} (hi : i ≠ j) : segState (Machine.segEnded s j) i = segState s i := getF_of_word (word hi)
  have first : (Machine.segEnded s j).trg.segFirst = s.trg.segFirst := (congrArg Trg.segFirst (segEnded_core s j) :)
  have unclaimed : flag (Machine.segEnded s j) (F.TRG_SEG_PENDING k) = false :=
    (congrArg (· != 0) (getF_of_word (f := F.TRG_SEG_PENDING k) (word hne.symm))).trans h.unclaimed
  refine ⟨⟨unclaimed, h.place.imp (state hne.symm).trans fun hf => ?_⟩, (state hne.symm).trans⟩
  · refine find?_of_imp hf (fun i hi => ?_) ?_
    · have apart : i ≠ j := by
        rintro rfl
        exact absurd (of_decide_eq_true (Bool.and_elim_right hi)) (segEnded_ne_writing s i)
      rwa [first, state apart] at hi
    · have found := List.find?_some hf
      rwa [first, state hne.symm]

/-- The writer's end of a frame leaves the segment due; the last frame of its block leaves it WRITTEN. -/
theorem SegDue.rawEnd {s : State} {k f : Nat} (hk : k < 96) (h : SegDue s k f) (hf : f % 6 = 5) (g : Nat) :
    SegDue (rawEnd s g) k f ∧ (g = f ∨ segState s k = 2 → segState (rawEnd s g) k = 2) := by
  have same : SegDue (frameTaken s g) k f := ⟨h.unclaimed, h.place⟩
  rcases rawEnd_cases s g with ⟨e, hlast⟩ | ⟨j, hj, e⟩
  · rw [e]
    refine ⟨same, fun hend => ?_⟩
    rcases hend with rfl | hend
    · refine h.place.resolve_right fun hp => ?_
      have inside := hlast k hp
      simp [lastOfSegment, hf] at inside
    · exact hend
  · have hj96 := segOfFrame_lt hj
    have done := segmentDone_segKept (frameTaken s g) j
    rw [e]
    rcases eq_or_ne j k with rfl | hne
    · obtain ⟨written, unclaimed⟩ := segEnded_written same.unclaimed
      have state : segState (segmentDone (frameTaken s g) j) j = 2 := (done.state j hj96).trans written
      exact ⟨⟨(done.pending j hj96).trans unclaimed, .inl state⟩, fun _ => state⟩
    · obtain ⟨due, written⟩ := same.segEnded hne
      refine ⟨due.of_kept hk done, fun hend => (done.state k hk).trans (written ?_)⟩
      rcases hend with rfl | hend
      · exact h.place.resolve_right fun hp => hne (Option.some.inj (hj.symm.trans hp))
      · exact hend

theorem SegDue.foldl_rawStep {s : State} {k f : Nat} (hk : k < 96) (h : SegDue s k f) (hf : f % 6 = 5) (l : List Nat) :
    f ∈ l ∨ segState s k = 2 → segState (l.foldl rawStep s) k = 2 := by
  induction l generalizing s with
  | nil => exact fun hend => hend.resolve_left List.not_mem_nil
  | cons g l ih =>
    have kept := SegKept.rawWrite s g
    obtain ⟨due, written⟩ := (h.of_kept hk kept).rawEnd hk hf g
    rw [kept.state k hk] at written
    rintro (hmem | hend)
    · rcases List.mem_cons.1 hmem with rfl | hmem
      · exact ih due (.inr (written (.inl rfl)))
      · exact ih due (.inl hmem)
    · exact ih due (.inr (written (.inr hend)))

/-! ## SEGMENT_WRITE_COMPLETE (R259; log entry 24) -/

theorem rawCommit_eq (s : State) (f : Nat) :
    rawCommit s f = ((s.trg.rawDue.filter (· ≤ f)).mergeSort).foldl rawStep s := rfl

theorem segmentWriteComplete_completes {s : State} {k : Fin 96} {b : Nat} (hup : Up s)
    (hfirst : s.trg.segFirst.find k = some b) (hb : b % 6 = 0) (hdue : b + 5 ∈ s.trg.rawDue)
    (hseg : segOfFrame s (b + 5) = some k.val) : Completes (.segmentWriteComplete k) s fun t =>
      (∀ f ∈ t.trg.rawDue, b + 5 < f) ∧
      (flag s (F.TRG_SEG_PENDING k) = false → segState t k = 2) ∧ t.arrays = s.arrays := by
  refine completes_run (show execSegmentWriteComplete k s = run _ s from rfl) hup ?_
  have last : (b + 5) % 6 = 5 := by omega
  have waits : (s.trg.rawDue.any fun f => f / 6 * 6 == b && lastOfSegment s f) = true := by
    refine List.any_eq_true.2 ⟨b + 5, hdue, ?_⟩
    have block : (b + 5) / 6 * 6 = b := by omega
    simp [block, lastOfSegment, last]
  rw [hfirst]
  dsimp only
  rw [if_pos waits, rawCommit_eq]
  refine ⟨fun f hf => ?_, fun hpending => ?_, foldl_field State.arrays rawStep_arrays _ s⟩
  · rw [foldl_rawStep_rawDue] at hf
    exact lt_of_mem_diff_sorted hf
  · refine SegDue.foldl_rawStep k.isLt ⟨hpending, .inr hseg⟩ last _ (.inl ?_)
    exact List.mem_mergeSort.2 (List.mem_filter.2 ⟨hdue, decide_eq_true le_rfl⟩)

/-! ## RAW_WRITE_DEADLINE (R258; log entry 24) -/

/-- Where RAW_GAP is counted and flagged. -/
abbrev gapRegs : Set Nat := {R.TRG_RAW_GAP_COUNT, R.TRG_STATUS}

theorem captureFree_gapRegs : CaptureFree gapRegs where
  bound := by simp [Set.insert_subset_iff, R.TRG_RAW_GAP_COUNT, R.TRG_STATUS]
  shown := by decide
  capture c _ := by
    simp only [Set.mem_insert_iff, Set.mem_singleton_iff, R.TRG_CAPTURE, R.TRG_RAW_GAP_COUNT, R.TRG_STATUS]
    omega

theorem notMem_gapRegs_seg (k : Nat) : R.TRG_SEG k ∉ gapRegs := by
  simp only [Set.mem_insert_iff, Set.mem_singleton_iff, R.TRG_SEG, R.TRG_RAW_GAP_COUNT, R.TRG_STATUS]
  omega

theorem rawEnd_gapKept (s : State) (f : Nat) (a : Nat) (ha : a ∈ gapRegs) : rd (rawEnd s f) a = rd s a := by
  have ended (t : State) (k : Nat) : EngineKept gapRegs t (segmentDone t k) := by
    refine EngineKept.captureChecks captureFree_gapRegs (.ite ?_ ?_)
    · exact ((EngineKept.refl t).setF (notMem_gapRegs_seg k) 3).setF (notMem_gapRegs_seg k) 0
    · exact (EngineKept.refl t).setF (notMem_gapRegs_seg k) 2
  rcases rawEnd_cases s f with ⟨e, -⟩ | ⟨k, -, e⟩
  · rw [e]
    rfl
  · rw [e]
    exact (ended (frameTaken s f) k).word a ha

/-- RAW_GAP is counted and flagged, and the writer is done with the frame. -/
theorem rawEnd_rawGap (s : State) (k f : Nat) :
    (rd (rawEnd (rawGap s k f) f) R.TRG_RAW_GAP_COUNT).toNat = min ((rd s R.TRG_RAW_GAP_COUNT).toNat + 1) 0xFFFFFFFF ∧
      getF (rawEnd (rawGap s k f) f) F.TRG_STATUS_RAW_GAP = 1 ∧
      (rawEnd (rawGap s k f) f).trg.rawDue = s.trg.rawDue.erase f := by
  have due : (rawGap s k f).trg.rawDue = s.trg.rawDue := (congrArg Trg.rawDue (SegKept.rawGap s k f).core :)
  have gap : EngineKept gapRegs (setF (bump s R.TRG_RAW_GAP_COUNT) F.TRG_STATUS_RAW_GAP 1) (rawGap s k f) :=
    ((EngineKept.refl _).setF (notMem_gapRegs_seg k) _).rawShow captureFree_gapRegs
  refine ⟨?_, ?_, by rw [rawEnd_rawDue, due]⟩
  · rw [rawEnd_gapKept _ _ _ (by simp), gap.word _ (by simp), rd_setF_ne _ _ _ (by decide)]
    exact toNat_rd_bumpBy s R.TRG_RAW_GAP_COUNT 1
  · rw [getF_of_word (rawEnd_gapKept _ _ _ (by simp)), gap.getF (by simp)]
    exact getF_setF_bit _ (by decide) rfl true

theorem rawWriteDeadline_completes {s : State} {f k : Nat} {written : BitVec 64} (hup : Up s)
    (hdue : f ∈ s.trg.rawDue) (hseg : segOfFrame s f = some k) : Completes (.rawWriteDeadline f written) s fun t =>
      (rd t R.TRG_RAW_GAP_COUNT).toNat = min ((rd s R.TRG_RAW_GAP_COUNT).toNat + 1) 0xFFFFFFFF ∧
      getF t F.TRG_STATUS_RAW_GAP = 1 ∧ t.trg.rawDue = s.trg.rawDue.erase f := by
  refine completes_run (show execRawWriteDeadline f written s = run _ s from rfl) hup ?_
  dsimp only
  rw [if_pos hdue, hseg]
  dsimp only
  have stored : EngineKept gapRegs s (if rawWritable s k f then rawStore s k f fun i => written.getLsbD i else s) :=
    .ite ((EngineKept.refl s).rawStore captureFree_gapRegs.bound ..) (.refl s)
  obtain ⟨count, flagged, due⟩ :=
    rawEnd_rawGap (if rawWritable s k f then rawStore s k f fun i => written.getLsbD i else s) k f
  rw [stored.word _ (by simp)] at count
  rw [stored.rawDue] at due
  exact ⟨count, flagged, due⟩

end Sys2Proof.Machine
end

section
/-! The release of captures and the end of holds (R262, R263). -/
namespace Sys2Proof.Machine

theorem bitOf_toNat {w : Nat} (b : BitVec w) (i : Nat) : bitOf b.toNat i = b.getLsbD i := by
  rw [← BitVec.testBit_toNat, Nat.testBit_eq_decide_div_mod_eq]
  rfl

/-! ## Holds of their own (R263) -/

theorem rd_holdEnd_ne (s : State) {j k : Nat} (h : j ≠ k) : rd (holdEnd s k) (R.XR_SLOT j) = rd s (R.XR_SLOT j) := by
  have other : R.XR_SLOT j ≠ R.XR_SLOT k := by simp only [R.XR_SLOT]; omega
  exact rd_setF_ne s (F.XR_SLOT_HELD k) 0 other

/-- A hold that ends changes no other's. -/
theorem holdEnd_other (s : State) {j k : Nat} (h : j ≠ k) :
    getF (holdEnd s k) (F.XR_SLOT_HELD j) = getF s (F.XR_SLOT_HELD j) ∧ holdAlone (holdEnd s k) j = holdAlone s j := by
  have held : getF (holdEnd s k) (F.XR_SLOT_HELD j) = getF s (F.XR_SLOT_HELD j) := getF_of_word (rd_holdEnd_ne s h)
  have owners : (holdEnd s k).trg.holds.get [] j = s.trg.holds.get [] j := by
    simp only [holdEnd, setTrg_self, SMap.get, SMap.find_drop, setF_trg]
    rw [if_neg (by simpa using h)]
  exact ⟨held, by rw [holdAlone, flag, held, owners, holdAlone, flag]⟩

theorem holdEnd_released (s : State) (k : Nat) : getF (holdEnd s k) (F.XR_SLOT_HELD k) = 0 :=
  getF_setF_field s 0 (by decide)

theorem Steady.holdEnd {lim : Nat} {m : Bool} {s t : State} (h : Steady lim m s t) (hl : lim ≤ 0x800040) (k : Nat) :
    Steady lim m s (holdEnd t k) := (h.setF (f := F.XR_SLOT_HELD k) (Nat.le_add_right_of_le hl) 0).setTrg _

theorem holdTimeout_completes {s : State} {k : Fin 4} (hup : Up s) (halone : holdAlone s k = true)
    (htimeout : trgF s F.TRG_TIMEOUT_SECONDS ≠ 0) (hon : domOn s 24 = true) : Completes (.holdTimeout k) s fun t =>
      getF t (F.XR_SLOT_HELD k) = 0 ∧ RegsSameBut [R.XR_SLOT k] s t ∧ MemorySame s t := by
  refine completes_run (show execHoldTimeout k s = run _ s from rfl) hup ?_
  rw [if_pos ⟨halone, htimeout, hon⟩]
  refine ⟨holdEnd_released s k, fun a ha => ?_, ((Steady.refl s).holdEnd le_rfl k).memorySame⟩
  exact rd_setF_ne s (F.XR_SLOT_HELD k) 0 (List.ne_of_not_mem_cons ha)

/-- A slot that is named, and whose hold belongs to no capture, is released. -/
def holdReleaseOne (bits : Nat) (s : State) (k : Nat) : State := if bitOf bits k ∧ holdAlone s k then holdEnd s k else s

theorem holdReleases_on {s : State} (hon : domOn s 24 = true) (bits : Nat) :
    holdReleases s bits = (List.range 4).foldl (holdReleaseOne bits) s := if_pos hon

/-- A slot that is not named keeps its hold. -/
theorem foldl_holdReleaseOne_unnamed {bits k : Nat} (hk : bitOf bits k = false) (l : List Nat) (s : State) :
    getF (l.foldl (holdReleaseOne bits) s) (F.XR_SLOT_HELD k) = getF s (F.XR_SLOT_HELD k) := by
  refine foldl_field (getF · (F.XR_SLOT_HELD k)) (fun s j => ?_) l s
  unfold holdReleaseOne
  split
  · next named =>
    refine (holdEnd_other s ?_).1
    rintro rfl
    simp [hk] at named
  · rfl

/-- A named slot whose hold belongs to no capture is released, and stays so. -/
theorem foldl_holdReleaseOne_named {bits k : Nat} (hk : bitOf bits k = true) (l : List Nat) {s : State}
    (h : k ∈ l ∧ holdAlone s k = true ∨ getF s (F.XR_SLOT_HELD k) = 0) :
    getF (l.foldl (holdReleaseOne bits) s) (F.XR_SLOT_HELD k) = 0 := by
  induction l generalizing s with
  | nil => exact h.resolve_left fun h => List.not_mem_nil h.1
  | cons j l ih =>
    refine ih ?_
    unfold holdReleaseOne
    rcases eq_or_ne k j with rfl | hne
    · right
      split
      · exact holdEnd_released s k
      · next kept => exact h.resolve_left fun h => kept ⟨hk, h.2⟩
    · have h : k ∈ l ∧ holdAlone s k = true ∨ getF s (F.XR_SLOT_HELD k) = 0 :=
        h.imp_left fun h => ⟨(List.mem_cons.1 h.1).resolve_left hne, h.2⟩
      split
      · obtain ⟨held, alone⟩ := holdEnd_other s hne
        rwa [held, alone]
      · exact h

theorem holdReleaseWrite_completes {s : State} {slots : BitVec 4} (hup : Up s) (hon : domOn s 24 = true) :
    Completes (.holdReleaseWrite slots) s fun t =>
      (∀ k : Fin 4, slots.getLsbD k = true → holdAlone s k = true → getF t (F.XR_SLOT_HELD k) = 0) ∧
      (∀ k : Fin 4, slots.getLsbD k = false → getF t (F.XR_SLOT_HELD k) = getF s (F.XR_SLOT_HELD k)) ∧ MemorySame s t := by
  refine completes_run (show execHoldReleaseWrite slots s = run _ s from rfl) hup ?_
  rw [holdReleases_on hon]
  refine ⟨fun k hk halone => ?_, fun k hk => ?_, ?_⟩
  · exact foldl_holdReleaseOne_named ((bitOf_toNat ..).trans hk) _ (.inl ⟨List.mem_range.2 k.isLt, halone⟩)
  · exact foldl_holdReleaseOne_unnamed ((bitOf_toNat ..).trans hk) ..
  · have released : Steady 0x800000 true s ((List.range 4).foldl (holdReleaseOne slots.toNat) s) :=
      (Steady.refl s).foldl (fun _ k h => .ite (h.holdEnd (by decide) k) h) _
    exact released.memorySame

/-! ## The release of a capture (R262) -/

/-- A field of a capture's first word that the counts, the gaps and the hold shown there stand beside. -/
structure CaptureFld (f : Fld) : Prop where
  place : ∃ c < 16, f.addr = R.TRG_CAPTURE c
  bits : 20 < f.lo ∧ f.lo ≤ f.hi ∧ (f.hi < 28 ∨ 28 < f.lo)

theorem captureFld_state {c : Nat} (hc : c < 16) : CaptureFld (F.TRG_CAPTURE_STATE c) := ⟨⟨c, hc, rfl⟩, by simp⟩

theorem captureFld_expired {c : Nat} (hc : c < 16) : CaptureFld (F.TRG_CAPTURE_EXPIRED c) := ⟨⟨c, hc, rfl⟩, by simp⟩

section release
variable {f : Fld} (hf : CaptureFld f)
include hf

theorem CaptureFld.ne_seg (k : Nat) : f.addr ≠ R.TRG_SEG k := by
  obtain ⟨c, hc, e⟩ := hf.place
  rw [e]
  simp only [R.TRG_CAPTURE, R.TRG_SEG]
  omega

theorem CaptureFld.ne_rawState : f.addr ≠ R.TRG_RAW_STATE := by
  obtain ⟨c, hc, e⟩ := hf.place
  rw [e]
  simp only [R.TRG_CAPTURE, R.TRG_RAW_STATE]
  omega

/-- What stands at other bits, in whatever register, may be set. -/
theorem CaptureFld.getF_setF {a hi lo : Nat} (s : State) (v : Nat) (h : lo ≤ hi ∧ (hi ≤ 20 ∨ lo = 28 ∧ hi = 28)) :
    getF (setF s ⟨a, hi, lo⟩ v) f = getF s f := by
  obtain ⟨hlow, hle, hhold⟩ := hf.bits
  exact getF_setF_other s ⟨a, hi, lo⟩ f (by dsimp only; omega) h.1 hle v (.inr (by dsimp only; omega))

theorem getF_rawShow (s : State) : getF (rawShow s) f = getF s f := by
  have state (s : State) (g : Fld) (hg : g.addr = R.TRG_RAW_STATE) (v : Nat) : getF (setF s g v) f = getF s f :=
    getF_of_word (rd_setF_ne s g v (hg ▸ hf.ne_rawState))
  unfold rawShow
  extract_lets shown
  have counted : getF shown f = getF s f := (state _ _ rfl _).trans (state _ _ rfl _)
  refine (foldl_field (getF · f) (fun s c => ?_) (openCaptures shown) shown).trans counted
  dsimp only
  rw [hf.getF_setF _ _ (by decide), hf.getF_setF _ _ (by decide)]

theorem getF_segRelease (s : State) (k : Nat) : getF (segRelease s k) f = getF s f := by
  have word (s : State) (g : Fld) (hg : g.addr = R.TRG_SEG k) (v : Nat) : getF (setF s g v) f = getF s f :=
    getF_of_word (rd_setF_ne s g v (hg ▸ hf.ne_seg k))
  unfold segRelease
  extract_lets n counted freed
  have h1 : getF counted f = getF s f := word _ _ rfl _
  have h2 : getF freed f = getF s f := by
    unfold freed
    split
    · exact (word _ _ rfl _).trans h1
    · exact h1
  split
  · exact h1
  · exact (word freed (F.TRG_SEG_PENDING k) rfl 0).trans h2

theorem getF_holdEnd (s : State) (k : Nat) : getF (holdEnd s k) f = getF s f :=
  hf.getF_setF (a := R.XR_SLOT k) (hi := 28) (lo := 28) s 0 (by decide)

/-- Of such fields, the release of a capture changes its state alone, to FREE. -/
theorem getF_captureRelease {s : State} {c : Nat} (h : getF s (F.TRG_CAPTURE_STATE c) ≠ 0) :
    ∃ u, (∀ g, CaptureFld g → getF u g = getF s g) ∧
      getF (captureRelease s c) f = getF (setF u (F.TRG_CAPTURE_STATE c) 0) f := by
  unfold captureRelease
  rw [if_neg h]
  extract_lets segs freed mine claimless unheld
  refine ⟨segs, fun g hg => foldl_field (getF · g) (fun s k => getF_segRelease hg s k) _ s, ?_⟩
  have held : getF unheld f = getF claimless f := by
    refine foldl_field (getF · f) (fun s e => ?_) mine claimless
    split
    · exact getF_holdEnd hf ..
    · rfl
  have word : getF claimless f = getF freed f := getF_of_word (rd_congr (setTrg_regs ..) _)
  rw [raise, getF_raiseIn, getF_rawShow hf, held, word]
  unfold freed
  rw [hf.getF_setF _ _ (by decide), hf.getF_setF _ _ (by decide)]

end release

/-- The capture that is released is FREE. -/
theorem captureRelease_free (s : State) {c : Nat} (hc : c < 16) : getF (captureRelease s c) (F.TRG_CAPTURE_STATE c) = 0 := by
  by_cases h : getF s (F.TRG_CAPTURE_STATE c) = 0
  · rw [captureRelease, if_pos h, h]
  · obtain ⟨u, -, e⟩ := getF_captureRelease (captureFld_state hc) h
    exact e.trans (getF_setF_field u 0 (by decide))

/-- Another capture keeps its state. -/
theorem captureRelease_other (s : State) {c j : Nat} (hj : j < 16) (hne : j ≠ c) :
    getF (captureRelease s c) (F.TRG_CAPTURE_STATE j) = getF s (F.TRG_CAPTURE_STATE j) := by
  by_cases h : getF s (F.TRG_CAPTURE_STATE c) = 0
  · rw [captureRelease, if_pos h]
  · obtain ⟨u, kept, e⟩ := getF_captureRelease (captureFld_state hj) h
    have other : R.TRG_CAPTURE j ≠ R.TRG_CAPTURE c := by simp only [R.TRG_CAPTURE]; omega
    exact (e.trans (getF_of_word (rd_setF_ne u _ 0 other))).trans (kept _ (captureFld_state hj))

/-- The release leaves EXPIRED alone. -/
theorem captureRelease_expired (s : State) {c : Nat} (hc : c < 16) :
    getF (captureRelease s c) (F.TRG_CAPTURE_EXPIRED c) = getF s (F.TRG_CAPTURE_EXPIRED c) := by
  by_cases h : getF s (F.TRG_CAPTURE_STATE c) = 0
  · rw [captureRelease, if_pos h]
  · obtain ⟨u, kept, e⟩ := getF_captureRelease (captureFld_expired hc) h
    exact (e.trans (getF_setF_beside u 0 (by decide) (by decide))).trans (kept _ (captureFld_expired hc))

namespace Steady

variable {lim : Nat} {m : Bool} {s t : State}

theorem segRelease (h : Steady lim m s t) (hl : lim ≤ 0xC00004) (k : Nat) : Steady lim m s (segRelease t k) := by
  have seg : lim ≤ R.TRG_SEG k := Nat.le_add_right_of_le (hl.trans (by decide))
  unfold Machine.segRelease
  extract_lets n counted freed
  have h1 : Steady lim m s counted := h.setF (f := F.TRG_SEG_REFS k) seg n
  have h2 : Steady lim m s freed := ite (h1.setF (f := F.TRG_SEG_STATE k) seg 2) h1
  exact ite h1 ((h2.setF (f := F.TRG_SEG_PENDING k) seg 0).setTrg _)

theorem captureRelease (h : Steady lim m s t) (hl : lim ≤ 0x800040) (c : Nat) : Steady lim m s (captureRelease t c) := by
  have capture : lim ≤ R.TRG_CAPTURE c := Nat.le_add_right_of_le (hl.trans (by decide))
  unfold Machine.captureRelease
  extract_lets segs freed mine claimless unheld
  have h1 : Steady lim m s segs := h.foldl (fun _ k h => h.segRelease (hl.trans (by decide)) k) _
  have h2 : Steady lim m s freed := ((h1.setF (f := F.TRG_CAPTURE_STATE c) capture 0).setF
    (f := F.TRG_CAPTURE_HELD c) capture 0).setF (f := F.TRG_CAPTURE_SEGMENTS c) capture 0
  have h3 : Steady lim m s claimless := h2.setTrg _
  have h4 : Steady lim m s unheld := h3.foldl (fun _ e h => ite (h.holdEnd hl e.1) h) mine
  exact ite h ((h4.rawShow (hl.trans (by decide))).raise 10)

end Steady

/-! ## CAPTURE_TIMEOUT and CAPTURE_RELEASE_WRITE (R262) -/

theorem captureTimeout_completes {s : State} {c : Fin 16} (hup : Up s) (hstate : getF s (F.TRG_CAPTURE_STATE c) = 2)
    (htimeout : trgF s F.TRG_TIMEOUT_SECONDS ≠ 0) (hon : domOn s 24 = true) : Completes (.captureTimeout c) s fun t =>
      getF t (F.TRG_CAPTURE_STATE c) = 0 ∧ getF t (F.TRG_CAPTURE_EXPIRED c) = 1 ∧ MemorySame s t := by
  refine completes_run (show execCaptureTimeout c s = run _ s from rfl) hup ?_
  rw [if_pos ⟨hstate, htimeout, hon⟩]
  have expired : getF (setF s (F.TRG_CAPTURE_EXPIRED c) 1) (F.TRG_CAPTURE_EXPIRED c) = 1 := getF_setF_field s 1 (by decide)
  have marked : Steady 0x800000 true s (setF s (F.TRG_CAPTURE_EXPIRED c) 1) :=
    (Steady.refl s).setF (f := F.TRG_CAPTURE_EXPIRED c) (Nat.le_add_right_of_le (by decide)) 1
  exact ⟨captureRelease_free _ c.isLt, (captureRelease_expired _ c.isLt).trans expired,
    (marked.captureRelease (by decide) c).memorySame⟩

/-- A capture that is named is released. -/
def captureReleaseOne (bits : Nat) (s : State) (c : Nat) : State := if bitOf bits c then captureRelease s c else s

theorem captureReleases_on {s : State} (hon : domOn s 24 = true) (bits : Nat) :
    captureReleases s bits = (List.range 16).foldl (captureReleaseOne bits) s := if_pos hon

/-- A capture that is not named keeps its state. -/
theorem foldl_captureReleaseOne_unnamed {bits c : Nat} (hc : c < 16) (hb : bitOf bits c = false) (l : List Nat) (s : State) :
    getF (l.foldl (captureReleaseOne bits) s) (F.TRG_CAPTURE_STATE c) = getF s (F.TRG_CAPTURE_STATE c) := by
  refine foldl_field (getF · (F.TRG_CAPTURE_STATE c)) (fun s j => ?_) l s
  unfold captureReleaseOne
  split
  · next named =>
    refine captureRelease_other s hc ?_
    rintro rfl
    exact absurd named (ne_true_of_eq_false hb)
  · rfl

/-- A capture that is named is FREE, and stays so. -/
theorem foldl_captureReleaseOne_named {bits c : Nat} (hc : c < 16) (hb : bitOf bits c = true) (l : List Nat) {s : State}
    (h : c ∈ l ∨ getF s (F.TRG_CAPTURE_STATE c) = 0) :
    getF (l.foldl (captureReleaseOne bits) s) (F.TRG_CAPTURE_STATE c) = 0 := by
  induction l generalizing s with
  | nil => exact h.resolve_left List.not_mem_nil
  | cons j l ih =>
    refine ih ?_
    unfold captureReleaseOne
    rcases eq_or_ne c j with rfl | hne
    · rw [if_pos hb]
      exact .inr (captureRelease_free s hc)
    · refine h.imp (fun h => (List.mem_cons.1 h).resolve_left hne) fun h => ?_
      split
      · exact (captureRelease_other s hc hne).trans h
      · exact h

theorem captureReleaseWrite_completes {s : State} {bits : BitVec 16} (hup : Up s) (hon : domOn s 24 = true) :
    Completes (.captureReleaseWrite bits) s fun t =>
      (∀ c : Fin 16, bits.getLsbD c = true → getF t (F.TRG_CAPTURE_STATE c) = 0) ∧
      (∀ c : Fin 16, bits.getLsbD c = false → getF t (F.TRG_CAPTURE_STATE c) = getF s (F.TRG_CAPTURE_STATE c)) ∧
      MemorySame s t := by
  refine completes_run (show execCaptureReleaseWrite bits s = run _ s from rfl) hup ?_
  rw [captureReleases_on hon]
  refine ⟨fun c hc => ?_, fun c hc => ?_, ?_⟩
  · exact foldl_captureReleaseOne_named c.isLt ((bitOf_toNat ..).trans hc) _ (.inl (List.mem_range.2 c.isLt))
  · exact foldl_captureReleaseOne_unnamed c.isLt ((bitOf_toNat ..).trans hc) ..
  · have released : Steady 0x800000 true s ((List.range 16).foldl (captureReleaseOne bits.toNat) s) :=
      (Steady.refl s).foldl (fun _ c h => .ite (h.captureRelease (by decide) c) h) _
    exact released.memorySame

end Sys2Proof.Machine
end

namespace Sys2Proof
open Machine

/-- Settles O14: each command is served on a block that is up, and what its rule names follows from the lemma about it. A
trigger's actions leave SEQ, the groups and the signposts known to the engine alone but for its record (`EngineKept`); a
segment is left as it is until its last frame is written (`SegDue`). -/
theorem triggerCommandsComplete : Obligations.TriggerCommandsComplete := by
  unfold Obligations.TriggerCommandsComplete
  exact ⟨fun s channel action hup htwin hon => triggerInject_completes hup htwin hon,
    fun s channel action hup h1 h4 => triggerInject_rejected hup h1 h4,
    fun s k time hup hon himp => impulseHorizonAdvance_completes hup hon himp,
    fun s k hup hon hframe hdue hraw hclaimed hnext => rawSegmentStart_completes hup hon hframe hdue hraw hclaimed hnext,
    fun s f written k hup hdue hseg => rawWriteDeadline_completes hup hdue hseg,
    fun s k b hup hfirst hb hdue hseg => segmentWriteComplete_completes hup hfirst hb hdue hseg,
    fun s bits hup hon => captureReleaseWrite_completes hup hon,
    fun s c hup hstate htimeout hon => captureTimeout_completes hup hstate htimeout hon,
    fun s slots hup hon => holdReleaseWrite_completes hup hon,
    fun s k hup halone htimeout hon => holdTimeout_completes hup halone htimeout hon,
    fun s n f hup hlink hheader htype hlength heof hallowed hon horigin hnew =>
      signpostFrameReceived_completes hup ⟨hlink, hheader, htype, hlength, heof, hallowed⟩ hon horigin hnew⟩

end Sys2Proof

section
/-! The pipeline of a Beryl core: which writes of a register slot are under way, what the slot holds once they have landed,
and the instruction that first sees it (R282, R283). -/
namespace Sys2Proof.Machine

/-! ## Writes that land -/

/-- A write lands on a word: the bits it names replace those of the word. -/
def BrlFlight.onto (v : DWord) (f : BrlFlight) : DWord := (v &&& ~~~f.mask) ||| (f.val &&& f.mask)

theorem BrlFlight.getLsbD_onto (v : DWord) (f : BrlFlight) {i : Nat} (hi : i < 64) :
    (f.onto v).getLsbD i = if f.mask.getLsbD i then f.val.getLsbD i else v.getLsbD i := by
  simp only [onto, BitVec.getLsbD_or, BitVec.getLsbD_and, BitVec.getLsbD_not, hi, decide_true, Bool.true_and]
  cases f.mask.getLsbD i <;> simp

/-- Writes that land one after the other change each slot by those of its own. -/
theorem get_foldl_land (l : List BrlFlight) (file : SMap DWord) (i : Nat) :
    (l.foldl BrlFlight.land file).get 0 i = (l.filter (·.slot == i)).foldl BrlFlight.onto (file.get 0 i) := by
  induction l generalizing file with
  | nil => rfl
  | cons f l ih =>
    rw [List.foldl_cons, ih, BrlFlight.land, SMap.upd, SMap.get_put, List.filter_cons]
    by_cases h : f.slot = i
    · subst h; simp [BrlFlight.onto]
    · simp [h, Ne.symm h]

/-- The word `w` with the bits of `mask` taken from `val`. -/
def merged (w : DWord) (mask val : Nat) : DWord := BrlFlight.onto w ⟨0, 0, BitVec.ofNat 64 mask, BitVec.ofNat 64 val⟩

theorem getLsbD_merged (w : DWord) (mask val : Nat) {i : Nat} (hi : i < 64) :
    (merged w mask val).getLsbD i = if mask.testBit i then val.testBit i else w.getLsbD i := by
  rw [merged, BrlFlight.getLsbD_onto _ _ hi]
  simp only [BitVec.getLsbD_ofNat, hi, decide_true, Bool.true_and]

theorem land_merged (w : DWord) {mask : Nat} (hm : mask < 2 ^ 64) (val : Nat) :
    Nat.land (merged w mask val).toNat mask = Nat.land val mask := by
  apply Nat.eq_of_testBit_eq
  intro i
  change ((merged w mask val).toNat &&& mask).testBit i = (val &&& mask).testBit i
  rw [Nat.testBit_and, Nat.testBit_and, BitVec.testBit_toNat]
  by_cases hi : i < 64
  · rw [getLsbD_merged w mask val hi]
    cases mask.testBit i <;> simp
  · rw [Nat.testBit_lt_two_pow (hm.trans_le (Nat.pow_le_pow_right (by decide) (Nat.le_of_not_lt hi)))]
    simp

/-- A write of the low `n` bits. -/
theorem merged_mod (w : DWord) {n : Nat} (hn : n ≤ 64) (val : Nat) :
    (merged w (2 ^ n - 1) val).toNat % 2 ^ n = val % 2 ^ n := by
  have h : 2 ^ n - 1 < 2 ^ 64 := (Nat.sub_one_lt (Nat.two_pow_pos n).ne').trans_le (Nat.pow_le_pow_right (by decide) hn)
  simpa [← Nat.and_two_pow_sub_one_eq_mod] using land_merged w h val

namespace BrlCore

/-! ## The writes of one slot -/

/-- The writes of slot `i` under way. -/
def pend (c : BrlCore) (i : Nat) : List BrlFlight := c.flight.filter (·.slot == i)

/-- The writes of slot `i` under way are all first seen by instruction number `d`, and with them landed it holds `v`. -/
structure Due (c : BrlCore) (i d : Nat) (v : DWord) : Prop where
  due : ∀ f ∈ c.pend i, f.due = d
  word : (c.pend i).foldl BrlFlight.onto (c.file.get 0 i) = v

variable {c c' : BrlCore} {i d : Nat} {v : DWord}

theorem Due.of_landed (h : c.pend i = []) (d : Nat) : Due c i d (c.file.get 0 i) := by
  constructor <;> simp [h]

/-- What is due of a slot rests on its word and its writes only. -/
theorem Due.congr (h : Due c i d v) (hfile : c'.file.get 0 i = c.file.get 0 i) (hpend : c'.pend i = c.pend i) :
    Due c' i d v := by
  constructor
  · rw [hpend]; exact h.due
  · rw [hfile, hpend]; exact h.word

theorem Due.file (h : Due c i d v) (hc : c.pend i = []) : c.file.get 0 i = v := by simpa [hc] using h.word

/-- Of writes that are all due at once, a test of the due number takes all or none. -/
theorem Due.filter_pend (h : Due c i d v) (p : Nat → Bool) :
    (c.pend i).filter (fun f => p f.due) = if p d then c.pend i else [] := by
  split
  · next hp => exact List.filter_eq_self.2 fun f hf => by rw [h.due f hf, hp]
  · next hp => exact List.filter_eq_nil_iff.2 fun f hf => by rwa [h.due f hf]

theorem pend_landed (c : BrlCore) (i : Nat) : c.landed.pend i = (c.pend i).filter (c.count < ·.due) := by
  simp only [pend, landed, List.filter_filter, Bool.and_comm]

theorem file_landed (c : BrlCore) (i : Nat) : c.landed.file.get 0 i =
    ((c.pend i).filter (·.due ≤ c.count)).foldl BrlFlight.onto (c.file.get 0 i) := by
  simp only [landed, get_foldl_land, pend, List.filter_filter, Bool.and_comm]

theorem Due.landed (h : Due c i d v) : Due c.landed i d v := by
  have kept := h.filter_pend (decide <| c.count < ·)
  have taken := h.filter_pend (decide <| · ≤ c.count)
  constructor
  · intro f hf
    rw [pend_landed] at hf
    exact h.due f (List.mem_of_mem_filter hf)
  · rw [file_landed, pend_landed, kept, taken]
    by_cases hd : d ≤ c.count
    · simpa [hd, Nat.not_lt.2 hd] using h.word
    · simpa [hd, Nat.lt_of_not_le hd] using h.word

theorem Due.pend_landed (h : Due c i d v) (hd : d ≤ c.count) : c.landed.pend i = [] := by
  rw [BrlCore.pend_landed, h.filter_pend (decide <| c.count < ·)]
  simp [Nat.not_lt.2 hd]

theorem pend_drained (c : BrlCore) (i : Nat) : c.drained.pend i = [] := rfl

theorem file_drained (c : BrlCore) (i : Nat) : c.drained.file.get 0 i =
    ((List.range 4).flatMap fun e => (c.pend i).filter (·.due == c.count + e)).foldl BrlFlight.onto (c.file.get 0 i) := by
  simp only [drained, get_foldl_land, pend, List.filter_flatMap, List.filter_filter, Bool.and_comm]

/-- A write that comes within three instructions lands when the pipeline drains. -/
theorem Due.drained (h : Due c i d v) (hlo : c.count ≤ d) (hhi : d ≤ c.count + 3) : Due c.drained i d v := by
  obtain ⟨e, rfl⟩ := Nat.exists_eq_add_of_le hlo
  have step (e' : Nat) : (c.pend i).filter (·.due == c.count + e') = if e = e' then c.pend i else [] := by
    simpa using h.filter_pend (· == c.count + e')
  have all : ((List.range 4).flatMap fun e' => (c.pend i).filter (·.due == c.count + e')) = c.pend i := by
    have he : e < 4 := by omega
    simp only [step]
    interval_cases e <;> simp [List.range_succ]
  constructor
  · simp [pend_drained]
  · rw [pend_drained, file_drained, all]
    exact h.word

/-- The `n`-th instruction after the next sees what is due by then. -/
theorem Due.seen (h : Due c i d v) {n : Nat} (hd : d ≤ c.count + n) :
    (BrlCore.landed { c with count := c.count + n }).slot i = v.toNat := by
  have hc : Due { c with count := c.count + n } i d v := ⟨h.due, h.word⟩
  exact congrArg BitVec.toNat (hc.landed.file (hc.pend_landed hd))

/-! ## A new write -/

theorem pend_put (c : BrlCore) (e j mask val i : Nat) : (c.put e j mask val).pend i =
    c.pend i ++ if j = i then [⟨c.count + e, j, BitVec.ofNat 64 mask, BitVec.ofNat 64 val⟩] else [] := by
  simp only [pend, put, List.filter_append]
  by_cases h : j = i <;> simp [h]

theorem pend_put_ne (c : BrlCore) {e j mask val i : Nat} (h : j ≠ i) : (c.put e j mask val).pend i = c.pend i := by
  simp [pend_put, h]

theorem Due.put_ne (h : Due c i d v) {e j mask val : Nat} (hj : j ≠ i) : Due (c.put e j mask val) i d v :=
  h.congr rfl (pend_put_ne c hj)

theorem Due.put {e : Nat} (h : Due c i (c.count + e) v) (mask val : Nat) :
    Due (c.put e i mask val) i (c.count + e) (merged v mask val) := by
  constructor
  · intro f hf
    rw [pend_put, if_pos rfl, List.mem_append, List.mem_singleton] at hf
    rcases hf with hf | rfl
    · exact h.due f hf
    · rfl
  · rw [pend_put, if_pos rfl, List.foldl_append]
    exact congrArg (merged · mask val) h.word

/-- A write of a slot that had none under way. -/
theorem Due.of_put (h : c.pend i = []) (e mask val : Nat) :
    Due (c.put e i mask val) i (c.count + e) (merged (c.file.get 0 i) mask val) := (Due.of_landed h _).put mask val

/-- A sticky bit leaves the other bits of SR that are due, and is set where its cause is true. -/
theorem Due.stick (h : Due c 52 (c.count + 1) v) {bit : Nat} (hbit : bit < 64) (b : Bool) :
    ∃ v', Due (c.stick bit b) 52 (c.count + 1) v' ∧ (∀ i < 64, i ≠ bit → v'.getLsbD i = v.getLsbD i) ∧
      (b = true ∨ v.getLsbD bit = true → v'.getLsbD bit = true) := by
  cases b with
  | false => exact ⟨v, h, fun _ _ _ => rfl, fun hb => hb.resolve_left (by decide)⟩
  | true =>
    refine ⟨_, h.put (2 ^ bit) (2 ^ bit), fun i hi hne => ?_, fun _ => ?_⟩
    · rw [getLsbD_merged _ _ _ hi, Nat.testBit_two_pow_of_ne hne.symm]; rfl
    · rw [getLsbD_merged _ _ _ hbit, Nat.testBit_two_pow_self]; rfl

theorem Due.stick_ne (h : Due c i d v) (hi : i ≠ 52) (bit : Nat) (b : Bool) : Due (c.stick bit b) i d v := by
  cases b with
  | false => exact h
  | true => exact h.put_ne hi.symm

@[simp] theorem count_put (c : BrlCore) (e j mask val : Nat) : (c.put e j mask val).count = c.count := rfl

@[simp] theorem count_stick (c : BrlCore) (bit : Nat) (b : Bool) : (c.stick bit b).count = c.count := by cases b <;> rfl

/-! ## An instruction's writes -/

/-- `c'` is `c` with more writes under way, to slots of `dst` only. -/
structure Writes (dst : List Nat) (c c' : BrlCore) : Prop where
  file : c'.file = c.file
  count : c'.count = c.count
  levels : c'.levels = c.levels
  slots : c'.slots = c.slots
  iter : c'.iter = c.iter
  pend : ∀ i, i ∉ dst → c'.pend i = c.pend i

namespace Writes

variable {dst : List Nat}

theorem refl (dst : List Nat) (c : BrlCore) : Writes dst c c := ⟨rfl, rfl, rfl, rfl, rfl, fun _ _ => rfl⟩

theorem put (h : Writes dst c c') {j : Nat} (hj : j ∈ dst) (e mask val : Nat) : Writes dst c (c'.put e j mask val) where
  file := h.file
  count := h.count
  levels := h.levels
  slots := h.slots
  iter := h.iter
  pend i hi := (pend_put_ne c' (ne_of_mem_of_not_mem hj hi)).trans (h.pend i hi)

theorem stick (h : Writes dst c c') {b : Bool} (hj : b = true → 52 ∈ dst) (bit : Nat) : Writes dst c (c'.stick bit b) := by
  cases b with
  | false => exact h
  | true => exact h.put (hj rfl) _ _ _

theorem putFlags (h : Writes dst c c') (h52 : 52 ∈ dst) (h72 : 72 ∈ dst) (n : Nat) : Writes dst c (c'.putFlags n) :=
  (h.put h52 _ _ _).put h72 _ _ _

theorem putAcc (h : Writes dst c c') {a : Nat} (hm : 64 + a ∈ dst) (hv : 68 + a ∈ dst) (v : Int) :
    Writes dst c (c'.putAcc a v) := (h.put hm _ _ _).put hv _ _ _

theorem putAreg (h : Writes dst c c') {a : Nat} (ha : 32 + a ∈ dst) (h72 : 72 ∈ dst) (v : Nat) :
    Writes dst c (c'.putAreg a v) := by
  unfold BrlCore.putAreg
  split
  · exact (h.put ha _ _ _).put h72 _ _ _
  · exact h.put ha _ _ _

/-- The pointer of an access moves on. -/
theorem step (h : Writes dst c c') {p : Nat} (hp : 32 + p ∈ dst) {e : Ea} (hco : e.co = true → 52 ∈ dst) :
    Writes dst c (c'.step p e) := by
  unfold BrlCore.step
  refine stick ?_ hco 7
  split
  · exact h.put hp _ _ _
  · exact h

end Writes

/-! ## A core that comes to rest -/

/-- `c'` is `c` after a boundary: its writes may have landed there, and a WAIT or HALT may be over. -/
def Rested (c c' : BrlCore) : Prop :=
  ∃ w h, c' = { c with waiting := w, halt := h } ∨ c' = { c.drained with waiting := w, halt := h }

namespace Rested

theorem refl (c : BrlCore) : Rested c c := ⟨c.waiting, c.halt, .inl rfl⟩

theorem trans {c'' : BrlCore} (h : Rested c c') (h' : Rested c' c'') : Rested c c'' := by
  obtain ⟨w, b, rfl | rfl⟩ := h
  · obtain ⟨w', b', rfl | rfl⟩ := h'
    · exact ⟨w', b', .inl rfl⟩
    · exact ⟨w', b', .inr rfl⟩
  · obtain ⟨w', b', rfl | rfl⟩ := h'
    · exact ⟨w', b', .inr rfl⟩
    · exact ⟨w', b', .inr rfl⟩

variable (h : Rested c c')
include h

theorem count : c'.count = c.count := by obtain ⟨w, b, rfl | rfl⟩ := h <;> rfl
theorem stack : c'.stack = c.stack := by obtain ⟨w, b, rfl | rfl⟩ := h <;> rfl
theorem levels : c'.levels = c.levels := by obtain ⟨w, b, rfl | rfl⟩ := h <;> rfl
theorem slots : c'.slots = c.slots := by obtain ⟨w, b, rfl | rfl⟩ := h <;> rfl
theorem target : c'.target = c.target := by obtain ⟨w, b, rfl | rfl⟩ := h <;> rfl
theorem iter : c'.iter = c.iter := by obtain ⟨w, b, rfl | rfl⟩ := h <;> rfl
theorem stores : c'.stores = c.stores := by obtain ⟨w, b, rfl | rfl⟩ := h <;> rfl

end Rested

theorem Due.rested (h : Due c i d v) (hr : Rested c c') (hlo : c.count ≤ d) (hhi : d ≤ c.count + 3) : Due c' i d v := by
  obtain ⟨w, b, rfl | rfl⟩ := hr
  · exact ⟨h.due, h.word⟩
  · exact ⟨(h.drained hlo hhi).due, (h.drained hlo hhi).word⟩

end BrlCore
end Sys2Proof.Machine
end

section
/-! Issue and sequencing of a Beryl core (R284 to R292): what going on to the next instruction leaves alone, and what the
instructions after it then see. -/
namespace Sys2Proof.Machine

/-! ## The cores of a state -/

theorem brlCore_congr {s t : State} (h : t.brl = s.brl) (k : Nat) : brlCore t k = brlCore s k := by rw [brlCore, h, brlCore]

@[simp] theorem brlCore_setBrl_same (s : State) (k : Nat) (f : BrlCore → BrlCore) :
    brlCore (setBrl s k f) k = f (brlCore s k) := SMap.get_put_same ..

theorem brlCore_setBrl_ne (s : State) {j k : Nat} (h : j ≠ k) (f : BrlCore → BrlCore) :
    brlCore (setBrl s k f) j = brlCore s j := SMap.get_put_ne _ _ _ h

@[simp] theorem brlCore_setF (s : State) (f : Fld) (v k : Nat) : brlCore (setF s f v) k = brlCore s k := rfl
@[simp] theorem brlCore_setR (s : State) (a v k : Nat) : brlCore (setR s a v) k = brlCore s k := rfl
@[simp] theorem brlCore_setB (s : State) (a i : Nat) (b : Bool) (k : Nat) : brlCore (setB s a i b) k = brlCore s k := rfl
@[simp] theorem brlCore_setPair (s : State) (a v k : Nat) : brlCore (setPair s a v) k = brlCore s k := rfl
@[simp] theorem brlCore_bump (s : State) (a k : Nat) : brlCore (bump s a) k = brlCore s k := rfl
@[simp] theorem brlCore_arrSet (s : State) (x : Arr) (i : Nat) (v : DWord) (k : Nat) :
    brlCore (arrSet s x i v) k = brlCore s k := rfl
@[simp] theorem brlCore_setBrlPc (s : State) (j pc k : Nat) : brlCore (setBrlPc s j pc) k = brlCore s k := rfl
@[simp] theorem brlCore_brlCycles (s : State) (j n k : Nat) : brlCore (brlCycles s j n) k = brlCore s k := rfl

theorem brlCore_raise (s : State) (src k : Nat) : brlCore (raise s src) k = brlCore s k := by
  unfold raise raiseIn
  split <;> rfl

theorem brlPc_lt (s : State) (k : Nat) : brlPc s k < 32768 := Nat.mod_lt _ (Nat.two_pow_pos 15)

theorem brlPc_setBrlPc (s : State) (k pc : Nat) : brlPc (setBrlPc s k pc) k = pc % 32768 := by
  rw [brlPc, setBrlPc, getF_setF_same _ _ (Nat.lt_of_sub_eq_succ rfl) (Nat.zero_le _)]
  exact Nat.mod_mod _ _

@[simp] theorem brlState_setBrl (s : State) (j : Nat) (f : BrlCore → BrlCore) (k : Nat) :
    brlState (setBrl s j f) k = brlState s k := rfl

@[simp] theorem brlState_setState (s : State) (k v : Nat) : brlState (setF s (F.BRL_STATUS_STATE k) v) k = v % 16 :=
  getF_setF_same s (F.BRL_STATUS_STATE k) (Nat.lt_of_sub_eq_succ rfl) (Nat.zero_le _) v

/-! ## What stays with one core -/

/-- From `s` to `t` memory and every other core stand, as do the registers but those of `regs`; events are only added. -/
structure Local (regs : List Nat) (k : Nat) (s t : State) : Prop where
  word : ∀ a, a ∉ regs → rd t a = rd s a
  dram : t.dram = s.dram
  arrays : t.arrays = s.arrays
  pulses : s.pulses <+: t.pulses
  others : ∀ j, j ≠ k → brlCore t j = brlCore s j

/-- The registers that leading on to the next instruction changes (R297). -/
def leadRegs (k : Nat) : List Nat := [R.BRL_PC k, R.BRL_CYCLES_LO k, R.BRL_CYCLES_HI k]

/-- Those, and the status, which the boundary after it changes (R292). -/
def seqRegs (k : Nat) : List Nat := [R.BRL_PC k, R.BRL_CYCLES_LO k, R.BRL_CYCLES_HI k, R.BRL_STATUS k]

/-- Core `k`'s register at `base` is none of those, nor of the ones below. -/
theorem notMem_leadRegs {base : Nat} (k : Nat) (h : base ∉ [0xD00008, 0xD00050, 0xD00054]) :
    base + 0x100000 * k ∉ leadRegs k := by
  simp only [leadRegs, R.BRL_PC, R.BRL_CYCLES_LO, R.BRL_CYCLES_HI, List.mem_cons, List.not_mem_nil, or_false] at h ⊢
  omega

theorem notMem_seqRegs {base : Nat} (k : Nat) (h : base ∉ [0xD00004, 0xD00008, 0xD00050, 0xD00054]) :
    base + 0x100000 * k ∉ seqRegs k := by
  simp only [seqRegs, R.BRL_PC, R.BRL_CYCLES_LO, R.BRL_CYCLES_HI, R.BRL_STATUS, List.mem_cons, List.not_mem_nil,
    or_false] at h ⊢
  omega

theorem leadRegs_subset (k : Nat) : leadRegs k ⊆ seqRegs k := by simp [leadRegs, seqRegs]

/-- The registers that a vector which becomes pending changes (R289). -/
def pendRegs (k : Nat) : List Nat := [R.BRL_IRQ_PEND k, R.BRL_IRQ_MERGE_COUNT k, R.BRL_STATUS k]

namespace Local

variable {regs : List Nat} {k : Nat} {s t u : State}

theorem refl (s : State) : Local regs k s s := ⟨fun _ _ => rfl, rfl, rfl, List.prefix_refl _, fun _ _ => rfl⟩

theorem trans (h : Local regs k s t) (h' : Local regs k t u) : Local regs k s u where
  word a ha := (h'.word a ha).trans (h.word a ha)
  dram := h'.dram.trans h.dram
  arrays := h'.arrays.trans h.arrays
  pulses := h.pulses.trans h'.pulses
  others j hj := (h'.others j hj).trans (h.others j hj)

theorem mono {regs' : List Nat} (h : Local regs k s t) (hr : regs ⊆ regs') : Local regs' k s t :=
  { h with word := fun a ha => h.word a fun hm => ha (hr hm) }

theorem memorySame (h : Local regs k s t) : MemorySame s t := ⟨fun a => by rw [h.dram], h.arrays⟩

theorem getF (h : Local regs k s t) {f : Fld} (hf : f.addr ∉ regs) : getF t f = Machine.getF s f :=
  getF_of_word (h.word _ hf)

theorem same (h : Local regs k s t) (hr : u.regs = t.regs) (hd : u.dram = t.dram) (ha : u.arrays = t.arrays)
    (hp : u.pulses = t.pulses) (hb : u.brl = t.brl) : Local regs k s u :=
  h.trans ⟨fun a _ => rd_congr hr a, hd, ha, hp ▸ List.prefix_refl _, fun j _ => brlCore_congr hb j⟩

theorem ite {p : Prop} [Decidable p] (ht : Local regs k s t) (hu : Local regs k s u) :
    Local regs k s (if p then t else u) := by
  split
  · exact ht
  · exact hu

theorem foldl {α : Type} {f : State → α → State} (hf : ∀ t x, Local regs k s t → Local regs k s (f t x)) (l : List α)
    (h : Local regs k s t) : Local regs k s (l.foldl f t) := by
  induction l generalizing t with
  | nil => exact h
  | cons x l ih => exact ih (hf t x h)

/-! ## The named updates -/

theorem wr (h : Local regs k s t) {a : Nat} (ha : a ∈ regs) (v : Word) : Local regs k s (wr t a v) :=
  h.trans ⟨fun _ hb => rd_wr_ne t v (ne_of_mem_of_not_mem ha hb).symm, rfl, rfl, List.prefix_refl _, fun _ _ => rfl⟩

theorem setR (h : Local regs k s t) {a : Nat} (ha : a ∈ regs) (v : Nat) : Local regs k s (setR t a v) := h.wr ha _

theorem setF (h : Local regs k s t) {f : Fld} (hf : f.addr ∈ regs) (v : Nat) : Local regs k s (setF t f v) := h.wr hf _

theorem setB (h : Local regs k s t) {a : Nat} (ha : a ∈ regs) (i : Nat) (b : Bool) :
    Local regs k s (setB t a i b) := h.wr ha _

theorem setPair (h : Local regs k s t) {a : Nat} (hlo : a ∈ regs) (hhi : a + 4 ∈ regs) (v : Nat) :
    Local regs k s (setPair t a v) := ((h.setR hlo _).setR hhi _).same rfl rfl rfl rfl rfl

theorem bump (h : Local regs k s t) {a : Nat} (ha : a ∈ regs) : Local regs k s (bump t a) :=
  (h.setR ha _).same rfl rfl rfl rfl rfl

theorem raise (h : Local regs k s t) (src : Nat) : Local regs k s (raise t src) :=
  ite (h.trans ⟨fun _ _ => rfl, rfl, rfl, List.prefix_append _ _, fun _ _ => rfl⟩) h

theorem freeTaken (h : Local regs k s t) : Local regs k s (freeTaken t) := h.same rfl rfl rfl rfl rfl

theorem setBrl (h : Local regs k s t) (f : BrlCore → BrlCore) : Local regs k s (setBrl t k f) :=
  h.trans ⟨fun _ _ => rfl, rfl, rfl, List.prefix_refl _, fun _ hj => brlCore_setBrl_ne t hj f⟩

theorem setBrlIf (h : Local regs k s t) (p : Prop) [Decidable p] (f : BrlCore → BrlCore) :
    Local regs k s (if p then Machine.setBrl t k f else t) := ite (h.setBrl f) h

/-! ## Pending vectors, and rest at a boundary (R289, R292) -/

theorem brlWake (h : Local regs k s t) (hs : R.BRL_STATUS k ∈ regs) : Local regs k s (brlWake t k) :=
  ite ((h.setF (f := F.BRL_STATUS_STATE k) hs 1).setBrl fun c => { c with waiting := false }) h

theorem brlPend (h : Local regs k s t) (hr : pendRegs k ⊆ regs) (v : Nat) : Local regs k s (brlPend t k v) :=
  ite (h.bump (hr (by simp [pendRegs]))) ((h.setB (hr (by simp [pendRegs])) v true).brlWake (hr (by simp [pendRegs])))

theorem brlSettle (h : Local regs k s t) (hs : R.BRL_STATUS k ∈ regs) : Local regs k s (brlSettle t k) :=
  ite ((h.setF (f := F.BRL_STATUS_STATE k) hs 2).setBrl _) h

theorem brlWaitCheck (h : Local regs k s t) (hs : R.BRL_STATUS k ∈ regs) : Local regs k s (brlWaitCheck t k) :=
  ite (((h.setF (f := F.BRL_STATUS_STATE k) hs 3).setBrl _).brlWake hs) h

/-! ## Going on (R284 to R287) -/

theorem setBrlPc (h : Local regs k s t) (hp : R.BRL_PC k ∈ regs) (pc : Nat) : Local regs k s (setBrlPc t k pc) :=
  h.setF (f := F.BRL_PC_PC k) hp _

theorem brlJump (h : Local regs k s t) (hp : R.BRL_PC k ∈ regs) (target : Nat) : Local regs k s (brlJump t k target) :=
  (h.setBrl _).setBrlPc hp _

theorem brlSeq (h : Local regs k s t) (hp : R.BRL_PC k ∈ regs) : Local regs k s (brlSeq t k) := by
  unfold Machine.brlSeq
  dsimp only
  split
  · split
    · exact ite ((h.setBrl _).setBrlPc hp _) ((h.setBrl _).setBrlPc hp _)
    · exact (ite h (h.setBrl _)).setBrlPc hp _
  · exact h.setBrlPc hp _

theorem brlCycles (h : Local regs k s t) (hr : leadRegs k ⊆ regs) (n : Nat) : Local regs k s (brlCycles t k n) := by
  have hhi : R.BRL_CYCLES_LO k + 4 = R.BRL_CYCLES_HI k := by simp only [R.BRL_CYCLES_LO, R.BRL_CYCLES_HI]; omega
  exact h.setPair (hr (by simp [leadRegs])) (hhi ▸ hr (by simp [leadRegs])) _

end Local

/-! ## The next instruction -/

/-- The instruction is counted, and the writes that the next one sees have landed. -/
def brlCounted (s : State) (k : Nat) : State :=
  setBrl (setBrl (brlCycles s k 1) k fun c => { c with count := c.count + 1 }) k BrlCore.landed

/-- Where an instruction leads that is no branch: an ITER repeats, a due branch is taken, or the sequence goes on. -/
def brlFollow (s : State) (k : Nat) : State :=
  let c := brlCore s k
  let s := brlCounted s k
  if 1 < c.iter then setBrl s k fun c => { c with iter := c.iter - 1 }
  else
    let s := if c.iter = 1 then setBrl s k fun c => { c with iter := 0 } else s
    let s := if 0 < c.slots then setBrl s k fun c => { c with slots := c.slots - 1 } else s
    match c.slots, c.target with
    | 1, some t => brlJump s k t
    | _, _ => brlSeq s k

/-- A branch begins: two delay slots, then its target if it is taken (R284). -/
def brlBranch (s : State) (k : Nat) (target : Option Nat) : State :=
  setBrlPc (setBrl (brlCounted s k) k fun c => { c with slots := 2, target := target, fresh := false }) k
    (brlPc (brlCounted s k) k + 1)

/-- An ITER begins (R285). -/
def brlIterate (s : State) (k n : Nat) : State :=
  setBrlPc (setBrl (brlCounted s k) k fun c => { c with iter := n }) k (brlPc (brlCounted s k) k + 1)

/-- What an instruction leads on to, before the boundary after it is looked at. -/
def brlLead (s : State) (k : Nat) : BrlCtl → State
  | .seq => brlFollow s k
  | .branch target => brlBranch s k target
  | .iter n => brlIterate s k n

/-- The boundary after an instruction: a core that executed WAIT waits, and one that may halt does. -/
def brlBoundary (s : State) (k : Nat) : State := brlSettle (brlWaitCheck s k) k

theorem brlAdvance_eq (s : State) (k : Nat) (ctl : BrlCtl) : brlAdvance s k ctl = brlBoundary (brlLead s k ctl) k := by
  cases ctl <;> rfl

theorem brlCore_brlCounted (s : State) (k : Nat) : brlCore (brlCounted s k) k =
    BrlCore.landed { brlCore s k with count := (brlCore s k).count + 1 } := by
  rw [brlCounted, brlCore_setBrl_same, brlCore_setBrl_same, brlCore_brlCycles]

/-- The slots that hold the iteration counts of LOOP levels. -/
def loopSlots : List Nat := [53, 54, 55]

theorem notMem_loopSlots {i : Nat} (h : 56 ≤ i) : i ∉ loopSlots := by
  simp only [loopSlots, List.mem_cons, List.not_mem_nil, or_false]
  omega

theorem notMem_loopSlots_of_lt {i : Nat} (h : i < 53) : i ∉ loopSlots := by
  simp only [loopSlots, List.mem_cons, List.not_mem_nil, or_false]
  omega

/-- From `c` to `c'` nothing changed but the loop levels with their counts, and how the sequence goes on. -/
structure BrlCore.Led (c c' : BrlCore) : Prop where
  count : c'.count = c.count
  flight : c'.flight = c.flight
  stack : c'.stack = c.stack
  stores : c'.stores = c.stores
  halt : c'.halt = c.halt
  waiting : c'.waiting = c.waiting
  file : ∀ i, i ∉ loopSlots → c'.file.get 0 i = c.file.get 0 i

namespace BrlCore.Led

variable {c c' c'' : BrlCore}

theorem refl (c : BrlCore) : Led c c := ⟨rfl, rfl, rfl, rfl, rfl, rfl, fun _ _ => rfl⟩

theorem trans (h : Led c c') (h' : Led c' c'') : Led c c'' :=
  ⟨h'.count.trans h.count, h'.flight.trans h.flight, h'.stack.trans h.stack, h'.stores.trans h.stores, h'.halt.trans h.halt,
    h'.waiting.trans h.waiting, fun i hi => (h'.file i hi).trans (h.file i hi)⟩

theorem due (h : Led c c') {i d : Nat} {v : DWord} (hi : i ∉ loopSlots) (hd : Due c i d v) : Due c' i d v :=
  hd.congr (h.file i hi) (by rw [pend, pend, h.flight])

end BrlCore.Led

theorem led_setBrl (s : State) (k : Nat) (f : BrlCore → BrlCore)
    (h : BrlCore.Led (brlCore s k) (f (brlCore s k)) := by exact ⟨rfl, rfl, rfl, rfl, rfl, rfl, fun _ _ => rfl⟩) :
    BrlCore.Led (brlCore s k) (brlCore (setBrl s k f) k) := by rwa [brlCore_setBrl_same]

theorem led_setBrlIf (s : State) (k : Nat) (p : Prop) [Decidable p] (f : BrlCore → BrlCore)
    (h : BrlCore.Led (brlCore s k) (f (brlCore s k)) := by exact ⟨rfl, rfl, rfl, rfl, rfl, rfl, fun _ _ => rfl⟩) :
    BrlCore.Led (brlCore s k) (brlCore (if p then setBrl s k f else s) k) := by
  split
  · exact led_setBrl s k f h
  · exact .refl _

theorem led_brlSeq (s : State) (k : Nat) : BrlCore.Led (brlCore s k) (brlCore (brlSeq s k) k) := by
  unfold brlSeq
  dsimp only
  split
  · split
    · have count (v : DWord) : ∀ i, i ∉ loopSlots →
          ((brlCore s k).file.put (53 + ((brlCore s k).levels.length - 1) % 3) v).get 0 i = (brlCore s k).file.get 0 i :=
        fun i hi => SMap.get_put_ne _ _ _ fun e => hi (by
          have := Nat.mod_lt ((brlCore s k).levels.length - 1) (show 3 > 0 by decide)
          simp only [loopSlots, List.mem_cons, List.not_mem_nil, or_false]
          omega)
      split
      · rw [brlCore_setBrlPc]
        exact led_setBrl s k _ (by exact ⟨rfl, rfl, rfl, rfl, rfl, rfl, count _⟩)
      · rw [brlCore_setBrlPc]
        exact led_setBrl s k _ (by exact ⟨rfl, rfl, rfl, rfl, rfl, rfl, count _⟩)
    · rw [brlCore_setBrlPc]
      split
      · exact .refl _
      · exact led_setBrl s k _
  · exact .refl _

theorem led_brlJump (s : State) (k target : Nat) : BrlCore.Led (brlCore s k) (brlCore (brlJump s k target) k) := by
  rw [brlJump, brlCore_setBrlPc]
  exact led_setBrl s k _

theorem led_brlFollow (s : State) (k : Nat) : BrlCore.Led (brlCore (brlCounted s k) k) (brlCore (brlFollow s k) k) := by
  unfold brlFollow
  dsimp only
  split
  · exact led_setBrl _ k _
  · have iter := led_setBrlIf (brlCounted s k) k ((brlCore s k).iter = 1) (fun c => { c with iter := 0 })
    have slot := iter.trans (led_setBrlIf _ k (0 < (brlCore s k).slots) (fun c => { c with slots := c.slots - 1 }))
    split
    · exact slot.trans (led_brlJump _ k _)
    · exact slot.trans (led_brlSeq _ k)

theorem led_brlLead (s : State) (k : Nat) (ctl : BrlCtl) :
    BrlCore.Led (brlCore (brlCounted s k) k) (brlCore (brlLead s k ctl) k) := by
  cases ctl with
  | seq => exact led_brlFollow s k
  | branch target =>
    rw [brlLead, brlBranch, brlCore_setBrlPc]
    exact led_setBrl _ k _
  | iter n =>
    rw [brlLead, brlIterate, brlCore_setBrlPc]
    exact led_setBrl _ k _

namespace Local

variable {regs : List Nat} {k : Nat} {s t : State}

theorem brlCounted (h : Local regs k s t) (hr : leadRegs k ⊆ regs) : Local regs k s (brlCounted t k) :=
  ((h.brlCycles hr 1).setBrl _).setBrl _

theorem brlLead (h : Local regs k s t) (hr : leadRegs k ⊆ regs) (ctl : BrlCtl) : Local regs k s (brlLead t k ctl) := by
  have hp : R.BRL_PC k ∈ regs := hr (by simp [leadRegs])
  have counted := h.brlCounted hr
  cases ctl with
  | branch target => exact (counted.setBrl _).setBrlPc hp _
  | iter n => exact (counted.setBrl _).setBrlPc hp _
  | seq =>
    refine ite (counted.setBrl _) ?_
    split
    · exact ((counted.setBrlIf _ _).setBrlIf _ _).brlJump hp _
    · exact ((counted.setBrlIf _ _).setBrlIf _ _).brlSeq hp

theorem brlBoundary (h : Local regs k s t) (hs : R.BRL_STATUS k ∈ regs) : Local regs k s (brlBoundary t k) :=
  (h.brlWaitCheck hs).brlSettle hs

theorem brlAdvance (h : Local regs k s t) (hr : seqRegs k ⊆ regs) (ctl : BrlCtl) : Local regs k s (brlAdvance t k ctl) := by
  rw [brlAdvance_eq]
  exact (h.brlLead (List.Subset.trans (leadRegs_subset k) hr) ctl).brlBoundary (hr (by simp [seqRegs]))

end Local

/-! ## Rest at the boundary -/

theorem brlCore_brlWake (s : State) (k : Nat) : ∃ w, brlCore (brlWake s k) k = { brlCore s k with waiting := w } := by
  unfold brlWake
  dsimp only
  split
  · exact ⟨false, SMap.get_put_same ..⟩
  · exact ⟨_, rfl⟩

theorem rested_brlSettle (s : State) (k : Nat) : (brlCore s k).Rested (brlCore (brlSettle s k) k) := by
  unfold brlSettle
  dsimp only
  split
  · exact ⟨_, false, .inr (by rw [brlCore_setBrl_same]; rfl)⟩
  · exact .refl _

theorem rested_brlWaitCheck (s : State) (k : Nat) : (brlCore s k).Rested (brlCore (brlWaitCheck s k) k) := by
  unfold brlWaitCheck
  split
  · obtain ⟨w, h⟩ := brlCore_brlWake (setBrl (setF s (F.BRL_STATUS_STATE k) 3) k BrlCore.drained) k
    exact ⟨w, _, .inr (by rw [h, brlCore_setBrl_same, brlCore_setF])⟩
  · exact .refl _

theorem rested_brlBoundary (s : State) (k : Nat) : (brlCore s k).Rested (brlCore (brlBoundary s k) k) :=
  (rested_brlWaitCheck s k).trans (rested_brlSettle _ k)

theorem brlPc_brlBoundary (s : State) (k : Nat) : brlPc (brlBoundary s k) k = brlPc s k := by
  refine ((Local.refl s).brlBoundary (regs := [R.BRL_STATUS k]) (by simp)).getF ?_
  simp [R.BRL_STATUS, R.BRL_PC]

theorem brlPc_brlCycles (s : State) (k n : Nat) : brlPc (brlCycles s k n) k = brlPc s k := by
  refine getF_of_word ?_
  have hlo : R.BRL_PC k ≠ R.BRL_CYCLES_LO k := by simp [R.BRL_PC, R.BRL_CYCLES_LO]
  have hhi : R.BRL_PC k ≠ R.BRL_CYCLES_LO k + 4 := by simp only [R.BRL_PC, R.BRL_CYCLES_LO]; omega
  exact (rd_setPair s _ _ _).trans (by rw [if_neg hhi, if_neg hlo])

theorem brlPc_brlCounted (s : State) (k : Nat) : brlPc (brlCounted s k) k = brlPc s k := brlPc_brlCycles s k 1

/-! ## What is due after an instruction -/

/-- What an instruction has left under way is due as before once the core has gone on. -/
theorem due_brlAdvance {s : State} {k i d : Nat} {v : DWord} (ctl : BrlCtl) (h : (brlCore s k).Due i d v)
    (hi : i ∉ loopSlots) (hlo : (brlCore s k).count < d) (hhi : d ≤ (brlCore s k).count + 4) :
    (brlCore (brlAdvance s k ctl) k).Due i d v := by
  have counted : (brlCore (brlCounted s k) k).Due i d v := by
    rw [brlCore_brlCounted]
    exact BrlCore.Due.landed ⟨h.due, h.word⟩
  have led := led_brlLead s k ctl
  have count : (brlCore (brlLead s k ctl) k).count = (brlCore s k).count + 1 := by rw [led.count, brlCore_brlCounted]; rfl
  rw [brlAdvance_eq]
  exact (led.due hi counted).rested (rested_brlBoundary _ k) (by omega) (by omega)

theorem count_brlAdvance (s : State) (k : Nat) (ctl : BrlCtl) :
    (brlCore (brlAdvance s k ctl) k).count = (brlCore s k).count + 1 := by
  rw [brlAdvance_eq, (rested_brlBoundary _ k).count, (led_brlLead s k ctl).count, brlCore_brlCounted]
  rfl

/-- What is due `e` instructions after the one in work is seen from then on. -/
theorem seenAfter_brlAdvance {s : State} {k i e : Nat} {v : DWord} (ctl : BrlCtl)
    (h : (brlCore s k).Due i ((brlCore s k).count + e) v) (hi : i ∉ loopSlots) (he : 1 ≤ e ∧ e ≤ 3) {n : Nat}
    (hn : e ≤ n + 1) : seenAfter (brlAdvance s k ctl) k n i = v.toNat :=
  (due_brlAdvance ctl h hi (by omega) (by omega)).seen (by rw [count_brlAdvance]; omega)

theorem brlPc_brlBranch (s : State) (k : Nat) (target : Option Nat) :
    brlPc (brlBranch s k target) k = (brlPc s k + 1) % 32768 := by
  rw [brlBranch, brlPc_setBrlPc, brlPc_brlCounted]

theorem brlPc_brlIterate (s : State) (k n : Nat) : brlPc (brlIterate s k n) k = (brlPc s k + 1) % 32768 := by
  rw [brlIterate, brlPc_setBrlPc, brlPc_brlCounted]

/-- Straight on: no LOOP ends, no branch is due and no ITER repeats. -/
theorem brlFollow_straight {s : State} {k : Nat} (hslots : (brlCore s k).slots = 0) (hiter : (brlCore s k).iter = 0) :
    brlFollow s k = brlSeq (brlCounted s k) k := by
  simp [brlFollow, hslots, hiter]

theorem brlSeq_noLevels {s : State} {k : Nat} (h : (brlCore s k).levels = []) :
    brlSeq s k = setBrlPc s k (brlPc s k + 1) := by
  simp [brlSeq, BrlCore.inner, h]

theorem brlPc_brlFollow {s : State} {k : Nat} (hlevels : (brlCore s k).levels = []) (hslots : (brlCore s k).slots = 0)
    (hiter : (brlCore s k).iter = 0) : brlPc (brlFollow s k) k = (brlPc s k + 1) % 32768 := by
  have levels : (brlCore (brlCounted s k) k).levels = [] := by rw [brlCore_brlCounted]; exact hlevels
  rw [brlFollow_straight hslots hiter, brlSeq_noLevels levels, brlPc_setBrlPc, brlPc_brlCounted]

/-! ## An instruction in straight sequence -/

/-- From `s` to `u` an instruction of core `k` has acted: memory, the other cores and the PC stand, and so do the registers
but those of `regs` and those that going on changes; of the slots only those of `dst` have new writes. -/
structure Acted (regs dst : List Nat) (k : Nat) (s u : State) : Prop where
  beside : Local (seqRegs k ++ regs) k s u
  pc : brlPc u k = brlPc s k
  core : (brlCore s k).Writes dst (brlCore u k)

theorem Acted.coreFrame {regs dst : List Nat} {k : Nat} {s u : State} (h : Acted regs dst k s u) :
    CoreFrame s (brlAdvance u k .seq) k regs dst := by
  have beside := h.beside.brlAdvance (List.subset_append_left _ _) .seq
  refine ⟨beside.memorySame, beside.word, beside.others, fun x _ hx hloop hland => ?_, fun hlevels hslots hiter => ?_⟩
  · have none : (brlCore s k).pend x = [] :=
      List.filter_eq_nil_iff.2 fun f hf => by simpa using hland f hf
    have due : (brlCore u k).Due x ((brlCore u k).count + 3) ((brlCore s k).file.get 0 x) :=
      (BrlCore.Due.of_landed none _).congr (by rw [h.core.file]) (h.core.pend x hx)
    exact seenAfter_brlAdvance .seq due hloop (by decide) (by decide)
  · rw [brlAdvance_eq, brlPc_brlBoundary]
    refine (brlPc_brlFollow ?_ ?_ ?_).trans (by rw [h.pc])
    · rw [h.core.levels, hlevels]
    · rw [h.core.slots, hslots]
    · rw [h.core.iter, hiter]

theorem pend_nil_of_landed {s : State} {k i : Nat} (h : Landed s k i) : (brlCore s k).pend i = [] :=
  List.filter_eq_nil_iff.2 fun f hf => by simpa using h f hf

/-- An instruction that only writes slots of its own core. -/
theorem Acted.of_setBrl {dst : List Nat} {k : Nat} {s : State} {f : BrlCore → BrlCore}
    (h : (brlCore s k).Writes dst (f (brlCore s k))) : Acted [] dst k s (setBrl s k f) :=
  ⟨(Local.refl s).setBrl f, rfl, by rwa [brlCore_setBrl_same]⟩

/-! ## Issue -/

theorem brlIssue_runs {s : State} {k : Nat} {op : BrlOp} (h : CoreRuns s k op) : brlIssue s k op =
    brlAdvance (brlEffect (ldcStall s k op) k op false).1 k (brlEffect (ldcStall s k op) k op false).2 := by
  obtain ⟨hissues, hcause, hstalls⟩ := h
  simp [brlIssue, brlExecute, hissues, hcause, hstalls]

/-- A command that has core `k` issue `op` completes with what `op` does and where it leads. -/
theorem completes_brl {c : Instr} {s u : State} {k : Nat} {op : BrlOp} {ctl : BrlCtl} {post : State → Prop}
    (hc : exec c s = run (fun s => brlIssue s k op) s) (hup : Up s) (hruns : CoreRuns s k op)
    (heffect : brlEffect (ldcStall s k op) k op false = (u, ctl)) (hp : post (brlAdvance u k ctl)) : Completes c s post := by
  refine completes_run hc hup ?_
  rw [brlIssue_runs hruns, heffect]
  exact hp

end Sys2Proof.Machine
end

section
/-! The numbers of a Beryl core: signed words, halves of complex words, saturation and flags (R274, R278 to R281). -/
namespace Sys2Proof.Machine

/-! ## Signed numbers -/

/-- Only the low `w` bits count. -/
theorem toSigned_congr {w m n : Nat} (h : m % 2 ^ w = n % 2 ^ w) : toSigned w m = toSigned w n := by
  exact congrArg BitVec.toInt (BitVec.eq_of_toNat_eq (by rw [BitVec.toNat_ofNat, BitVec.toNat_ofNat, h]))

theorem toSigned_ofSigned {w : Nat} {i : Int} (hlo : -2 ^ (w - 1) ≤ i) (hhi : i < 2 ^ (w - 1)) (hw : 0 < w) :
    toSigned w (ofSigned w i) = i := by
  rw [toSigned, ofSigned, BitVec.ofNat_toNat, BitVec.setWidth_eq, BitVec.toInt_ofInt_eq_self hw hlo hhi]

theorem ofSigned_lt (w : Nat) (i : Int) : ofSigned w i < 2 ^ w := (BitVec.ofInt w i).isLt

/-- A signed number of `w` bits is limited by `2 ^ (w - 1)`. -/
theorem toSigned_bounds (w n : Nat) : -2 ^ (w - 1) ≤ toSigned w n ∧ toSigned w n < 2 ^ (w - 1) :=
  ⟨BitVec.le_toInt _, BitVec.toInt_lt⟩

theorem toSigned_toNat {w : Nat} (b : BitVec w) : toSigned w b.toNat = b.toInt := by
  rw [toSigned, BitVec.ofNat_toNat, BitVec.setWidth_eq]

/-- A word that holds a signed number reads as it. -/
theorem toSigned_of_mod {w n : Nat} {i : Int} (h : n % 2 ^ w = ofSigned w i % 2 ^ w) (hlo : -2 ^ (w - 1) ≤ i)
    (hhi : i < 2 ^ (w - 1)) (hw : 0 < w) : toSigned w n = i := (toSigned_congr h).trans (toSigned_ofSigned hlo hhi hw)

/-- Wrapping a sum of a word and a signed number. -/
theorem add_ofSigned_mod (w a : Nat) (i : Int) : (a + ofSigned w i) % 2 ^ w = ofSigned w (a + i) := by
  have h : BitVec.ofNat w (a + ofSigned w i) = BitVec.ofInt w (a + i) := by
    rw [BitVec.ofInt_add, BitVec.ofInt_natCast, ← BitVec.ofNat_add_ofNat, ofSigned, BitVec.ofNat_toNat, BitVec.setWidth_eq]
  exact congrArg BitVec.toNat h

/-! ## Saturation -/

theorem satTo_fst (m v : Int) : (satTo m v).1 = max (-m) (min m v) := rfl

theorem satTo_snd (m v : Int) : (satTo m v).2 = true ↔ v < -m ∨ m < v := by simp [satTo]

theorem satTo_bounds {m : Int} (hm : 0 ≤ m) (v : Int) : -m ≤ (satTo m v).1 ∧ (satTo m v).1 ≤ m := by
  rw [satTo_fst]
  omega

/-! ## Complex words -/

/-- The word whose halves are `re` and `im`. -/
def complexWord (re im : Int) : Nat := ofSigned 16 re * 2 ^ 16 + ofSigned 16 im

theorem hiOf_bounds (a : Nat) : -32768 ≤ hiOf a ∧ hiOf a ≤ 32767 := by
  obtain ⟨hlo, hhi⟩ := toSigned_bounds 16 (a / 2 ^ 16)
  simp only [hiOf]
  omega

theorem loOf_bounds (a : Nat) : -32768 ≤ loOf a ∧ loOf a ≤ 32767 := by
  obtain ⟨hlo, hhi⟩ := toSigned_bounds 16 (a % 2 ^ 16)
  simp only [loOf]
  omega

theorem hiOf_complexWord {n : Nat} {re im : Int} (h : n % 2 ^ 32 = complexWord re im % 2 ^ 32) (hlo : -32768 ≤ re)
    (hhi : re ≤ 32767) : hiOf n = re := by
  have him := ofSigned_lt 16 im
  have hre := ofSigned_lt 16 re
  refine toSigned_of_mod ?_ (by omega) (by omega) (by decide)
  simp only [complexWord] at h
  omega

theorem loOf_complexWord {n : Nat} {re im : Int} (h : n % 2 ^ 32 = complexWord re im % 2 ^ 32) (hlo : -32768 ≤ im)
    (hhi : im ≤ 32767) : loOf n = im := by
  have him := ofSigned_lt 16 im
  refine toSigned_of_mod ?_ (by omega) (by omega) (by decide)
  simp only [complexWord] at h
  omega

/-- A product of two halves needs 31 bits. -/
theorem halves_mul_bounds {x y : Int} (hx : -32768 ≤ x ∧ x ≤ 32767) (hy : -32768 ≤ y ∧ y ≤ 32767) :
    -2 ^ 30 ≤ x * y ∧ x * y ≤ 2 ^ 30 := by
  constructor <;> nlinarith [hx.1, hx.2, hy.1, hy.2]

/-! ## Bits and flags -/

theorem bitOf_eq_testBit (n i : Nat) : bitOf n i = n.testBit i := by
  rw [Nat.testBit_eq_decide_div_mod_eq]
  rfl

theorem bitOf_congr {m n w i : Nat} (h : m % 2 ^ w = n % 2 ^ w) (hi : i < w) : bitOf m i = bitOf n i := by
  have bit (x : Nat) : bitOf (x % 2 ^ w) i = bitOf x i := by simp [bitOf_eq_testBit, Nat.testBit_mod_two_pow, hi]
  rw [← bit m, h, bit]

/-- The flags of a result, N, Z, C and V from bit 3 down. -/
theorem nzcv_bits (r : Nat) (c v : Bool) : nzcv r c v < 16 ∧ bitOf (nzcv r c v) 3 = bitOf r 31 ∧
    bitOf (nzcv r c v) 2 = (r == 0) ∧ bitOf (nzcv r c v) 1 = c ∧ bitOf (nzcv r c v) 0 = v := by
  unfold nzcv
  cases bitOf r 31 <;> cases (r == 0) <;> cases c <;> cases v <;> decide

end Sys2Proof.Machine
end

section
/-! The integer, logic and complex operations of a Beryl core (R281, R282, R295). -/
namespace Sys2Proof.Machine

/-! ## The writes of an operation -/

/-- The write of the destination `d` of an operation with outcome `o`. -/
def aluResult (o : AluOut) (d : Nat) (c : BrlCore) : BrlCore :=
  match o.val with
  | some v => c.putD (if o.late then 2 else 1) d v
  | none => c

/-- The writes of an operation with outcome `o` and destination `d`. -/
def aluWrites (o : AluOut) (d : Nat) (c : BrlCore) : BrlCore :=
  let c := aluResult o d c
  let c := match o.flags with
    | some f => c.putFlags f
    | none => c
  c.stick 5 o.sv

/-- The outcome of `op` in core `k`, on registers `a` and `b` and shift field `n`. -/
def aluOutcome (s : State) (k : Nat) (op : BrlAlu) (a b n : Nat) : AluOut :=
  aluOp op ((brlCore s k).slot a) ((brlCore s k).slot b) n (bitOf (brlCore s k).sr 1) (freeNext s).toNat

theorem brlEffect_alu (s : State) (k : Nat) (op : BrlAlu) (d a b n : Nat) :
    brlEffect (ldcStall s k (.alu op d a b n)) k (.alu op d a b n) false =
      (if aluFree op then freeTaken (setBrl s k (aluWrites (aluOutcome s k op a b n) d))
        else setBrl s k (aluWrites (aluOutcome s k op a b n) d), .seq) := rfl

/-- An operation writes its destination if it has a result, SR and the branch's flags if it sets flags, and SR if it
saturated. -/
structure AluTargets (o : AluOut) (d : Nat) (dst : List Nat) : Prop where
  val : o.val ≠ none → d ∈ dst
  flags : o.flags ≠ none → 52 ∈ dst ∧ 72 ∈ dst
  sv : o.sv = true → 52 ∈ dst

theorem writes_aluWrites {o : AluOut} {d : Nat} {dst : List Nat} (h : AluTargets o d dst) (c : BrlCore) :
    c.Writes dst (aluWrites o d c) := by
  obtain ⟨val, late, flags, sv⟩ := o
  have result : c.Writes dst (aluResult ⟨val, late, flags, sv⟩ d c) := by
    cases val with
    | none => exact .refl dst c
    | some v => exact (BrlCore.Writes.refl dst c).put (h.val nofun) _ _ _
  refine BrlCore.Writes.stick ?_ h.sv 5
  cases flags with
  | none => exact result
  | some f => exact result.putFlags (h.flags nofun).1 (h.flags nofun).2 f

section due
variable {o : AluOut} {d : Nat} {c : BrlCore}

theorem due_aluWrites_val {v : Nat} (h : o.val = some v) (hd : d < 16) (hland : c.pend d = []) :
    (aluWrites o d c).Due d (c.count + if o.late then 2 else 1) (merged (c.file.get 0 d) (2 ^ 32 - 1) v) := by
  obtain ⟨val, late, flags, sv⟩ := o
  cases h
  have written := BrlCore.Due.of_put hland (if late then 2 else 1) (2 ^ 32 - 1) v
  refine BrlCore.Due.stick_ne ?_ (by omega) 5 sv
  cases flags with
  | none => exact written
  | some f => exact (written.put_ne (by omega)).put_ne (by omega)

/-- What is due of SR and of the branch's flags beside an operation's result. -/
theorem due_aluWrites_beside (hd : d < 16) {i e : Nat} (hi : 16 ≤ i) (hland : c.pend i = []) :
    (aluResult o d c).Due i (c.count + e) (c.file.get 0 i) := by
  unfold aluResult
  split
  · exact (BrlCore.Due.of_landed hland _).put_ne (by omega)
  · exact BrlCore.Due.of_landed hland _

theorem count_aluWrites (o : AluOut) (d : Nat) (c : BrlCore) : (aluWrites o d c).count = c.count := by
  obtain ⟨val, late, flags, sv⟩ := o
  cases val <;> cases flags <;> exact BrlCore.count_stick ..

theorem due_aluWrites_flags {f : Nat} (h : o.flags = some f) (hsv : o.sv = false) (hd : d < 16) (h52 : c.pend 52 = [])
    (h72 : c.pend 72 = []) : (aluWrites o d c).Due 52 (c.count + 1) (merged (c.file.get 0 52) 15 f) ∧
      (aluWrites o d c).Due 72 (c.count + 2) (merged (c.file.get 0 72) 15 f) := by
  have sr := due_aluWrites_beside (o := o) hd (e := 1) (by decide) h52
  have branch := due_aluWrites_beside (o := o) hd (e := 2) (by decide) h72
  obtain ⟨val, late, flags, sv⟩ := o
  cases h
  cases hsv
  cases val with
  | none => exact ⟨(sr.put 15 f).put_ne (by decide), (branch.put_ne (by decide)).put 15 f⟩
  | some v => exact ⟨(BrlCore.Due.put sr 15 f).put_ne (by decide), BrlCore.Due.put (branch.put_ne (by decide)) 15 f⟩

theorem due_aluWrites_sv (h : o.sv = true) (hf : o.flags = none) (hd : d < 16) (h52 : c.pend 52 = []) :
    ∃ v, (aluWrites o d c).Due 52 (c.count + 1) v ∧ v.getLsbD 5 = true := by
  have sr := due_aluWrites_beside (o := o) hd (e := 1) (by decide) h52
  obtain ⟨val, late, flags, sv⟩ := o
  cases hf
  cases val with
  | none =>
    obtain ⟨v, hv, -, hset⟩ := sr.stick (bit := 5) (by decide) sv
    exact ⟨v, hv, hset (.inl h)⟩
  | some r =>
    obtain ⟨v, hv, -, hset⟩ := BrlCore.Due.stick sr (bit := 5) (by decide) sv
    exact ⟨v, hv, hset (.inl h)⟩

end due

/-! ## What is seen of an operation -/

/-- The core shows the outcome `o` of an operation: its result in `d`, its flags in SR and to a branch, and SV where it
saturated. -/
structure AluSeen (t : State) (k d : Nat) (o : AluOut) : Prop where
  val : ∀ v, o.val = some v → seenAfter t k (if o.late then 1 else 0) d % 2 ^ 32 = v % 2 ^ 32
  flags : ∀ f, o.flags = some f → o.sv = false → seenAfter t k 0 52 % 16 = f % 16 ∧ seenAfter t k 1 72 % 16 = f % 16
  sv : o.sv = true → o.flags = none → bitOf (seenAfter t k 0 52) 5 = true

theorem Acted.freeTaken {regs dst : List Nat} {k : Nat} {s u : State} (h : Acted regs dst k s u) :
    Acted regs dst k s (freeTaken u) := ⟨h.beside.freeTaken, h.pc, h.core⟩

/-- An instruction that makes the writes of an outcome completes with it shown, and nothing else changed but its targets. -/
theorem completes_outcome {c : Instr} {s u : State} {k d : Nat} {op : BrlOp} {o : AluOut} {dst : List Nat}
    {post : State → Prop}
    (hc : exec c s = run (fun s => brlIssue s k op) s) (hup : Up s) (hruns : CoreRuns s k op)
    (heffect : brlEffect (ldcStall s k op) k op false = (u, .seq))
    (hu : u = setBrl s k (aluWrites o d) ∨ u = freeTaken (setBrl s k (aluWrites o d))) (hd : d < 16)
    (hland : o.val ≠ none → Landed s k d) (h52 : o.flags ≠ none ∨ o.sv = true → Landed s k 52)
    (h72 : o.flags ≠ none → Landed s k 72) (hdst : AluTargets o d dst)
    (hp : ∀ t, AluSeen t k d o → CoreFrame s t k [] dst → post t) : Completes c s post := by
  refine completes_brl hc hup hruns heffect ?_
  have acted : Acted [] dst k s u := by
    have wrote : Acted [] dst k s (setBrl s k (aluWrites o d)) := .of_setBrl (writes_aluWrites hdst _)
    rcases hu with rfl | rfl
    · exact wrote
    · exact wrote.freeTaken
  have core : brlCore u k = aluWrites o d (brlCore s k) := by rcases hu with rfl | rfl <;> exact brlCore_setBrl_same ..
  have count : (brlCore u k).count = (brlCore s k).count := by rw [core, count_aluWrites]
  refine hp _ ⟨fun v hv => ?_, fun f hf hsv => ?_, fun hsv hf => ?_⟩ acted.coreFrame
  · have due := due_aluWrites_val hv hd (pend_nil_of_landed (hland (by rw [hv]; nofun)))
    rw [← core, ← count] at due
    have slot : d ∉ loopSlots := notMem_loopSlots_of_lt (by omega)
    rw [seenAfter_brlAdvance .seq due slot (by split <;> decide) (by split <;> decide)]
    exact merged_mod _ (by decide) v
  · have flags : o.flags ≠ none := by rw [hf]; nofun
    obtain ⟨sr, branch⟩ := due_aluWrites_flags hf hsv hd (pend_nil_of_landed (h52 (.inl flags)))
      (pend_nil_of_landed (h72 flags))
    rw [← core, ← count] at sr branch
    rw [seenAfter_brlAdvance .seq sr (by decide) (by decide) (by decide),
      seenAfter_brlAdvance .seq branch (by decide) (by decide) (by decide)]
    exact ⟨merged_mod _ (n := 4) (by decide) f, merged_mod _ (n := 4) (by decide) f⟩
  · obtain ⟨v, sr, hv⟩ := due_aluWrites_sv hsv hf hd (pend_nil_of_landed (h52 (.inr hsv)))
    rw [← core, ← count] at sr
    rw [seenAfter_brlAdvance .seq sr (by decide) (by decide) (by decide), bitOf_toNat, hv]

section completes
variable {c : Instr} {s : State} {k : Nat} {op : BrlAlu} {d a b n : Nat} {post : State → Prop}
  (hc : exec c s = run (fun s => brlIssue s k (.alu op d a b n)) s) (hup : Up s) (hd : d < 16) (h52 : Landed s k 52)
  (h72 : Landed s k 72) (hruns : CoreRuns s k (.alu op d a b n))
include hc hup hd h52 h72 hruns

/-- An operation completes with its outcome shown, and nothing else changed but its targets. -/
theorem completes_alu {o : AluOut} {dst : List Nat} (ho : aluOutcome s k op a b n = o) (hland : o.val ≠ none → Landed s k d)
    (hdst : AluTargets o d dst) (hp : ∀ t, AluSeen t k d o → CoreFrame s t k [] dst → post t) : Completes c s post := by
  refine completes_outcome hc hup hruns (brlEffect_alu s k op d a b n) ?_ hd hland (fun _ => h52) (fun _ => h72) hdst hp
  rw [ho]
  split
  · exact .inr rfl
  · exact .inl rfl

/-- A result with flags. -/
theorem completes_aluFlags {r f : Nat} (ho : aluOutcome s k op a b n = ⟨some r, false, some f, false⟩) (hland : Landed s k d)
    (hf : f < 16) (hp : ∀ t, seenAfter t k 0 d % 2 ^ 32 = r % 2 ^ 32 → seenAfter t k 0 52 % 16 = f →
      seenAfter t k 1 72 % 16 = f → CoreFrame s t k [] [d, 52, 72] → post t) : Completes c s post := by
  refine completes_alu (dst := [d, 52, 72]) hc hup hd h52 h72 hruns ho (fun _ => hland)
    ⟨fun _ => by simp, fun _ => by simp, nofun⟩ fun t seen frame => ?_
  obtain ⟨sr, branch⟩ := seen.flags f rfl rfl
  rw [Nat.mod_eq_of_lt hf] at sr branch
  exact hp t (seen.val r rfl) sr branch frame

/-- A comparison: flags without a result. -/
theorem completes_aluCompare {f : Nat} (ho : aluOutcome s k op a b n = ⟨none, false, some f, false⟩) (hf : f < 16)
    (hp : ∀ t, seenAfter t k 0 52 % 16 = f → seenAfter t k 1 72 % 16 = f → CoreFrame s t k [] [52, 72] → post t) :
    Completes c s post := by
  refine completes_alu (dst := [52, 72]) hc hup hd h52 h72 hruns ho (fun h => absurd rfl h)
    ⟨fun h => absurd rfl h, fun _ => by simp, nofun⟩ fun t seen frame => ?_
  obtain ⟨sr, branch⟩ := seen.flags f rfl rfl
  rw [Nat.mod_eq_of_lt hf] at sr branch
  exact hp t sr branch frame

/-- A result saturated at 32 bits. -/
theorem completes_aluSat {v : Int} (ho : aluOutcome s k op a b n = aluSat v) (hland : Landed s k d)
    (hp : ∀ t, toSigned 32 (seenAfter t k 0 d) = (satTo (2 ^ 31 - 1) v).1 → CoreFrame s t k [] [d, 52] →
      ((satTo (2 ^ 31 - 1) v).2 = true → bitOf (seenAfter t k 0 52) 5 = true) → post t) : Completes c s post := by
  refine completes_alu (dst := [d, 52]) hc hup hd h52 h72 hruns ho (fun _ => hland)
    ⟨fun _ => by simp, fun h => absurd rfl h, fun _ => by simp⟩ fun t seen frame => ?_
  obtain ⟨lower, upper⟩ := satTo_bounds (m := 2 ^ 31 - 1) (by decide) v
  exact hp t (toSigned_of_mod (seen.val _ rfl) (by omega) (by omega) (by decide)) frame fun h => seen.sv h rfl

/-- A complex word, each half saturated. -/
theorem completes_aluComplex {late : Bool} {re im : Int} (ho : aluOutcome s k op a b n = aluComplex late re im)
    (hland : Landed s k d)
    (hp : ∀ t, hiOf (seenAfter t k (if late then 1 else 0) d) = (satTo 32767 re).1 →
      loOf (seenAfter t k (if late then 1 else 0) d) = (satTo 32767 im).1 → CoreFrame s t k [] [d, 52] → post t) :
    Completes c s post := by
  refine completes_alu (dst := [d, 52]) hc hup hd h52 h72 hruns ho (fun _ => hland)
    ⟨fun _ => by simp, fun h => absurd rfl h, fun _ => by simp⟩ fun t seen frame => ?_
  have real := satTo_bounds (m := 32767) (by decide) re
  have imag := satTo_bounds (m := 32767) (by decide) im
  have word := seen.val (complexWord (satTo 32767 re).1 (satTo 32767 im).1) rfl
  exact hp t (hiOf_complexWord word (by omega) (by omega)) (loOf_complexWord word (by omega) (by omega)) frame

/-- A plain result. -/
theorem completes_aluPlain {late : Bool} {r : Nat} (ho : aluOutcome s k op a b n = aluPlain late r) (hland : Landed s k d)
    (hp : ∀ t, seenAfter t k (if late then 1 else 0) d % 2 ^ 32 = r % 2 ^ 32 → CoreFrame s t k [] [d] → post t) :
    Completes c s post :=
  completes_alu (dst := [d]) hc hup hd h52 h72 hruns ho (fun _ => hland)
    ⟨fun _ => by simp, fun h => absurd rfl h, nofun⟩ fun t seen frame => hp t (seen.val r rfl) frame

end completes

/-! ## The outcomes -/

theorem aluAdd_carryIn (a b : Nat) (cin : Nat) : aluAdd a b cin = ⟨some ((a + b + cin) % 2 ^ 32), false,
    some (nzcv ((a + b + cin) % 2 ^ 32) (2 ^ 32 ≤ a + b + cin)
      (toSigned 32 a + toSigned 32 b + cin != toSigned 32 ((a + b + cin) % 2 ^ 32))), false⟩ := rfl

theorem aluAdd_noCarry (a b : Nat) : aluAdd a b 0 = ⟨some ((a + b) % 2 ^ 32), false,
    some (nzcv ((a + b) % 2 ^ 32) (2 ^ 32 ≤ a + b)
      (toSigned 32 a + toSigned 32 b != toSigned 32 ((a + b) % 2 ^ 32))), false⟩ := by
  simp [aluAdd_carryIn]

theorem aluSub_noBorrow (a b : Nat) : aluSub a b 0 = ⟨some ((a + 2 ^ 33 - b) % 2 ^ 32), false,
    some (nzcv ((a + 2 ^ 33 - b) % 2 ^ 32) (b ≤ a)
      (toSigned 32 a - toSigned 32 b != toSigned 32 ((a + 2 ^ 33 - b) % 2 ^ 32))), false⟩ := by
  have h : a + 2 ^ 32 + 2 ^ 32 - b - 0 = a + 2 ^ 33 - b := by omega
  simp only [aluSub, h]
  simp

theorem aluSub_borrow (a b : Nat) :
    ∃ f < 16, aluSub a b 1 = ⟨some ((a + 2 ^ 33 - b - 1) % 2 ^ 32), false, some f, false⟩ := by
  have h : a + 2 ^ 32 + 2 ^ 32 - b - 1 = a + 2 ^ 33 - b - 1 := by omega
  rw [aluSub, h]
  exact ⟨_, (nzcv_bits ..).1, rfl⟩

/-- The flags of a logic operation on result `r`: N and Z, and V clear. -/
theorem bits_of_logic {x r : Nat} {cy : Bool} (h : x % 16 = nzcv r cy false) :
    bitOf x 3 = bitOf r 31 ∧ bitOf x 2 = (r == 0) ∧ bitOf x 0 = false := by
  obtain ⟨hlt, hn, hz, -, hv⟩ := nzcv_bits r cy false
  have same : x % 2 ^ 4 = nzcv r cy false % 2 ^ 4 := h.trans (Nat.mod_eq_of_lt hlt).symm
  rw [bitOf_congr same (by decide), bitOf_congr same (by decide), bitOf_congr same (by decide)]
  exact ⟨hn, hz, hv⟩

end Sys2Proof.Machine
end

section
/-! The clauses of the integer, logic, shift and complex operations (R281, R282, R295). -/
namespace Sys2Proof.Machine

section operands
variable {s : State} {k : Fin 4} {rd rs rt : Fin 16} (hup : Up s) (hrd : Landed s k rd) (h52 : Landed s k 52)
  (h72 : Landed s k 72)
include hup hrd h52 h72

/-! ## Sums and differences -/

theorem add_completes {A B : Nat} (hA : A = (brlCore s k).slot rs) (hB : B = (brlCore s k).slot rt)
    (hruns : CoreRuns s k (.alu .add rd rs rt 0)) : Completes (.add k rd rs rt) s fun t =>
      seenAfter t k 0 rd % 2 ^ 32 = (A + B) % 2 ^ 32 ∧ CoreFrame s t k [] [rd, 52, 72] ∧
      seenAfter t k 0 52 % 16 = nzcv ((A + B) % 2 ^ 32) (2 ^ 32 ≤ A + B)
        (toSigned 32 A + toSigned 32 B != toSigned 32 ((A + B) % 2 ^ 32)) ∧
      seenAfter t k 1 72 % 16 = seenAfter t k 0 52 % 16 := by
  subst hA hB
  exact completes_aluFlags rfl hup rd.isLt h52 h72 hruns (aluAdd_noCarry _ _) hrd (nzcv_bits ..).1
    fun t val sr branch frame => ⟨val.trans (Nat.mod_mod _ _), frame, sr, branch.trans sr.symm⟩

theorem addc_completes {A B C : Nat} (hA : A = (brlCore s k).slot rs) (hB : B = (brlCore s k).slot rt)
    (hC : C = ofBool (bitOf (brlCore s k).sr 1)) (hruns : CoreRuns s k (.alu .addc rd rs rt 0)) :
    Completes (.addc k rd rs rt) s fun t =>
      seenAfter t k 0 rd % 2 ^ 32 = (A + B + C) % 2 ^ 32 ∧ CoreFrame s t k [] [rd, 52, 72] ∧
      seenAfter t k 0 52 % 16 = nzcv ((A + B + C) % 2 ^ 32) (2 ^ 32 ≤ A + B + C)
        (toSigned 32 A + toSigned 32 B + C != toSigned 32 ((A + B + C) % 2 ^ 32)) := by
  subst hA hB hC
  exact completes_aluFlags rfl hup rd.isLt h52 h72 hruns (aluAdd_carryIn _ _ _) hrd (nzcv_bits ..).1
    fun t val sr _ frame => ⟨val.trans (Nat.mod_mod _ _), frame, sr⟩

theorem sub_completes {A B : Nat} (hA : A = (brlCore s k).slot rs) (hB : B = (brlCore s k).slot rt)
    (hruns : CoreRuns s k (.alu .sub rd rs rt 0)) : Completes (.sub k rd rs rt) s fun t =>
      seenAfter t k 0 rd % 2 ^ 32 = (A + 2 ^ 33 - B) % 2 ^ 32 ∧ CoreFrame s t k [] [rd, 52, 72] ∧
      seenAfter t k 0 52 % 16 = nzcv ((A + 2 ^ 33 - B) % 2 ^ 32) (B ≤ A)
        (toSigned 32 A - toSigned 32 B != toSigned 32 ((A + 2 ^ 33 - B) % 2 ^ 32)) := by
  subst hA hB
  exact completes_aluFlags rfl hup rd.isLt h52 h72 hruns (aluSub_noBorrow _ _) hrd (nzcv_bits ..).1
    fun t val sr _ frame => ⟨val.trans (Nat.mod_mod _ _), frame, sr⟩

/-- SUBC with the carry set borrows nothing. -/
theorem subc_completes_noBorrow {A B : Nat} (hA : A = (brlCore s k).slot rs) (hB : B = (brlCore s k).slot rt)
    (hC : 1 = ofBool (bitOf (brlCore s k).sr 1)) (hruns : CoreRuns s k (.alu .subc rd rs rt 0)) :
    Completes (.subc k rd rs rt) s fun t =>
      seenAfter t k 0 rd % 2 ^ 32 = (A + 2 ^ 33 - B) % 2 ^ 32 ∧ CoreFrame s t k [] [rd, 52, 72] := by
  subst hA hB
  have carry : bitOf (brlCore s k).sr 1 = true := by cases h : bitOf (brlCore s k).sr 1 <;> simp_all [ofBool]
  have out : aluOutcome s k .subc rs rt 0 = aluSub ((brlCore s k).slot rs) ((brlCore s k).slot rt) 0 := by
    rw [aluOutcome, carry]; rfl
  exact completes_aluFlags rfl hup rd.isLt h52 h72 hruns (out.trans (aluSub_noBorrow _ _)) hrd (nzcv_bits ..).1
    fun t val _ _ frame => ⟨val.trans (Nat.mod_mod _ _), frame⟩

theorem subc_completes_borrow {A B : Nat} (hA : A = (brlCore s k).slot rs) (hB : B = (brlCore s k).slot rt)
    (hC : 0 = ofBool (bitOf (brlCore s k).sr 1)) (hruns : CoreRuns s k (.alu .subc rd rs rt 0)) :
    Completes (.subc k rd rs rt) s fun t =>
      seenAfter t k 0 rd % 2 ^ 32 = (A + 2 ^ 33 - B - 1) % 2 ^ 32 ∧ CoreFrame s t k [] [rd, 52, 72] := by
  subst hA hB
  have carry : bitOf (brlCore s k).sr 1 = false := by cases h : bitOf (brlCore s k).sr 1 <;> simp_all [ofBool]
  have out : aluOutcome s k .subc rs rt 0 = aluSub ((brlCore s k).slot rs) ((brlCore s k).slot rt) 1 := by
    rw [aluOutcome, carry]; rfl
  obtain ⟨f, hf, borrowed⟩ := aluSub_borrow ((brlCore s k).slot rs) ((brlCore s k).slot rt)
  exact completes_aluFlags rfl hup rd.isLt h52 h72 hruns (out.trans borrowed) hrd hf
    fun t val _ _ frame => ⟨val.trans (Nat.mod_mod _ _), frame⟩

omit hrd in
theorem cmp_completes {A B : Nat} (hA : A = (brlCore s k).slot rs) (hB : B = (brlCore s k).slot rt)
    (hruns : CoreRuns s k (.alu .cmp 0 rs rt 0)) : Completes (.cmp k rs rt) s fun t =>
      CoreFrame s t k [] [52, 72] ∧
      seenAfter t k 0 52 % 16 = nzcv ((A + 2 ^ 33 - B) % 2 ^ 32) (B ≤ A)
        (toSigned 32 A - toSigned 32 B != toSigned 32 ((A + 2 ^ 33 - B) % 2 ^ 32)) ∧
      seenAfter t k 1 72 % 16 = seenAfter t k 0 52 % 16 := by
  subst hA hB
  exact completes_aluCompare rfl hup (by decide) h52 h72 hruns
    (congrArg (fun o : AluOut => { o with val := none }) (aluSub_noBorrow _ _)) (nzcv_bits ..).1
    fun t sr branch frame => ⟨frame, sr, branch.trans sr.symm⟩

/-! ## Logic operations and shifts -/

/-- An operation with the flags of a logic operation on its result `r`. -/
theorem logic_completes {c : Instr} {op : BrlAlu} {a b n r fr : Nat} {post : State → Prop}
    (hc : exec c s = run (fun s => brlIssue s k (.alu op rd a b n)) s) (hruns : CoreRuns s k (.alu op rd a b n))
    (ho : aluOutcome s k op a b n = aluLogic fr r)
    (hp : ∀ t, seenAfter t k 0 rd % 2 ^ 32 = r % 2 ^ 32 → CoreFrame s t k [] [rd, 52, 72] →
      bitOf (seenAfter t k 0 52) 3 = bitOf r 31 ∧ bitOf (seenAfter t k 0 52) 2 = (r == 0) ∧
        bitOf (seenAfter t k 0 52) 0 = false → post t) : Completes c s post :=
  completes_aluFlags hc hup rd.isLt h52 h72 hruns ho hrd (nzcv_bits ..).1
    fun t val sr _ frame => hp t val frame (bits_of_logic sr)

/-- A left shift by `m`. -/
theorem leftShift_completes {c : Instr} {op : BrlAlu} {a b n A m fr : Nat}
    (hc : exec c s = run (fun s => brlIssue s k (.alu op rd a b n)) s) (hruns : CoreRuns s k (.alu op rd a b n))
    (ho : aluOutcome s k op a b n = aluLeft fr A m) : Completes c s fun t =>
      seenAfter t k 0 rd % 2 ^ 32 = A * 2 ^ m % 2 ^ 32 ∧ CoreFrame s t k [] [rd, 52, 72] :=
  completes_aluFlags hc hup rd.isLt h52 h72 hruns ho hrd (nzcv_bits ..).1
    fun _ val _ _ frame => ⟨val.trans (Nat.mod_mod _ _), frame⟩

/-- A right shift of the signed number `A` by `m`. -/
theorem arithmeticShift_completes {c : Instr} {op : BrlAlu} {a b n A m fr : Nat}
    (hc : exec c s = run (fun s => brlIssue s k (.alu op rd a b n)) s) (hruns : CoreRuns s k (.alu op rd a b n))
    (ho : aluOutcome s k op a b n = aluLogic fr (ofSigned 32 (toSigned 32 A / 2 ^ m))) : Completes c s fun t =>
      toSigned 32 (seenAfter t k 0 rd) = toSigned 32 A / 2 ^ m ∧ CoreFrame s t k [] [rd, 52, 72] := by
  obtain ⟨hlo, hhi⟩ : -2 ^ 31 ≤ toSigned 32 A ∧ toSigned 32 A < 2 ^ 31 := toSigned_bounds 32 A
  have one : (1 : Int) ≤ 2 ^ m := one_le_pow₀ (by decide)
  have lower : -2 ^ 31 ≤ toSigned 32 A / 2 ^ m := (Int.le_ediv_iff_mul_le (by omega)).2 (by nlinarith)
  have upper : toSigned 32 A / 2 ^ m < 2 ^ 31 := (Int.ediv_lt_iff_lt_mul (by omega)).2 (by nlinarith)
  exact logic_completes hup hrd h52 h72 hc hruns ho
    fun _ val frame _ => ⟨toSigned_of_mod val lower upper (by decide), frame⟩

/-! ## Saturated, complex and plain results -/

/-- ABS and NEG: `v` is the exact result, which saturates at its upper limit only. -/
theorem saturated_completes {c : Instr} {op : BrlAlu} {a b n A : Nat} {v : Int}
    (hc : exec c s = run (fun s => brlIssue s k (.alu op rd a b n)) s) (hruns : CoreRuns s k (.alu op rd a b n))
    (ho : aluOutcome s k op a b n = aluSat v) (hlo : -(2 ^ 31 - 1) ≤ v) (hv : toSigned 32 A = -(2 ^ 31) → v = 2 ^ 31) :
    Completes c s fun t =>
      toSigned 32 (seenAfter t k 0 rd) = min (2 ^ 31 - 1) v ∧ CoreFrame s t k [] [rd, 52] ∧
      (toSigned 32 A = -(2 ^ 31) → bitOf (seenAfter t k 0 52) 5 = true) :=
  completes_aluSat hc hup rd.isLt h52 h72 hruns ho hrd fun t val frame sv => by
    refine ⟨?_, frame, fun hA => sv ((satTo_snd _ _).2 (.inr (by rw [hv hA]; decide)))⟩
    rw [val, satTo_fst]
    omega

/-- A complex word that is seen `n` instructions after the next. -/
theorem complex_completes {c : Instr} {op : BrlAlu} {a b n m : Nat} {late : Bool} {re im : Int}
    (hc : exec c s = run (fun s => brlIssue s k (.alu op rd a b n)) s) (hruns : CoreRuns s k (.alu op rd a b n))
    (ho : aluOutcome s k op a b n = aluComplex late re im) (hm : m = if late then 1 else 0) : Completes c s fun t =>
      hiOf (seenAfter t k m rd) = max (-32767) (min 32767 re) ∧
      loOf (seenAfter t k m rd) = max (-32767) (min 32767 im) ∧ CoreFrame s t k [] [rd, 52] :=
  completes_aluComplex hc hup rd.isLt h52 h72 hruns ho hrd fun _ real imag frame => hm ▸ ⟨real, imag, frame⟩

/-- A product, seen by the instruction after the next. -/
theorem product_completes {c : Instr} {op : BrlAlu} {a b n : Nat} {x y : Int}
    (hc : exec c s = run (fun s => brlIssue s k (.alu op rd a b n)) s) (hruns : CoreRuns s k (.alu op rd a b n))
    (ho : aluOutcome s k op a b n = aluPlain true (ofSigned 32 (x * y))) (hx : -32768 ≤ x ∧ x ≤ 32767)
    (hy : -32768 ≤ y ∧ y ≤ 32767) : Completes c s fun t =>
      toSigned 32 (seenAfter t k 1 rd) = x * y ∧ CoreFrame s t k [] [rd] := by
  obtain ⟨hlo, hhi⟩ := halves_mul_bounds hx hy
  exact completes_aluPlain hc hup rd.isLt h52 h72 hruns ho hrd
    fun _ val frame => ⟨toSigned_of_mod val (by omega) (by omega) (by decide), frame⟩

end operands
end Sys2Proof.Machine
end

namespace Sys2Proof
open Machine

/-- Settles O30: an operation writes its result where its outcome has one, its flags to SR and to the branch, and SV where it
saturated, each due one or two instructions later, and going on leaves all else as it was. -/
theorem berylIntegerCompletes : Obligations.BerylIntegerCompletes := by
  unfold Obligations.BerylIntegerCompletes
  refine ⟨fun s k rd rs rt A B C hup hA hB hC hrd h52 h72 => ⟨add_completes hup hrd h52 h72 hA hB,
      addc_completes hup hrd h52 h72 hA hB hC, sub_completes hup hrd h52 h72 hA hB,
      fun hruns h1 => subc_completes_noBorrow hup hrd h52 h72 hA hB (h1 ▸ hC) hruns,
      fun hruns h0 => subc_completes_borrow hup hrd h52 h72 hA hB (h0 ▸ hC) hruns, cmp_completes hup h52 h72 hA hB⟩,
    fun s k rd rs rt A B hup hA hB hrd h52 h72 => ?_⟩
  subst hA hB
  refine ⟨fun hruns => ?and, fun hruns => ?or, fun hruns => ?xor, fun hruns => ?not, fun hruns => ?abs, fun hruns => ?neg,
    fun hruns => ?min, fun hruns => ?max, fun hruns => ?mov⟩
  case and => exact logic_completes hup hrd h52 h72 rfl hruns rfl fun t val frame fl => ⟨val, frame, fl.1, fl.2.2⟩
  case or => exact logic_completes hup hrd h52 h72 rfl hruns rfl fun t val frame fl => ⟨val, frame, fl.1, fl.2.2⟩
  case xor => exact logic_completes hup hrd h52 h72 rfl hruns rfl fun t val frame fl => ⟨val, frame, fl.2⟩
  case not =>
    exact logic_completes hup hrd h52 h72 rfl hruns rfl
      fun t val frame fl => ⟨val.trans (Nat.mod_eq_of_lt (by omega)), frame, fl.2⟩
  case abs =>
    obtain ⟨t, done, val, frame, sv⟩ := saturated_completes (c := .abs k rd rs) (A := (brlCore s k).slot rs) hup hrd h52 h72
      rfl hruns rfl (by omega) fun h => by rw [h]; rfl
    exact ⟨t, done, val.trans (by omega), frame, sv⟩
  case neg =>
    obtain ⟨-, hhi⟩ := toSigned_bounds 32 ((brlCore s k).slot rs)
    exact saturated_completes (A := (brlCore s k).slot rs) hup hrd h52 h72 rfl hruns rfl (by omega) (by omega)
  case min =>
    exact completes_aluPlain rfl hup rd.isLt h52 h72 hruns rfl hrd fun t val frame =>
      ⟨(toSigned_congr val).trans (by split <;> omega), frame⟩
  case max =>
    exact completes_aluPlain rfl hup rd.isLt h52 h72 hruns rfl hrd fun t val frame =>
      ⟨(toSigned_congr val).trans (by split <;> omega), frame⟩
  case mov => exact completes_aluPlain rfl hup rd.isLt h52 h72 hruns rfl hrd fun t val frame => ⟨val, frame⟩

/-- Settles O31: the same for the shifts, whose flags no rule gives, and for complex words and products, which are due an
instruction later where the operation multiplies. -/
theorem berylShiftAndComplexCompletes : Obligations.BerylShiftAndComplexCompletes := by
  unfold Obligations.BerylShiftAndComplexCompletes
  refine ⟨fun s k rd rs n A hup hA hrd h52 h72 => ?_, fun s k rd rs rt A B hup hA hB hrd h52 h72 => ?_⟩
  · subst hA
    exact ⟨fun hruns => leftShift_completes hup hrd h52 h72 rfl hruns rfl,
      fun hruns => logic_completes hup hrd h52 h72 rfl hruns rfl fun t val frame _ => ⟨val, frame⟩,
      fun hruns => arithmeticShift_completes hup hrd h52 h72 rfl hruns rfl,
      fun hruns => logic_completes hup hrd h52 h72 rfl hruns rfl fun t val frame _ =>
        ⟨val.trans (Nat.mod_eq_of_lt (ofSigned_lt 32 _)), frame⟩⟩
  · subst hA hB
    have halves (x : Nat) := And.intro (hiOf_bounds x) (loOf_bounds x)
    refine ⟨fun hruns => leftShift_completes hup hrd h52 h72 rfl hruns rfl,
      fun hruns => arithmeticShift_completes hup hrd h52 h72 rfl hruns rfl,
      fun hruns => complex_completes hup hrd h52 h72 rfl hruns rfl rfl,
      fun hruns => complex_completes hup hrd h52 h72 rfl hruns rfl rfl, fun hruns => ?conj,
      fun hruns => product_completes hup hrd h52 h72 rfl hruns rfl (loOf_bounds _) (loOf_bounds _),
      fun hruns => product_completes hup hrd h52 h72 rfl hruns rfl (hiOf_bounds _) (hiOf_bounds _),
      fun hruns => complex_completes hup hrd h52 h72 rfl hruns rfl rfl⟩
    have real := hiOf_bounds ((brlCore s k).slot rs)
    have imag := loOf_bounds ((brlCore s k).slot rs)
    obtain ⟨t, done, hre, him, frame⟩ := complex_completes hup hrd h52 h72 (c := .conj k rd rs) (m := 0) rfl hruns rfl rfl
    exact ⟨t, done, hre.trans (by omega), him.trans (by omega), frame⟩

end Sys2Proof

section
/-! The data accesses of a Beryl core (R271 to R275): what they leave alone of the cores. -/
namespace Sys2Proof.Machine

/-! ## Reports and reads that leave the cores as they are -/

theorem foldl_brl {α : Type} {f : State → α → State} (hf : ∀ t x, (f t x).brl = t.brl) (l : List α) (s : State) :
    (l.foldl f s).brl = s.brl := by
  induction l generalizing s with
  | nil => rfl
  | cons x l ih => exact (ih _).trans (hf s x)

theorem raise_brl (s : State) (src : Nat) : (raise s src).brl = s.brl := by
  unfold raise raiseIn
  split <;> rfl

theorem fault_brl (s : State) (n : Nat) : (fault s n).brl = s.brl := by
  unfold fault setFaults faultRecord
  dsimp only
  split <;> rfl

theorem memLog_brl (s : State) (kind req symbol a synd : Nat) : (memLog s kind req symbol a synd).brl = s.brl := by
  unfold memLog
  dsimp only
  split <;> rfl

theorem guardReport_brl (s : State) (req a : Nat) : (guardReport s req a).brl = s.brl := memLog_brl ..

theorem ueReport_brl (s : State) (req line : Nat) (rmw : Bool) (ws : List Nat) :
    (ueReport s req line rmw ws).brl = s.brl := by
  unfold ueReport
  dsimp only
  rw [fault_brl, raise_brl, setF_brl, bump_brl, setMem_brl]
  exact foldl_brl (fun _ _ => memLog_brl ..) ws s

theorem served_brl (s : State) (req a n : Nat) : (served s req a n).brl = s.brl := by
  unfold served
  dsimp only
  split
  · refine foldl_brl (fun t u => ?_) _ _
    unfold leaveSelfRefresh
    split <;> rfl
  · rfl

theorem unitWrite_brl (s : State) (req a : Nat) (bs : List Byte) : (unitWrite s req a bs).brl = s.brl := by
  unfold unitWrite
  split
  · rfl
  · split
    · exact guardReport_brl ..
    · exact (foldl_brl (fun _ _ => ueReport_brl ..) _ _).trans (served_brl ..)

theorem unitFetch_brl (s : State) (req a n : Nat) : (unitFetch s req a n).1.brl = s.brl := by
  unfold unitFetch
  split
  · exact served_brl ..
  · dsimp only
    split
    · rfl
    · split
      · exact guardReport_brl ..
      · exact (foldl_brl (fun _ _ => ueReport_brl ..) _ _).trans (served_brl ..)

/-- An error response to a master other than the firmware's. -/
theorem busError_brl (s : State) {m : Nat} (hm : 2 ≤ m) (target kind addr : Nat) (write : Bool) :
    (busError s m target kind addr write).brl = s.brl := by
  unfold busError
  dsimp only
  rw [if_neg (by omega)]
  split <;> rfl

theorem two_le_masterCode (k : Fin 4) : 2 ≤ masterCode (.beryl k) := Nat.le_add_right 2 k

theorem wordRead_brl (s : State) (m : Master) (a : Nat) : (wordRead s m a).1.brl = s.brl := by
  unfold wordRead
  dsimp only
  split
  · rfl
  · split
    · rfl
    · unfold clearRc
      split
      · dsimp only
        split <;> split <;> rfl
      · rfl

theorem regRead_brl (s : State) (k : Fin 4) (a : Nat) : (regRead s (.beryl k) a).1.brl = s.brl := by
  have refused (t kind : Nat) : (readError s (.beryl k) t kind a).1.brl = s.brl := busError_brl s (two_le_masterCode k) ..
  unfold regRead
  split
  · rfl
  · split
    · exact refused ..
    · split
      · split
        · rfl
        · exact refused ..
      · split
        · exact refused ..
        · refine (wordRead_brl ..).trans ?_
          unfold panicTally
          split
          · split <;> rfl
          · rfl

theorem weightRead_brl (s : State) (k : Fin 4) (off : Nat) : (weightRead s (.beryl k) off).1.brl = s.brl := by
  have refused (kind : Nat) : (readError s (.beryl k) 4 kind off).1.brl = s.brl := busError_brl s (two_le_masterCode k) ..
  unfold weightRead
  dsimp only
  split
  · exact refused _
  · split
    · rfl
    · exact refused _

theorem matrixDramRead_brl (s : State) (k : Fin 4) (a n : Nat) : (matrixDramRead s (.beryl k) a n).1.brl = s.brl := by
  have fetched := unitFetch_brl s 10 a n
  unfold matrixDramRead
  split
  · exact busError_brl s (two_le_masterCode k) ..
  · split
    · next h => rwa [h] at fetched
    · next h =>
      rw [h] at fetched
      exact (busError_brl _ (two_le_masterCode k) ..).trans fetched

theorem windowRead_brl (s : State) (k : Nat) (w : BrlTarget) : (windowRead s k w).1.brl = s.brl := by
  cases w with
  | bar0 a => exact regRead_brl ..
  | weight off => exact weightRead_brl ..
  | dram a => exact matrixDramRead_brl ..

theorem windowRefused_brl (s : State) (k : Nat) (w : BrlTarget) (write : Bool) : (windowRefused s k w write).brl = s.brl := by
  cases w <;> exact busError_brl s (two_le_masterCode _) ..

theorem brlCore_brlPend (s : State) (k v : Nat) : ∃ w, brlCore (brlPend s k v) k = { brlCore s k with waiting := w } := by
  unfold brlPend
  split
  · exact ⟨_, rfl⟩
  · exact brlCore_brlWake ..

theorem brlCore_windowError (s : State) (k : Nat) (y : Bool) (a : Nat) :
    ∃ w, brlCore (windowError s k y a) k = { brlCore s k with waiting := w } := brlCore_brlPend ..

/-! ## Accesses -/

/-- From `c` to `c'` accesses were made: they wrote D and pointer registers, and sticky bits of SR beside AV. -/
structure BrlCore.Moved (c c' : BrlCore) : Prop where
  file : c'.file = c.file
  count : c'.count = c.count
  pend : ∀ i, 40 ≤ i → i ≠ 52 → c'.pend i = c.pend i
  sticky : ∀ v, c.Due 52 (c.count + 1) v →
    ∃ v', c'.Due 52 (c'.count + 1) v' ∧ (v.getLsbD 6 = true → v'.getLsbD 6 = true)

namespace BrlCore.Moved

variable {c c' c'' : BrlCore}

theorem refl (c : BrlCore) : Moved c c := ⟨rfl, rfl, fun _ _ _ => rfl, fun v h => ⟨v, h, id⟩⟩

theorem trans (h : Moved c c') (h' : Moved c' c'') : Moved c c'' where
  file := h'.file.trans h.file
  count := h'.count.trans h.count
  pend i hi hne := (h'.pend i hi hne).trans (h.pend i hi hne)
  sticky v hv := by
    obtain ⟨v', hv', keep⟩ := h.sticky v hv
    obtain ⟨v'', hv'', keep'⟩ := h'.sticky v' hv'
    exact ⟨v'', hv'', keep' ∘ keep⟩

/-- Only the slots and the count matter. -/
theorem same (h : Moved c c') (hfile : c''.file = c'.file) (hcount : c''.count = c'.count)
    (hflight : c''.flight = c'.flight) : Moved c c'' := by
  have pend (i : Nat) : c''.pend i = c'.pend i := by rw [BrlCore.pend, hflight, BrlCore.pend]
  refine h.trans ⟨hfile, hcount, fun i _ _ => pend i, fun v hv => ⟨v, ?_, id⟩⟩
  rw [hcount]
  exact hv.congr (by rw [hfile]) (pend 52)

theorem put (h : Moved c c') {j : Nat} (hj : j < 40) (e mask val : Nat) : Moved c (c'.put e j mask val) :=
  h.trans ⟨rfl, rfl, fun _ hi _ => pend_put_ne c' (by omega), fun v hv => ⟨v, hv.put_ne (by omega), id⟩⟩

theorem step (h : Moved c c') {p : Nat} (hp : p < 8) (e : Ea) : Moved c (c'.step p e) := by
  have stuck {c' : BrlCore} (h : Moved c c') : Moved c (c'.stick 7 e.co) := by
    refine h.trans ⟨?_, count_stick .., fun i _ hi => ?_, fun v hv => ?_⟩
    · unfold stick; split <;> rfl
    · unfold stick; split
      · exact pend_put_ne c' hi.symm
      · rfl
    · obtain ⟨v', hv', other, -⟩ := hv.stick (bit := 7) (by decide) e.co
      rw [count_stick]
      exact ⟨v', hv', (other 6 (by decide) (by decide)).trans⟩
  unfold BrlCore.step
  split
  · exact stuck (h.put (by omega) ..)
  · exact stuck h

theorem due (h : Moved c c') {i d : Nat} {v : DWord} (hd : c.Due i d v) (hi : 40 ≤ i) (hne : i ≠ 52) : c'.Due i d v :=
  hd.congr (by rw [h.file]) (h.pend i hi hne)

end BrlCore.Moved

theorem moved_setBrl {c : BrlCore} {s : State} {k : Nat} {f : BrlCore → BrlCore} (h : c.Moved (f (brlCore s k))) :
    c.Moved (brlCore (setBrl s k f) k) := by rwa [brlCore_setBrl_same]

theorem moved_windowError {s t : State} (h : t.brl = s.brl) (k : Nat) (y : Bool) (a : Nat) :
    (brlCore s k).Moved (brlCore (windowError t k y a) k) := by
  obtain ⟨w, hw⟩ := brlCore_windowError t k y a
  rw [hw, brlCore_congr h]
  exact (BrlCore.Moved.refl _).same rfl rfl rfl

theorem moved_brlAccess (s : State) (k : Nat) (c0 : BrlCore) (err : Bool) {u : BrlUse} (hr : u.r < 40) (hp : u.p < 8) :
    (brlCore s k).Moved (brlCore (brlAccess s k c0 err u) k) := by
  have got {t : State} (v : Nat) (h : (brlCore s k).Moved (brlCore t k)) :
      (brlCore s k).Moved (brlCore (setBrl t k fun c => c.putD 2 u.r v) k) := moved_setBrl (h.put hr ..)
  have refl := BrlCore.Moved.refl (brlCore s k)
  unfold brlAccess
  refine moved_setBrl (BrlCore.Moved.step ?_ hp _)
  dsimp only
  split
  · split
    · exact refl
    · exact moved_setBrl (refl.same rfl rfl rfl)
    · exact refl
  · split
    · exact got _ refl
    · next w _ =>
      have read := windowRead_brl s k w
      split
      · exact got _ (moved_windowError (windowRefused_brl ..) ..)
      · split
        · next t v h => rw [h] at read; exact got _ (brlCore_congr read k ▸ refl)
        · next t h => rw [h] at read; exact got _ (moved_windowError read ..)
    · exact refl

theorem moved_accesses (k : Nat) (c0 : BrlCore) (err : Bool) {l : List BrlUse} (h : ∀ u ∈ l, u.r < 40 ∧ u.p < 8) (s : State) :
    (brlCore s k).Moved (brlCore (l.foldl (fun t u => brlAccess t k c0 err u) s) k) := by
  induction l generalizing s with
  | nil => exact .refl _
  | cons u l ih =>
    obtain ⟨⟨hr, hp⟩, rest⟩ := List.forall_mem_cons.1 h
    exact (moved_brlAccess s k c0 err hr hp).trans (ih rest _)

theorem mem_moveUse {c : BrlCore} {y : Bool} {m : BrlMove} : ∀ u ∈ moveUse c y m, u.r < 40 ∧ u.p < 8 := by
  cases m with
  | none => nofun
  | load p md r =>
    simp only [moveUse, List.mem_singleton, forall_eq]
    split <;> omega
  | store p md r =>
    simp only [moveUse, List.mem_singleton, forall_eq]
    split <;> omega

theorem mem_brlUses_pm {c : BrlCore} {op : Option BrlMac} {acc a b : Nat} {mv : BrlMoves} :
    ∀ u ∈ brlUses c (.pm op acc a b mv), u.r < 40 ∧ u.p < 8 := fun u hu =>
  (List.mem_append.1 hu).elim (mem_moveUse u) (mem_moveUse u)

end Sys2Proof.Machine
end

section
/-! The accumulators of a Beryl core and the operations on them (R278 to R283). -/
namespace Sys2Proof.Machine

/-! ## Accumulator writes -/

/-- Accumulator `i` takes the sum `x`, saturated at ±(2^39 − 1); AV is set where it was (R279). -/
def BrlCore.accumulate (c : BrlCore) (i : Nat) (x : Int) : BrlCore :=
  (c.putAcc i (satTo (2 ^ 39 - 1) x).1).stick 6 (satTo (2 ^ 39 - 1) x).2

/-- The sum that a MAC operation gives accumulator `i` by adding `v`: CMACZ begins from zero (R278). -/
def macSum (c : BrlCore) (op : BrlMac) (i : Nat) (v : Int) : Int := (if op = .cmacz then 0 else c.acc i) + v

theorem macDo_eq (c0 c : BrlCore) (op : BrlMac) (acc a b : Nat) : macDo c0 c op acc a b =
    if macSingle op then c.accumulate acc (macSum c0 op acc (macTerms op a b).1)
    else (c.accumulate acc (macSum c0 op acc (macTerms op a b).1)).accumulate (acc + 1)
      (macSum c0 op (acc + 1) (macTerms op a b).2) := rfl

namespace BrlCore

variable {c : BrlCore} {i j d : Nat} {v : DWord} {x : Int}

theorem due_putAcc (h : c.pend (64 + i) = []) (x : Int) : (c.putAcc i x).Due (64 + i) (c.count + 1)
    (merged (c.file.get 0 (64 + i)) (2 ^ 40 - 1) (ofSigned 40 x)) := (Due.of_put h ..).put_ne (by omega)

theorem due_putAcc_moved (h : c.pend (68 + i) = []) (x : Int) : (c.putAcc i x).Due (68 + i) (c.count + 2)
    (merged (c.file.get 0 (68 + i)) (2 ^ 40 - 1) (ofSigned 40 x)) :=
  Due.put ((Due.of_landed h _).put_ne (by omega)) ..

theorem Due.putAcc_ne (h : c.Due j d v) (hm : j ≠ 64 + i) (hv : j ≠ 68 + i) : (c.putAcc i x).Due j d v :=
  (h.put_ne hm.symm).put_ne hv.symm

@[simp] theorem count_accumulate (c : BrlCore) (i : Nat) (x : Int) : (c.accumulate i x).count = c.count := count_stick ..

theorem Writes.accumulate {c' : BrlCore} {dst : List Nat} (h : Writes dst c c') (hm : 64 + i ∈ dst) (hv : 68 + i ∈ dst)
    (h52 : 52 ∈ dst) (x : Int) : Writes dst c (c'.accumulate i x) := (h.putAcc hm hv _).stick (fun _ => h52) 6

theorem due_accumulate (h : c.pend (64 + i) = []) (x : Int) : (c.accumulate i x).Due (64 + i) (c.count + 1)
    (merged (c.file.get 0 (64 + i)) (2 ^ 40 - 1) (ofSigned 40 (satTo (2 ^ 39 - 1) x).1)) :=
  (due_putAcc h _).stick_ne (by omega) ..

theorem due_accumulate_moved (h : c.pend (68 + i) = []) (x : Int) : (c.accumulate i x).Due (68 + i) (c.count + 2)
    (merged (c.file.get 0 (68 + i)) (2 ^ 40 - 1) (ofSigned 40 (satTo (2 ^ 39 - 1) x).1)) :=
  (due_putAcc_moved h _).stick_ne (by omega) ..

theorem pend_accumulate_ne (c : BrlCore) (x : Int) (hm : j ≠ 64 + i) (hv : j ≠ 68 + i) (h52 : j ≠ 52) :
    (c.accumulate i x).pend j = c.pend j :=
  ((Writes.refl [64 + i, 68 + i, 52] c).accumulate (by simp) (by simp) (by simp) x).pend j (by simp [hm, hv, h52])

theorem Due.accumulate_ne (h : c.Due j d v) (x : Int) (hm : j ≠ 64 + i) (hv : j ≠ 68 + i) (h52 : j ≠ 52) :
    (c.accumulate i x).Due j d v := (h.putAcc_ne hm hv).stick_ne h52 ..

/-- AV is set where an accumulator saturates, and stays set. -/
theorem Due.accumulate_av (h : c.Due 52 (c.count + 1) v) (hi : i < 4) (x : Int) :
    ∃ v', (c.accumulate i x).Due 52 ((c.accumulate i x).count + 1) v' ∧
      (x < -(2 ^ 39 - 1) ∨ 2 ^ 39 - 1 < x ∨ v.getLsbD 6 = true → v'.getLsbD 6 = true) := by
  have put : (c.putAcc i (satTo (2 ^ 39 - 1) x).1).Due 52 (c.count + 1) v := h.putAcc_ne (by omega) (by omega)
  obtain ⟨v', hv', -, hset⟩ := Due.stick put (bit := 6) (by decide) (satTo (2 ^ 39 - 1) x).2
  refine ⟨v', by rwa [count_accumulate], fun hx => hset ?_⟩
  rw [satTo_snd]
  tauto

end BrlCore

/-- An accumulator that is due to hold the saturated sum `x` is seen so. -/
theorem acc_seen {u : State} {k i d : Nat} {w : DWord} {x : Int} (hi : 56 ≤ i) (hd : d = (brlCore u k).count + 1)
    (h : (brlCore u k).Due i d (merged w (2 ^ 40 - 1) (ofSigned 40 (satTo (2 ^ 39 - 1) x).1))) :
    toSigned 40 (seenAfter (brlAdvance u k .seq) k 0 i) = max (-(2 ^ 39 - 1)) (min (2 ^ 39 - 1) x) := by
  subst hd
  have bounds := satTo_bounds (m := 2 ^ 39 - 1) (by decide) x
  rw [seenAfter_brlAdvance .seq h (notMem_loopSlots hi) (by decide) (by decide)]
  exact toSigned_of_mod (merged_mod w (n := 40) (by decide) _) (by omega) (by omega) (by decide)

/-- Due at once for the next MAC operation, and one later for moves, an accumulator reads the same. -/
theorem acc_moved {u : State} {k i j d v : Nat} {w w' : DWord} (hi : 56 ≤ i) (hj : 56 ≤ j) (hd : d = (brlCore u k).count)
    (h : (brlCore u k).Due i (d + 1) (merged w (2 ^ 40 - 1) v))
    (h' : (brlCore u k).Due j (d + 2) (merged w' (2 ^ 40 - 1) v)) :
    seenAfter (brlAdvance u k .seq) k 1 j % 2 ^ 40 = seenAfter (brlAdvance u k .seq) k 0 i % 2 ^ 40 := by
  subst hd
  rw [seenAfter_brlAdvance .seq h (notMem_loopSlots hi) (by decide) (by decide),
    seenAfter_brlAdvance .seq h' (notMem_loopSlots hj) (by decide) (by decide), merged_mod _ (n := 40) (by decide),
    merged_mod _ (n := 40) (by decide)]

/-! ## MAC operations -/

/-- A MAC operation with its accesses. -/
theorem brlEffect_mac (s : State) (k : Nat) (m : BrlMac) (acc a b : Nat) (mv : BrlMoves) :
    brlEffect (ldcStall s k (.pm (some m) acc a b mv)) k (.pm (some m) acc a b mv) false =
      ((brlUses (brlCore s k) (.pm (some m) acc a b mv)).foldl (fun t u => brlAccess t k (brlCore s k) false u)
        (setBrl s k fun c => macDo (brlCore s k) c m acc ((brlCore s k).slot a) ((brlCore s k).slot b)), .seq) := rfl

section mac
variable {c : Instr} {s : State} {k : Nat} {m : BrlMac} {acc a b : Nat} {mv : BrlMoves} {x y : Int}
  (hc : exec c s = run (fun s => brlIssue s k (.pm (some m) acc a b mv)) s) (hup : Up s)
  (hruns : CoreRuns s k (.pm (some m) acc a b mv)) (h64 : Landed s k (64 + acc)) (h52 : Landed s k 52)
  (hx : x = macSum (brlCore s k) m acc (macTerms m ((brlCore s k).slot a) ((brlCore s k).slot b)).1)
include hc hup hruns h64 h52 hx

/-- MAC and MSU: the accumulator holds the saturated sum, and AV is set where it saturated. -/
theorem completes_macSingle (hm : macSingle m = true) (hacc : acc < 4) (hmv : mv = ⟨.none, .none⟩) : Completes c s fun t =>
    toSigned 40 (seenAfter t k 0 (64 + acc)) = max (-(2 ^ 39 - 1)) (min (2 ^ 39 - 1) x) ∧
    (Landed s k (68 + acc) → seenAfter t k 1 (68 + acc) % 2 ^ 40 = seenAfter t k 0 (64 + acc) % 2 ^ 40) ∧
    (x < -(2 ^ 39 - 1) ∨ 2 ^ 39 - 1 < x → bitOf (seenAfter t k 0 52) 6 = true) ∧
    CoreFrame s t k [] [64 + acc, 68 + acc, 52] := by
  subst hmv
  refine completes_brl hc hup hruns (brlEffect_mac ..) ?_
  simp only [brlUses, moveUse, List.append_nil, List.foldl_nil, macDo_eq, hm, if_true, ← hx]
  have core : brlCore (setBrl s k fun c => c.accumulate acc x) k = (brlCore s k).accumulate acc x := brlCore_setBrl_same ..
  have count : (brlCore (setBrl s k fun c => c.accumulate acc x) k).count = (brlCore s k).count := by simp
  have due := BrlCore.due_accumulate (pend_nil_of_landed h64) x
  obtain ⟨v, sr, hv⟩ := (BrlCore.Due.of_landed (pend_nil_of_landed h52) _).accumulate_av hacc x
  rw [← core] at due sr
  refine ⟨acc_seen (by omega) (by rw [count]) due, fun h68 => ?_, fun hsat => ?_, Acted.coreFrame (.of_setBrl ?_)⟩
  · have moved := BrlCore.due_accumulate_moved (pend_nil_of_landed h68) x
    rw [← core] at moved
    exact acc_moved (by omega) (by omega) count.symm due moved
  · rw [seenAfter_brlAdvance .seq sr (by decide) (by decide) (by decide), bitOf_toNat]
    exact hv (hsat.imp_right .inl)
  · exact BrlCore.Writes.accumulate (.refl ..) (by simp) (by simp) (by simp) x

/-- The operations on a pair: each accumulator holds its saturated sum, whatever the moves beside it, and AV is set where one
saturated. -/
theorem completes_macPair {e o : Nat} (hm : macSingle m = false) (hacc : acc < 3) (he : e = 64 + acc)
    (ho : o = 64 + (acc + 1)) (h65 : Landed s k o)
    (hy : y = macSum (brlCore s k) m (acc + 1) (macTerms m ((brlCore s k).slot a) ((brlCore s k).slot b)).2) :
    Completes c s fun t =>
      toSigned 40 (seenAfter t k 0 e) = max (-(2 ^ 39 - 1)) (min (2 ^ 39 - 1) x) ∧
      toSigned 40 (seenAfter t k 0 o) = max (-(2 ^ 39 - 1)) (min (2 ^ 39 - 1) y) ∧
      (x < -(2 ^ 39 - 1) ∨ 2 ^ 39 - 1 < x ∨ y < -(2 ^ 39 - 1) ∨ 2 ^ 39 - 1 < y → bitOf (seenAfter t k 0 52) 6 = true) ∧
      (mv = ⟨.none, .none⟩ → CoreFrame s t k [] [e, o, e + 4, o + 4, 52]) := by
  subst he ho
  refine completes_brl hc hup hruns (brlEffect_mac ..) ?_
  simp only [macDo_eq, hm, ← hx, ← hy, Bool.false_eq_true, if_false]
  have acted : Acted [] [64 + acc, 64 + (acc + 1), 64 + acc + 4, 64 + (acc + 1) + 4, 52] k s
      (setBrl s k fun c => (c.accumulate acc x).accumulate (acc + 1) y) :=
    .of_setBrl (((BrlCore.Writes.refl ..).accumulate (by simp) (by simp; omega) (by simp) x).accumulate (by simp)
      (by simp; omega) (by simp) y)
  have moved := moved_accesses k (brlCore s k) false (mem_brlUses_pm (c := brlCore s k) (op := some m) (acc := acc) (a := a)
    (b := b) (mv := mv)) (setBrl s k fun c => (c.accumulate acc x).accumulate (acc + 1) y)
  rw [brlCore_setBrl_same] at moved
  have real := moved.due ((BrlCore.due_accumulate (pend_nil_of_landed h64) x).accumulate_ne y (by omega) (by omega)
    (by omega)) (by omega) (by omega)
  have imag := moved.due (BrlCore.due_accumulate (c := (brlCore s k).accumulate acc x) ((BrlCore.pend_accumulate_ne _ _
    (by omega) (by omega) (by omega)).trans (pend_nil_of_landed h65)) y) (by omega) (by omega)
  obtain ⟨v, hv, avx⟩ := (BrlCore.Due.of_landed (pend_nil_of_landed h52) _).accumulate_av (by omega : acc < 4) x
  obtain ⟨v', hv', avy⟩ := BrlCore.Due.accumulate_av (c := (brlCore s k).accumulate acc x) hv (by omega : acc + 1 < 4) y
  obtain ⟨v'', sr, av⟩ := moved.sticky v' hv'
  have count := moved.count
  simp only [BrlCore.count_accumulate] at count
  refine ⟨acc_seen (by omega) (by rw [count]) real, acc_seen (by omega) (by rw [count, BrlCore.count_accumulate]) imag,
    fun hsat => ?_, fun hmv => ?_⟩
  · rw [seenAfter_brlAdvance .seq sr (by decide) (by decide) (by decide), bitOf_toNat]
    exact av (avy (by tauto))
  · simp only [hmv, brlUses, moveUse, List.append_nil, List.foldl_nil]
    exact acted.coreFrame

end mac
end Sys2Proof.Machine
end

section
/-! Loads and stores of a Beryl core in its own X and Y memory (R271, R275, R282). -/
namespace Sys2Proof.Machine

/-! ## Actions that follow one another -/

/-- More writes of the core. -/
theorem Acted.setBrl {regs dst : List Nat} {k : Nat} {s t : State} (h : Acted regs dst k s t) {f : BrlCore → BrlCore}
    (hf : ∀ c', (brlCore s k).Writes dst c' → (brlCore s k).Writes dst (f c')) : Acted regs dst k s (setBrl t k f) :=
  ⟨h.beside.setBrl f, h.pc, brlCore_setBrl_same t k f ▸ hf _ h.core⟩

/-! ## The pointer -/

theorem count_step (c : BrlCore) (p : Nat) (e : Ea) : (c.step p e).count = c.count := by
  unfold BrlCore.step
  split <;> exact BrlCore.count_stick ..

theorem BrlCore.Due.step_ne {c : BrlCore} {i d : Nat} {v : DWord} (h : c.Due i d v) {p : Nat} (e : Ea) (hp : 32 + p ≠ i)
    (hi : i ≠ 52) : (c.step p e).Due i d v := by
  unfold BrlCore.step
  split
  · exact (h.put_ne hp).stick_ne hi 7 e.co
  · exact h.stick_ne hi 7 e.co

/-- The pointer that an access moves on is seen by the next instruction. -/
theorem BrlCore.Due.step {c : BrlCore} {p v : Nat} {w : DWord} {e : Ea} (h : c.Due (32 + p) (c.count + 1) w)
    (hnext : e.next = some v) (hp : p < 8) : (c.step p e).Due (32 + p) (c.count + 1) (merged w 0xFFFFFF v) := by
  rw [BrlCore.step, hnext]
  exact (h.put 0xFFFFFF v).stick_ne (by omega) 7 e.co

theorem pointer_seen {u : State} {k p v : Nat} {w : DWord} (hp : p < 8)
    (h : (brlCore u k).Due (32 + p) ((brlCore u k).count + 1) (merged w 0xFFFFFF v)) :
    seenAfter (brlAdvance u k .seq) k 0 (32 + p) % 2 ^ 24 = v % 2 ^ 24 := by
  have slot : 32 + p ∉ loopSlots := notMem_loopSlots_of_lt (by omega)
  rw [seenAfter_brlAdvance .seq h slot (by decide) (by decide)]
  exact merged_mod w (n := 24) (by decide) v

/-! ## Own memory -/

section own
variable {s : State} {k : Nat} {c0 : BrlCore} {u : BrlUse} {arr : Arr} {i : Nat}

/-- The state of the core after a load of its own memory. -/
theorem brlAccess_load (hst : u.st = false) (hplace : brlPlace s k u.y u.ea.addr = .own arr i) :
    brlAccess s k c0 false u = setBrl (setBrl s k fun c => c.putD 2 u.r ((arrGet s arr (1 + k) i).toNat % 2 ^ 32)) k
      fun c => c.step u.p u.ea := by
  simp only [brlAccess, hst, hplace]
  rfl

theorem brlAccess_store (hst : u.st = true) (hplace : brlPlace s k u.y u.ea.addr = .own arr i) :
    brlAccess s k c0 false u =
      setBrl (arrSet s arr i (BitVec.ofNat 64 (c0.slot u.r % 2 ^ 32))) k fun c => c.step u.p u.ea := by
  have word : (BitVec.ofNat 32 (c0.slot u.r)).setWidth 64 = BitVec.ofNat 64 (c0.slot u.r % 2 ^ 32) :=
    BitVec.eq_of_toNat_eq (by simp)
  simp only [brlAccess, hst, hplace, if_true, word]

/-- A window store waits in the write buffer. -/
theorem brlAccess_buffer {w : BrlTarget} (hst : u.st = true) (hplace : brlPlace s k u.y u.ea.addr = .window w) :
    brlAccess s k c0 false u = setBrl (setBrl s k fun c =>
      { c with stores := c.stores ++ [⟨w, u.y, u.ea.addr, BitVec.ofNat 32 (c0.slot u.r)⟩] }) k fun c => c.step u.p u.ea := by
  simp only [brlAccess, hst, hplace, if_true]

/-- A load of own memory gives the word to the instruction after the next, and moves its pointer on. -/
theorem load_seen (hst : u.st = false) (hr : u.r < 16) (hland : Landed s k u.r)
    (hplace : brlPlace s k u.y u.ea.addr = .own arr i) (hp : u.p < 8) :
    seenAfter (brlAdvance (brlAccess s k c0 false u) k .seq) k 1 u.r % 2 ^ 32 = (arrGet s arr (1 + k) i).toNat % 2 ^ 32 ∧
    (Landed s k (32 + u.p) → ∀ v, u.ea.next = some v →
      seenAfter (brlAdvance (brlAccess s k c0 false u) k .seq) k 0 (32 + u.p) % 2 ^ 24 = v % 2 ^ 24) ∧
    (∀ dst, u.r ∈ dst → 32 + u.p ∈ dst → (u.ea.co = true → 52 ∈ dst) →
      CoreFrame s (brlAdvance (brlAccess s k c0 false u) k .seq) k [] dst) := by
  rw [brlAccess_load hst hplace]
  generalize hw : (arrGet s arr (1 + k) i).toNat % 2 ^ 32 = w
  generalize ht : setBrl (setBrl s k fun c => c.putD 2 u.r w) k (fun c => c.step u.p u.ea) = t
  have core : brlCore t k = ((brlCore s k).putD 2 u.r w).step u.p u.ea := by
    rw [← ht, brlCore_setBrl_same, brlCore_setBrl_same]
  have count : (brlCore t k).count = (brlCore s k).count := by rw [core, count_step]; rfl
  refine ⟨?_, fun hptr v hv => ?_, fun dst hd hq hco => Acted.coreFrame ?_⟩
  · have due := (BrlCore.Due.of_put (pend_nil_of_landed hland) 2 (2 ^ 32 - 1) w).step_ne u.ea (p := u.p) (by omega) (by omega)
    have slot : u.r ∉ loopSlots := notMem_loopSlots_of_lt (by omega)
    rw [seenAfter_brlAdvance .seq (by rw [count, core]; exact due) slot (by decide) (by decide)]
    exact (merged_mod _ (n := 32) (by decide) w).trans (by rw [← hw, Nat.mod_mod])
  · refine pointer_seen hp (w := (brlCore s k).file.get 0 (32 + u.p)) ?_
    rw [count, core]
    exact BrlCore.Due.step (c := (brlCore s k).putD 2 u.r w)
      ((BrlCore.Due.of_landed (pend_nil_of_landed hptr) _).put_ne (by omega)) hv hp
  · rw [← ht]
    exact (Acted.of_setBrl ((BrlCore.Writes.refl ..).put hd ..)).setBrl fun c' h => h.step hq hco

/-- A store in own memory writes the register there, and moves its pointer on. -/
theorem store_seen (hst : u.st = true) (hplace : brlPlace s k u.y u.ea.addr = .own arr i) (hp : u.p < 8) :
    (brlAdvance (brlAccess s k c0 false u) k .seq).arrays =
      (arrSet s arr i (BitVec.ofNat 64 (c0.slot u.r % 2 ^ 32))).arrays ∧
    (brlAdvance (brlAccess s k c0 false u) k .seq).dram = s.dram ∧
    (∀ a, a ∉ seqRegs k → rd (brlAdvance (brlAccess s k c0 false u) k .seq) a = rd s a) ∧
    (Landed s k (32 + u.p) → ∀ v, u.ea.next = some v →
      seenAfter (brlAdvance (brlAccess s k c0 false u) k .seq) k 0 (32 + u.p) % 2 ^ 24 = v % 2 ^ 24) := by
  rw [brlAccess_store hst hplace]
  generalize hs' : arrSet s arr i (BitVec.ofNat 64 (c0.slot u.r % 2 ^ 32)) = s'
  have beside := ((Local.refl s').setBrl (regs := seqRegs k) (k := k) fun c => c.step u.p u.ea).brlAdvance
    (List.Subset.refl _) .seq
  have core : brlCore s' k = brlCore s k := hs' ▸ brlCore_arrSet ..
  refine ⟨beside.arrays, beside.dram.trans (hs' ▸ rfl), fun a ha => (beside.word a ha).trans (hs' ▸ rfl), fun hptr v hv => ?_⟩
  refine pointer_seen hp (w := (brlCore s k).file.get 0 (32 + u.p)) ?_
  rw [brlCore_setBrl_same, core, count_step]
  exact (BrlCore.Due.of_landed (pend_nil_of_landed hptr) _).step hv hp

end own
end Sys2Proof.Machine
end

section
/-! The clauses of the accumulators and of parallel moves (R275, R278 to R283). -/
namespace Sys2Proof.Machine

/-! ## Accumulators moved and set -/

/-- The rounded, saturated accumulator in a D register, as the instruction after the next sees it. -/
theorem mova_completes {s : State} {k acc : Fin 4} {rd : Fin 16} {sc : Nat} (hup : Up s)
    (hsc : sc = bitsOf (brlCore s k).sr 20 16) (hrd : Landed s k rd) (h52 : Landed s k 52)
    (hruns : CoreRuns s k (.mova rd acc)) :
    Completes (.mova k rd acc) s fun t => toSigned 32 (seenAfter t k 1 rd) =
        max (-(2 ^ 31 - 1)) (min (2 ^ 31 - 1) (rhu ((brlCore s k).sslot 40 (68 + acc)) sc)) ∧
      CoreFrame s t k [] [rd, 52] := by
  subst hsc
  refine completes_outcome (dst := [rd.val, 52]) (o := { aluSat (rhu ((brlCore s k).sslot 40 (68 + acc))
    (bitsOf (brlCore s k).sr 20 16)) with late := true }) rfl hup hruns rfl (.inl rfl) rd.isLt (fun _ => hrd) (fun _ => h52)
    (fun h => absurd rfl h) ⟨fun _ => by simp, fun h => absurd rfl h, fun _ => by simp⟩ fun t seen frame => ⟨?_, frame⟩
  obtain ⟨lower, upper⟩ := satTo_bounds (m := 2 ^ 31 - 1) (by decide) (rhu ((brlCore s k).sslot 40 (68 + acc))
    (bitsOf (brlCore s k).sr 20 16))
  exact toSigned_of_mod (seen.val _ rfl) (by omega) (by omega) (by decide)

theorem movac_completes {s : State} {k : Fin 4} {p : Fin 2} {rd : Fin 16} {sc : Nat} (hup : Up s)
    (hsc : sc = bitsOf (brlCore s k).sr 20 16) (hrd : Landed s k rd) (h52 : Landed s k 52)
    (hruns : CoreRuns s k (.movac rd (2 * p.val))) : Completes (.movac k rd p) s fun t =>
      hiOf (seenAfter t k 1 rd) = max (-32767) (min 32767 (rhu ((brlCore s k).sslot 40 (68 + 2 * p.val)) sc)) ∧
      loOf (seenAfter t k 1 rd) = max (-32767) (min 32767 (rhu ((brlCore s k).sslot 40 (69 + 2 * p.val)) sc)) ∧
      CoreFrame s t k [] [rd, 52] := by
  subst hsc
  generalize hre : rhu ((brlCore s k).sslot 40 (68 + 2 * p.val)) (bitsOf (brlCore s k).sr 20 16) = re
  generalize him : rhu ((brlCore s k).sslot 40 (69 + 2 * p.val)) (bitsOf (brlCore s k).sr 20 16) = im
  refine completes_outcome (dst := [rd.val, 52]) (o := aluComplex true re im) rfl hup hruns rfl (.inl ?_) rd.isLt
    (fun _ => hrd) (fun _ => h52) (fun h => absurd rfl h) ⟨fun _ => by simp, fun h => absurd rfl h, fun _ => by simp⟩
    fun t seen frame => ?_
  · rw [← hre, ← him]; rfl
  have real := satTo_bounds (m := 32767) (by decide) re
  have imag := satTo_bounds (m := 32767) (by decide) im
  have word := seen.val (complexWord (satTo 32767 re).1 (satTo 32767 im).1) rfl
  exact ⟨hiOf_complexWord word (by omega) (by omega), loOf_complexWord word (by omega) (by omega), frame⟩

theorem movda_completes {s : State} {k acc : Fin 4} {rs : Fin 16} (hup : Up s) (h64 : Landed s k (64 + acc))
    (h68 : Landed s k (68 + acc)) (hruns : CoreRuns s k (.movda acc rs)) : Completes (.movda k acc rs) s fun t =>
      toSigned 40 (seenAfter t k 0 (64 + acc)) = (brlCore s k).sslot 32 rs ∧
      seenAfter t k 1 (68 + acc) % 2 ^ 40 = seenAfter t k 0 (64 + acc) % 2 ^ 40 ∧
      CoreFrame s t k [] [64 + acc, 68 + acc] := by
  refine completes_brl (u := setBrl s k (·.putAcc acc ((brlCore s k).sslot 32 rs))) rfl hup hruns rfl ?_
  generalize hx : (brlCore s k).sslot 32 rs = x
  have bounds : -2 ^ 31 ≤ x ∧ x < 2 ^ 31 := hx ▸ toSigned_bounds 32 _
  have acted : Acted [] [64 + acc.val, 68 + acc.val] k s (setBrl s k (·.putAcc acc x)) :=
    .of_setBrl ((BrlCore.Writes.refl ..).putAcc (by simp) (by simp) x)
  have core : brlCore (setBrl s k (·.putAcc acc x)) k = (brlCore s k).putAcc acc x := brlCore_setBrl_same ..
  have count : (brlCore (setBrl s k (·.putAcc acc x)) k).count = (brlCore s k).count := by rw [core]; rfl
  have due := BrlCore.due_putAcc (pend_nil_of_landed h64) x
  have moved := BrlCore.due_putAcc_moved (pend_nil_of_landed h68) x
  rw [← core, ← count] at due moved
  refine ⟨?_, acc_moved (by omega) (by omega) rfl due moved, acted.coreFrame⟩
  rw [seenAfter_brlAdvance .seq due (notMem_loopSlots (by omega)) (by decide) (by decide)]
  exact toSigned_of_mod (merged_mod _ (n := 40) (by decide) _) (by omega) (by omega) (by decide)

/-! ## CLRA -/

/-- The accumulators of `l` are cleared. -/
def BrlCore.cleared (c : BrlCore) (l : List Nat) : BrlCore := l.foldl (fun c a => c.putAcc a 0) c

theorem writes_cleared {dst l : List Nat} (hl : ∀ a ∈ l, 64 + a ∈ dst ∧ 68 + a ∈ dst) {c c' : BrlCore}
    (h : c.Writes dst c') : c.Writes dst (c'.cleared l) := by
  induction l generalizing c' with
  | nil => exact h
  | cons a l ih =>
    obtain ⟨⟨hm, hv⟩, rest⟩ := List.forall_mem_cons.1 hl
    exact ih rest (h.putAcc hm hv 0)

/-- What slot `j` of accumulator `a`, first seen `e` instructions later, is due to hold reads 0 once `a` is cleared. -/
theorem BrlCore.Due.cleared {a j e : Nat} (hj : j = 64 + a ∧ e = 1 ∨ j = 68 + a ∧ e = 2) {l : List Nat}
    (hl : ∀ b ∈ l, b < 4) (ha : a < 4) {c : BrlCore} {w : DWord} (h : c.Due j (c.count + e) w) :
    ∃ w', (c.cleared l).Due j (c.count + e) w' ∧ (a ∈ l ∨ w.toNat % 2 ^ 40 = 0 → w'.toNat % 2 ^ 40 = 0) := by
  induction l generalizing c w with
  | nil => exact ⟨w, h, fun h => h.resolve_left (by simp)⟩
  | cons b l ih =>
    obtain ⟨hb, rest⟩ := List.forall_mem_cons.1 hl
    have zero : (merged w (2 ^ 40 - 1) (ofSigned 40 0)).toNat % 2 ^ 40 = 0 := merged_mod w (n := 40) (by decide) _
    by_cases hab : b = a
    · subst hab
      have put : (c.putAcc b 0).Due j (c.count + e) (merged w (2 ^ 40 - 1) (ofSigned 40 0)) := by
        obtain ⟨rfl, rfl⟩ | ⟨rfl, rfl⟩ := hj
        · exact (h.put ..).put_ne (by omega)
        · exact BrlCore.Due.put (h.put_ne (by omega)) ..
      obtain ⟨w', hw', clear⟩ := ih rest put
      exact ⟨w', hw', fun _ => clear (.inr zero)⟩
    · obtain ⟨w', hw', clear⟩ := ih rest (h.putAcc_ne (i := b) (x := 0) (by omega) (by omega))
      refine ⟨w', hw', fun hw => clear (hw.imp_left fun hm => ?_)⟩
      exact (List.mem_cons.1 hm).resolve_left (Ne.symm hab)

theorem clra_completes {s : State} {k : Fin 4} {mask : BitVec 4} (hup : Up s)
    (hland : ∀ a, a < 4 → Landed s k (64 + a) ∧ Landed s k (68 + a)) (hruns : CoreRuns s k (.clra mask.toNat)) :
    Completes (.clra k mask) s fun t =>
      (∀ a, a < 4 → mask.getLsbD a = true → seenAfter t k 0 (64 + a) % 2 ^ 40 = 0 ∧ seenAfter t k 1 (68 + a) % 2 ^ 40 = 0) ∧
      (∀ a, a < 4 → mask.getLsbD a = false → seenAfter t k 2 (64 + a) = (brlCore s k).slot (64 + a)) ∧
      CoreFrame s t k [] [64, 65, 66, 67, 68, 69, 70, 71] := by
  generalize hl : (List.range 4).filter (bitOf mask.toNat ·) = l
  have mem (a : Nat) : a ∈ l ↔ a < 4 ∧ mask.getLsbD a = true := by rw [← hl, List.mem_filter, List.mem_range, bitOf_toNat]
  refine completes_brl (u := setBrl s k (·.cleared l)) rfl hup hruns (by rw [← hl]; rfl) ?_
  have acted {dst : List Nat} (hd : ∀ a ∈ l, 64 + a ∈ dst ∧ 68 + a ∈ dst) : Acted [] dst k s (setBrl s k (·.cleared l)) :=
    .of_setBrl (writes_cleared hd (.refl ..))
  have core : brlCore (setBrl s k (·.cleared l)) k = (brlCore s k).cleared l := brlCore_setBrl_same ..
  have count : (brlCore (setBrl s k (·.cleared l)) k).count = (brlCore s k).count :=
    (acted (dst := l.map (64 + ·) ++ l.map (68 + ·)) fun a ha => by simp [ha]).core.count
  have zero {a j e : Nat} (hj : j = 64 + a ∧ e = 1 ∨ j = 68 + a ∧ e = 2) (ha : a ∈ l) (hland : Landed s k j) {n : Nat}
      (hn : e ≤ n + 1) : seenAfter (brlAdvance (setBrl s k (·.cleared l)) k .seq) k n j % 2 ^ 40 = 0 := by
    obtain ⟨w, due, clear⟩ := (BrlCore.Due.of_landed (pend_nil_of_landed hland) ((brlCore s k).count + e)).cleared hj
      (fun b hb => ((mem b).1 hb).1) ((mem a).1 ha).1
    rw [← core, ← count] at due
    rw [seenAfter_brlAdvance .seq due (notMem_loopSlots (by omega)) (by omega) hn]
    exact clear (.inl ha)
  refine ⟨fun a ha hm => ?_, fun a ha hm => ?_, Acted.coreFrame (acted fun a ha => ?_)⟩
  · have inl : a ∈ l := (mem a).2 ⟨ha, hm⟩
    exact ⟨zero (.inl ⟨rfl, rfl⟩) inl (hland a ha).1 (by decide), zero (.inr ⟨rfl, rfl⟩) inl (hland a ha).2 (by decide)⟩
  · obtain ⟨-, -, -, slots, -⟩ := (acted (dst := l.map (64 + ·) ++ l.map (68 + ·)) fun a ha => by simp [ha]).coreFrame
    refine slots _ (by omega) ?_ (by simp; omega) (hland a ha).1
    simp only [List.mem_append, List.mem_map, mem, not_or, not_exists, not_and]
    refine ⟨fun b hb e => ?_, fun b hb e => by omega⟩
    obtain rfl : b = a := by omega
    simp [hb.2] at hm
  · have := ((mem a).1 ha).1
    simp only [List.mem_cons, List.not_mem_nil, or_false]
    omega

/-! ## Parallel moves -/

theorem circ_zero {p : Nat} (hp : p < 2 ^ 24) (cb cl : Nat) : (circ p 0 cb cl).1 = p := by
  unfold circ
  dsimp only
  split
  · dsimp only; omega
  · split
    · dsimp only; omega
    · dsimp only
      split
      · omega
      · split <;> omega

/-- A parallel load on X. -/
theorem moveLoad_completes {s : State} {k p : Fin 4} {md : Bool} {r : Fin 8} {q : Nat} (hup : Up s) (hq : q < 0x10000)
    (hptr : q = (brlCore s k).slot (32 + p)) (hr : Landed s k r) (hland : Landed s k (32 + p))
    (hruns : CoreRuns s k (.pm none 0 0 0 ⟨.load p md r, .none⟩)) :
    Completes (.parallelMove k ⟨.load p md r, .none⟩) s fun t =>
      seenAfter t k 1 r % 2 ^ 32 = (arrGet s .brlX (1 + k) (0x10000 * k + q)).toNat % 2 ^ 32 ∧
      (md = true → seenAfter t k 0 (32 + p) % 2 ^ 24 = ((q + (brlCore s k).sslot 24 (40 + p)) % 2 ^ 24).toNat) ∧
      CoreFrame s t k [] [r, 32 + p] := by
  have hp : p.val < 4 := p.isLt
  generalize hea : brlEa (brlCore s k) p (if md then 2 else 0) 0 = ea
  have addr : ea.addr = q := by
    rw [← hea]
    simp only [brlEa, hp, if_true, ← hptr]
    omega
  have co : ea.co = false := by
    rw [← hea]
    simp only [brlEa, hp, if_true]
  have next (h : md = true) : ea.next = some ((q + (brlCore s k).sslot 24 (40 + p)) % 2 ^ 24).toNat := by
    rw [← hea, h]
    simp only [brlEa, hp, if_true, ← hptr]
  have place : brlPlace s k false ea.addr = .own .brlX (0x10000 * k + q) := by
    rw [addr]
    simp only [brlPlace, hq, if_true, Bool.false_eq_true, if_false]
  obtain ⟨word, pointer, frame⟩ := load_seen (s := s) (k := k) (c0 := brlCore s k) (u := ⟨false, p, r, false, ea⟩) rfl
    (show r.val < 16 by omega) hr place (show p.val < 8 by omega)
  refine completes_brl (u := brlAccess s k (brlCore s k) false ⟨false, p, r, false, ea⟩) rfl hup hruns (by rw [← hea]; rfl) ?_
  refine ⟨word, fun h => (pointer hland _ (next h)).trans ?_, frame _ (by simp) (by simp) (by simp [co])⟩
  omega

/-- A parallel store on Y. -/
theorem moveStore_completes {s : State} {k p : Fin 4} {md : Bool} {r : Fin 8} {q : Nat} (hup : Up s) (hq : q < 0x10000)
    (hptr : q = (brlCore s k).slot (36 + p)) (hruns : CoreRuns s k (.pm none 0 0 0 ⟨.none, .store p md r⟩)) :
    Completes (.parallelMove k ⟨.none, .store p md r⟩) s fun t =>
      t.arrays = (arrSet s .brlY (0x10000 * k + q) (BitVec.ofNat 64 ((brlCore s k).slot r % 2 ^ 32))).arrays ∧
      ∀ a, readByte t.dram a = readByte s.dram a := by
  have hp : ¬ 4 + p.val < 4 := by omega
  have slot : 32 + (4 + p.val) = 36 + p := by omega
  generalize hea : brlEa (brlCore s k) (4 + p) (if md then 1 else 0) 0 = ea
  have addr : ea.addr = q := by
    rw [← hea]
    cases md
    · simp only [brlEa, hp, if_false, slot, ← hptr]
      exact circ_zero (by omega) ..
    · simp only [brlEa, hp, if_false, slot, ← hptr]
      exact circ_zero (by omega) ..
  have place : brlPlace s k true ea.addr = .own .brlY (0x10000 * k + q) := by
    rw [addr]
    simp only [brlPlace, hq, if_true]
  obtain ⟨arrays, dram, -, -⟩ := store_seen (s := s) (k := k) (c0 := brlCore s k) (u := ⟨true, 4 + p, r, true, ea⟩) rfl place
    (show 4 + p.val < 8 by omega)
  refine completes_brl (u := brlAccess s k (brlCore s k) false ⟨true, 4 + p, r, true, ea⟩) rfl hup hruns
    (by rw [← hea]; rfl) ?_
  exact ⟨arrays, fun a => by rw [dram]⟩

/-! ## MAC operations -/

/-- CMACZ begins from zero, so its sums fit. -/
theorem fits_acc {x : Int} (h : -2 ^ 31 ≤ x ∧ x ≤ 2 ^ 31) : max (-(2 ^ 39 - 1)) (min (2 ^ 39 - 1) x) = x := by omega

end Sys2Proof.Machine
end

namespace Sys2Proof
open Machine

/-- Settles O42: an accumulator's write is due with the sum saturated, whatever moves stand beside the operation, and AV is
set by each accumulator that saturates. -/
theorem accumulatorsSaturate : Obligations.AccumulatorsSaturate := by
  unfold Obligations.AccumulatorsSaturate
  refine ⟨fun s k acc rs rt c m x hup hcm hx h64 h52 hruns => ?_,
    fun s k p rs rt mv c m x y hup hcm hx hy h64 h65 h52 hruns => ?_⟩
  · obtain ⟨hc, hm, hz⟩ : exec c s = run (fun s => brlIssue s k (.pm (some m) acc rs rt ⟨.none, .none⟩)) s ∧
        macSingle m = true ∧ m ≠ .cmacz := by
      simp only [List.mem_cons, List.not_mem_nil, or_false, Prod.mk.injEq] at hcm
      obtain ⟨rfl, rfl⟩ | ⟨rfl, rfl⟩ := hcm <;> exact ⟨rfl, rfl, nofun⟩
    obtain ⟨t, done, sum, -, av, -⟩ := completes_macSingle hc hup hruns h64 h52 (x := x)
      (by rw [hx, macSum, if_neg hz]) hm acc.isLt rfl
    exact ⟨t, done, sum, av⟩
  · obtain ⟨hc, hm⟩ : exec c s = run (fun s => brlIssue s k (.pm (some m) (2 * p.val) rs rt mv)) s ∧ macSingle m = false := by
      simp only [List.mem_cons, List.not_mem_nil, or_false, Prod.mk.injEq] at hcm
      obtain ⟨rfl, rfl⟩ | ⟨rfl, rfl⟩ | ⟨rfl, rfl⟩ | ⟨rfl, rfl⟩ | ⟨rfl, rfl⟩ | ⟨rfl, rfl⟩ := hcm <;> exact ⟨rfl, rfl⟩
    obtain ⟨t, done, real, imag, av, -⟩ := completes_macPair hc hup hruns h64 h52 hx hm (by omega) rfl (by omega) h65 hy
    exact ⟨t, done, real, imag, av⟩

/-- Settles O32: the sums of the MAC operations as O42 has them, with CMACZ's too small to saturate; moves and accumulator
writes each by what they put in the pipeline. -/
theorem berylMacCompletes : Obligations.BerylMacCompletes := by
  unfold Obligations.BerylMacCompletes
  refine ⟨fun s k acc rs rt A B hup hA hB h64 h68 h52 => ?_, fun s k p rs rt mv A B e o hup hA hB he ho he' ho' _ _ h52 => ?_,
    fun s k p md r q hup hq => ⟨fun hptr hr hland hruns => moveLoad_completes hup hq hptr hr hland hruns,
      fun hptr hruns => moveStore_completes hup hq hptr hruns⟩,
    fun s k acc p rd sc hup hsc hrd h52 => ⟨mova_completes hup hsc hrd h52, movac_completes hup hsc hrd h52⟩,
    fun s k acc rs mask hup hland => ⟨movda_completes hup (hland acc acc.isLt).1 (hland acc acc.isLt).2,
      clra_completes hup hland⟩⟩
  · subst hA hB
    refine ⟨fun hruns => ?mac, fun hruns => ?msu⟩
    case mac =>
      obtain ⟨t, done, sum, moved, av, frame⟩ := completes_macSingle (c := .mac k acc rs rt)
        rfl hup hruns h64 h52 rfl rfl acc.isLt rfl
      exact ⟨t, done, sum, moved h68, fun h => av (.inr h), frame⟩
    case msu =>
      obtain ⟨t, done, sum, -, -, frame⟩ := completes_macSingle (c := .msu k acc rs rt)
        rfl hup hruns h64 h52 rfl rfl acc.isLt rfl
      exact ⟨t, done, sum, frame⟩
  · subst hA hB
    have pair {c : Instr} {m : BrlMac} {x y : Int}
        (hc : exec c s = run (fun s => brlIssue s k (.pm (some m) (2 * p.val) rs rt mv)) s)
        (hruns : CoreRuns s k (.pm (some m) (2 * p.val) rs rt mv)) (hm : macSingle m = false)
        (hx : x = macSum (brlCore s k) m (2 * p.val) (macTerms m ((brlCore s k).slot rs) ((brlCore s k).slot rt)).1)
        (hy : y = macSum (brlCore s k) m (2 * p.val + 1) (macTerms m ((brlCore s k).slot rs) ((brlCore s k).slot rt)).2) :
        Completes c s fun t => toSigned 40 (seenAfter t k 0 e) = max (-(2 ^ 39 - 1)) (min (2 ^ 39 - 1) x) ∧
          toSigned 40 (seenAfter t k 0 o) = max (-(2 ^ 39 - 1)) (min (2 ^ 39 - 1) y) ∧
          (mv = ⟨.none, .none⟩ → CoreFrame s t k [] [e, o, e + 4, o + 4, 52]) := by
      obtain ⟨t, done, real, imag, -, frame⟩ := completes_macPair hc hup hruns (he ▸ he')
        h52 hx hm (by omega) he (by omega) ho' hy
      exact ⟨t, done, real, imag, frame⟩
    refine ⟨fun hruns => pair rfl hruns rfl rfl rfl, fun hruns => pair rfl hruns rfl rfl rfl,
      fun hruns => pair rfl hruns rfl rfl rfl, fun hruns => pair rfl hruns rfl rfl rfl,
      fun hruns => pair rfl hruns rfl rfl rfl, fun hruns => ?cmacz⟩
    obtain ⟨t, done, real, imag, frame⟩ := pair (c := .cmacz k p rs rt mv) rfl hruns rfl rfl rfl
    have hA := And.intro (hiOf_bounds ((brlCore s k).slot rs)) (loOf_bounds ((brlCore s k).slot rs))
    have hB := And.intro (hiOf_bounds ((brlCore s k).slot rt)) (loOf_bounds ((brlCore s k).slot rt))
    have hh := halves_mul_bounds hA.1 hB.1
    have hl := halves_mul_bounds hA.1 hB.2
    have lh := halves_mul_bounds hA.2 hB.1
    have ll := halves_mul_bounds hA.2 hB.2
    simp only [macSum, if_true, macTerms, zero_add] at real imag
    exact ⟨t, done, real.trans (fits_acc (by omega)), imag.trans (fits_acc (by omega)), frame⟩

end Sys2Proof

section
/-! Immediates, address registers, C memory, loads and stores of a Beryl core, and the fault of an undefined word (R274, R282,
R288, R293). -/
namespace Sys2Proof.Machine

/-! ## Faults -/

theorem notMem_faultRegs_of_coreReg {k a : Nat} (hk : k < 4) (ha : CoreReg k a) : a ∉ faultRegs := fun hm => by
  have low : ∀ b ∈ faultRegs, 0x1800000 ≤ b := by decide
  have := low a hm
  have := ha.2
  omega

theorem getB_fault (s : State) {n : Nat} (hn : n < 32) : getB (fault s n) R.HLT_FAULT n = true := by
  have kept := (Keeps.refl (c := R.HLT_FAULT) (b := true)
    (wr s R.HLT_FAULT (rd s R.HLT_FAULT ||| (1 : Word) <<< n))).faultRecord (by decide) s
  have word : rd (fault s n) R.HLT_FAULT = rd s R.HLT_FAULT ||| (1 : Word) <<< n := kept.word.trans (rd_wr_same ..)
  rw [getB, word]
  simp [hn]

/-- A core that stops leaves its status, its PC and its fault bit behind. -/
theorem faulted_brlFault (s : State) {k cause : Nat} (hk : k < 4) (hcause : cause < 16) :
    CoreFaulted s (brlFault s k cause) k cause := by
  generalize ht : setF (setF s (F.BRL_FAULT_PC_PC k) (brlPc s k)) (F.BRL_STATUS_CAUSE k) cause = t
  have unfolded : brlFault s k cause =
      fault (raise (setBrl (setF t (F.BRL_STATUS_STATE k) 4) k BrlCore.drained) (21 + k)) 16 := by rw [← ht]; rfl
  have read (f : Fld) (hf : CoreReg k f.addr) : getF (brlFault s k cause) f = getF (setF t (F.BRL_STATUS_STATE k) 4) f := by
    refine getF_of_word ?_
    rw [unfolded]
    exact ((((Keeps.refl (b := true) _).setBrl k _).raise _).fault (notMem_faultRegs_of_coreReg hk hf) 16).word
  have addr : R.BRL_FAULT_PC k ≠ R.BRL_STATUS k := by simp [R.BRL_FAULT_PC, R.BRL_STATUS]
  have beside (t : State) (f : Fld) (hf : f.addr = R.BRL_STATUS k) {v : Nat} :
      getF (setF t f v) (F.BRL_FAULT_PC_PC k) = getF t (F.BRL_FAULT_PC_PC k) := getF_of_word (rd_wr_ne t _ (hf ▸ addr))
  refine ⟨?_, ?_, ?_, unfolded ▸ getB_fault _ (by decide), ?_⟩
  · exact (read (F.BRL_STATUS_STATE k) (by unfold CoreReg; simp only [R.BRL_STATUS]; omega)).trans (brlState_setState t k 4)
  · rw [read (F.BRL_STATUS_CAUSE k) (by unfold CoreReg; simp only [R.BRL_STATUS]; omega),
      getF_setF_beside t 4 (by decide) (by decide), ← ht, getF_setF_field _ _ (by decide)]
    exact Nat.mod_eq_of_lt hcause
  · rw [read (F.BRL_FAULT_PC_PC k) (by unfold CoreReg; simp only [R.BRL_FAULT_PC]; omega),
      beside t (F.BRL_STATUS_STATE k) rfl, ← ht, beside _ (F.BRL_STATUS_CAUSE k) rfl, getF_setF_field _ _ (by decide)]
    exact Nat.mod_eq_of_lt (brlPc_lt s k)
  · exact ((Keeps.refl s).brlFault (c := 0) (k := k) (by unfold CoreReg; omega) (by decide) cause).memorySame

/-- Of an instruction with an undefined encoding the core stops with cause 1. -/
theorem completes_badEncoding {c : Instr} {s : State} {k : Nat} {op : BrlOp}
    (hc : exec c s = run (fun s => brlIssue s k op) s) (hup : Up s) (hk : k < 4) (hissues : brlIssues s k = true)
    (hbad : badEncoding op = true) : Completes c s fun t => CoreFaulted s t k 1 := by
  have cause : brlCause s k op = some 1 := by simp only [brlCause, hbad, if_true]
  refine completes_run hc hup ?_
  simp only [brlIssue, brlExecute, hissues, cause, if_true]
  exact faulted_brlFault s hk (by decide)

/-! ## Address registers -/

theorem aregMask_lt (a : Nat) : aregMask a < 2 ^ 64 := by
  unfold aregMask
  split_ifs <;> decide

/-- The loop counts are read-only (R274). -/
theorem aregMask_loop {a : Nat} (ha : 21 ≤ a) : aregMask a = 0 := by
  rw [aregMask, if_neg (by omega), if_neg (by omega), if_neg (by omega)]

theorem due_putAreg {c : BrlCore} {a : Nat} (h : c.pend (32 + a) = []) (v : Nat) :
    (c.putAreg a v).Due (32 + a) (c.count + 3) (merged (c.file.get 0 (32 + a)) (aregMask a) v) := by
  unfold BrlCore.putAreg
  split
  · exact (BrlCore.Due.of_put h ..).put_ne (by omega)
  · exact BrlCore.Due.of_put h ..

/-- An instruction that writes address register `a` with `v`. -/
theorem completes_areg {c : Instr} {s : State} {k a v : Nat} {op : BrlOp} (hc : exec c s = run (fun s => brlIssue s k op) s)
    (hup : Up s) (hruns : CoreRuns s k op)
    (heffect : brlEffect (ldcStall s k op) k op false = (setBrl s k (·.putAreg a v), .seq)) (ha : a < 32)
    (hland : Landed s k (32 + a)) : Completes c s fun t =>
      Nat.land (seenAfter t k 2 (32 + a)) (aregMask a) = Nat.land v (aregMask a) ∧ CoreFrame s t k [] [32 + a, 72] := by
  refine completes_brl hc hup hruns heffect ⟨?_, Acted.coreFrame (.of_setBrl ?_)⟩
  · by_cases loop : 21 ≤ a
    · rw [aregMask_loop loop]
      exact (Nat.and_zero _).trans (Nat.and_zero _).symm
    · have count : ((brlCore s k).putAreg a v).count = (brlCore s k).count := by unfold BrlCore.putAreg; split <;> rfl
      have due := due_putAreg (pend_nil_of_landed hland) v
      rw [← count, ← brlCore_setBrl_same s k (·.putAreg a v)] at due
      have slot : 32 + a ∉ loopSlots := notMem_loopSlots_of_lt (by omega)
      rw [seenAfter_brlAdvance .seq due slot (by decide) (by decide)]
      exact land_merged _ (aregMask_lt a) v
  · exact (BrlCore.Writes.refl ..).putAreg (by simp) (by simp) v

/-! ## Results in a D register -/

/-- An instruction that only writes D register `d`, seen by the next one. -/
theorem completes_plain {c : Instr} {s : State} {k d v : Nat} {op : BrlOp} {post : State → Prop}
    (hc : exec c s = run (fun s => brlIssue s k op) s) (hup : Up s) (hruns : CoreRuns s k op)
    (heffect : brlEffect (ldcStall s k op) k op false = (setBrl s k (·.putD 1 d v), .seq)) (hd : d < 16)
    (hland : Landed s k d)
    (hp : ∀ t, seenAfter t k 0 d % 2 ^ 32 = v % 2 ^ 32 → CoreFrame s t k [] [d] → post t) : Completes c s post :=
  completes_outcome (dst := [d]) (o := aluPlain false v) hc hup hruns heffect (.inl rfl) hd (fun _ => hland)
    (fun h => h.elim (absurd rfl) nofun) (fun h => absurd rfl h) ⟨fun _ => by simp, fun h => absurd rfl h, nofun⟩
    fun t seen frame => hp t (seen.val v rfl) frame

theorem cmpk_completes {s : State} {k : Fin 4} {rd : Fin 16} {imm : BitVec 16} {A : Nat} (hup : Up s)
    (hA : A = (brlCore s k).slot rd) (h52 : Landed s k 52) (h72 : Landed s k 72) (hruns : CoreRuns s k (.cmpk rd imm.toNat)) :
    Completes (.cmpk k rd imm) s fun t =>
      bitOf (seenAfter t k 0 52) 2 = ((A + 2 ^ 33 - ofSigned 32 imm.toInt) % 2 ^ 32 == 0) ∧
      bitOf (seenAfter t k 0 52) 1 = decide (ofSigned 32 imm.toInt ≤ A) ∧ CoreFrame s t k [] [52, 72] := by
  subst hA
  generalize hB : ofSigned 32 imm.toInt = B
  generalize hf : nzcv (((brlCore s k).slot rd + 2 ^ 33 - B) % 2 ^ 32) (B ≤ (brlCore s k).slot rd)
    (toSigned 32 ((brlCore s k).slot rd) - toSigned 32 B != toSigned 32 (((brlCore s k).slot rd + 2 ^ 33 - B) % 2 ^ 32)) = f
  obtain ⟨hlt, -, hz, hcy, -⟩ := hf ▸ nzcv_bits ..
  have flags : (aluSub ((brlCore s k).slot rd) (ofSigned 32 (toSigned 16 imm.toNat)) 0).flags.getD 0 = f := by
    rw [toSigned_toNat, hB, aluSub_noBorrow, ← hf]
    rfl
  refine completes_outcome (d := 0) (dst := [52, 72]) (o := ⟨none, false, some f, false⟩) rfl hup hruns rfl
    (.inl (by rw [← flags]; rfl)) (by decide) (fun h => absurd rfl h) (fun _ => h52) (fun _ => h72)
    ⟨fun h => absurd rfl h, fun _ => by simp, nofun⟩ fun t seen frame => ?_
  have sr : seenAfter t k 0 52 % 2 ^ 4 = f % 2 ^ 4 := (seen.flags f rfl rfl).1
  exact ⟨(bitOf_congr sr (by decide)).trans hz, (bitOf_congr sr (by decide)).trans hcy, frame⟩

/-! ## C memory -/

/-- The cycle that an LDC may stall is counted, and nothing else changed. -/
theorem acted_ldcStall (s : State) (k : Nat) (op : BrlOp) (dst : List Nat) :
    Acted [R.BRL_STALL_COUNT k] dst k s (ldcStall s k op) := by
  have none : Acted [R.BRL_STALL_COUNT k] dst k s s := ⟨.refl s, rfl, .refl ..⟩
  unfold ldcStall
  split
  · dsimp only
    split
    · exact none
    · have cycles : leadRegs k ⊆ seqRegs k ++ [R.BRL_STALL_COUNT k] :=
        List.Subset.trans (leadRegs_subset k) (List.subset_append_left ..)
      refine ⟨((Local.refl s).bump (by simp)).brlCycles cycles 1, ?_, .refl ..⟩
      rw [brlPc_brlCycles]
      exact ((Local.refl s).bump (regs := [R.BRL_STALL_COUNT k]) (k := k) (by simp)).getF
        (by simp [R.BRL_PC, R.BRL_STALL_COUNT])
  · exact none

theorem brlCore_ldcStall (s : State) (k : Nat) (op : BrlOp) : brlCore (ldcStall s k op) k = brlCore s k := by
  unfold ldcStall
  split
  · dsimp only
    split <;> rfl
  · rfl

theorem arrGet_ldcStall (s : State) (k : Nat) (op : BrlOp) (x : Arr) (d i : Nat) :
    arrGet (ldcStall s k op) x d i = arrGet s x d i := by
  unfold ldcStall
  split
  · dsimp only
    split <;> rfl
  · rfl

theorem ldc_completes {s : State} {k : Fin 4} {rd : Fin 16} {p : Fin 8} {disp : BitVec 12} {a : Nat} (hup : Up s)
    (ha : a = (((brlCore s k).slot (32 + p) + disp.toInt) % 2 ^ 15).toNat) (hrd : Landed s k rd)
    (hruns : CoreRuns s k (.ldc rd p disp.toNat)) : Completes (.ldc k rd p disp) s fun t =>
      seenAfter t k 1 rd % 2 ^ 32 = (arrGet s .brlC (1 + k) (0x10000 * k + a)).toNat % 2 ^ 32 ∧
      CoreFrame s t k [R.BRL_STALL_COUNT k] [rd] := by
  subst ha
  have acted := acted_ldcStall s k (.ldc rd p disp.toNat) [rd.val]
  have core := brlCore_ldcStall s k (.ldc rd p disp.toNat)
  have array := arrGet_ldcStall s k (.ldc rd p disp.toNat) .brlC
  generalize ht : ldcStall s k (.ldc rd p disp.toNat) = t at acted core array
  generalize hw :
    (arrGet s .brlC (1 + k) (0x10000 * k + (((brlCore s k).slot (32 + p) + disp.toInt) % 2 ^ 15).toNat)).toNat = w
  have word : cWord t k (((brlCore t k).slot (32 + p) + toSigned 12 disp.toNat) % 2 ^ 15).toNat = w % 2 ^ 32 := by
    have wrapped : (((brlCore s k).slot (32 + p) + disp.toInt) % 2 ^ 15).toNat % 32768 =
        (((brlCore s k).slot (32 + p) + disp.toInt) % 2 ^ 15).toNat := by omega
    rw [core, toSigned_toNat, cWord, array, wrapped, ← hw]
  have wrote : Acted [R.BRL_STALL_COUNT k] [rd.val] k s (setBrl t k (·.putD 2 rd (w % 2 ^ 32))) :=
    acted.setBrl fun _ h => h.put (by simp) ..
  refine completes_brl (u := setBrl t k (·.putD 2 rd (w % 2 ^ 32))) rfl hup hruns (by rw [← word, ← ht]; rfl)
    ⟨?_, wrote.coreFrame⟩
  have due := BrlCore.Due.of_put (pend_nil_of_landed hrd) 2 (2 ^ 32 - 1) (w % 2 ^ 32)
  have count : (brlCore (setBrl t k (·.putD 2 rd (w % 2 ^ 32))) k).count = (brlCore s k).count := wrote.core.count
  change BrlCore.Due ((brlCore s k).putD 2 rd (w % 2 ^ 32)) _ _ _ at due
  rw [← count, ← core, ← brlCore_setBrl_same t k (·.putD 2 rd (w % 2 ^ 32))] at due
  have slot : rd.val ∉ loopSlots := notMem_loopSlots_of_lt (by omega)
  rw [seenAfter_brlAdvance .seq due slot (by decide) (by decide)]
  exact (merged_mod _ (n := 32) (by decide) _).trans (Nat.mod_mod ..)

/-! ## Loads and stores -/

theorem load_completes {s : State} {k : Fin 4} {x : BrlAccess} {a : Ea} {arr : Arr} {i : Nat} (hup : Up s)
    (ha : a = brlEa (brlCore s k) x.p x.mode x.disp.toInt) (hplace : brlPlace s k x.y a.addr = .own arr i)
    (hd : Landed s k x.d) (hp : Landed s k (32 + x.p)) (hruns : CoreRuns s k (.load x)) : Completes (.ld k x) s fun t =>
      seenAfter t k 1 x.d % 2 ^ 32 = (arrGet s arr (1 + k) i).toNat % 2 ^ 32 ∧
      (∀ v, a.next = some v → seenAfter t k 0 (32 + x.p) % 2 ^ 24 = v % 2 ^ 24) ∧
      CoreFrame s t k [] [x.d, 32 + x.p, 52] := by
  subst ha
  obtain ⟨word, pointer, frame⟩ := load_seen (s := s) (k := k) (c0 := brlCore s k) (u := accessUse (brlCore s k) x false) rfl
    x.d.isLt hd hplace x.p.isLt
  exact completes_brl (u := brlAccess s k (brlCore s k) false (accessUse (brlCore s k) x false)) rfl hup hruns rfl
    ⟨word, pointer hp, frame _ (by simp [accessUse]) (by simp [accessUse]) fun _ => by simp⟩

theorem store_completes {s : State} {k : Fin 4} {x : BrlAccess} {a : Ea} {arr : Arr} {i : Nat} (hup : Up s)
    (ha : a = brlEa (brlCore s k) x.p x.mode x.disp.toInt) (hplace : brlPlace s k x.y a.addr = .own arr i)
    (hp : Landed s k (32 + x.p)) (hruns : CoreRuns s k (.store x)) : Completes (.st k x) s fun t =>
      t.arrays = (arrSet s arr i (BitVec.ofNat 64 ((brlCore s k).slot x.d % 2 ^ 32))).arrays ∧
      (∀ v, a.next = some v → seenAfter t k 0 (32 + x.p) % 2 ^ 24 = v % 2 ^ 24) ∧
      (∀ b, readByte t.dram b = readByte s.dram b) ∧
      RegsSameBut [R.BRL_PC k, R.BRL_CYCLES_LO k, R.BRL_CYCLES_HI k, R.BRL_STATUS k] s t := by
  subst ha
  obtain ⟨arrays, dram, words, pointer⟩ := store_seen (s := s) (k := k) (c0 := brlCore s k)
    (u := accessUse (brlCore s k) x true) rfl hplace x.p.isLt
  exact completes_brl (u := brlAccess s k (brlCore s k) false (accessUse (brlCore s k) x true)) rfl hup hruns rfl
    ⟨arrays, pointer hp, fun b => by rw [dram], words⟩

theorem stores_step (c : BrlCore) (p : Nat) (e : Ea) : (c.step p e).stores = c.stores := by
  unfold BrlCore.step BrlCore.stick
  cases e.next <;> cases e.co <;> rfl

theorem stores_brlAdvance (s : State) (k : Nat) (ctl : BrlCtl) :
    (brlCore (brlAdvance s k ctl) k).stores = (brlCore s k).stores := by
  rw [brlAdvance_eq, (rested_brlBoundary _ k).stores, (led_brlLead s k ctl).stores, brlCore_brlCounted]
  rfl

/-- A window store stands last in the write buffer. -/
theorem buffer_completes {s : State} {k : Fin 4} {x : BrlAccess} {a : Ea} {w : BrlTarget} (hup : Up s)
    (ha : a = brlEa (brlCore s k) x.p x.mode x.disp.toInt) (hplace : brlPlace s k x.y a.addr = .window w)
    (hruns : CoreRuns s k (.store x)) : Completes (.st k x) s fun t =>
      (brlCore t k).stores = (brlCore s k).stores ++ [⟨w, x.y, a.addr, BitVec.ofNat 32 ((brlCore s k).slot x.d)⟩] ∧
      CoreFrame s t k [] [32 + x.p, 52] := by
  subst ha
  refine completes_brl (u := brlAccess s k (brlCore s k) false (accessUse (brlCore s k) x true)) rfl hup hruns rfl ?_
  rw [brlAccess_buffer (u := accessUse (brlCore s k) x true) rfl hplace]
  refine ⟨?_, Acted.coreFrame (Acted.setBrl (.of_setBrl ⟨rfl, rfl, rfl, rfl, rfl, fun _ _ => rfl⟩) fun c' h => ?_)⟩
  · rw [stores_brlAdvance, brlCore_setBrl_same, stores_step, brlCore_setBrl_same]
    rfl
  · exact h.step (by simp [accessUse]) fun _ => by simp

end Sys2Proof.Machine
end

namespace Sys2Proof
open Machine

/-- Settles O33: an instruction puts its result in the pipeline of a D or an address register, loads and stores act on the
place their address leads to, and an undefined register number stops the core. -/
theorem berylLoadsAndImmediatesComplete : Obligations.BerylLoadsAndImmediatesComplete := by
  unfold Obligations.BerylLoadsAndImmediatesComplete
  refine ⟨fun s k rd imm A hup hA hrd h52 h72 => ⟨fun hruns => ?movk, fun hruns => ?movkh, fun hruns => ?addk,
      cmpk_completes hup hA h52 h72⟩,
    fun s k a rs rd imm off P hup hP ha _ hrd => ⟨fun hruns => ?la, fun hruns => ?movrTo, fun hruns => ?aadd,
      fun hruns => ?aaddk, fun hruns => ?movrFrom, fun hbad hissues => ?undefined⟩,
    fun s k rd p disp a hup ha hrd hruns => ldc_completes hup ha hrd hruns,
    fun s k x a arr i hup ha hplace hd hp => ⟨load_completes hup ha hplace hd hp, store_completes hup ha hplace hp⟩,
    fun s k x a w hup ha hplace hruns => buffer_completes hup ha hplace hruns⟩
  case movk =>
    obtain ⟨lower, upper⟩ : -2 ^ 15 ≤ imm.toInt ∧ imm.toInt < 2 ^ 15 := toSigned_toNat imm ▸ toSigned_bounds 16 imm.toNat
    refine completes_plain rfl hup hruns rfl rd.isLt hrd fun t val frame =>
      ⟨toSigned_of_mod ?_ (by omega) (by omega) (by decide), frame⟩
    rw [val, toSigned_toNat]
  case movkh =>
    refine completes_plain rfl hup hruns rfl rd.isLt hrd fun t val frame => ⟨val.trans ?_, frame⟩
    rw [hA, brlCore_ldcStall]
    omega
  case addk =>
    refine completes_plain rfl hup hruns rfl rd.isLt hrd fun t val frame => ⟨val.trans ?_, frame⟩
    rw [Nat.mod_mod, toSigned_toNat, add_ofSigned_mod, hA, brlCore_ldcStall]
  case la => exact completes_areg rfl hup hruns rfl a.isLt ha
  case movrTo => exact completes_areg rfl hup hruns rfl a.isLt ha
  case aadd => exact completes_areg rfl hup hruns (by rw [hP]; rfl) a.isLt ha
  case aaddk => exact completes_areg rfl hup hruns (by rw [hP, ← toSigned_toNat off]; rfl) a.isLt ha
  case movrFrom =>
    refine completes_plain rfl hup hruns rfl rd.isLt hrd fun t val frame => ⟨val.trans ?_, frame⟩
    rw [BrlCore.areg, hP]
    split
    · exact Nat.mod_eq_of_lt (ofSigned_lt 32 _)
    · rfl
  case undefined => exact completes_badEncoding rfl hup k.isLt hissues (decide_eq_true hbad)

end Sys2Proof

section
/-! Control instructions of a Beryl core (R284 to R292). -/
namespace Sys2Proof.Machine

/-! ## What issue implies -/

/-- A core that issues is in RUN and not about to halt. -/
theorem running_of_issues {s : State} {k : Nat} (h : brlIssues s k = true) :
    domLive s (1 + k) = true ∧ brlState s k = 1 ∧ (brlCore s k).halt = false := by
  simp only [brlIssues, Bool.and_eq_true, beq_iff_eq, Bool.not_eq_true'] at h
  obtain ⟨⟨⟨live, state⟩, halt⟩, -⟩ := h
  exact ⟨live, state, halt⟩

/-- LOOP, ITER and branches run at no delay slot; LOOP and branches not under an ITER (R284, R285). -/
theorem straight_of_cause {s : State} {k : Nat} {op : BrlOp} (h : brlCause s k op = none) (hop : isRepeatOrBranch op = true) :
    (brlCore s k).slots = 0 ∧ (brlCore s k).iter = 0 := by
  have iterable : notIterable op = true := by
    unfold notIterable
    split
    · rfl
    · rfl
    · rfl
    · exact hop
  by_contra repeats
  simp only [brlCause, hop, iterable, Bool.and_true] at h
  have inside : (decide (0 < (brlCore s k).slots) || decide (0 < (brlCore s k).iter)) = true := by simp; omega
  rw [inside] at h
  split at h <;> simp at h

/-! ## Branches and ITER -/

/-- After a branch the core has two delay slots before it and its target, and the rest of what it holds. -/
theorem brlAdvance_branch (u : State) (k : Nat) (target : Option Nat) :
    (brlCore (brlAdvance u k (.branch target)) k).slots = 2 ∧
    (brlCore (brlAdvance u k (.branch target)) k).target = target ∧
    (brlCore (brlAdvance u k (.branch target)) k).stack = (brlCore u k).stack ∧
    brlPc (brlAdvance u k (.branch target)) k = (brlPc u k + 1) % 32768 := by
  have core : brlCore (brlBranch u k target) k =
      { brlCore (brlCounted u k) k with slots := 2, target := target, fresh := false } := by
    rw [brlBranch, brlCore_setBrlPc, brlCore_setBrl_same]
  have rested := rested_brlBoundary (brlBranch u k target) k
  rw [brlAdvance_eq, brlLead, brlPc_brlBoundary, rested.slots, rested.target, rested.stack, core, brlCore_brlCounted]
  exact ⟨rfl, rfl, rfl, brlPc_brlBranch u k target⟩

theorem brlAdvance_iter (u : State) (k n : Nat) : (brlCore (brlAdvance u k (.iter n)) k).iter = n ∧
    brlPc (brlAdvance u k (.iter n)) k = (brlPc u k + 1) % 32768 := by
  rw [brlAdvance_eq, brlPc_brlBoundary, (rested_brlBoundary _ k).iter]
  refine ⟨?_, brlPc_brlIterate u k n⟩
  rw [brlLead, brlIterate, brlCore_setBrlPc, brlCore_setBrl_same]

/-- Going on from a state that only the core itself tells from `s` leaves memory alone. -/
theorem memorySame_brlAdvance {s u : State} {k : Nat} (h : Local (seqRegs k) k s u) (ctl : BrlCtl) :
    MemorySame s (brlAdvance u k ctl) := (h.brlAdvance (List.Subset.refl _) ctl).memorySame

section branches
variable {s : State} {k : Fin 4} {cond : Fin 16} {target : BitVec 15} (hup : Up s)
include hup

theorem branch_completes (hruns : CoreRuns s k (.branch cond target.toNat false)) :
    Completes (.branch k cond target) s fun t =>
      (brlCore t k).slots = 2 ∧ (brlCore t k).stack = (brlCore s k).stack ∧
      (brlCore t k).target = (if condHolds cond ((brlCore s k).slot 72) = true then some target.toNat else none) ∧
      brlPc t k = (brlPc s k + 1) % 32768 ∧ MemorySame s t := by
  refine completes_brl (u := s)
    (ctl := .branch (if condHolds cond ((brlCore s k).slot 72) = true then some target.toNat else none)) rfl hup hruns ?_ ?_
  · simp only [brlEffect, ldcStall]
    split
    · next holds => simp [holds]
    · next fails => simp [fails]
  · obtain ⟨slots, goal, stack, pc⟩ := brlAdvance_branch s k
      (if condHolds cond ((brlCore s k).slot 72) = true then some target.toNat else none)
    exact ⟨slots, stack, goal, pc, memorySame_brlAdvance (.refl s) _⟩

theorem call_completes (hruns : CoreRuns s k (.branch cond target.toNat true)) :
    Completes (.call k cond target) s fun t =>
      (brlCore t k).slots = 2 ∧ brlPc t k = (brlPc s k + 1) % 32768 ∧ MemorySame s t ∧
      if condHolds cond ((brlCore s k).slot 72) = true then
        (brlCore t k).target = some target.toNat ∧
        (brlCore t k).stack = (brlCore s k).stack ++ [⟨(brlPc s k + 3) % 32768, none, (brlCore s k).base, false⟩]
      else (brlCore t k).target = none ∧ (brlCore t k).stack = (brlCore s k).stack := by
  by_cases holds : condHolds cond ((brlCore s k).slot 72) = true
  · refine completes_brl
      (u := setBrl s k fun c => { c with stack := c.stack ++ [⟨(brlPc s k + 3) % 32768, none, c.base, false⟩] })
      (ctl := .branch (some target.toNat)) rfl hup hruns (by simp [brlEffect, ldcStall, holds]) ?_
    generalize hu : setBrl s k _ = u
    obtain ⟨slots, goal, stack, pc⟩ := brlAdvance_branch u k (some target.toNat)
    rw [if_pos holds, goal, stack, pc, slots, ← hu, brlCore_setBrl_same]
    exact ⟨rfl, rfl, memorySame_brlAdvance ((Local.refl s).setBrl _) _, rfl, rfl⟩
  · refine completes_brl (u := s) (ctl := .branch none) rfl hup hruns (by simp [brlEffect, ldcStall, holds]) ?_
    obtain ⟨slots, goal, stack, pc⟩ := brlAdvance_branch s k none
    rw [if_neg holds]
    exact ⟨slots, pc, memorySame_brlAdvance (.refl s) _, goal, stack⟩

variable {e : BrlReturn} (he : (brlCore s k).stack.getLast? = some e)
include he

theorem ret_completes (hruns : CoreRuns s k .ret) : Completes (.ret k) s fun t =>
    (brlCore t k).slots = 2 ∧ (brlCore t k).target = some e.addr ∧
    (brlCore t k).stack = (brlCore s k).stack.dropLast ∧ MemorySame s t := by
  refine completes_brl (u := setBrl s k fun c => { c with stack := c.stack.dropLast, base := e.base, resume := e.fresh })
    (ctl := .branch (some e.addr)) rfl hup hruns (by simp only [brlEffect, ldcStall, he]) ?_
  generalize hu : setBrl s k _ = u
  obtain ⟨slots, goal, stack, -⟩ := brlAdvance_branch u k (some e.addr)
  rw [goal, stack, slots, ← hu, brlCore_setBrl_same]
  exact ⟨rfl, rfl, rfl, memorySame_brlAdvance ((Local.refl s).setBrl _) _⟩

theorem reti_completes (hruns : CoreRuns s k .reti) (h52 : Landed s k 52) : Completes (.reti k) s fun t =>
    (brlCore t k).slots = 2 ∧ (brlCore t k).target = some e.addr ∧
    (brlCore t k).stack = (brlCore s k).stack.dropLast ∧ MemorySame s t ∧
    (∀ v, e.sr = some v → Nat.land (seenAfter t k 2 52) (aregMask 20) = Nat.land v.toNat (aregMask 20)) := by
  generalize hf : (fun c : BrlCore => { (c.putAreg 20 (returnSr s e)) with
    stack := c.stack.dropLast, base := e.base, resume := e.fresh }) = f
  generalize hu : (if e.sr.isNone then freeTaken (setBrl s k f) else setBrl s k f) = u
  have core : brlCore u k = f (brlCore s k) := by
    rw [← hu]
    split <;> exact brlCore_setBrl_same ..
  have beside : Local (seqRegs k) k s u := by
    rw [← hu]
    split
    · exact ((Local.refl s).setBrl f).freeTaken
    · exact (Local.refl s).setBrl f
  refine completes_brl (u := u) (ctl := .branch (some e.addr)) rfl hup hruns
    (by simp only [brlEffect, ldcStall, he, ← hu, ← hf]) ?_
  obtain ⟨slots, goal, stack, -⟩ := brlAdvance_branch u k (some e.addr)
  rw [goal, stack, slots, core]
  refine ⟨rfl, rfl, by rw [← hf], memorySame_brlAdvance beside _, fun v hv => ?_⟩
  have due := due_putAreg (c := brlCore s k) (a := 20) (pend_nil_of_landed h52) (returnSr s e)
  have held : (brlCore u k).Due 52 ((brlCore u k).count + 3)
      (merged ((brlCore s k).file.get 0 52) (aregMask 20) (returnSr s e)) := by
    rw [core, ← hf]
    exact due.congr rfl rfl
  rw [seenAfter_brlAdvance _ held (by decide) (by decide) (by decide), returnSr, hv]
  exact land_merged _ (aregMask_lt 20) v.toNat

end branches

/-! ## LOOP and ITER -/

/-- Before the end of the innermost LOOP the sequence goes on to the next instruction. -/
theorem brlSeq_inside {s : State} {k : Nat} (h : ∀ l, (brlCore s k).inner = some l → l.last ≠ brlPc s k) :
    ∃ f, brlCore (brlSeq s k) k = { brlCore s k with fresh := f } ∧ brlPc (brlSeq s k) k = (brlPc s k + 1) % 32768 := by
  unfold brlSeq
  dsimp only
  split
  · next l hl =>
    rw [if_neg (h l hl), brlPc_setBrlPc, brlCore_setBrlPc]
    split
    · exact ⟨_, rfl, rfl⟩
    · exact ⟨false, brlCore_setBrl_same .., rfl⟩
  · rw [brlPc_setBrlPc, brlCore_setBrlPc]
    exact ⟨_, rfl, rfl⟩

theorem loop_completes {s : State} {k : Fin 4} {intr : Bool} {count : BrlCount} {len : Fin 1024} (hup : Up s)
    (hruns : CoreRuns s k (.loop intr count len)) (hland : Landed s k (53 + (brlCore s k).levels.length)) :
    Completes (.loop k intr count len) s fun t =>
      (brlCore t k).levels =
        (brlCore s k).levels ++ [⟨(brlPc s k + 1) % 32768, brlPc s k + 1 + len.val, intr, false⟩] ∧
      seenAfter t k 0 (53 + (brlCore s k).levels.length) % 2 ^ 17 = countOf (brlCore s k) count ∧
      brlPc t k = (brlPc s k + 1) % 32768 ∧ MemorySame s t := by
  obtain ⟨slots, iter⟩ := straight_of_cause hruns.2.1 rfl
  generalize hn : 53 + (brlCore s k).levels.length = n at hland
  generalize hl : (⟨(brlPc s k + 1) % 32768, brlPc s k + 1 + len.val, intr, false⟩ : BrlLevel) = l
  generalize hv : countOf (brlCore s k) count = v
  have fits : v < 2 ^ 17 := by
    cases count with
    | imm i => rw [← hv, countOf]; omega
    | reg d => rw [← hv, countOf]; omega
  refine completes_brl (u := setBrl s k fun c => { (c.put 1 n 0x1FFFF v) with levels := c.levels ++ [l], fresh := true })
    (ctl := .seq) rfl hup hruns ?effect ?_
  case effect =>
    subst hn hl hv
    rfl
  generalize hu : setBrl s k _ = u
  have core : brlCore u k = { ((brlCore s k).put 1 n 0x1FFFF v) with levels := (brlCore s k).levels ++ [l], fresh := true } :=
    hu ▸ brlCore_setBrl_same ..
  have pc : brlPc u k = brlPc s k := hu ▸ rfl
  have counted : brlCore (brlCounted u k) k = BrlCore.landed { brlCore u k with count := (brlCore u k).count + 1 } :=
    brlCore_brlCounted u k
  have inner : ∀ l', (brlCore (brlCounted u k) k).inner = some l' → l'.last ≠ brlPc (brlCounted u k) k := by
    intro l' h
    have levels : (brlCore (brlCounted u k) k).levels = (brlCore s k).levels ++ [l] := by rw [counted, core]; rfl
    rw [BrlCore.inner, levels, List.getLast?_concat] at h
    split at h
    · cases h
      rw [brlPc_brlCounted, pc, ← hl]
      dsimp only
      omega
    · cases h
  obtain ⟨f, seq, next⟩ := brlSeq_inside inner
  have lead : brlLead u k .seq = brlSeq (brlCounted u k) k :=
    brlFollow_straight (by rw [core]; exact slots) (by rw [core]; exact iter)
  rw [brlAdvance_eq, lead]
  have rested := rested_brlBoundary (brlSeq (brlCounted u k) k) k
  have due : (brlCore (brlSeq (brlCounted u k) k) k).Due n ((brlCore s k).count + 1)
      (merged ((brlCore s k).file.get 0 n) 0x1FFFF v) := by
    rw [seq, counted, core]
    have put := BrlCore.Due.of_put (pend_nil_of_landed hland) 1 0x1FFFF v
    have landed : (BrlCore.landed { ((brlCore s k).put 1 n 0x1FFFF v) with count := (brlCore s k).count + 1 }).Due n
        ((brlCore s k).count + 1) (merged ((brlCore s k).file.get 0 n) 0x1FFFF v) := BrlCore.Due.landed ⟨put.due, put.word⟩
    exact landed.congr rfl rfl
  have number : (brlCore (brlSeq (brlCounted u k) k) k).count = (brlCore s k).count + 1 := by rw [seq, counted, core]; rfl
  refine ⟨?_, ?_, ?_, ?_⟩
  · rw [rested.levels, seq, counted, core]
    rfl
  · have shown := (due.rested rested (by omega) (by omega)).seen (n := 0) (by rw [rested.count]; omega)
    rw [seenAfter, shown]
    exact (merged_mod _ (n := 17) (by decide) v).trans (Nat.mod_eq_of_lt fits)
  · rw [brlPc_brlBoundary, next, brlPc_brlCounted, pc]
  · rw [← lead, ← brlAdvance_eq]
    exact memorySame_brlAdvance (hu ▸ (Local.refl s).setBrl _) _

theorem iter_completes {s : State} {k : Fin 4} {count : BrlCount} (hup : Up s) (hruns : CoreRuns s k (.iter count)) :
    Completes (.iter k count) s fun t => (brlCore t k).iter = countOf (brlCore s k) count ∧
      brlPc t k = (brlPc s k + 1) % 32768 ∧ MemorySame s t := by
  refine completes_brl (u := s) (ctl := .iter (countOf (brlCore s k) count)) rfl hup hruns rfl ?_
  obtain ⟨iter, pc⟩ := brlAdvance_iter s k (countOf (brlCore s k) count)
  exact ⟨iter, pc, memorySame_brlAdvance (.refl s) _⟩

end Sys2Proof.Machine
end

section
/-! HALT, WAIT, interrupts and events that a core's own instructions bring about (R289 to R292). -/
namespace Sys2Proof.Machine

/-! ## Status on the way to the boundary -/

theorem brlState_brlLead (s : State) (k : Nat) (ctl : BrlCtl) : brlState (brlLead s k ctl) k = brlState s k :=
  ((Local.refl s).brlLead (List.Subset.refl _) ctl).getF (notMem_leadRegs k (by decide))

theorem brlPc_brlPend (s : State) (k v : Nat) : brlPc (brlPend s k v) k = brlPc s k :=
  ((Local.refl s).brlPend (List.Subset.refl _) v).getF (by
    simp [pendRegs, R.BRL_PC, R.BRL_IRQ_PEND, R.BRL_IRQ_MERGE_COUNT, R.BRL_STATUS])

/-- Looking for a WAIT leaves a core that runs in RUN or WAIT, and what it holds but its writes under way. -/
theorem brlWaitCheck_running {s : State} {k : Nat} (h : brlState s k = 1) :
    (brlState (brlWaitCheck s k) k = 1 ∨ brlState (brlWaitCheck s k) k = 3) ∧
    (brlCore (brlWaitCheck s k) k).halt = (brlCore s k).halt := by
  unfold brlWaitCheck
  split
  · generalize hu : setBrl (setF s (F.BRL_STATUS_STATE k) 3) k BrlCore.drained = u
    have state : brlState u k = 3 := hu ▸ brlState_setState s k 3
    have core : brlCore u k = (brlCore s k).drained := by rw [← hu, brlCore_setBrl_same, brlCore_setF]
    obtain ⟨w, hw⟩ := brlCore_brlWake u k
    refine ⟨?_, by rw [hw, core]; rfl⟩
    unfold brlWake
    dsimp only
    split
    · exact .inl (brlState_setState u k 1)
    · exact .inr state
  · exact ⟨.inl h, rfl⟩

/-- A core that is to halt does so at the boundary where its write buffer is empty. -/
theorem brlState_brlBoundary_halt {s : State} {k : Nat} (h : brlState s k = 1) (hhalt : (brlCore s k).halt = true)
    (hstores : (brlCore s k).stores = []) : brlState (brlBoundary s k) k = 2 := by
  obtain ⟨state, halt⟩ := brlWaitCheck_running h
  have stores : (brlCore (brlWaitCheck s k) k).stores = [] := (rested_brlWaitCheck s k).stores.trans hstores
  rw [brlBoundary, brlSettle, if_pos ⟨state, stores, .inl (halt.trans hhalt)⟩, brlState_setBrl]
  exact brlState_setState _ k 2

/-- A core that executed WAIT waits while RUN stays set and no enabled vector is pending. -/
theorem brlState_brlBoundary_wait {s : State} {k : Nat} (hwait : (brlCore s k).waiting = true)
    (hhalt : (brlCore s k).halt = false) (hrun : flag s (F.BRL_CTRL_RUN k) = true)
    (hpend : rd s (R.BRL_IRQ_EN k) &&& rd s (R.BRL_IRQ_PEND k) = 0) : brlState (brlBoundary s k) k = 3 := by
  generalize hu : setBrl (setF s (F.BRL_STATUS_STATE k) 3) k BrlCore.drained = u
  have state : brlState u k = 3 := hu ▸ brlState_setState s k 3
  have beside (a : Nat) (ha : a ≠ R.BRL_STATUS k) : rd u a = rd s a := hu ▸ rd_wr_ne s _ ha
  have pend : rd u (R.BRL_IRQ_EN k) &&& rd u (R.BRL_IRQ_PEND k) = 0 := by
    rw [beside _ (by simp [R.BRL_IRQ_EN, R.BRL_STATUS]), beside _ (by simp [R.BRL_IRQ_PEND, R.BRL_STATUS]), hpend]
  have run : flag u (F.BRL_CTRL_RUN k) = true := by
    rw [flag, getF_of_word (beside _ (by simp [R.BRL_CTRL, R.BRL_STATUS]))]
    exact hrun
  have halt : (brlCore u k).halt = false := by rw [← hu, brlCore_setBrl_same]; exact hhalt
  have asleep : brlWaitCheck s k = u := by
    rw [brlWaitCheck, if_pos hwait, hu, brlWake, pend]
    simp
  rw [brlBoundary, asleep, brlSettle, if_neg, state]
  simp [halt, run]

/-! ## The instructions -/

section control
variable {s : State} {k : Fin 4} (hup : Up s)
include hup

theorem nop_completes (hruns : CoreRuns s k .nop) : Completes (.nop k) s fun t => CoreFrame s t k [] [] :=
  completes_brl (u := s) rfl hup hruns rfl (Acted.coreFrame ⟨.refl s, rfl, .refl ..⟩)

theorem fence_completes (hruns : CoreRuns s k .fence) : Completes (.fence k) s fun t =>
    (brlCore s k).stores = [] ∧ CoreFrame s t k [] [] := by
  have stalls := hruns.2.2
  have stores : (brlCore s k).stores = [] := by
    simp only [brlStalls, Bool.or_eq_false_iff, Bool.and_eq_false_iff] at stalls
    simpa using stalls.1
  exact completes_brl (u := s) rfl hup hruns rfl ⟨stores, Acted.coreFrame ⟨.refl s, rfl, .refl ..⟩⟩

theorem halt_completes (hruns : CoreRuns s k .halt) : Completes (.halt k) s fun t =>
    getF t (F.BRL_CTRL_RUN k) = 0 ∧ CoreFrame s t k [R.BRL_CTRL k] [] ∧
    ((brlCore s k).stores = [] → brlState t k = 2) := by
  refine completes_brl (u := setF (setBrl s k fun c => { c with halt := true }) (F.BRL_CTRL_RUN k) 0) rfl hup hruns rfl ?_
  generalize hu : setF (setBrl s k fun c => { c with halt := true }) (F.BRL_CTRL_RUN k) 0 = u
  have core : brlCore u k = { brlCore s k with halt := true } := by rw [← hu, brlCore_setF, brlCore_setBrl_same]
  have beside : Local [R.BRL_CTRL k] k s u := hu ▸ ((Local.refl s).setBrl _).setF (f := F.BRL_CTRL_RUN k) (by simp) 0
  have acted : Acted [R.BRL_CTRL k] [] k s u := by
    refine ⟨beside.mono (List.subset_append_right ..), beside.getF (by simp [R.BRL_CTRL, R.BRL_PC]), ?_⟩
    rw [core]
    exact ⟨rfl, rfl, rfl, rfl, rfl, fun _ _ => rfl⟩
  have run : getF u (F.BRL_CTRL_RUN k) = 0 := hu ▸ getF_setF_field _ 0 (by decide)
  refine ⟨?_, acted.coreFrame, fun hstores => ?_⟩
  · rw [((Local.refl u).brlAdvance (List.Subset.refl _) .seq).getF (notMem_seqRegs k (by decide)), run]
  · have led := led_brlLead u k .seq
    rw [brlAdvance_eq]
    refine brlState_brlBoundary_halt ?_ ?_ ?_
    · rw [brlState_brlLead]
      exact (beside.getF (f := F.BRL_STATUS_STATE k) (by simp [R.BRL_CTRL, R.BRL_STATUS])).trans
        (running_of_issues hruns.1).2.1
    · rw [led.halt, brlCore_brlCounted, core]
      rfl
    · rw [led.stores, brlCore_brlCounted, core]
      exact hstores

theorem wait_completes (hruns : CoreRuns s k .wait) (hrun : flag s (F.BRL_CTRL_RUN k) = true)
    (hpend : rd s (R.BRL_IRQ_EN k) &&& rd s (R.BRL_IRQ_PEND k) = 0) : Completes (.wait k) s fun t =>
      brlState t k = 3 ∧ CoreFrame s t k [] [] := by
  refine completes_brl (u := setBrl s k fun c => { c with waiting := true }) rfl hup hruns rfl
    ⟨?_, Acted.coreFrame (.of_setBrl ⟨rfl, rfl, rfl, rfl, rfl, fun _ _ => rfl⟩)⟩
  generalize hu : setBrl s k (fun c => { c with waiting := true }) = u
  have core : brlCore u k = { brlCore s k with waiting := true } := by rw [← hu, brlCore_setBrl_same]
  have led := led_brlLead u k .seq
  have word (a : Nat) (ha : a ∉ leadRegs k) : rd (brlLead u k .seq) a = rd s a :=
    (((hu ▸ (Local.refl s).setBrl _ : Local (leadRegs k) k s u).brlLead (List.Subset.refl _) .seq).word a ha)
  rw [brlAdvance_eq]
  refine brlState_brlBoundary_wait ?_ ?_ ?_ ?_
  · rw [led.waiting, brlCore_brlCounted, core]
    rfl
  · rw [led.halt, brlCore_brlCounted, core]
    exact (running_of_issues hruns.1).2.2
  · rw [flag, getF_of_word (word _ (notMem_leadRegs k (by decide)))]
    exact hrun
  · rw [word _ (notMem_leadRegs k (by decide)), word _ (notMem_leadRegs k (by decide)), hpend]

end control

/-! ## Interrupts and events -/

theorem getB_brlWake (s : State) (k i : Nat) : getB (brlWake s k) (R.BRL_IRQ_PEND k) i = getB s (R.BRL_IRQ_PEND k) i := by
  rw [getB, ((Local.refl s).brlWake (regs := [R.BRL_STATUS k]) (by simp)).word _
    (by simp [R.BRL_IRQ_PEND, R.BRL_STATUS]), getB]

/-- A vector that becomes pending is pending, and those pending before stay so. -/
theorem getB_brlPend (s : State) (k : Nat) {v : Nat} (hv : v < 32) (i : Nat) :
    getB (brlPend s k v) (R.BRL_IRQ_PEND k) i = (decide (i = v) || getB s (R.BRL_IRQ_PEND k) i) := by
  unfold brlPend
  split
  · next pending =>
    have word : rd (bump s (R.BRL_IRQ_MERGE_COUNT k)) (R.BRL_IRQ_PEND k) = rd s (R.BRL_IRQ_PEND k) :=
      ((Local.refl s).bump (regs := [R.BRL_IRQ_MERGE_COUNT k]) (k := k) (by simp)).word _
        (by simp [R.BRL_IRQ_PEND, R.BRL_IRQ_MERGE_COUNT])
    rw [getB, word, ← getB]
    by_cases h : i = v
    · simp [h, pending]
    · simp [h]
  · rw [getB_brlWake]
    by_cases h : i = v
    · simp [h, getB_setB_same (s := s) (R.BRL_IRQ_PEND k) v hv]
    · simp [h, getB_setB_other (s := s) (R.BRL_IRQ_PEND k) v (R.BRL_IRQ_PEND k) i hv true (.inr h)]

section events
variable {s : State} {k : Fin 4} (hup : Up s)
include hup

theorem swi_completes (hruns : CoreRuns s k .swi) : Completes (.swi k) s fun t =>
    getB t (R.BRL_IRQ_PEND k) 15 = true ∧ CoreFrame s t k [R.BRL_IRQ_PEND k, R.BRL_IRQ_MERGE_COUNT k] [] := by
  refine completes_brl (u := brlPend s k 15) rfl hup hruns rfl ⟨?_, Acted.coreFrame ⟨?_, brlPc_brlPend s k 15, ?_⟩⟩
  · have kept := ((Local.refl (brlPend s k 15)).brlAdvance (List.Subset.refl (seqRegs k)) .seq).word (R.BRL_IRQ_PEND k)
      (notMem_seqRegs k (by decide))
    rw [getB, kept, ← getB, getB_brlPend s k (by decide)]
    rfl
  · exact (Local.refl s).brlPend (by simp [pendRegs, seqRegs]) 15
  · obtain ⟨w, hw⟩ := brlCore_brlPend s k 15
    rw [hw]
    exact ⟨rfl, rfl, rfl, rfl, rfl, fun _ _ => rfl⟩

/-- SEI and CLI set IE for the instruction three later. -/
theorem setIe_completes {c : Instr} {v : Bool} (hc : exec c s = run (fun s => brlIssue s k (.setIe v)) s)
    (hruns : CoreRuns s k (.setIe v)) (h52 : Landed s k 52) : Completes c s fun t =>
      bitOf (seenAfter t k 2 52) 31 = v ∧ CoreFrame s t k [] [52] := by
  refine completes_brl (u := setBrl s k (·.put 3 52 (2 ^ 31) (ofBool v * 2 ^ 31))) hc hup hruns rfl
    ⟨?_, Acted.coreFrame (.of_setBrl ((BrlCore.Writes.refl ..).put (by simp) ..))⟩
  have due := BrlCore.Due.of_put (pend_nil_of_landed h52) 3 (2 ^ 31) (ofBool v * 2 ^ 31)
  rw [← brlCore_setBrl_same s k (·.put 3 52 (2 ^ 31) (ofBool v * 2 ^ 31))] at due
  have count : (brlCore (setBrl s k (·.put 3 52 (2 ^ 31) (ofBool v * 2 ^ 31))) k).count = (brlCore s k).count := by simp
  rw [← count] at due
  rw [seenAfter_brlAdvance .seq due (by decide) (by decide) (by decide), bitOf_toNat, getLsbD_merged _ _ _ (by decide),
    if_pos (by decide)]
  cases v <;> decide

theorem sev_completes {e : Fin 4} (hruns : CoreRuns s k (.sev e)) : Completes (.sev k e) s fun t =>
    (40 + 4 * k.val + e.val) ∈ t.pulses ∧ CoreFrame s t k [] [] := by
  refine completes_brl (u := raise s (40 + 4 * k + e)) rfl hup hruns rfl ⟨?_, Acted.coreFrame ⟨?_, ?_, ?_⟩⟩
  · have domain : srcDomain (40 + 4 * k.val + e.val) = 1 + k := by
      have hk := k.isLt
      have he := e.isLt
      unfold srcDomain
      repeat rw [if_neg (by omega)]
      rw [if_pos (by omega)]
      omega
    have raised : 40 + 4 * k.val + e.val ∈ (raise s (40 + 4 * k + e)).pulses := by
      rw [raise, raiseIn, domain, if_pos (running_of_issues hruns.1).1]
      exact List.mem_append_right _ (List.mem_singleton.2 rfl)
    exact ((Local.refl (raise s (40 + 4 * k + e))).brlAdvance (List.Subset.refl _) .seq).pulses.subset raised
  · exact (Local.refl s).raise _
  · exact ((Local.refl s).raise (regs := []) (k := k) _).getF (by simp)
  · rw [brlCore_raise]
    exact .refl ..

end events
end Sys2Proof.Machine
end

namespace Sys2Proof
open Machine

/-- Settles O34: what a branch, a LOOP or an ITER sets stays through the boundary after it, and the other instructions go on
from a state that differs by their one effect. -/
theorem berylControlCompletes : Obligations.BerylControlCompletes := by
  unfold Obligations.BerylControlCompletes
  exact ⟨fun s k cond target hup => ⟨branch_completes hup, call_completes hup,
      fun hbad hissues => completes_badEncoding rfl hup k.isLt hissues (decide_eq_true hbad)⟩,
    fun s k e hup he => ⟨ret_completes hup he, reti_completes hup he⟩,
    fun s k intr count len hup hruns hland => loop_completes hup hruns hland,
    fun s k count hup hruns => iter_completes hup hruns,
    fun s k hup => ⟨nop_completes hup, fence_completes hup, halt_completes hup, wait_completes hup, swi_completes hup,
      setIe_completes hup rfl, setIe_completes hup rfl, fun e hruns _ => sev_completes hup hruns⟩⟩

end Sys2Proof

section
/-! What a core takes from outside: RUN, STEP, reset, pending vectors, C memory (R269, R289 to R292, R296, R297). -/
namespace Sys2Proof.Machine

theorem memorySame_after {s t u : State} (h : MemorySame t u) (hm : MemorySame s t) : MemorySame s u :=
  ⟨fun a => (h.1 a).trans (hm.1 a), h.2.trans hm.2⟩

theorem Local.memoryAlone {regs : List Nat} {k : Nat} {s t u : State} (h : Local regs k t u) (hm : MemorySame s t) :
    MemorySame s u := memorySame_after h.memorySame hm

/-! ## INTERRUPT_TAKE (R289 to R291) -/

theorem brlVector_lt {s : State} {k v : Nat} (h : brlVector s k = some v) : v < 16 :=
  List.mem_range.1 (List.mem_of_find?_eq_some h)

theorem interruptTake_completes {s : State} {k : Fin 4} {v : Nat} (hup : Up s) (hv : brlVector s k = some v)
    (hon : domOn s (1 + k) = true) (hrun : flag s (F.BRL_CTRL_RUN k) = true) (hhalt : (brlCore s k).halt = false)
    (hie : bitOf (brlCore s k).sr 31 = true) (hslots : (brlCore s k).slots = 0) (hiter : (brlCore s k).iter = 0)
    (hstate : (brlState s k = 1 ∧ loopsAllow (brlCore s k) = true) ∨ brlState s k = 3) :
    Completes (.interruptTake k) s fun t => MemorySame s t ∧
      if 8 ≤ (brlCore s k).stack.length then CoreFaulted s t k 4
      else brlState t k = 1 ∧ brlPc t k = 4 * v ∧ getB t (R.BRL_IRQ_PEND k) v = false ∧
        bitOf (brlCore t k).sr 31 = false ∧ ∃ e, (brlCore t k).stack = (brlCore s k).stack ++ [e] ∧ e.addr = brlPc s k := by
  have hv16 := brlVector_lt hv
  refine completes_run (f := (interruptTake · k)) rfl hup ?_
  have allowed : domOn s (1 + k) ∧ flag s (F.BRL_CTRL_RUN k) ∧ (brlCore s k).halt = false ∧ bitOf (brlCore s k).sr 31 ∧
      (brlCore s k).slots = 0 ∧ (brlCore s k).iter = 0 ∧
      ((brlState s k = 1 ∧ loopsAllow (brlCore s k) = true) ∨ brlState s k = 3) :=
    ⟨hon, hrun, hhalt, hie, hslots, hiter, hstate⟩
  simp only [interruptTake, hv]
  rw [if_pos allowed]
  split
  · have faulted := faulted_brlFault s k.isLt (cause := 4) (by decide)
    exact ⟨faulted.2.2.2.2, faulted⟩
  · refine ⟨⟨fun _ => rfl, rfl⟩, ?_, ?_, ?_, ?_, ?_⟩
    · exact (getF_of_word (rd_wr_ne _ _ (by simp [R.BRL_STATUS, R.BRL_PC]))).trans (brlState_setState _ k 1)
    · rw [brlPc_setBrlPc]
      omega
    · have word (u : State) : rd (setBrlPc (setF u (F.BRL_STATUS_STATE k) 1) k (4 * v)) (R.BRL_IRQ_PEND k) =
          rd u (R.BRL_IRQ_PEND k) :=
        (rd_wr_ne _ _ (by simp [R.BRL_IRQ_PEND, R.BRL_PC])).trans (rd_wr_ne _ _ (by simp [R.BRL_IRQ_PEND, R.BRL_STATUS]))
      rw [getB, word, ← getB, getB_setB_same _ _ _ (by omega)]
    · rw [brlCore_setBrlPc, brlCore_setF, brlCore_setB, brlCore_setBrl_same, BrlCore.sr, SMap.get_put_same, bitOf_toNat,
        BitVec.getLsbD_ofNat, Nat.testBit_mod_two_pow]
      rfl
    · rw [brlCore_setBrlPc, brlCore_setF, brlCore_setB, brlCore_setBrl_same]
      exact ⟨_, rfl, rfl⟩

/-! ## RUN (R292) -/

/-- A core whose RUN is clear halts outside delay slots and ITER once its write buffer is empty. -/
theorem brlSettle_stop {s : State} {k : Nat} (h : brlState s k = 1) (hstores : (brlCore s k).stores = [])
    (hrun : getF s (F.BRL_CTRL_RUN k) = 0) (hslots : (brlCore s k).slots = 0) (hiter : (brlCore s k).iter = 0) :
    brlState (brlSettle s k) k = 2 ∧ getF (brlSettle s k) (F.BRL_CTRL_RUN k) = 0 ∧ (brlCore (brlSettle s k) k).flight = [] ∧
      MemorySame s (brlSettle s k) := by
  have settled : Local [R.BRL_STATUS k] k s (brlSettle s k) := (Local.refl s).brlSettle (by simp)
  have idle : flag s (F.BRL_CTRL_RUN k) = false := by rw [flag, hrun]; rfl
  have halted : brlSettle s k = setBrl (setF s (F.BRL_STATUS_STATE k) 2) k fun c => { c.drained with halt := false } := by
    rw [brlSettle, if_pos ⟨.inl h, hstores, .inr ⟨idle, hslots, hiter⟩⟩]
  refine ⟨?_, (settled.getF (by simp [R.BRL_CTRL, R.BRL_STATUS])).trans hrun, ?_, settled.memorySame⟩
  · rw [halted]
    exact brlState_setState s k 2
  · rw [halted, brlCore_setBrl_same]
    rfl

section run
variable {s : State} {k : Fin 4} (hup : Up s) (hon : domOn s (1 + k) = true)
include hup hon

theorem runSet_completes (h : brlState s k = 0) : Completes (.brlRunWrite k true) s fun t =>
    brlState t k = 1 ∧ brlPc t k = 0 ∧ getF t (F.BRL_CTRL_RUN k) = 1 ∧ MemorySame s t := by
  refine completes_run (f := (brlRun · k true)) rfl hup ?_
  have ran : brlRun s k true = setBrlPc (setF (setF s (F.BRL_CTRL_RUN k) 1) (F.BRL_STATUS_STATE k) 1) k 0 := by
    simp [brlRun, hon, h, ofBool]
  rw [ran]
  have set : Local [R.BRL_PC k] k (setF (setF s (F.BRL_CTRL_RUN k) 1) (F.BRL_STATUS_STATE k) 1)
      (setBrlPc (setF (setF s (F.BRL_CTRL_RUN k) 1) (F.BRL_STATUS_STATE k) 1) k 0) := (Local.refl _).setBrlPc (by simp) 0
  refine ⟨?_, (brlPc_setBrlPc _ k 0).trans (Nat.zero_mod _), ?_, set.memoryAlone ⟨fun _ => rfl, rfl⟩⟩
  · exact (set.getF (by simp [R.BRL_STATUS, R.BRL_PC])).trans (brlState_setState _ k 1)
  · refine (set.getF (by simp [R.BRL_CTRL, R.BRL_PC])).trans ?_
    refine (getF_of_word (rd_wr_ne _ _ (by simp [R.BRL_CTRL, R.BRL_STATUS]))).trans ?_
    exact getF_setF_field s 1 (by decide)

theorem runCleared_completes (h : brlState s k = 1) (hstores : (brlCore s k).stores = []) (hslots : (brlCore s k).slots = 0)
    (hiter : (brlCore s k).iter = 0) : Completes (.brlRunWrite k false) s fun t =>
      brlState t k = 2 ∧ getF t (F.BRL_CTRL_RUN k) = 0 ∧ (brlCore t k).flight = [] ∧ MemorySame s t := by
  refine completes_run (f := (brlRun · k false)) rfl hup ?_
  have clear : getF (setF s (F.BRL_CTRL_RUN k) 0) (F.BRL_CTRL_RUN k) = 0 := getF_setF_field s 0 (by decide)
  have state : brlState (setF s (F.BRL_CTRL_RUN k) 0) k = 1 :=
    (getF_of_word (rd_wr_ne s _ (by simp [R.BRL_CTRL, R.BRL_STATUS]))).trans h
  have ran : brlRun s k false = brlSettle (setF s (F.BRL_CTRL_RUN k) 0) k := by simp [brlRun, hon, h, ofBool]
  rw [ran]
  exact brlSettle_stop state hstores clear hslots hiter

/-! ## STEP (R297) -/

/-- The core as STEP sets it going. -/
def stepped (s : State) (k : Nat) : State :=
  setBrl (setF s (F.BRL_STATUS_STATE k) 1) k fun c => { c with waiting := false }

omit hup hon in
theorem brlPc_stepped (s : State) (k : Nat) : brlPc (stepped s k) k = brlPc s k :=
  getF_of_word (rd_wr_ne s _ (by simp [R.BRL_PC, R.BRL_STATUS]))

omit hup hon in
theorem run_stepped (s : State) (k : Nat) : getF (stepped s k) (F.BRL_CTRL_RUN k) = getF s (F.BRL_CTRL_RUN k) :=
  getF_of_word (rd_wr_ne s _ (by simp [R.BRL_CTRL, R.BRL_STATUS]))

omit hup in
/-- STEP fetches at the PC: an undefined word stops the core, any other runs with what must follow it. -/
theorem brlStep_none (h : brlState s k = 2) (hword : brlDecode (cWord s k (brlPc s k)) = none) :
    brlStep s k = brlFault (stepped s k) k 1 := by
  have fetched : brlDecode (cWord (stepped s k) k (brlPc (stepped s k) k)) = none := by rw [brlPc_stepped]; exact hword
  unfold stepped at fetched ⊢
  simp only [brlStep, hon, h, and_self, if_true, fetched]

omit hup in
theorem brlStep_some {op : BrlOp} (h : brlState s k = 2) (hword : brlDecode (cWord s k (brlPc s k)) = some op) :
    brlStep s k = stepOn 65540 (brlExecute (stepped s k) k op false) k := by
  have fetched : brlDecode (cWord (stepped s k) k (brlPc (stepped s k) k)) = some op := by rw [brlPc_stepped]; exact hword
  unfold stepped at fetched ⊢
  simp only [brlStep, hon, h, and_self, if_true, fetched]

omit hup hon in
theorem stepOn_idle {t : State} {k : Nat} (n : Nat) (h : brlIssues t k = false) : stepOn n t k = t := by
  cases n with
  | zero => rfl
  | succ n => simp only [stepOn, h, Bool.false_eq_true, if_false]

omit hup hon in
theorem brlState_brlBoundary_stop {s : State} {k : Nat} (h : brlState s k = 1) (hwait : (brlCore s k).waiting = false)
    (hstores : (brlCore s k).stores = []) (hrun : getF s (F.BRL_CTRL_RUN k) = 0) (hslots : (brlCore s k).slots = 0)
    (hiter : (brlCore s k).iter = 0) : brlState (brlBoundary s k) k = 2 := by
  have awake : brlWaitCheck s k = s := by rw [brlWaitCheck, hwait]; rfl
  rw [brlBoundary, awake]
  exact (brlSettle_stop h hstores hrun hslots hiter).1

theorem stepUndefined_completes (h : brlState s k = 2) (hword : brlDecode (cWord s k (brlPc s k)) = none) :
    Completes (.brlStep k) s fun t => CoreFaulted s t k 1 := by
  refine completes_run (f := (brlStep · k)) rfl hup ?_
  rw [brlStep_none hon h hword]
  obtain ⟨state, cause, pc, bit, memory⟩ := faulted_brlFault (stepped s k) k.isLt (cause := 1) (by decide)
  exact ⟨state, cause, pc.trans (brlPc_stepped s k), bit, memory⟩

theorem stepNop_completes (h : brlState s k = 2) (hslots : (brlCore s k).slots = 0) (hiter : (brlCore s k).iter = 0)
    (hlevels : (brlCore s k).levels = []) (hstores : (brlCore s k).stores = []) (hrun : flag s (F.BRL_CTRL_RUN k) = false)
    (hword : brlDecode (cWord s k (brlPc s k)) = some .nop) : Completes (.brlStep k) s fun t =>
      brlState t k = 2 ∧ brlPc t k = (brlPc s k + 1) % 32768 ∧ MemorySame s t := by
  refine completes_run (f := (brlStep · k)) rfl hup ?_
  have core : brlCore (stepped s k) k = { brlCore s k with waiting := false } := brlCore_setBrl_same ..
  have counted : brlCore (brlCounted (stepped s k) k) k =
      BrlCore.landed { brlCore s k with waiting := false, count := (brlCore s k).count + 1 } := by
    rw [brlCore_brlCounted, core]
  have lead : brlLead (stepped s k) k .seq = setBrlPc (brlCounted (stepped s k) k) k (brlPc s k + 1) := by
    have straight : brlLead (stepped s k) k .seq = brlSeq (brlCounted (stepped s k) k) k :=
      brlFollow_straight (by rw [core]; exact hslots) (by rw [core]; exact hiter)
    rw [straight, brlSeq_noLevels (by rw [counted]; exact hlevels), brlPc_brlCounted, brlPc_stepped]
  have cause : brlCause (stepped s k) k .nop = none := by
    simp [brlCause, badEncoding, isRepeatOrBranch, isBranch, notIterable, brlUses, sameLoad]
  have flows : brlStalls (stepped s k) k .nop = false := by simp [brlStalls, brlUses, core, hstores]
  have run : getF (brlLead (stepped s k) k .seq) (F.BRL_CTRL_RUN k) = 0 := by
    rw [((Local.refl _).brlLead (List.Subset.refl (leadRegs k)) .seq).getF (notMem_leadRegs k (by decide)), run_stepped]
    simpa [flag] using hrun
  have state : brlState (brlAdvance (stepped s k) k .seq) k = 2 := by
    rw [brlAdvance_eq]
    refine brlState_brlBoundary_stop ((brlState_brlLead ..).trans (brlState_setState s k 1)) ?_ ?_ run ?_ ?_
    · rw [lead, brlCore_setBrlPc, counted]; rfl
    · rw [lead, brlCore_setBrlPc, counted]; exact hstores
    · rw [lead, brlCore_setBrlPc, counted]; exact hslots
    · rw [lead, brlCore_setBrlPc, counted]; exact hiter
  have stops : brlStep s k = brlAdvance (stepped s k) k .seq := by
    have executed : brlExecute (stepped s k) k .nop false = brlAdvance (stepped s k) k .seq := by
      simp only [brlExecute, cause, flows, Bool.false_eq_true, if_false]
      rfl
    have idle : brlIssues (brlAdvance (stepped s k) k .seq) k = false := by simp [brlIssues, state]
    rw [brlStep_some hon h hword, executed, stepOn_idle _ idle]
  rw [stops]
  refine ⟨state, ?_, ((Local.refl _).brlAdvance (List.Subset.refl (seqRegs k)) .seq).memoryAlone ⟨fun _ => rfl, rfl⟩⟩
  rw [brlAdvance_eq, brlPc_brlBoundary, lead, brlPc_setBrlPc]

/-! ## The timer, the mailbox and C memory (R269, R289) -/

theorem timer_completes (h : getR s (R.BRL_TIMER k) ≠ 0) : Completes (.brlTimerExpiry k) s fun t =>
    getB t (R.BRL_IRQ_PEND k) 12 = true ∧ MemorySame s t := by
  refine completes_run (f := fun s => if getR s (R.BRL_TIMER k) ≠ 0 ∧ domOn s (1 + k.val) = true then brlPend s k 12 else s)
    rfl hup ?_
  rw [if_pos ⟨h, hon⟩]
  exact ⟨by simp [getB_brlPend s k (v := 12) (by decide)], ((Local.refl s).brlPend (List.Subset.refl _) 12).memorySame⟩

theorem mboxIn_completes (value : Word) : Completes (.brlMboxInWrite k value) s fun t =>
    rd t (R.BRL_MBOX_IN k) = value ∧ getB t (R.BRL_IRQ_PEND k) 14 = true ∧ MemorySame s t := by
  refine completes_run (f := (mboxInWrite · k value)) rfl hup ?_
  have on : domOn (wr s (R.BRL_MBOX_IN k) value) (1 + k) = true := by
    rw [domOn, domState, getF_of_word (rd_wr_ne s value _)]
    · exact hon
    · simp only [R.PWR_STATE, R.BRL_MBOX_IN]
      omega
  simp only [mboxInWrite, on, if_true]
  have pended := (Local.refl (wr s (R.BRL_MBOX_IN k) value)).brlPend (List.Subset.refl (pendRegs k)) 14
  refine ⟨?_, by simp [getB_brlPend _ k (v := 14) (by decide)], pended.memorySame⟩
  rw [pended.word _ (by simp [pendRegs, R.BRL_MBOX_IN, R.BRL_IRQ_PEND, R.BRL_IRQ_MERGE_COUNT, R.BRL_STATUS])]
  exact rd_wr_same ..

theorem cMemory_completes (index : Fin 32768) (data : Word) : Completes (.hostCMemoryWrite k index data) s fun t =>
    if brlState s k = 0 ∨ brlState s k = 2 ∨ brlState s k = 4 then
      arrGet t .brlC (1 + k) (0x10000 * k + index) = data.setWidth 64 ∧ RegsSameBut [] s t ∧
      ∀ a, readByte t.dram a = readByte s.dram a
    else getF t (F.BRL_STATUS_HOST_REJECT k) = 1 ∧ RegsSameBut [R.BRL_STATUS k] s t ∧ MemorySame s t := by
  refine completes_run (f := (cMemWrite · .host k index data)) rfl hup ?_
  rw [cMemWrite, arrayAccess_on hon]
  dsimp only
  split
  · exact ⟨arrGet_arrSet_same .., fun _ _ => rfl, fun _ => rfl⟩
  · exact ⟨getF_setF_field s 1 (by decide), fun a ha => rd_wr_ne s _ (List.ne_of_not_mem_cons ha), fun _ => rfl, rfl⟩

end run

/-! ## Pending vectors and reset (R289, R296) -/

/-- Vectors that become pending one after the other are all pending. -/
theorem getB_foldl_brlPend (k : Nat) {l : List Nat} (hl : ∀ v ∈ l, v < 32) (s : State) (i : Nat) :
    getB (l.foldl (fun s v => brlPend s k v) s) (R.BRL_IRQ_PEND k) i = (decide (i ∈ l) || getB s (R.BRL_IRQ_PEND k) i) := by
  induction l generalizing s with
  | nil => simp
  | cons v l ih =>
    obtain ⟨hv, rest⟩ := List.forall_mem_cons.1 hl
    rw [List.foldl_cons, ih rest, getB_brlPend s k hv]
    by_cases h : i = v <;> simp [h]

theorem irqPend_completes {s : State} {k : Fin 4} (hup : Up s) (vectors : BitVec 16) :
    Completes (.brlIrqPendWrite k vectors) s fun t =>
      (∀ v, 0 < v → v < 16 → vectors.getLsbD v = true → getB t (R.BRL_IRQ_PEND k) v = true) ∧ MemorySame s t ∧
      RegsSameBut [R.BRL_IRQ_PEND k, R.BRL_IRQ_MERGE_COUNT k, R.BRL_STATUS k] s t := by
  refine completes_run (f := (irqPendWrite · k vectors.toNat)) rfl hup ?_
  have pended : Local (pendRegs k) k s (irqPendWrite s k vectors.toNat) :=
    (Local.refl s).foldl (fun _ v h => h.brlPend (List.Subset.refl _) v) _
  refine ⟨fun v h0 h16 hv => ?_, pended.memorySame, pended.word⟩
  rw [irqPendWrite, getB_foldl_brlPend k (fun v hv => ?_) s v]
  · have listed : v ∈ (List.range 16).filter fun i => 0 < i && bitOf vectors.toNat i :=
      List.mem_filter.2 ⟨List.mem_range.2 h16, by simp [h0, bitOf_toNat, hv]⟩
    simp only [listed, decide_true, Bool.true_or]
  · have := List.mem_range.1 (List.mem_filter.1 hv).1
    omega

theorem coreReset_completes {s : State} {k : Fin 4} (hup : Up s) : Completes (.coreReset k) s fun t =>
    brlState t k = 0 ∧ brlPc t k = 0 ∧ getF t (F.BRL_CTRL_RUN k) = 0 ∧ getR t (R.BRL_IRQ_PEND k) = 0 ∧
    brlCore t k = {} ∧ (∀ j, j ≠ k.val → brlCore t j = brlCore s j) ∧ MemorySame s t ∧
    (rd t R.MTX_RESET_COUNT).toNat = min ((rd s R.MTX_RESET_COUNT).toNat + 1) 0xFFFFFFFF := by
  refine completes_run (f := (coreReset · k)) rfl hup ?_
  generalize hz : setR (setR (setBrl s k fun _ => {}) (R.BRL_IRQ_PEND k) 0) (R.BRL_PC k) 0 = z
  generalize hu : setF (setF (setF z (F.BRL_CTRL_RUN k) 0) (F.BRL_STATUS_STATE k) 0) (F.BRL_STATUS_CAUSE k) 0 = u
  have unfolded : coreReset s k = bump (setPair u (R.BRL_CYCLES_LO k) 0) R.MTX_RESET_COUNT := by rw [← hu, ← hz]; rfl
  have cycles : Local [R.BRL_CYCLES_LO k, R.BRL_CYCLES_LO k + 4, R.MTX_RESET_COUNT] k u (coreReset s k) :=
    unfolded ▸ ((Local.refl u).setPair (by simp) (by simp) 0).bump (by simp)
  have fields : Local [R.BRL_CTRL k, R.BRL_STATUS k] k z u :=
    hu ▸ (((Local.refl z).setF (f := F.BRL_CTRL_RUN k) (by simp) 0).setF (f := F.BRL_STATUS_STATE k) (by simp) 0).setF
      (f := F.BRL_STATUS_CAUSE k) (by simp) 0
  have cleared : Local [R.BRL_IRQ_PEND k, R.BRL_PC k] k s z :=
    hz ▸ (((Local.refl s).setBrl fun _ => {}).setR (by simp) 0).setR (by simp) 0
  have off (a : Nat) (ha : 0xD00000 + 0x100000 * k.val ≤ a) (ha' : a < 0xD00050 + 0x100000 * k.val) :
      a ∉ [R.BRL_CYCLES_LO k, R.BRL_CYCLES_LO k + 4, R.MTX_RESET_COUNT] := by
    simp only [R.BRL_CYCLES_LO, R.MTX_RESET_COUNT, List.mem_cons, List.not_mem_nil, or_false]
    omega
  have core : brlCore (coreReset s k) k = {} := by
    rw [unfolded, brlCore_bump, brlCore_setPair, ← hu, brlCore_setF, brlCore_setF, brlCore_setF, ← hz, brlCore_setR,
      brlCore_setR, brlCore_setBrl_same]
  refine ⟨?_, ?_, ?_, ?_, core, fun j hj => ?_, ?_, ?_⟩
  · refine (cycles.getF (f := F.BRL_STATUS_STATE k) (off _ (by simp [R.BRL_STATUS]) (by simp [R.BRL_STATUS]))).trans ?_
    rw [← hu, getF_setF_beside _ 0 (by decide) (by decide)]
    exact brlState_setState _ k 0
  · refine (cycles.getF (f := F.BRL_PC_PC k) (off _ (by simp [R.BRL_PC]) (by simp [R.BRL_PC]))).trans ?_
    refine (fields.getF (by simp [R.BRL_PC, R.BRL_CTRL, R.BRL_STATUS])).trans ?_
    rw [getF, ← hz, rd_setR, if_pos rfl]
    simp [bitsOf]
  · refine (cycles.getF (f := F.BRL_CTRL_RUN k) (off _ (by simp [R.BRL_CTRL]) (by simp [R.BRL_CTRL]))).trans ?_
    have beside (t : State) (f : Fld) (hf : f.addr = R.BRL_STATUS k) : getF (setF t f 0) (F.BRL_CTRL_RUN k) =
        getF t (F.BRL_CTRL_RUN k) := getF_of_word (rd_wr_ne t _ (by rw [hf]; simp [R.BRL_CTRL, R.BRL_STATUS]))
    rw [← hu, beside _ _ rfl, beside _ _ rfl]
    exact getF_setF_field z 0 (by decide)
  · rw [getR, cycles.word _ (off _ (by simp [R.BRL_IRQ_PEND]) (by simp [R.BRL_IRQ_PEND])),
      fields.word _ (by simp [R.BRL_IRQ_PEND, R.BRL_CTRL, R.BRL_STATUS]), ← hz, rd_setR,
      if_neg (by simp [R.BRL_IRQ_PEND, R.BRL_PC]), rd_setR, if_pos rfl]
    rfl
  · exact ((cycles.others j hj).trans (fields.others j hj)).trans (cleared.others j hj)
  · exact cycles.memoryAlone (fields.memoryAlone cleared.memorySame)
  · rw [unfolded]
    refine toNat_rd_bump_of_word ?_
    have pair := ((Local.refl u).setPair (a := R.BRL_CYCLES_LO k) (k := k)
      (regs := [R.BRL_CYCLES_LO k, R.BRL_CYCLES_LO k + 4]) (by simp) (by simp) 0).word R.MTX_RESET_COUNT
    rw [pair, fields.word, cleared.word]
    · simp only [R.MTX_RESET_COUNT, R.BRL_IRQ_PEND, R.BRL_PC, List.mem_cons, List.not_mem_nil, or_false]; omega
    · simp only [R.MTX_RESET_COUNT, R.BRL_CTRL, R.BRL_STATUS, List.mem_cons, List.not_mem_nil, or_false]; omega
    · simp only [R.MTX_RESET_COUNT, R.BRL_CYCLES_LO, List.mem_cons, List.not_mem_nil, or_false]; omega

end Sys2Proof.Machine
end

section
/-! Reports of memory errors: what they leave of DRAM beside the memory error log (R302, R306, R307, R309). -/
namespace Sys2Proof.Machine

/-- The registers that tell where DRAM region 5, and the log in it, lies (R309, R398). -/
def logBaseRegs : List Nat := [R.MEM_CONFIG, memRegionKey 5, memRegionKey 5 + 4]

/-- From `s` to `t` DRAM changed in the `n` bytes at `a` and in the memory error log at most, and the log stayed in place. -/
structure Logged (a n : Nat) (s t : State) : Prop where
  place : ∀ r ∈ logBaseRegs, t.regs.find r = s.regs.find r
  arrays : t.arrays = s.arrays
  bytes : MemoryBut a n s t

namespace Logged

variable {a n : Nat} {s t u : State}

theorem base (h : Logged a n s t) : regionBase t 5 = regionBase s 5 := by
  have config := h.place R.MEM_CONFIG (by simp [logBaseRegs])
  have low := h.place (memRegionKey 5) (by simp [logBaseRegs])
  have high := h.place (memRegionKey 5 + 4) (by simp [logBaseRegs])
  have word (r : Nat) (hr : t.regs.find r = s.regs.find r) : rd t r = rd s r := by rw [rd, hr, rd]
  rw [regionBase, high, capacity, getF, word _ config, getR, word _ low]
  rfl

theorem refl (s : State) : Logged a n s s := ⟨fun _ _ => rfl, rfl, fun _ _ _ => rfl⟩

theorem trans (h : Logged a n s t) (h' : Logged a n t u) : Logged a n s u where
  place r hr := (h'.place r hr).trans (h.place r hr)
  arrays := h'.arrays.trans h.arrays
  bytes b out log := (h'.bytes b out (h.base ▸ log)).trans (h.bytes b out log)

/-- Registers other than those of the log's place do not count. -/
theorem same (h : Logged a n s t) (hr : ∀ r ∈ logBaseRegs, u.regs.find r = t.regs.find r) (hd : u.dram = t.dram)
    (ha : u.arrays = t.arrays) : Logged a n s u := h.trans ⟨hr, ha, fun _ _ _ => by rw [hd]⟩

theorem foldl {α : Type} {f : State → α → State} (hf : ∀ t x, Logged a n s t → Logged a n s (f t x)) (l : List α)
    (h : Logged a n s t) : Logged a n s (l.foldl f t) := by
  induction l generalizing t with
  | nil => exact h
  | cons x l ih => exact ih (hf t x h)

theorem ite {p : Prop} [Decidable p] (ht : Logged a n s t) (hu : Logged a n s u) : Logged a n s (if p then t else u) := by
  split
  · exact ht
  · exact hu

theorem wr (h : Logged a n s t) {r : Nat} (hr : r ∉ logBaseRegs) (v : Word) : Logged a n s (wr t r v) :=
  h.same (fun _ hq => SMap.find_put_ne _ _ (ne_of_mem_of_not_mem hq hr)) rfl rfl

theorem setF (h : Logged a n s t) {f : Fld} (hf : f.addr ∉ logBaseRegs) (v : Nat) : Logged a n s (setF t f v) := h.wr hf _

theorem setR (h : Logged a n s t) {r : Nat} (hr : r ∉ logBaseRegs) (v : Nat) : Logged a n s (setR t r v) := h.wr hr _

theorem setPair (h : Logged a n s t) {r : Nat} (hlo : r ∉ logBaseRegs) (hhi : r + 4 ∉ logBaseRegs) (v : Nat) :
    Logged a n s (setPair t r v) := ((h.setR hlo _).setR hhi _).same (fun _ _ => rfl) rfl rfl

theorem bump (h : Logged a n s t) {r : Nat} (hr : r ∉ logBaseRegs) : Logged a n s (bump t r) :=
  (h.setR hr _).same (fun _ _ => rfl) rfl rfl

theorem setMem (h : Logged a n s t) (f : MemCtl → MemCtl) : Logged a n s (setMem t f) := h.same (fun _ _ => rfl) rfl rfl

theorem raise (h : Logged a n s t) (src : Nat) : Logged a n s (raise t src) := ite (h.same (fun _ _ => rfl) rfl rfl) h

theorem fault (h : Logged a n s t) (bit : Nat) : Logged a n s (fault t bit) :=
  ite (h.wr (by decide) _) (((h.wr (by decide) _).setF (by decide) _).setPair (by decide) (by decide) _)

/-- An entry of the log goes into the log. -/
theorem memLog (h : Logged a n s t) (kind req symbol line synd : Nat) :
    Logged a n s (memLog t kind req symbol line synd) := by
  refine ite ((h.bump (by decide)).setF (by decide) 1) (setF ?_ (by decide) _)
  refine h.trans ⟨fun _ _ => rfl, rfl, fun b _ log => dramWrite_outside t _ _ b ?_⟩
  have head : getF t F.MEM_LOG_HEAD_SLOT < 32768 := Nat.mod_lt _ (Nat.two_pow_pos 15)
  simp only [List.length_append, length_leBytes]
  simp only [memLogLen] at log
  omega

theorem guardReport (h : Logged a n s t) (req line : Nat) : Logged a n s (guardReport t req line) :=
  ((h.bump (by decide)).setF (by decide) 1).memLog ..

theorem ueReport (h : Logged a n s t) (req line : Nat) (rmw : Bool) (ws : List Nat) :
    Logged a n s (ueReport t req line rmw ws) :=
  (((((h.foldl (fun _ _ h => h.memLog ..) ws).setMem _).bump (by decide)).setF (by decide) 1).raise 12).fault 6

theorem served (h : Logged a n s t) (req line len : Nat) : Logged a n s (served t req line len) := by
  refine ite ((h.setMem _).foldl (fun t u h => ite ?_ h) _) (h.setMem _)
  have state : R.MEM_STATE u ∉ logBaseRegs := by
    have key : memRegionKey 5 = 0x80000028 := rfl
    simp only [logBaseRegs, key, R.MEM_STATE, R.MEM_CONFIG, List.mem_cons, List.not_mem_nil, or_false]
    omega
  exact ((h.setF (f := F.MEM_STATE_SR u) state 0).setF (f := F.MEM_STATE_OWED_0 u) state 0).setF (f := F.MEM_STATE_OWED_1 u)
    state 0

/-- A unit's write stores nothing beside its bytes and the log's entries. -/
theorem unitWrite (h : Logged a n s t) (req : Nat) {bs : List Byte} (hbs : bs.length = n) :
    Logged a n s (unitWrite t req a bs) := by
  have written : Logged a n s (dramWrite (Machine.served t req a bs.length) a bs) :=
    (h.served ..).trans ⟨fun _ _ => rfl, rfl, fun b out _ => dramWrite_outside _ a bs b (hbs ▸ out)⟩
  exact ite h (ite (h.guardReport ..) (written.foldl (fun _ _ h => h.ueReport ..) _))

end Logged
end Sys2Proof.Machine
end

section
/-! Window accesses of a core that complete, or get an error response (R271 to R273, R302, R307). -/
namespace Sys2Proof.Machine

/-! ## The window error's report (R273, R289) -/

/-- Since `s` core `k` has had one window error: vector 13 is pending and the error counted. -/
structure Reported (k : Nat) (s t : State) : Prop where
  pend : getB t (R.BRL_IRQ_PEND k) 13 = true
  count : (rd t (R.BRL_ERR_COUNT k)).toNat = min ((rd s (R.BRL_ERR_COUNT k)).toNat + 1) 0xFFFFFFFF

theorem Reported.beside {k : Nat} {s t u : State} (h : Reported k s t) {regs : List Nat} (hl : Local regs k t u)
    (hp : R.BRL_IRQ_PEND k ∉ regs) (he : R.BRL_ERR_COUNT k ∉ regs) : Reported k s u where
  pend := by rw [getB, hl.word _ hp, ← getB, h.pend]
  count := by rw [hl.word _ he, h.count]

theorem reported_windowError {s u : State} {k : Nat} (hk : k < 4) (h : rd u (R.BRL_ERR_COUNT k) = rd s (R.BRL_ERR_COUNT k))
    (y : Bool) (a : Nat) : Reported k s (windowError u k y a) ∧ MemorySame u (windowError u k y a) := by
  generalize hz : setF (setF (setPair u R.MTX_ERR_ADDR_LO a) (F.BRL_ERR_ADDR_BUS k) (ofBool y)) (F.BRL_ERR_ADDR_ADDR k) a = z
  have unfolded : windowError u k y a = brlPend (bump z (R.BRL_ERR_COUNT k)) k 13 := by rw [← hz]; rfl
  have recorded : Local [R.MTX_ERR_ADDR_LO, R.MTX_ERR_ADDR_LO + 4, R.BRL_ERR_ADDR k] k u z :=
    hz ▸ (((Local.refl u).setPair (by simp) (by simp) a).setF (f := F.BRL_ERR_ADDR_BUS k) (by simp) _).setF
      (f := F.BRL_ERR_ADDR_ADDR k) (by simp) a
  have counted : Local [R.BRL_ERR_COUNT k] k z (bump z (R.BRL_ERR_COUNT k)) := (Local.refl z).bump (by simp)
  have pended := (Local.refl (bump z (R.BRL_ERR_COUNT k))).brlPend (List.Subset.refl (pendRegs k)) 13
  have before : rd z (R.BRL_ERR_COUNT k) = rd s (R.BRL_ERR_COUNT k) := by
    rw [recorded.word, h]
    simp only [R.BRL_ERR_COUNT, R.MTX_ERR_ADDR_LO, R.BRL_ERR_ADDR, List.mem_cons, List.not_mem_nil, or_false]
    omega
  rw [unfolded]
  refine ⟨⟨by simp [getB_brlPend _ k (v := 13) (by decide)], ?_⟩,
    pended.memoryAlone (counted.memoryAlone recorded.memorySame)⟩
  rw [pended.word _ (by simp [pendRegs, R.BRL_ERR_COUNT, R.BRL_IRQ_PEND, R.BRL_IRQ_MERGE_COUNT, R.BRL_STATUS])]
  exact toNat_rd_bump_of_word before

theorem stores_windowError (s : State) (k : Nat) (y : Bool) (a : Nat) :
    (brlCore (windowError s k y a) k).stores = (brlCore s k).stores := by
  obtain ⟨w, hw⟩ := brlCore_windowError s k y a
  rw [hw]

/-- The count of window errors is none of the registers that an error response touches. -/
theorem errCount_unreported {k : Nat} (hk : k < 4) :
    R.BRL_ERR_COUNT k ∉ errRegs ∧ R.BRL_ERR_COUNT k ∉ faultRegs ∧ ¬ MailReg (R.BRL_ERR_COUNT k) := by
  refine ⟨fun hm => ?_, notMem_faultRegs_of_coreReg hk ⟨?_, ?_⟩, ?_⟩
  · have low : ∀ b ∈ errRegs, 0x1200000 ≤ b := by decide
    have := low _ hm
    simp only [R.BRL_ERR_COUNT] at this
    omega
  · simp only [R.BRL_ERR_COUNT]; omega
  · simp only [R.BRL_ERR_COUNT]; omega
  · simp only [MailReg, R.BRL_ERR_COUNT, R.MBX_STATUS, R.MBX_NOTICE_TAG, R.MBX_NOTICE_STATUS, List.mem_cons, List.not_mem_nil,
      or_false]
    omega

theorem windowRefused_kept (s : State) {k : Nat} (hk : k < 4) (w : BrlTarget) (write : Bool) :
    Keeps (R.BRL_ERR_COUNT k) true s (windowRefused s k w write) := by
  obtain ⟨err, fault, mail⟩ := errCount_unreported hk
  exact (Keeps.refl s).windowRefused err fault mail k w write

/-! ## An error response to a load or a store (R273) -/

theorem windowStoreLost_completes {s : State} {k : Fin 4} {x : BrlStore} {rest : List BrlStore} (hup : Up s)
    (hstores : (brlCore s k).stores = x :: rest) : Completes (.windowAccessError k none) s fun t =>
      (brlCore t k).stores = rest ∧ MemorySame s t ∧ getB t (R.BRL_IRQ_PEND k) 13 = true ∧
      (rd t (R.BRL_ERR_COUNT k)).toNat = min ((rd s (R.BRL_ERR_COUNT k)).toNat + 1) 0xFFFFFFFF := by
  refine completes_run (f := (windowAccessError · k none)) rfl hup ?_
  have lost : windowAccessError s k none = storeLost (windowRefused s k x.target true) k x := by
    simp only [windowAccessError, hstores]
  rw [lost, storeLost]
  have kept := windowRefused_kept s k.isLt x.target true
  generalize hu : dropStore (windowRefused s k x.target true) k = u
  have word : rd u (R.BRL_ERR_COUNT k) = rd s (R.BRL_ERR_COUNT k) := hu ▸ kept.word
  have memory : MemorySame s u := hu ▸ kept.memorySame
  have core : (brlCore u k).stores = rest := by
    rw [← hu, dropStore, brlCore_setBrl_same, brlCore_congr (windowRefused_brl ..), hstores]
    rfl
  obtain ⟨reported, same⟩ := reported_windowError k.isLt word x.y x.addr
  have settled := (Local.refl (windowError u k x.y x.addr)).brlSettle (regs := [R.BRL_STATUS k]) (k := k) (by simp)
  obtain ⟨pend, count⟩ := reported.beside settled (by simp [R.BRL_IRQ_PEND, R.BRL_STATUS])
    (by simp [R.BRL_ERR_COUNT, R.BRL_STATUS])
  refine ⟨?_, settled.memoryAlone (memorySame_after same memory), pend, count⟩
  rw [(rested_brlSettle _ k).stores, stores_windowError, core]

/-- A window load that got an error response. -/
theorem brlAccess_refused {s : State} {k : Nat} {c0 : BrlCore} {u : BrlUse} {w : BrlTarget} (hst : u.st = false)
    (hplace : brlPlace s k u.y u.ea.addr = .window w) : brlAccess s k c0 true u =
      setBrl (setBrl (windowError (windowRefused s k w false) k u.y u.ea.addr) k fun c => c.putD 2 u.r 0) k
        fun c => c.step u.p u.ea := by
  simp only [brlAccess, hst, hplace]
  rfl

/-- Such a load gives 0 to the instruction after the next, with a window error. -/
theorem loadRefused_seen {s : State} {k : Nat} {c0 : BrlCore} {u : BrlUse} {w : BrlTarget} (hk : k < 4) (hst : u.st = false)
    (hplace : brlPlace s k u.y u.ea.addr = .window w) (hr : u.r < 16) (hland : Landed s k u.r) :
    seenAfter (brlAdvance (brlAccess s k c0 true u) k .seq) k 1 u.r % 2 ^ 32 = 0 ∧
    MemorySame s (brlAdvance (brlAccess s k c0 true u) k .seq) ∧
    Reported k s (brlAdvance (brlAccess s k c0 true u) k .seq) := by
  have kept := windowRefused_kept s hk w false
  obtain ⟨reported, same⟩ := reported_windowError hk kept.word u.y u.ea.addr
  obtain ⟨wt, core⟩ := brlCore_windowError (windowRefused s k w false) k u.y u.ea.addr
  rw [brlCore_congr (windowRefused_brl ..)] at core
  rw [brlAccess_refused hst hplace]
  generalize windowError (windowRefused s k w false) k u.y u.ea.addr = z at reported same core
  have memory : MemorySame s z := memorySame_after same kept.memorySame
  generalize ht : setBrl (setBrl z k fun c => c.putD 2 u.r 0) k (fun c => c.step u.p u.ea) = t
  have dest : brlCore t k = ((brlCore z k).putD 2 u.r 0).step u.p u.ea := by
    rw [← ht, brlCore_setBrl_same, brlCore_setBrl_same]
  have beside : Local (seqRegs k) k z (brlAdvance t k .seq) :=
    Local.brlAdvance (ht ▸ ((Local.refl z).setBrl _).setBrl _) (List.Subset.refl _) .seq
  have none : (brlCore z k).pend u.r = [] := by rw [core]; exact pend_nil_of_landed hland
  have due := (BrlCore.Due.of_put none 2 (2 ^ 32 - 1) 0).step_ne u.ea (p := u.p) (by omega) (by omega)
  have number : (brlCore t k).count = (brlCore z k).count := by rw [dest, count_step]; rfl
  have slot : u.r ∉ loopSlots := notMem_loopSlots_of_lt (by omega)
  refine ⟨?_, beside.memoryAlone memory,
    reported.beside beside (notMem_seqRegs k (by decide)) (notMem_seqRegs k (by decide))⟩
  rw [seenAfter_brlAdvance .seq (by rw [number, dest]; exact due) slot (by decide) (by decide)]
  exact merged_mod _ (n := 32) (by decide) 0

theorem windowLoadRefused_completes {s : State} {k : Fin 4} {x : BrlAccess} {w : BrlTarget} (hup : Up s)
    (hruns : CoreRuns s k (.load x))
    (hplace : brlPlace s k x.y (brlEa (brlCore s k) x.p x.mode x.disp.toInt).addr = .window w) (hd : Landed s k x.d) :
    Completes (.windowAccessError k (some x)) s fun t =>
      seenAfter t k 1 x.d % 2 ^ 32 = 0 ∧ MemorySame s t ∧ getB t (R.BRL_IRQ_PEND k) 13 = true ∧
      (rd t (R.BRL_ERR_COUNT k)).toNat = min ((rd s (R.BRL_ERR_COUNT k)).toNat + 1) 0xFFFFFFFF := by
  refine completes_run (f := (windowAccessError · k (some x))) rfl hup ?_
  obtain ⟨issues, cause, stalls⟩ := hruns
  have executed : windowAccessError s k (some x) =
      brlAdvance (brlAccess s k (brlCore s k) true (accessUse (brlCore s k) x false)) k .seq := by
    simp only [windowAccessError, issues, if_true, brlExecute, cause, stalls, Bool.false_eq_true, if_false]
    rfl
  obtain ⟨seen, memory, pend, count⟩ := loadRefused_seen (c0 := brlCore s k) (u := accessUse (brlCore s k) x false) k.isLt rfl
    hplace x.d.isLt hd
  rw [executed]
  exact ⟨seen, memory, pend, count⟩

/-! ## A store that reaches DRAM (R272, R302, R307) -/

theorem served_badWords (s : State) (req a n : Nat) : (served s req a n).badWords = s.badWords := by
  have left (l : List Nat) : ∀ t : State, (l.foldl leaveSelfRefresh t).badWords = t.badWords := by
    induction l with
    | nil => exact fun _ => rfl
    | cons u l ih =>
      intro t
      rw [List.foldl_cons, ih]
      unfold leaveSelfRefresh
      split <;> rfl
  unfold served
  dsimp only
  split
  · exact left _ _
  · rfl

theorem dramRead_dramWrite {s : State} (h : s.badWords = []) (a : Nat) (bs : List Byte) :
    dramRead (dramWrite s a bs) a bs.length = bs := by
  refine List.ext_getElem (by simp [dramRead, readBytes]) fun i h1 h2 => ?_
  simp only [dramRead, readBytes, List.getElem_map, List.getElem_range]
  exact dramWrite_inside s a bs h i h2

/-- What a core's DRAM store that gets an error response leaves, before the response: state `v`. -/
structure RefusedStore (s : State) (k a : Nat) (v : State) : Prop where
  word : rd v (R.BRL_ERR_COUNT k) = rd s (R.BRL_ERR_COUNT k)
  cores : v.brl = (dropStore s k).brl
  logged : Logged a 4 s v
  off : dramUsable s = false → MemorySame s v
  guarded : guardOk s 10 a 4 true = false → MemoryBut 0 0 s v

theorem refusedStore {s v : State} {k : Fin 4} {kind a : Nat} {d : Word}
    (h : (if kind = 1 then dropStore s k else unitWrite (dropStore s k) 10 a (wordBytes d)) = v) : RefusedStore s k a v := by
  have bytes : (wordBytes d).length = 4 := length_leBytes ..
  have dropped {n m : Nat} : Logged n m s (dropStore s k) := (Logged.refl s).same (fun _ _ => rfl) rfl rfl
  subst h
  split
  · exact ⟨rfl, rfl, dropped, fun _ => ⟨fun _ => rfl, rfl⟩, fun _ _ _ _ => rfl⟩
  · refine ⟨?_, unitWrite_brl .., dropped.unitWrite 10 bytes, fun off => ?_, fun refused => ?_⟩
    · refine (((Steady.refl (dropStore s k)).unitWrite (lim := 0x1100000) (le_refl _) 10 a (wordBytes d)).word _ ?_).trans rfl
      simp only [R.BRL_ERR_COUNT]
      omega
    · rw [unitWrite_off (dropStore s k) 10 a _ off]
      exact ⟨fun _ => rfl, rfl⟩
    · by_cases usable : dramUsable s = true
      · rw [unitWrite_refused (dropStore s k) 10 a _ usable (by rw [bytes]; exact refused)]
        exact (dropped.guardReport ..).bytes
      · rw [unitWrite_off (dropStore s k) 10 a _ (Bool.eq_false_iff.2 usable)]
        exact fun _ _ _ => rfl

theorem writeError_brl (s : State) (k : Fin 4) (target kind addr : Nat) :
    (writeError s (.beryl k) target kind addr).brl = s.brl := by
  have error := busError_brl s (two_le_masterCode k) target kind addr true
  unfold writeError
  dsimp only
  split
  · exact error
  · exact error

theorem writeError_kept (s : State) (k : Fin 4) (target kind addr : Nat) :
    Keeps (R.BRL_ERR_COUNT k) true s (writeError s (.beryl k) target kind addr) := by
  obtain ⟨err, fault, mail⟩ := errCount_unreported k.isLt
  have error := (Keeps.refl s).busError (b := true) err fault mail (masterCode (.beryl k)) target kind addr true
  unfold writeError
  dsimp only
  split
  · exact error
  · exact error.emit _

section store
variable {s : State} {k : Fin 4} {x : BrlStore} {rest : List BrlStore} {a : Nat}
  (hstores : (brlCore s k).stores = x :: rest) (htarget : x.target = .dram a)
include hstores htarget

theorem storeComplete_done (h : matrixDramRefused s (.beryl k) a 4 = none) :
    storeComplete s k = brlSettle (unitWrite (dropStore s k) 10 a (wordBytes x.data)) k := by
  have m : Fin.ofNat 4 k.val = k := by simp
  have dropped : matrixDramRefused (dropStore s k) (.beryl k) a 4 = none := h
  simp only [storeComplete, hstores, htarget, m, dropped]

theorem storeComplete_lost {kind : Nat} (h : matrixDramRefused s (.beryl k) a 4 = some kind) :
    storeComplete s k = brlSettle (windowError (writeError (if kind = 1 then dropStore s k
      else unitWrite (dropStore s k) 10 a (wordBytes x.data)) (.beryl k) 0 kind a) k x.y x.addr) k := by
  have m : Fin.ofNat 4 k.val = k := by simp
  have dropped : matrixDramRefused (dropStore s k) (.beryl k) a 4 = some kind := h
  simp only [storeComplete, hstores, htarget, m, dropped]

omit htarget in
theorem stores_dropStore : (brlCore (dropStore s k) k).stores = rest := by
  rw [dropStore, brlCore_setBrl_same, hstores]
  rfl

variable (hup : Up s)
include hup

theorem windowStoreDone_completes (h : matrixDramRefused s (.beryl k) a 4 = none) :
    Completes (.windowWriteComplete k) s fun t =>
      (brlCore t k).stores = rest ∧ t.arrays = s.arrays ∧
      (∀ b, b < a ∨ a + 4 ≤ b → readByte t.dram b = readByte s.dram b) ∧
      (s.badWords = [] → dramRead t a 4 = wordBytes x.data) := by
  refine completes_run (f := (storeComplete · k)) rfl hup ?_
  rw [storeComplete_done hstores htarget h]
  have bytes : (wordBytes x.data).length = 4 := length_leBytes ..
  obtain ⟨usable, guarded, holes⟩ : dramUsable (dropStore s k) = true ∧
      guardOk (dropStore s k) 10 a (wordBytes x.data).length true = true ∧
      holesOf (dropStore s k) a (wordBytes x.data).length = [] := by
    rw [bytes]
    have passes : writeFails s 10 a 4 = false := by
      simp only [matrixDramRefused] at h
      split at h
      · cases h
      · split at h
        · cases h
        · next fails => simpa using fails
    simp only [writeFails, Bool.not_eq_false', Bool.and_eq_true, List.isEmpty_iff] at passes
    exact ⟨passes.1.1, passes.1.2, passes.2⟩
  have settled := (Local.refl (unitWrite (dropStore s k) 10 a (wordBytes x.data))).brlSettle
    (regs := [R.BRL_STATUS k]) (k := k) (by simp)
  have logged := (Logged.refl (a := a) (dropStore s k)).unitWrite 10 bytes
  refine ⟨?_, settled.arrays.trans logged.arrays, fun b hb => ?_, fun hbad => ?_⟩
  · rw [(rested_brlSettle _ k).stores, brlCore_congr (unitWrite_brl ..), stores_dropStore hstores]
  · rw [settled.dram, unitWrite_outside _ 10 a _ b (bytes ▸ hb) usable guarded holes]
    rfl
  · rw [dramRead, settled.dram, unitWrite_ok _ 10 a _ usable guarded holes]
    have good : (served (dropStore s k) 10 a (wordBytes x.data).length).badWords = [] := (served_badWords ..).trans hbad
    have written := dramRead_dramWrite good a (wordBytes x.data)
    rwa [bytes] at written ⊢

theorem windowStoreRefused_completes {kind : Nat} (h : matrixDramRefused s (.beryl k) a 4 = some kind) :
    Completes (.windowWriteComplete k) s fun t =>
      (brlCore t k).stores = rest ∧ getB t (R.BRL_IRQ_PEND k) 13 = true ∧ t.arrays = s.arrays ∧
      (dramUsable s = false → MemorySame s t) ∧ MemoryBut a 4 s t ∧
      (guardOk s 10 a 4 true = false → MemoryBut 0 0 s t) ∧
      (rd t (R.BRL_ERR_COUNT k)).toNat = min ((rd s (R.BRL_ERR_COUNT k)).toNat + 1) 0xFFFFFFFF := by
  refine completes_run (f := (storeComplete · k)) rfl hup ?_
  rw [storeComplete_lost hstores htarget h]
  generalize hv : (if kind = 1 then dropStore s k else unitWrite (dropStore s k) 10 a (wordBytes x.data)) = v
  have stored := refusedStore hv
  have kept : Keeps (R.BRL_ERR_COUNT k) true v (writeError v (.beryl k) 0 kind a) := writeError_kept v k 0 kind a
  obtain ⟨reported, same⟩ := reported_windowError k.isLt (kept.word.trans stored.word) x.y x.addr
  have settled := (Local.refl (windowError (writeError v (.beryl k) 0 kind a) k x.y x.addr)).brlSettle
    (regs := [R.BRL_STATUS k]) (k := k) (by simp)
  obtain ⟨pend, count⟩ := reported.beside settled (by simp [R.BRL_IRQ_PEND, R.BRL_STATUS])
    (by simp [R.BRL_ERR_COUNT, R.BRL_STATUS])
  have after := settled.memoryAlone (memorySame_after same kept.memorySame)
  refine ⟨?_, pend, after.2.trans stored.logged.arrays, fun off => memorySame_after after (stored.off off),
    fun b out log => (after.1 b).trans (stored.logged.bytes b out log),
    fun refused b out log => (after.1 b).trans (stored.guarded refused b out log), count⟩
  rw [(rested_brlSettle _ k).stores, stores_windowError, brlCore_congr (writeError_brl ..), brlCore_congr stored.cores,
    stores_dropStore hstores]

end store
end Sys2Proof.Machine
end

namespace Sys2Proof
open Machine

/-- Settles O35: each command by what it writes; a window error's report and the settling of the core after it leave alone
what the command before them did. -/
theorem berylCoreCommandsComplete : Obligations.BerylCoreCommandsComplete := by
  unfold Obligations.BerylCoreCommandsComplete
  exact ⟨fun s k v hup hv hon hrun hhalt hie hslots hiter hstate =>
      interruptTake_completes hup hv hon hrun hhalt hie hslots hiter hstate,
    fun s k x rest hup hstores => ⟨fun a ht h => windowStoreDone_completes hstores ht hup h,
      fun a kind ht h => windowStoreRefused_completes hstores ht hup h, windowStoreLost_completes hup hstores⟩,
    fun s k x w hup hruns hplace hd => windowLoadRefused_completes hup hruns hplace hd,
    fun s k hup hon => ⟨runSet_completes hup hon, runCleared_completes hup hon,
      fun h hslots hiter hlevels hstores hrun hword => stepNop_completes hup hon h hslots hiter hlevels hstores hrun hword,
      stepUndefined_completes hup hon, timer_completes hup hon, mboxIn_completes hup hon, cMemory_completes hup hon⟩,
    fun s k vectors hup => irqPend_completes hup vectors, fun s k hup => coreReset_completes hup⟩

end Sys2Proof
